-- ==== Sys2Proof/Word.lean ====
section
/-!
DEFINITION. The words and bytes the SZC4800's registers, packets and queues are made of (00_scope.md R10: every
multi-byte field is little-endian), and keyed tables for the module's numbered objects.
-/

namespace Sys2Proof

/-- A 32-bit register, parameter or result word. -/
abbrev Word := BitVec 32

/-- One byte. -/
abbrev Byte := BitVec 8

/-- Values of numbered objects, keyed by the object's number; an absent key has the object's reset value. -/
abbrev Tbl (α : Type) := List (Nat × α)

end Sys2Proof
end

