-- ==== Sys2Proof/Syntax.lean ====
section
/-!
DEFINITION. The commands of the SZC4800 block: one constructor per row of spec/opcode_table.json. The first 190 are the
Hiast commands of the twenty groups (02 R49); the others are register accesses, pin and bus events and the steps of the
module's own engines (95_what_each_step_holds.md). No row of the table has bits of its own, so a command is a term, and
what the outside world supplies with it (a packet's words, a frame's bytes, a sample) stands in its operands.
-/

namespace Sys2Proof

/-- What the module samples or sees at its terminals: the last value shown for each of these stands in the state. -/
inductive Probe where
  /-- Feed voltage of a power die in mV (0 PDA, 1 PDB). -/
  | feedMv (die : Nat)
  /-- Current of a load channel in mA, positive out of the terminal, as the die's ADC samples it. -/
  | chanMa (ch : Nat)
  /-- Output voltage of a load channel in units of 10 mV. -/
  | chanVout (ch : Nat)
  /-- Hottest switch junction of a load channel in units of 0.1 °C. -/
  | chanTj (ch : Nat)
  /-- Voltage at a field input in mV. -/
  | fiMv (fi : Nat)
  /-- Current of a field output in mA. -/
  | foMa (fo : Nat)
  /-- Board temperature that the wire model of a die starts from, in 0.1 °C. -/
  | boardTemp (die : Nat)
  /-- A measurement source by its SRC code, as the ADC code it converts to, above 16383 past full scale. -/
  | source (src : Nat)
  /-- Voltage at an analogue input in mV, as it serves as a ratiometric reference (08 R246). -/
  | aiMv (ai : Nat)
  /-- The KEY pin: 1 active. -/
  | key
  /-- LIMP_N and SAFE_N pins: 0 low. -/
  | limpN | safeN
  /-- Voltage on VHF, the supply ahead of the hold-up converter, in mV. -/
  | vhfMv
  deriving DecidableEq, Repr

/-- The stimulus that comes with every command: the nanoseconds of module clock since the previous command, and
the samples the outside world showed in that time, in order. -/
structure Stim where
  dt : Nat := 0
  samples : List (Probe × Int) := []
  deriving DecidableEq, Repr

/-- The header fields and parameter words of a Hiast packet whose header passes HCRC (02 R37, R38). -/
structure Req where
  tenant : Nat
  seq : Nat := 0
  version : Nat := 2
  notify : Bool := true
  lateOk : Bool := false
  notBefore : Nat := 0
  params : List Word := []
  deriving DecidableEq, Repr

/-- A function that the quiescence rule governs (01 R31): an island, a port, a CAN controller, a LIN channel, a
partition, a virtual instance. -/
inductive Func where
  | island (n : Nat)
  | port (p : Nat)
  | can (c : Nat)
  | lin (l : Nat)
  | part (p : Nat)
  | vi (kind idx : Nat)
  deriving DecidableEq, Repr

/-- A remote tenant's carriage frame as it arrives (03 R103): the port, the source MAC address, the MACsec receive
channel that decapsulated it, and the bytes from the carriage header on. -/
structure Carriage where
  port : Nat
  src : Nat
  rxsc : Option Nat := none
  bytes : List Byte
  deriving DecidableEq, Repr

/-- An Ethernet frame as it stands on a link, without preamble and FCS. -/
structure EthFrame where
  dst : Nat
  src : Nat
  /-- The 802.1Q tag's control information (PCP, DEI, VID), if the frame is tagged. -/
  vlan : Option Nat := none
  /-- The sequence number of an R-TAG, if the frame carries one. -/
  rtag : Option Nat := none
  etype : Nat
  payload : List Byte := []
  deriving DecidableEq, Repr

/-- The SecTAG and ICV of a MACsec frame (11 R347 to R349). -/
structure SecTag where
  an : Nat
  pn : Nat
  /-- The SCI, when the SecTAG carries it. -/
  sci : Option Nat := none
  /-- The frame's user data is encrypted. -/
  enc : Bool := true
  icv : List Byte := []
  deriving DecidableEq, Repr

/-- A frame as it completes at an ingress port. Under MACsec `frame` is the frame that decryption yields. -/
structure RxFrame where
  port : Nat
  frame : EthFrame
  sec : Option SecTag := none
  fcsOk : Bool := true
  deriving DecidableEq, Repr

/-- A gate list's owner: a port's transmission gates or a stream gate. -/
inductive GateRef where
  | port (p : Nat)
  | stream (g : Nat)
  deriving DecidableEq, Repr

/-- A CAN frame (12). -/
structure CanFrame where
  id : Nat
  ext : Bool := false
  fmt : Nat := 0
  rtr : Bool := false
  brs : Bool := false
  esi : Bool := false
  sdt : Nat := 0
  vcid : Nat := 0
  af : Nat := 0
  sec : Bool := false
  dlc : Nat := 0
  data : List Byte := []
  deriving DecidableEq, Repr

/-- How a CAN transmit attempt ended. -/
inductive TxOutcome where
  | success
  | ackError
  | error
  | lostArbitration
  deriving DecidableEq, Repr

/-- An IEEE 1722 PDU that a listener context claims (13 R408). -/
structure AcfPdu where
  port : Nat
  /-- NTSCF 0x82, TSCF 0x04. -/
  subtype : Nat := 0x82
  streamId : Nat
  seqNum : Nat
  msgs : List (List Byte)
  deriving DecidableEq, Repr

/-- A switch: a channel's, or a half-bridge's upper one, or (low) a half-bridge's lower one (05 R154). -/
structure SwitchRef where
  ch : Nat
  low : Bool := false
  deriving DecidableEq, Repr

/-- A descriptor of a virtual instance: KIND, instance and index in its submission ring (15 R475). -/
structure RingRef where
  kind : Nat
  idx : Nat
  index : Nat
  deriving DecidableEq, Repr

/-- What a LUN's parameter page says (17 R517, R518): the ONFI signature and the CRC are good, bits per cell, bytes of a
page's main and spare areas, pages per block, blocks, SDR timing modes as a mask, and the NV-DDR2 rate in MT/s at 1.8 V, 0
for none. -/
structure NandLun where
  onfi : Bool := true
  crc : Bool := true
  cells : Nat := 1
  page : Nat := 4096
  spare : Nat := 304
  pages : Nat := 64
  blocks : Nat := 1024
  sdr : Nat := 63
  ddr2 : Nat := 400
  deriving DecidableEq, Repr

/-- A hart's read of a CSR that the module gives its content (15 R444, R445): TALLY by default. -/
structure CsrRead where
  hart : Nat
  csr : Nat := 0xCC0
  deriving DecidableEq, Repr

/-- A hart's access: a load (0), a store (1), an instruction fetch (2), or a misaligned LR (3) or SC or AMO (4), of a width
in bits (15 R443, R452). -/
structure Access where
  kind : Nat
  width : Nat := 32
  deriving DecidableEq, Repr

/-- A request of the debugger to a hart: to halt it, or (go) to let it run (15 R467). -/
structure DebugReq where
  hart : Nat
  go : Bool := false
  deriving DecidableEq, Repr

/-- A sample of a measurement run: its code, past full scale above 16383, and the voltage in mV at the input that serves
as reference of a ratiometric input (08 R246). -/
structure Sample where
  code : Nat
  refMv : Nat := 5000
  deriving DecidableEq, Repr

/-- A pair whose comparator trips; both: the other pair of its quad trips in the same cycle (15 R465). -/
structure TripRef where
  pair : Nat
  both : Bool := false
  deriving DecidableEq, Repr

/-- A Poppy ring message as it arrives (14 R418, R419): SRC, TYPE, PN, DST, ROUND, CONSENT. -/
structure RingMsg where
  src : Nat
  kind : Nat
  pn : Bool := false
  dst : Nat
  round : Nat := 0
  consent : Nat := 0
  /-- On a CAN ring: time in ns since the start-of-frame bit was sampled. -/
  ago : Nat := 0
  deriving DecidableEq, Repr

/-- The CLREQ of a cluster frame (14 R419), and on a CAN ring the time in ns since its start-of-frame bit was sampled. -/
structure ClMsg where
  clreq : Word
  ago : Nat := 0
  deriving DecidableEq, Repr

/-- Where a wake comes from (14 R432): its index, and with CAUSE 2 the frame that the decoder took. -/
structure WakeSrc where
  idx : Nat
  frame : Option CanFrame := none
  deriving DecidableEq, Repr

/-- A fault that a BIST finds in the block under test (19 R579): the failing bit, the failing March step, the address,
and the deviation of a measurement. -/
structure AuditFail where
  bit : Nat := 0
  step : Nat := 0
  addr : Nat := 0
  dev : Int := 0
  /-- The fault lies in logic, not in a memory row (Teller pairs have both). -/
  logic : Bool := false
  deriving DecidableEq, Repr


/-- One constructor per row of spec/opcode_table.json, in the table's order. The first operand is the elapsed time and
the samples seen since the previous command; a Hiast row's second operand is its packet. -/
inductive Instr where
  /-- SYS_ECHO (R51). -/
  | sysEcho (e : Stim) (r : Req)
  /-- SYS_CANCEL (R67). -/
  | sysCancel (e : Stim) (r : Req)
  /-- SYS_IDENTITY (R4). -/
  | sysIdentity (e : Stim) (r : Req)
  /-- SYS_LIMITS (R52). -/
  | sysLimits (e : Stim) (r : Req)
  /-- SYS_ISLAND_CTL (R33). -/
  | sysIslandCtl (e : Stim) (r : Req)
  /-- SYS_ISLAND_STATUS (R36). -/
  | sysIslandStatus (e : Stim) (r : Req)
  /-- TEN_CREATE (R114). -/
  | tenCreate (e : Stim) (r : Req)
  /-- TEN_DELETE (R125). -/
  | tenDelete (e : Stim) (r : Req)
  /-- TEN_QUERY (R133). -/
  | tenQuery (e : Stim) (r : Req)
  /-- TEN_SHARE (R117). -/
  | tenShare (e : Stim) (r : Req)
  /-- TEN_RIGHTS (R118). -/
  | tenRights (e : Stim) (r : Req)
  /-- TEN_RESET (R123). -/
  | tenReset (e : Stim) (r : Req)
  /-- TEN_BIND (R132). -/
  | tenBind (e : Stim) (r : Req)
  /-- TEN_RESUME (R121). -/
  | tenResume (e : Stim) (r : Req)
  /-- TEN_VI_CREATE (R127). -/
  | tenViCreate (e : Stim) (r : Req)
  /-- TEN_VI_DELETE (R133). -/
  | tenViDelete (e : Stim) (r : Req)
  /-- TEN_VI_RESET (R129). -/
  | tenViReset (e : Stim) (r : Req)
  /-- TEN_VI_QUERY (R133). -/
  | tenViQuery (e : Stim) (r : Req)
  /-- TEN_ISLAND_ENABLE (R119). -/
  | tenIslandEnable (e : Stim) (r : Req)
  /-- QUE_CONFIG (R135). -/
  | queConfig (e : Stim) (r : Req)
  /-- QUE_FLUSH (R96). -/
  | queFlush (e : Stim) (r : Req)
  /-- QUE_STATUS (R134). -/
  | queStatus (e : Stim) (r : Req)
  /-- QUE_LEVEL (R134). -/
  | queLevel (e : Stim) (r : Req)
  /-- QUE_CLEAR (R134). -/
  | queClear (e : Stim) (r : Req)
  /-- PWR_CONFIG (R145). -/
  | pwrConfig (e : Stim) (r : Req)
  /-- PWR_READ_CONFIG (R174). -/
  | pwrReadConfig (e : Stim) (r : Req)
  /-- PWR_ASSIGN (R139). -/
  | pwrAssign (e : Stim) (r : Req)
  /-- PWR_SWITCH (R158). -/
  | pwrSwitch (e : Stim) (r : Req)
  /-- PWR_DUTY (R149). -/
  | pwrDuty (e : Stim) (r : Req)
  /-- PWR_CLEAR (R158). -/
  | pwrClear (e : Stim) (r : Req)
  /-- PWR_STATUS (R175). -/
  | pwrStatus (e : Stim) (r : Req)
  /-- PUR_WIRE (R197). -/
  | purWire (e : Stim) (r : Req)
  /-- PUR_READ_WIRE (R202). -/
  | purReadWire (e : Stim) (r : Req)
  /-- PUR_STATUS (R204). -/
  | purStatus (e : Stim) (r : Req)
  /-- PUR_CHANNEL (R205). -/
  | purChannel (e : Stim) (r : Req)
  /-- PUR_LIMITS (R203). -/
  | purLimits (e : Stim) (r : Req)
  /-- LMP_POLICY (R217). -/
  | lmpPolicy (e : Stim) (r : Req)
  /-- LMP_RECLAIM (R219). -/
  | lmpReclaim (e : Stim) (r : Req)
  /-- LMP_STATUS (R223). -/
  | lmpStatus (e : Stim) (r : Req)
  /-- LMP_READ_POLICY (R222). -/
  | lmpReadPolicy (e : Stim) (r : Req)
  /-- LMP_ENTER (R207). -/
  | lmpEnter (e : Stim) (r : Req)
  /-- FIO_IN_CONFIG (R255). -/
  | fioInConfig (e : Stim) (r : Req)
  /-- FIO_READ_CONFIG (R254). -/
  | fioReadConfig (e : Stim) (r : Req)
  /-- FIO_ASSIGN (R228). -/
  | fioAssign (e : Stim) (r : Req)
  /-- FIO_OUT_CONFIG (R256). -/
  | fioOutConfig (e : Stim) (r : Req)
  /-- FIO_IN_STATE (R258). -/
  | fioInState (e : Stim) (r : Req)
  /-- FIO_EDGES (R257). -/
  | fioEdges (e : Stim) (r : Req)
  /-- FIO_OUT (R240). -/
  | fioOut (e : Stim) (r : Req)
  /-- FIO_OUT_CLEAR (R240). -/
  | fioOutClear (e : Stim) (r : Req)
  /-- FIO_OUT_STATUS (R259). -/
  | fioOutStatus (e : Stim) (r : Req)
  /-- MEA_AI_CONFIG (R245). -/
  | meaAiConfig (e : Stim) (r : Req)
  /-- MEA_SEQ_ASSIGN (R249). -/
  | meaSeqAssign (e : Stim) (r : Req)
  /-- MEA_SEQ_CONFIG (R261). -/
  | meaSeqConfig (e : Stim) (r : Req)
  /-- MEA_RUN (R250). -/
  | meaRun (e : Stim) (r : Req)
  /-- MEA_RESULTS (R262). -/
  | meaResults (e : Stim) (r : Req)
  /-- MEA_CONVERT (R260). -/
  | meaConvert (e : Stim) (r : Req)
  /-- TIM_NOW (R289). -/
  | timNow (e : Stim) (r : Req)
  /-- TIM_STATUS (R290). -/
  | timStatus (e : Stim) (r : Req)
  /-- TIM_DOMAIN (R291). -/
  | timDomain (e : Stim) (r : Req)
  /-- TIM_SET (R273). -/
  | timSet (e : Stim) (r : Req)
  /-- TIM_PORTLAT (R289). -/
  | timPortlat (e : Stim) (r : Req)
  /-- TIM_PPS (R287). -/
  | timPps (e : Stim) (r : Req)
  /-- TIM_PPSIN (R288). -/
  | timPpsin (e : Stim) (r : Req)
  /-- TIM_TRIG_ASSIGN (R280). -/
  | timTrigAssign (e : Stim) (r : Req)
  /-- TIM_TRIG_CONFIG (R281). -/
  | timTrigConfig (e : Stim) (r : Req)
  /-- TIM_TRIG_ARM (R281). -/
  | timTrigArm (e : Stim) (r : Req)
  /-- TIM_TRIG_STATUS (R292). -/
  | timTrigStatus (e : Stim) (r : Req)
  /-- TIM_TXQ_ASSIGN (R278). -/
  | timTxqAssign (e : Stim) (r : Req)
  /-- TIM_TXSTAMPS (R279). -/
  | timTxstamps (e : Stim) (r : Req)
  /-- TIM_ALARM (R276). -/
  | timAlarm (e : Stim) (r : Req)
  /-- TIM_CANREF (R284). -/
  | timCanref (e : Stim) (r : Req)
  /-- NET_PORT_CONFIG (R324). -/
  | netPortConfig (e : Stim) (r : Req)
  /-- NET_PORT_CTL (R297). -/
  | netPortCtl (e : Stim) (r : Req)
  /-- NET_QUEUE_CONFIG (R306). -/
  | netQueueConfig (e : Stim) (r : Req)
  /-- NET_VLAN (R323). -/
  | netVlan (e : Stim) (r : Req)
  /-- NET_ETYPE (R316). -/
  | netEtype (e : Stim) (r : Req)
  /-- NET_FDB_ADD (R301). -/
  | netFdbAdd (e : Stim) (r : Req)
  /-- NET_FDB_DEL (R323). -/
  | netFdbDel (e : Stim) (r : Req)
  /-- NET_FDB_FLUSH (R323). -/
  | netFdbFlush (e : Stim) (r : Req)
  /-- NET_FDB_LOOKUP (R326). -/
  | netFdbLookup (e : Stim) (r : Req)
  /-- NET_FDB_AGE (R301). -/
  | netFdbAge (e : Stim) (r : Req)
  /-- NET_PORT_STATUS (R325). -/
  | netPortStatus (e : Stim) (r : Req)
  /-- NET_COUNTERS (R322). -/
  | netCounters (e : Stim) (r : Req)
  /-- NET_BUFFER (R323). -/
  | netBuffer (e : Stim) (r : Req)
  /-- TSN_CS_OPEN (R354). -/
  | tsnCsOpen (e : Stim) (r : Req)
  /-- TSN_CS_COMMIT (R355). -/
  | tsnCsCommit (e : Stim) (r : Req)
  /-- TSN_CS_ABORT (R354). -/
  | tsnCsAbort (e : Stim) (r : Req)
  /-- TSN_STREAM (R333). -/
  | tsnStream (e : Stim) (r : Req)
  /-- TSN_STREAM_READ (R358). -/
  | tsnStreamRead (e : Stim) (r : Req)
  /-- TSN_STREAM_STATUS (R361). -/
  | tsnStreamStatus (e : Stim) (r : Req)
  /-- TSN_STREAM_CLEAR (R358). -/
  | tsnStreamClear (e : Stim) (r : Req)
  /-- TSN_GCL (R359). -/
  | tsnGcl (e : Stim) (r : Req)
  /-- TSN_CBS (R346). -/
  | tsnCbs (e : Stim) (r : Req)
  /-- TSN_PORT_STATUS (R360). -/
  | tsnPortStatus (e : Stim) (r : Req)
  /-- TSN_MACSEC_PORT (R362). -/
  | tsnMacsecPort (e : Stim) (r : Req)
  /-- TSN_SA (R350). -/
  | tsnSa (e : Stim) (r : Req)
  /-- TSN_RXSC (R362). -/
  | tsnRxsc (e : Stim) (r : Req)
  /-- TSN_TXSA_SELECT (R350). -/
  | tsnTxsaSelect (e : Stim) (r : Req)
  /-- TSN_MACSEC_STATUS (R363). -/
  | tsnMacsecStatus (e : Stim) (r : Req)
  /-- BUS_ASSIGN (R367). -/
  | busAssign (e : Stim) (r : Req)
  /-- BUS_CTL (R368). -/
  | busCtl (e : Stim) (r : Req)
  /-- BUS_CAN_CONFIG (R398). -/
  | busCanConfig (e : Stim) (r : Req)
  /-- BUS_CAN_FILTER (R377). -/
  | busCanFilter (e : Stim) (r : Req)
  /-- BUS_CAN_STATUS (R399). -/
  | busCanStatus (e : Stim) (r : Req)
  /-- BUS_CAN_TX (R380). -/
  | busCanTx (e : Stim) (r : Req)
  /-- BUS_CAN_RX (R397). -/
  | busCanRx (e : Stim) (r : Req)
  /-- BUS_CAN_TXE (R397). -/
  | busCanTxe (e : Stim) (r : Req)
  /-- BUS_LIN_CONFIG (R397). -/
  | busLinConfig (e : Stim) (r : Req)
  /-- BUS_LIN_FRAMES (R392). -/
  | busLinFrames (e : Stim) (r : Req)
  /-- BUS_LIN_SCHEDULE (R393). -/
  | busLinSchedule (e : Stim) (r : Req)
  /-- BUS_LIN_RUN (R394). -/
  | busLinRun (e : Stim) (r : Req)
  /-- BUS_LIN_DATA (R394). -/
  | busLinData (e : Stim) (r : Req)
  /-- BUS_LIN_READ (R395). -/
  | busLinRead (e : Stim) (r : Req)
  /-- BUS_LIN_STATUS (R397). -/
  | busLinStatus (e : Stim) (r : Req)
  /-- BUS_LIN_SLEEP (R396). -/
  | busLinSleep (e : Stim) (r : Req)
  /-- BUS_LIN_WAKE (R396). -/
  | busLinWake (e : Stim) (r : Req)
  /-- GWY_ROUTE (R414). -/
  | gwyRoute (e : Stim) (r : Req)
  /-- GWY_ROUTE_READ (R414). -/
  | gwyRouteRead (e : Stim) (r : Req)
  /-- GWY_ACF (R409). -/
  | gwyAcf (e : Stim) (r : Req)
  /-- GWY_ACF_STATUS (R414). -/
  | gwyAcfStatus (e : Stim) (r : Req)
  /-- GWY_QUEUE (R406). -/
  | gwyQueue (e : Stim) (r : Req)
  /-- GWY_STATUS (R415). -/
  | gwyStatus (e : Stim) (r : Req)
  /-- NMG_RING_CONFIG (R438). -/
  | nmgRingConfig (e : Stim) (r : Req)
  /-- NMG_CLUSTER (R437). -/
  | nmgCluster (e : Stim) (r : Req)
  /-- NMG_REQUEST (R437). -/
  | nmgRequest (e : Stim) (r : Req)
  /-- NMG_STATUS (R439). -/
  | nmgStatus (e : Stim) (r : Req)
  /-- NMG_WAKE_CONFIG (R437). -/
  | nmgWakeConfig (e : Stim) (r : Req)
  /-- NMG_WAKE_CAUSE (R437). -/
  | nmgWakeCause (e : Stim) (r : Req)
  /-- CPU_PART_CONFIG (R448). -/
  | cpuPartConfig (e : Stim) (r : Req)
  /-- CPU_PART_CTL (R450). -/
  | cpuPartCtl (e : Stim) (r : Req)
  /-- CPU_PART_STATUS (R477). -/
  | cpuPartStatus (e : Stim) (r : Req)
  /-- CPU_PAIR_STATUS (R478). -/
  | cpuPairStatus (e : Stim) (r : Req)
  /-- CPU_DEBUG (R467). -/
  | cpuDebug (e : Stim) (r : Req)
  /-- CPU_RESYNC (R476). -/
  | cpuResync (e : Stim) (r : Req)
  /-- CPU_INJECT (R476). -/
  | cpuInject (e : Stim) (r : Req)
  /-- CPU_MEM_STATUS (R479). -/
  | cpuMemStatus (e : Stim) (r : Req)
  /-- VLT_STATUS (R514). -/
  | vltStatus (e : Stim) (r : Req)
  /-- VLT_CONFIG (R514). -/
  | vltConfig (e : Stim) (r : Req)
  /-- VLT_MBOX_ASSIGN (R514). -/
  | vltMboxAssign (e : Stim) (r : Req)
  /-- VLT_RESTART (R501). -/
  | vltRestart (e : Stim) (r : Req)
  /-- VLT_MEASURE (R514). -/
  | vltMeasure (e : Stim) (r : Req)
  /-- VLT_RANDOM (R508). -/
  | vltRandom (e : Stim) (r : Req)
  /-- VLT_HASH (R514). -/
  | vltHash (e : Stim) (r : Req)
  /-- VLT_MAC (R514). -/
  | vltMac (e : Stim) (r : Req)
  /-- VLT_CIPHER (R514). -/
  | vltCipher (e : Stim) (r : Req)
  /-- VLT_AEAD (R514). -/
  | vltAead (e : Stim) (r : Req)
  /-- VLT_SIGN (R514). -/
  | vltSign (e : Stim) (r : Req)
  /-- VLT_VERIFY (R514). -/
  | vltVerify (e : Stim) (r : Req)
  /-- VLT_KEX (R507). -/
  | vltKex (e : Stim) (r : Req)
  /-- VLT_KEY_GEN (R514). -/
  | vltKeyGen (e : Stim) (r : Req)
  /-- VLT_KEY_IMPORT (R514). -/
  | vltKeyImport (e : Stim) (r : Req)
  /-- VLT_KEY_PUBLIC (R514). -/
  | vltKeyPublic (e : Stim) (r : Req)
  /-- VLT_KEY_DELETE (R498). -/
  | vltKeyDelete (e : Stim) (r : Req)
  /-- VLT_KEY_INFO (R514). -/
  | vltKeyInfo (e : Stim) (r : Req)
  /-- VLT_CERT (R514). -/
  | vltCert (e : Stim) (r : Req)
  /-- VLT_LC_NONCE (R512). -/
  | vltLcNonce (e : Stim) (r : Req)
  /-- VLT_LC_ADVANCE (R511). -/
  | vltLcAdvance (e : Stim) (r : Req)
  /-- STO_FORMAT (R523). -/
  | stoFormat (e : Stim) (r : Req)
  /-- STO_VOL_CONFIG (R526). -/
  | stoVolConfig (e : Stim) (r : Req)
  /-- STO_STATUS (R542). -/
  | stoStatus (e : Stim) (r : Req)
  /-- STO_READ (R541). -/
  | stoRead (e : Stim) (r : Req)
  /-- STO_WRITE (R529). -/
  | stoWrite (e : Stim) (r : Req)
  /-- STO_TRIM (R540). -/
  | stoTrim (e : Stim) (r : Req)
  /-- STO_GROUP_OPEN (R530). -/
  | stoGroupOpen (e : Stim) (r : Req)
  /-- STO_GROUP_COMMIT (R530). -/
  | stoGroupCommit (e : Stim) (r : Req)
  /-- STO_GROUP_ABORT (R530). -/
  | stoGroupAbort (e : Stim) (r : Req)
  /-- STO_ESCROW_CONFIG (R540). -/
  | stoEscrowConfig (e : Stim) (r : Req)
  /-- STO_ESCROW_STATUS (R543). -/
  | stoEscrowStatus (e : Stim) (r : Req)
  /-- STO_ESCROW_MEASURE (R532). -/
  | stoEscrowMeasure (e : Stim) (r : Req)
  /-- STO_PATROL (R524). -/
  | stoPatrol (e : Stim) (r : Req)
  /-- LOG_STATUS (R544). -/
  | logStatus (e : Stim) (r : Req)
  /-- LOG_READ (R544). -/
  | logRead (e : Stim) (r : Req)
  /-- LOG_CHECKPOINT (R544). -/
  | logCheckpoint (e : Stim) (r : Req)
  /-- LOG_WRITE (R544). -/
  | logWrite (e : Stim) (r : Req)
  /-- IMG_OFFER (R557). -/
  | imgOffer (e : Stim) (r : Req)
  /-- IMG_DATA (R557). -/
  | imgData (e : Stim) (r : Req)
  /-- IMG_CLOSE (R554). -/
  | imgClose (e : Stim) (r : Req)
  /-- IMG_CONFIRM (R563). -/
  | imgConfirm (e : Stim) (r : Req)
  /-- IMG_ACTIVATE (R561). -/
  | imgActivate (e : Stim) (r : Req)
  /-- IMG_REVERT (R564). -/
  | imgRevert (e : Stim) (r : Req)
  /-- IMG_STATUS (R569). -/
  | imgStatus (e : Stim) (r : Req)
  /-- IMG_PEER (R558). -/
  | imgPeer (e : Stim) (r : Req)
  /-- IMG_ABORT (R557). -/
  | imgAbort (e : Stim) (r : Req)
  /-- IMG_CONFIG (R548). -/
  | imgConfig (e : Stim) (r : Req)
  /-- TST_AUDIT_RUN (R591). -/
  | tstAuditRun (e : Stim) (r : Req)
  /-- TST_SUMMARY (R591). -/
  | tstSummary (e : Stim) (r : Req)
  /-- TST_DETAIL (R591). -/
  | tstDetail (e : Stim) (r : Req)
  /-- TST_FAULT_STATUS (R591). -/
  | tstFaultStatus (e : Stim) (r : Req)
  /-- TST_FAULT_CLEAR (R591). -/
  | tstFaultClear (e : Stim) (r : Req)
  /-- TST_FAULT_MASK (R591). -/
  | tstFaultMask (e : Stim) (r : Req)
  /-- DOORBELL (R86). -/
  | doorbell (e : Stim) (who : Nat) (t : Nat) (q : Nat) (value : Word)
  /-- FLUSH (R96). -/
  | flush (e : Stim) (who : Nat) (t : Nat) (q : Nat) (value : Word)
  /-- Q_STATUS_CLEAR (R95). -/
  | qStatusClear (e : Stim) (who : Nat) (t : Nat) (q : Nat) (value : Word)
  /-- REGISTER_WRITE (R13). -/
  | registerWrite (e : Stim) (who : Nat) (addr : Nat) (width : Nat) (value : Nat)
  /-- DISPATCH (R58). -/
  | dispatch (e : Stim)
  /-- NOTBEFORE_REACHED (R61). -/
  | notbeforeReached (e : Stim)
  /-- HELD_REPLY_POSTED (R90). -/
  | heldReplyPosted (e : Stim) (t : Nat)
  /-- POINTER_CHECK (R100). -/
  | pointerCheck (e : Stim) (t : Nat) (q : Nat) (prod : Bool) (ptr : Nat) (inv : Nat)
  /-- CARRIAGE_FRAME_RECEIVED (R107). -/
  | carriageFrameReceived (e : Stim) (f : Carriage)
  /-- CARRIAGE_SEND (R108). -/
  | carriageSend (e : Stim) (t : Nat)
  /-- CARRIAGE_RETRANSMIT (R108). -/
  | carriageRetransmit (e : Stim) (t : Nat) (fseq : Nat)
  /-- TEN_RESET_DONE (R123). -/
  | tenResetDone (e : Stim) (t : Nat)
  /-- VI_RESET_COMPLETE (R129). -/
  | viResetComplete (e : Stim) (kind : Nat) (idx : Nat)
  /-- CLOCK_LOSS (R20). -/
  | clockLoss (e : Stim) (isl : Nat)
  /-- CLOCK_RETURN (R20). -/
  | clockReturn (e : Stim) (isl : Nat)
  /-- QUIESCENCE_REACHED (R22). -/
  | quiescenceReached (e : Stim) (fn : Func)
  /-- FORCED_SHUTDOWN (R25). -/
  | forcedShutdown (e : Stim) (fn : Func)
  /-- ISLAND_RUN_REACHED (R27). -/
  | islandRunReached (e : Stim) (fn : Func)
  /-- SLEW_START (R629). -/
  | slewStart (e : Stim) (ch : Nat)
  /-- TURN_ON_SLEW_END (R159). -/
  | turnOnSlewEnd (e : Stim) (ch : Nat)
  /-- TURN_OFF_SLEW_END (R159). -/
  | turnOffSlewEnd (e : Stim) (ch : Nat)
  /-- INRUSH_WINDOW_END (R151). -/
  | inrushWindowEnd (e : Stim) (ch : Nat)
  /-- OVERCURRENT_TRIP (R152). -/
  | overcurrentTrip (e : Stim) (ch : Nat)
  /-- SHORT_CIRCUIT_TRIP (R153). -/
  | shortCircuitTrip (e : Stim) (ch : Nat)
  /-- THERMAL_LATCH_SET (R154). -/
  | thermalLatchSet (e : Stim) (sw : SwitchRef)
  /-- THERMAL_LATCH_RELEASE (R154). -/
  | thermalLatchRelease (e : Stim) (sw : SwitchRef)
  /-- WIRE_TRIP (R192). -/
  | wireTrip (e : Stim) (ch : Nat)
  /-- WIRE_LATCH_RELEASE (R192). -/
  | wireLatchRelease (e : Stim) (ch : Nat)
  /-- REVERSE_CURRENT (R167). -/
  | reverseCurrent (e : Stim) (ch : Nat) (present : Bool)
  /-- DRIVER_FAULT (R168). -/
  | driverFault (e : Stim) (ch : Nat)
  /-- BLOCK_CHECK (R146). -/
  | blockCheck (e : Stim) (ch : Nat) (wire : Bool) (found : List Word)
  /-- RETRY_DUE (R163). -/
  | retryDue (e : Stim) (ch : Nat)
  /-- ON_STABLE_RELOAD (R164). -/
  | onStableReload (e : Stim) (ch : Nat)
  /-- OPEN_LOAD_COUNT (R165). -/
  | openLoadCount (e : Stim) (ch : Nat) (below : Bool)
  /-- OFF_STATE_CYCLE (R166). -/
  | offStateCycle (e : Stim) (ch : Nat) (aboveIpu : Bool) (aboveNone : Bool)
  /-- PWM_PERIOD_BOUNDARY (R149). -/
  | pwmPeriodBoundary (e : Stim) (ch : Nat)
  /-- FEED_LOSS (R169). -/
  | feedLoss (e : Stim) (die : Nat)
  /-- FEED_RETURN (R169). -/
  | feedReturn (e : Stim) (die : Nat)
  /-- PURSE_EVALUATION (R185). -/
  | purseEvaluation (e : Stim)
  /-- OVERDRAW_WINDOW_END (R188). -/
  | overdrawWindowEnd (e : Stim) (ch : Nat) (n : Nat)
  /-- YARROW_ENTRY (R207). -/
  | yarrowEntry (e : Stim) (die : Nat) (cause : Nat)
  /-- HEARTBEAT_LOSS (R207). -/
  | heartbeatLoss (e : Stim) (die : Nat)
  /-- LOGIC_RESET_INDICATION (R207). -/
  | logicResetIndication (e : Stim)
  /-- LIMP_N_LOW (R207). -/
  | limpNLow (e : Stim)
  /-- SAFE_N_LOW (R589). -/
  | safeNLow (e : Stim)
  /-- LINK_LOST_DECLARED (R210). -/
  | linkLostDeclared (e : Stim) (die : Nat)
  /-- HOLD_EXPIRY (R212). -/
  | holdExpiry (e : Stim) (ch : Nat)
  /-- LH_PIN_CHANGE (R215). -/
  | lhPinChange (e : Stim) (die : Nat) (pin : Nat) (level : Bool)
  /-- RECLAIM_COMPLETE (R219). -/
  | reclaimComplete (e : Stim)
  /-- FIELD_OUTPUT_SWITCH (R240). -/
  | fieldOutputSwitch (e : Stim) (fo : Nat)
  /-- FIELD_OUTPUT_LIMIT (R241). -/
  | fieldOutputLimit (e : Stim) (fo : Nat)
  /-- FIELD_OUTPUT_THERMAL (R241). -/
  | fieldOutputThermal (e : Stim) (fo : Nat)
  /-- FIELD_OUTPUT_THERMAL_RELEASE (R241). -/
  | fieldOutputThermalRelease (e : Stim) (fo : Nat)
  /-- FIELD_OUTPUT_DRIVER_FAULT (R241). -/
  | fieldOutputDriverFault (e : Stim) (fo : Nat)
  /-- FIELD_OUTPUT_OPEN_LOAD (R243). -/
  | fieldOutputOpenLoad (e : Stim) (fo : Nat) (below : Bool)
  /-- RAW_TRANSITION (R233). -/
  | rawTransition (e : Stim) (fi : Nat) (v : Nat)
  /-- DEBOUNCE_EXPIRY (R233). -/
  | debounceExpiry (e : Stim) (fi : Nat)
  /-- COUNT_WINDOW_PUBLISH (R237). -/
  | countWindowPublish (e : Stim) (fi : Nat)
  /-- SEQUENCE_TRIGGER (R251). -/
  | sequenceTrigger (e : Stim) (seq : Nat)
  /-- SEQUENCE_RUN_END (R252). -/
  | sequenceRunEnd (e : Stim) (seq : Nat) (codes : List Sample)
  /-- SYNC_RECEIVED (R272). -/
  | syncReceived (e : Stim) (inst : Nat) (offset : Int) (gm : Nat) (port : Nat)
  /-- SYNC_TIMEOUT (R271). -/
  | syncTimeout (e : Stim)
  /-- HOLDOVER_EXPIRY (R271). -/
  | holdoverExpiry (e : Stim)
  /-- TNS_WRAP (R264). -/
  | tnsWrap (e : Stim)
  /-- SECOND_WINDOW_END (R625). -/
  | secondWindowEnd (e : Stim)
  /-- TRIGGER_FIRING (R282). -/
  | triggerFiring (e : Stim) (tt : Nat)
  /-- TALLY_ALARM_FIRE (R276). -/
  | tallyAlarmFire (e : Stim)
  /-- PPS_OUT_PULSE (R287). -/
  | ppsOutPulse (e : Stim)
  /-- PPS_IN_EDGE (R288). -/
  | ppsInEdge (e : Stim)
  /-- CANREF_FUP (R286). -/
  | canrefFup (e : Stim) (can : Nat)
  /-- FRAME_RECEIVED (R299). -/
  | frameReceived (e : Stim) (fs : List RxFrame)
  /-- FRAME_QUEUED (R307). -/
  | frameQueued (e : Stim) (id : Nat)
  /-- TRANSMISSION_START (R311). -/
  | transmissionStart (e : Stim) (port : Nat)
  /-- TRANSMISSION_END (R313). -/
  | transmissionEnd (e : Stim) (port : Nat)
  /-- LINK_DOWN (R314). -/
  | linkDown (e : Stim) (port : Nat)
  /-- LINK_UP (R314). -/
  | linkUp (e : Stim) (port : Nat)
  /-- HOLD_EXPIRE (R314). -/
  | holdExpire (e : Stim) (port : Nat)
  /-- FDB_AGEING (R301). -/
  | fdbAgeing (e : Stim) (mac : Nat) (vid : Nat)
  /-- SQP_WRITE (R318). -/
  | sqpWrite (e : Stim) (who : Nat) (kind : Nat) (idx : Nat) (sqp : Nat)
  /-- TRANSFER_COMPLETE (R475). -/
  | transferComplete (e : Stim) (d : RingRef) (badAt : Option Nat)
  /-- GATE_ENTRY_CHANGE (R344). -/
  | gateEntryChange (e : Stim) (gk : GateRef)
  /-- CHANGE_SET_SWITCH (R355). -/
  | changeSetSwitch (e : Stim)
  /-- GATE_LIST_SWITCH (R356). -/
  | gateListSwitch (e : Stim) (gk : GateRef)
  /-- CHANGE_SET_COMPLETE (R357). -/
  | changeSetComplete (e : Stim)
  /-- RECOVERY_RESET (R340). -/
  | recoveryReset (e : Stim) (sid : Nat)
  /-- TXF_PUT (R380). -/
  | txfPut (e : Stim) (who : Nat) (can : Nat) (value : Word)
  /-- TXB_REQ (R380). -/
  | txbReq (e : Stim) (who : Nat) (can : Nat) (value : Word)
  /-- TXB_CANCEL (R380). -/
  | txbCancel (e : Stim) (who : Nat) (can : Nat) (value : Word)
  /-- TXB_DONE_CLEAR (R379). -/
  | txbDoneClear (e : Stim) (who : Nat) (can : Nat) (value : Word)
  /-- FLAGS_CLEAR (R379). -/
  | flagsClear (e : Stim) (who : Nat) (can : Nat) (value : Word)
  /-- MESSAGE_RAM_WRITE (R380). -/
  | messageRamWrite (e : Stim) (who : Nat) (can : Nat) (off : Nat) (value : Word)
  /-- TXE_HEAD_READ (R378). -/
  | txeHeadRead (e : Stim) (who : Nat) (can : Nat)
  /-- HEADER_WORD0_READ (R385). -/
  | headerWord0Read (e : Stim) (who : Nat) (can : Nat) (buf : Nat)
  /-- LAST_WORD_READ (R385). -/
  | lastWordRead (e : Stim) (who : Nat) (can : Nat) (buf : Nat)
  /-- LOCK_EXPIRY (R386). -/
  | lockExpiry (e : Stim) (can : Nat)
  /-- CAN_FRAME_RECEIVED (R384). -/
  | canFrameReceived (e : Stim) (can : Nat) (f : CanFrame) (ago : Nat)
  /-- CAN_ARBITRATION (R382). -/
  | canArbitration (e : Stim) (can : Nat)
  /-- CAN_TRANSMIT_OUTCOME (R381). -/
  | canTransmitOutcome (e : Stim) (can : Nat) (outcome : TxOutcome) (tdcv : Nat)
  /-- CAN_ERROR (R387). -/
  | canError (e : Stim) (can : Nat) (lec : Nat) (tx : Bool) (alt : Bool)
  /-- BUS_OFF_RECOVERY (R388). -/
  | busOffRecovery (e : Stim) (can : Nat)
  /-- LONE_PAUSE_END (R390). -/
  | lonePauseEnd (e : Stim) (can : Nat)
  /-- LIN_SLOT_START (R393). -/
  | linSlotStart (e : Stim) (lin : Nat)
  /-- LIN_RESPONSE_END (R395). -/
  | linResponseEnd (e : Stim) (lin : Nat) (status : Nat) (data : List Byte)
  /-- LIN_RESPONDER_SLEEP (R396). -/
  | linResponderSleep (e : Stim) (lin : Nat)
  /-- LIN_WAKE_DETECT (R396). -/
  | linWakeDetect (e : Stim) (lin : Nat)
  /-- GATEWAY_LOOKUP (R404). -/
  | gatewayLookup (e : Stim)
  /-- ACF_PDU_SEND (R407). -/
  | acfPduSend (e : Stim) (ctx : Nat)
  /-- ACF_PDU_RECEIVED (R408). -/
  | acfPduReceived (e : Stim) (pdu : AcfPdu)
  /-- RING_MESSAGE_RECEIVED (R422). -/
  | ringMessageReceived (e : Stim) (ring : Nat) (m : RingMsg)
  /-- RING_SEND (R422). -/
  | ringSend (e : Stim) (ring : Nat)
  /-- RING_SILENCE (R422). -/
  | ringSilence (e : Stim) (ring : Nat)
  /-- ALIVE_SEND (R425). -/
  | aliveSend (e : Stim) (ring : Nat)
  /-- VETO (R426). -/
  | veto (e : Stim) (ring : Nat)
  /-- PREPARE_END (R425). -/
  | prepareEnd (e : Stim) (ring : Nat)
  /-- RELEASE_COMPLETE (R428). -/
  | releaseComplete (e : Stim) (ring : Nat)
  /-- CLUSTER_FRAME_RECEIVED (R429). -/
  | clusterFrameReceived (e : Stim) (ring : Nat) (node : Nat) (m : ClMsg)
  /-- CLUSTER_FRAME_SEND (R429). -/
  | clusterFrameSend (e : Stim) (ring : Nat)
  /-- PN_SLEEP_ENTRY (R430). -/
  | pnSleepEntry (e : Stim) (ring : Nat)
  /-- PNTO_EXPIRY (R429). -/
  | pntoExpiry (e : Stim) (ring : Nat)
  /-- WAKE (R435). -/
  | wake (e : Stim) (cause : Nat) (src : WakeSrc)
  /-- DECODER_SILENCE (R433). -/
  | decoderSilence (e : Stim) (can : Nat)
  /-- PARTITION_START (R449). -/
  | partitionStart (e : Stim) (p : Nat)
  /-- COMPARATOR_TRIP (R457). -/
  | comparatorTrip (e : Stim) (trip : TripRef) (cause : Nat)
  /-- INJECTED_MISMATCH_TEST (R458). -/
  | injectedMismatchTest (e : Stim) (pair : Nat) (pass : Bool)
  /-- STATE_SIGNATURE_SWEEP (R459). -/
  | stateSignatureSweep (e : Stim) (pair : Nat) (equal : Bool)
  /-- RESYNC_HANDOVER (R463). -/
  | resyncHandover (e : Stim) (pair : Nat) (cause : Nat)
  /-- CORE_STORAGE_ERROR (R451). -/
  | coreStorageError (e : Stim) (pc : Nat)
  /-- DEBUG_HALT_REQUEST (R467). -/
  | debugHaltRequest (e : Stim) (req : DebugReq)
  /-- PATROL_READ (R469). -/
  | patrolRead (e : Stim) (addr : Nat) (kind : Nat)
  /-- UNCORRECTABLE_READ (R471). -/
  | uncorrectableRead (e : Stim) (who : Nat) (addr : Nat)
  /-- TALLY_READ (R445). -/
  | tallyRead (e : Stim) (rd : CsrRead)
  /-- CSR_WRITE_TRAP (R445). -/
  | csrWriteTrap (e : Stim) (hart : Nat) (csr : Nat)
  /-- ACCESS_REFUSED (R452). -/
  | accessRefused (e : Stim) (who : Nat) (addr : Nat) (acc : Access)
  /-- ECALL (R482). -/
  | ecall (e : Stim) (hart : Nat)
  /-- WM_RAISE (R486). -/
  | wmRaise (e : Stim) (idx : Nat) (value : Word)
  /-- WM_LOWER (R487). -/
  | wmLower (e : Stim) (idx : Nat) (value : Word)
  /-- WM_REFUSED_CLEAR (R485). -/
  | wmRefusedClear (e : Stim) (idx : Nat) (value : Word)
  /-- ZEROISE_COMPLETE (R487). -/
  | zeroiseComplete (e : Stim) (idx : Nat)
  /-- VGATE_STORE (R489). -/
  | vgateStore (e : Stim) (hart : Nat) (width : Nat) (value : Nat) (x : List Nat)
  /-- GATE_RETURN (R491). -/
  | gateReturn (e : Stim) (hart : Nat)
  /-- MB_POST (R494). -/
  | mbPost (e : Stim) (who : Nat) (slot : Nat)
  /-- MB_RELEASE (R494). -/
  | mbRelease (e : Stim) (who : Nat) (slot : Nat)
  /-- MAILBOX_SERVE (R495). -/
  | mailboxServe (e : Stim)
  /-- MAILBOX_DONE (R494). -/
  | mailboxDone (e : Stim)
  /-- VAULT_RESTART (R502). -/
  | vaultRestart (e : Stim) (cause : Nat)
  /-- VAULT_HANG (R501). -/
  | vaultHang (e : Stim)
  /-- VAULT_RUNNING (R502). -/
  | vaultRunning (e : Stim) (digest : List Byte)
  /-- DRBG_RESEED (R508). -/
  | drbgReseed (e : Stim) (failed : Bool)
  /-- FUSE_WRITE_COMPLETE (R511). -/
  | fuseWriteComplete (e : Stim)
  /-- VAULT_CLAIM_RELEASE (R499). -/
  | vaultClaimRelease (e : Stim)
  /-- IDREAD (R7). -/
  | idread (e : Stim)
  /-- DBGNONCE (R513). -/
  | dbgnonce (e : Stim)
  /-- DBGAUTH (R513). -/
  | dbgauth (e : Stim) (token : List Byte)
  /-- DBGEND (R513). -/
  | dbgend (e : Stim)
  /-- STX_START (R518). -/
  | stxStart (e : Stim) (ce0 : List NandLun) (ce1 : List NandLun) (marks : List Nat)
  /-- ESCROW_EVALUATION (R535). -/
  | escrowEvaluation (e : Stim)
  /-- PAGE_PROGRAM_END (R533). -/
  | pageProgramEnd (e : Stim) (cmd : Nat)
  /-- JOURNAL_RECORD_END (R528). -/
  | journalRecordEnd (e : Stim) (cmd : Nat)
  /-- COMMIT_TIMEOUT (R535). -/
  | commitTimeout (e : Stim) (cmd : Nat)
  /-- BANK_SAMPLE (R534). -/
  | bankSample (e : Stim) (mv : Nat)
  /-- ESCROW_MEASURE_END (R532). -/
  | escrowMeasureEnd (e : Stim) (drop : Nat)
  /-- PROGRAM_FAILURE (R523). -/
  | programFailure (e : Stim) (vol : Nat) (page : Nat)
  /-- NAND_PATROL (R524). -/
  | nandPatrol (e : Stim) (vol : Nat) (page : Nat) (result : Nat)
  /-- WEAR_LEVEL_MOVE (R522). -/
  | wearLevelMove (e : Stim)
  /-- LEDGER_PERSIST (R538). -/
  | ledgerPersist (e : Stim)
  /-- CHECKPOINT_SIGN (R539). -/
  | checkpointSign (e : Stim)
  /-- INSTALL_COMPLETE (R554). -/
  | installComplete (e : Stim) (xfr : Nat)
  /-- RELAY_START (R559). -/
  | relayStart (e : Stim) (comp : Nat)
  /-- RELAY_OUTCOME (R560). -/
  | relayOutcome (e : Stim) (comp : Nat) (status : Nat)
  /-- RELAY_RETRY (R560). -/
  | relayRetry (e : Stim) (comp : Nat)
  /-- TRANSFER_ABANDON (R557). -/
  | transferAbandon (e : Stim) (xfr : Nat)
  /-- ACTIVATION_COMPLETE (R561). -/
  | activationComplete (e : Stim) (comp : Nat)
  /-- HEALTH_WINDOW_END (R564). -/
  | healthWindowEnd (e : Stim) (comp : Nat)
  /-- AUDIT_BLOCK_TEST (R576). -/
  | auditBlockTest (e : Stim) (fails : List AuditFail) (rom : Bool)
  /-- AUDIT_CONDITION_CHECK (R573). -/
  | auditConditionCheck (e : Stim) (supplyMv : Nat) (refKhz : Nat)
  /-- AUDIT_END (R581). -/
  | auditEnd (e : Stim)
  /-- TELLER_PAIR_TRIP (R585). -/
  | tellerPairTrip (e : Stim) (tp : Nat) (cmds : List Nat)
  /-- TELLER_PAIR_REJOIN (R585). -/
  | tellerPairRejoin (e : Stim) (tp : Nat)
  /-- SLEEP_ENTRY (R598). -/
  | sleepEntry (e : Stim)
  /-- SLEEP_ENTRY_CHECK (R598). -/
  | sleepEntryCheck (e : Stim)
  /-- SLEEP_REACHED (R598). -/
  | sleepReached (e : Stim)
  /-- DORMANT_ENTRY (R601). -/
  | dormantEntry (e : Stim)
  /-- START (R602). -/
  | start (e : Stim) (kind : Nat)
  /-- BROWNOUT (R604). -/
  | brownout (e : Stim)
  /-- VETCH_FRAME_ERROR (R208). -/
  | vetchFrameError (e : Stim) (die : Nat)
  /-- SAFE_N_HIGH (R588). -/
  | safeNHigh (e : Stim)
  /-- HEARTBEAT_RESTORED (R223). -/
  | heartbeatRestored (e : Stim) (die : Nat)
  /-- KEY_INACTIVE (R597). -/
  | keyInactive (e : Stim)
  /-- BECOMES_GRANDMASTER (R271). -/
  | becomesGrandmaster (e : Stim)
  /-- PPS_OUT_FALL (R287). -/
  | ppsOutFall (e : Stim)
  /-- LIN_HEADER_RECEIVED (R395). -/
  | linHeaderReceived (e : Stim) (lin : Nat) (id : Nat) (ok : Bool) (ago : Nat)
  /-- FORMAT_COMPLETE (R540). -/
  | formatComplete (e : Stim)
  /-- MEDIA_READ_END (R541). -/
  | mediaReadEnd (e : Stim) (cmd : Nat) (bits : List (List Nat))
  /-- TRANSLATION_REBUILD_END (R542). -/
  | translationRebuildEnd (e : Stim)
  /-- REVERT_COMPLETE (R564). -/
  | revertComplete (e : Stim) (comp : Nat)
  /-- PHY_FIRMWARE_WATCHDOG (R564). -/
  | phyFirmwareWatchdog (e : Stim) (port : Nat)
  /-- AON_SUPPLY_LOSS (R600). -/
  | aonSupplyLoss (e : Stim)
  /-- AGED_HEAD_CHECK (R312). -/
  | agedHeadCheck (e : Stim) (port : Nat)
  /-- FEED_BLOCKED (R185). -/
  | feedBlocked (e : Stim) (die : Nat)
  deriving DecidableEq, Repr

end Sys2Proof
end

