-- ==== Sys2Proof/Decode.lean ====
section
/-!
DEFINITION. The command that a word spells by the opcode table's bits. No row of spec/opcode_table.json gives bits: a
Hiast command is a packet of many words (02 R37), an event has no encoding at all. So no word spells a command.
-/

namespace Sys2Proof

/-- The command that a word spells: none for any word, since no row of the table has bits. -/
def decodeTableWord (_nbits _w : Nat) : Option Instr := none

end Sys2Proof
end

