-- ==== Sys2Proof/Config.lean ====
section
/-!
DEFINITION. What an implementation fixes and the spec leaves open: free values (opaque constants with no body, so that
nothing proved about the model can rest on one) and the cryptographic functions of published standards, which the spec
names but does not define. Log entries 5 and 6.
-/

namespace Sys2Proof.Config

/-- An undefined word, by the number of the free value drawn (DESIGN CHOICE, log 6). -/
opaque freeWord : Nat → Word

/-- An undefined byte, by the number of the free value drawn (DESIGN CHOICE, log 6). -/
opaque freeByte : Nat → Byte

/-- An undefined natural number, by the number of the free value drawn (DESIGN CHOICE, log 6). -/
opaque freeNat : Nat → Nat

/-- The severity of a Ledger record whose RCODE the spec gives no severity (17 R537; DESIGN CHOICE, log 6). -/
opaque severity : Nat → Nat

/-- The hash that picks a forwarding-database bucket from a MAC address and VID (10 R301; DESIGN CHOICE, log 6). -/
opaque fdbHash : Nat → Nat → Nat

/-- Offset of the switch's cell slots in its rotation of middle lanes (10 R307; DESIGN CHOICE, log 6). -/
opaque slotPhase : Nat

/-- Phase of AON's ticks of 1/32 768 s in full Tally time, in ns (09 R275, 01 R627; DESIGN CHOICE, log 6). -/
opaque aonPhase : Nat

/-- Byte i of the unit's identity fuses (00 R8; DESIGN CHOICE, log 4). -/
opaque fuseByte : Nat → Byte

/-- The module's own gPTP clockIdentity, in wire order, which the spec does not give (09 R290; DESIGN CHOICE, log 6). -/
opaque clockId : Nat

/-- The module's clockClass, clockAccuracy and offsetScaledLogVariance, of which 32 bits count, which the spec does not give
(09 R269; DESIGN CHOICE, log 6). -/
opaque clockQuality : Nat

/-- SHA-256 of a byte string (DESIGN CHOICE, log 5). -/
opaque sha256 : List Byte → List Byte

/-- SHA-384, SHA-512 and SHA3 digests: algorithm number, message (DESIGN CHOICE, log 5). -/
opaque hash : Nat → List Byte → List Byte

/-- The AES-256 CMAC of NIST SP 800-38B: key, message (DESIGN CHOICE, log 5). -/
opaque cmac : List Byte → List Byte → List Byte

/-- Any other keyed transform of the Vault: algorithm number, key, further inputs (DESIGN CHOICE, log 5). -/
opaque keyed : Nat → List Byte → List (List Byte) → List Byte

/-- Whether a signature, tag or token verifies: algorithm number, key, message, signature (DESIGN CHOICE, log 5). -/
opaque verifies : Nat → List Byte → List Byte → List Byte → Bool

/-- Secret material of module key 0 to 2 (16 R506; DESIGN CHOICE, log 5). -/
opaque deviceKey : Nat → List Byte

/-- Certificate 0 (ECDSA) or 1 (ML-DSA) over the identity bytes (16 R514; DESIGN CHOICE, log 5). -/
opaque cert : Nat → List Byte → List Byte

/-- The Vessenholm keys of the boot ROM (16 R512; DESIGN CHOICE, log 5). -/
opaque vessenholmKey : List Byte

end Sys2Proof.Config
end

