-- ==== Sys2Proof/Machine/Bits.lean ====
section
/-!
DEFINITION. Bit fields, little-endian bytes (00 R10), CRC-16 (02 R39) and the operations on keyed tables.
-/

namespace Sys2Proof.Machine

/-! ### Tables -/

/-- The value at a key; an absent key has the default. -/
def look {α : Type} (d : α) : Tbl α → Nat → α
  | [], _ => d
  | (k, v) :: t, i => if i = k then v else look d t i

/-- Sets the value at a key, keeping ascending key order. -/
def put {α : Type} : Tbl α → Nat → α → Tbl α
  | [], i, v => [(i, v)]
  | (k, w) :: t, i, v =>
    if i = k then (i, v) :: t
    else if i < k then (i, v) :: (k, w) :: t
    else (k, w) :: put t i v

/-- The value at a key, if there is one. -/
def find? {α : Type} : Tbl α → Nat → Option α
  | [], _ => none
  | (k, v) :: t, i => if i = k then some v else find? t i

/-- The table without a key. -/
def erase {α : Type} (t : Tbl α) (i : Nat) : Tbl α := t.filter (fun p => p.1 != i)

/-! ### Fields -/

/-- Bits hi down to lo of a word, as a number. -/
def fld (w : Word) (hi lo : Nat) : Nat := (w.toNat >>> lo) % 2 ^ (hi + 1 - lo)

/-- Bit i of a word. -/
def bit (w : Word) (i : Nat) : Bool := w.toNat.testBit i

/-- A word from a number, modulo 2^32. -/
def wd (n : Nat) : Word := BitVec.ofNat 32 n

/-- A word from a signed number, in two's complement. -/
def wdi (n : Int) : Word := BitVec.ofInt 32 n

/-- 1 for true. -/
def b2n (b : Bool) : Nat := if b then 1 else 0

/-- Whether a word has 1s only where the mask has. -/
def within (w mask : Word) : Bool := (w &&& ~~~mask) == 0

/-- A count that saturates. -/
def satInc (max n : Nat) : Nat := if n < max then n + 1 else max

/-- A count that saturates, raised by several. -/
def satAdd (max n k : Nat) : Nat := if n + k < max then n + k else max

/-- A signed value that saturates at ±m. -/
def satInt (m v : Int) : Int := if v > m then m else if v < -m then -m else v

/-- Word i of a parameter list, 0 beyond its end. -/
def par (ps : List Word) (i : Nat) : Word := ps.getD i 0

/-- A two's complement reading of the low n bits. -/
def signed (n v : Nat) : Int :=
  let m := v % 2 ^ n
  if m < 2 ^ (n - 1) then (m : Int) else (m : Int) - (2 ^ n : Nat)

/-- d = sign_extend_48(target − now) (09 R267). -/
def diff48 (target now : Nat) : Int :=
  signed 48 ((target % 2 ^ 48) + 2 ^ 48 - now % 2 ^ 48)

/-- The bits of a number's binary form that are set, below n, ascending. -/
def setBits (n v : Nat) : List Nat := (List.range n).filter (fun i => v.testBit i)

/-! ### Bytes -/

/-- n as k bytes, little-endian. -/
def bytesOf : Nat → Nat → List Byte
  | 0, _ => []
  | k + 1, n => BitVec.ofNat 8 n :: bytesOf k (n / 256)

/-- The number that bytes spell, little-endian. -/
def natOf : List Byte → Nat
  | [] => 0
  | b :: bs => b.toNat + 256 * natOf bs

/-- The number that bytes spell, big-endian. -/
def natOfBE (bs : List Byte) : Nat := bs.foldl (fun a b => a * 256 + b.toNat) 0

/-- n as k bytes, big-endian. -/
def bytesOfBE (k n : Nat) : List Byte := (bytesOf k n).reverse

/-- Words as bytes, little-endian. -/
def wordBytes (ws : List Word) : List Byte := ws.flatMap (fun w => bytesOf 4 w.toNat)

/-- Bytes i .. i + k − 1, as a number, little-endian. -/
def le (bs : List Byte) (i k : Nat) : Nat := natOf ((bs.drop i).take k)

/-- n words read from bytes, little-endian, bytes beyond the end as 0. -/
def wordsOf : Nat → List Byte → List Word
  | 0, _ => []
  | n + 1, bs => wd (natOf (bs.take 4)) :: wordsOf n (bs.drop 4)

/-- All of a byte string as words, the last one padded with 0. -/
def wordsPad (bs : List Byte) : List Word := wordsOf ((bs.length + 3) / 4) bs

/-- The bytes cut into n runs of k bytes each, the last one shorter where the bytes end. -/
def cuts (k : Nat) : Nat → List Byte → List (List Byte)
  | 0, _ => []
  | n + 1, bs => bs.take k :: cuts k n (bs.drop k)

/-- A byte string brought to length n: cut, or filled with 0. -/
def fit (n : Nat) (bs : List Byte) : List Byte := (bs ++ List.replicate n 0).take n

/-! ### CRC-16 (02 R39) -/

/-- One shift of the CRC register. -/
def crcShift (c : BitVec 16) : BitVec 16 :=
  if c.getMsbD 0 then (c <<< 1) ^^^ 0x1021 else c <<< 1

/-- One byte into the CRC register, most significant bit first. -/
def crcByte (c : BitVec 16) (b : Byte) : BitVec 16 :=
  let x := c ^^^ ((b.setWidth 16) <<< 8)
  crcShift (crcShift (crcShift (crcShift (crcShift (crcShift (crcShift (crcShift x)))))))

/-- CRC-16, polynomial 0x1021, initial value 0xFFFF. -/
def crc16 (bs : List Byte) : Nat := (bs.foldl crcByte 0xFFFF).toNat

end Sys2Proof.Machine
end

