-- ==== Sys2Proof/Machine/StCore.lean ====
section
/-!
DEFINITION. State of the module's common services: Tally time (09), the quiescence rule's gates (01 R28), Hiast
execution (02), tenant queues (03), tenants and virtual instances (04), identity (00) and the Ledger (17).
-/

namespace Sys2Proof.Machine

/-! ### Windows of one second (00 R625) -/

/-- A count kept per 1 s window: the window (steps so far, second of full Tally time) and the count in it. -/
structure WinCount where
  gen : Nat := 0
  sec : Nat := 0
  n : Nat := 0
  deriving DecidableEq, Repr

/-! ### Tally time (09) -/

/-- States of the working domain (09 R271), in STATE encoding order. -/
inductive TimState where
  | unsync | locked | holdover | freerun | grandmaster
  deriving DecidableEq, Repr

/-- The Announce held at a port: the grandmaster's system identity, steps removed, the sender's port identity, and the
instant (clk) of its timeout (09 R269; PRESUMED, log 35). -/
structure Announce where
  vec : Nat
  steps : Nat
  src : Nat
  till : Nat
  deriving DecidableEq, Repr

/-- One gPTP instance (09 R291). -/
structure GptpInst where
  domain : Nat := 0
  extPort : Bool := false
  gmCap : Bool := false
  ppsDisc : Bool := false
  /-- LOGSYNC, −5 to 0. -/
  logSync : Int := -3
  roles : Word := 0
  prio1 : Nat := 0
  prio2 : Nat := 0
  /-- State by R271, when it was entered (clk), and the last Sync: offset, port (15 none), clk. -/
  st : TimState := .unsync
  since : Nat := 0
  offset : Int := 0
  port : Nat := 15
  lastSync : Nat := 0
  /-- The accepted grandmaster, and one that has sent its first Sync. -/
  gm : Option Nat := none
  cand : Option Nat := none
  /-- Consecutive Sync offsets of at most 100 ns. -/
  good : Nat := 0
  /-- Announces held, by port (R269). -/
  anns : Tbl Announce := []
  deriving DecidableEq, Repr

/-- A Tally trigger (09 R280 to R292). -/
structure Trigger where
  owner : Nat := 0
  /-- The six words of the block, once TIM_TRIG_CONFIG has completed for it (R281). -/
  block : Option (List Word) := none
  armed : Bool := false
  done : Bool := false
  /-- Index k of the next firing. -/
  k : Nat := 0
  /-- Firings made since arming. -/
  made : Nat := 0
  missed : Nat := 0
  skips : Nat := 0
  defers : Nat := 0
  /-- The next firing's time has been reached, and at which full Tally time. -/
  due : Bool := false
  dueAt : Nat := 0
  /-- Firings of a forward step that R273 folds into the one due, beside it. -/
  folded : Nat := 0
  deriving DecidableEq, Repr

/-- A port's transmit time-stamp queue (09 R278, R279). -/
structure TxStampQ where
  reader : Nat := 0
  /-- (stamp, TSID), oldest first. -/
  entries : List (Nat × Nat) := []
  lost : Nat := 0
  ovf : Bool := false
  ign : Nat := 0
  deriving DecidableEq, Repr

/-- A CAN time master (09 R284 to R286). -/
structure CanRef where
  en : Bool := false
  ide : Bool := false
  fd : Bool := false
  ident : Nat := 0
  seq : Nat := 0
  /-- The trigger whose SYNC waits for transmission, with its SEQ. -/
  queued : Option (Nat × Nat) := none
  /-- The SYNC being transmitted: trigger, SEQ, stamp. -/
  sending : Option (Nat × Nat × Nat) := none
  /-- The FUP to send: SEQ, stamp. -/
  fup : Option (Nat × Nat) := none
  deriving DecidableEq, Repr

/-- Tally time and everything scheduled on it (09). -/
structure TimSt where
  /-- EPOCH × 2^48 + TNS, in ns. -/
  full : Nat := 0
  /-- The part of a nanosecond, in units of 10^-11 ns. -/
  sub : Nat := 0
  /-- RADJ in units of 0.01 ppb (R265). -/
  radj : Int := 0
  wdom : Nat := 0
  steps : Nat := 0
  /-- Steps since module reset, without saturation: marks the 1 s windows (00 R625). -/
  gen : Nat := 0
  lateSched : Nat := 0
  td0 : GptpInst := {}
  td1 : GptpInst := { domain := 1 }
  ppsOut : Bool := false
  ppsIn : Bool := false
  ppsWidth : Nat := 0
  ppsLevel : Bool := false
  ppsRise : Nat := 0
  /-- Last whole second at which PPS_OUT rose (generation, second). -/
  ppsSec : Nat × Nat := (0, 0)
  ppsStamps : List (Nat × Nat) := []
  /-- (transmit, receive) latency of the external PHYs of P0 and P1. -/
  lat0 : Nat × Nat := (0, 0)
  lat1 : Nat × Nat := (0, 0)
  trig : Tbl Trigger := []
  alarm : Option Nat := none
  alarmDue : Bool := false
  txq : Tbl TxStampQ := []
  canRef : Tbl CanRef := []
  /-- AON's counter holds Tally time, while FBX does not (R271, R277). -/
  aonKnown : Bool := false
  deriving DecidableEq, Repr

/-! ### Gates (01 R22 to R31) -/

/-- States of a function under the quiescence rule, in the STATE encoding of 01 R36; STOPPED is a partition's
(15 R450). -/
inductive GateState where
  | powerGated | clockGated | starting | run | quiescing | stopped
  deriving DecidableEq, Repr

/-- A function under the quiescence rule (01 R28 to R31). -/
structure Gate where
  st : GateState := .run
  rePend : Bool := false
  disPend : Bool := false
  /-- The shut-down in progress or pending goes to the power gate. -/
  deep : Bool := false
  /-- The start in progress is one from the power gate. -/
  cold : Bool := false
  /-- Commands awaiting RUN, and commands awaiting the gate (ids). -/
  enCmds : List Nat := []
  disCmds : List Nat := []
  /-- When the present transition began (clk). -/
  since : Nat := 0
  deriving DecidableEq, Repr

/-- An island: its gate and what 01 R20 and R36 keep for it. -/
structure Island where
  gate : Gate := {}
  forced : Nat := 0
  clkLoss : Bool := false
  /-- Held in reset after a clock loss (R20). -/
  lossHold : Bool := false
  /-- Left POWER_GATED after a second loss within 1 s (R20). -/
  stuck : Bool := false
  /-- clk of the last return to RUN. -/
  runAt : Option Nat := none
  deriving DecidableEq, Repr

/-! ### Hiast commands in execution (02) -/

/-- Status codes (02 R53). -/
inductive Status where
  | ok | accepted | deferred
  | badOpcode | badParam | badLength | badCheck
  | denied | noShare | lifecycle
  | busy | noEnergy | thermal
  | staleEpoch | flushed | tenantReset | vaultRestarted
  | timeout | tooLate
  | mediaError | authFail | internal
  deriving DecidableEq, Repr

/-- Where a command in execution stands (02 R56). -/
inductive Phase where
  /-- Waits on its not-before time. -/
  | waiting
  /-- Has begun; no interim reply posted. -/
  | running
  /-- Held at the crossing into an island that is not in RUN (01 R22). -/
  | crossing
  /-- Answered DEFERRED. -/
  | deferred
  /-- Answered ACCEPTED. -/
  | accepted
  /-- Its final reply is held for CQ room (03 R90). -/
  | held
  deriving DecidableEq, Repr

/-- A command in execution (02 R56). -/
structure Cmd where
  id : Nat
  tenant : Nat
  seq : Nat
  opcode : Nat
  version : Nat := 2
  notify : Bool := true
  lateOk : Bool := false
  /-- LATE of its replies (02 R45). -/
  late : Bool := false
  notBefore : Nat := 0
  params : List Word := []
  phase : Phase := .running
  /-- Its not-before time has been reached, and at which full Tally time. -/
  due : Bool := false
  dueAt : Nat := 0
  /-- The submission queue whose chain waits for it (02 R65). -/
  chain : Option Nat := none
  /-- Occupies no command slot (02 R67: SYS_CANCEL). -/
  noSlot : Bool := false
  /-- d at dispatch was below 50 µs (09 R274). -/
  short : Bool := false
  /-- clk at its dispatch. -/
  sent : Nat := 0
  deriving DecidableEq, Repr

/-- An open chain of a submission queue (02 R65, R66). -/
structure Chain where
  /-- The member whose final outcome is awaited. -/
  await : Option Nat := none
  failed : Bool := false
  deriving DecidableEq, Repr

/-- What the queue engine keeps of a committed slot beside its bytes, which lie in the spill region (03 R75): how many of
them are defined (R73 leaves the others of an item's last slot open), the GEN in force when its item's first slot was
committed (R97), and whether it is its item's first slot. -/
structure SlotTag where
  len : Nat := 0
  gen : Nat := 0
  first : Bool := true
  /-- The packet that this slot begins has been held back by its tenant's share and counted (02 R57). -/
  stalled : Bool := false
  deriving DecidableEq, Repr

/-- A slot with its bytes, as an engine commits or reads it; bad: an uncorrectable error has been found in it (R77). -/
structure Slot where
  bytes : List Byte
  gen : Nat := 0
  first : Bool := true
  bad : Bool := false
  stalled : Bool := false
  deriving DecidableEq, Repr

/-- A reply that waits for room in the CQ (03 R90), with the command it belongs to if it is final. -/
structure HeldReply where
  slots : List (List Byte)
  final : Option Nat := none
  deriving DecidableEq, Repr

/-- One tenant queue (03). -/
structure Queue where
  /-- log2 of the depth; 0 when the queue is not configured (R85). -/
  depth : Nat := 0
  /-- Spill base as a 4 KiB page of system SRAM. -/
  spill : Nat := 0
  prod : BitVec 13 := 0
  prodInv : BitVec 13 := 0x1FFF
  cons : BitVec 13 := 0
  consInv : BitVec 13 := 0x1FFF
  /-- Producer window: position and byte to value (R78); an absent byte reads 0. -/
  win : Tbl Byte := []
  /-- Consumer window: position (slot index mod 8) to the slot's 64 bytes, as the engine has moved them there (R75). -/
  cwin : Tbl (List Byte) := []
  /-- Tags of the committed slots from the consumer pointer on, oldest first. -/
  slots : List SlotTag := []
  gen : Nat := 0
  drain : Nat := 0
  /-- Header bytes of the flushed partial item being drained (R98). -/
  drainHdr : List Byte := []
  latch : Bool := false
  /-- clk of the last upward crossing, and whether QUE_LEVEL was posted for it (R95). -/
  crossed : Option (Nat × Bool) := none
  ovr : Bool := false
  ptrErr : Bool := false
  level : Nat := 0
  levelEn : Bool := false
  /-- Notices dropped since the last one posted (R91). -/
  lost : Nat := 0
  held : List HeldReply := []
  chain : Option Chain := none
  deriving DecidableEq, Repr

/-! ### Tenants (04) -/

/-- Tenant states (04 R120), in their encoding order. -/
inductive TenState where
  | free | live | faulted | resetting | deleting
  deriving DecidableEq, Repr

/-- A carriage frame sent and not yet acknowledged (03 R108). -/
structure OutFrame where
  fseq : Nat
  kind : Nat
  /-- Slots of the CQ or NQ that the frame carries. -/
  slots : Nat
  bytes : List Byte
  sends : Nat := 1
  /-- clk of the last transmission. -/
  sentAt : Nat := 0
  acked : Bool := false
  deriving DecidableEq, Repr

/-- A remote tenant's association and the state of its two frame series (03 R103 to R108). -/
structure Assoc where
  port : Nat
  mac : Nat
  cmac : Bool := false
  rxsc : Nat := 0
  keyIn : List Byte := []
  keyOut : List Byte := []
  txSeq : Nat := 1
  rxHigh : Nat := 0
  /-- FSEQ values at or below rxHigh accepted among the 64 below it. -/
  rxSeen : List Nat := []
  outs : List OutFrame := []
  deriving DecidableEq, Repr

/-- A tenant: descriptor (04 R113) and what the module keeps for it. -/
structure Tenant where
  st : TenState := .free
  kind : Nat := 0
  profile : Nat := 0
  reqid : Nat := 0
  faultPol : Nat := 0
  cmd : Nat := 0
  xfer : Nat := 0
  vnic : Nat := 0
  vcan : Nat := 0
  vols : Nat := 0
  swbuf : Nat := 0
  purse : Nat := 0
  groups : Nat := 0
  islen : Nat := 0
  label : List Byte := []
  stalls : Nat := 0
  nseq : Nat := 0
  badChk : WinCount := {}
  /-- TEN_RESET or TEN_DELETE commands awaiting the end of the reset (R123 to R125). -/
  resetCmds : List Nat := []
  flushedN : Nat := 0
  resetN : Nat := 0
  assoc : Option Assoc := none
  /-- Carriage counters: foreign, tag failures, replays (03 R104 to R106). -/
  dropForeign : Nat := 0
  dropTag : Nat := 0
  dropReplay : Nat := 0
  deriving DecidableEq, Repr

/-- A frame that is written into a posted buffer, or waits for a transfer-engine slot: its bytes, its stamp and, for an
endpoint, its element header. -/
structure Inbound where
  head : List Byte := []
  data : List Byte := []
  stamp : Nat := 0
  deriving DecidableEq, Repr

/-- A descriptor that an engine has fetched from a submission ring and not completed. -/
structure Fetched where
  /-- Its submission ring entry, eight words. -/
  entry : List Word := []
  index : Nat := 0
  epoch : Nat := 0
  /-- A transfer of it is in flight (R115). -/
  live : Bool := false
  /-- The frame that a posted buffer has been given. -/
  work : Option Inbound := none
  /-- Bytes written by a plain transfer that the instance's reset dropped (15 R475). -/
  done : Nat := 0
  deriving DecidableEq, Repr

/-- A virtual instance (04 R127 to R131). -/
structure Vi where
  owner : Nat
  /-- A restart of FBX has left it disabled, until its next reset (01 R20, R31). -/
  off : Bool := false
  resetting : Bool := false
  deleting : Bool := false
  epoch : Nat := 1
  sqBase : Nat := 0
  sqLog : Nat := 4
  cqBase : Nat := 0
  cqLog : Nat := 4
  /-- Ring pointers: SQP (owner), SQC (engine), CQP (engine), CQC (owner). -/
  sqp : Nat := 0
  sqc : Nat := 0
  cqp : Nat := 0
  cqc : Nat := 0
  kindWords : List Word := []
  fetched : List Fetched := []
  dropped : Nat := 0
  removed : Nat := 0
  notRecalled : Nat := 0
  /-- clk of the present reset's begin (R128, R129). -/
  since : Nat := 0
  resetCmds : List Nat := []
  deriving DecidableEq, Repr

/-! ### The Ledger (17) -/

/-- A Ledger record (17 R537). -/
structure LedRec where
  rseq : Nat
  time : Nat
  epoch : Nat
  rcode : Nat
  tenant : Nat := 0xFF
  sev : Nat := 0
  loss : Bool := false
  d0 : Word := 0
  d1 : Word := 0
  d2 : Word := 0
  hash : List Byte := []
  deriving DecidableEq, Repr

/-- The Ledger (17 R537 to R539). -/
structure LedgerSt where
  next : Nat := 0
  lastHash : List Byte := List.replicate 32 0
  /-- Records of the eMRAM ring, oldest first, at most 4096. -/
  ring : List LedRec := []
  /-- How many of the newest ring records are not persisted. -/
  unpers : Nat := 0
  /-- Pages of V15, oldest first. -/
  pages : List (List LedRec) := []
  lost : Nat := 0
  lossFlag : Bool := false
  /-- Signed checkpoints retained: RSEQ to block bytes. -/
  cps : Tbl (List Byte) := []
  lastCp : Nat := 0
  /-- Records whose checkpoints are due and not yet signed. -/
  cpDue : List LedRec := []
  /-- Pages of V15 written so far. -/
  written : Nat := 0
  /-- LOG_WRITE records of a tenant in its window of 1 s (R544). -/
  writes : Tbl WinCount := []
  deriving DecidableEq, Repr

/-! ### Identity and life cycle (00, 16) -/

/-- Life-cycle states (16 R510). -/
inductive LifeCycle where
  | blank | manufacture | provisioned | field | service | ret | retired
  deriving DecidableEq, Repr

/-- Fused identity and life cycle (00 R3 to R9, 16 R510 to R513). -/
structure IdentSt where
  primary : List Byte
  copy : List Byte
  /-- The copies disagreed at the last reset (R6). -/
  bad : Bool := false
  lc : LifeCycle := .field
  ownerHash : List Byte := []
  ownerHash2 : List Byte := []
  deriving DecidableEq, Repr

/-! ### Power states (20) -/

/-- Power states and the steps between them (20 R595, R598, R604). -/
inductive PowerMode where
  /-- RUN, or IDLE while CPX is gated (R596). -/
  | run
  /-- SLEEP entry: before step 2 of R598, and from step 2 on. -/
  | entering (step : Nat)
  | sleep
  | dormant
  /-- No supply, AON included. -/
  | off
  deriving DecidableEq, Repr

/-- The power manager (20). -/
structure PowSt where
  mode : PowerMode := .run
  /-- Teller dispatches (stopped by R598 step 2 and R604). -/
  dispatch : Bool := true
  /-- clk of the present mode's beginning. -/
  since : Nat := 0
  /-- clk since which the conditions of R597 have held without interruption. -/
  quietSince : Option Nat := none
  /-- Partitions with AUTOSTART start when CPX next reaches RUN (R599, R602). -/
  auto : Bool := false
  /-- The module has been off since an orderly entry into SLEEP or DORMANT (18 R564). -/
  orderly : Bool := false
  /-- ns for which VHF has been below VBRN without interruption (R604). -/
  vhfLow : Nat := 0
  /-- The islands that the SLEEP entry in progress has gated: they start again if it ends (R599). -/
  gated : List Nat := []
  deriving DecidableEq, Repr

end Sys2Proof.Machine
end

