-- ==== Sys2Proof/Machine/Led.lean ====
section
/-!
DEFINITION. The bytes of a Ledger record (17 R537) and its place in the hash chain.
-/

namespace Sys2Proof.Machine

/-- Bytes 0–31 of a record. -/
def LedRec.head (r : LedRec) : List Byte :=
  bytesOf 8 r.rseq ++ bytesOf 6 r.time ++ bytesOf 2 r.epoch ++ bytesOf 2 r.rcode ++ bytesOf 1 r.tenant ++
    bytesOf 1 (r.sev % 4 + 4 * b2n r.loss) ++ wordBytes [r.d0, r.d1, r.d2]

/-- All 64 bytes of a record. -/
def LedRec.bytes (r : LedRec) : List Byte := r.head ++ fit 32 r.hash

/-- HASH of a record after one whose HASH is given. -/
def LedRec.chain (prev : List Byte) (r : LedRec) : List Byte := fit 32 (Config.sha256 (fit 32 prev ++ r.head))

end Sys2Proof.Machine
end

