-- ==== Sys2Proof/Machine/StBus.lean ====
section
/-!
DEFINITION. State of the CAN controllers and LIN channels (12), the gateway (13) and the Poppy rings (14).
-/

namespace Sys2Proof.Machine

/-! ### CAN controllers (12) -/

/-- A frame in a gateway queue (13 R406): source stamp as a full time, single-shot mark, and the endpoint and epoch it
came from, if it came from one. -/
structure GwFrame where
  frame : CanFrame
  stamp : Nat
  oneshot : Bool := false
  vep : Option (Nat × Nat) := none
  deriving DecidableEq, Repr

/-- What a controller transmits (12 R382): a priority buffer, the gateway queue's head, the transmit FIFO's head. -/
inductive TxSrc where
  | pri (p : Nat)
  | gateway
  | fifo
  deriving DecidableEq, Repr

/-- The frame in arbitration or transmission, with the full time of its start of frame (09 R286). -/
structure CanTx where
  src : TxSrc
  frame : CanFrame
  stamp : Nat
  gw : Option GwFrame := none
  deriving DecidableEq, Repr

/-- A transmit event (12 R381). -/
structure TxEvent where
  w0 : Word
  w1 : Word
  w2 : Word
  deriving DecidableEq, Repr

/-- A CAN controller. Its message RAM stands in the byte memory at its window. -/
structure CanCtl where
  owner : Nat := 0
  readers : Word := 0
  /-- The eight words of BUS_CAN_CONFIG (R398). -/
  conf : List Word := [0, 0, 0, 0, 0, 0, 0, 0]
  /-- Filter elements, three words each. -/
  filt : Tbl (List Word) := []
  mode : Nat := 0
  /-- Enabled when BSX was last power-gated (R369). -/
  wasOn : Bool := false
  rxHead : Nat := 0
  rxFill : Nat := 0
  /-- Unread dedicated receive buffers, by index. -/
  rxNew : List Nat := []
  txHead : Nat := 0
  txFill : Nat := 0
  /-- Bit masks over the priority buffers. -/
  pend : Nat := 0
  done : Nat := 0
  cancel : Nat := 0
  /-- Arbitrations entered, by buffer number. -/
  tries : Tbl Nat := []
  txe : List TxEvent := []
  txeLost : Nat := 0
  flags : Nat := 0
  /-- Locked buffer and the clk of its lock. -/
  lock : Option (Nat × Nat) := none
  tec : Nat := 0
  recv : Nat := 0
  lec : Nat := 0
  estate : Nat := 0
  ackErrs : Nat := 0
  /-- clk of the last bus-off. -/
  offAt : Nat := 0
  /-- Start of the pause-on-lone interval (clk). -/
  lonePause : Option Nat := none
  sending : Option CanTx := none
  busOffs : Nat := 0
  lostRx : Nat := 0
  tdcv : Nat := 0
  lockExp : Nat := 0
  rxCount : Nat := 0
  txCount : Nat := 0
  /-- Gateway queue, head first, and its limits and counters (13 R406, R415). -/
  gq : List GwFrame := []
  gage : Nat := 100
  gqDrop : Nat := 0
  aged : Nat := 0
  fmtDrop : Nat := 0
  dstDown : Nat := 0
  miss : Nat := 0
  /-- The frame last driven on the bus. -/
  out : Option CanFrame := none
  deriving DecidableEq, Repr

/-! ### LIN channels (12 R392 to R397) -/

/-- A receive slot (R395). -/
structure LinRx where
  status : Nat := 0
  len : Nat := 0
  new : Bool := false
  data : List Byte := []
  stamp : Nat := 0
  deriving DecidableEq, Repr

/-- A LIN channel. -/
structure LinCh where
  owner : Nat := 0
  readers : Word := 0
  /-- The two words of BUS_LIN_CONFIG. -/
  conf : List Word := [0, 0]
  frames : Tbl Word := []
  sched : Tbl (List Word) := []
  wasOn : Bool := false
  /-- Table running, 15 none; the table selected to follow the slot in progress. -/
  table : Nat := 15
  next : Option Nat := none
  /-- Slot in progress or last run; slot to start next. -/
  slot : Nat := 0
  nextSlot : Nat := 0
  /-- A slot is in progress until this clk. -/
  slotEnd : Option Nat := none
  /-- Table and slot to resume after a collision resolution. -/
  resume : Option (Nat × Nat) := none
  /-- Header on the bus: identifier, full time of its break, event-triggered. -/
  header : Option (Nat × Nat × Bool) := none
  /-- clk at which that header ends. -/
  hdrEnd : Nat := 0
  sleep : Bool := false
  /-- A go-to-sleep frame is asked for; it is on the bus. -/
  sleepAsk : Bool := false
  sleepTx : Bool := false
  /-- Identifiers updated by BUS_LIN_DATA and not sent since. -/
  updated : List Nat := []
  data : Tbl (List Byte) := []
  rx : Tbl LinRx := []
  errs : Nat := 0
  lastAct : Nat := 0
  /-- clk of the last wake pulse driven. -/
  pulse : Option Nat := none
  /-- Identifier and data of the response last driven on the bus. -/
  out : Option (Nat × List Byte) := none
  miss : Nat := 0
  deriving DecidableEq, Repr

/-! ### Gateway (13) -/

/-- A frame at the routing engine: source kind and index, arrival (clk), source stamp, the frame, and for an endpoint
its epoch, ONESHOT and COOKIE. -/
structure GwItem where
  kind : Nat
  idx : Nat
  at_ : Nat
  stamp : Nat
  frame : CanFrame
  oneshot : Bool := false
  epoch : Nat := 0
  cookie : Nat := 0
  /-- A LIN frame: from a channel, or a LIN message of a listener context. -/
  lin : Bool := false
  /-- Element header bytes 0 to 11 of an endpoint's entry (R410). -/
  head : List Byte := []
  deriving DecidableEq, Repr

/-- A routing entry with its HITS (R403, R414). -/
structure Route where
  words : List Word := [0, 0, 0, 0, 0, 0]
  hits : Nat := 0
  deriving DecidableEq, Repr

/-- A message of a PDU being packed, with the endpoint and epoch it came from. -/
structure AcfMsg where
  bytes : List Byte
  vep : Option (Nat × Nat) := none
  deriving DecidableEq, Repr

/-- An ACF context (R407 to R409, R414). -/
structure AcfCtx where
  words : List Word := [0, 0, 0, 0, 0, 0]
  msgs : List AcfMsg := []
  /-- clk of the first message of the PDU being packed. -/
  firstAt : Nat := 0
  pdus : Nat := 0
  count : Nat := 0
  seqErr : Nat := 0
  drops : Nat := 0
  seq : Nat := 0
  /-- A PDU has been received or sent. -/
  seen : Bool := false
  deriving DecidableEq, Repr

/-- The gateway service. -/
structure GwySt where
  route : Tbl Route := []
  acf : Tbl AcfCtx := []
  /-- Frames at the engine, in the order of R412. -/
  items : List GwItem := []
  /-- NORXBUF by endpoint. -/
  noBuf : Tbl Nat := []
  /-- Carriage frames that name no tenant (03 R104). -/
  foreign : Nat := 0
  /-- Carriage frames that wait at the crossing into SWX (01 R22): port, MAC address, bytes. -/
  carHeld : List (Nat × Nat × List Byte) := []
  deriving DecidableEq, Repr

/-! ### Poppy rings (14) -/

/-- Ring states, in RSTATE encoding order (R424). -/
inductive RState where
  | disabled | starting | ring | prepare | disengage | busSleep | pnSleep
  deriving DecidableEq, Repr

/-- A ring message as sent (R419): TYPE, DST, ROUND, CONSENT. -/
structure RMsg where
  kind : Nat
  dst : Nat
  round : Nat
  consent : Nat
  deriving DecidableEq, Repr

/-- A message addressed to the module that it has to answer (R422): clk of its end, ROUND, CONSENT. -/
structure Turn where
  at_ : Nat
  round : Nat
  consent : Nat
  deriving DecidableEq, Repr

/-- A ring. -/
structure Ring where
  /-- Words 0 to 4 of NMG_RING_CONFIG. -/
  words : List Word
  st : RState := .disabled
  /-- Member set and CONSENT of the last ring message. -/
  members : Nat := 0
  round : Nat := 0
  consent : Nat := 0
  /-- A RING has been heard since STARTING. -/
  heard : Bool := false
  /-- ALIVE has been sent since STARTING, at this clk. -/
  aliveAt : Option Nat := none
  /-- The message that the module has to answer. -/
  turn : Option Turn := none
  /-- The last message on the ring that is no ALIVE: its sender, the node addressed, clk since which that node is silent. -/
  last : Option (Nat × Nat × Nat) := none
  /-- Own message on its way to the bus. -/
  out : Option RMsg := none
  /-- The module's own last message, as sent. -/
  own : Option RMsg := none
  /-- A veto is due since this clk. -/
  vetoDue : Option Nat := none
  enteredAt : Nat := 0
  vetoes : Nat := 0
  badind : Nat := 0
  /-- Cluster frames received within PNTO: node, clk, CLREQ. -/
  clreq : List (Nat × Nat × Nat) := []
  clOut : Option Nat := none
  /-- CLREQ last sent and when. -/
  clSent : Option (Nat × Nat) := none
  /-- A wake latched during a release: its cause, and whether it has been recorded already. -/
  wake : Option (Nat × Bool) := none
  pnSince : Option Nat := none
  /-- The release in progress ends in PNSLEEP. -/
  toPn : Bool := false
  /-- Selective wake decoder: its error count, whether it runs, clk of the last activity on the bus. -/
  decErr : Nat := 0
  decRun : Bool := false
  /-- clk of that activity. -/
  decAt : Nat := 0
  deriving DecidableEq, Repr

/-- A cluster (R429, R437). -/
structure Cluster where
  valid : Bool := false
  member : Bool := false
  rings : Nat := 0
  deriving DecidableEq, Repr

/-- Network management. -/
structure NmgSt where
  ring : Tbl Ring := []
  cluster : Tbl Cluster := []
  /-- Rings and clusters requested, by tenant. -/
  req : Tbl (Nat × Nat) := []
  wake0 : Word := 0
  wake1 : Word := 0
  cause : Nat := 0
  causeIdx : Nat := 0
  wakes : Nat := 0
  causeAt : Nat := 0
  /-- A wake out of SLEEP or DORMANT whose start is under way; the bus whose ALIVE goes first. -/
  wakePend : Bool := false
  wakeBus : Option Nat := none
  /-- NMG_ALLSLEEP has been posted for the present sleep of the rings. -/
  allSleep : Bool := false
  deriving DecidableEq, Repr

/-- CAN controllers and LIN channels. -/
structure BusSt where
  can : Tbl CanCtl := []
  lin : Tbl LinCh := []
  deriving DecidableEq, Repr

end Sys2Proof.Machine
end

