-- ==== Sys2Proof/Machine/StCpu.lean ====
section
/-!
DEFINITION. State of the compute tiles (15): partitions, pairs, harts, memories' error counts; and of the Vault (16).
-/

namespace Sys2Proof.Machine

/-! ### Partitions and pairs (15) -/

/-- A partition. Its gate stands in the table of gates. -/
structure Part where
  /-- The partition block, once CPU_PART_CONFIG has completed with OK (R447). -/
  block : Option (List Word) := none
  /-- The block as it stood at the partition's last start: the one whose regions govern (R448). -/
  force : Option (List Word) := none
  stops : Nat := 0
  switchovers : Nat := 0
  stopCause : Nat := 0
  /-- The start in progress comes from STOPPED (R449). -/
  keep : Bool := false
  /-- A forced shut-down has reset the partition: its next start is from its reset state (01 R25). -/
  wiped : Bool := false
  deriving DecidableEq, Repr

/-- Roles of a pair, in ROLE encoding order (R478). -/
inductive Role where
  | idle | single | primary | spare | alone | resync | split | stopped
  deriving DecidableEq, Repr

/-- A lockstep pair. -/
structure Pair where
  role : Role := .idle
  part : Nat := 15
  cause : Nat := 0
  diverges : Nat := 0
  /-- clk of the trip that a resync in progress answers. -/
  tripAt : Nat := 0
  /-- clk of the last resync's end. -/
  resyncEnd : Option Nat := none
  /-- CPU_RESYNC that waits for the resync's end. -/
  cmd : Option Nat := none
  /-- The first core is halted in debug mode. -/
  halted : Bool := false
  deriving DecidableEq, Repr

/-- The registers that a gate call saves (16 R489): x1–x31, f0–f31, fcsr, pc after the store, FUNC, entry (clk). -/
structure Shadow where
  x : Tbl (BitVec 64)
  f : Tbl (BitVec 64)
  fcsr : BitVec 32
  pc : BitVec 64
  func : Nat
  tenant : Option Nat
  since : Nat
  deriving DecidableEq, Repr

/-- A hart (R442): 0–3 for LP0–LP3, 4–7 for PC0–PC3. -/
structure Hart where
  x : Tbl (BitVec 64) := []
  f : Tbl (BitVec 64) := []
  fcsr : BitVec 32 := 0
  pc : BitVec 64 := 0
  /-- Privilege mode: 1 HS, at a start (R449). -/
  priv : Nat := 1
  /-- Virtualisation mode, and the M-, HS- and VS-level CSRs that do not hold 0, by number, the 16 PMP entries (0x3A0,
  0x3A2, 0x3B0 to 0x3BF) and Sstc's stimecmp (0x14D) among them (R443). -/
  virt : Bool := false
  csr : Tbl (BitVec 64) := []
  /-- Identities pending in the M-level interrupt file and in the 4 guest interrupt files (R443); the S-level file of a
  partition's lowest hart is CpuSt.irq. -/
  mfile : List Nat := []
  guest : Tbl (List Nat) := []
  /-- Executes for its partition (held otherwise). -/
  run : Bool := false
  /-- TALLY and TALLYEP as last read and latched (R445). -/
  tally : BitVec 64 := 0
  tallyEp : BitVec 64 := 0
  /-- The last exception taken: cause code and the address or CSR concerned. -/
  exc : Option (Nat × Nat) := none
  /-- A gate call in progress. -/
  gate : Option Shadow := none
  /-- A debug halt that waits for the return of the gate call (16 R492). -/
  haltPend : Bool := false
  deriving DecidableEq, Repr

/-- Counts of a memory (R479). -/
structure MemCnt where
  spares : Nat := 0
  unc : Nat := 0
  corr : Nat := 0
  deriving DecidableEq, Repr

/-- The compute tiles and memories. -/
structure CpuSt where
  part : Tbl Part := []
  pair : Tbl Pair := []
  hart : Tbl Hart := []
  cnt : Tbl MemCnt := []
  /-- Words of system SRAM that the patrol corrected, with the sweep (2 s of clk) of the last correction. -/
  swept : Tbl Nat := []
  /-- Words of 8 bytes in which a read has found an uncorrectable error and that nothing has written since (03 R77,
  R471). -/
  uncorr : List Nat := []
  /-- Identities delivered to each partition's S-level interrupt file (R455). -/
  irq : Tbl (List Nat) := []
  deriving DecidableEq, Repr

/-! ### The Vault (16) -/

/-- A watermark register (R485). -/
structure Wm where
  busy : Bool := false
  refused : Bool := false
  target : Nat := 0
  level : Nat := 0
  deriving DecidableEq, Repr

/-- A key handle in use (R506). -/
structure VKey where
  alg : Nat
  usage : Nat
  persist : Bool := false
  owner : Nat
  material : List Byte := []
  deriving DecidableEq, Repr

/-- States of a mailbox slot, in encoding order (R493). -/
inductive MbState where
  | free | posted | running | done
  deriving DecidableEq, Repr

/-- A mailbox slot. -/
structure MbSlot where
  /-- Assigned partition (slots 0–47). -/
  part : Option Nat := none
  st : MbState := .free
  status : Nat := 0
  func : Nat := 0
  seq : Nat := 0
  call : List Word := List.replicate 16 0
  res : List Word := [0, 0, 0]
  /-- Order of posting. -/
  at_ : Nat := 0
  /-- Teller's command in the slot (R496). -/
  cmd : Option Nat := none
  deriving DecidableEq, Repr

/-- States of the Vault, in VSTATE.STATE encoding order (R515). -/
inductive VaultMode where
  | booting | running | restarting | suspended | failed | retired
  deriving DecidableEq, Repr

/-- Who waits for an outcome of the Vault. -/
inductive Caller where
  | hart (h : Nat)
  | slot (s : Nat)
  /-- Nobody any longer: the call was abandoned (R492, R511). -/
  | gone
  deriving DecidableEq, Repr

/-- A life-cycle move whose fuses are being written (R511). -/
structure FuseWrite where
  target : Nat
  hash : List Byte := []
  caller : Caller
  deriving DecidableEq, Repr

/-- The Vault. -/
structure VaultSt where
  wm : Tbl Wm := []
  mode : VaultMode := .booting
  cause : Nat := 0
  restarts : Nat := 0
  home : Nat := 0
  budget : Nat := 100
  /-- clk of the restarts begun, newest first. -/
  starts : List Nat := []
  /-- Cause and begin of the restart in progress, and VLT_RESTART commands. -/
  since : Nat := 0
  restartCmds : List Nat := []
  /-- clk of the last begin of RUNNING. -/
  runAt : Nat := 0
  meas : List Byte := List.replicate 48 0
  /-- The image has changed since the last start of the Vault: the next measurement becomes VMEAS. -/
  newImage : Bool := false
  keys : Tbl (Option VKey) := []
  /-- Persistent keys of encrypted volumes (17 R526). -/
  volKeys : Tbl (List Byte) := []
  mb : Tbl MbSlot := []
  nextPost : Nat := 0
  /-- VLT call commands that wait for one of slots 48–63. -/
  waiting : List Nat := []
  /-- Slot being served, since when (clk). -/
  serving : Option (Nat × Nat) := none
  /-- Window of 10 ms (clk) and service time charged to it, in ns. -/
  win : Nat := 0
  used : Nat := 0
  /-- Nonces returned by VLT_LC_NONCE and DBGNONCE, with their issue (clk). -/
  nonce : Option (List Byte × Nat) := none
  debugNonce : Option (List Byte × Nat) := none
  /-- Scope of the debug session in progress. -/
  session : Option Nat := none
  drbgOk : Bool := true
  /-- clk of the last reseed and requests since. -/
  reseedAt : Nat := 0
  requests : Nat := 0
  fuse : Option FuseWrite := none
  /-- The claims have been released for a power state (R499). -/
  released : Bool := false
  /-- The last SYS_ISLAND_CTL refused for a claim, of which the Vault has an event: island, power-gate, tenant (R499). -/
  claimEvent : Option (Nat × Bool × Nat) := none
  deriving DecidableEq, Repr

end Sys2Proof.Machine
end

