-- ==== Sys2Proof/Machine/StField.lean ====
section
/-!
DEFINITION. State of the field inputs, field outputs and the measurement engine (08), and of the audits (19).
-/

namespace Sys2Proof.Machine

/-! ### Field inputs (08 R228 to R239) -/

/-- An entry of an edge queue (08 R257): stamp, ESEQ, LEVEL after the edge. -/
structure Edge where
  stamp : Nat
  eseq : Nat
  level : Nat
  deriving DecidableEq, Repr

/-- One field input. -/
structure FieldIn where
  owner : Nat := 0
  readers : Word := 0
  /-- The input block as stored, 3 words; none stands for the defaults of R255. -/
  block : Option (List Word) := none
  /-- Raw value: 0 or 1, or in WB mode the decoded STATE of R238. -/
  raw : Nat := 0
  /-- Confirmed value, of the same kind. -/
  level : Nat := 0
  /-- LEVEL (R239). -/
  lvl : Nat := 0
  cand : Bool := false
  /-- Full Tally time of the candidate's first raw transition, and the steps of Tally time before it. -/
  stamp : Nat := 0
  stampGen : Nat := 0
  /-- Start of the present raw run, full Tally time (R233). -/
  since : Nat := 0
  glitch : Nat := 0
  edges : List Edge := []
  lost : Nat := 0
  ovf : Bool := false
  late : Nat := 0
  eseq : Nat := 0
  /-- Counts of the windows not yet published, by window number, and the next one to publish (R237). -/
  counts : Tbl Nat := []
  nextWin : Nat := 0
  /-- Count and start of the last published window. -/
  pubCount : Nat := 0
  pubStart : Nat := 0
  deriving DecidableEq, Repr

/-! ### Field outputs (08 R240 to R244) -/

/-- States of a field output, in STATE encoding order (08 R240). -/
inductive FoState where
  | unconf | off | on | latched | forced
  deriving DecidableEq, Repr

/-- One field output. -/
structure FieldOut where
  owner : Nat := 0
  readers : Word := 0
  /-- The output block as stored, 2 words. -/
  block : Option (List Word) := none
  st : FoState := .unconf
  duty : Nat := 0
  /-- A new duty and the time, in BSX's clock, of the period boundary at which it takes effect (R243). -/
  next : Option (Nat × Nat) := none
  /-- Start of the PWM period, in time of BSX's clock. -/
  pwmFrom : Nat := 0
  /-- ns at ILIMF (R241), and on-phase ns below, and at or above, the open-load threshold (R243). -/
  lim : Nat := 0
  low : Nat := 0
  high : Nat := 0
  cause : Nat := 0
  tlatch : Bool := false
  olon : Bool := false
  /-- A DRIVER fault in FORCED makes LATCHED of OFF on leaving (R241). -/
  drvMark : Bool := false
  /-- A switch-on that is pending: its duty and its commands. -/
  pend : Option (Nat × List Nat) := none
  deriving DecidableEq, Repr

/-! ### Measurement (08 R245 to R253) -/

/-- One analogue input. -/
structure AnaIn where
  owner : Nat := 0
  readers : Word := 0
  mode : Nat := 0
  ref : Nat := 0
  /-- Former modes of the last 1 ms, oldest first, each with the instant (clk) up to which it stood: a conversion goes by
  the mode at its own instant (R245). -/
  past : List (Nat × Nat) := []
  deriving DecidableEq, Repr

/-- A published result of one entry: code, outside its limits, ERR. -/
structure MeaRes where
  code : Nat := 0
  lim : Bool := false
  err : Bool := false
  deriving DecidableEq, Repr

/-- One measurement sequence. -/
structure MeaSeq where
  owner : Nat := 0
  /-- The words of MEA_SEQ_CONFIG, once accepted. -/
  conf : Option (List Word) := none
  armed : Bool := false
  running : Bool := false
  waiting : Bool := false
  /-- Its Tally trigger has fired and the run has not started (R250, R251). -/
  fired : Bool := false
  /-- The words that the run in progress goes by, its start (clk), and whether they have been replaced since. -/
  run : List Word := []
  runAt : Nat := 0
  stale : Bool := false
  overrun : Nat := 0
  valid : Bool := false
  results : List MeaRes := []
  /-- Tally time of the first sample of the published run, and of the run in progress. -/
  time : Nat := 0
  startTime : Nat := 0
  deriving DecidableEq, Repr

/-- A MEA_CONVERT that waits for its ADC (08 R251). -/
structure Convert where
  cmd : Nat
  src : Nat
  avg : Nat
  deriving DecidableEq, Repr

/-- The measurement engine. -/
structure MeaSt where
  seq : Tbl MeaSeq := []
  converts : List Convert := []
  deriving DecidableEq, Repr

/-- Field inputs, field outputs and analogue inputs, by index. -/
structure FioSt where
  fi : Tbl FieldIn := []
  fo : Tbl FieldOut := []
  ai : Tbl AnaIn := []
  /-- ns for which BSX's clock has been gated, but for a gate in progress, and the clk of that one (R225). -/
  lost : Nat := 0
  stopAt : Option Nat := none
  deriving DecidableEq, Repr

/-! ### Audits (19 R571 to R585) -/

/-- A summary and its detail records (19 R579, R581). -/
structure Summary where
  kind : Nat := 0
  status : Nat := 0
  /-- Full Tally time of the start. -/
  start : Nat := 0
  durMs : Nat := 0
  /-- clk of the end, and whether AON time has been known since. -/
  endAt : Nat := 0
  aonKnown : Bool := true
  lc : Nat := 0
  romPat : Bool := false
  aonKept : Bool := true
  valid : Bool := false
  /-- RES per block; a block absent is NOT RUN. -/
  res : Tbl Nat := []
  skipped : Nat := 0
  dlost : Nat := 0
  details : List (List Word) := []
  deriving DecidableEq, Repr

/-- An audit in progress. -/
structure AuditRun where
  kind : Nat
  /-- Blocks left, in test order. -/
  left : List Nat
  /-- The command that started it. -/
  cmd : Option Nat := none
  sum : Summary := {}
  startClk : Nat := 0
  /-- The audit has tested its last block or has been ended with the status it then has. -/
  ended : Bool := false
  deriving DecidableEq, Repr

/-- A Teller pair (19 R585). -/
structure TellerPair where
  inService : Bool := true
  /-- clk of the last trip. -/
  lastTrip : Option Nat := none
  /-- Out of service until the next audit. -/
  barred : Bool := false
  deriving DecidableEq, Repr

/-- Audits, repair and Teller pairs. -/
structure AuditSt where
  /-- The last closing audit, and the summary in force. -/
  closing : Summary := {}
  inForce : Summary := {}
  run : Option AuditRun := none
  /-- Spare rows used per block. -/
  rows : Tbl Nat := []
  /-- The supply and reference conditions of R573 held at their last check, and its clk. -/
  condOk : Bool := true
  condAt : Nat := 0
  teller : Tbl TellerPair := []
  deriving DecidableEq, Repr

end Sys2Proof.Machine
end

