-- ==== Sys2Proof/Machine/StPower.lean ====
section
/-!
DEFINITION. State of the load channels (05), the Purse and the wire models (06), Yarrow mode (07) and FAULT_N (19 R588).
-/

namespace Sys2Proof.Machine

/-! ### Load channels (05) -/

/-- The channel state machine (05 R157), in STATE encoding order; LIMP is a mark beside it (DEDUCED, log 17). -/
inductive ChState where
  | unconf | off | slewOn | inrush | on | slewOff | latched | retryWait | feedLost
  deriving DecidableEq, Repr

/-- What a request to the Purse asks for (06 R181). -/
inductive ReqKind where
  /-- PWR_SWITCH on in OFF, or a trigger firing for it. -/
  | turnOn
  /-- A turn-on admitted in SLEW_OFF (05 R160). -/
  | reversal
  /-- An increase of DUTY. -/
  | duty
  /-- A retry that is due. -/
  | retry
  /-- A turn-on after feed return. -/
  | feedReturn
  /-- The second action of a half-bridge change (05 R172). -/
  | second
  deriving DecidableEq, Repr

/-- A request in the admission queue (06 R184 to R186). -/
structure PReq where
  ch : Nat
  kind : ReqKind
  /-- Arrival (clk). -/
  at_ : Nat
  duty : Nat
  action : Nat
  /-- The command that asked, or none. -/
  cmd : Option Nat := none
  /-- A commanded request (R180). -/
  commanded : Bool := true
  /-- The Tally trigger whose firing asked. -/
  trig : Option Nat := none
  deriving DecidableEq, Repr

/-- A turn-on admitted whose slew has not started (05 R629). -/
structure Pend where
  kind : ReqKind
  duty : Nat
  action : Nat
  cmd : Option Nat := none
  /-- clk at which it was asked for, and the RETRY_LEFT that its reload stands for (05 R164). -/
  at_ : Nat := 0
  left : Option Nat := none
  deriving DecidableEq, Repr

/-- What a power die's controller counts of a channel, in ns (05 R152, R165, R167), and the current samples of the
overdraw window in progress (06 R188). -/
structure ChMeter where
  /-- Blanking count, and the on-phase time of the dip it runs through. -/
  oc : Nat := 0
  dip : Nat := 0
  /-- On-phase time below OLTH, and at or above it. -/
  low : Nat := 0
  high : Nat := 0
  /-- Reverse current while on, reverse voltage in OFF, and the time without either. -/
  rev : Nat := 0
  vrev : Nat := 0
  clear : Nat := 0
  /-- Time since which an off-state cycle can have run, and clk of the last one (05 R166). -/
  off : Nat := 0
  cyc : Nat := 0
  /-- Sum and number of the window's samples, in mA. -/
  sum : Int := 0
  n : Nat := 0
  /-- Windows that have ended and wait for their evaluation, oldest first. -/
  done : List (Int × Nat) := []
  deriving DecidableEq, Repr

/-- One load channel: block, state machine, diagnostics, bookings, wire model and limp policy (05, 06, 07). -/
structure Chan where
  owner : Nat := 0
  readers : Word := 0
  /-- The parameter block as stored, 8 words. -/
  block : Option (List Word) := none
  st : ChState := .unconf
  /-- The channel is in LIMP (05 R157, 07 R212). -/
  limp : Bool := false
  retryLeft : Nat := 0
  /-- Causes of the last trip, bit 0 OC to bit 6 CONFIG. -/
  cause : Nat := 0
  first : Nat := 0
  winOpen : Bool := false
  winEnd : Nat := 0
  duty : Nat := 0
  dutyNext : Option Nat := none
  action : Nat := 0
  /-- Thermal latch of the switch, or of a half-bridge's upper switch, and of its lower switch (05 R154). -/
  tlatch : Bool := false
  tlatchLow : Bool := false
  revcur : Bool := false
  stb : Bool := false
  oloff : Bool := false
  olon : Bool := false
  trips : Nat := 0
  pend : Option Pend := none
  /-- The second action of a half-bridge change, after the turn-off slew (05 R172): action, duty, command. -/
  second : Option (Nat × Nat × Option Nat) := none
  tripAt : Nat := 0
  /-- clk at which a commanded turn-off was executed, at which a PWR_CLEAR was, and at which the switch last went off other
than by a trip (05 R162). -/
  offAt : Option Nat := none
  clrAt : Option Nat := none
  onTill : Option Nat := none
  /-- A half-bridge's other switch turns on from this clk on (05 R170). -/
  deadUntil : Nat := 0
  /-- After a boundary that changes the duty both switches of a sourcing half are off up to this clk (05 R170, R173). -/
  legTill : Nat := 0
  onSince : Nat := 0
  /-- The retry or feed-return turn-on in the Purse or pending was asked for (05 R163, R169). -/
  asked : Bool := false
  /-- In LIMP, a retry that is due waits for its die's class-A window (07 R213). -/
  limpDue : Bool := false
  /-- Start of a PWM period, from which the boundaries run (05 R149), the offset in force and the next one in units of
10 ns, and the clk that offsets count from (06 R189, R190). -/
  pwmFrom : Nat := 0
  pwmOff : Nat := 0
  pwmOffNext : Nat := 0
  pwmRef : Nat := 0
  /-- dutyNext lowers the duty: its decrease is released at the boundary (06 R181). -/
  dutyDown : Bool := false
  meter : ChMeter := {}
  /-- Bookings: continuous current and inrush peak in 10 mA, dissipation in mW (06 R178). -/
  icont : Nat := 0
  iinr : Nat := 0
  pdis : Nat := 0
  /-- PUR_OVERDRAW has been posted and no window at most ICONT has followed (06 R188). -/
  drawn : Bool := false
  /-- The wire block as stored, 4 words; none stands for the default of the class (06 R196). -/
  wire : Option (List Word) := none
  /-- Modelled rise in K (06 R191), and the number of the last 50 µs current sample it stands for. The
default is half of the default blocks' DTMAX (06 R196). -/
  theta : Rat := 25
  thetaAt : Nat := 0
  wireLatch : Bool := false
  /-- The limp policy block in non-volatile memory, 3 words (07 R216). -/
  policy : Option (List Word) := none
  /-- Policy in force in LIMP (07 R212): 0 OFF, 1 ON, 2 HOLD, 3 FOLLOW. -/
  pol : Nat := 0
  holdEnd : Nat := 0
  /-- The policy in force asks for the switch on (07 R214), at this action and duty. -/
  polOn : Bool := false
  polAct : Nat := 0
  polDuty : Nat := 0
  deriving DecidableEq, Repr

/-! ### The Purse (06) -/

/-- Capacities, the admission queue and the feed flags (06 R177, R184, R204). -/
structure PurseSt where
  /-- Feed purses A and B, module purse, in 10 mA. -/
  capFeedA : Nat := 12000
  capFeedB : Nat := 12000
  capMod : Nat := 18000
  /-- Dissipation purses in 10 mW. -/
  capDisA : Nat := 1800
  capDisB : Nat := 1800
  /-- Inrush purses in 10 mA. -/
  capInrA : Nat := 36000
  capInrB : Nat := 36000
  queue : List PReq := []
  flostA : Bool := false
  flostB : Bool := false
  blockA : Bool := false
  blockB : Bool := false
  deriving DecidableEq, Repr

/-! ### Yarrow mode (07) -/

/-- A power die as the module sees it (07). -/
structure Die where
  yarrow : Bool := false
  /-- Causes recorded since entry, bit n of R207. -/
  causes : Nat := 0
  /-- The die's link is declared lost (R223 DEAD). -/
  dead : Bool := false
  /-- clk of the die's entry. -/
  since : Nat := 0
  /-- clk since which valid heartbeats have come without interruption. -/
  beatFrom : Nat := 0
  beating : Bool := true
  /-- Filtered LH pins as the die sees them. -/
  lh : Nat := 0
  /-- CHON and LH last received, reported while the link is lost. -/
  chonLast : Nat := 0
  lhLast : Nat := 0
  feedLoss : Bool := false
  /-- ns for which the feed has been below VFL, and above VFR, without interruption (05 R169). -/
  feedLow : Nat := 0
  feedHigh : Nat := 0
  /-- The logic side has learnt of the present Yarrow mode (R210). -/
  known : Bool := false
  /-- While the link is lost: clk from which ELAPSED counts (R223). -/
  lostSince : Nat := 0
  /-- Vetch frames retransmitted (R208). -/
  frameErrors : Nat := 0
  /-- A policy block failed its CHECK at entry (R218). -/
  polBad : List Nat := []
  deriving DecidableEq, Repr

/-- A reclaim in progress (07 R219): its command, the dies still named, the dies named at first. -/
structure Reclaim where
  cmd : Nat
  dies : List Nat
  named : List Nat
  since : Nat := 0
  deriving DecidableEq, Repr

/-- Yarrow mode of the module (07). -/
structure YarrowSt where
  die : Tbl Die := []
  /-- Reclaims in progress, oldest first. -/
  reclaims : List Reclaim := []
  /-- SAFE_N low past its filter. -/
  safeN : Bool := false
  /-- The logic die's reset indication is asserted. -/
  logicReset : Bool := false
  deriving DecidableEq, Repr

/-! ### FAULT_N (19 R588) -/

/-- FAULT_N's latched causes and mask, and the level causes with no other home. -/
structure FaultSt where
  latched : Nat := 0
  mask : Nat := 0
  startup : Bool := true
  /-- FAULT_N is kept low through SLEEP. -/
  held : Bool := false
  deriving DecidableEq, Repr

end Sys2Proof.Machine
end

