-- ==== Sys2Proof/Machine/StImage.lean ====
section
/-!
DEFINITION. What the configuration image written by Hiast Builder holds, as far as the spec names it (04 R110, 05 R140,
06 R196, 08 R228, 12 R367, R369, 15 R446, 20 R597). Its bytes are not in the spec, so it stands here as the contents it gives.
-/

namespace Sys2Proof.Machine

/-- A load channel's entry: owner, readers, parameter block, wire block. -/
structure ImgChan where
  owner : Nat := 0
  readers : Word := 0
  block : Option (List Word) := none
  wire : Option (List Word) := none
  deriving DecidableEq, Repr

/-- The configuration image. -/
structure Image where
  /-- It holds a valid T0 descriptor. -/
  t0 : Bool := false
  ten : Tbl Tenant := []
  que : Tbl Queue := []
  chan : Tbl ImgChan := []
  fi : Tbl FieldIn := []
  fo : Tbl FieldOut := []
  ai : Tbl AnaIn := []
  seq : Tbl MeaSeq := []
  /-- Controllers and channels as configured, wasOn for those enabled; rings, clusters, wake sources (12 R369, 14). -/
  can : Tbl CanCtl := []
  lin : Tbl LinCh := []
  ring : Tbl Ring := []
  cluster : Tbl Cluster := []
  wake0 : Word := 0
  wake1 : Word := 0
  /-- Partition blocks (15 R446). -/
  part : Tbl (List Word) := []
  /-- The gateway address (13 R407). -/
  gwAddr : Nat := 0
  /-- Slots of the eMRAM components: offset in a bank and size (18 R547). -/
  slot : Tbl (Nat × Nat) := []
  /-- TSLEEP in s and TDORM in h (20 R597). -/
  tsleep : Nat := 10
  tdorm : Nat := 0
  deriving DecidableEq, Repr, Inhabited

end Sys2Proof.Machine

namespace Sys2Proof.Config

/-- The configuration image that the bytes of COMP 0x60 give: their layout is Hiast Builder's and not in the spec
(DESIGN CHOICE, log 3). -/
opaque imageOf : List Byte → Machine.Image

end Sys2Proof.Config
end

