-- ==== Sys2Proof/Machine/StNet.lean ====
section
/-!
DEFINITION. State of the switch: ports, forwarding database, shared buffer and queues (10), stream contexts, gate lists,
shapers, change sets and MACsec (11).
-/

namespace Sys2Proof.Machine

/-! ### Switch core (10) -/

/-- A forwarding-database entry (10 R301). -/
structure FdbEntry where
  mac : Nat
  vid : Nat
  static : Bool := false
  mc : Bool := false
  port : Nat := 0
  vnic : Nat := 0
  mask : Nat := 0
  /-- clk of the last refresh. -/
  at_ : Nat := 0
  /-- Installed by TEN_VI_CREATE. -/
  vi : Bool := false
  deriving DecidableEq, Repr

/-- A frame stored in the shared buffer (10 R304, R305). -/
structure Stored where
  id : Nat
  frame : EthFrame
  /-- VID and PCP of the frame by R299. -/
  vid : Nat
  pcp : Nat
  /-- Length by R298, FCS included. -/
  len : Nat
  cells : Nat
  /-- The tenant whose reserved part holds the cells; none: the shared part. -/
  res : Option Nat := none
  /-- Copies not yet transmitted, aged out or flushed. -/
  refs : Nat
  /-- Age stamp: full Tally time of ingress completion. -/
  stamp : Nat
  iport : Nat
  /-- Sending VNIC. -/
  src : Option Nat := none
  /-- TSID of a descriptor that asks for stamps (09 R278). -/
  tsid : Option Nat := none
  /-- Ports at which an R-TAG is removed (11 R331). -/
  strip : Nat := 0
  /-- Destinations that admitted it and at which it is not queued yet: port, traffic class. -/
  dests : List (Nat × Nat) := []
  /-- Ports whose queues were flushed while its cells were being written (R315). -/
  cut : List Nat := []
  /-- Receiving VNICs of its P14 copy. -/
  vnics : List Nat := []
  /-- First cell slot in which its ingress may write it, middle lane of each cell written so far, and the slot in which
  the last of these was written (R307). -/
  first : Nat := 0
  lanes : List Nat := []
  lastSlot : Nat := 0
  deriving DecidableEq, Repr

/-- The frame a port is transmitting. -/
structure Sending where
  id : Nat
  tc : Nat
  /-- MACsec protects it, under this AN. -/
  an : Option Nat := none
  deriving DecidableEq, Repr

/-- The credit of a shaped class (11 R346): units of 10^-6 bit, as of a clk. -/
structure Credit where
  val : Int := 0
  at_ : Nat := 0
  /-- The gate was closed from that clk on. -/
  shut : Bool := false
  deriving DecidableEq, Repr

/-- A switch port. -/
structure SwPort where
  /-- The four words of NET_PORT_CONFIG (10 R324). -/
  conf : List Word := [0, 1522, 0xFAC681, 1]
  link : Bool := false
  holding : Bool := false
  expired : Bool := false
  downAt : Nat := 0
  /-- Exponent k and AGE in 0.1 ms, by traffic class (R305, R312). -/
  k : Tbl Int := []
  age : Tbl Nat := []
  /-- Frames queued, by traffic class. -/
  queue : Tbl (List Nat) := []
  sending : Option Sending := none
  cnt : Tbl Nat := []
  tooBig : Nat := 0
  credit : Tbl Credit := []
  /-- Cells (frame, sequence number) requested from the lanes and not yet received, and cells held (R308). -/
  want : List (Nat × Nat) := []
  held : List (Nat × Nat) := []
  /-- The frame transmitted last, as it left, and its SecTAG if MACsec protected it (11 R328). -/
  out : Option EthFrame := none
  outSec : Option SecTag := none
  deriving DecidableEq, Repr

/-- The switch core. -/
structure NetSt where
  port : Tbl SwPort := []
  /-- Member mask and untag mask by VID. -/
  vlan : Tbl (Nat × Nat) := []
  fdb : List FdbEntry := []
  fdbAge : Nat := 300
  etype : Nat := 0x88B5
  frames : List Stored := []
  nextFrame : Nat := 0
  /-- First cell slot that the fabric has not run yet (R307, R308). -/
  slot : Nat := 0
  /-- The VNIC that P14 served last, by traffic class (R321). -/
  lastTx : Tbl Nat := []
  deriving DecidableEq, Repr

/-! ### Streams, gates, shapers (11) -/

/-- What a stream keeps outside its context (11 R334 to R342, R361). -/
structure Stream where
  blocked : Bool := false
  takeAny : Bool := true
  recov : Nat := 0
  hist : Nat := 0
  /-- Positions of the history that a number has stood for since TAKEANY. -/
  span : Nat := 0
  /-- clk of the last acceptance, while a reset window runs. -/
  lastAcc : Option Nat := none
  resets : Nat := 0
  genSeq : Nat := 0
  /-- Tokens used of each bucket, in units of 1/8 000 000 byte, as of a clk. -/
  usedC : Nat := 0
  usedE : Nat := 0
  fillAt : Nat := 0
  cnt : Tbl Nat := []
  deriving DecidableEq, Repr

/-- An operating gate list (11 R343, R344): entries (word 0, INTERVAL), CYCLE, first cycle start as a full time. -/
structure GateList where
  entries : List (Nat × Nat)
  cycle : Nat
  start : Nat := 0
  deriving DecidableEq, Repr

/-- A gate list as TSN_GCL stages it: BASE and entries; no entries removes the operating list. -/
structure GateStage where
  entries : List (Nat × Nat) := []
  cycle : Nat := 0
  base : Nat := 0
  deriving DecidableEq, Repr

/-- The tables of a change set that are no gate lists (R353). -/
structure TsnTab where
  stream : Tbl (List Word) := []
  /-- idleSlope in kb/s by port × 8 + class; 0 no shaper. -/
  cbs : Tbl Nat := []
  txan : Tbl Nat := []
  deriving DecidableEq, Repr

/-- A change set (R354, R355): its epoch, its shadow copies, and once committed T, its command, and the lists that wait
for their switch. Lists are keyed by port, or 16 + stream gate. -/
structure ChangeSet where
  e : Nat
  tab : TsnTab
  lists : Tbl GateStage := []
  /-- Once committed: T as a full time. -/
  t : Option Nat := none
  cmd : Nat := 0
  /-- CEPOCH has become E. -/
  switched : Bool := false
  waiting : List Nat := []
  lastSwitch : Option Nat := none
  deriving DecidableEq, Repr

/-! ### MACsec (11 R347 to R352) -/

/-- A secure association. -/
structure Sa where
  valid : Bool := false
  /-- Next PN to send, or the lowest acceptable PN. -/
  pn : Nat := 0
  ssci : Word := 0
  salt : List Word := []
  key : List Word := []
  sci : List Word := []
  deriving DecidableEq, Repr

/-- A receive secure channel. -/
structure RxSc where
  port : Nat := 0
  valid : Bool := false
  sci : Nat := 0
  deriving DecidableEq, Repr

/-- MACsec of a port: the words of TSN_MACSEC_PORT and the counters of R363 from word 2 on. -/
structure MacPort where
  w0 : Word := 0x2000
  replay : Word := 0
  cnt : Tbl Nat := []
  deriving DecidableEq, Repr

/-- Streams, shaping and MACsec. -/
structure TsnSt where
  stream : Tbl Stream := []
  act : TsnTab := {}
  /-- Operating gate lists, keyed as in ChangeSet. -/
  gate : Tbl (Option GateList) := []
  cepoch : Nat := 0
  set : Option ChangeSet := none
  mac : Tbl MacPort := []
  /-- Transmit SAs by port × 4 + AN, receive SAs by RXSC × 4 + AN. -/
  txsa : Tbl Sa := []
  rxsa : Tbl Sa := []
  rxsc : Tbl RxSc := []
  deriving DecidableEq, Repr

end Sys2Proof.Machine
end

