-- ==== Sys2Proof/Machine/StRelay.lean ====
section
/-!
DEFINITION. State of image relay and update (18): components, transfers, peers and relays.
-/

namespace Sys2Proof.Machine

/-- STATE of a component, in its encoding order (R569). -/
inductive ImgState where
  | idle | receiving | verifying | installing | ready | activating | trial | fallback
  deriving DecidableEq, Repr

/-- An installed image: what its manifest says of it, and for a staged component its plaintext. -/
structure ImgInfo where
  version : Nat := 0
  svn : Nat := 0
  cthash : List Byte := []
  /-- HEALTH in minutes, 10 for 0. -/
  health : Nat := 10
  data : List Byte := []
  /-- Bytes of its package, which a staged component keeps in the staging volume (R548). -/
  size : Nat := 0
  deriving DecidableEq, Repr

/-- A component (R546, R561 to R569). -/
structure ImgComp where
  st : ImgState := .idle
  /-- Active eMRAM bank: 0 MA, 1 MB. -/
  bank : Nat := 0
  active : ImgInfo := {}
  /-- The READY image, or the active one's predecessor; during a trial the image on trial is `active`. -/
  ready : Option ImgInfo := none
  prev : Option ImgInfo := none
  otpSvn : Nat := 0
  /-- Trial run time in ns, and the health window in ns. -/
  run : Nat := 0
  window : Nat := 0
  /-- Module resets during the trial after no orderly shut-down. -/
  resets : Nat := 0
  actCmds : List Nat := []
  revCmds : List Nat := []
  /-- A revert that follows the activation in progress: its trigger (R567). -/
  revertAfter : Option Nat := none
  /-- The trial opens at the partition's next start (R567). -/
  atStart : Bool := false
  /-- Channels that have yet to take a calibration; Teller pairs yet to roll. -/
  todo : List Nat := []
  deriving DecidableEq, Repr

/-- A transfer (R557). -/
structure ImgXfer where
  comp : Nat
  tenant : Nat
  pklen : Nat
  mlen : Nat
  data : List Byte := []
  /-- clk of the last IMG_DATA or IMG_CLOSE. -/
  at_ : Nat := 0
  /-- IMG_CLOSE in execution. -/
  close : Option Nat := none
  /-- Passed check 6. -/
  passed : Bool := false
  deriving DecidableEq, Repr

/-- A relay peer (R558): the words of IMG_PEER, and the association with its series and open command frames. -/
structure ImgPeer where
  words : List Word := []
  assoc : Assoc := { port := 0, mac := 0 }
  deriving DecidableEq, Repr

/-- The command of a relay that its peer has yet to answer (R559). -/
inductive RelayStep where
  | idle | offer | data | close
  deriving DecidableEq, Repr

/-- A relay of a component's package (R559, R560). -/
structure ImgRelay where
  comp : Nat
  /-- Bytes of the stored package, and its CTHASH. -/
  size : Nat
  cthash : List Byte := []
  /-- The package. -/
  data : List Byte := []
  /-- Serials of RELAY after the module's own entry, with their entry numbers. -/
  todo : List (Nat × Nat)
  /-- Entry being served, its peer, and the attempt on it. -/
  entry : Nat := 0x3F
  peer : Nat := 0
  attempt : Nat := 0
  /-- The attempt runs; it failed at this clk. -/
  active : Bool := false
  failedAt : Nat := 0
  /-- What the peer has to answer; its transfer, the bytes that it has taken, and the last command's number and FSEQ. -/
  step : RelayStep := .idle
  xfr : Nat := 0
  sent : Nat := 0
  seq : Nat := 0
  fseq : Nat := 0
  deriving DecidableEq, Repr

/-- Image relay and update. -/
structure ImgSt where
  comp : Tbl ImgComp := []
  /-- Transfers by XFR. -/
  xfer : Tbl (Option ImgXfer) := []
  peer : Tbl ImgPeer := []
  relay : List ImgRelay := []
  staging : Option Nat := none
  deriving DecidableEq, Repr

end Sys2Proof.Machine
end

