-- ==== Sys2Proof/Machine/StSto.lean ====
section
/-!
DEFINITION. State of Strongbox (17 R517 to R536): volumes with their contents and their map from logical to physical pages,
the blocks of the device, commits, groups and escrow.
-/

namespace Sys2Proof.Machine

/-- A block of the NAND device (R522 to R524): its erase count, its reads since it was last written, whether it is
factory-marked or retired, and its 4 KiB pages programmed since the last erase. -/
structure NandBlk where
  erases : Nat := 0
  reads : Nat := 0
  bad : Bool := false
  used : Nat := 0
  deriving DecidableEq, Repr

/-- A volume: size in pages, encryption, the contents of the pages mapped, and where each stands: block × pages per block
plus the page's place in it (R521). -/
structure Vol where
  size : Nat := 0
  enc : Bool := false
  pages : Tbl (List Byte) := []
  at_ : Tbl Nat := []
  deriving DecidableEq, Repr

/-- A commit group (R530). -/
structure StoGroup where
  opener : Nat
  vol : Nat
  pages : Tbl (List Byte) := []
  at_ : Tbl Nat := []
  deriving DecidableEq, Repr

/-- What a media operation in execution is for. -/
inductive JobKind where
  /-- A commit: what each page takes (none: unmapped), pages not yet programmed, reservation in 0.01 mJ, and the group
  it commits. -/
  | commit (writes : Tbl (Option (List Byte))) (left reserve : Nat) (group : Option Nat)
  /-- A staged write into a group. -/
  | stage (group : Nat) (writes : Tbl (List Byte)) (left : Nat)
  /-- A read: the data taken from the map at its start, and its DMA buffer, if any. -/
  | read (page : Nat) (data : List Byte) (dma : Option Nat)
  /-- A page of the Ledger for V15 (R538). -/
  | ledger (left reserve : Nat)
  deriving DecidableEq, Repr

/-- A media operation: its command (none: the module's own), volume and work, and the physical pages programmed for it. -/
structure StoJob where
  cmd : Option Nat
  vol : Nat
  kind : JobKind
  phys : List Nat := []
  deriving DecidableEq, Repr

/-- A commit that waits for escrow: from when its TIMEOUT counts (clk at its dispatch) and the TIMEOUT in ms. -/
structure StoWait where
  job : StoJob
  at_ : Nat
  timeout : Nat
  deriving DecidableEq, Repr

/-- Strongbox. -/
structure StoSt where
  absent : Bool := false
  /-- The device has been examined since STX last started (R518). -/
  started : Bool := false
  formatted : Bool := false
  readonly : Bool := false
  rebuild : Bool := false
  /-- Blocks of the device, 4 KiB pages per block, factory marks, and the interface in use: an SDR mode, or 16 plus the
  NV-DDR2 rate in MT/s (R517, R518, R523). -/
  total : Nat := 0
  perBlock : Nat := 0
  marks : List Nat := []
  iface : Nat := 0
  blk : Tbl NandBlk := []
  /-- The block that takes programs now. -/
  open_ : Option Nat := none
  /-- Blocks that READLIM has made due for a read by the patrol (R524). -/
  due : List Nat := []
  /-- NAND key slots: the keys of encrypted volumes (R526). -/
  slots : Tbl (List Byte) := []
  /-- The last brownout has written the map checkpoint (R536). -/
  ckpt : Bool := false
  /-- Good blocks, spare blocks left, grown bad blocks. -/
  good : Nat := 0
  spare : Nat := 0
  grown : Nat := 0
  refreshes : Nat := 0
  uncorr : Nat := 0
  patrol : Nat := 7
  refresh : Nat := 24
  wlDelta : Nat := 200
  readLim : Nat := 50
  vol : Tbl Vol := []
  groups : Tbl (Option StoGroup) := []
  jobs : List StoJob := []
  waiting : List StoWait := []
  /-- VHOLD in 0.1 V, EBASE in 0.1 mJ, EPAGE and EJOURNAL in 0.01 mJ. -/
  vhold : Nat := 360
  ebase : Nat := 200
  epage : Nat := 120
  ejournal : Nat := 240
  /-- C in µF, whether measured since the last start, BANKFAULT, and a measurement in progress with its commands. -/
  c : Nat := 0
  charged : Bool := false
  fault : Bool := false
  measuring : Bool := false
  measCmds : List Nat := []
  /-- Last bank sample in mV, and clk when it was taken. -/
  v : Nat := 0
  vAt : Nat := 0
  noEnergy : Nat := 0
  format : Option Nat := none
  /-- Commits finished since brownout entry. -/
  finished : Nat := 0
  deriving DecidableEq, Repr

end Sys2Proof.Machine
end

