-- ==== Sys2Proof/Machine/State.lean ====
section
/-!
DEFINITION. The state of the SZC4800 block: everything the spec gives the module, the queue of waiting commands, and
the model's own clock, free-value counter and stimulus record. State.reset is the module started to RUN with no
configuration image (DESIGN CHOICE, log 3).
-/

namespace Sys2Proof.Machine

/-- Faults. No rule of the spec stops the block, so no meaning of this model raises one. -/
inductive Fault where
  /-- Raised by no command; a byte of an address that exists always reads a value (safe). -/
  | none
  deriving DecidableEq, Repr

/-- Refusals. -/
inductive Refusal where
  /-- A command whose meaning is not in the model, by its mnemonic; raised by Dispatch (safe). -/
  | notModelled (mnemonic : String)
  deriving DecidableEq, Repr

/-- T0 as the module builds it without an image (04 R111). -/
def defaultT0 : Tenant :=
  { st := .live, reqid := 0x100, cmd := 16, groups := 0xFFFFF, islen := 0x37, label := List.replicate 16 0x20 }

/-- T0's queues without an image: depth 64, spill pages 4090 to 4095. -/
def defaultQueues : Tbl Queue := (List.range 6).map (fun q => (q, { depth := 6, spill := 4090 + q }))

/-- The module's state. -/
structure State where
  /-- Commands waiting, first in first out. -/
  pending : List Instr := []
  /-- Nanoseconds of module clock since reset: the sum of the commands' elapsed times. -/
  clk : Nat := 0
  /-- Number of the next free value. -/
  free : Nat := 0
  /-- Number of the next Hiast command in execution. -/
  nextId : Nat := 0
  /-- Latest samples and levels shown by the outside world. -/
  env : List (Probe × Int) := []
  /-- Byte memory: system SRAM, eMRAM, tile SRAM and CAN message RAM, by physical address. -/
  mem : List Host.Cell := []
  /-- What the last read command returned. -/
  rdata : List Word := []
  ident : IdentSt
  image : Image := {}
  tim : TimSt := {}
  isl : Tbl Island := []
  /-- Gates of ports, CAN controllers, LIN channels and partitions, by funcKey. -/
  gates : Tbl Gate := []
  inflight : List Cmd := []
  /-- Last tenant served per priority level (02 R58). -/
  rr : Tbl Nat := []
  ten : Tbl Tenant := []
  /-- Queues, keyed by tenant × 6 + q. -/
  que : Tbl Queue := []
  /-- Virtual instances, keyed by kind × 256 + index. -/
  vis : Tbl (Option Vi) := []
  /-- Windows in which a refused access was last recorded, by object (00 R625). -/
  marks : Tbl (Nat × Nat) := []
  led : LedgerSt := {}
  pow : PowSt := {}
  /-- Load channels, by CHAN (05 R138). -/
  chan : Tbl Chan := []
  pur : PurseSt := {}
  yar : YarrowSt := {}
  flt : FaultSt := {}
  fio : FioSt := {}
  mea : MeaSt := {}
  aud : AuditSt := {}
  net : NetSt := {}
  tsn : TsnSt := {}
  bus : BusSt := {}
  gwy : GwySt := {}
  nmg : NmgSt := {}
  cpu : CpuSt := {}
  vlt : VaultSt := {}
  sto : StoSt := {}
  img : ImgSt := {}
  deriving DecidableEq, Repr

/-! ### Reset -/

/-- An ASCII character A to Z or 0 to 9, chosen by a number. -/
def alnum (n : Nat) : Byte := BitVec.ofNat 8 (if n % 36 < 26 then 65 + n % 36 else 22 + n % 36)

/-- A byte of a die entry (00 R9), with the die's step: LOT, WAFER, XPOS, YPOS, SITE, STEP, reserved. -/
def fusedDie (letter digit : Byte) (i k : Nat) : Byte :=
  let b := Config.fuseByte i
  if k < 7 then alnum b.toNat
  else if k = 7 then BitVec.ofNat 8 (1 + b.toNat % 25)
  else if k < 10 then b
  else if k < 12 then alnum b.toNat
  else if k = 12 then letter
  else if k = 13 then digit
  else 0

/-- The identity bytes of this unit (00 R8, R9): fused bytes within the range that each field's table gives it, and the
fields that the module's revision and the die steps (J2, K1) fix. -/
def fusedIdentity : List Byte :=
  (List.range 64).map (fun i =>
    let b := Config.fuseByte i
    if i < 7 then b
    else if i = 7 then BitVec.ofNat 8 (1 + b.toNat % 53)
    else if i = 8 then alnum b.toNat
    else if i < 11 then 3
    else if i = 11 then 1
    else if i < 16 then 0
    else if i < 32 then fusedDie 0x4A 0x32 i (i % 16)
    else fusedDie 0x4B 0x31 i (i % 16))

/-- The Ledger record of a start without a valid T0 descriptor (04 R111): RCODE 0x01F0, about T0. -/
def resetRec : LedRec :=
  let r : LedRec := { rseq := 0, time := 0, epoch := 0, rcode := 0x01F0, tenant := 0, sev := Config.severity 0x01F0 % 4 }
  { r with hash := r.chain (List.replicate 32 0) }

/-- The blocks of the full BIST: all but the eMRAM banks and the NAND store (19 R583). -/
def resetBlocks : List Nat := (List.range 72).filter (fun b => b != 20 && b != 21 && b != 40)

/-- The module right after a supply-up start without a configuration image (20 R602): T0 as R111 builds it, every object
of T0's with its reset configuration, the full BIST of the opening check in progress, Tally time 0. Log 3. -/
def State.reset : State :=
  { ident := { primary := fusedIdentity, copy := fusedIdentity }
    ten := [(0, defaultT0)]
    que := defaultQueues
    led := { next := 1, lastHash := resetRec.hash, ring := [resetRec] }
    aud := { run := some { kind := 2, left := resetBlocks, sum := { kind := 2, lc := 3 } } } }

end Sys2Proof.Machine
end

