-- ==== Sys2Proof/Machine/Ops.lean ====
section
/-!
DEFINITION. The shared operations over the state: accessors of the numbered objects, byte memory, Tally time read-outs,
free values, the Ledger, queue slots, notices and status replies (02, 03, 17).
-/

namespace Sys2Proof.Machine

/-! ### Accessors -/

/-- Tenant t. -/
def State.tenant (s : State) (t : Nat) : Tenant := look {} s.ten t

/-- The state with tenant t set. -/
def State.setTenant (s : State) (t : Nat) (x : Tenant) : State := { s with ten := put s.ten t x }

/-- The key of queue q of tenant t. -/
def qkey (t q : Nat) : Nat := t * 6 + q

/-- Queue q of tenant t. -/
def State.queue (s : State) (t q : Nat) : Queue := look {} s.que (qkey t q)

/-- The state with queue q of tenant t set. -/
def State.setQueue (s : State) (t q : Nat) (x : Queue) : State := { s with que := put s.que (qkey t q) x }

/-- Island n. -/
def State.island (s : State) (n : Nat) : Island := look {} s.isl n

/-- The state with island n set. -/
def State.setIsland (s : State) (n : Nat) (x : Island) : State := { s with isl := put s.isl n x }

/-- Virtual instance idx of a kind, if it exists. -/
def State.vi (s : State) (kind idx : Nat) : Option Vi := look none s.vis (kind * 256 + idx)

/-- The state with a virtual instance set. -/
def State.setVi (s : State) (kind idx : Nat) (x : Option Vi) : State :=
  { s with vis := put s.vis (kind * 256 + idx) x }

/-- Tally time TNS (09 R264). -/
def State.now (s : State) : Nat := s.tim.full % 2 ^ 48

/-- EPOCH (09 R264). -/
def State.epoch (s : State) : Nat := s.tim.full / 2 ^ 48 % 2 ^ 32

/-- (transmit, receive) latency of a port's external PHY, in ns: 0 but at P0 and P1 (09 R268, R289). -/
def State.portLat (s : State) (p : Nat) : Nat × Nat :=
  if p = 0 then s.tim.lat0 else if p = 1 then s.tim.lat1 else (0, 0)

/-- TFR: the fraction of a nanosecond in units of 2^-16 ns (09 R264). -/
def State.tfr (s : State) : Nat := s.tim.sub * 2 ^ 16 / 10 ^ 11

/-- The last value the outside world showed at a probe, if it showed one. -/
def State.probe? (s : State) (p : Probe) : Option Int := (s.env.find? (fun x => x.1 == p)).map (·.2)

/-- The last value shown at a probe, or d. -/
def State.probe (s : State) (p : Probe) (d : Int := 0) : Int := (s.probe? p).getD d

/-- Tenants that exist (04 R628). -/
def State.exists (s : State) (t : Nat) : Bool := (s.tenant t).st != .free

/-! ### Free values (DESIGN CHOICE, log 6) -/

/-- A free number, and the state past it. -/
def State.drawNat (s : State) : Nat × State := (Config.freeNat s.free, { s with free := s.free + 1 })

/-- A free word, and the state past it. -/
def State.drawWord (s : State) : Word × State := (Config.freeWord s.free, { s with free := s.free + 1 })

/-- n free bytes, and the state past them. -/
def State.drawBytes (s : State) (n : Nat) : List Byte × State :=
  ((List.range n).map (fun i => Config.freeByte (s.free + i)), { s with free := s.free + n })

/-! ### Byte memory (DESIGN CHOICE, log 2) -/

/-- The byte at an address; an unlisted address reads 0. -/
def readByte : List Host.Cell → Nat → Byte
  | [], _ => 0
  | (a, b) :: m, x => if x = a then b else readByte m x

/-- Memory without an address. -/
def clearByte : List Host.Cell → Nat → List Host.Cell
  | [], _ => []
  | (a, b) :: m, x => if x = a then m else (a, b) :: clearByte m x

/-- Memory with a byte that is not 0 at an address. -/
def insertByte : List Host.Cell → Nat → Byte → List Host.Cell
  | [], x, v => [(x, v)]
  | (a, b) :: m, x, v =>
    if x = a then (x, v) :: m
    else if x < a then (x, v) :: (a, b) :: m
    else (a, b) :: insertByte m x v

/-- Writes one byte, keeping the canonical form. -/
def writeByte (m : List Host.Cell) (x : Nat) (v : Byte) : List Host.Cell :=
  if v = 0 then clearByte m x else insertByte m x v

/-- The canonical form: addresses strictly rising, no byte equal to what an unlisted address reads as. -/
def Memory.wf (m : List Host.Cell) : Bool :=
  decide ((m.map (·.1)).Pairwise (· < ·)) && m.all (fun c => c.2 != 0)

/-- The n bytes from an address on. -/
def State.readMem (s : State) (a n : Nat) : List Byte := (List.range n).map (fun i => readByte s.mem (a + i))

/-- Writes bytes from an address on. -/
def writeBytes : List Host.Cell → Nat → List Byte → List Host.Cell
  | m, _, [] => m
  | m, a, b :: bs => writeBytes (writeByte m a b) (a + 1) bs

/-- The state with bytes written to memory. A word that is written holds no uncorrectable error any longer (DEDUCED,
log 36). -/
def State.writeMem (s : State) (a : Nat) (bs : List Byte) : State :=
  { s with mem := writeBytes s.mem a bs
           cpu := { s.cpu with uncorr := s.cpu.uncorr.filter (fun w => w + 8 ≤ a || a + bs.length ≤ w) } }

/-- Memory with a range of addresses zeroed: reset to what nothing has written. -/
def State.clearMem (s : State) (a n : Nat) : State :=
  { s with mem := s.mem.filter (fun c => c.1 < a || a + n ≤ c.1)
           cpu := { s.cpu with uncorr := s.cpu.uncorr.filter (fun w => w + 8 ≤ a || a + n ≤ w) } }

/-! ### Windows of one second (00 R625) -/

/-- The present window: steps so far and second of full Tally time. -/
def State.window (s : State) : Nat × Nat := (s.tim.gen, s.tim.full / 10 ^ 9)

/-- A count in the present window. -/
def WinCount.now (w : WinCount) (s : State) : Nat := if (w.gen, w.sec) = s.window then w.n else 0

/-- A count raised by one in the present window. -/
def WinCount.inc (w : WinCount) (s : State) : WinCount :=
  { gen := s.window.1, sec := s.window.2, n := w.now s + 1 }

/-! ### The Ledger (17 R537, R538) -/

/-- Strongbox persists Ledger records (17 R538). -/
def State.persisting (s : State) : Bool :=
  !s.sto.absent && s.sto.formatted && !s.sto.readonly && (look {} s.sto.vol 15).size != 0

/-- Appends a record to the eMRAM ring (17 R538). The records of the ring that V15 does not hold wait for persistence, also
those that it finds when it begins. With persistence, the oldest record that the full ring would
overwrite before it is persisted is lost and the record appended carries LOSS; without, it only leaves retention. -/
def appendRec (r : LedRec) (s : State) : State :=
  let l := s.led
  let full := decide (4096 ≤ l.ring.length)
  let lose := full && s.persisting && decide (4096 ≤ l.unpers)
  let r1 := { r with rseq := l.next, loss := l.lossFlag || lose }
  let h := r1.chain l.lastHash
  let r2 := { r1 with hash := h }
  let ring := (if full then l.ring.tail else l.ring) ++ [r2]
  { s with led := { l with
      next := l.next + 1
      lastHash := h
      ring := ring
      unpers := min 4096 (l.unpers + 1)
      lost := if lose then satInc 0xFFFFFFFF l.lost else l.lost
      lossFlag := false
      cpDue := if (l.next + 1) % 256 = 0 then l.cpDue ++ [r2] else l.cpDue } }

/-- Records an event in the Ledger with a given severity. -/
def logSev (sev rcode tenant : Nat) (d : List Word) (s : State) : State :=
  appendRec { rseq := 0, time := s.now, epoch := s.epoch % 2 ^ 16, rcode := rcode, tenant := tenant, sev := sev,
              d0 := par d 0, d1 := par d 1, d2 := par d 2 } s

/-- Records an event in the Ledger with the severity that the spec leaves open (DESIGN CHOICE, log 6). -/
def logRec (rcode tenant : Nat) (d : List Word) (s : State) : State :=
  logSev (Config.severity rcode % 4) rcode tenant d s

/-- Records an event that posts no notice: low byte 0xF0, the opcode concerned, the address or object concerned
(17 R537). -/
def logObj (group tenant opcode : Nat) (a b : Nat) (s : State) : State :=
  logRec (group * 256 + 0xF0) tenant [wd opcode, wd a, wd b] s

/-- Records only the first of a kind of refused access in the present 1 s window (00 R625). -/
def logFirst (mark group tenant a : Nat) (s : State) : State :=
  if find? s.marks mark = some s.window then s
  else logObj group tenant 0 a (a / 2 ^ 32) { s with marks := put s.marks mark s.window }

/-! ### Pointers and slots (03 R72, R73) -/

/-- The linear value of a pointer. -/
def ptrLin (d : Nat) (p : BitVec 13) : Nat := (p.toNat / 4096) * 2 ^ d + p.toNat % 4096

/-- The pointer of a linear value. -/
def ptrOf (d l : Nat) : BitVec 13 := BitVec.ofNat 13 ((l / 2 ^ d % 2) * 4096 + l % 2 ^ d)

/-- A pointer n slots on. -/
def ptrAdd (d : Nat) (p : BitVec 13) (n : Nat) : BitVec 13 := ptrOf d (ptrLin d p + n)

/-- Depth in slots; 0 when not configured. -/
def Queue.size (q : Queue) : Nat := if q.depth = 0 then 0 else 2 ^ q.depth

/-- Occupancy (R72). -/
def Queue.occ (q : Queue) : Nat := q.slots.length

/-- Free slots. -/
def Queue.room (q : Queue) : Nat := q.size - q.occ

/-- The queue with its producer pointer moved, copy included (R100). -/
def Queue.setProd (q : Queue) (p : BitVec 13) : Queue := { q with prod := p, prodInv := ~~~p }

/-- The queue with its consumer pointer moved, copy included (R100). -/
def Queue.setCons (q : Queue) (p : BitVec 13) : Queue := { q with cons := p, consInv := ~~~p }

/-- Cuts an item into slots; the last one holds the bytes defined (R73). -/
def itemSlots (bs : List Byte) : List (List Byte) := cuts 64 ((bs.length + 63) / 64) bs

/-- Whether the occupancy rises across the level (R94). -/
def Queue.crosses (q : Queue) (occ' : Nat) : Bool := q.levelEn && decide (q.occ ≤ q.level) && decide (q.level < occ')

/-- The tag of a slot. -/
def Slot.tag (x : Slot) : SlotTag := { len := x.bytes.length, gen := x.gen, first := x.first, stalled := x.stalled }

/-- The queue with an item appended at the producer pointer. -/
def Queue.append (q : Queue) (sl : List Slot) : Queue :=
  let q1 := q.setProd (ptrAdd q.depth q.prod sl.length)
  { q1 with slots := q.slots ++ sl.map Slot.tag, latch := q.latch || q.crosses (q.occ + sl.length) }

/-- The queue with its n oldest slots taken by the consumer. -/
def Queue.take (q : Queue) (n : Nat) : Queue :=
  let q1 := q.setCons (ptrAdd q.depth q.cons n)
  { q1 with slots := q.slots.drop n }

/-- An item's slots under a generation. -/
def mkSlots (gen : Nat) : List (List Byte) → List Slot
  | [] => []
  | b :: bs => { bytes := b, gen := gen } :: bs.map (fun x => { bytes := x, gen := gen, first := false })

/-! ### Where the slots live (03 R74, R75) -/

/-- Address of slot index i of a queue: spill offset i × 64. -/
def Queue.slotAddr (x : Queue) (i : Nat) : Nat := 0x20000000 + x.spill * 0x1000 + i * 64

/-- Slot index of the j-th slot from a pointer on. -/
def Queue.idxFrom (x : Queue) (p : BitVec 13) (j : Nat) : Nat := (ptrAdd x.depth p j).toNat % 4096

/-- An uncorrectable error has been found in one of n bytes from an address on. -/
def State.uncorrAt (s : State) (a n : Nat) : Bool := s.cpu.uncorr.any (fun w => decide (a < w + 8) && decide (w < a + n))

/-- The committed slots of a queue from the consumer pointer on, with their bytes as the spill region holds them. -/
def State.slotsOf (s : State) (x : Queue) : List Slot :=
  x.slots.zipIdx.map (fun p =>
    let a := x.slotAddr (x.idxFrom x.cons p.2)
    { bytes := s.readMem a p.1.len, gen := p.1.gen, first := p.1.first, stalled := p.1.stalled, bad := s.uncorrAt a 64 })

/-- Stores slots from the producer pointer on in the spill region. -/
def State.storeSlots (s : State) (x : Queue) (sl : List Slot) : State :=
  sl.zipIdx.foldl (fun s p => s.writeMem (x.slotAddr (x.idxFrom x.prod p.2)) p.1.bytes) s

/-- The engine moves the slots ahead of the consumer, at most eight, into the consumer window. -/
def State.refill (s : State) (x : Queue) : Queue :=
  { x with cwin := (List.range (min 8 x.occ)).foldl (fun w j =>
      let i := x.idxFrom x.cons j
      put w (i % 8) (s.readMem (x.slotAddr i) 64)) x.cwin }

/-- The state with a queue's n oldest slots taken by the consumer. -/
def State.takeSlots (s : State) (t q n : Nat) : State := s.setQueue t q (s.refill ((s.queue t q).take n))

/-- The state with slots appended to a queue; an upward crossing of the level is noted (R94, R95). -/
def State.addSlots (s : State) (t q : Nat) (sl : List Slot) : State :=
  let x := s.queue t q
  let s1 := s.storeSlots x sl
  let y := s1.refill (x.append sl)
  s1.setQueue t q (if x.crosses (x.occ + sl.length) then { y with crossed := some (s.clk, !x.latch) } else y)

/-! ### Interrupts (15 R455) -/

/-- Delivers an interrupt identity to a partition's S-level interrupt file. -/
def deliverPart (p ident : Nat) (s : State) : State :=
  let l := look [] s.cpu.irq p
  { s with cpu := { s.cpu with irq := put s.cpu.irq p (if l.contains ident then l else l ++ [ident]) } }

/-- Delivers an interrupt identity to the partition bound to a local tenant; nothing for other tenants. -/
def deliver (t ident : Nat) (s : State) : State :=
  let x := s.tenant t
  if x.st ≠ .free ∧ x.kind = 0 ∧ 0x100 ≤ x.reqid ∧ x.reqid < 0x108 then deliverPart (x.reqid - 0x100) ident s else s

/-- Identity 1 or 2 when the CQ or NQ of a tenant went from empty to holding an item (R455). -/
def deliverFill (t q occ : Nat) (s : State) : State :=
  if occ = 0 ∧ q = 4 then deliver t 1 s else if occ = 0 ∧ q = 5 then deliver t 2 s else s

/-! ### Notices (03 R91, R92) -/

/-- The 64 bytes of a notice. -/
def noticeBytes (t ncode nseq lost ntime : Nat) (det : List Word) : List Byte :=
  let b := [(0x20 : Byte)] ++ bytesOf 1 t ++ bytesOf 2 ncode ++ bytesOf 2 nseq ++ bytesOf 2 lost ++ bytesOf 6 ntime ++
    [0, 0] ++ fit 44 (wordBytes det)
  b ++ bytesOf 2 (crc16 b) ++ [0, 0]

/-- Writes a notice into a tenant's NQ, or drops it and counts it when the NQ has no room. A level crossing of the NQ
itself sets LATCH; the second component says whether QUE_LEVEL is then due (R94). -/
def noticeRaw (t ncode : Nat) (det : List Word) (s : State) : State × Bool :=
  let x := s.tenant t
  let q := s.queue t 5
  let s1 := s.setTenant t { x with nseq := (x.nseq + 1) % 2 ^ 16 }
  if q.room = 0 then (s1.setQueue t 5 { q with lost := satInc 0xFFFF q.lost }, false)
  else
    let b := noticeBytes t ncode x.nseq q.lost s.now det
    let s2 := s1.addSlots t 5 (mkSlots q.gen [b])
    (deliverFill t 5 q.occ (s2.setQueue t 5 { s2.queue t 5 with lost := 0 }), q.crosses (q.occ + 1) && !q.latch)

/-- DETAIL word 0 of the queue notices (R93). -/
def queWord (t q : Nat) : Word := wd (q + t * 8)

/-- Posts a notice to a tenant that exists and has the native PROFILE; nothing otherwise. For events that the module
records in the Ledger anyway. -/
def noticeOnly (t ncode : Nat) (det : List Word) (s : State) : State :=
  let x := s.tenant t
  if x.st = .free ∨ x.profile = 1 then s
  else
    let r := noticeRaw t ncode det s
    if r.2 then (noticeRaw t 0x0201 [queWord t 5, wd (r.1.queue t 5).occ] r.1).1 else r.1

/-- Posts a notice; for a PROFILE 1 tenant the Ledger record stands in for it (02 R69). -/
def notice (t ncode : Nat) (det : List Word) (s : State) : State :=
  let x := s.tenant t
  if x.st ≠ .free ∧ x.profile = 1 then logRec ncode t det s else noticeOnly t ncode det s

/-- Posts a notice to T0 and to every other tenant of a list, each once. -/
def noticeAll (ts : List Nat) (ncode : Nat) (det : List Word) (s : State) : State :=
  ts.eraseDups.foldl (fun s t => notice t ncode det s) s

/-- Posts a notice of an event that the module records in the Ledger anyway, to each of a list once. -/
def noticeAllOnly (ts : List Nat) (ncode : Nat) (det : List Word) (s : State) : State :=
  ts.eraseDups.foldl (fun s t => noticeOnly t ncode det s) s

/-- Records an event and posts its notice to each of a list (17 R537: RCODE is the NCODE). -/
def logNotice (ts : List Nat) (tenant ncode : Nat) (det : List Word) (s : State) : State :=
  noticeAllOnly ts ncode det (logRec ncode tenant det s)

/-- Tenants holding the right of group row i (04 R118). -/
def State.holders (s : State) (i : Nat) : List Nat :=
  (List.range 32).filter (fun t => s.exists t && (t == 0 || (s.tenant t).groups.testBit i))

/-- Appends an item to a queue, posting QUE_LEVEL at an upward crossing that found LATCH 0 (R94). -/
def postItem (t q : Nat) (sl : List Slot) (s : State) : State :=
  let x := s.queue t q
  let c := x.crosses (x.occ + sl.length)
  let s1 := deliverFill t q x.occ (s.addSlots t q sl)
  if c && !x.latch then notice t 0x0201 [queWord t q, wd (x.occ + sl.length)] s1 else s1

/-! ### Status replies (02 R44 to R48) -/

/-- The code of a status (02 R53). -/
def Status.code : Status → Nat
  | .ok => 0x0000 | .accepted => 0x0001 | .deferred => 0x0002
  | .badOpcode => 0x0100 | .badParam => 0x0101 | .badLength => 0x0102 | .badCheck => 0x0103
  | .denied => 0x0200 | .noShare => 0x0201 | .lifecycle => 0x0202
  | .busy => 0x0300 | .noEnergy => 0x0301 | .thermal => 0x0302
  | .staleEpoch => 0x0400 | .flushed => 0x0401 | .tenantReset => 0x0402 | .vaultRestarted => 0x0403
  | .timeout => 0x0500 | .tooLate => 0x0501
  | .mediaError => 0x0600 | .authFail => 0x0601 | .internal => 0xFFFF

/-- What a reply reports. -/
structure ReplyInfo where
  version : Nat
  opcode : Nat
  seq : Nat
  status : Status
  result : List Word := []
  more : Bool := false
  late : Bool := false
  deriving DecidableEq, Repr

/-- Bytes 0–7 of a reply header (R44, R45). -/
def replyHead (t : Nat) (r : ReplyInfo) : List Byte :=
  bytesOf 1 (r.version * 16 + 2 * b2n r.late + b2n r.more) ++ bytesOf 1 t ++ bytesOf 2 r.opcode ++ bytesOf 2 r.seq ++
    bytesOf 2 r.status.code

/-- A reply's bytes: the native form of R44, or the 8-byte form of PROFILE 1 (R69). -/
def replyBytes (profile t ctime : Nat) (r : ReplyInfo) : List Byte :=
  if profile = 1 then replyHead t r ++ wordBytes r.result
  else
    let b := replyHead t r ++ bytesOf 2 r.result.length ++ bytesOf 6 ctime ++ wordBytes r.result
    b ++ bytesOf 2 (crc16 b) ++ [0, 0]

/-- Removes a command from execution. -/
def dropCmd (id : Nat) (s : State) : State := { s with inflight := s.inflight.filter (fun c => c.id != id) }

/-- Posts a reply into a tenant's CQ, or holds it behind the replies already held or for want of room (03 R90). A final
reply frees its command's slot when it is posted. A PROFILE 1 reply takes as many slots as its 8 + 4 × words bytes need
(DEDUCED, log 44: 03 R73 counts the native form). -/
def postReply (t : Nat) (r : ReplyInfo) (final : Option Nat) (s : State) : State :=
  if (s.tenant t).st = .free then
    match final with
    | some id => dropCmd id s
    | none => s
  else
  let b := replyBytes (s.tenant t).profile t s.now r
  let q := s.queue t 4
  let sl := itemSlots b
  if q.held = [] ∧ sl.length ≤ q.room then
    let s1 := postItem t 4 (mkSlots q.gen sl) s
    match final with
    | some id => dropCmd id s1
    | none => s1
  else
    let s1 := s.setQueue t 4 { q with held := q.held ++ [{ slots := sl, final := final }] }
    match final with
    | some id => { s1 with inflight := s1.inflight.map (fun c => if c.id = id then { c with phase := .held } else c) }
    | none => s1

/-- The command in execution with an id, unless its final reply is already held. -/
def State.cmd? (s : State) (id : Nat) : Option Cmd :=
  s.inflight.find? (fun c => c.id == id && c.phase != .held)

/-- The state with a command in execution replaced. -/
def setCmd (c : Cmd) (s : State) : State :=
  { s with inflight := s.inflight.map (fun x => if x.id = c.id then c else x) }

/-- Counts a final status for a tenant that is being reset (04 R136). -/
def countReset (t : Nat) (st : Status) (s : State) : State :=
  let x := s.tenant t
  if x.st = .resetting ∨ x.st = .deleting then
    match st with
    | .flushed => s.setTenant t { x with flushedN := satInc 0xFFFF x.flushedN }
    | .tenantReset => s.setTenant t { x with resetN := satInc 0xFFFF x.resetN }
    | _ => s
  else s

/-- A chain learns a member's final status (02 R65, R66). -/
def chainEnd (t q id : Nat) (st : Status) (s : State) : State :=
  let x := s.queue t q
  match x.chain with
  | none => s
  | some c =>
    if c.await = some id then
      let c1 : Chain := { c with await := none, failed := c.failed || st != .ok }
      s.setQueue t q { x with chain := some c1 }
    else s

/-- Ends a command in execution with its final status: the chain that awaits it learns the status, and the reply is
posted, but for a final OK without a result under NOTIFY = 0 (02 R47). -/
def finishCmd (id : Nat) (st : Status) (res : List Word) (s : State) : State :=
  match s.cmd? id with
  | none => s
  | some c =>
    let s1 := match c.chain with
      | some q => chainEnd c.tenant q id st s
      | none => s
    let s2 := countReset c.tenant st s1
    if st = .ok ∧ res = [] ∧ c.notify = false then dropCmd id s2
    else postReply c.tenant
      { version := c.version, opcode := c.opcode, seq := c.seq, status := st, result := res, late := c.late } (some id) s2

/-- Ends several commands with one status and no result, in order. -/
def finishAll (ids : List Nat) (st : Status) (s : State) : State :=
  ids.foldl (fun s id => finishCmd id st [] s) s

/-- Posts a command's interim reply and sets its phase (02 R47, R63). -/
def interim (id : Nat) (st : Status) (s : State) : State :=
  match s.cmd? id with
  | none => s
  | some c =>
    postReply c.tenant
      { version := c.version, opcode := c.opcode, seq := c.seq, status := st, more := true, late := c.late } none
      (setCmd { c with phase := if st = .deferred then .deferred else .accepted } s)

/-- A tenant's commands that occupy a command slot (02 R56). -/
def State.inUse (s : State) (t : Nat) : Nat := (s.inflight.filter (fun c => c.tenant == t && !c.noSlot)).length

/-- Takes a command out of the admission queues it waits in, with no reply. -/
def forget (id : Nat) (s : State) : State :=
  { s with pur := { s.pur with queue := s.pur.queue.filter (fun r => r.cmd != some id) }
           sto := { s.sto with waiting := s.sto.waiting.filter (fun w => w.job.cmd != some id) } }

end Sys2Proof.Machine
end

