-- ==== Sys2Proof/Machine/ImgBase.lean ====
section
/-!
DEFINITION. Image components and transfers (18 R546, R557) and commit groups (17 R530), as far as a tenant's reset ends
them.
-/

namespace Sys2Proof.Machine

/-- Component c; an anti-rollback counter stands at 0 (DESIGN CHOICE, log 15). -/
def State.icomp (s : State) (c : Nat) : ImgComp := look {} s.img.comp c
def State.setIcomp (s : State) (c : Nat) (x : ImgComp) : State := { s with img := { s.img with comp := put s.img.comp c x } }

/-- COMP names a component (R546). -/
def compOk (c : Nat) : Bool :=
  c == 0 || c == 0x10 || (decide (0x20 ≤ c) && decide (c < 0x28)) || (decide (0x32 ≤ c) && decide (c < 0x3E)) ||
  c == 0x40 || c == 0x41 || c == 0x50 || c == 0x60

/-- The component is held in an eMRAM slot. -/
def compEmram (c : Nat) : Bool := c == 0 || c / 16 == 2

def ImgState.code : ImgState → Nat
  | .idle => 0 | .receiving => 1 | .verifying => 2 | .installing => 3 | .ready => 4 | .activating => 5 | .trial => 6
  | .fallback => 7

/-- A relay of the component runs. -/
def State.relaying (s : State) (c : Nat) : Bool := s.img.relay.any (fun r => r.comp == c)

/-- The image that is active and confirmed: while another is being changed to or on trial, its predecessor. -/
def ImgComp.confirmed (x : ImgComp) : ImgInfo :=
  if x.st = .activating ∨ x.st = .trial then x.prev.getD {} else x.active

/-- IMG_STATUS word 0 (R569). -/
def State.imgWord0 (s : State) (c : Nat) : Word :=
  let x := s.icomp c
  wd (c * 2 ^ 24 + x.otpSvn * 2 ^ 18 + x.confirmed.svn * 2 ^ 12 + b2n (s.relaying c) * 2 ^ 9 +
    (if compEmram c then x.bank * 2 ^ 8 else 0) + x.st.code)

def State.xfr (s : State) (x : Nat) : Option ImgXfer := look none s.img.xfer x
def State.setXfr (s : State) (x : Nat) (v : Option ImgXfer) : State := { s with img := { s.img with xfer := put s.img.xfer x v } }

/-- Where a component stands when no transfer for it is open. -/
def ImgComp.rest (x : ImgComp) : ImgState := if x.ready.isSome then .ready else .idle

/-- A transfer is abandoned (R557): IMG_STATE is posted once, and an IMG_CLOSE in execution ends. -/
def abandonXfr (n : Nat) (st : Status) (s : State) : State :=
  match s.xfr n with
  | none => s
  | some x =>
    let y := s.icomp x.comp
    let s1 := (s.setXfr n none).setIcomp x.comp { y with st := y.rest }
    finishAll x.close.toList st (notice 0 0x5801 [s1.imgWord0 x.comp, 1] s1)

/-- The transfers that a tenant offered are abandoned at its reset. -/
def dropXfers (t : Nat) (s : State) : State :=
  (List.range 4).foldl (fun s n => if (s.xfr n).any (fun x => x.tenant == t) then abandonXfr n .tenantReset s else s) s

/-- A group, if it is open. -/
def State.grp (s : State) (g : Nat) : Option StoGroup := look none s.sto.groups g
def State.setGrp (s : State) (g : Nat) (x : Option StoGroup) : State :=
  { s with sto := { s.sto with groups := put s.sto.groups g x } }

def State.setSto (s : State) (x : StoSt) : State := { s with sto := x }

/-- The commit of a group is in execution. -/
def State.grpCommits (s : State) (g : Nat) : Bool := (s.sto.jobs ++ s.sto.waiting.map (·.job)).any (fun j => match j.kind with
  | .commit _ _ _ (some h) => h == g
  | _ => false)

/-- A group is discarded: what is still being staged into it goes nowhere (R530). -/
def leaveGroup (g : Nat) (j : StoJob) : StoJob :=
  match j.kind with
  | .stage h w left => if h = g then { j with kind := .stage 16 w left } else j
  | _ => j

/-- The groups that a tenant opened are discarded at its reset (R530). -/
def dropGroups (t : Nat) (s : State) : State :=
  let gone := (s.sto.groups.filter (fun p => p.2.any (fun g => g.opener == t) && !s.grpCommits p.1)).map (·.1)
  s.setSto { s.sto with groups := s.sto.groups.map (fun p => if gone.contains p.1 then (p.1, none) else p)
                        jobs := gone.foldl (fun l g => l.map (leaveGroup g)) s.sto.jobs }

end Sys2Proof.Machine
end

