-- ==== Sys2Proof/Machine/Swb.lean ====
section
/-!
DEFINITION. The switch's ports and stored frames (10), and the rings of virtual instances (10 R318, 04 R127 to R131):
the operations that other files share.
-/

namespace Sys2Proof.Machine

/-! ### Ports -/

/-- Port p. -/
def State.sp (s : State) (p : Nat) : SwPort := look {} s.net.port p

/-- The state with a port set. -/
def State.setSp (s : State) (p : Nat) (x : SwPort) : State := { s with net := { s.net with port := put s.net.port p x } }

/-- Adds to a counter of R322. -/
def countPort (p j n : Nat) (s : State) : State :=
  let x := s.sp p
  s.setSp p { x with cnt := put x.cnt j ((look 0 x.cnt j + n) % 2 ^ 64) }

/-- Counter indices of R322. -/
def cRXFRAMES : Nat := 0
def cRXBYTES : Nat := 1
def cFCSERR : Nat := 2
def cRUNT : Nat := 3
def cOVERSIZE : Nat := 4
def cNODEST : Nat := 5
def cLANESKIP : Nat := 6
def cLEARNFAIL : Nat := 7
def cDROPTHR : Nat := 8
def cMCDROP : Nat := 9
def cLDDROP : Nat := 10
def cLDFLUSH : Nat := 11
def cAGED : Nat := 12
def cVIREMOVED : Nat := 13
def cNORXBUF : Nat := 14
def cTXFRAMES : Nat := 15
def cTXBYTES : Nat := 16

/-- Queue of a port and class, head first. -/
def SwPort.q (x : SwPort) (tc : Nat) : List Nat := look [] x.queue tc

/-- The port with a queue set. -/
def SwPort.setQ (x : SwPort) (tc : Nat) (l : List Nat) : SwPort := { x with queue := put x.queue tc l }

/-- A stored frame. -/
def State.stored? (s : State) (id : Nat) : Option Stored := s.net.frames.find? (fun f => f.id == id)

/-- The state with a stored frame replaced. -/
def setStored (f : Stored) (s : State) : State :=
  { s with net := { s.net with frames := s.net.frames.map (fun x => if x.id = f.id then f else x) } }

/-- A copy of a frame has been transmitted, aged out, flushed or removed (10 R313): the frame's cells return to their
part with the last one. -/
def releaseCopy (id : Nat) (s : State) : State :=
  { s with net := { s.net with frames := s.net.frames.filterMap (fun x =>
      if x.id = id then (if x.refs ≤ 1 then none else some { x with refs := x.refs - 1 }) else some x) } }

/-- Drops a frame's copy at a port and counts it there. -/
def dropCopy (p j id : Nat) (s : State) : State := releaseCopy id (countPort p j 1 s)

/-- Removes the frames that a VNIC has sent and that no wire has begun (04 R129 step 4): the state, and how many copies
were removed. -/
def removeSent (vnic : Nat) (s : State) : State × Nat :=
  let mine := (s.net.frames.filter (fun f => f.src == some vnic)).map (·.id)
  (List.range 16).foldl (fun acc p =>
    (List.range 8).foldl (fun acc tc =>
      let x := acc.1.sp p
      let gone := (x.q tc).filter (fun id => mine.contains id)
      let s1 := acc.1.setSp p (x.setQ tc ((x.q tc).filter (fun id => !mine.contains id)))
      (gone.foldl (fun s id => dropCopy p cVIREMOVED id s) s1, acc.2 + gone.length))
      (let wr := (acc.1.net.frames.filter (fun f => f.src == some vnic && f.dests.any (fun d => d.1 == p))).map (·.id)
       (wr.foldl (fun s id =>
          let s1 := match s.stored? id with
            | some f => setStored { f with dests := f.dests.filter (fun d => d.1 != p) } s
            | none => s
          dropCopy p cVIREMOVED id s1) acc.1, acc.2 + wr.length)))
    (s, 0)

/-- Copies of a VNIC's frames that are on a wire (04 R130). -/
def State.onWire (s : State) (vnic : Nat) : Nat :=
  ((List.range 16).filter (fun p => (s.sp p).sending.any (fun x => (s.stored? x.id).any (fun f => f.src == some vnic)))).length

/-! ### CAN controllers' gateway queues and talkers, as an endpoint's reset meets them (13 R411) -/

/-- CAN controller n. -/
def State.canc (s : State) (n : Nat) : CanCtl := look {} s.bus.can n

/-- The state with a CAN controller set. -/
def State.setCan (s : State) (n : Nat) (x : CanCtl) : State := { s with bus := { s.bus with can := put s.bus.can n x } }

/-- ACF context c. -/
def State.acf (s : State) (c : Nat) : AcfCtx := look {} s.gwy.acf c

/-- The state with an ACF context set. -/
def State.setAcf (s : State) (c : Nat) (x : AcfCtx) : State := { s with gwy := { s.gwy with acf := put s.gwy.acf c x } }

/-- A gateway frame or message came from endpoint e. -/
def fromVep (e : Nat) (v : Option (Nat × Nat)) : Bool := v.any (fun x => x.1 == e)

/-- Removes an endpoint's frames from the gateway queues, the engine and the talkers: the state, and how many. -/
def removeVep (e : Nat) (s : State) : State × Nat :=
  let r1 := (List.range 12).foldl (fun acc n =>
    let x := acc.1.canc n
    let keep := x.gq.filter (fun g => !fromVep e g.vep)
    (acc.1.setCan n { x with gq := keep }, acc.2 + (x.gq.length - keep.length))) (s, 0)
  let r2 := (List.range 64).foldl (fun acc c =>
    let x := acc.1.acf c
    let keep := x.msgs.filter (fun m => !fromVep e m.vep)
    (acc.1.setAcf c { x with msgs := keep }, acc.2 + (x.msgs.length - keep.length))) r1
  let items := r2.1.gwy.items
  let keep := items.filter (fun i => !(i.kind == 3 && i.idx == e))
  ({ r2.1 with gwy := { r2.1.gwy with items := keep } }, r2.2 + (items.length - keep.length))

/-- Frames of an endpoint in arbitration or transmission. -/
def State.vepSending (s : State) (e : Nat) : Nat :=
  ((List.range 12).filter (fun n => (s.canc n).sending.any (fun t => t.gw.any (fun g => fromVep e g.vep)))).length

/-! ### Rings of instances (10 R318) -/

/-- First address of a system SRAM page. -/
def pageAddr (p : Nat) : Nat := 0x20000000 + p * 0x1000

/-- Page of an instance's control block. -/
def Vi.ctlPage (v : Vi) (kind : Nat) : Nat := fld (par v.kindWords (if kind = 0 then 2 else 0)) 11 0

/-- Writes the control block's fields that the module writes. -/
def writeCtl (kind : Nat) (v : Vi) (s : State) : State :=
  let a := pageAddr (v.ctlPage kind)
  (s.writeMem (a + 2) (bytesOf 2 v.sqc ++ bytesOf 2 v.cqp)).writeMem (a + 8) (bytesOf 2 v.epoch)

/-- Completion ring consumer index as the owner has written it. -/
def State.cqcOf (s : State) (kind : Nat) (v : Vi) : Nat := le (s.readMem (pageAddr (v.ctlPage kind) + 6) 2) 0 2

/-- Room in the completion ring beyond the descriptors fetched and not completed. -/
def State.cqRoom (s : State) (kind : Nat) (v : Vi) : Nat :=
  2 ^ v.cqLog - ((v.cqp + 2 ^ 16 - s.cqcOf kind v) % 2 ^ 16 + v.fetched.length)

/-- Entries that the owner has submitted and no engine has fetched. -/
def Vi.waiting (v : Vi) : Nat := (v.sqp + 2 ^ 16 - v.sqc) % 2 ^ 16

/-- The next submission entry, as bytes. -/
def State.sqEntry (s : State) (v : Vi) : List Byte := s.readMem (pageAddr v.sqBase + v.sqc % 2 ^ v.sqLog * 32) 32

/-- Writes a completion entry and moves CQP, delivering the instance's interrupt identity (15 R455). -/
def complete (kind idx : Nat) (bs : List Byte) (s : State) : State :=
  match s.vi kind idx with
  | none => s
  | some v =>
    let s1 := s.writeMem (pageAddr v.cqBase + v.cqp % 2 ^ v.cqLog * 32) (fit 32 bs)
    let v1 := { v with cqp := (v.cqp + 1) % 2 ^ 16 }
    let s2 := writeCtl kind v1 (s1.setVi kind idx (some v1))
    if kind = 0 then deliver v.owner (64 + idx) s2 else if kind = 1 then deliver v.owner (128 + idx) s2 else s2

/-! ### Transfers (04 R115, R128) -/

/-- A descriptor that posts a receive buffer (10 R319, 13 R410). -/
def Fetched.posts (d : Fetched) (kind : Nat) : Bool :=
  if kind = 0 then fld (par d.entry 0) 7 0 == 1 else kind == 1 && fld (par d.entry 3) 1 0 == 1

/-- A posted buffer that no frame has been given yet. -/
def Fetched.idle (d : Fetched) (kind : Nat) : Bool := d.posts kind && d.work.isNone

/-- Transfers in flight of the instances that satisfy p. -/
def State.xfersIn (s : State) (p : Vi → Bool) : Nat :=
  (s.vis.map (fun k => match k.2 with
    | some v => if p v then (v.fetched.filter (·.live)).length else 0
    | none => 0)).sum

/-- A transfer-engine slot is left for a tenant: of its XFER share, and of the 96. -/
def State.xferFree (s : State) (t : Nat) : Bool :=
  decide (s.xfersIn (fun v => v.owner == t) < (s.tenant t).xfer) && decide (s.xfersIn (fun _ => true) < 96)

/-- The state with the submission ring's consumer index of an instance set. -/
def State.setSqc (s : State) (kind idx n : Nat) : State :=
  match s.vi kind idx with
  | some v => s.setVi kind idx (some { v with sqc := n })
  | none => s

/-- Gives a posted buffer a frame; its transfer begins when the share leaves a slot (DEDUCED, log 39). -/
def giveFrame (kind idx : Nat) (v : Vi) (d : Fetched) (w : Inbound) (s : State) : State :=
  s.setVi kind idx (some { v with fetched := v.fetched.map (fun x =>
    if x.index = d.index then { x with work := some w, live := s.xferFree v.owner } else x) })

/-! ### Resets of virtual instances (04 R129) -/

/-- A GWY_ROUTE entry names an endpoint, as its source or as a destination (13 R402, R403). -/
def routeNames (e : Nat) (ws : List Word) : Bool :=
  (fld (par ws 2) 9 8 == 3 && fld (par ws 2) 7 0 == e) || (bit (par ws 3) 15 && fld (par ws 3) 14 8 == e)

/-- A command names an instance, by the key of its kind and index: the TEN_VI commands, NET_FDB_ADD an owner of port 14
(10 R323), GWY_ROUTE an endpoint (13 R403). -/
def Cmd.names (c : Cmd) (key : Nat) : Bool :=
  let ps := c.params
  if 0x0110 ≤ c.opcode ∧ c.opcode ≤ 0x0113 then fld (par ps 0) 9 8 * 256 + fld (par ps 0) 22 16 == key
  else if c.opcode = 0x2810 then !bit (par ps 0) 12 && fld (par ps 0) 27 24 == 14 && fld (par ps 0) 21 16 == key
  else if c.opcode = 0x3101 then key / 256 == 1 &&
    (List.range (fld (par ps 0) 21 16)).any (fun i => routeNames (key % 256) (ps.drop (1 + 6 * i)))
  else false

/-- Commands in execution that name an instance and have not begun (R131). -/
def State.viNamers (s : State) (key : Nat) : List Nat :=
  (s.inflight.filter (fun c => c.names key && (c.phase == .waiting || c.phase == .crossing))).map (·.id)

/-- Steps 1, 2 and 4 of the reset of an instance, or joining the one in progress; its command, if any, ends with it.
Commands in execution that name the instance end with TENANT_RESET (04 R131). -/
def viResetBegin (key : Nat) (cmd : Option Nat) (s : State) : State :=
  match look none s.vis key with
  | none => s
  | some v =>
    if v.resetting then { s with vis := put s.vis key (some { v with resetCmds := v.resetCmds ++ cmd.toList }) }
    else
      let idx := key % 256
      let wire := if key / 256 = 0 then s.onWire idx else if key / 256 = 1 then s.vepSending idx else 0
      let r := if key / 256 = 0 then removeSent idx s else if key / 256 = 1 then removeVep idx s else (s, 0)
      let v1 := { v with resetting := true, epoch := (v.epoch + 1) % 2 ^ 16, dropped := 0, removed := r.2,
                         notRecalled := wire, since := s.clk, resetCmds := v.resetCmds ++ cmd.toList }
      finishAll (s.viNamers key) .tenantReset { r.1 with vis := put r.1.vis key (some v1) }

/-- Keys of a tenant's instances. -/
def State.visOf (s : State) (t : Nat) : List Nat :=
  (s.vis.filter (fun p => p.2.any (fun v => v.owner == t))).map (·.1)

/-! ### Access rules (15 R454, 16 R483) -/

/-- Watermark register i: 0 system SRAM, 1 MA, 2 MB, 3 to 6 tiles. -/
def State.wm (s : State) (i : Nat) : Wm := look {} s.vlt.wm i

/-- The address lies below a watermark. -/
def State.vaultAddr (s : State) (a : Nat) : Bool :=
  (decide (0x20000000 ≤ a) && decide (a < 0x20000000 + (s.wm 0).level * 0x10000)) ||
  (decide (0x10000000 ≤ a) && decide (a < 0x10000000 + (s.wm 1).level * 0x10000)) ||
  (decide (0x11000000 ≤ a) && decide (a < 0x11000000 + (s.wm 2).level * 0x10000)) ||
  (List.range 4).any (fun i => decide (0x30000000 + 0x40000 * i ≤ a) &&
    decide (a < 0x30000000 + 0x40000 * i + (s.wm (3 + i)).level * 0x10000))

/-- Partition p. -/
def State.part (s : State) (p : Nat) : Part := look {} s.cpu.part p

/-- The state with a partition set. -/
def State.setPart (s : State) (p : Nat) (x : Part) : State := { s with cpu := { s.cpu with part := put s.cpu.part p x } }

/-- Regions of a partition block: base, size in bytes, permission bits R, W, X. -/
def blockRegions (b : List Word) : List (Nat × Nat × Nat) :=
  (List.range (fld (par b 0) 28 24)).map (fun r =>
    (fld (par b (3 + 2 * r)) 27 0 * 0x1000, fld (par b (4 + 2 * r)) 23 0 * 0x1000, fld (par b (4 + 2 * r)) 26 24))

/-- A range lies wholly inside one region of a partition's block in force with a permission (bit 0 R, 1 W, 2 X). -/
def State.inRegion (s : State) (p a n perm : Nat) : Bool :=
  match (s.part p).force with
  | none => false
  | some b => (blockRegions b).any (fun r => r.2.2.testBit perm && decide (r.1 ≤ a) && decide (a + n ≤ r.1 + r.2.1))

/-- The partition bound to a tenant. -/
def State.boundPart (s : State) (t : Nat) : Option Nat :=
  let x := s.tenant t
  if x.st ≠ .free ∧ x.kind = 0 ∧ 0x100 ≤ x.reqid ∧ x.reqid < 0x108 then some (x.reqid - 0x100) else none

/-- The tenant bound to a partition. -/
def State.boundTen (s : State) (p : Nat) : Option Nat :=
  (List.range 32).find? (fun t => s.boundPart t == some p)

/-- A range touches no Vault address: watermarks only cut the low ends of memories, so its first byte in each memory
decides. -/
def State.clearOfVault (s : State) (a n : Nat) : Bool := n == 0 || !s.vaultAddr a

/-- An engine's refused access below a watermark is recorded, the first of each second (16 R483). -/
def vaultLog (owner addr len : Nat) (s : State) : State :=
  if s.clearOfVault addr len then s else logFirst 3 0x40 owner addr s

/-- The tenant in whose queue's spill region an address lies (03 R76). -/
def State.spillAt (s : State) (a : Nat) : Option Nat :=
  s.que.findSome? (fun p =>
    let base := 0x20000000 + p.2.spill * 0x1000
    if p.2.depth ≠ 0 ∧ base ≤ a ∧ a < base + 64 * 2 ^ p.2.depth then some (p.1 / 6) else none)

/-- An engine may read (perm 0) or write (perm 1) a range for a tenant (R454, R483). -/
def State.mayAccess (s : State) (t a n perm : Nat) : Bool :=
  match s.boundPart t with
  | none => false
  | some p => s.inRegion p a n perm && s.clearOfVault a n

end Sys2Proof.Machine
end

