-- ==== Sys2Proof/Machine/Fabric.lean ====
section
/-!
DEFINITION. The switch's two-stage fabric, slot by slot (10 R307, R308): ingress ports write cells into the banks of the
middle lanes, egress ports request them and receive them.
-/

namespace Sys2Proof.Machine

/-- Cells in use in the bank of a middle lane. -/
def State.laneUsed (s : State) (l : Nat) : Nat := (s.net.frames.map (fun f => f.lanes.count l)).sum

/-- Every cell of a frame has been written. -/
def Stored.written (f : Stored) : Bool := decide (f.cells ≤ f.lanes.length)

/-- The frame that an ingress port writes: its oldest with cells to write. -/
def State.writing (s : State) (i : Nat) : Option Stored := s.net.frames.find? (fun f => f.iport == i && !f.written)

/-- Ingress port i in slot t: its next cell goes to lane (i + t) mod 16, or the slot is skipped (R307). -/
def writeSlot (t : Nat) (s : State) (i : Nat) : State :=
  match s.writing i with
  | none => s
  | some f =>
    let l := (i + t + Config.slotPhase) % 16
    if t < f.first then s
    else if s.laneUsed l < 2048 then setStored { f with lanes := f.lanes ++ [l], lastSlot := t } s
    else countPort i cLANESKIP 1 s

/-- Frames whose cells an egress port requests, in the order of transmission selection: the one in transmission, then
its queues from class 7 down. -/
def SwPort.heads (x : SwPort) : List Nat :=
  (x.sending.map (·.id)).toList ++ [7, 6, 5, 4, 3, 2, 1, 0].flatMap x.q

/-- The cells of a frame. -/
def State.cellsOf (s : State) (id : Nat) : List (Nat × Nat) :=
  match s.stored? id with
  | some f => (List.range f.cells).map (fun k => (id, k))
  | none => []

/-- The lane that holds a cell. -/
def State.laneOf (s : State) (c : Nat × Nat) : Option Nat := (s.stored? c.1).bind (fun f => f.lanes[c.2]?)

/-- The port with what it holds and requests brought to its queues: at most 32 cells are requested (R308). -/
def State.request (s : State) (x : SwPort) : SwPort :=
  let ids := x.heads
  let held := x.held.filter (fun c => ids.contains c.1)
  let want := x.want.filter (fun c => ids.contains c.1)
  let more := (ids.flatMap s.cellsOf).filter (fun c => !held.contains c && !want.contains c)
  { x with held := held, want := want ++ more.take (32 - want.length) }

/-- The requested cell with the lowest sequence number, the first requested among equals. -/
def lowest : List (Nat × Nat) → Option (Nat × Nat)
  | [] => none
  | c :: cs => match lowest cs with
    | none => some c
    | some d => if d.2 < c.2 then some d else some c

/-- Egress port e in slot t: lane m with (m + t) mod 16 = e sends it one requested cell (R308). -/
def readSlot (t : Nat) (s : State) (e : Nat) : State :=
  let x := s.request (s.sp e)
  let m := (e + 15 * (t + Config.slotPhase)) % 16
  match lowest (x.want.filter (fun c => s.laneOf c == some m)) with
  | none => if s.sp e = x then s else s.setSp e x
  | some c => s.setSp e { x with want := x.want.erase c, held := x.held ++ [c] }

/-- Cells that the fabric has still to write or to deliver. -/
def State.cellsDue (s : State) : Nat :=
  (s.net.frames.map (fun f => f.cells - f.lanes.length)).sum +
    (s.net.port.map (fun p => ((p.2.heads.flatMap s.cellsOf).filter (fun c => !p.2.held.contains c)).length)).sum

/-- n slots from slot t on. -/
def fabricSlots : Nat → Nat → State → State
  | 0, _, s => s
  | n + 1, t, s => fabricSlots n (t + 1) ((List.range 16).foldl (readSlot t) ((List.range 16).foldl (writeSlot t) s))

/-- The fabric runs up to a clk: through every slot of 19.2 ns that has ended by then, as long as cells move, while SWX has
its clock. A cell waits for its lane 16 slots at most. -/
def fabricRun (clk : Nat) (s : State) : State :=
  let till := clk * 10 / 192
  let on := (s.island 2).gate.st == .run || (s.island 2).gate.st == .quiescing
  let s1 := if on then fabricSlots (min (till - s.net.slot) (18 * s.cellsDue)) s.net.slot s else s
  { s1 with net := { s1.net with slot := till } }

/-- An egress port may begin a frame: it holds its first 16 cells, or all of them (R308). -/
def State.begun (s : State) (p : Nat) (f : Stored) : Bool :=
  (List.range (min 16 f.cells)).all (fun k => (s.sp p).held.contains (f.id, k))

end Sys2Proof.Machine
end

