-- ==== Sys2Proof/Machine/Chan.lean ====
section
/-!
DEFINITION. Load channels: identifiers (05 R138), parameter and wire block fields (05 R143, 06 R194), the checks of a
block (05 R145, 06 R197), status words (05 R175), bookings (06 R178, R179), the wire model (06 R191) and the notices of
05 R176.
-/

namespace Sys2Proof.Machine

/-! ### Identifiers (05 R137, R138) -/

/-- Class of CHAN: 0 A, 1 B, 2 C, 3 H. -/
def chClass (ch : Nat) : Nat := ch / 64

/-- Index within the class. -/
def chIdx (ch : Nat) : Nat := ch % 64

/-- Channels per class. -/
def classSize : Nat → Nat
  | 0 => 8 | 1 => 24 | 2 => 32 | _ => 8

/-- CHAN names a channel. -/
def chValid (ch : Nat) : Bool := decide (ch < 256) && decide (chIdx ch < classSize (chClass ch))

/-- The die that carries a channel: 0 PDA, 1 PDB. -/
def chDie (ch : Nat) : Nat := if chIdx ch < classSize (chClass ch) / 2 then 0 else 1

/-- Every channel in ascending CHAN order. -/
def allChans : List Nat :=
  List.range 8 ++ (List.range 24).map (· + 0x40) ++ (List.range 32).map (· + 0x80) ++ (List.range 8).map (· + 0xC0)

/-- The channels of a die in ascending CHAN order. -/
def dieChans (die : Nat) : List Nat := allChans.filter (fun c => chDie c == die)

/-- A channel. -/
def State.chn (s : State) (ch : Nat) : Chan := look {} s.chan ch

/-- The state with a channel set. -/
def State.setChn (s : State) (ch : Nat) (c : Chan) : State := { s with chan := put s.chan ch c }

/-- A power die. -/
def State.pdie (s : State) (d : Nat) : Die := look {} s.yar.die d

/-- The state with a power die set. -/
def State.setPdie (s : State) (d : Nat) (x : Die) : State :=
  { s with yar := { s.yar with die := put s.yar.die d x } }

/-! ### Parameter block fields (05 R143, R144) -/

/-- Word i of the stored parameter block, 0 without one. -/
def Chan.bw (c : Chan) (i : Nat) : Word := par (c.block.getD []) i

def Chan.pairFlag (c : Chan) : Bool := bit (c.bw 0) 11
def Chan.revAct (c : Chan) : Bool := bit (c.bw 0) 10
def Chan.oloffEn (c : Chan) : Bool := bit (c.bw 0) 9
def Chan.pwmEn (c : Chan) : Bool := bit (c.bw 0) 8
def Chan.slewOn (c : Chan) : Nat := fld (c.bw 0) 18 16
def Chan.slewOff (c : Chan) : Nat := fld (c.bw 0) 22 20
def Chan.inrMult (c : Chan) : Nat := fld (c.bw 0) 27 24
def Chan.retries (c : Chan) : Nat := fld (c.bw 0) 31 28
def Chan.tripTh (c : Chan) : Nat := fld (c.bw 1) 15 0
def Chan.blank (c : Chan) : Nat := fld (c.bw 1) 31 16
def Chan.inrWin (c : Chan) : Nat := fld (c.bw 2) 15 0
def Chan.retryInt (c : Chan) : Nat := fld (c.bw 2) 31 16
def Chan.pwmFreq (c : Chan) : Nat := fld (c.bw 3) 15 0
def Chan.idecl (c : Chan) : Nat := fld (c.bw 3) 31 16
def Chan.ipeak (c : Chan) : Nat := fld (c.bw 4) 15 0
def Chan.olth (c : Chan) : Nat := fld (c.bw 4) 31 16
def Chan.dead (c : Chan) : Nat := fld (c.bw 5) 7 0

/-- A paired bridge is named by its even half-bridge (05 R144). -/
def State.paired (s : State) (ch : Nat) : Bool :=
  chClass ch == 3 && (s.chn (ch - ch % 2)).pairFlag

/-- The odd half of an existing pair. -/
def State.pairOdd (s : State) (ch : Nat) : Bool := s.paired ch && ch % 2 == 1

/-- Class limits (05 R142): TRIP low and high in 10 mA, inrush ceiling in 10 mA, PWMFREQ low and high, highest slew
code, highest IDECL in 10 mA. -/
def classLim : Nat → Nat × Nat × Nat × Nat × Nat × Nat × Nat
  | 0 => (1000, 12000, 30000, 10, 400, 4, 3000)
  | 1 => (200, 4000, 10000, 10, 2000, 5, 1000)
  | 2 => (20, 800, 2000, 10, 25000, 7, 200)
  | _ => (200, 3000, 4500, 100, 20000, 7, 1200)

/-- The stored CHECK of a parameter block matches (05 R143). -/
def blockCheckOk (ps : List Word) : Bool :=
  crc16 ((wordBytes ps).take 28) == fld (par ps 7) 15 0

/-- Every field of a parameter block lies in its range and its class's limits (05 R142 to R145). -/
def blockRangeOk (ps : List Word) : Bool :=
  let c : Chan := { block := some ps }
  let ch := fld (par ps 0) 7 0
  let (tmin, tmax, ceil, fmin, fmax, code, imax) := classLim (chClass ch)
  chValid ch && within (par ps 0) 0xFF770FFF && decide (fld (par ps 0) 15 12 = 0) &&
  decide (c.slewOn ≤ code) && decide (c.slewOff ≤ code) && decide (c.inrMult ≤ 8) &&
  decide (tmin ≤ c.tripTh) && decide (c.tripTh ≤ tmax) && decide (c.tripTh * (4 + c.inrMult) ≤ 4 * ceil) &&
  decide (1 ≤ c.blank) && decide (c.blank ≤ 10000) && decide (1 ≤ c.inrWin) && decide (c.inrWin ≤ 5000) &&
  decide (1 ≤ c.retryInt) && decide (c.retryInt ≤ 1000) &&
  (if c.pwmEn then decide (fmin ≤ c.pwmFreq) && decide (c.pwmFreq ≤ fmax) else c.pwmFreq == 0) &&
  decide (c.idecl ≤ imax) && decide (4 * c.ipeak ≤ c.tripTh * (4 + c.inrMult)) && decide (c.olth ≤ 10 * c.tripTh) &&
  (if chClass ch = 3 then decide (5 ≤ c.dead) && decide (c.dead ≤ 80) else c.dead == 0) &&
  (!c.pairFlag || (chClass ch == 3 && ch % 2 == 0)) &&
  within (par ps 5) 0xFF && par ps 6 == 0 && within (par ps 7) 0xFFFF

/-! ### Wire block fields (06 R194 to R196) -/

/-- kcoef of a conductor code in units of 0.0001 K/A² (06 R195). -/
def csaCoef : Nat → Nat
  | 1 => 16000 | 2 => 9500 | 3 => 5500 | 4 => 3800 | 5 => 2200 | 6 => 1100
  | 7 => 550 | 8 => 300 | 9 => 140 | 10 => 70 | 11 => 36 | _ => 0

/-- CSA and TAU of a class's default wire block (06 R196). -/
def wireDefault : Nat → Nat × Nat
  | 0 => (8, 120) | 1 => (4, 40) | 2 => (1, 20) | _ => (5, 60)

/-- The default wire block of a channel's class, CHECK included (06 R196). -/
def wireDefaultBlock (ch : Nat) : List Word :=
  let (csa, tau) := wireDefault (chClass ch)
  let w0 := wd (ch + csa * 2 ^ 8 + 2 * 2 ^ 16 + 50 * 2 ^ 24)
  let w1 := wd (tau * 2 ^ 16)
  let w2 := wd 500
  [w0, w1, w2, wd (crc16 (wordBytes [w0, w1, w2]))]

/-- The wire block in force. -/
def State.wireBlk (s : State) (ch : Nat) : List Word := ((s.chn ch).wire).getD (wireDefaultBlock ch)

/-- kcoef in units of 0.0001 K/A². -/
def wireCoef (b : List Word) : Nat :=
  if fld (par b 0) 15 8 = 0 then fld (par b 1) 15 0 else csaCoef (fld (par b 0) 15 8)

/-- Admission priority PRIO. -/
def State.prio (s : State) (ch : Nat) : Nat := fld (par (s.wireBlk ch) 0) 17 16

/-- TAU in s. -/
def wireTau (b : List Word) : Nat := fld (par b 1) 31 16

/-- DTMAX in units of 0.1 K. -/
def wireMax (b : List Word) : Nat := fld (par b 2) 15 0

/-- The stored CHECK of a wire block matches (06 R194). -/
def wireCheckOk (b : List Word) : Bool := crc16 ((wordBytes b).take 12) == fld (par b 3) 15 0

/-- Every field of a wire block lies in its range (06 R194, R195). -/
def wireRangeOk (b : List Word) : Bool :=
  let csa := fld (par b 0) 15 8
  let k := fld (par b 1) 15 0
  chValid (fld (par b 0) 7 0) && decide (csa ≤ 11) && decide (fld (par b 0) 23 18 = 0) &&
  decide (fld (par b 0) 31 24 ≤ 100) && (if csa = 0 then decide (1 ≤ k) else k == 0) &&
  decide (1 ≤ wireTau b) && decide (wireTau b ≤ 600) && decide (50 ≤ wireMax b) && decide (wireMax b ≤ 1500) &&
  within (par b 2) 0xFFFF && within (par b 3) 0xFFFF

/-- A stored block of the channel fails its CHECK (05 R146, 06 R197). -/
def Chan.storedBad (c : Chan) : Bool :=
  c.block.any (fun b => !blockCheckOk b) || c.wire.any (fun b => !wireCheckOk b)

/-! ### The wire model (06 R191) -/

/-- n samples of the wire model at one current: theta + (kcoef i² − theta) dt / tau, each with dt 50 µs. -/
def wireSteps (coef tau n : Nat) (ma : Int) (theta : Rat) : Rat :=
  let steady : Rat := mkRat ((coef : Int) * ma * ma) (10 ^ 10)
  let den := 20000 * tau
  steady + (theta - steady) * mkRat ((den - 1 : Nat) ^ n : Nat) (den ^ n)

/-- The channel's wire model run up to sample number n with the current shown; the odd half of a pair runs none. -/
def State.foldTheta (s : State) (ch n : Nat) : State :=
  let c := s.chn ch
  if n ≤ c.thetaAt then s
  else
    let b := s.wireBlk ch
    let th := if s.pairOdd ch || wireTau b = 0 then c.theta
      else wireSteps (wireCoef b) (wireTau b) (n - c.thetaAt) (s.probe (.chanMa ch)) c.theta
    s.setChn ch { c with theta := th, thetaAt := n }

/-- The wire model up to and with the sample at the present instant. -/
def State.thetaNow (s : State) (ch : Nat) : State := s.foldTheta ch (s.clk / 50000)

/-- The wire model up to the last sample before the present instant: a change at a sample's instant is taken by that
sample. -/
def State.thetaBefore (s : State) (ch : Nat) : State := s.foldTheta ch ((s.clk + 49999) / 50000 - 1)

/-- theta has reached DTMAX. -/
def State.thetaMax (s : State) (ch : Nat) : Bool :=
  decide (mkRat (wireMax (s.wireBlk ch)) 10 ≤ (s.chn ch).theta)

/-- theta is at most half of DTMAX. -/
def State.thetaHalf (s : State) (ch : Nat) : Bool :=
  decide ((s.chn ch).theta ≤ mkRat (wireMax (s.wireBlk ch)) 20)

/-! ### Bookings (06 R178, R179) -/

/-- a / b rounded up. -/
def ceilDiv (a b : Nat) : Nat := (a + b - 1) / b

/-- ICONT at a duty, in 10 mA, rounded up. -/
def Chan.icontAt (c : Chan) (duty : Nat) : Nat := ceilDiv (c.idecl * duty) 1000

/-- RHOT of a class in units of 0.01 mΩ (06 R179). -/
def rhot : Nat → Nat
  | 0 => 221 | 1 => 884 | 2 => 4420 | _ => 1326

/-- Rate of a slew code in units of 0.1 V/µs (05 R147). -/
def slewRate : Nat → Nat
  | 0 => 1 | 1 => 2 | 2 => 5 | 3 => 10 | 4 => 20 | 5 => 50 | 6 => 100 | _ => 200

/-- Feed voltage of a die as measured, in mV; 0 before the first sample (R204). -/
def State.vfeed (s : State) (die : Nat) : Nat := (s.probe (.feedMv die)).toNat

/-- PDIS at a duty, in mW, rounded up (06 R179). -/
def State.pdisAt (s : State) (ch duty : Nat) : Nat :=
  let c := s.chn ch
  let v := s.vfeed (chDie ch)
  let r1 := slewRate c.slewOn
  let r2 := slewRate c.slewOff
  let load := if chClass ch = 3 then (if s.paired ch then 2000 else 1000) else duty
  let cond := c.idecl * c.idecl * rhot (chClass ch) * load * 14 * r1 * r2
  let sw := if duty = 0 ∨ duty = 1000 then 0 else v * v * c.idecl * c.pwmFreq * (r1 + r2)
  ceilDiv (cond + sw) (14000000000 * r1 * r2)

/-- A duty that is too short for the slews, or other than 1000 without PWM (05 R149), at the feed voltage measured. -/
def State.dutyBad (s : State) (ch duty : Nat) : Bool :=
  let c := s.chn ch
  if !c.pwmEn then duty != 1000
  else if duty = 0 ∨ duty = 1000 then false
  else
    let r1 := slewRate c.slewOn
    let r2 := slewRate c.slewOff
    decide (100000 * min duty (1000 - duty) * r1 * r2 < c.pwmFreq * s.vfeed (chDie ch) * (r1 + r2))

/-! ### PWM phases, thresholds and the two switches of a half-bridge (05 R149 to R152, R170 to R173) -/

/-- The code of a state. -/
def ChState.code : ChState → Nat
  | .unconf => 0 | .off => 1 | .slewOn => 2 | .inrush => 3 | .on => 4 | .slewOff => 5 | .latched => 6
  | .retryWait => 7 | .feedLost => 8

/-- The switch is on or turning on (05 R157). -/
def ChState.isOn : ChState → Bool
  | .slewOn => true | .inrush => true | .on => true | _ => false

/-- Time since the PWM period's start in units of 1/PWMFREQ ns, in which a period is 10^9. -/
def Chan.pwmAge (c : Chan) (t : Nat) : Nat := (t - c.pwmFrom) * c.pwmFreq

/-- On-phase time in ns of a PWM at frequency f and duty d, its age u in units of 1/f ns. -/
def pwmOn (f d u : Nat) : Nat := (u / 10 ^ 9 * (d * 10 ^ 6) + min (u % 10 ^ 9) (d * 10 ^ 6)) / f

/-- On-phase time in ns from the PWM period's start to t. -/
def Chan.onUntil (c : Chan) (t : Nat) : Nat := pwmOn c.pwmFreq c.duty (c.pwmAge t)

/-- On-phase time in ns from a to b: all of it without PWM and while the switch turns off. -/
def Chan.onTime (c : Chan) (a b : Nat) : Nat :=
  if c.pwmEn && c.st.isOn then c.onUntil b - c.onUntil a else b - a

/-- The inrush window is open at t: it is half-open (R151). -/
def Chan.winAt (c : Chan) (t : Nat) : Bool := c.winOpen && decide (t < c.winEnd)

/-- The overcurrent threshold in force at t in units of 2.5 mA (R151). -/
def Chan.threshold (c : Chan) (t : Nat) : Nat := c.tripTh * (if c.winAt t then 4 + c.inrMult else 4)

/-- Offset error of a trip threshold in mA (R141). -/
def tripOffset : Nat → Nat
  | 0 => 500 | 2 => 20 | _ => 100

/-- The current in mA lies above the lower end of the tolerance of the threshold in force at t, 5 % and the class's
offset below it (R141): the unit may count it as above (00 R11). -/
def Chan.overTrip (ch : Nat) (c : Chan) (t : Nat) (ma : Int) : Bool :=
  decide ((c.threshold t * 19 : Int) < 8 * (ma + tripOffset (chClass ch)))

/-- The load current in mA that thresholds compare: its amount in a half-bridge (DEDUCED, log 17). -/
def State.loadMa (s : State) (ch : Nat) : Int :=
  let i := s.probe (.chanMa ch)
  if chClass ch = 3 then (i.natAbs : Int) else i

/-- The current in mA that the switch to the feed carries towards the load: none under LOW and BRAKE (R167, R171). -/
def State.feedMa (s : State) (ch : Nat) : Int :=
  let i := s.probe (.chanMa ch)
  let a := (s.chn ch).action
  if chClass ch ≠ 3 then i
  else if a = 4 then -i
  else if a = 2 ∨ a = 5 then 0
  else i

/-- The half-bridge whose channel governs a switch: the even one of a pair (R144). -/
def State.bridgeOf (s : State) (ch : Nat) : Nat := if s.pairOdd ch then ch - 1 else ch

/-- TLATCH of a channel: the latch of any of its switches, a pair's odd half included (R154). -/
def State.hot (s : State) (ch : Nat) : Bool :=
  let x := fun (c : Chan) => c.tlatch || c.tlatchLow
  x (s.chn ch) || (s.paired ch && ch % 2 == 0 && x (s.chn (ch + 1)))

/-- Which switch of a half-bridge is on. -/
inductive Leg where
  | off | high | low
  deriving DecidableEq, Repr

/-- The sourcing half-bridge in PWM: HIGH in the on-phase, LOW in the off-phase but for DEADTIME at both of its ends, at
the end of a shift of the on-phase and after a boundary that changes a held switch (R173; where DEADTIME lies is a DESIGN
CHOICE, log 17). -/
def Chan.pwmLeg (c : Chan) (t : Nat) : Leg :=
  let r := c.pwmAge t % 10 ^ 9
  let on := c.duty * 10 ^ 6
  let gap := c.dead * 100 * c.pwmFreq
  if t < c.legTill then .off
  else if c.duty = 0 then .low
  else if c.duty = 1000 then .high
  else if t < c.pwmFrom then (if c.pwmFrom ≤ t + c.dead * 100 then .off else .low)
  else if r < on then .high
  else if r < on + gap ∨ 10 ^ 9 ≤ r + gap then .off
  else .low

/-- What an action asks of a half: even or only (false), odd of a pair (true) (R170, R171). -/
def actionLeg (paired odd : Bool) (a : Nat) : Leg :=
  if paired then
    if a = 3 then (if odd then .low else .high)
    else if a = 4 then (if odd then .high else .low)
    else if a = 5 then .low
    else .off
  else if a = 1 then .high
  else if a = 2 then .low
  else .off

/-- The sourcing half stood at LOW, in a PWM off-phase, when its turn-off was executed: that switch goes off then. -/
def Chan.offLow (c : Chan) : Bool := c.pwmEn && c.offAt.any (fun t => c.pwmLeg t != .high)

/-- The switch of half-bridge ch that is on now (R170 to R173). The sinking lower switch turns on before the sourcing
one slews, from whatever state, and turns off after it. Without a sourcing switch, duty switches the lower ones (DESIGN
CHOICE, log 17). -/
def State.leg (s : State) (ch : Nat) : Leg :=
  let c := s.chn (s.bridgeOf ch)
  let role := actionLeg (s.paired ch) (ch % 2 == 1)
  if c.st.isOn then
    match role c.action with
    | .high => if c.pwmEn then c.pwmLeg s.clk else .high
    | .low => if c.pwmEn && (c.action == 2 || c.action == 5) && c.pwmLeg s.clk != .high then .off else .low
    | .off => .off
  else if c.st = .slewOff then (if role c.action = .high ∧ c.offLow then .off else role c.action)
  else
    match c.pend with
    | some p => if role p.action = .low ∧ (p.action = c.action ∨ c.deadUntil ≤ s.clk) then .low else .off
    | none => .off

/-! ### Status words (05 R175) -/

/-- STATE as PWR_STATUS reports it. -/
def Chan.code (c : Chan) : Nat := if c.limp then 9 else c.st.code

/-- A request of the channel waits in the Purse. -/
def State.pursePend (s : State) (ch : Nat) : Bool := s.pur.queue.any (fun r => r.ch == ch)

/-- Status word 0. -/
def State.chWord0 (s : State) (ch : Nat) : Word :=
  let c := s.chn ch
  wd (ch * 2 ^ 24 + c.retryLeft * 2 ^ 20 + b2n (s.pursePend ch) * 2 ^ 16 + b2n (c.winAt s.clk) * 2 ^ 15 + c.cause * 2 ^ 8 +
    c.first * 2 ^ 4 + c.code)

/-- The diagnostic bits 5:0 of status word 1. -/
def State.chDiag (s : State) (ch : Nat) : Nat :=
  let c := s.chn ch
  b2n (s.hot ch) * 32 + b2n (s.pdie (chDie ch)).feedLoss * 16 + b2n c.revcur * 8 + b2n c.stb * 4 + b2n c.oloff * 2 +
    b2n c.olon

/-- Status word 1. -/
def State.chWord1 (s : State) (ch : Nat) : Word :=
  let c := s.chn ch
  let act := if chClass ch = 3 ∧ (c.st.isOn ∨ c.st = .slewOff) then c.action else 0
  wd (c.duty * 2 ^ 12 + act * 2 ^ 8 + s.chDiag ch)

/-- A signed value rounded to a coarser unit, halves away from zero (06 R204). -/
def roundDiv (v : Int) (k : Nat) : Int :=
  if 0 ≤ v then ((v.toNat * 2 + k) / (2 * k) : Nat) else -(((-v).toNat * 2 + k) / (2 * k) : Nat)

/-- A signed value in a 16-bit field; one beyond the field reads as its end (DEDUCED, log 19). -/
def lo16 (v : Int) : Nat := (BitVec.ofInt 16 (max (-32768) (min 32767 v))).toNat

/-- Status word 2: of either half of a pair, the bridge's output and current. -/
def State.chWord2 (s : State) (ch : Nat) : Word :=
  let m := s.bridgeOf ch
  let v := if s.paired ch then s.probe (.chanVout m) - s.probe (.chanVout (m + 1)) else s.probe (.chanVout m)
  wd (lo16 v * 2 ^ 16 + lo16 (roundDiv (s.probe (.chanMa m)) 10))

/-- Status word 3: a pair's junction is the hotter half's. -/
def State.chWord3 (s : State) (ch : Nat) : Word :=
  let m := s.bridgeOf ch
  let tj := s.probe (.chanTj m)
  wd ((s.chn ch).trips * 2 ^ 16 + lo16 (if s.paired ch then max tj (s.probe (.chanTj (m + 1))) else tj))

/-! ### Notices (05 R176) -/

/-- The channel's owner and readers. -/
def State.chAudience (s : State) (ch : Nat) : List Nat :=
  (s.chn ch).owner :: setBits 32 (s.chn ch).readers.toNat

/-- Applies a change and posts PWR_DIAG when it changes the channel's diagnostic bits. -/
def withDiag (ch : Nat) (f : State → State) (s : State) : State :=
  let s1 := f s
  if s1.chDiag ch = s.chDiag ch then s1
  else noticeAll (s1.chAudience ch) 0x1003 [wd ch, s1.chWord1 ch] s1

/-! ### Field outputs' status word (08 R259) -/

/-- Field output i. -/
def State.fout (s : State) (i : Nat) : FieldOut := look {} s.fio.fo i

/-- The state with a field output set. -/
def State.setFout (s : State) (i : Nat) (x : FieldOut) : State := { s with fio := { s.fio with fo := put s.fio.fo i x } }

def foPwm (x : FieldOut) : Bool := bit (par (x.block.getD []) 0) 8
def foOlEn (x : FieldOut) : Bool := bit (par (x.block.getD []) 0) 9
def foFreq (x : FieldOut) : Nat := fld (par (x.block.getD []) 0) 31 16
def foLimBlank (x : FieldOut) : Nat := fld (par (x.block.getD []) 1) 15 0

/-- Time of BSX's clock, which stands while it is gated: outputs then hold their state (08 R225). -/
def State.bsxClk (s : State) : Nat := s.fio.stopAt.getD s.clk - s.fio.lost

/-- DUTY in force: a new duty is in force from its period boundary on (08 R243). -/
def FieldOut.dutyAt (x : FieldOut) (clk : Nat) : Nat :=
  match x.next with
  | some (d, at_) => if at_ ≤ clk then d else x.duty
  | none => x.duty

/-- The code of a field output's state. -/
def FoState.code : FoState → Nat
  | .unconf => 0 | .off => 1 | .on => 2 | .latched => 3 | .forced => 4

/-- The output status word. -/
def State.foWord (s : State) (i : Nat) : Word :=
  let x := s.fout i
  wd ((0x40 + i) * 2 ^ 24 + x.dutyAt s.bsxClk * 2 ^ 14 + b2n x.olon * 2 ^ 7 + b2n x.tlatch * 2 ^ 6 + x.cause * 2 ^ 4 + x.st.code)

/-! ### Blocks that the last audit or opening check failed (19 R584) -/

/-- A block is FAIL in the summary in force. -/
def State.blkFail (s : State) (b : Nat) : Bool := look 3 s.aud.inForce.res b == 2

/-- A block is isolated for its test by a commanded audit (19 R576). -/
def State.testing (s : State) (b : Nat) : Bool := s.aud.run.any (fun r => r.kind == 3 && r.left.head? == some b)

/-- PWR_SWITCH on of a channel completes with BUSY: its die's ADC block failed, or a failing detail record of the
die's current-sense block names it (19 R584). -/
def State.chOut (s : State) (ch : Nat) : Bool :=
  s.blkFail (38 + chDie ch) ||
    (s.blkFail (70 + chDie ch) && s.aud.inForce.details.any (fun d =>
      fld (par d 0) 7 0 == 70 + chDie ch && fld (par d 1) 7 0 == ch))

/-- The result that a command's final reply carries by its chapter whatever its status, once it has reached execution:
status word 0 of the PWR commands (05 R174), the output status word of FIO_OUT and FIO_OUT_CLEAR (08 R254). -/
def resultFor (c : Cmd) (s : State) : List Word :=
  if c.phase = .waiting ∨ c.phase = .crossing then []
  else if c.opcode = 0x1010 ∨ c.opcode = 0x1011 ∨ c.opcode = 0x1012 then [s.chWord0 (fld (par c.params 0) 7 0)]
  else if c.opcode = 0x1820 ∨ c.opcode = 0x1821 then [s.foWord (fld (par c.params 0) 5 0)]
  else []

/-- Ends a command in execution with a status and the result its chapter gives every final reply. -/
def endCmd (id : Nat) (st : Status) (s : State) : State :=
  match s.cmd? id with
  | none => s
  | some c => finishCmd id st (resultFor c s) s

/-- Ends the command of an optional id. -/
def endOpt (id : Option Nat) (st : Status) (s : State) : State :=
  match id with
  | none => s
  | some i => endCmd i st s

/-- A command that an admission queue has let go is DEFERRED no longer (02 R67, 06 R186). -/
def resumeCmd (id : Option Nat) (s : State) : State :=
  match id.bind s.cmd? with
  | none => s
  | some c => setCmd { c with phase := .running } s

/-- Answers a command that an admission queue has taken: DEFERRED, or under PROFILE 1 it leaves the queue and ends with
BUSY (02 R69). -/
def deferCmd (id : Nat) (s : State) : State :=
  match s.cmd? id with
  | none => s
  | some c =>
    if (s.tenant c.tenant).profile = 1 then
      let s1 := forget id s
      finishCmd id .busy (resultFor c s1) s1
    else interim id .deferred s

end Sys2Proof.Machine
end

