-- ==== Sys2Proof/Machine/Hiast.lean ====
section
/-!
DEFINITION. Dispatch of a Hiast packet (02): the ordered checks of R54, not-before times (R61), the start of execution
and the answers a command's execution gives.
-/

namespace Sys2Proof.Machine

/-- How the execution of a command goes on from its beginning. -/
inductive Ans where
  /-- Final status and result. -/
  | done (st : Status) (res : List Word) (s : State)
  /-- Taken for execution that ends later; the interim reply ACCEPTED is posted. -/
  | accept (s : State)
  /-- Admissible later, held in an admission queue; the interim reply DEFERRED is posted. -/
  | defer (s : State)
  /-- Ends later without an interim reply, or has posted its own. -/
  | ongoing (s : State)

/-- A final OK without a result. -/
def Ans.okay (s : State) : Ans := .done .ok [] s

/-- A final status that changes nothing. -/
def Ans.fail (st : Status) (s : State) : Ans := .done st [] s

/-- What an opcode's chapter states of it: its checks of R54 and its execution. -/
structure OpSpec where
  opcode : Nat
  /-- PLEN accepted by the opcode (check 6). -/
  plen : Nat → Bool
  /-- The length that the parameters themselves state, where they do (check 6). -/
  plenP : List Word → Bool := fun _ => true
  /-- Available under PROFILE 1 (check 5). -/
  p1 : Bool := true
  /-- Uses that any tenant may make without the group right (04 R118), by its parameters. -/
  free : List Word → Bool := fun _ => false
  /-- The issuer's right to the opcode and its target beyond the group right (check 7). -/
  right : Nat → List Word → State → Bool := fun _ _ _ => true
  /-- Life-cycle states that permit the opcode (check 8). -/
  life : LifeCycle → Bool := fun _ => true
  /-- The share of the pool the command needs (check 10). -/
  share : Nat → List Word → State → Bool := fun _ _ _ => true
  /-- Check words, values and reserved fields of the parameters (check 11): the failing status. -/
  parm : Nat → List Word → State → Option Status := fun _ _ _ => none
  /-- The island that carries the service; while it is not in RUN the command waits at the crossing (01 R22). -/
  isl : Option Nat := none
  exec : Cmd → State → Ans

/-- A packet as the module reads it. -/
structure Pkt where
  /-- TENANT of the header. -/
  field : Nat
  opcode : Nat
  seq : Nat
  version : Nat
  rsv : Bool := false
  chained : Bool := false
  notify : Bool := true
  lateOk : Bool := false
  plen : Nat
  notBefore : Nat := 0
  params : List Word := []
  /-- An uncorrectable error in a slot after the first (03 R77). -/
  bad : Bool := false
  deriving DecidableEq, Repr

/-- Group values in the row order of 02 R49. -/
def groupList : List Nat :=
  [0x00, 0x01, 0x02, 0x10, 0x11, 0x12, 0x18, 0x19, 0x20, 0x28, 0x29, 0x30, 0x31, 0x38, 0x40, 0x48, 0x50, 0x51, 0x58, 0x60]

/-- The row of an opcode's group in the table of 02 R49. -/
def groupRow (opcode : Nat) : Nat := groupList.idxOf (opcode / 256)

/-- The group right (04 R118): T0 holds every one, SYS, TEN and QUE need none. -/
def groupRight (o : OpSpec) (t : Nat) (ps : List Word) (s : State) : Bool :=
  t == 0 || decide (groupRow o.opcode < 3) || o.free ps || (s.tenant t).groups.testBit (groupRow o.opcode)

/-- VERSION accepted under the tenant's PROFILE (R37, R69). -/
def versionOk (profile v : Nat) : Bool := v == 2 || (profile == 1 && v == 1)

/-- Checks 2 to 11 of R54, in their order; the status of the first that fails. -/
def checks (o : Option OpSpec) (t : Nat) (p : Pkt) (s : State) : Option Status :=
  let profile := (s.tenant t).profile
  if !versionOk profile p.version then some .badOpcode
  else if p.rsv then some .badParam
  else if p.field ≠ t then some .denied
  else match o with
  | none => some .badOpcode
  | some o =>
    if profile = 1 && !o.p1 then some .badOpcode
    else if 1020 < p.plen || !o.plen p.plen || !o.plenP p.params then some .badLength
    else if !(groupRight o t p.params s && o.right t p.params s) then some .denied
    else if !o.life s.ident.lc then some .lifecycle
    else if p.notBefore ≠ 0 && profile == 1 then some .badParam
    else if p.notBefore ≠ 0 && decide (diff48 p.notBefore s.now ≤ 0) && !p.lateOk then some .tooLate
    else if !o.share t p.params s then some .noShare
    else o.parm t p.params s

/-- An island is in RUN. -/
def State.running (s : State) (n : Nat) : Bool := (s.island n).gate.st == .run

/-- An island works: it is in RUN, or it quiesces and ends the work it has accepted (01 R22). -/
def State.alive (s : State) (n : Nat) : Bool := s.running n || (s.island n).gate.st == .quiescing

/-- The command waits at the crossing into its island, which is not in RUN (01 R22). -/
def OpSpec.parked (o : OpSpec) (s : State) : Bool :=
  match o.isl with
  | some n => !s.running n
  | none => false

/-- What an answer leaves: the final reply, an interim reply, or neither. Under PROFILE 1 a command that would be DEFERRED
leaves the admission queue and ends with BUSY (R69). -/
def settle (id : Nat) : Ans → State
  | .done st res s => finishCmd id st res s
  | .accept s => interim id .accepted s
  | .defer s => deferCmd id s
  | .ongoing s => s

/-- The command has waited since its dispatch, on a not-before time or at a crossing. -/
def Cmd.waited (c : Cmd) : Bool := c.phase == .waiting || c.phase == .crossing

/-- Begins a command's execution (R61): held at the crossing while its island is not in RUN, else executed, with its
answer posted. What its parameters name is judged again when the command has waited (R54: the state of the target counts
at execution). -/
def begin (o : OpSpec) (c : Cmd) (s : State) : State :=
  if o.parked s then setCmd { c with phase := .crossing, due := false } s
  else
    let c1 := { c with phase := .running, due := false }
    let s1 := setCmd c1 s
    match (if c.waited then o.parm c.tenant c.params s else none) with
    | some st => endCmd c.id st s1
    | none => settle c.id (o.exec c1 s1)

/-- The chain bookkeeping of a packet dispatched from queue q (R65, R38): a packet with CHAINED = 1 opens or goes on
with a chain that then waits for its final outcome; one with CHAINED = 0 is a chain's last member and holds nothing
back. -/
def chainOpen (t : Nat) (q : Option Nat) (chained : Bool) (id : Nat) (s : State) : State × Option Nat :=
  match q with
  | none => (s, none)
  | some n =>
    let x := s.queue t n
    if chained then
      (s.setQueue t n { x with chain := some { await := some id, failed := x.chain.any (·.failed) } }, some n)
    else (s.setQueue t n { x with chain := none }, none)

/-- The command in execution that a packet makes (R56). -/
def newCmd (t : Nat) (p : Pkt) (chain : Option Nat) (s : State) : Cmd :=
  { id := s.nextId, tenant := t, seq := p.seq, opcode := p.opcode, version := p.version, notify := p.notify
    lateOk := p.lateOk && (s.tenant t).profile != 1, notBefore := p.notBefore, params := p.params, chain := chain, noSlot := p.opcode == 0x0002, sent := s.clk }

/-- The state with one command more in execution. -/
def enterCmd (c : Cmd) (s : State) : State := { s with nextId := s.nextId + 1, inflight := s.inflight ++ [c] }

/-- A command that has passed every check waits for its not-before time, or begins (R61). -/
def waitOrBegin (o : OpSpec) (c : Cmd) (s : State) : State :=
  let d := diff48 c.notBefore s.now
  if c.notBefore ≠ 0 ∧ 0 < d then setCmd { c with phase := .waiting, short := decide (d < 50000) } s
  else begin o { c with late := c.notBefore != 0 } s

/-- A packet whose checks failed: TENANT that is not the queue's owner is recorded (R41). -/
def refuse (t : Nat) (p : Pkt) (id : Nat) (st : Status) (s : State) : State :=
  finishCmd id st [] (if st = .denied ∧ p.field ≠ t then logObj 0 t p.opcode p.field 0 s else s)

/-- Takes a packet of tenant t, from submission queue q if any, into execution: its checks, its wait, or its start. -/
def launch (o : Option OpSpec) (t : Nat) (p : Pkt) (q : Option Nat) (s : State) : State :=
  let r := chainOpen t q p.chained s.nextId s
  let c := newCmd t p r.2 s
  let s1 := enterCmd c r.1
  if (q.bind (fun n => (s.queue t n).chain)).any (·.failed) then finishCmd c.id .flushed [] s1
  else if p.bad then finishCmd c.id .internal [] s1
  else match checks o t p s1, o with
  | some st, _ => refuse t p c.id st s1
  | none, some o => waitOrBegin o c s1
  | none, none => s1

/-- Teller serves: a pair is in service, SVX runs, and no power state has stopped dispatch (19 R585, 20 R598). -/
def State.teller (s : State) : Bool :=
  s.running 3 && s.pow.dispatch && !s.yar.logicReset && (List.range 4).any (fun t => (look {} s.aud.teller t).inService)

/-- A tenant whose packets are dispatched: it is LIVE and Teller serves (R57, 04 R120). -/
def State.serves (s : State) (t : Nat) : Bool := (s.tenant t).st == .live && s.teller

/-- The tenant has a command slot left (R57). -/
def State.slotFree (s : State) (t : Nat) : Bool := decide (s.inUse t < (s.tenant t).cmd)

/-- The packet that a Hiast row carries. -/
def reqPkt (r : Req) (opcode : Nat) : Pkt :=
  { field := r.tenant, opcode := opcode, seq := r.seq, version := r.version, notify := r.notify, lateOk := r.lateOk,
    plen := r.params.length, notBefore := r.notBefore, params := r.params }

/-- A Hiast row: Teller takes this packet of the tenant from outside any chain. A tenant that is not served dispatches
nothing; a tenant at its command-slot share is held back and the stall is counted (R57). -/
def submit (o : OpSpec) (r : Req) (s : State) : State :=
  let t := r.tenant
  if !s.serves t then s
  else if !s.slotFree t then
    s.setTenant t { s.tenant t with stalls := satInc 0xFFFF (s.tenant t).stalls }
  else launch (some o) t (reqPkt r o.opcode) none s

end Sys2Proof.Machine
end

