-- ==== Sys2Proof/Machine/Advance.lean ====
section
/-!
DEFINITION. Elapsed time and samples of a command's stimulus: Tally time at its rate adjustment (09 R264, R265), the
targets it passes (09 R267, R273) and the wire models under the currents shown (06 R191). Log entry 1.
-/

namespace Sys2Proof.Machine

/-- Time of firing k of a trigger block (09 R281). -/
def firingTime (b : List Word) (k : Nat) : Nat :=
  let start := fld (par b 1) 31 0 + fld (par b 2) 15 0 * 2 ^ 32
  let period := fld (par b 2) 31 16 + fld (par b 3) 15 0 * 2 ^ 16
  (start + k * period) % 2 ^ 48

/-- A target that lay in the future is reached when Tally time goes on by delta. -/
def reaches (target now delta : Nat) : Bool :=
  decide (0 < diff48 target now) && decide (diff48 target now ≤ (delta : Int))

/-- The phase of AON's ticks, less than one tick. -/
def aonLag : Nat := Config.aonPhase % 30517

/-- Full Tally time of the first AON tick, of 1/32 768 s, at or after a full time (09 R276). -/
def aonTick (t : Nat) : Nat := ceilDiv (ceilDiv ((t - aonLag) * 32768) (10 ^ 9) * 10 ^ 9) 32768 + aonLag

/-- Full Tally time as AON's counter carries it: that of its last tick (09 R275). -/
def aonTime (t : Nat) : Nat := if t < aonLag then 0 else (t - aonLag) * 32768 / 10 ^ 9 * 10 ^ 9 / 32768 + aonLag

/-- The alarm fires when Tally time goes on by delta (09 R273, R276): at a step over its target, else at the first AON
tick at or after it. -/
def State.alarmReached (s : State) (step : Bool) (t delta : Nat) : Bool :=
  let d := diff48 t s.now
  (step && decide (0 < d) && decide (d < (delta : Int))) ||
    (decide (-30518 < d) && decide (aonTick ((s.tim.full : Int) + d).toNat ≤ s.tim.full + delta))

/-- Marks the waiting commands, trigger firings and the alarm that Tally time reaches when it goes on by delta from its
present value, by counting or by a forward step (09 R273), with the time at which it does. -/
def markDue (step : Bool) (delta : Nat) (s : State) : State :=
  let now := s.now
  let when_ := fun (t : Nat) => if step then s.tim.full + delta else s.tim.full + (diff48 t now).toNat
  let cmds := s.inflight.map (fun c =>
    if c.phase = .waiting ∧ reaches c.notBefore now delta then { c with due := true, dueAt := when_ c.notBefore } else c)
  let trig := s.tim.trig.map (fun p =>
    let x := p.2
    match x.block with
    | some b =>
      let t := firingTime b x.k
      if x.armed && reaches t now delta then (p.1, { x with due := true, dueAt := when_ t }) else p
    | none => p)
  let al := match s.tim.alarm with
    | some t => s.tim.alarmDue || s.alarmReached step t delta
    | none => false
  { s with inflight := cmds, tim := { s.tim with trig := trig, alarmDue := al } }

/-- Tally time goes on by dt nanoseconds of module clock: at RADJ from the FBX counter, at the nominal rate while AON
carries it (09 R265, R275). -/
def tallyRun (dt : Nat) (s : State) : State :=
  let radj : Int := if s.pow.mode = .sleep ∨ s.pow.mode = .dormant then 0 else s.tim.radj
  let total := ((dt : Int) * ((10 : Int) ^ 11 + radj) + s.tim.sub).toNat
  let delta := total / 10 ^ 11
  let s1 := markDue false delta s
  { s1 with tim := { s1.tim with full := (s1.tim.full + delta) % 2 ^ 80, sub := total % 10 ^ 11 } }

/-- A value that the outside world shows at a probe from now on; a channel current is first folded into its wire
model. -/
def showSample (s : State) (x : Probe × Int) : State :=
  let s1 := match x.1 with
    | .chanMa ch => s.thetaBefore ch
    | _ => s
  { s1 with env := x :: s1.env.filter (fun y => y.1 != x.1) }

/-! ### What a power die's controller counts (05 R152, R165, R167, 06 R188) -/

/-- The power dies run: not while the module sleeps or is off (20 R598, R602). -/
def State.diesUp (s : State) : Bool :=
  match s.pow.mode with
  | .run => true
  | .entering _ => true
  | _ => false

/-- The blanking count over some on-phase time at one current (R152): it runs above the threshold and through a dip of
less than 10 µs, 10 µs below it reset it, and at BLANK it stands until the trip. A current equal to the threshold counts
as below it (DEDUCED, log 17). -/
def ocRun (blank on : Nat) (above : Bool) (m : ChMeter) : ChMeter :=
  if blank ≤ m.oc then m
  else if above then { m with oc := m.oc + on, dip := 0 }
  else if m.oc = 0 then m
  else if blank ≤ m.oc + on ∧ m.dip + (blank - m.oc) < 10000 then { m with oc := blank }
  else if 10000 ≤ m.dip + on then { m with oc := 0, dip := 0 }
  else { m with oc := m.oc + on, dip := m.dip + on }

/-- A count of time that a condition holds without interruption. -/
def held (ok : Bool) (dt n : Nat) : Nat := if ok then n + dt else 0

/-- Off-state cycles run for a channel (05 R166). -/
def State.offCycles (s : State) (ch : Nat) (c : Chan) : Bool :=
  c.oloffEn && !s.paired ch && !c.limp && (c.st == .off || c.st == .latched || c.st == .retryWait) && s.pow.mode == .run

/-- The switch went off, tripped or lost its feed in the controller cycle of b: its trips' counts stand through that cycle,
in which a further trip is still recorded (05 R162). -/
def Chan.wentOff (c : Chan) (b : Nat) : Bool :=
  !c.st.isOn && c.st != .slewOff &&
    (c.onTill.any (fun t => t / 10 == b / 10) || (c.trips != 0 && c.tripAt / 10 == b / 10))

/-- The counts of a channel over [a, b), in which its state, its current and its threshold do not change. A current or a
voltage between the ends of a threshold's tolerance counts on both of its sides (05 R141). -/
def State.meterSpan (s : State) (ch a b : Nat) (c : Chan) : ChMeter :=
  let dt := b - a
  let on := c.onTime a b
  let live := c.st.isOn || c.st == .slewOff
  let i := s.loadMa ch
  let m := c.meter
  let m1 := if live then ocRun (c.blank * 10000) on (c.overTrip ch a i) m
    else if c.wentOff b then m else { m with oc := 0, dip := 0 }
  let ol := c.st == .on && !c.limp && c.olth != 0
  let below := decide (i < (c.olth : Int))
  let low := if ol then (if on = 0 then m.low else held below on m.low) else 0
  let high := if ol then (if on = 0 then m.high else held (!below) on m.high) else 0
  let rc := c.st.isOn && decide (s.feedMa ch < -(c.tripTh : Int))
  let above := fun (mv : Int) => c.st == .off && !c.limp && decide (s.vfeed (chDie ch) + mv ≤ s.probe (.chanVout ch) * 10)
  { m1 with low := low, high := high, off := held (s.offCycles ch c) dt m.off
            rev := if c.wentOff b then m.rev else held rc dt m.rev, vrev := held (above 300) dt m.vrev,
            clear := held (!(rc || above 700)) dt m.clear }

/-- Number of current samples, one at each multiple of 50 µs, in [a, b). -/
def samplesIn (a b : Nat) : Nat := (b + 49999) / 50000 - (a + 49999) / 50000

/-- Puts the window in progress among those that have ended; one equal to the last changes nothing more (06 R188). -/
def ChMeter.close (m : ChMeter) : ChMeter :=
  { m with sum := 0, n := 0
           done := if m.n = 0 ∨ m.done.getLast? = some (m.sum, m.n) then m.done else m.done ++ [(m.sum, m.n)] }

/-- The samples of [a, b) at one current, with the window ends that fall in it. -/
def odRun (ma : Int) (b : Nat) : List Nat → Nat → ChMeter → ChMeter
  | [], a, m => { m with sum := m.sum + samplesIn a b * ma, n := m.n + samplesIn a b }
  | e :: es, a, m =>
    odRun ma b es e ({ m with sum := m.sum + samplesIn a e * ma, n := m.n + samplesIn a e }).close

/-- The clk at which Tally time passes each of the next n whole seconds, counting at its present rate (00 R625). -/
def State.secondEnds (s : State) (rate n : Nat) : List Nat :=
  (List.range n).map (fun k =>
    s.clk + ceilDiv (((s.tim.full / 10 ^ 9 + 1 + k) * 10 ^ 9 - s.tim.full) * 10 ^ 11 - s.tim.sub) rate)

/-- A channel's counts over [clk, b), split where its inrush window ends. -/
def State.meterOne (s : State) (b : Nat) (ends : List Nat) (ch : Nat) (c : Chan) : Chan :=
  let cut := if c.winAt s.clk ∧ c.winEnd < b then c.winEnd else s.clk
  let c1 := if cut = s.clk then c else { c with meter := s.meterSpan ch s.clk cut c }
  { c with meter := odRun (s.loadMa ch) b ends s.clk (s.meterSpan ch cut b c1) }

/-- On-phase time in ns of a field output from a to b in BSX's clock. -/
def FieldOut.onTime (x : FieldOut) (a b : Nat) : Nat :=
  if foPwm x then
    let f := fun t => pwmOn (foFreq x) x.duty ((t - x.pwmFrom) * foFreq x)
    f b - f a
  else b - a

/-- A field output's counts over [a, b) of BSX's clock at one duty (08 R241, R243). A current between the ends of a
threshold's tolerance counts on both of its sides (08 R230). -/
def State.foSpan (s : State) (i a b : Nat) (x : FieldOut) : FieldOut :=
  let ma := s.probe (.foMa i)
  let on := x.onTime a b
  if x.st ≠ .on then { x with lim := 0, low := 0, high := 0 }
  else
    { x with lim := held (decide (750 ≤ ma)) (b - a) x.lim
             low := if on = 0 ∨ !foOlEn x then x.low else held (decide (ma < 8)) on x.low
             high := if on = 0 ∨ !foOlEn x then x.high else held (decide (2 ≤ ma)) on x.high }

/-- A field output's counts over the next dt nanoseconds, split where a new duty takes effect. -/
def State.foMeter (s : State) (dt i : Nat) (x : FieldOut) : FieldOut :=
  let a := s.bsxClk
  match x.next with
  | some (d, at_) =>
    if at_ ≤ a then s.foSpan i a (a + dt) { x with duty := d, next := none }
    else if at_ < a + dt then s.foSpan i at_ (a + dt) { s.foSpan i a at_ x with duty := d, next := none }
    else s.foSpan i a (a + dt) x
  | none => s.foSpan i a (a + dt) x

/-- A die's feed over the next dt nanoseconds (05 R169). A voltage between the ends of a threshold's tolerance counts on
both of its sides (05 R141). -/
def State.feedMeter (s : State) (dt d : Nat) : Die :=
  let x := look {} s.yar.die d
  let mv := s.probe (.feedMv d)
  { x with feedLow := held (decide (mv < 4400)) dt x.feedLow, feedHigh := held (decide (5200 < mv)) dt x.feedHigh }

/-- VHF is below a VBRN of R593. -/
def State.vhfDown (s : State) : Bool := decide (s.probe .vhfMv < 5300)

/-- The feeds and VHF over the next dt nanoseconds (05 R169, 20 R604). -/
def feedRun (dt : Nat) (s : State) : State :=
  if dt = 0 ∨ s.diesUp = false then s
  else
    { s with yar := { s.yar with die := put (put s.yar.die 0 (s.feedMeter dt 0)) 1 (s.feedMeter dt 1) }
             pow := { s.pow with vhfLow := held s.vhfDown dt s.pow.vhfLow } }

/-- Every channel's counts over the next dt nanoseconds, and every field output's while BSX has its clock. -/
def meterRun (dt : Nat) (s : State) : State :=
  if dt = 0 ∨ s.diesUp = false then s
  else
    let rate := ((10 : Int) ^ 11 + s.tim.radj).toNat
    let ends := s.secondEnds rate ((s.tim.full + (dt * rate + s.tim.sub) / 10 ^ 11) / 10 ^ 9 - s.tim.full / 10 ^ 9)
    let fo := if s.fio.stopAt.isSome then s.fio.fo else s.fio.fo.map (fun p => (p.1, s.foMeter dt p.1 p.2))
    { s with chan := s.chan.map (fun p => (p.1, s.meterOne (s.clk + dt) ends p.1 p.2)), fio := { s.fio with fo := fo } }

/-- A component is in RUN while the module is in RUN or IDLE (18 R562). -/
def State.compRuns (s : State) (c : Nat) : Bool :=
  s.pow.mode == .run &&
  (if c = 0 then s.vlt.mode == .running
   else if c / 16 = 2 then (look { st := .powerGated } s.gates (64 + c % 16)).st == .run
   else if c / 16 = 3 then (look {} s.gates (16 + c % 16)).st == .run
   else true)

/-- Trials count their run time (18 R562). -/
def trialRun (dt : Nat) (s : State) : State :=
  { s with img := { s.img with comp := s.img.comp.map (fun p =>
      if p.2.st = .trial ∧ s.compRuns p.1 then (p.1, { p.2 with run := p.2.run + dt }) else p) } }

/-- A job of Strongbox is a commit (17 R528). -/
def StoJob.isCommit (j : StoJob) : Bool :=
  match j.kind with
  | .commit .. => true
  | _ => false

/-- The conditions of SLEEP entry (20 R597). -/
def State.parked (s : State) : Bool :=
  s.nmg.ring.all (fun p => p.2.st == .disabled || p.2.st == .busSleep || p.2.st == .pnSleep) &&
  s.nmg.req.all (fun p => p.2.1 == 0 && p.2.2 == 0) && s.probe .key != 1 &&
  s.chan.all (fun p => !p.2.limp && (p.2.st == .unconf || p.2.st == .off || p.2.st == .latched)) &&
  s.fio.fo.all (fun p => p.2.st == .unconf || p.2.st == .off || p.2.st == .latched) &&
  s.yar.die.all (fun p => !p.2.yarrow) && s.probe .limpN 1 != 0 && s.probe .safeN 1 != 0 && !s.yar.safeN &&
  s.sto.jobs.all (fun j => !j.isCommit) && s.sto.waiting.isEmpty && s.img.xfer.all (fun p => p.2.isNone) &&
  s.img.comp.all (fun p => p.2.st != .installing && p.2.st != .activating && p.2.st != .fallback)

/-- Notes since when the conditions of R597 hold without interruption; clk is that of the previous command. -/
def parkNote (s : State) : State :=
  let since := if s.parked && s.pow.mode == .run then some (s.pow.quietSince.getD s.clk) else none
  { s with pow := { s.pow with quietSince := since } }

/-- The state after a command's elapsed time and samples. -/
def State.advance (s : State) (e : Stim) : State :=
  let s0 := trialRun e.dt (parkNote (feedRun e.dt (meterRun e.dt s)))
  let s1 := tallyRun e.dt { fabricRun (s.clk + e.dt) s0 with clk := s.clk + e.dt }
  e.samples.foldl showSample s1

end Sys2Proof.Machine
end

