-- ==== Sys2Proof/Machine/Purse.lean ====
section
/-!
DEFINITION. The Purse's operations (06): booked sums, the admission test of R182, bookings and releases (R181), the
admission queue (R184 to R186) and PWM phasing (R189); trips and turn-ons of a load channel (05 R163, R629).
-/

namespace Sys2Proof.Machine

/-! ### Booked sums -/

/-- Sum of a quantity over channels. -/
def State.sumCh (s : State) (chs : List Nat) (f : Chan → Nat) : Nat := (chs.map (fun c => f (s.chn c))).sum

/-- Continuous current booked for the channels of an owner (R177). -/
def State.ownerBooked (s : State) (o : Nat) : Nat :=
  s.sumCh (allChans.filter (fun c => (s.chn c).owner == o)) (·.icont)

def State.capFeed (s : State) (d : Nat) : Nat := if d = 0 then s.pur.capFeedA else s.pur.capFeedB
def State.capInr (s : State) (d : Nat) : Nat := if d = 0 then s.pur.capInrA else s.pur.capInrB
def State.capDis (s : State) (d : Nat) : Nat := if d = 0 then s.pur.capDisA else s.pur.capDisB
def State.flost (s : State) (d : Nat) : Bool := if d = 0 then s.pur.flostA else s.pur.flostB

/-- A class-A inrush window is open, or stands to open at an admitted turn-on's slew start (R183). -/
def State.aWindow (s : State) : Bool :=
  (List.range 8).any (fun c => (s.chn c).winAt s.clk || (s.chn c).pend.any (fun p => p.kind != .duty))

/-! ### The admission test (R182) -/

/-- What the admission test answers. -/
inductive Fit where
  | yes | wait | refuse
  deriving DecidableEq, Repr

/-- A request that opens an inrush window. -/
def PReq.opens (r : PReq) : Bool := r.kind != .duty

/-- The admission test of one request, in the order of R182. -/
def fits (r : PReq) (s : State) : Fit :=
  let c := s.chn r.ch
  let d := chDie r.ch
  let share : Int := (s.tenant c.owner).purse * 10
  let own : Int := s.ownerBooked c.owner
  let di : Int := (c.icontAt r.duty : Int) - c.icont
  let dp : Int := (s.pdisAt r.ch r.duty : Int) - c.pdis
  let dn : Int := if r.opens then (c.ipeak : Int) - c.iinr else 0
  let on := dieChans d
  if r.commanded && decide (own + di > share) then .refuse
  else if s.flost d then .wait
  else if !r.commanded && decide (own ≥ share) then .wait
  else if (s.sumCh on (·.icont) : Int) + di > s.capFeed d then .wait
  else if (s.sumCh allChans (·.icont) : Int) + di > s.pur.capMod then .wait
  else if (s.sumCh on (·.iinr) : Int) + dn > s.capInr d then .wait
  else if (s.sumCh on (·.pdis) : Int) + dp > s.capDis d * 10 then .wait
  else if chClass r.ch = 0 ∧ dn > 0 ∧ s.aWindow then .wait
  else .yes

/-! ### PWM phasing (R189) -/

/-- Channels of a die in one phase group, in ascending CHAN. -/
def State.phaseGroup (s : State) (d freq : Nat) : List Nat :=
  (dieChans d).filter (fun ch =>
    let c := s.chn ch
    let duty := c.dutyNext.getD c.duty
    c.st.isOn && c.pwmEn && c.pwmFreq == freq && duty != 0 && duty != 1000)

/-- New offsets of a group: each on-phase begins where the one before ended, in units of 10 ns. A channel in HOLD keeps
its own (07 R212), and the channel after it starts where the sum of the duties from the group's first channel puts it, not where
the kept on-phase ends (DESIGN CHOICE, log 18). -/
def phaseOffsets (freq ref : Nat) : Nat → List Nat → State → State
  | _, [], s => s
  | sum, ch :: chs, s =>
    let c := s.chn ch
    phaseOffsets freq ref (sum + c.dutyNext.getD c.duty) chs
      (if c.limp ∧ c.pol = 2 then s
       else s.setChn ch { c with pwmOffNext := sum % 1000 * 100000 / freq, pwmRef := ref })

/-- Recomputes the offsets of a channel's group (R190). They count from the PWM period of its first channel (DESIGN
CHOICE, log 18). -/
def rephase (ch : Nat) (s : State) : State :=
  let f := (s.chn ch).pwmFreq
  let g := s.phaseGroup (chDie ch) f
  if f = 0 then s else phaseOffsets f (s.chn (g.headD ch)).pwmFrom 0 g s

/-- How long after the boundary at clk the channel's next on-phase starts, in ns: until its offset, less than a period,
and 0 where it stands there already to a nanosecond (R190). -/
def Chan.shift (c : Chan) (clk : Nat) : Nat :=
  let x := ((((c.pwmRef + 10 * c.pwmOffNext : Nat) : Int) - clk) * c.pwmFreq).emod (10 ^ 9) |>.toNat
  if c.limp ∧ c.pol = 2 ∨ x < 2 * c.pwmFreq ∨ 10 ^ 9 < x + 2 * c.pwmFreq then 0 else x / c.pwmFreq

/-! ### Bookings and releases (R181) -/

/-- Every booking of a channel released. -/
def release (ch : Nat) (s : State) : State :=
  s.setChn ch { s.chn ch with icont := 0, iinr := 0, pdis := 0 }

/-- The bookings of a channel that is on at its duty, with IINR for an open window (R201). -/
def bookOn (ch : Nat) (s : State) : State :=
  let c := s.chn ch
  s.setChn ch { c with icont := c.icontAt c.duty, pdis := s.pdisAt ch c.duty, iinr := if c.winOpen then c.ipeak else 0 }

/-- BLOCK of a die stays set only while a request of the die has waited 50 ms (R185, R204). -/
def reblock (s : State) : State :=
  let long := fun d => s.pur.queue.any (fun r => chDie r.ch == d && decide (50000000 ≤ s.clk - r.at_))
  { s with pur := { s.pur with blockA := s.pur.blockA && long 0, blockB := s.pur.blockB && long 1 } }

/-- Takes a channel's request out of the queue. -/
def unqueue (ch : Nat) (s : State) : State :=
  reblock { s with pur := { s.pur with queue := s.pur.queue.filter (fun r => r.ch != ch) } }

/-- The request of a channel in the queue. -/
def State.req? (s : State) (ch : Nat) : Option PReq := s.pur.queue.find? (fun r => r.ch == ch)

/-- Withdraws a channel's request from the queue, its command ending with a status. -/
def withdraw (ch : Nat) (st : Status) (s : State) : State :=
  match s.req? ch with
  | none => s
  | some r =>
    let s1 := unqueue ch s
    let c := s1.chn ch
    endOpt r.cmd st (s1.setChn ch { c with asked := false })

/-- Withdraws a channel's pending turn-on, its bookings released and its command ending with a status (05 R629); RETRY_LEFT
is as before its reload, since the command then has no effect (02 R53). A reversal's turn-off goes on with the bookings it
has. -/
def dropPend (ch : Nat) (st : Status) (s : State) : State :=
  let c := s.chn ch
  match c.pend with
  | none => s
  | some p =>
    let s1 := if p.kind = .reversal ∧ c.st = .slewOff then s.setChn ch { c with pend := none, iinr := 0, asked := false }
      else s.setChn ch { c with pend := none, asked := false, icont := 0, iinr := 0, pdis := 0, retryLeft := p.left.getD c.retryLeft }
    endOpt p.cmd st s1

/-- Drops the second action of a half-bridge change, its command ending with a status. -/
def dropSecond (ch : Nat) (st : Status) (s : State) : State :=
  let c := s.chn ch
  match c.second with
  | none => s
  | some x => endOpt x.2.2 st (s.setChn ch { c with second := none })

/-- An event that withdraws the channel's pending turn-on and its second action (05 R629): f gives the channel the state
that the event does, and the withdrawn commands end in it, so that their result shows it (05 R174). -/
def dropOn (ch : Nat) (st : Status) (f : State → State) (s : State) : State :=
  let c := s.chn ch
  let s1 := dropSecond ch st (dropPend ch st (s.setChn ch { c with
    pend := c.pend.map (fun p => { p with cmd := none }), second := c.second.map (fun x => (x.1, x.2.1, none)) }))
  endOpt (c.second.bind (fun x => x.2.2)) st (endOpt (c.pend.bind (fun p => p.cmd)) st (f s1))

/-- The request is a PWR_SWITCH on in OFF, which reloads RETRY_LEFT (05 R164). -/
def PReq.reloads (r : PReq) : Bool := r.kind == .turnOn && r.commanded

/-- Admits a request: books it, and leaves a turn-on pending until its slew starts (R181, 05 R629), RETRY_LEFT reloaded by
a PWR_SWITCH on in OFF, which until then left the channel as it was (05 R150, R164), or lets a duty
increase take effect at the next period boundary, its command ending with OK. -/
def admitReq (r : PReq) (s0 : State) : State :=
  let s := resumeCmd r.cmd s0
  let c := s.chn r.ch
  let c1 := { c with icont := c.icontAt r.duty, pdis := s.pdisAt r.ch r.duty }
  if r.kind = .duty then
    let s1 := rephase r.ch (s.setChn r.ch { c1 with dutyNext := some r.duty, dutyDown := false })
    endOpt r.cmd .ok s1
  else
    let p : Pend := { kind := r.kind, duty := r.duty, action := r.action, cmd := r.cmd, at_ := r.at_
                      left := if r.reloads then some c.retryLeft else none }
    s.setChn r.ch { c1 with iinr := c.ipeak, pend := some p, retryLeft := if r.reloads then c.retries else c.retryLeft }

/-- A request takes its place in the queue: in order of arrival, those of one instant by ascending CHAN (R184). -/
def queueReq (r : PReq) (s : State) : State :=
  let q := s.pur.queue
  let before := fun (x : PReq) => decide (x.at_ < r.at_) || (x.at_ == r.at_ && decide (x.ch < r.ch))
  { s with pur := { s.pur with queue := q.takeWhile before ++ r :: q.dropWhile before } }

/-- How a request fared when it was made. -/
inductive Asked where
  | admitted | queued | refused
  deriving DecidableEq, Repr

/-- Makes a request (R184): refused for the share, admitted when it fits and no other waits, else queued. A request of
a channel that has one in the queue takes its place and arrival time (R186), the replaced command ending with
FLUSHED; where no other waits and it fits, it is admitted in that place at once. -/
def ask (r : PReq) (s : State) : Asked × State :=
  match s.req? r.ch with
  | some old =>
    if fits r s = .refuse then (.refused, s)
    else
      let s1 := endOpt old.cmd .flushed { s with pur := { s.pur with queue := s.pur.queue.map (fun x =>
        if x.ch = r.ch then { r with at_ := old.at_ } else x) } }
      if s.pur.queue.length = 1 ∧ fits r s = .yes then (.admitted, admitReq r (unqueue r.ch s1)) else (.queued, s1)
  | none =>
    match fits r s with
    | .refuse => (.refused, s)
    | .yes =>
      if s.pur.queue = [] then (.admitted, admitReq r s)
      else (.queued, queueReq r s)
    | .wait => (.queued, queueReq r s)

/-! ### The channel's own moves -/

/-- A channel in LIMP turns on by its die's own controller, without the Purse (07 R213): class-A windows of one die do
not overlap. -/
def State.limpMayOpen (s : State) (ch : Nat) : Bool :=
  chClass ch != 0 ||
    !((List.range 8).any (fun c => chDie c == chDie ch && c != ch && ((s.chn c).winAt s.clk || (s.chn c).pend.isSome)))

/-- Starts a turn-on's slew: the window opens, the PWM period starts, duty and action come into force (05 R148, R149,
R151). The blanking count starts anew but in a reversal. -/
def slewStart (ch duty action : Nat) (s : State) : State :=
  let c := s.chn ch
  let m := if c.st = .slewOff then c.meter else { c.meter with oc := 0, dip := 0 }
  rephase ch (s.setChn ch { c with st := .slewOn, duty := duty, dutyNext := none, action := action, winOpen := true,
                                   winEnd := s.clk + c.inrWin * 100000, pwmFrom := s.clk, pwmRef := s.clk, pwmOff := 0,
                                   pwmOffNext := 0, pend := none, asked := false, limpDue := false, meter := m })

/-- The slew may start: a half-bridge's other switch turns on only after DEADTIME, the sourcing half's own after the PWM
off-phase in which it was turned off too (05 R170). -/
def State.deadOk (s : State) (ch action : Nat) : Bool :=
  let c := s.chn ch
  chClass ch != 3 || (action == c.action && c.offAt.all (fun t => !c.offLow || decide (t + c.dead * 100 ≤ s.clk))) ||
    decide (c.deadUntil ≤ s.clk) && c.st != .slewOff

/-- The bits of trip causes: OC, SHORT, THERMAL, WIRE, REVERSE, DRIVER, CONFIG (05 R175). -/
def cOC : Nat := 1
def cSHORT : Nat := 2
def cTHERMAL : Nat := 4
def cWIRE : Nat := 8
def cREVERSE : Nat := 16
def cDRIVER : Nat := 32
def cCONFIG : Nat := 64

/-- FIRST of a set of causes: the earliest of DRIVER, CONFIG, SHORT, THERMAL, OC, WIRE and REVERSE (05 R162). -/
def firstCause (m : Nat) : Nat :=
  if m.testBit 5 then 6 else if m.testBit 6 then 7 else if m.testBit 1 then 2 else if m.testBit 2 then 3
  else if m.testBit 0 then 1 else if m.testBit 3 then 4 else if m.testBit 4 then 5 else 0

/-- The die's link carries its reports to the logic side (07 R210). -/
def State.linkUp (s : State) (d : Nat) : Bool := !(s.pdie d).dead

/-- Latches a cause of FAULT_N (19 R588). -/
def latchFault (bitNo : Nat) (s : State) : State := { s with flt := { s.flt with latched := s.flt.latched ||| 2 ^ bitNo } }

/-- Two instants fall in one power-die controller cycle of 10 ns (05 R162). -/
def sameCycle (a b : Nat) : Bool := a / 10 == b / 10

/-- The channel has tripped in this controller cycle. -/
def Chan.trippedAt (c : Chan) (clk : Nat) : Bool :=
  !c.st.isOn && c.st != .slewOff && c.trips != 0 && sameCycle c.tripAt clk

/-- RETRY_LEFT is reloaded (05 R164). -/
def Chan.reload (c : Chan) : Chan :=
  { c with retryLeft := c.retries, pend := c.pend.map (fun p => { p with left := none }) }

/-- A PWR_CLEAR has been executed in this controller cycle: it comes after the trips and slew ends of the cycle (05 R158,
R162). -/
def clearAfter (ch : Nat) (s : State) : State :=
  let c := s.chn ch
  if !c.clrAt.any (sameCycle s.clk) || c.limp || s.hot ch || c.wireLatch then s
  else if c.st = .off then s.setChn ch c.reload
  else if c.st = .latched ∨ c.st = .retryWait then
    s.setChn ch { c.reload with st := if c.block.isSome then .off else .unconf, asked := false }
  else s

/-- The status of a turn-on that a trip of its own controller cycle comes before: PWR_SWITCH on then meets LATCHED or
RETRY_WAIT (05 R158, R162). A turn-on that was pending before is withdrawn (05 R629). -/
def tripStatus (thermal : Bool) (ch : Nat) (s : State) : Status :=
  if thermal then .thermal
  else if (s.chn ch).pend.any (fun p => sameCycle p.at_ s.clk) then (if s.hot ch then .thermal else .busy)
  else .flushed

/-- Time that a trip's turn-off takes in ns: tSC, or the feed voltage at the rate of the highest code (05 R141, R155). -/
def State.tripNs (s : State) (ch causes : Nat) : Nat :=
  if causes.testBit 1 then 1900 else s.vfeed (chDie ch) * 10 / slewRate (classLim (chClass ch)).2.2.2.2.2.1

/-- The state a trip gives its channel: bookings released, an uncommanded request withdrawn; the command of a reversal
that waits ends with FLUSHED, or with THERMAL (DEDUCED, log 17: as a pending one by 05 R629). -/
def tripSet (next : ChState) (causes trips ch : Nat) (s : State) : State :=
  let c := s.chn ch
  let s1 := rephase ch (s.setChn ch { c with st := next, cause := causes, first := firstCause causes, winOpen := false,
                                             icont := 0, iinr := 0, pdis := 0, trips := trips, tripAt := s.clk,
                                             deadUntil := s.clk + s.tripNs ch causes + c.dead * 100,
                                             asked := false, limpDue := false, dutyNext := none })
  match s1.req? ch with
  | some r => if r.commanded then s1 else withdraw ch (if causes.testBit 2 then .thermal else .flushed) s1
  | none => s1

/-- PWR_LATCH to the owner and the readers of a channel; trips with cause DRIVER or CONFIG (R146, R168) and trips in LIMP
(07 R224) are recorded in the Ledger too. -/
def tripPost (limp : Bool) (causes ch : Nat) (det : List Word) (s : State) : State :=
  if limp || causes.testBit 5 || causes.testBit 6 then
    noticeAllOnly (s.chAudience ch) 0x1001 det (logRec 0x1001 (s.chn ch).owner det s)
  else noticeAll (s.chAudience ch) 0x1001 det s

/-- Requests an uncommanded turn-on of a channel: from the Purse, or in LIMP from the die's own controller, which leaves
it pending at once (05 R163, R169, 07 R213). -/
def autoOn (kind : ReqKind) (ch : Nat) (s : State) : State :=
  let c := s.chn ch
  if c.limp then
    if s.limpMayOpen ch then
      s.setChn ch { c with asked := true, pend := some { kind := kind, duty := if c.polOn then c.polDuty else c.duty,
                                                         action := if c.polOn then c.polAct else c.action } }
    else if kind = .retry then s.setChn ch { c with limpDue := true }
    else s
  else
    let s1 := s.setChn ch { c with asked := true }
    (ask { ch := ch, kind := kind, at_ := s.clk, duty := c.duty, action := c.action, commanded := false } s1).2

/-- A channel in LIMP that its policy asks on asks for its turn-on as soon as its thermal latch is clear and no class-A
window of its die is open (07 R212, R213). One that is off without feed waits as FEEDLOST, and asks once the feed is
back. -/
def limpWant (ch : Nat) (s : State) : State :=
  let c := s.chn ch
  let lost := (s.pdie (chDie ch)).feedLoss
  if c.limp && c.polOn && c.pend.isNone && !s.hot ch && !c.storedBad then
    if c.st = .off ∧ c.block.isSome then
      if lost then s.setChn ch { c with st := .feedLost, duty := c.polDuty, action := c.polAct }
      else autoOn .turnOn ch s
    else if c.st = .feedLost ∧ lost = false then autoOn .feedReturn ch s
    else if c.st = .retryWait ∧ c.limpDue then autoOn .retry ch s
    else s
  else s

/-- The waiting policy turn-ons of a die, in ascending CHAN order (07 R213). -/
def limpPump (d : Nat) (s : State) : State := (dieChans d).foldl (fun s c => limpWant c s) s

/-- A trip (05 R155, R156, R159, R163, 06 R192): bookings released, pending turn-on and second action withdrawn,
RETRY_WAIT while only OC, SHORT or THERMAL is recorded and retries are left, else LATCHED; PWR_LATCH is posted. A trip in
the cycle of an earlier one adds its cause to that trip, and one in the cycle of a PWR_SWITCH or PWR_CLEAR comes before it,
so that a turn-off cancels its retry and a PWR_CLEAR clears it (R162). PWR_LATCH's words are those after the trip, TRIPS
counting it, and word 1 those at the trip (word 2 after it: DESIGN CHOICE, log 17). A channel without a block latches too
(DEDUCED, log 19). In LIMP the class-A window it closes is free for the next policy turn-on (07 R213). -/
def trip (cause ch : Nat) (s : State) : State :=
  let c := s.chn ch
  let same := c.trippedAt s.clk
  let causes := if same then c.cause ||| cause else cause
  let next : ChState := if causes / 8 ≠ 0 ∨ c.retryLeft = 0 ∨ c.offAt.any (sameCycle s.clk) then .latched else .retryWait
  let s1 := dropOn ch (tripStatus (cause == cTHERMAL) ch s)
    (tripSet next causes (if same then c.trips else satInc 0xFFFF c.trips) ch) s
  let s2 := clearAfter ch (tripPost c.limp causes ch [s1.chWord0 ch, s.chWord2 ch, s1.chWord3 ch] s1)
  if c.limp then limpPump (chDie ch) s2 else s2

/-- A channel that has gone off completely: OFF, window closed, bookings released (05 R159, 06 R181);
a half-bridge's other switch stays off for DEADTIME (05 R170). -/
def goneOff (ch : Nat) (s : State) : State :=
  let c := s.chn ch
  let keep := c.pend.isSome
  let c1 := { c with st := .off, winOpen := false, dutyNext := none, onTill := some s.clk,
                     deadUntil := s.clk + c.dead * 100 }
  rephase ch (s.setChn ch (if keep then c1 else { c1 with icont := 0, iinr := 0, pdis := 0 }))

/-! ### Evaluation of the queue (R185) -/

/-- A request's channel can take what it asks for now: a waiting duty increase needs the channel on, a turn-on the
state it started from. -/
def reqReady (r : PReq) (s : State) : Option Status :=
  let c := s.chn r.ch
  if c.limp || (s.pdie (chDie r.ch)).dead then none
  else match r.kind with
  | .duty => if c.st.isOn && !c.limp then some .ok else none
  | .retry => if c.st = .retryWait then (if s.hot r.ch then none else some .ok) else some .flushed
  | .feedReturn => if c.st = .feedLost then (if s.hot r.ch then none else some .ok) else some .flushed
  | .reversal => if c.st = .slewOff ∨ c.st = .off then (if s.hot r.ch then some .thermal else some .ok) else some .flushed
  | _ => if c.st = .off then (if s.hot r.ch then some .thermal else some .ok) else some .flushed

/-- Evaluates the requests of a list in order, with the feeds blocked so far (die, PRIO). -/
def evalList : List PReq → List (Nat × Nat) → State → State
  | [], bl, s =>
    let has := fun d => bl.any (fun b => b.1 == d)
    { s with pur := { s.pur with blockA := has 0, blockB := has 1 } }
  | r :: rs, bl, s =>
    let d := chDie r.ch
    let p := s.prio r.ch
    if bl.any (fun b => b.1 == d && decide (b.2 ≤ p)) then evalList rs bl s
    else match reqReady r s with
    | none => evalList rs bl s
    | some .ok =>
      match fits r s with
      | .yes => evalList rs bl (admitReq r (unqueue r.ch s))
      | .refuse => evalList rs bl (withdraw r.ch .noShare s)
      | .wait => evalList rs (if 50000000 ≤ s.clk - r.at_ then bl ++ [(d, p)] else bl) s
    | some st => evalList rs bl (withdraw r.ch st s)

/-- The second action of a half-bridge change asks for its turn-on once the turn-off slew has ended and DEADTIME has
passed (05 R172, R629). -/
def askSecond (ch : Nat) (s : State) : State :=
  let c := s.chn ch
  match c.second with
  | none => s
  | some (a, d, cmd) =>
    if c.st ≠ .off ∨ s.clk < c.deadUntil then s
    else if s.hot ch then dropSecond ch .thermal s
    else
      let s1 := s.setChn ch { c with second := none }
      match ask { ch := ch, kind := .second, at_ := s.clk, duty := d, action := a, cmd := cmd } s1 with
      | (.admitted, s2) => s2
      | (.queued, s2) =>
        match cmd with
        | none => s2
        | some id => deferCmd id s2
      | (.refused, s2) => endOpt cmd .noShare s2

/-- The second actions that are due ask, in ascending CHAN order. -/
def askSeconds (s : State) : State := ((List.range 8).map (· + 0xC0)).foldl (fun s ch => askSecond ch s) s

/-- The Purse's evaluation of its queue: levels from PRIO 0 to PRIO 3, within a level in queue order (R185); the second
actions of half-bridge changes that are due arrive first. -/
def purseEval (s0 : State) : State :=
  let s := askSeconds s0
  let lvl := fun p => s.pur.queue.filter (fun r => s.prio r.ch == p)
  evalList (lvl 0 ++ lvl 1 ++ lvl 2 ++ lvl 3) [] s

end Sys2Proof.Machine
end

