-- ==== Sys2Proof/Machine/Pwr.lean ====
section
/-!
DEFINITION. Meanings of the PWR commands (05 R174) and of the load channels' events (05 R159 to R169, R629).
-/

namespace Sys2Proof.Machine

/-! ### Rights and checks of the group -/

/-- CHAN of parameter word 0. -/
def parCh (ps : List Word) : Nat := fld (par ps 0) 7 0

/-- The issuer owns the channel; an identifier that names none is left to check 11 (R138). -/
def ownsCh (t : Nat) (ps : List Word) (s : State) : Bool :=
  !chValid (parCh ps) || (s.chn (parCh ps)).owner == t

/-- The issuer is owner, reader or T0 (R139). -/
def readsCh (t : Nat) (ps : List Word) (s : State) : Bool :=
  !chValid (parCh ps) || t == 0 || (s.chn (parCh ps)).owner == t || bit (s.chn (parCh ps)).readers t

/-- Only T0 issues the opcode. -/
def onlyT0 (t : Nat) (_ : List Word) (_ : State) : Bool := t == 0

/-- Fails with BAD_PARAM unless a condition holds. -/
def need (ok : Bool) : Option Status := if ok then none else some .badParam

/-- A channel that may be named: it exists and is not the odd half of a pair (R174). -/
def chNamed (ch : Nat) (s : State) : Bool := chValid ch && !s.pairOdd ch

/-- The die of a channel takes no command that changes it (07 R210). -/
def State.dieBusy (s : State) (d : Nat) : Bool := (s.pdie d).yarrow || (s.pdie d).dead

/-- ACTION is one that the channel takes (R170, R171, R174). -/
def actionOk (ch a : Nat) (s : State) : Bool :=
  if chClass ch ≠ 3 then decide (a ≤ 1)
  else if s.paired ch then a == 0 || a == 3 || a == 4 || a == 5
  else decide (a ≤ 2)

/-- A tenant exists, and so does every tenant of a reader mask (04 R628). -/
def tenantsOk (owner : Nat) (mask : Word) (s : State) : Bool :=
  s.exists owner && (setBits 32 mask.toNat).all s.exists

/-- UNCONF, OFF or LATCHED. -/
def ChState.idle : ChState → Bool
  | .unconf => true | .off => true | .latched => true | _ => false

/-- Closes a duty increase that waits in the Purse (R174). -/
def closeDuty (ch : Nat) (s : State) : State :=
  if (s.req? ch).any (fun r => r.kind == ReqKind.duty) then withdraw ch .flushed s else s

/-! ### PWR_CONFIG -/

/-- Stores a parameter block (R145): it governs from the next turn-on, RETRY_LEFT is reloaded, UNCONF becomes OFF; a
duty increase that waits is closed (R174), and OLTH 0 clears OLON (R165). -/
def storeBlock (ch : Nat) (ps : List Word) (s : State) : State :=
  let s1 := closeDuty ch s
  let s2 := (s1.thetaNow ch).thetaNow (ch + 1)
  withDiag ch (fun x =>
    let c := x.chn ch
    let c1 := { c with block := some ps }
    x.setChn ch { c1.reload with st := if c.st = .unconf then .off else c.st,
                                 olon := c.olon && c1.olth != 0 }) s2

def pwrConfigExec (c : Cmd) (s : State) : Ans :=
  let ch := parCh c.params
  let blk : Chan := { block := some c.params }
  let mate := (s.chn (ch + 1)).st
  if s.dieBusy (chDie ch) || !(s.chn ch).st.idle then .fail .busy s
  else if blk.pairFlag && !(mate == .unconf || mate == .off) then .fail .busy s
  else .okay (storeBlock ch c.params s)

/-- CHECK first, then ranges; the odd half of an existing pair takes no block (R145). -/
def pwrConfigParm (_ : Nat) (ps : List Word) (s : State) : Option Status :=
  if !blockCheckOk ps then some .badCheck
  else need (blockRangeOk ps && !s.pairOdd (parCh ps))

def pwrConfigSpec : OpSpec :=
  { opcode := 0x1001, plen := (· == 8), right := ownsCh, parm := pwrConfigParm, exec := pwrConfigExec }

/-! ### Reads and assignment -/

def pwrReadConfigSpec : OpSpec :=
  { opcode := 0x1002, plen := (· == 1), right := readsCh
    parm := fun _ ps s => need (within (par ps 0) 0xFF && chNamed (parCh ps) s)
    exec := fun c s =>
      let ch := parCh c.params
      if (s.pdie (chDie ch)).dead then .fail .busy s
      else .done .ok (((s.chn ch).block).getD (List.replicate 8 0)) s }

def pwrAssignSpec : OpSpec :=
  { opcode := 0x1003, plen := (· == 2), right := onlyT0
    parm := fun _ ps s => need (within (par ps 0) 0x1FFF && chNamed (parCh ps) s && tenantsOk (fld (par ps 0) 12 8) (par ps 1) s)
    exec := fun c s =>
      let ch := parCh c.params
      if s.dieBusy (chDie ch) || !(s.chn ch).st.idle then .fail .busy s
      else .okay (s.setChn ch { s.chn ch with owner := fld (par c.params 0) 12 8, readers := par c.params 1 }) }

def pwrStatusSpec : OpSpec :=
  { opcode := 0x1020, plen := (· == 1), right := readsCh
    parm := fun _ ps s => need (within (par ps 0) 0xFF && chNamed (parCh ps) s)
    exec := fun c s =>
      let ch := parCh c.params
      if (s.pdie (chDie ch)).dead then .fail .busy s
      else .done .ok [s.chWord0 ch, s.chWord1 ch, s.chWord2 ch, s.chWord3 ch] s }

/-! ### Switching -/

/-- What a switching asked of a channel comes to. -/
inductive Switched where
  /-- Complete with this status. -/
  | now (st : Status)
  /-- Admitted; the command ends at the slew start. -/
  | later
  /-- Waits in the Purse. -/
  | queued
  deriving DecidableEq, Repr

/-- The outcome of a request made for a switching. -/
def askFor (r : PReq) (s : State) : Switched × State :=
  match ask r s with
  | (.admitted, s1) => (if r.kind = .duty then .now .ok else .later, s1)
  | (.queued, s1) => (.queued, s1)
  | (.refused, s1) => (.now .noShare, s1)

/-- Turns a channel that is on off: SLEW_OFF from now; a turn-off in SLEW_ON closes the window (R161), and its phase
group closes up (06 R190). -/
def beginOff (ch : Nat) (s : State) : State :=
  let c := s.chn ch
  let closed := decide (c.st = .slewOn)
  rephase ch (s.setChn ch { c with st := .slewOff, dutyNext := none, winOpen := c.winOpen && !closed,
                                   iinr := if closed then 0 else c.iinr, offAt := some s.clk })

/-- PWR_SWITCH off (R158): a pending turn-on and whatever waits in the Purse end with FLUSHED first (R629). -/
def switchOff (ch : Nat) (s : State) : Switched × State :=
  if s.dieBusy (chDie ch) || (s.chn ch).limp then (.now .busy, s)
  else
    let s1 := dropSecond ch .flushed (withdraw ch .flushed (dropPend ch .flushed s))
    let c := s1.chn ch
    match c.st with
    | .retryWait => (.now .ok, s1.setChn ch { c with st := .latched, asked := false })
    | .feedLost => (.now .ok, s1.setChn ch { c with st := .off })
    | .slewOn => (.now .ok, beginOff ch s1)
    | .inrush => (.now .ok, beginOff ch s1)
    | .on => (.now .ok, beginOff ch s1)
    | _ => (.now .ok, s1)

/-- The duty that the channel's bookings stand for: the duty in force, until the boundary of a decrease, or an increase
that has been admitted (06 R181). -/
def Chan.bookedDuty (c : Chan) : Nat := max c.duty (c.dutyNext.getD c.duty)

/-- A change of DUTY of a channel that is on (R149): an increase asks the Purse, a decrease takes effect at the next
period boundary and replaces an increase that waits (06 R186). -/
def changeDuty (ch duty : Nat) (cmd trig : Option Nat) (s : State) : Switched × State :=
  let c := s.chn ch
  if !c.pwmEn then (.now .ok, s)
  else if c.bookedDuty < duty then
    askFor { ch := ch, kind := .duty, at_ := s.clk, duty := duty, action := c.action, cmd := cmd, trig := trig } s
  else
    let s1 := withdraw ch .flushed s
    (.now .ok, rephase ch (s1.setChn ch { s1.chn ch with dutyNext := some duty, dutyDown := true }))

/-- A turn-on asked of a channel that is OFF (R158): a duty increase that waits is closed, but not when the command is
refused, which has no effect (06 R182). RETRY_LEFT is reloaded at the admission. -/
def askOn (r : PReq) (s0 s : State) : Switched × State :=
  match askFor r (closeDuty r.ch s) with
  | (.now st, _) => (.now st, s0)
  | x => x

/-- PWR_SWITCH with an action that is on (R158, R160, R172, R629). A DUTY that R149 does not allow ends with BAD_PARAM
before the state is looked at (DESIGN CHOICE, log 17). -/
def switchOn (ch action duty : Nat) (cmd trig : Option Nat) (s : State) : Switched × State :=
  let c := s.chn ch
  let r : PReq := { ch := ch, kind := .turnOn, at_ := s.clk, duty := duty, action := action, cmd := cmd, trig := trig }
  if c.block.isSome && s.dutyBad ch duty then (.now .badParam, s)
  else if s.dieBusy (chDie ch) || c.limp then (.now .busy, s)
  else match c.st with
  | .unconf => (.now .busy, s)
  | .latched => (.now (if s.hot ch then .thermal else .busy), s)
  | .retryWait => (.now (if s.hot ch then .thermal else .busy), s)
  | .feedLost => (.now .ok, s)
  | .off =>
    if c.pend.any (fun p => chClass ch != 3 || p.action == action) then (.now .busy, s)
    else if c.second.any (fun x => x.1 == action) then (.now .busy, s)
    else
      let s1 := dropSecond ch .flushed (dropPend ch .flushed s)
      let c1 := s1.chn ch
      let waits := match s1.req? ch with
        | some q => q.kind != .duty && (trig.isNone || q.trig != trig)
        | none => false
      if s1.hot ch then (.now .thermal, s1)
      else if waits || c1.storedBad || s.chOut ch then (.now .busy, s1)
      else askOn r s s1
  | .slewOff =>
    if c.pend.any (fun p => chClass ch != 3 || p.action == action) then (.now .busy, s)
    else if c.second.any (fun x => x.1 == action) then (.now .busy, s)
    else
      let s1 := dropSecond ch .flushed (dropPend ch .flushed s)
      let c1 := s1.chn ch
      if chClass ch = 3 ∧ c1.action ≠ action then
        (.later, s1.setChn ch { c1 with second := some (action, duty, cmd) })
      else if s1.hot ch then (.now .thermal, s1)
      else if (s1.req? ch).isSome then (.now .busy, s1)
      else askFor { r with kind := .reversal, commanded := false } s1
  | _ =>
    if chClass ch = 3 ∧ c.action ≠ action then
      let s1 := beginOff ch (withdraw ch .flushed s)
      (.later, s1.setChn ch { s1.chn ch with second := some (action, duty, cmd) })
    else changeDuty ch duty cmd trig s

/-- PWR_SWITCH of a channel by a command or a trigger firing. The DUTY of a turn-off is not looked at (DESIGN CHOICE, log
17: R149 speaks of the duty of a channel that is on). -/
def switchCh (ch action duty : Nat) (cmd trig : Option Nat) (s : State) : Switched × State :=
  if action = 0 then switchOff ch s else switchOn ch action duty cmd trig s

/-- The answer of a command of tenant t to a switching of the state s (R174: every final reply carries status word 0).
Under PROFILE 1 one that the Purse would defer ends with BUSY and leaves the channel unchanged. -/
def switchAns (t ch : Nat) (s : State) (x : Switched × State) : Ans :=
  match x.1 with
  | .now st => .done st [x.2.chWord0 ch] x.2
  | .later => .ongoing x.2
  | .queued => if (s.tenant t).profile = 1 then .done .busy [s.chWord0 ch] s else .defer x.2

/-- The owner's PURSE share is not 0 (06 R180). -/
def hasPurse (ch : Nat) (s : State) : Bool := (s.tenant (s.chn ch).owner).purse != 0

/-- PWR_SWITCH on needs the Purse, but for a reversal, which is never refused for the share, and for an action in force
at a duty that is no increase (06 R180). -/
def pwrSwitchShare (_ : Nat) (ps : List Word) (s : State) : Bool :=
  let ch := parCh ps
  let a := fld (par ps 0) 10 8
  let c := s.chn ch
  a == 0 || !chValid ch || hasPurse ch s ||
    (c.action == a && (c.st == .slewOff || (c.st.isOn && decide (fld (par ps 1) 9 0 ≤ c.bookedDuty))))

/-- Only a duty increase needs the Purse (06 R180). -/
def pwrDutyShare (_ : Nat) (ps : List Word) (s : State) : Bool :=
  let ch := parCh ps
  !chValid ch || hasPurse ch s || decide (fld (par ps 1) 9 0 ≤ (s.chn ch).bookedDuty)

def dutyParm (ps : List Word) : Bool := within (par ps 1) 0x3FF && decide (fld (par ps 1) 9 0 ≤ 1000)

def pwrSwitchSpec : OpSpec :=
  { opcode := 0x1010, plen := (· == 2), right := ownsCh, share := pwrSwitchShare
    parm := fun _ ps s => need (within (par ps 0) 0x7FF && chNamed (parCh ps) s && dutyParm ps &&
      actionOk (parCh ps) (fld (par ps 0) 10 8) s)
    exec := fun c s =>
      let ch := parCh c.params
      switchAns c.tenant ch s (switchCh ch (fld (par c.params 0) 10 8) (fld (par c.params 1) 9 0) (some c.id) none s) }

/-- PWR_DUTY (R149, R174). A DUTY that R149 refuses ends with BAD_PARAM before the state is looked at, so that a channel that
is not on answers BAD_PARAM and not BUSY (DESIGN CHOICE, log 17: the rules state both and no order). -/
def pwrDutySpec : OpSpec :=
  { opcode := 0x1011, plen := (· == 2), right := ownsCh, share := pwrDutyShare
    parm := fun _ ps s => need (within (par ps 0) 0xFF && chNamed (parCh ps) s && dutyParm ps)
    exec := fun c s =>
      let ch := parCh c.params
      let duty := fld (par c.params 1) 9 0
      if (s.chn ch).block.isSome && s.dutyBad ch duty then .done .badParam [s.chWord0 ch] s
      else if s.dieBusy (chDie ch) || (s.chn ch).limp || !(s.chn ch).st.isOn then .done .busy [s.chWord0 ch] s
      else switchAns c.tenant ch s (changeDuty ch duty (some c.id) none s) }

/-- PWR_CLEAR (R158): a latched or waiting channel becomes OFF, its retry cancelled, or UNCONF where it has no block
(DEDUCED, log 19); RETRY_LEFT is reloaded, and a duty increase that waits for a channel that is not on is closed (R174).
In the states for which R158 says 'no effect' an OK reloads nothing, though R164 says it of every OK (DESIGN CHOICE, log
17). -/
def clearCh (ch : Nat) (s : State) : Status × State :=
  let c := s.chn ch
  if s.dieBusy (chDie ch) || c.limp then (.busy, s)
  else match c.st with
  | .off =>
    let s1 := closeDuty ch s
    (.ok, s1.setChn ch { (s1.chn ch).reload with clrAt := some s.clk })
  | .latched | .retryWait =>
    if s.hot ch then (.thermal, s)
    else if c.wireLatch then (.busy, s)
    else
      let s1 := withdraw ch .flushed (dropPend ch .flushed s)
      (.ok, s1.setChn ch { (s1.chn ch).reload with st := if c.block.isSome then .off else .unconf, asked := false
                                                   clrAt := some s.clk })
  | .feedLost | .slewOff =>
    let s1 := closeDuty ch s
    (.ok, s1.setChn ch { s1.chn ch with clrAt := some s.clk })
  | _ => (.ok, s.setChn ch { c with clrAt := some s.clk })

def pwrClearSpec : OpSpec :=
  { opcode := 0x1012, plen := (· == 1), right := ownsCh
    parm := fun _ ps s => need (within (par ps 0) 0xFF && chNamed (parCh ps) s)
    exec := fun c s =>
      let ch := parCh c.params
      let x := clearCh ch s
      .done x.1 [x.2.chWord0 ch] x.2 }

/-! ### Events of a channel -/

/-- A step of the module that happens only while its condition holds; else the command only passes its time (DESIGN
CHOICE, log 1). -/
def event (e : Stim) (s : State) (cond : State → Bool) (f : State → State) : Host.Outcome State Fault Refusal :=
  let s1 := s.advance e
  .next (if cond s1 then f s1 else s1)

/-- A pending turn-on starts its slew (R629): a retry takes one of RETRY_LEFT and posts PWR_RETRY (R163); the command
ends with OK. -/
def slewStartStep (ch : Nat) (s : State) : State :=
  match (s.chn ch).pend with
  | none => s
  | some p =>
    let s1 := slewStart ch p.duty p.action s
    let s2 := if p.kind = .retry then
        let c := s1.chn ch
        let s2 := s1.setChn ch { c with retryLeft := c.retryLeft - 1 }
        noticeAll (s2.chAudience ch) 0x1002 [s2.chWord0 ch] s2
      else s1
    endOpt p.cmd .ok s2

/-- SLEW_START (R148, R154, R629). -/
def execSlewStart (e : Stim) (ch : Nat) (s : State) : Host.Outcome State Fault Refusal :=
  event e s (fun s => chValid ch && !s.hot ch && (s.chn ch).pend.any (fun p => s.deadOk ch p.action)) (slewStartStep ch)

/-- A turn-off that was executed in SLEW_ON in this controller cycle: a slew end of the cycle comes before it (R162). -/
def State.offLate (s : State) (ch : Nat) : Bool :=
  let c := s.chn ch
  c.st == .slewOff && c.offAt.any (sameCycle s.clk) && !c.winOpen && decide (s.clk < c.winEnd)

/-- TURN_ON_SLEW_END (R159); a turn-off of the same cycle then meets INRUSH, whose window stays open (R161, R162). -/
def execTurnOnSlewEnd (e : Stim) (ch : Nat) (s : State) : Host.Outcome State Fault Refusal :=
  event e s (fun s => (s.chn ch).st == .slewOn || s.offLate ch) (fun s =>
    let c := s.chn ch
    s.setChn ch (if c.st = .slewOff then { c with winOpen := true, iinr := c.ipeak }
      else if c.winOpen then { c with st := .inrush } else { c with st := .on, onSince := s.clk }))

/-- TURN_OFF_SLEW_END (R159, 06 R181); the second action of a half-bridge change waits for DEADTIME (R172). -/
def execTurnOffSlewEnd (e : Stim) (ch : Nat) (s : State) : Host.Outcome State Fault Refusal :=
  event e s (fun s => (s.chn ch).st == .slewOff) (fun s =>
    limpPump (chDie ch) (clearAfter ch (goneOff ch s)))

/-- INRUSH_WINDOW_END (R151, R159): the window closes at its end and not before; IINR is released. -/
def execInrushWindowEnd (e : Stim) (ch : Nat) (s : State) : Host.Outcome State Fault Refusal :=
  event e s (fun s => (s.chn ch).winOpen && decide ((s.chn ch).winEnd ≤ s.clk)) (fun s =>
    let c := s.chn ch
    let keep := c.pend.isSome
    let c1 := { c with winOpen := false, iinr := if keep then c.iinr else 0 }
    limpPump (chDie ch) (s.setChn ch (if c.st = .inrush then { c1 with st := .on, onSince := s.clk } else c1)))

/-- The switch conducts or slews, so that a trip of any cause takes it (R159). -/
def Chan.tripsAny (c : Chan) : Bool := c.st.isOn || c.st == .slewOff

/-- A trip of any cause takes the channel: it conducts or slews, or in this controller cycle it has tripped, or has gone
off or lost its feed, which trips come before (R162). -/
def State.tripTakes (s : State) (ch : Nat) : Bool :=
  (s.chn ch).tripsAny || (s.chn ch).trippedAt s.clk || (s.chn ch).onTill.any (sameCycle s.clk)

/-- The blanking count has reached BLANK (R152). -/
def Chan.ocDue (c : Chan) : Bool := decide (c.blank * 10000 ≤ c.meter.oc)

/-- OVERCURRENT_TRIP (R152). -/
def execOvercurrentTrip (e : Stim) (ch : Nat) (s : State) : Host.Outcome State Fault Refusal :=
  event e s (fun s => chValid ch && s.tripTakes ch && (s.chn ch).ocDue) (trip cOC ch)

/-- SHORT_CIRCUIT_TRIP (R153): either half of a pair trips the bridge. -/
def execShortCircuitTrip (e : Stim) (ch : Nat) (s : State) : Host.Outcome State Fault Refusal :=
  event e s (fun s => chValid ch && s.tripTakes (s.bridgeOf ch)) (fun s => trip cSHORT (s.bridgeOf ch) s)

/-- PWR_DIAG of a bridge, and of its odd half where that is the one that changes (R176). -/
def withDiags (m ch : Nat) (f : State → State) : State → State :=
  if m = ch then withDiag m f else withDiag ch (withDiag m f)

/-- The latch of a switch of the channel: a half-bridge's lower switch, or the other (R154). -/
def Chan.setLatch (c : Chan) (low b : Bool) : Chan := if low then { c with tlatchLow := b } else { c with tlatch := b }

def Chan.latchOf (c : Chan) (low : Bool) : Bool := if low then c.tlatchLow else c.tlatch

/-- The switch exists: only a half-bridge has a lower one (R137). -/
def switchOk (ch : Nat) (low : Bool) : Bool := chValid ch && (!low || chClass ch == 3)

/-- The thermal latch of a switch sets (R154, R163, R629): a channel that is on trips, a pair by either half; a pending
turn-on, or a second action that waits for DEADTIME, ends with THERMAL; a retry or feed-return request that waits is
withdrawn, to be made again after release. In LIMP the class-A window of the turn-on it drops is free (07 R213). -/
def thermalSet (ch : Nat) (low : Bool) (s : State) : State :=
  let m := s.bridgeOf ch
  withDiags m ch (fun s =>
    let s1 := s.setChn ch ((s.chn ch).setLatch low true)
    if s1.tripTakes m then trip cTHERMAL m s1
    else
      let s2 := dropSecond m .thermal (dropPend m .thermal s1)
      match s2.req? m with
      | some r => if r.commanded then s2 else withdraw m .thermal s2
      | none => limpPump (chDie m) s2) s

/-- THERMAL_LATCH_SET (R154). -/
def execThermalLatchSet (e : Stim) (sw : SwitchRef) (s : State) : Host.Outcome State Fault Refusal :=
  event e s (fun s => switchOk sw.ch sw.low && !(s.chn sw.ch).latchOf sw.low) (thermalSet sw.ch sw.low)

/-- A FEEDLOST channel asks for its turn-on once the feed has returned and the latch has released (R169); in LIMP only
while the policy in force asks for it on, else it is off (07 R214). -/
def feedReturnOne (ch : Nat) (s : State) : State :=
  let c := s.chn ch
  if c.st = .feedLost ∧ s.hot ch = false ∧ c.asked = false ∧ (s.pdie (chDie ch)).feedLoss = false then
    if c.limp && !c.polOn then s.setChn ch { c with st := .off } else autoOn .feedReturn ch s
  else s

/-- The thermal latch of a switch releases (R154, R159): a feed return goes on; a retry does at RETRY_DUE. -/
def thermalRelease (ch : Nat) (low : Bool) (s : State) : State :=
  let m := s.bridgeOf ch
  limpPump (chDie ch) (feedReturnOne m (withDiags m ch (fun s => s.setChn ch ((s.chn ch).setLatch low false)) s))

/-- THERMAL_LATCH_RELEASE (R154). -/
def execThermalLatchRelease (e : Stim) (sw : SwitchRef) (s : State) : Host.Outcome State Fault Refusal :=
  event e s (fun s => switchOk sw.ch sw.low && (s.chn sw.ch).latchOf sw.low) (thermalRelease sw.ch sw.low)

/-- WIRE_TRIP (06 R192): theta has reached DTMAX; the channel trips whatever its state and latches. -/
def execWireTrip (e : Stim) (ch : Nat) (s : State) : Host.Outcome State Fault Refusal :=
  event e s (fun s => chValid ch && !(s.chn ch).wireLatch && (s.thetaNow ch).thetaMax ch) (fun s =>
    let s1 := s.thetaNow ch
    trip cWIRE ch (s1.setChn ch { s1.chn ch with wireLatch := true }))

/-- WIRE_LATCH_RELEASE (06 R192). -/
def execWireLatchRelease (e : Stim) (ch : Nat) (s : State) : Host.Outcome State Fault Refusal :=
  event e s (fun s => (s.chn ch).wireLatch && (s.thetaNow ch).thetaHalf ch) (fun s =>
    let s1 := s.thetaNow ch
    s1.setChn ch { s1.chn ch with wireLatch := false })

/-- The condition of REVCUR has held for its time: current into the feed for BLANK while on, the output above the feed
by VREV for 100 µs in OFF (R167). -/
def Chan.revDue (c : Chan) (clk : Nat) : Bool :=
  if c.st.isOn || c.wentOff clk then decide (1 ≤ c.blank) && decide (c.blank * 10000 ≤ c.meter.rev)
  else c.st == .off && !c.limp && decide (100000 ≤ c.meter.vrev)

/-- REVERSE_CURRENT (R167): REVCUR sets when its condition has held for its time, and a channel that is on then trips
with REVACT, one that tripped in this cycle taking the cause too (R162); it clears after 10 ms without the condition. -/
def execReverseCurrent (e : Stim) (ch : Nat) (present : Bool) (s : State) : Host.Outcome State Fault Refusal :=
  event e s (fun s => chValid ch &&
      (if present then (s.chn ch).revDue s.clk else decide (10000000 ≤ (s.chn ch).meter.clear))) (fun s =>
    withDiag ch (fun s =>
      let s1 := s.setChn ch { s.chn ch with revcur := present }
      if present && ((s1.chn ch).st.isOn || (s1.chn ch).wentOff s.clk) && (s1.chn ch).revAct then trip cREVERSE ch s1 else s1) s)

/-- DRIVER_FAULT (R168): in any state, of either half of a pair; FAULT_N's DRIVER cause is latched. -/
def execDriverFault (e : Stim) (ch : Nat) (s : State) : Host.Outcome State Fault Refusal :=
  event e s (fun _ => chValid ch) (fun s => latchFault 3 (trip cDRIVER (s.bridgeOf ch) s))

/-- BLOCK_CHECK (R146, 06 R197): the die reads a stored block back; one that fails its CHECK latches the channel with
cause CONFIG. A pair's odd half is ignored, yet its stored block is verified as any other's, and a failure latches the odd
channel and not the bridge (DESIGN CHOICE, log 17: R146 does not say whether 'ignored' ends the check). -/
def execBlockCheck (e : Stim) (ch : Nat) (wire : Bool) (found : List Word) (s : State) :
    Host.Outcome State Fault Refusal :=
  event e s (fun s => chValid ch && (if wire then true else (s.chn ch).block.isSome)) (fun s =>
    let c := s.chn ch
    let c1 := if wire then { c with wire := some (wordsOf 4 (wordBytes found)) }
      else { c with block := some (wordsOf 8 (wordBytes found)) }
    let s1 := s.setChn ch c1
    if !c1.storedBad ∨ (c.st = .latched ∧ c.cause.testBit 6) then s1 else trip cCONFIG ch s1)

/-- RETRY_DUE (R163): RETRY_INT has elapsed from the trip and the thermal latch is clear. -/
def execRetryDue (e : Stim) (ch : Nat) (s : State) : Host.Outcome State Fault Refusal :=
  event e s (fun s =>
    let c := s.chn ch
    c.st == .retryWait && !s.hot ch && !c.asked && c.pend.isNone && decide (c.tripAt + c.retryInt * 1000000 ≤ s.clk))
    (autoOn .retry ch)

/-- ON_STABLE_RELOAD (R164): the channel's state has been ON, not LIMP, for 1 s. -/
def execOnStableReload (e : Stim) (ch : Nat) (s : State) : Host.Outcome State Fault Refusal :=
  event e s (fun s => (s.chn ch).st == .on && !(s.chn ch).limp && decide ((s.chn ch).onSince + 1000000000 ≤ s.clk)) (fun s =>
    s.setChn ch (s.chn ch).reload)

/-- OPEN_LOAD_COUNT (R165): 10 ms of on-phase below, or at and above, OLTH. -/
def execOpenLoadCount (e : Stim) (ch : Nat) (below : Bool) (s : State) : Host.Outcome State Fault Refusal :=
  event e s (fun s =>
    let c := s.chn ch
    c.st == .on && !c.limp && c.olth != 0 && decide (10000000 ≤ if below then c.meter.low else c.meter.high))
    (withDiag ch (fun s => s.setChn ch { s.chn ch with olon := below }))

/-- OFF_STATE_CYCLE (R166): a cycle ends, with the output against VOLD after IPU applied for 1 ms and after it removed for
1 ms, both in the channel's present off state. Cycles end 10 ms apart or more (DEDUCED, log 17). -/
def execOffStateCycle (e : Stim) (ch : Nat) (aboveIpu aboveNone : Bool) (s : State) :
    Host.Outcome State Fault Refusal :=
  event e s (fun s =>
    let c := s.chn ch
    s.offCycles ch c && decide (2000000 ≤ c.meter.off) && decide (c.meter.cyc + 10000000 ≤ s.clk))
    (withDiag ch (fun s =>
      let c := s.chn ch
      s.setChn ch { c with stb := aboveIpu && aboveNone, oloff := aboveIpu && !aboveNone,
                           meter := { c.meter with cyc := s.clk } }))

/-- A PWM period ends at clk, to the nanosecond, and the period of the turn-on has begun before (R149). -/
def Chan.atBoundary (c : Chan) (clk : Nat) : Bool :=
  decide (c.pwmFrom ≤ clk) && decide (c.pwmAge clk % 10 ^ 9 < c.pwmFreq) && clk != c.winEnd - c.inrWin * 100000

/-- A period boundary (R149, 06 R181, R190): a new duty takes effect, a decrease is released, and the next on-phase
starts at the channel's new offset, the off-phase before it lengthened. PDIS takes the feed voltage at the boundary (DESIGN
CHOICE, log 18: R179 names it for an admission). A sourcing half that changes switches there leaves DEADTIME (R170). -/
def pwmBoundary (ch : Nat) (s : State) : State :=
  let c := s.chn ch
  let d := c.dutyNext.getD c.duty
  let sh := c.shift s.clk
  let held := (c.duty = 0 ∧ d ≠ 0) ∨ (c.duty ≠ 0 ∧ (d = 0 ∨ sh ≠ 0))
  let c1 := { c with duty := d, dutyNext := none, dutyDown := false, pwmOff := c.pwmOffNext
                     legTill := if held then s.clk + c.dead * 100 else c.legTill
                     pwmFrom := if sh = 0 then c.pwmFrom else s.clk + sh }
  s.setChn ch (if c.limp ∨ c.dutyNext = none ∨ c.dutyDown = false then c1
    else { c1 with icont := c1.icontAt d, pdis := s.pdisAt ch d })

/-- PWM_PERIOD_BOUNDARY (R149). -/
def execPwmPeriodBoundary (e : Stim) (ch : Nat) (s : State) : Host.Outcome State Fault Refusal :=
  event e s (fun s => (s.chn ch).st.isOn && (s.chn ch).pwmEn && (s.chn ch).atBoundary s.clk) (pwmBoundary ch)

/-- Tenants that hear of a feed change of a die: T0 and the owners of its channels (06 R200). -/
def State.feedAudience (s : State) (d : Nat) : List Nat := 0 :: (dieChans d).map (fun c => (s.chn c).owner)

/-- The feed voltage of a die in units of 10 mV, rounded (06 R204). -/
def State.vfeed10 (s : State) (d : Nat) : Nat := (s.vfeed d * 2 + 10) / 20

/-- FLOST of a feed changes and PUR_FEED is posted (06 R198 to R200). -/
def setFlost (d : Nat) (b : Bool) (s : State) : State :=
  let s1 := { s with pur := if d = 0 then { s.pur with flostA := b } else { s.pur with flostB := b } }
  noticeAll (s1.feedAudience d) 0x1102 [wd (d + b2n b * 256), wd (s1.vfeed10 d % 2 ^ 16)] s1

/-- A PWR_SWITCH on that was executed in OFF in the controller cycle of the loss of its feed comes after it, and waits in
the Purse (R158, R162, 06 R182). -/
def requeueOn (ch : Nat) (s : State) : State :=
  let c := s.chn ch
  match c.pend with
  | none => s
  | some p =>
    if c.st = .off ∧ p.kind = .turnOn ∧ c.limp = false ∧ sameCycle p.at_ s.clk then
      let s1 := s.setChn ch { c with pend := none, icont := 0, iinr := 0, pdis := 0, retryLeft := p.left.getD c.retryLeft }
      let q := queueReq { ch := ch, kind := .turnOn, at_ := p.at_, duty := p.duty, action := p.action, cmd := p.cmd } s1
      match p.cmd.bind s.cmd? with
      | none => q
      | some x => deferCmd x.id (if (s.tenant x.tenant).profile = 1 then s1 else q)
    else s

/-- One channel at the loss of its feed (R159, R169, R629): a pending turn-on is withdrawn, a channel that is on becomes
FEEDLOST, one turning off is OFF, and every booking is released. -/
def feedLossOne (ch : Nat) (s0 : State) : State :=
  let s := requeueOn ch s0
  dropOn ch .flushed (fun s =>
    let c := s.chn ch
    let st : ChState := if c.st.isOn then .feedLost else if c.st = .slewOff then .off else c.st
    let gone := c.st.isOn || c.st == .slewOff
    rephase ch (s.setChn ch { c with st := st, winOpen := false, icont := 0, iinr := 0, pdis := 0, dutyNext := none
                                     onTill := if gone then some s.clk else c.onTill
                                     deadUntil := if gone then s.clk + c.dead * 100 else c.deadUntil })) s

/-- PWR_DIAG for every channel of a die whose FEEDLOSS bit has changed. -/
def diagDie (d : Nat) (s : State) : State :=
  (dieChans d).foldl (fun s ch => noticeAll (s.chAudience ch) 0x1003 [wd ch, s.chWord1 ch] s) s

/-- FEED_LOSS (R169, 06 R198); in LIMP a channel whose turn-on it drops waits as FEEDLOST, if its policy asks it on (07 R213,
R214). -/
def execFeedLoss (e : Stim) (die : Nat) (s : State) : Host.Outcome State Fault Refusal :=
  event e s (fun s => decide (die < 2) && !(s.pdie die).feedLoss && decide (20000 ≤ (s.pdie die).feedLow)) (fun s =>
    let s1 := (dieChans die).foldl (fun s c => feedLossOne c s) (s.setPdie die { s.pdie die with feedLoss := true })
    limpPump die (diagDie die (setFlost die true s1)))

/-- FEED_RETURN (R169, 06 R199): FLOST clears and the FEEDLOST channels ask in ascending order. -/
def execFeedReturn (e : Stim) (die : Nat) (s : State) : Host.Outcome State Fault Refusal :=
  event e s (fun s => decide (die < 2) && (s.pdie die).feedLoss && decide (1000000 ≤ (s.pdie die).feedHigh)) (fun s =>
    let s1 := diagDie die (setFlost die false (s.setPdie die { s.pdie die with feedLoss := false }))
    (dieChans die).foldl (fun s c => feedReturnOne c s) s1)

end Sys2Proof.Machine
end

