-- ==== Sys2Proof/Machine/Pur.lean ====
section
/-!
DEFINITION. Meanings of the PUR commands (06 R202) and of the Purse's events.
-/

namespace Sys2Proof.Machine

/-! ### PUR_WIRE and the reads -/

/-- A new wire block governs at once; theta keeps its value, and a WIRE latch is released at once when theta is at most
half of the new DTMAX (R197). -/
def storeWire (ch : Nat) (ps : List Word) (s : State) : State :=
  let s1 := s.thetaNow ch
  let s2 := s1.setChn ch { s1.chn ch with wire := some ps }
  let c := s2.chn ch
  s2.setChn ch { c with wireLatch := c.wireLatch && !s2.thetaHalf ch }

def purWireSpec : OpSpec :=
  { opcode := 0x1101, plen := (· == 4), right := onlyT0
    parm := fun _ ps _ => if !wireCheckOk ps then some .badCheck else need (wireRangeOk ps)
    exec := fun c s =>
      let ch := parCh c.params
      if s.dieBusy (chDie ch) || !(s.chn ch).st.idle then .fail .busy s else .okay (storeWire ch c.params s) }

def purReadWireSpec : OpSpec :=
  { opcode := 0x1102, plen := (· == 1), right := readsCh
    parm := fun _ ps _ => need (within (par ps 0) 0xFF && chValid (parCh ps))
    exec := fun c s =>
      let ch := parCh c.params
      if (s.pdie (chDie ch)).dead then .fail .busy s else .done .ok (s.wireBlk ch) s }

/-! ### PUR_STATUS and PUR_CHANNEL -/

/-- A value that does not fit its 16-bit field reads as the field's largest. -/
def cap16 (n : Nat) : Nat := min n 0xFFFF

/-- The six words of R204. -/
def State.purWords (s : State) : List Word :=
  let icA := s.sumCh (dieChans 0) (·.icont)
  let icB := s.sumCh (dieChans 1) (·.icont)
  let dis := fun d => ceilDiv (s.sumCh (dieChans d) (·.pdis)) 10
  let inr := fun d => s.sumCh (dieChans d) (·.iinr)
  let win := (List.range 8).any (fun c => (s.chn c).winAt s.clk)
  [ wd (cap16 icB * 2 ^ 16 + cap16 icA),
    wd (s.pur.capMod * 2 ^ 16 + cap16 (icA + icB)),
    wd (cap16 (dis 1) * 2 ^ 16 + cap16 (dis 0)),
    wd (cap16 (inr 1) * 2 ^ 16 + cap16 (inr 0)),
    wd (b2n s.pur.flostB * 2 ^ 21 + b2n s.pur.flostA * 2 ^ 20 + b2n win * 2 ^ 19 + b2n s.pur.blockB * 2 ^ 18 +
      b2n s.pur.blockA * 2 ^ 17 + s.pur.queue.length % 2 ^ 7),
    wd (cap16 (s.vfeed10 1) * 2 ^ 16 + cap16 (s.vfeed10 0)) ]

def purStatusSpec : OpSpec :=
  { opcode := 0x1110, plen := (· == 0), exec := fun _ s => .done .ok s.purWords s }

/-- PUR_STATUS (R204). -/
def execPurStatus (e : Stim) (r : Req) (s : State) : Host.Outcome State Fault Refusal :=
  .next (submit purStatusSpec r (s.advance e))

/-- theta rounded up to units of 0.01 K, in 16 bits. -/
def thetaWord (th : Rat) : Nat := cap16 ((th * 100).ceil).toNat

/-- The three words of R205. WAITED counts whole milliseconds, a part of one cut off: R204 names no times (DESIGN CHOICE, log
18). -/
def State.purChWords (s : State) (ch : Nat) : List Word :=
  let c := s.chn ch
  let waited := match s.req? ch with
    | some r => cap16 ((s.clk - r.at_) / 1000000)
    | none => 0
  [ wd (ch * 2 ^ 24 + s.prio ch * 2 ^ 16 + c.icont),
    wd (c.iinr * 2 ^ 16 + cap16 c.pdis),
    wd (waited * 2 ^ 16 + thetaWord c.theta) ]

def purChannelSpec : OpSpec :=
  { opcode := 0x1111, plen := (· == 1), right := readsCh
    parm := fun _ ps _ => need (within (par ps 0) 0xFF && chValid (parCh ps))
    exec := fun c s =>
      let ch := parCh c.params
      if (s.pdie (chDie ch)).dead then .fail .busy s
      else
        let s1 := s.thetaNow ch
        .done .ok (s1.purChWords ch) s1 }

/-! ### PUR_LIMITS -/

def purLimitsSpec : OpSpec :=
  { opcode := 0x1120, plen := (· == 4), right := onlyT0
    parm := fun _ ps _ =>
      let hi := fun i => fld (par ps i) 31 16
      let lo := fun i => fld (par ps i) 15 0
      need (decide (hi 0 ≤ 12000) && decide (lo 0 ≤ 12000) && hi 1 == 0 && decide (lo 1 ≤ 18000) &&
        decide (hi 2 ≤ 1800) && decide (lo 2 ≤ 1800) && decide (hi 3 ≤ 36000) && decide (lo 3 ≤ 36000))
    exec := fun c s =>
      let hi := fun i => fld (par c.params i) 31 16
      let lo := fun i => fld (par c.params i) 15 0
      .okay { s with pur := { s.pur with capFeedA := lo 0, capFeedB := hi 0, capMod := lo 1, capDisA := lo 2,
                                         capDisB := hi 2, capInrA := lo 3, capInrB := hi 3 } } }

/-- PUR_LIMITS (R203). -/
def execPurLimits (e : Stim) (r : Req) (s : State) : Host.Outcome State Fault Refusal :=
  .next (submit purLimitsSpec r (s.advance e))

/-! ### Events -/

/-- PURSE_EVALUATION (R185). -/
def execPurseEvaluation (e : Stim) (s : State) : Host.Outcome State Fault Refusal :=
  .next (purseEval (s.advance e))

/-- FEED_BLOCKED (R185, R204): a request of the die has waited 50 ms and does not fit. -/
def execFeedBlocked (e : Stim) (die : Nat) (s : State) : Host.Outcome State Fault Refusal :=
  event e s (fun s => decide (die < 2) && s.pur.queue.any (fun r =>
      chDie r.ch == die && decide (50000000 ≤ s.clk - r.at_) && fits r s == .wait))
    (fun s => { s with pur := if die = 0 then { s.pur with blockA := true } else { s.pur with blockB := true } })

/-- A window's samples against ICONT (R188): their sum in mA and their number. -/
def overdraw (ch : Nat) (w : Int × Nat) (s : State) : State :=
  let c := s.chn ch
  let n : Int := w.2
  if (c.icont * 50 + 400) * n < 4 * w.1 then
    if c.drawn then s
    else
      noticeAll (s.chAudience ch) 0x1101 [wd ch, wd (cap16 ((w.1 * 2 + 10 * n) / (20 * n)).toNat * 2 ^ 16 + cap16 c.icont)]
        (s.setChn ch { c with drawn := true })
  else if w.1 ≤ c.icont * 10 * n then s.setChn ch { c with drawn := false }
  else s

/-- The oldest window of a channel that has ended is evaluated (R188). -/
def overdrawNext (ch : Nat) (s : State) : State :=
  let c := s.chn ch
  match c.meter.done with
  | [] => s
  | w :: ws => overdraw ch w (s.setChn ch { c with meter := { c.meter with done := ws } })

/-- The n oldest windows of a channel that have ended are evaluated, in their order (R188). -/
def overdrawRun (ch : Nat) : Nat → State → State
  | 0, s => s
  | n + 1, s => overdrawRun ch n (overdrawNext ch s)

/-- OVERDRAW_WINDOW_END (R188): the n oldest windows that have ended. -/
def execOverdrawWindowEnd (e : Stim) (ch n : Nat) (s : State) : Host.Outcome State Fault Refusal :=
  event e s (fun s => chValid ch && decide (0 < n) && decide (n ≤ (s.chn ch).meter.done.length)) (overdrawRun ch n)

end Sys2Proof.Machine
end

