-- ==== Sys2Proof/Machine/Fio.lean ====
section
/-!
DEFINITION. Meanings of the FIO commands (08 R254) and of the field inputs' and field outputs' events.
-/

namespace Sys2Proof.Machine

/-! ### Objects -/

/-- Field input i. -/
def State.fin (s : State) (i : Nat) : FieldIn := look {} s.fio.fi i

/-- The state with a field input set. -/
def State.setFin (s : State) (i : Nat) (x : FieldIn) : State := { s with fio := { s.fio with fi := put s.fio.fi i x } }

/-- Analogue input i. -/
def State.ain (s : State) (i : Nat) : AnaIn := look {} s.fio.ai i

/-- The state with an analogue input set. -/
def State.setAin (s : State) (i : Nat) (x : AnaIn) : State := { s with fio := { s.fio with ai := put s.fio.ai i x } }

/-- Objects per kind of IOID (R227). -/
def ioSize : Nat → Nat
  | 0 => 48 | 1 => 16 | 2 => 24 | _ => 0

/-- IOID of parameter word 0, its kind and its index. -/
def parIo (ps : List Word) : Nat := fld (par ps 0) 7 0
def ioKind (io : Nat) : Nat := io / 64
def ioIdx (io : Nat) : Nat := io % 64

/-- IOID names an object. -/
def ioValid (io : Nat) : Bool := decide (ioIdx io < ioSize (ioKind io))

/-- Owner and readers of an IOID. -/
def State.ioOwner (s : State) (io : Nat) : Nat × Word :=
  match ioKind io with
  | 0 => ((s.fin (ioIdx io)).owner, (s.fin (ioIdx io)).readers)
  | 1 => ((s.fout (ioIdx io)).owner, (s.fout (ioIdx io)).readers)
  | _ => ((s.ain (ioIdx io)).owner, (s.ain (ioIdx io)).readers)

/-- The issuer owns the object (R228). An IOID that names no object of a kind the opcode takes names no target, and
fails with BAD_PARAM (R227, R254). -/
def ownsIo (takes : Nat → Bool) (t : Nat) (ps : List Word) (s : State) : Bool :=
  !(takes (parIo ps) && ioValid (parIo ps)) || (s.ioOwner (parIo ps)).1 == t

/-- The tenant is owner, reader or T0 (R228). -/
def State.readsIo (s : State) (t io : Nat) : Bool := t == 0 || (s.ioOwner io).1 == t || bit (s.ioOwner io).2 t

def readsIoPar (takes : Nat → Bool) (t : Nat) (ps : List Word) (s : State) : Bool :=
  !(takes (parIo ps) && ioValid (parIo ps)) || s.readsIo t (parIo ps)

/-- IOIDs of inputs, of outputs, of either, and of inputs with an edge queue. -/
def isFi (io : Nat) : Bool := ioKind io == 0
def isFo (io : Nat) : Bool := ioKind io == 1
def isFio (io : Nat) : Bool := decide (ioKind io < 2)
def isEdgeFi (io : Nat) : Bool := decide (16 ≤ io) && decide (io < 32)
def isAi (io : Nat) : Bool := ioKind io == 2

/-- Owner and readers of an object, for its notices (R263). -/
def State.ioAudience (s : State) (io : Nat) : List Nat := (s.ioOwner io).1 :: setBits 32 (s.ioOwner io).2.toNat

/-! ### Input block (R255) -/

def fiBlk (x : FieldIn) : List Word := x.block.getD [0, wd 5000, 0]
def fiWB (b : List Word) : Bool := bit (par b 0) 10
def fiWet (b : List Word) : Nat := fld (par b 0) 14 12
def fiNote (b : List Word) : Bool := bit (par b 0) 15
def fiDebounce (b : List Word) : Nat := fld (par b 1) 15 0
def fiPeriod (b : List Word) : Nat := fld (par b 1) 25 16
def fiEdges (b : List Word) : Nat := fld (par b 1) 27 26

/-- Wetting current of a WET code in mA (R232). -/
def wetMa : Nat → Nat
  | 1 => 1 | 2 => 2 | 3 => 5 | 4 => 10 | _ => 0

/-- The sum of the wetting currents set, with input i taking block b (R232). -/
def State.wetSum (s : State) (i : Nat) (b : List Word) : Nat :=
  ((List.range 48).map (fun j => wetMa (fiWet (if j = i then b else fiBlk (s.fin j))))).sum

/-- Every field of an input block lies in its range and class (R255, R231, R239). -/
def fiRangeOk (b : List Word) : Bool :=
  let i := ioIdx (fld (par b 0) 7 0)
  let vth := fld (par b 0) 9 8
  let vr := fld (par b 0) 23 16
  let vf := fld (par b 0) 31 24
  let stamp := decide (16 ≤ i) && decide (i < 32)
  decide (fld (par b 0) 7 6 = 0) && decide (i < 48) && decide (fiWet b ≤ 4) &&
  (!fiWB b || (decide (i < 16) && fiWet b == 0)) && (!fiNote b || stamp) &&
  (fiWB b || (if vth = 3 then decide (4 ≤ vr) && decide (vr ≤ 224) && decide (2 ≤ vf) && decide (vf ≤ 222) &&
    decide (vf + 2 ≤ vr) else vr == 0 && vf == 0)) &&
  decide (1 ≤ fiDebounce b) && (stamp || fld (par b 1) 31 16 == 0) && decide (fiPeriod b ≤ 1000) &&
  decide (fld (par b 1) 31 28 = 0) && (fiPeriod b == 0 || fiEdges b != 0) && within (par b 2) 0xFFFF

/-- CHECK of an input block. -/
def fiCheckOk (b : List Word) : Bool := crc16 ((wordBytes b).take 8) == fld (par b 2) 15 0

/-- Typical rising and falling thresholds of an input in mV (R231). -/
def fiThresholds (b : List Word) : Nat × Nat :=
  match fld (par b 0) 9 8 with
  | 0 => (6500, 4500)
  | 1 => (13000, 9000)
  | 2 => (26000, 18000)
  | _ => (fld (par b 0) 23 16 * 250, fld (par b 0) 31 24 * 250)

/-- The voltage at an input lets its comparator, or its band comparators, take value v: a threshold and a band edge may
lie anywhere in their tolerance (R230, R231, R238). -/
def State.fiTakes (s : State) (i v : Nat) : Bool :=
  let b := fiBlk (s.fin i)
  let mv := s.probe (.fiMv i)
  if fiWB b then
    match v with
    | 0 => decide (2970 ≤ mv) && decide (mv < 4630)
    | 1 => decide (470 ≤ mv) && decide (mv < 3030)
    | 2 => decide (mv < 530)
    | 3 => decide (5470 ≤ mv)
    | 4 => decide (4570 ≤ mv) && decide (mv < 5530)
    | _ => false
  else
    let th := fiThresholds b
    match v with
    | 0 => decide (mv * 100 < th.2 * 103 + 10000)
    | 1 => decide ((th.1 * 97 : Int) < mv * 100 + 10000)
    | _ => false

/-- The value that an input's comparators start from, at typical thresholds; between the two, 0 (DESIGN CHOICE, log
20). -/
def State.rawAt (s : State) (i : Nat) (b : List Word) : Nat :=
  let mv := s.probe (.fiMv i)
  if fiWB b then
    if mv < 500 then 2 else if mv < 3000 then 1 else if mv < 4600 then 0 else if mv < 5500 then 4 else 3
  else b2n (decide (((fiThresholds b).1 : Int) < mv))

/-- What the module connects to a field input (R232, R238). -/
inductive FiDrive where
  | none
  /-- RWB from VREFW. -/
  | rwb
  /-- A wetting current in mA towards PGND, or from VS. -/
  | sink (ma : Nat)
  | source (ma : Nat)
  deriving DecidableEq, Repr

/-- The wetting of an input: in RUN and IDLE, in the direction of WDIR; with WB its source is off and RWB connected. -/
def State.fiDrive (s : State) (i : Nat) : FiDrive :=
  let b := fiBlk (s.fin i)
  if !s.diesUp then .none
  else if fiWB b then .rwb
  else if wetMa (fiWet b) = 0 then .none
  else if bit (par b 0) 11 then .source (wetMa (fiWet b))
  else .sink (wetMa (fiWet b))

/-- A raw level other than the confirmed one opens a candidate at this instant (DEDUCED, log 20). -/
def fiReopen (s : State) (x : FieldIn) : FieldIn :=
  if x.raw = x.level then { x with cand := false, since := s.tim.full }
  else { x with cand := true, stamp := s.tim.full, stampGen := s.tim.gen, since := s.tim.full }

/-- The window of full Tally time that accumulates (R237). -/
def State.fiWindow (s : State) (b : List Word) : Nat := s.tim.full / (fiPeriod b * 1000000)

def fioInConfigSpec : OpSpec :=
  { opcode := 0x1801, plen := (· == 3), right := ownsIo isFi, isl := some 5
    parm := fun _ ps s =>
      if !fiCheckOk ps then some .badCheck
      else need (fiRangeOk ps && decide (s.wetSum (ioIdx (parIo ps)) ps ≤ 240))
    exec := fun c s =>
      let i := ioIdx (parIo c.params)
      let x := s.fin i
      let x1 := { x with block := some c.params, raw := if x.raw ≤ 1 then x.raw else x.lvl,
                         level := if fiWB c.params = fiWB (fiBlk x) then x.level else x.lvl }
      let x2 := if fiPeriod c.params = fiPeriod (fiBlk x) then x1
        else { x1 with counts := [], nextWin := s.fiWindow c.params }
      let x3 := if fiWB c.params = fiWB (fiBlk x) then { x2 with raw := x.raw } else x2
      .okay (s.setFin i (fiReopen s x3)) }

/-- FIO_IN_CONFIG (R255): the block governs at once and the candidate is discarded. -/
def execFioInConfig (e : Stim) (r : Req) (s : State) : Host.Outcome State Fault Refusal :=
  .next (submit fioInConfigSpec r (s.advance e))

def fioReadConfigSpec : OpSpec :=
  { opcode := 0x1802, plen := (· == 1), right := readsIoPar isFio
    parm := fun _ ps _ => need (within (par ps 0) 0xFF && ioValid (parIo ps) && decide (ioKind (parIo ps) < 2))
    exec := fun c s =>
      let io := parIo c.params
      .done .ok (if ioKind io = 0 then ((s.fin (ioIdx io)).block).getD [0, 0, 0]
        else match (s.fout (ioIdx io)).block with
          | some b => [par b 0, par b 1, 0]
          | none => [0, 0, 0]) s }

/-- Owner and readers of an object set. -/
def setIoOwner (io owner : Nat) (readers : Word) (s : State) : State :=
  let i := ioIdx io
  match ioKind io with
  | 0 => s.setFin i { s.fin i with owner := owner, readers := readers }
  | 1 => s.setFout i { s.fout i with owner := owner, readers := readers }
  | _ => s.setAin i { s.ain i with owner := owner, readers := readers }

def fioAssignSpec : OpSpec :=
  { opcode := 0x1803, plen := (· == 2), right := onlyT0
    parm := fun _ ps s => need (within (par ps 0) 0x1FFF && ioValid (parIo ps) && tenantsOk (fld (par ps 0) 12 8) (par ps 1) s)
    exec := fun c s =>
      let io := parIo c.params
      if ioKind io = 1 ∧ (s.fout (ioIdx io)).st = .on then .fail .busy s
      else .okay (setIoOwner io (fld (par c.params 0) 12 8) (par c.params 1) s) }

/-! ### FIO_IN_STATE and FIO_EDGES -/

/-- STATE of a wire-break input, 0xF with WB = 0 (R258). -/
def fiState (x : FieldIn) : Nat := if fiWB (fiBlk x) then x.level else 0xF

/-- The six words of R258 as tenant t sees them. -/
def State.fioWords (s : State) (t : Nat) : List Word :=
  let sees := fun i => s.readsIo t i
  let lv := fun i => if sees i then (s.fin i).lvl else 0
  let ft := fun i => if sees i && fiWB (fiBlk (s.fin i)) && decide (2 ≤ (s.fin i).level) then 1 else 0
  let st := fun i => if sees i then fiState (s.fin i) else 0xF
  let sum := fun (n k : Nat) (f : Nat → Nat) => ((List.range n).map (fun j => f j * 2 ^ (k * j))).sum
  [ wd (sum 32 1 lv), wd (sum 16 1 (fun j => ft j) * 2 ^ 16 + sum 16 1 (fun j => lv (j + 32))),
    wd (sum 8 4 st), wd (sum 8 4 (fun j => st (j + 8))), wd (s.now % 2 ^ 32), wd (s.now / 2 ^ 32) ]

def fioInStateSpec : OpSpec :=
  { opcode := 0x1810, plen := (· == 0), free := fun _ => true, isl := some 5
    exec := fun c s => .done .ok (s.fioWords c.tenant) s }

/-- FIO_IN_STATE (R258). -/
def execFioInState (e : Stim) (r : Req) (s : State) : Host.Outcome State Fault Refusal :=
  .next (submit fioInStateSpec r (s.advance e))

/-- The two words of an edge queue entry (R257). -/
def Edge.words (x : Edge) : List Word :=
  [wd (x.stamp % 2 ^ 32), wd (x.eseq * 2 ^ 24 + x.level * 2 ^ 16 + x.stamp / 2 ^ 32)]

/-- A list of words brought to n words with zeros. -/
def padWords (n : Nat) (ws : List Word) : List Word := (ws ++ List.replicate n 0).take n

def fioEdgesSpec : OpSpec :=
  { opcode := 0x1811, plen := (· == 1), right := ownsIo isEdgeFi, isl := some 5
    parm := fun _ ps _ => need (within (par ps 0) 0x1FF && decide (16 ≤ parIo ps) && decide (parIo ps < 32))
    exec := fun c s =>
      let i := parIo c.params
      let x := s.fin i
      let ws := [ wd (x.lost * 2 ^ 16 + b2n x.ovf * 2 ^ 8 + x.edges.length), wd (x.late * 2 ^ 16 + x.pubCount),
        wd (x.pubStart % 2 ^ 32), wd (x.glitch * 2 ^ 16 + x.pubStart / 2 ^ 32 % 2 ^ 16) ] ++ x.edges.flatMap Edge.words
      let x1 := { x with edges := [] }
      let x2 := if bit (par c.params 0) 8 then { x1 with ovf := false, lost := 0, late := 0, glitch := 0 } else x1
      .done .ok (padWords 36 ws) (s.setFin i x2) }

/-- FIO_EDGES (R257). -/
def execFioEdges (e : Stim) (r : Req) (s : State) : Host.Outcome State Fault Refusal :=
  .next (submit fioEdgesSpec r (s.advance e))

/-! ### Debounce (R233 to R239) -/

/-- BSX runs the field I/O and the measurement engine (R225). -/
def State.bsx (s : State) : Bool := s.alive 5

/-- A confirmed edge counts in the window that holds its stamp, or in the one accumulating when that has been published
or a step of Tally time has ended it, the edge being stamped before the step (R237). -/
def countEdge (s : State) (x : FieldIn) (rising : Bool) : FieldIn :=
  let b := fiBlk x
  let sel := if rising then fiEdges b % 2 == 1 else fiEdges b / 2 == 1
  if fiPeriod b = 0 ∨ !sel then x
  else
    let k := x.stamp / (fiPeriod b * 1000000)
    if k < x.nextWin ∨ x.stampGen ≠ s.tim.gen then
      let n := s.fiWindow b
      { x with counts := put x.counts n (look 0 x.counts n + 1), late := satInc 0xFFFF x.late }
    else { x with counts := put x.counts k (look 0 x.counts k + 1) }

/-- A confirmed edge of a time-stamp input enters its queue, or is lost (R236). -/
def queueEdge (i : Nat) (x : FieldIn) (s : State) : State :=
  let ed : Edge := { stamp := x.stamp % 2 ^ 48, eseq := x.eseq, level := x.level }
  let x1 := { x with eseq := (x.eseq + 1) % 256 }
  if x.edges.length < 16 then
    let s1 := s.setFin i { x1 with edges := x.edges ++ [ed] }
    if x.edges = [] ∧ fiNote (fiBlk x) then noticeAll (s1.ioAudience i) 0x1801 (wd i :: ed.words) s1 else s1
  else s.setFin i { x1 with lost := satInc 0xFFFF x.lost, ovf := true }

/-- The candidate's DEBOUNCE has elapsed (R233): the edge is confirmed, or a glitch is counted. -/
def debounceEnd (i : Nat) (s : State) : State :=
  let x := s.fin i
  if x.raw = x.level then s.setFin i { x with cand := false, glitch := satInc 0xFFFF x.glitch }
  else
    let old := x.level
    let x1 := { x with level := x.raw, cand := false, lvl := if x.raw ≤ 1 then x.raw else x.lvl }
    if fiWB (fiBlk x) then
      let s1 := s.setFin i x1
      if 2 ≤ old ∨ 2 ≤ x1.level then noticeAll (s1.ioAudience i) 0x1802 [wd i, wd (x1.level + old * 16)] s1 else s1
    else if 16 ≤ i ∧ i < 32 then queueEdge i (countEdge s x1 (x1.level == 1)) s
    else s.setFin i x1

/-- A candidate whose DEBOUNCE has elapsed. -/
def State.fiDue (s : State) (i : Nat) : Bool :=
  (s.fin i).cand && decide ((s.fin i).since + fiDebounce (fiBlk (s.fin i)) * 1000 ≤ s.tim.full)

/-- DEBOUNCE_EXPIRY (R233). -/
def execDebounceExpiry (e : Stim) (fi : Nat) (s : State) : Host.Outcome State Fault Refusal :=
  event e s (fun s => decide (fi < 48) && s.bsx && s.fiDue fi) (debounceEnd fi)

/-- A raw transition (R233, R234): a confirmation due at this instant comes first; the run starts anew, and a value
other than the confirmed one opens a candidate. -/
def rawTransition (i v : Nat) (s : State) : State :=
  let s1 := if s.fiDue i then debounceEnd i s else s
  let x := s1.fin i
  let x1 := { x with raw := v, since := s1.tim.full }
  s1.setFin i (if v ≠ x.level ∧ x.cand = false then
    { x1 with cand := true, stamp := s1.tim.full, stampGen := s1.tim.gen } else x1)

/-- RAW_TRANSITION (R231, R233, R238): the comparator, or the decoded band of a wire-break input, takes value v. While
BSX is clock-gated the input is not evaluated, and only the value stands (R225). -/
def execRawTransition (e : Stim) (fi v : Nat) (s : State) : Host.Outcome State Fault Refusal :=
  event e s (fun s => decide (fi < 48) && v != (s.fin fi).raw && s.fiTakes fi v)
    (fun s => if s.bsx then rawTransition fi v s else s.setFin fi { s.fin fi with raw := v })

/-- Publishes the oldest window not yet published (R237). -/
def publishWin (x : FieldIn) : FieldIn :=
  { x with pubCount := cap16 (look 0 x.counts x.nextWin),
           pubStart := x.nextWin * (fiPeriod (fiBlk x) * 1000000) % 2 ^ 48,
           counts := erase x.counts x.nextWin, nextWin := x.nextWin + 1 }

/-- COUNT_WINDOW_PUBLISH (R237): at the window's end plus DEBOUNCE. -/
def execCountWindowPublish (e : Stim) (fi : Nat) (s : State) : Host.Outcome State Fault Refusal :=
  event e s (fun s =>
    let x := s.fin fi
    let p := fiPeriod (fiBlk x) * 1000000
    s.bsx && decide (16 ≤ fi) && decide (fi < 32) && p != 0 &&
      decide ((x.nextWin + 1) * p + fiDebounce (fiBlk x) * 1000 ≤ s.tim.full))
    (fun s => s.setFin fi (publishWin (s.fin fi)))

/-- A step of Tally time from one full time to another ends and publishes the window being accumulated (09 R273, R237);
windows still within their DEBOUNCE are published before it (DEDUCED, log 20). -/
def stepWindows (old new : Nat) (s : State) : State :=
  { s with fio := { s.fio with fi := s.fio.fi.map (fun p =>
      let x := p.2
      let per := fiPeriod (fiBlk x) * 1000000
      if per = 0 then p
      else
        let k := old / per
        (p.1, { x with pubCount := cap16 (look 0 x.counts k), pubStart := k * per % 2 ^ 48, counts := [],
                       nextWin := new / per })) } }

/-! ### Field outputs (R240 to R244) -/

/-- A duty too short for R243, or other than 1000 without PWM. -/
def foDutyBad (x : FieldOut) (duty : Nat) : Bool :=
  if !foPwm x then duty != 1000
  else if duty = 0 ∨ duty = 1000 then false
  else decide (min duty (1000 - duty) * 50 < foFreq x)

/-- The output with a new duty whose boundary has passed taken over. -/
def FieldOut.settle (x : FieldOut) (clk : Nat) : FieldOut :=
  match x.next with
  | some (d, at_) => if at_ ≤ clk then { x with duty := d, next := none } else x
  | none => x

/-- The next period boundary after the present instant. -/
def foBoundary (x : FieldOut) (clk : Nat) : Nat :=
  let f := foFreq x
  x.pwmFrom + ceilDiv (((clk - x.pwmFrom) * f / 1000000000 + 1) * 1000000000) f

def foRangeOk (ps : List Word) : Bool :=
  let x : FieldOut := { block := some ps }
  decide (ioKind (parIo ps) = 1) && ioValid (parIo ps) && decide (fld (par ps 0) 15 10 = 0) &&
  (if foPwm x then decide (10 ≤ foFreq x) && decide (foFreq x ≤ 1000) else foFreq x == 0) &&
  decide (1 ≤ fld (par ps 1) 15 0) && decide (fld (par ps 1) 15 0 ≤ 100)

/-- CHECK of an output block (R256). -/
def foCheckOk (b : List Word) : Bool := crc16 ((wordBytes b).take 6) == fld (par b 1) 31 16

def fioOutConfigSpec : OpSpec :=
  { opcode := 0x1804, plen := (· == 2), right := ownsIo isFo, isl := some 5
    parm := fun _ ps _ =>
      if !foCheckOk ps then some .badCheck else need (foRangeOk ps)
    exec := fun c s =>
      let i := ioIdx (parIo c.params)
      let x := s.fout i
      if x.st = .on ∨ x.st = .forced then .fail .busy s
      else
        let x1 := { x with block := some c.params, st := if x.st = FoState.unconf then FoState.off else x.st }
        .okay (s.setFout i { x1 with olon := x.olon && foOlEn x1 }) }

/-- Withdraws a pending switch-on, its commands ending with a status (R240). -/
def foDrop (i : Nat) (st : Status) (s : State) : State :=
  match (s.fout i).pend with
  | none => s
  | some p => p.2.foldl (fun s id => endCmd id st s) (s.setFout i { s.fout i with pend := none })

/-- FIO_OUT of an output by a command or a trigger firing (R240, R243). A DUTY that R243 refuses ends a switch-on with
BAD_PARAM at its execution, ahead of the BUSY or THERMAL of the output's state, and the DUTY of a switch-off is not held to
R243 (DESIGN CHOICE, log 20: the spec gives no order between the two and says what DUTY means only for an output that is
on). -/
def switchFo (i : Nat) (on : Bool) (duty : Nat) (cmd : Option Nat) (s : State) : Switched × State :=
  let x := (s.fout i).settle s.bsxClk
  if on && x.block.isSome && foDutyBad x duty then (.now .badParam, s)
  else match x.st with
  | .unconf => (.now (if on then .busy else .ok), s)
  | .forced => (.now .busy, s)
  | .latched => (.now (if on then (if x.tlatch then .thermal else .busy) else .ok), s)
  | .on =>
    if on then
      let x1 := if !foPwm x ∨ x.duty = duty then { x with next := none }
        else { x with next := some (duty, foBoundary x s.bsxClk) }
      (.now .ok, s.setFout i x1)
    else (.now .ok, s.setFout i { x with st := .off, next := none })
  | .off =>
    if on then
      if x.tlatch then (.now .thermal, s)
      else
        let cmds := (match x.pend with
          | some p => p.2
          | none => []) ++ cmd.toList
        (.later, s.setFout i { x with pend := some (duty, cmds) })
    else (.now .ok, foDrop i .flushed s)

/-- The answer of a command to a field output's switching (R254). -/
def foAns (i : Nat) (x : Switched × State) : Ans :=
  match x.1 with
  | .now st => .done st [x.2.foWord i] x.2
  | _ => .ongoing x.2

def foNamed (ps : List Word) : Bool := decide (ioKind (parIo ps) = 1) && ioValid (parIo ps)

def fioOutSpec : OpSpec :=
  { opcode := 0x1820, plen := (· == 2), right := ownsIo isFo, isl := some 5
    parm := fun _ ps _ => need (within (par ps 0) 0x1FF && foNamed ps && dutyParm ps)
    exec := fun c s =>
      let i := ioIdx (parIo c.params)
      foAns i (switchFo i (bit (par c.params 0) 8) (fld (par c.params 1) 9 0) (some c.id) s) }

def fioOutClearSpec : OpSpec :=
  { opcode := 0x1821, plen := (· == 1), right := ownsIo isFo, isl := some 5
    parm := fun _ ps _ => need (within (par ps 0) 0xFF && foNamed ps)
    exec := fun c s =>
      let i := ioIdx (parIo c.params)
      let x := s.fout i
      match x.st with
      | .forced => .done .busy [s.foWord i] s
      | .latched =>
        if x.tlatch then .done .thermal [s.foWord i] s
        else
          let s1 := s.setFout i { x with st := .off }
          .done .ok [s1.foWord i] s1
      | _ => .done .ok [s.foWord i] s }

def fioOutStatusSpec : OpSpec :=
  { opcode := 0x1822, plen := (· == 1), right := readsIoPar isFo, isl := some 5
    parm := fun _ ps _ => need (within (par ps 0) 0xFF && foNamed ps)
    exec := fun c s => .done .ok [s.foWord (ioIdx (parIo c.params))] s }

/-- FIELD_OUTPUT_SWITCH (R240): a pending switch-on starts; its commands end with OK. -/
def execFieldOutputSwitch (e : Stim) (fo : Nat) (s : State) : Host.Outcome State Fault Refusal :=
  event e s (fun s => decide (fo < 16) && (s.fout fo).st == .off && (s.fout fo).pend.isSome && s.bsx) (fun s =>
    let x := s.fout fo
    match x.pend with
    | none => s
    | some p =>
      p.2.foldl (fun s id => endCmd id .ok s)
        (s.setFout fo { x with st := .on, duty := p.1, next := none, pwmFrom := s.bsxClk, pend := none, lim := 0, low := 0, high := 0 }))

/-- An output latches and FIO_OUT_LATCH is posted (R241, R263). -/
def foLatch (cause fo : Nat) (s : State) : State :=
  let x := (s.fout fo).settle s.bsxClk
  let s1 := s.setFout fo { x with st := .latched, cause := cause, next := none }
  noticeAll (s1.ioAudience (0x40 + fo)) 0x1803 [s1.foWord fo] s1

/-- FIELD_OUTPUT_LIMIT (R241): the current has been at ILIMF for LIMBLANK. While BSX has no clock the drivers are not
evaluated (R225). -/
def execFieldOutputLimit (e : Stim) (fo : Nat) (s : State) : Host.Outcome State Fault Refusal :=
  event e s (fun s =>
    let x := s.fout fo
    decide (fo < 16) && x.st == .on && s.bsx && decide (foLimBlank x * 10000 ≤ x.lim)) (foLatch 1 fo)

/-- FIELD_OUTPUT_THERMAL (R240, R241): TLATCH sets; an output that is on latches, a pending switch-on ends with
THERMAL. -/
def execFieldOutputThermal (e : Stim) (fo : Nat) (s : State) : Host.Outcome State Fault Refusal :=
  event e s (fun s => decide (fo < 16) && s.bsx && !(s.fout fo).tlatch) (fun s =>
    let s1 := s.setFout fo { s.fout fo with tlatch := true }
    if (s1.fout fo).st = .on then foLatch 2 fo s1 else foDrop fo .thermal s1)

/-- FIELD_OUTPUT_THERMAL_RELEASE (R241). -/
def execFieldOutputThermalRelease (e : Stim) (fo : Nat) (s : State) : Host.Outcome State Fault Refusal :=
  event e s (fun s => decide (fo < 16) && s.bsx && (s.fout fo).tlatch) (fun s => s.setFout fo { s.fout fo with tlatch := false })

/-- FIELD_OUTPUT_DRIVER_FAULT (R241): in every state; recorded in the Ledger, with FAULT_N's DRIVER cause. -/
def execFieldOutputDriverFault (e : Stim) (fo : Nat) (s : State) : Host.Outcome State Fault Refusal :=
  event e s (fun s => decide (fo < 16) && s.bsx) (fun s =>
    let x := (s.fout fo).settle s.bsxClk
    let st : FoState := match x.st with
      | .unconf => .unconf
      | .forced => .forced
      | _ => .latched
    let s1 := s.setFout fo { x with st := st, cause := 3, next := none, drvMark := x.drvMark || x.st == .forced }
    let s2 := latchFault 3 (foDrop fo .flushed s1)
    logNotice (s2.ioAudience (0x40 + fo)) (s2.fout fo).owner 0x1803 [s2.foWord fo] s2)

/-- FIELD_OUTPUT_OPEN_LOAD (R243): 10 ms of on-phase below, or at and above, the open-load threshold. -/
def execFieldOutputOpenLoad (e : Stim) (fo : Nat) (below : Bool) (s : State) : Host.Outcome State Fault Refusal :=
  event e s (fun s =>
    let x := s.fout fo
    decide (fo < 16) && x.st == .on && foOlEn x && s.bsx && decide (10000000 ≤ if below then x.low else x.high))
    (fun s => s.setFout fo { s.fout fo with olon := below })

/-- One output at a cause of 07 R211: it switches off and enters FORCED, a pending switch-on ending with FLUSHED
(R242). -/
def foForceOne (fo : Nat) (s : State) : State :=
  let s1 := foDrop fo .flushed s
  let x := (s1.fout fo).settle s1.bsxClk
  s1.setFout fo { x with st := .forced, next := none }

/-- Every output at a cause of 07 R211. -/
def foForce (s : State) : State := (List.range 16).foldl (fun s i => foForceOne i s) s

/-- One output leaves FORCED (R241, R242); one without a block is UNCONF again (DEDUCED, log 20). -/
def foRelease (fo : Nat) (s : State) : State :=
  let x := s.fout fo
  let st : FoState := if x.block.isNone then .unconf else if x.drvMark then .latched else .off
  if x.st = .forced then s.setFout fo { x with st := st, drvMark := false } else s

end Sys2Proof.Machine
end

