-- ==== Sys2Proof/Machine/Mea.lean ====
section
/-!
DEFINITION. Meanings of the MEA commands (08 R260) and the measurement sequences (08 R249 to R253).
-/

namespace Sys2Proof.Machine

/-- Measurement sequence i. -/
def State.seqn (s : State) (i : Nat) : MeaSeq := look {} s.mea.seq i

/-- The state with a sequence set. -/
def State.setSeqn (s : State) (i : Nat) (x : MeaSeq) : State := { s with mea := { s.mea with seq := put s.mea.seq i x } }

/-! ### MEA_AI_CONFIG -/

/-- Analogue input i serves as REF for another input in ratiometric mode (R246). -/
def State.servesRef (s : State) (i : Nat) : Bool :=
  (List.range 24).any (fun j => j != i && (s.ain j).mode == 2 && (s.ain j).ref == i)

/-- The present mode joins the former ones; no run is longer than 1 ms. -/
def AnaIn.leaveMode (x : AnaIn) (clk : Nat) : AnaIn :=
  { x with past := x.past.filter (fun p => decide (clk < p.1 + 1000000)) ++ [(clk, x.mode)] }

/-- The mode of an input at an instant. -/
def AnaIn.modeAt (x : AnaIn) (t : Nat) : Nat := ((x.past.find? (fun p => decide (t < p.1))).map (·.2)).getD x.mode

def meaAiConfigSpec : OpSpec :=
  { opcode := 0x1901, plen := (· == 1), right := ownsIo isAi, isl := some 5
    parm := fun _ ps s =>
      let mode := fld (par ps 0) 9 8
      let ref := fld (par ps 0) 20 16
      need (within (par ps 0) 0x1F03FF && decide (ioKind (parIo ps) = 2) && ioValid (parIo ps) && decide (mode ≤ 2) &&
        decide (ref < 24) && (mode != 2 || ((s.ain ref).mode == 0 && ref != ioIdx (parIo ps))))
    exec := fun c s =>
      let i := ioIdx (parIo c.params)
      let mode := fld (par c.params 0) 9 8
      if mode ≠ 0 ∧ s.servesRef i then .fail .busy s
      else .okay (s.setAin i { (s.ain i).leaveMode s.clk with mode := mode, ref := fld (par c.params 0) 20 16 }) }

/-- MEA_AI_CONFIG (R245, R246, R260). -/
def execMeaAiConfig (e : Stim) (r : Req) (s : State) : Host.Outcome State Fault Refusal :=
  .next (submit meaAiConfigSpec r (s.advance e))

/-! ### Sources (R247) -/

/-- SRC names a source. -/
def srcValid (src : Nat) : Bool :=
  decide (src < 24) || (decide (0x20 ≤ src) && decide (src < 0x50)) || (decide (0x60 ≤ src) && decide (src < 0x64))

/-- The tenant owns or reads the source; internal sources are free to all (R249, R260). -/
def State.readsSrc (s : State) (t src : Nat) : Bool :=
  let sees := fun io => (s.ioOwner io).1 == t || bit (s.ioOwner io).2 t
  if src < 24 then sees (0x80 + src)
  else if 0x20 ≤ src ∧ src < 0x50 then sees (src - 0x20)
  else true

/-- The mode of a source at an instant; 3 for a source that has none. -/
def State.srcMode (s : State) (src t : Nat) : Nat := if src < 24 then (s.ain src).modeAt t else 3

/-- A conversion in a mode returns ERR (R246): past full scale in direct mode, or by a reference outside 4.5 V to 5.5 V in
ratiometric mode. -/
def sampleErr (c : Sample) (mode : Nat) : Bool :=
  (mode == 0 && decide (16383 < c.code)) || (mode == 2 && (decide (c.refMv < 4500) || decide (5500 < c.refMv)))

/-- The result of an entry from its samples, each with the mode at its instant: their mean, halves rounded up, and ERR
(R246, R249). A code past full scale stands as 16383, and a sample that is missing as 0. -/
def convertOf (avg : Nat) (cs : List (Sample × Nat)) : Nat × Bool :=
  let n := 2 ^ avg
  (((cs.map (fun c => min c.1.code 16383)).sum * 2 + n) / (2 * n), cs.any (fun c => sampleErr c.1 c.2))

/-! ### Configuration (R249, R261) -/

/-- Words of a sequence's configuration. -/
def sqAdc (b : List Word) : Nat := fld (par b 0) 9 8
def sqTsrc (b : List Word) : Nat := fld (par b 0) 17 16
def sqTsel (b : List Word) : Nat := fld (par b 0) 28 24
def sqN (b : List Word) : Nat := fld (par b 1) 5 0
def sqSrc (b : List Word) (k : Nat) : Nat := fld (par b (2 + 2 * k)) 7 0
def sqAvg (b : List Word) (k : Nat) : Nat := fld (par b (2 + 2 * k)) 10 8
def sqLimen (b : List Word) (k : Nat) : Bool := bit (par b (2 + 2 * k)) 12
def sqHigh (b : List Word) (k : Nat) : Nat := fld (par b (3 + 2 * k)) 29 16
def sqLow (b : List Word) (k : Nat) : Nat := fld (par b (3 + 2 * k)) 13 0

/-- Sequence of parameter word 0. -/
def parSeq (ps : List Word) : Nat := fld (par ps 0) 3 0

def ownsSeq (t : Nat) (ps : List Word) (s : State) : Bool := (s.seqn (parSeq ps)).owner == t

/-- A converter whose block failed the last audit takes no MEA_RUN or MEA_CONVERT (19 R584). -/
def State.adcOut (s : State) (adc : Nat) : Bool := s.blkFail (34 + adc)

def meaSeqAssignSpec : OpSpec :=
  { opcode := 0x1902, plen := (· == 1), right := onlyT0
    parm := fun _ ps s => need (within (par ps 0) 0x1F0F && s.exists (fld (par ps 0) 12 8))
    exec := fun c s =>
      let x := s.seqn (parSeq c.params)
      if x.armed then .fail .busy s
      else .okay (s.setSeqn (parSeq c.params) { x with owner := fld (par c.params 0) 12 8 }) }

/-- MEA_SEQ_ASSIGN (R249). -/
def execMeaSeqAssign (e : Stim) (r : Req) (s : State) : Host.Outcome State Fault Refusal :=
  .next (submit meaSeqAssignSpec r (s.advance e))

/-- Every field of a sequence's words lies in its range (R261). -/
def seqRangeOk (b : List Word) : Bool :=
  let n := sqN b
  within (par b 0) 0x1F03030F && within (par b 1) 0x3F && decide (1 ≤ n) && decide (n ≤ 32) &&
  (match sqTsrc b with
    | 1 => true
    | 3 => decide (sqTsel b < 16) && sqTsel b != parSeq b
    | _ => sqTsel b == 0) &&
  (List.range n).all (fun k =>
    within (par b (2 + 2 * k)) 0x17FF && within (par b (3 + 2 * k)) 0x3FFF3FFF && srcValid (sqSrc b k) &&
    decide (sqAvg b k ≤ 4) && decide (sqLow b k ≤ sqHigh b k))

def meaSeqConfigSpec : OpSpec :=
  { opcode := 0x1903, plen := fun _ => true, plenP := fun ps => ps.length == 2 + 2 * sqN ps, isl := some 5
    right := fun t ps s => ownsSeq t ps s && (List.range (sqN ps)).all (fun k => s.readsSrc t (sqSrc ps k))
    parm := fun _ ps _ => need (seqRangeOk ps)
    exec := fun c s =>
      let i := parSeq c.params
      let x := s.seqn i
      if x.armed then .fail .busy s
      else .okay (s.setSeqn i { x with conf := some c.params, valid := false, results := [], time := 0
                                       waiting := false, fired := false, stale := x.running }) }

/-- MEA_SEQ_CONFIG (R261). -/
def execMeaSeqConfig (e : Stim) (r : Req) (s : State) : Host.Outcome State Fault Refusal :=
  .next (submit meaSeqConfigSpec r (s.advance e))

/-! ### Runs (R250 to R252) -/

/-- A run of some sequence is in progress on a converter. -/
def State.adcBusy (s : State) (adc : Nat) : Bool :=
  (List.range 16).any (fun i => (s.seqn i).running && sqAdc (s.seqn i).run == adc)

/-- A sequence's run starts with its present words. -/
def startRun (i : Nat) (s : State) : State :=
  let x := s.seqn i
  s.setSeqn i { x with running := true, waiting := false, fired := false, startTime := s.now, run := x.conf.getD []
                       runAt := s.clk, stale := false }

/-- The sources that a run samples, back to back (R249). -/
def runSrcs (b : List Word) : List Nat := (List.range (sqN b)).flatMap (fun k => List.replicate (2 ^ sqAvg b k) (sqSrc b k))

/-- Time in ns of a sample: 1 µs of a divider-mode input or a field input, else 250 ns (R247). -/
def sampleNs (src mode : Nat) : Nat := if mode = 1 ∨ (0x20 ≤ src ∧ src < 0x50) then 1000 else 250

/-- The mode of each sample of a run that begins at an instant, and the run's end. -/
def State.runModes (s : State) : List Nat → Nat → List Nat × Nat
  | [], t => ([], t)
  | src :: xs, t =>
    let m := s.srcMode src t
    let r := s.runModes xs (t + sampleNs src m)
    (m :: r.1, r.2)

/-- The instant at which a sequence's run in progress ends. -/
def State.runTill (s : State) (x : MeaSeq) : Nat := (s.runModes (runSrcs x.run) x.runAt).2

/-- A trigger that finds its sequence running or waiting is ignored and counted (R251). -/
def overrun (i : Nat) (s : State) : State :=
  let x := s.seqn i
  let s1 := s.setSeqn i { x with overrun := satInc 255 x.overrun }
  if x.overrun = 0 then notice x.owner 0x1902 [wd i, wd 1] s1 else s1

/-- A trigger of a sequence (R251): its run starts, or waits for its converter, or is an overrun. During a clock gate of
BSX each trigger is an overrun (R225). -/
def trigSeq (i : Nat) (s : State) : State :=
  let x := s.seqn i
  match x.conf with
  | none => s
  | some b =>
    if x.running || x.waiting || !s.running 5 then overrun i s
    else if s.adcBusy (sqAdc b) then s.setSeqn i { x with waiting := true, fired := false }
    else startRun i s

/-- A Tally trigger fires: each armed sequence that names it is triggered, in ascending number (R250, 09 R282). One that
is idle takes its first sample by SEQUENCE_TRIGGER; one that still runs or waits, or that BSX has no clock for, has
been overrun. -/
def trigSeqsOf (tt : Nat) (s : State) : State :=
  (List.range 16).foldl (fun s i =>
    let x := s.seqn i
    let b := x.conf.getD []
    if x.armed && sqTsrc b == 1 && sqTsel b == tt then
      (if x.running || x.waiting || x.fired || !s.running 5 then overrun i s
       else s.setSeqn i { x with fired := true })
    else s) s

/-- MEA_RUN (R250): ARM = 1 starts a software run, or arms; the first run of a continuous sequence starts at once.
ARM = 0 disarms, and drops a run that has not started. -/
def meaRunSpec : OpSpec :=
  { opcode := 0x1910, plen := (· == 1), right := ownsSeq, isl := some 5
    parm := fun _ ps _ => need (within (par ps 0) 0x10F)
    exec := fun c s =>
      let i := parSeq c.params
      let x := s.seqn i
      match x.conf with
      | none => .fail .busy s
      | some b =>
        if s.adcOut (sqAdc b) then .fail .busy s
        else if bit (par c.params 0) 8 then
          match sqTsrc b with
          | 0 => .okay (trigSeq i (s.setSeqn i { x with armed := true }))
          | 2 => .okay (if x.armed then s else trigSeq i (s.setSeqn i { x with armed := true }))
          | _ => .okay (s.setSeqn i { x with armed := true })
        else .okay (s.setSeqn i { x with armed := false, waiting := false, fired := false }) }

/-- MEA_RUN (R250). -/
def execMeaRun (e : Stim) (r : Req) (s : State) : Host.Outcome State Fault Refusal :=
  .next (submit meaRunSpec r (s.advance e))

/-- A published result as 16 bits (R262). -/
def MeaRes.half (x : MeaRes) : Nat := b2n x.err * 2 ^ 15 + b2n x.lim * 2 ^ 14 + x.code

def meaResultsSpec : OpSpec :=
  { opcode := 0x1911, plen := (· == 1), isl := some 5
    right := fun t ps s => t == 0 || ownsSeq t ps s
    parm := fun _ ps _ => need (within (par ps 0) 0x10F)
    exec := fun c s =>
      let i := parSeq c.params
      let x := s.seqn i
      let h := fun k => ((x.results.map MeaRes.half).getD k 0)
      let ws := [wd (x.time % 2 ^ 32), wd (b2n x.valid * 2 ^ 24 + x.overrun * 2 ^ 16 + x.time / 2 ^ 32)] ++
        (List.range 16).map (fun k => wd (h (2 * k + 1) * 2 ^ 16 + h (2 * k)))
      .done .ok ws (if bit (par c.params 0) 8 then s.setSeqn i { x with overrun := 0 } else s) }

/-- MEA_RESULTS (R262). -/
def execMeaResults (e : Stim) (r : Req) (s : State) : Host.Outcome State Fault Refusal :=
  .next (submit meaResultsSpec r (s.advance e))

/-! ### MEA_CONVERT -/

/-- A converter in service with no run in progress and none waiting, the lowest-numbered (DESIGN CHOICE, log 21). -/
def State.freeAdc (s : State) : Option Nat :=
  (List.range 4).find? (fun a => !s.adcOut a && !s.adcBusy a)

/-- The result word of a conversion. -/
def State.convertWord (s : State) (src avg : Nat) : Word :=
  let c : Sample := { code := min (s.probe (.source src)).toNat 16384, refMv := (s.probe (.aiMv (s.ain src).ref)).toNat }
  let r := convertOf avg (List.replicate (2 ^ avg) (c, s.srcMode src s.clk))
  wd (b2n r.2 * 2 ^ 15 + r.1)

/-- MEA_CONVERTs that wait take the converters that have become free, in order. -/
def runConverts (s : State) : State :=
  if s.freeAdc.isSome && s.bsx then
    s.mea.converts.foldl (fun s x => finishCmd x.cmd .ok [s.convertWord x.src x.avg] s)
      { s with mea := { s.mea with converts := [] } }
  else s

def meaConvertSpec : OpSpec :=
  { opcode := 0x1912, plen := (· == 1), isl := some 5
    free := fun ps => decide (0x60 ≤ fld (par ps 0) 7 0) && srcValid (fld (par ps 0) 7 0)
    right := fun t ps s => s.readsSrc t (fld (par ps 0) 7 0)
    parm := fun _ ps _ => need (within (par ps 0) 0x7FF && srcValid (fld (par ps 0) 7 0) && decide (fld (par ps 0) 10 8 ≤ 4))
    exec := fun c s =>
      let src := fld (par c.params 0) 7 0
      let avg := fld (par c.params 0) 10 8
      if (List.range 4).all s.adcOut then .fail .busy s
      else if s.freeAdc.isSome && s.mea.converts.isEmpty then .done .ok [s.convertWord src avg] s
      else .ongoing { s with mea := { s.mea with converts := s.mea.converts ++ [{ cmd := c.id, src := src, avg := avg }] } } }

/-- MEA_CONVERT (R260). -/
def execMeaConvert (e : Stim) (r : Req) (s : State) : Host.Outcome State Fault Refusal :=
  .next (submit meaConvertSpec r (s.advance e))

/-! ### Events -/

/-- SEQUENCE_TRIGGER (R250, R251): a sequence whose Tally trigger has fired starts its run, or waits for its
converter. -/
def execSequenceTrigger (e : Stim) (seq : Nat) (s : State) : Host.Outcome State Fault Refusal :=
  event e s (fun s => decide (seq < 16) && (s.seqn seq).armed && (s.seqn seq).fired)
    (fun s => trigSeq seq (s.setSeqn seq { s.seqn seq with fired := false }))

/-- Results of a run's entries from its samples in order, against their limits (R249, R253). -/
def runResults (b : List Word) : Nat → List (Sample × Nat) → Nat → List MeaRes
  | 0, _, _ => []
  | n + 1, cs, k =>
    let r := convertOf (sqAvg b k) (cs.take (2 ^ sqAvg b k))
    let out := sqLimen b k && (decide (r.1 < sqLow b k) || decide (sqHigh b k < r.1) || r.2)
    { code := r.1, lim := out, err := r.2 } :: runResults b n (cs.drop (2 ^ sqAvg b k)) (k + 1)

/-- MEA_LIMIT at each change between inside and outside (R253). -/
def limitNotices (seq owner : Nat) (old new : List MeaRes) (s : State) : State :=
  (List.range new.length).foldl (fun s k =>
    let r := new.getD k {}
    if r.lim = (old.getD k {}).lim then s
    else notice owner 0x1901 [wd (seq + k * 2 ^ 8), wd (b2n r.lim * 2 ^ 16 + b2n r.err * 2 ^ 15 + r.code)] s) s

/-- The sequences waiting for a converter start in ascending number (R251). -/
def startWaiting (adc : Nat) (s : State) : State :=
  if s.adcBusy adc then s
  else
    match (List.range 16).find? (fun i => (s.seqn i).waiting && sqAdc ((s.seqn i).conf.getD []) == adc) with
    | none => s
    | some i => startRun i s

/-- The end of a run (R250 to R253): its table is published at once, unless the sequence has been configured anew since,
sequences that run after it are triggered, a continuous one is triggered anew, and the next run on its converter starts.
While BSX quiesces no further run is triggered (R225). -/
def runEnd (seq : Nat) (codes : List Sample) (s : State) : State :=
  let x := s.seqn seq
  let b := x.run
  let ms := (s.runModes (runSrcs b) x.runAt).1
  let res := runResults b (sqN b) ((codes ++ List.replicate ms.length ({ code := 0 } : Sample)).zip ms) 0
  let x1 := { x with running := false, armed := x.armed && sqTsrc b != 0, stale := false }
  let s2 := if x.stale then s.setSeqn seq x1
    else limitNotices seq x.owner x.results res
      (s.setSeqn seq { x1 with valid := true, results := res, time := x.startTime })
  let s3 := (List.range 16).foldl (fun s i =>
    let y := s.seqn i
    let b' := y.conf.getD []
    let chained := i != seq && sqTsrc b' == 3 && sqTsel b' == seq
    if y.armed && (chained || (i == seq && sqTsrc b' == 2)) then
      (if !s.running 5 then (if chained then trigSeq i s else s)
       else if y.running || y.waiting then trigSeq i s else s.setSeqn i { y with waiting := true })
    else s) s2
  runConverts ((List.range 4).foldl (fun s a => startWaiting a s) s3)

/-- Continuous sequences that a gate of BSX has held up run on when it is removed (R225, R250). -/
def resumeRuns (s : State) : State :=
  (List.range 16).foldl (fun s i =>
    let x := s.seqn i
    if x.armed && sqTsrc (x.conf.getD []) == 2 && !x.running && !x.waiting then trigSeq i s else s) s

/-- SEQUENCE_RUN_END (R252), with the samples of the run: its entries have been sampled back to back (R247, R249). -/
def execSequenceRunEnd (e : Stim) (seq : Nat) (codes : List Sample) (s : State) : Host.Outcome State Fault Refusal :=
  event e s (fun s =>
    let x := s.seqn seq
    decide (seq < 16) && x.running && s.bsx && decide (s.runTill x ≤ s.clk)) (runEnd seq codes)

end Sys2Proof.Machine
end

