-- ==== Sys2Proof/Machine/Yarrow.lean ====
section
/-!
DEFINITION. Yarrow mode (07): the limp policies, entries and their causes, reclaim, and the meanings of the LMP
commands.
-/

namespace Sys2Proof.Machine

/-! ### The policy block (R216) -/

/-- CHECK of a policy block. -/
def polCheckOk (b : List Word) : Bool := crc16 ((wordBytes b).take 8) == fld (par b 2) 15 0

def polPolicy (b : List Word) : Nat := fld (par b 0) 9 8
def polAfter (b : List Word) : Nat := fld (par b 0) 11 10
def polPin (b : List Word) : Nat := fld (par b 0) 18 16
def polPol (b : List Word) : Bool := bit (par b 0) 23
def polLact (b : List Word) : Nat := fld (par b 0) 31 24
def polHoldt (b : List Word) : Nat := fld (par b 1) 15 0
def polLduty (b : List Word) : Nat := fld (par b 1) 25 16

/-- LACT is an action of the channel (R216). -/
def lactOk (ch a : Nat) (s : State) : Bool :=
  if chClass ch ≠ 3 then decide (a ≤ 1)
  else if s.paired ch then a == 0 || a == 3 || a == 4 || a == 5
  else decide (a ≤ 2)

/-- Every field of a policy block lies in its range (R216, R217). -/
def polRangeOk (b : List Word) (s : State) : Bool :=
  let ch := fld (par b 0) 7 0
  let follow := polPolicy b == 3 || polAfter b == 3
  within (par b 0) 0xFF870FFF && within (par b 1) 0x03FFFFFF && within (par b 2) 0xFFFF && chValid ch &&
  !s.pairOdd ch && polAfter b != 2 && decide (polPin b ≤ 5) && (follow || (polPin b == 0 && !polPol b)) &&
  lactOk ch (polLact b) s && (polPolicy b == 0 || polLact b != 0) && decide (polHoldt b ≤ 2000) &&
  decide (polLduty b ≤ 1000)

/-- The valid policy block of a channel, if it has one (R218). -/
def Chan.polBlock (c : Chan) : Option (List Word) := c.policy.bind (fun b => if polCheckOk b then some b else none)

/-! ### Applying a policy (R212 to R215) -/

/-- The pin of a FOLLOW block is active at a die (R215). -/
def State.pinActive (s : State) (ch : Nat) (b : List Word) : Bool :=
  (s.pdie (chDie ch)).lh.testBit (polPin b) != polPol b

/-- LDUTY as the channel uses it (R218). -/
def Chan.limpDuty (c : Chan) (b : List Word) : Nat := if c.pwmEn then polLduty b else 1000

/-- The policy takes the channel off: a slew starts, a retry is cancelled and latches, a channel off by feed loss is
off (R212, R214). -/
def limpOff (ch : Nat) (s : State) : State :=
  let s1 := dropPend ch .flushed (s.setChn ch { s.chn ch with polOn := false })
  let c := s1.chn ch
  match c.st with
  | .slewOn | .inrush | .on => beginOff ch s1
  | .retryWait => s1.setChn ch { c with st := .latched, asked := false }
  | .feedLost => s1.setChn ch { c with st := .off, asked := false }
  | _ => s1

/-- The policy asks the channel on with an action and a duty (R212): one that is off turns on, one that is on otherwise
turns off first, one that is turning off with that action reverses (R215). A channel on at LDUTY with another duty about to
take force counts as on otherwise: it turns off and on (DESIGN CHOICE, log 46: R212 does not say that the new duty is
dropped). -/
def limpOn (ch act duty : Nat) (s : State) : State :=
  let s1 := s.setChn ch { s.chn ch with polOn := true, polAct := act, polDuty := duty }
  let c := s1.chn ch
  match c.st with
  | .slewOn | .inrush | .on =>
    if c.action = act ∧ c.dutyNext.getD c.duty = duty then s1 else beginOff ch s1
  | .slewOff => if c.action = act ∧ c.pend = none ∧ s.hot ch = false then autoOn .reversal ch s1 else s1
  | .off => limpWant ch s1
  | .feedLost => limpWant ch (s1.setChn ch { c with action := act, duty := duty })
  | _ => s1

/-- HOLD (R212): the switch keeps its state, DUTY and phase offset, so that a new duty not yet in force is dropped, and
the policy asks on what it holds on. A channel off by feed loss whose feed is back already and whose turn-on was withdrawn
at entry asks again at the next pass over the die's waiting turn-ons, the one that ends the entry (DESIGN CHOICE, log 46).
-/
def limpHold (ch : Nat) (b : List Word) (s : State) : State :=
  let c := s.chn ch
  s.setChn ch { c with polOn := c.st.isOn || c.st == .retryWait || c.st == .feedLost, polAct := c.action,
                       polDuty := c.duty, dutyNext := none, pwmOffNext := c.pwmOff
                       holdEnd := s.clk + polHoldt b * 1000000 }

/-- Policy pol of a block takes force. -/
def applyPol (ch pol : Nat) (b : List Word) (s : State) : State :=
  let s1 := s.setChn ch { s.chn ch with pol := pol }
  let c := s1.chn ch
  if pol = 1 then limpOn ch (polLact b) (c.limpDuty b) s1
  else if pol = 2 then limpHold ch b s1
  else if pol = 3 then
    if s1.pinActive ch b then limpOn ch (polLact b) (c.limpDuty b) s1 else limpOff ch s1
  else limpOff ch s1

/-- A channel enters LIMP (R212): a pending turn-on and a second action are withdrawn (05 R629). -/
def enterLimp (ch : Nat) (s : State) : State :=
  dropOn ch .flushed (fun s => s.setChn ch { s.chn ch with limp := true, asked := false, limpDue := false,
                                                           polOn := false, pol := 0 }) s

/-- A channel in LIMP applies its policy (POLICY_APPLY, R212); the odd half of a pair has none of its own. -/
def startPol (ch : Nat) (s : State) : State :=
  let c := s.chn ch
  if s.pairOdd ch then s
  else match c.polBlock with
  | some b => applyPol ch (polPolicy b) b s
  | none =>
    let d := chDie ch
    let s1 := if c.policy.isSome then s.setPdie d { s.pdie d with polBad := (s.pdie d).polBad ++ [ch] } else s
    limpOff ch (s1.setChn ch { s1.chn ch with pol := 0 })

/-! ### Entry (R207, R210, R211) -/

/-- A cause at a die stops its reclaim: LMP_RECLAIM completes with BUSY (R221). -/
def stopReclaim (d : Nat) (s : State) : State :=
  match s.yar.reclaims.find? (fun r => r.dies.contains d) with
  | none => s
  | some r =>
    let rs := s.yar.reclaims.filterMap (fun x =>
      if x.dies.contains d then
        (let left := x.dies.filter (· != d)
         if left = [] then none else some { x with dies := left })
      else some x)
    finishCmd r.cmd .busy [] { s with yar := { s.yar with reclaims := rs } }

/-- A die enters Yarrow mode on a cause, or records a further one (R207): every turn-on of the die is withdrawn before the
policies ask for theirs, in ascending CHAN order (R213). The logic side that has declared the die's link
lost knows of an entry by the same silence, and learns of another when the link returns (R210). -/
def enterDie (d cause : Nat) (s : State) : State :=
  let x := s.pdie d
  if x.yarrow then
    let s1 := stopReclaim d (s.setPdie d { x with causes := x.causes ||| 2 ^ cause })
    if x.causes.testBit cause then s1 else logObj 0x12 0xFF 0 d cause s1
  else
    let s1 := s.setPdie d { x with yarrow := true, causes := 2 ^ cause, since := s.clk,
                                   known := x.dead && cause == 0, polBad := [] }
    limpPump d ((dieChans d).foldl (fun s c => startPol c s) ((dieChans d).foldl (fun s c => enterLimp c s) s1))

/-- The link between the dies carries heartbeats both ways (R219): a valid heartbeat for 1 ms without interruption. -/
def State.beats1ms (s : State) (d : Nat) : Bool :=
  let x := s.pdie d
  x.beating && !x.dead && decide (x.beatFrom + 1000000 ≤ s.clk)

/-- LIMP_N or SAFE_N is low. -/
def State.limpLow (s : State) : Bool := s.probe .limpN 1 == 0
def State.safeLow (s : State) : Bool := s.probe .safeN 1 == 0

/-- A cause of R211 holds. -/
def State.foCause (s : State) : Bool :=
  s.yar.logicReset || s.limpLow || s.safeLow || (s.pdie 0).dead || (s.pdie 1).dead

/-- LMP_YARROW goes to T0 and every owner of a channel on the die (R224). -/
def yarrowNotice (d : Nat) (s : State) : State :=
  let x := s.pdie d
  let det := [wd (d + (if x.dead then x.causes ||| 1 else x.causes) * 2 ^ 8)]
  logNotice (s.feedAudience d) 0xFF 0x1201 det s

/-- The logic side learns of an entry or declares the link lost (R210, 06 R201): LMP_YARROW is posted, the entry is
recorded, every booking of the die is released and its queued requests end with FLUSHED. -/
def learnEntry (d : Nat) (s : State) : State :=
  let s1 := yarrowNotice d (s.setPdie d { s.pdie d with known := true })
  (dieChans d).foldl (fun s c => release c (withdraw c .flushed s)) s1

/-- Both dies, in ascending order. -/
def bothDies (f : Nat → State → State) (s : State) : State := f 1 (f 0 s)

/-- CHON and LH of a die as its last report has them (R223). -/
def lastReport (d : Nat) (s : State) : State :=
  let x := s.pdie d
  s.setPdie d { x with chonLast := ((dieChans d).filter (fun c => (s.chn c).st.isOn)).length, lhLast := x.lh }

/-- The die's link is declared lost (R210, R211, R223), which is a cause that stops its reclaim (R221); what it last
reported was received while its link carried frames. -/
def declareLost (d : Nat) (s : State) : State :=
  let s0 := stopReclaim d (if (s.pdie d).beating then lastReport d s else s)
  let x := s0.pdie d
  let s1 := learnEntry d (foForce (s0.setPdie d { x with dead := true
                                                         lostSince := if x.yarrow && x.known then x.since else s0.clk }))
  s1.setPdie d { s1.pdie d with known := x.yarrow }

/-! ### Commands -/

def lmpPolicySpec : OpSpec :=
  { opcode := 0x1201, plen := (· == 3), right := onlyT0
    parm := fun _ ps s => if !polCheckOk ps then some .badCheck else need (polRangeOk ps s)
    exec := fun c s =>
      let ch := parCh c.params
      if s.dieBusy (chDie ch) then .fail .busy s
      else .okay (s.setChn ch { s.chn ch with policy := some c.params }) }

/-- Dies of a mask. -/
def parDies (ps : List Word) : List Nat := setBits 2 (fld (par ps 0) 1 0)

def dieMaskOk (ps : List Word) : Option Status := need (within (par ps 0) 3 && par ps 0 != 0)

/-- Result of LMP_RECLAIM (R219): channels on, per die. -/
def State.onCounts (s : State) : Word :=
  let n := fun d => ((dieChans d).filter (fun c => (s.chn c).st.isOn)).length
  wd (n 1 * 2 ^ 8 + n 0)

/-- Every field output leaves FORCED once no cause of R211 remains (08 R242). -/
def foReleaseAll (s : State) : State :=
  if s.foCause then s else (List.range 16).foldl (fun s i => foRelease i s) s

def lmpReclaimSpec : OpSpec :=
  { opcode := 0x1202, plen := (· == 1), right := onlyT0
    parm := fun _ ps _ => dieMaskOk ps
    exec := fun c s =>
      let dies := (parDies c.params).filter (fun d => (s.pdie d).yarrow)
      if s.limpLow || s.safeLow || dies.any (fun d => !s.beats1ms d || s.yar.reclaims.any (fun r => r.dies.contains d)) then
        .fail .busy s
      else if dies = [] then .done .ok [s.onCounts] (foReleaseAll s)
      else .accept { s with yar := { s.yar with reclaims := s.yar.reclaims ++
        [{ cmd := c.id, dies := dies, named := dies, since := s.clk }] } } }

/-- LMP_RECLAIM (R219). -/
def execLmpReclaim (e : Stim) (r : Req) (s : State) : Host.Outcome State Fault Refusal :=
  .next (submit lmpReclaimSpec r (s.advance e))

/-- The two words of a die (R223). -/
def State.dieWords (s : State) (d : Nat) : List Word :=
  let x := s.pdie d
  let y := x.yarrow || x.dead
  let causes := if x.dead then x.causes ||| 1 else x.causes
  let on := ((dieChans d).filter (fun c => (s.chn c).st.isOn)).length
  [ wd ((if y then cap16 ((s.clk - (if x.dead then x.lostSince else x.since)) / 10000000) else 0) * 2 ^ 16 + (if y then causes % 32 else 0) * 16 +
      b2n x.dead * 2 + b2n y),
    wd ((if x.dead then x.chonLast else on) * 2 ^ 16 + (if x.dead then x.lhLast else x.lh)) ]

def lmpStatusSpec : OpSpec :=
  { opcode := 0x1203, plen := (· == 0), exec := fun _ s => .done .ok (s.dieWords 0 ++ s.dieWords 1) s }

/-- LMP_STATUS (R223). -/
def execLmpStatus (e : Stim) (r : Req) (s : State) : Host.Outcome State Fault Refusal :=
  .next (submit lmpStatusSpec r (s.advance e))

def lmpReadPolicySpec : OpSpec :=
  { opcode := 0x1204, plen := (· == 1), right := readsCh
    parm := fun _ ps _ => need (within (par ps 0) 0xFF && chValid (parCh ps))
    exec := fun c s =>
      let ch := parCh c.params
      if (s.pdie (chDie ch)).dead then .fail .busy s
      else .done .ok (((s.chn ch).policy).getD [0, 0, 0]) s }

def lmpEnterSpec : OpSpec :=
  { opcode := 0x1205, plen := (· == 1), right := onlyT0
    life := fun l => l == .manufacture || l == .service || l == .ret
    parm := fun _ ps _ => dieMaskOk ps
    exec := fun c s => .okay ((parDies c.params).foldl (fun s d => enterDie d 4 s) s) }

/-- LMP_ENTER (R207, R222). -/
def execLmpEnter (e : Stim) (r : Req) (s : State) : Host.Outcome State Fault Refusal :=
  .next (submit lmpEnterSpec r (s.advance e))

/-! ### Events -/

/-- No valid heartbeat has reached a die for 2 ms (R207, R208). -/
def State.silent2ms (s : State) (die : Nat) : Bool := decide ((s.pdie die).beatFrom + 2000000 ≤ s.clk)

/-- A cause holds at a die (R207): the heartbeats have been absent for 2 ms, the reset indication and the pins are levels,
and LMP_ENTER has named the die. -/
def State.causeHolds (s : State) (die cause : Nat) : Bool :=
  if cause = 0 then s.silent2ms die
  else if cause = 1 then s.yar.logicReset
  else if cause = 2 then s.limpLow
  else if cause = 3 then s.safeLow
  else cause == 4 && (s.pdie die).yarrow && (s.pdie die).causes.testBit 4

/-- A die whose heartbeats have been absent for 2 ms enters by HB (R207): its link carries none, and what it last reported
stands (R223). -/
def enterSilent (die : Nat) (s : State) : State :=
  let s1 := if (s.pdie die).beating then lastReport die s else s
  enterDie die 0 (s1.setPdie die { s1.pdie die with beating := false })

/-- YARROW_ENTRY (R207): a die enters by a cause that holds; one that is a level switches the field outputs off (R211). -/
def execYarrowEntry (e : Stim) (die cause : Nat) (s : State) : Host.Outcome State Fault Refusal :=
  event e s (fun s => decide (die < 2) && s.causeHolds die cause && s.diesUp) (fun s =>
    if cause = 0 then enterSilent die s
    else
      let s1 := enterDie die cause s
      if cause = 1 ∨ cause = 2 ∨ cause = 3 then foForce s1 else s1)

/-- HEARTBEAT_LOSS (R207): no valid heartbeat for 2 ms, before a SLEEP entry has been announced (R209). -/
def execHeartbeatLoss (e : Stim) (die : Nat) (s : State) : Host.Outcome State Fault Refusal :=
  event e s (fun s => decide (die < 2) && s.diesUp && s.silent2ms die) (enterSilent die)

/-- LOGIC_RESET_INDICATION (R207, R211): both dies; no command is taken until the logic die has started again. -/
def execLogicResetIndication (e : Stim) (s : State) : Host.Outcome State Fault Refusal :=
  event e s (fun s => s.diesUp) (fun s =>
    foForce (bothDies (fun d s => enterDie d 1 s) { s with yar := { s.yar with logicReset := true } }))

/-- A level shown by the model itself. -/
def setProbe (p : Probe) (v : Int) (s : State) : State := showSample s (p, v)

/-- LIMP_N_LOW (R207, R211). -/
def execLimpNLow (e : Stim) (s : State) : Host.Outcome State Fault Refusal :=
  event e s (fun s => s.diesUp) (fun s => foForce (bothDies (fun d s => enterDie d 2 s) (setProbe .limpN 0 s)))

/-- SAFE_N_LOW (19 R589): recorded in the Ledger. -/
def execSafeNLow (e : Stim) (s : State) : Host.Outcome State Fault Refusal :=
  event e s (fun s => s.diesUp) (fun s =>
    logObj 0x60 0xFF 0 0 0 (foForce (bothDies (fun d s => enterDie d 3 s)
      (setProbe .safeN 0 { s with yar := { s.yar with safeN := true } }))))

/-- SAFE_N_HIGH (19 R588). -/
def execSafeNHigh (e : Stim) (s : State) : Host.Outcome State Fault Refusal :=
  event e s (fun s => s.yar.safeN) (fun s => setProbe .safeN 1 { s with yar := { s.yar with safeN := false } })

/-- LINK_LOST_DECLARED (R210): the logic side learns of an entry over a link that is up, or declares the link lost. -/
def execLinkLostDeclared (e : Stim) (die : Nat) (s : State) : Host.Outcome State Fault Refusal :=
  event e s (fun s => decide (die < 2) && !(s.pdie die).dead && s.diesUp) (fun s =>
    let x := s.pdie die
    if x.yarrow && !x.known && x.beating then learnEntry die s else declareLost die s)

/-- HOLD_EXPIRY (R212): at HOLDT the channel applies AFTER; not during a reclaim of its die (R219). After a reclaim that
stopped (R221) the hold's end stands as it was, so that it may lie past, and a FOLLOW channel acts at its pin's next change
(DESIGN CHOICE, log 46: the spec does not say how the timers and pins resume). -/
def execHoldExpiry (e : Stim) (ch : Nat) (s : State) : Host.Outcome State Fault Refusal :=
  event e s (fun s =>
    let c := s.chn ch
    chValid ch && c.limp && c.pol == 2 && decide (c.holdEnd ≤ s.clk) &&
      !s.yar.reclaims.any (fun r => r.dies.contains (chDie ch)))
    (fun s => match (s.chn ch).polBlock with
      | some b => limpPump (chDie ch) (applyPol ch (polAfter b) b s)
      | none => limpPump (chDie ch) (limpOff ch s))

/-- The FOLLOW channels of a die in LIMP on a pin whose pin is now active, or inactive, apply their policy (R215). -/
def followPin (die pin : Nat) (act : Bool) (s : State) : State :=
  (dieChans die).foldl (fun s ch =>
    match (s.chn ch).polBlock with
    | some b => if (s.chn ch).limp && (s.chn ch).pol == 3 && polPin b == pin && s.pinActive ch b == act then applyPol ch 3 b s
                else s
    | none => s) s

/-- An LH pin's filtered level changes at a die: its FOLLOW channels in LIMP follow (R215), those that turn off before
those that turn on, and the turn-ons that waited for them follow (R213). -/
def lhChange (die pin : Nat) (level : Bool) (s : State) : State :=
  let x := s.pdie die
  let lh := if level then x.lh ||| 2 ^ pin else x.lh - (if x.lh.testBit pin then 2 ^ pin else 0)
  let s1 := s.setPdie die { x with lh := lh }
  if s1.yar.reclaims.any (fun r => r.dies.contains die) then s1
  else limpPump die (followPin die pin true (followPin die pin false s1))

/-- LH_PIN_CHANGE (R215). -/
def execLhPinChange (e : Stim) (die pin : Nat) (level : Bool) (s : State) : Host.Outcome State Fault Refusal :=
  event e s (fun s => decide (die < 2) && decide (pin < 6) && s.diesUp && (s.pdie die).lh.testBit pin != level)
    (lhChange die pin level)

/-- A channel leaves LIMP (R219 step 3 to 5, R220): owner and readers from the configuration image, its bookings made,
its state that of its switch. A policy turn-on whose slew has not started is off, a pending retry waits anew. -/
def leaveLimp (ch : Nat) (s : State) : State :=
  let c := s.chn ch
  let g := look {} s.image.chan ch
  let st : ChState := if c.st = .feedLost ∧ c.polOn = false then .off else c.st
  let s1 := s.setChn ch { c with limp := false, polOn := false, pend := none, asked := false, limpDue := false,
                                 owner := g.owner, readers := g.readers, st := st, onSince := s.clk }
  if c.st.isOn ∨ c.st = .slewOff then bookOn ch s1 else s1

/-- A die returns from Yarrow mode: the reclaim is recorded (R224), and each policy block found bad at entry (R218). -/
def reclaimDie (d : Nat) (s : State) : State :=
  let s1 := (dieChans d).foldl (fun s c => leaveLimp c s) s
  let s2 := (s1.pdie d).polBad.foldl (fun s c => logObj 0x12 0xFF 0x1202 d c s) (logObj 0x12 0xFF 0x1202 d 0 s1)
  let s3 := s2.setPdie d { s2.pdie d with yarrow := false, causes := 0, known := false, polBad := [] }
  (dieChans d).foldl (fun s c => feedReturnOne c s) s3

/-- RECLAIM_COMPLETE (R219): the oldest reclaim ends; the field outputs leave FORCED when no cause
remains, and LMP_RECLAIM ends with OK. -/
def execReclaimComplete (e : Stim) (s : State) : Host.Outcome State Fault Refusal :=
  event e s (fun s => !s.yar.reclaims.isEmpty) (fun s =>
    match s.yar.reclaims with
    | [] => s
    | r :: rs =>
      let s1 := r.dies.foldl (fun s d => reclaimDie d s) { s with yar := { s.yar with reclaims := rs } }
      let s3 := if (s1.cmd? r.cmd).isSome then foReleaseAll s1 else s1
      finishCmd r.cmd .ok [s3.onCounts] s3)

/-- VETCH_FRAME_ERROR (R208): the frame is no heartbeat and is retransmitted. -/
def execVetchFrameError (e : Stim) (die : Nat) (s : State) : Host.Outcome State Fault Refusal :=
  event e s (fun _ => decide (die < 2)) (fun s =>
    s.setPdie die { s.pdie die with frameErrors := (s.pdie die).frameErrors + 1 })

/-- HEARTBEAT_RESTORED (R223): valid heartbeats return, and the die's own values are reported again. -/
def execHeartbeatRestored (e : Stim) (die : Nat) (s : State) : Host.Outcome State Fault Refusal :=
  event e s (fun s => decide (die < 2) && (!(s.pdie die).beating || (s.pdie die).dead)) (fun s =>
    s.setPdie die { s.pdie die with beating := true, beatFrom := s.clk, dead := false })

end Sys2Proof.Machine
end

