-- ==== Sys2Proof/Machine/Gate.lean ====
section
/-!
DEFINITION. The quiescence rule (01 R22 to R31) as one machine over the gates of islands, ports, CAN controllers, LIN
channels, partitions and virtual instances.
-/

namespace Sys2Proof.Machine

/-- Keys of the functions other than islands in the table of gates. -/
def funcKey : Func → Nat
  | .island n => n
  | .port p => 16 + p
  | .can c => 32 + c
  | .lin l => 48 + l
  | .part p => 64 + p
  | .vi k i => 0x1000 + k * 256 + i

/-- The function exists. -/
def funcOk : Func → Bool
  | .island n => decide (n < 9)
  | .port p => decide (p < 16)
  | .can c => decide (c < 12)
  | .lin l => decide (l < 8)
  | .part p => decide (p < 8)
  | .vi k i => decide (k < 3) && decide (i < 96)

/-- State of a gate that nothing has changed since reset: islands and ports in RUN (10 R325), partitions POWER_GATED
(15 R477), controllers and channels CLOCK_GATED (12 R379). -/
def gateReset : Func → Gate
  | .island _ => {}
  | .port _ => {}
  | .part _ => { st := .powerGated }
  | .vi _ _ => { st := .powerGated }
  | _ => { st := .clockGated }

/-- The gate of a virtual instance: its shut-down is the reset of 04 R129, and a restart of FBX leaves it disabled. -/
def viGate : Option Vi → Gate
  | none => { st := .powerGated }
  | some v => if v.off then { st := .powerGated } else if v.resetting then { st := .quiescing, since := v.since } else {}

/-- The gate of a function. -/
def State.gate (s : State) (f : Func) : Gate :=
  match f with
  | .island n => (s.island n).gate
  | .vi k i => viGate (s.vi k i)
  | _ => look (gateReset f) s.gates (funcKey f)

/-- The state with a gate set; a virtual instance has none of its own. -/
def State.setGate (s : State) (f : Func) (g : Gate) : State :=
  match f with
  | .island n => s.setIsland n { s.island n with gate := g }
  | .vi _ _ => s
  | _ => { s with gates := put s.gates (funcKey f) g }

/-- An enable (R28): OK at once in RUN, else ACCEPTED. -/
def gateEnable (f : Func) (id : Nat) (s : State) : Ans :=
  let g := s.gate f
  match g.st with
  | .run => .okay s
  | .quiescing => .accept (s.setGate f { g with rePend := true, enCmds := g.enCmds ++ [id] })
  | .starting =>
    if g.disPend then
      let s1 := s.setGate f { g with disPend := false, disCmds := [], enCmds := g.enCmds ++ [id] }
      .accept (finishAll g.disCmds .flushed s1)
    else .accept (s.setGate f { g with enCmds := g.enCmds ++ [id] })
  | _ => .accept (s.setGate f { g with st := .starting, cold := g.st != .clockGated, enCmds := [id], since := s.clk })

/-- A disable to the clock gate or, with deep, the power gate (R28). A clock-gated function goes to the power gate
within the same step, its contents lost by the function's own hook. -/
def gateDisable (f : Func) (deep : Bool) (id : Nat) (lose : State → State) (s : State) : Ans :=
  let g := s.gate f
  match g.st with
  | .run => .accept (s.setGate f { g with st := .quiescing, deep := deep, disCmds := [id], since := s.clk })
  | .quiescing =>
    let s1 := s.setGate f { g with rePend := false, enCmds := [], deep := g.deep || deep, disCmds := g.disCmds ++ [id] }
    .accept (finishAll g.enCmds .flushed s1)
  | .starting =>
    .accept (s.setGate f { g with disPend := true, deep := (g.disPend && g.deep) || deep, disCmds := g.disCmds ++ [id] })
  | .clockGated =>
    if deep then .ongoing (finishCmd id .ok [] (lose ((interim id .accepted s).setGate f { g with st := .powerGated })))
    else .okay s
  | _ => .okay s

/-- The module itself enables a function. -/
def gateStart (f : Func) (s : State) : State :=
  let g := s.gate f
  match g.st with
  | .run => s
  | .quiescing => s.setGate f { g with rePend := true }
  | .starting => finishAll g.disCmds .flushed (s.setGate f { g with disPend := false, disCmds := [] })
  | _ => s.setGate f { g with st := .starting, cold := g.st != .clockGated, since := s.clk }

/-- The module itself disables a function to its clock gate. -/
def gateStop (f : Func) (s : State) : State :=
  let g := s.gate f
  match g.st with
  | .run => s.setGate f { g with st := .quiescing, deep := false, since := s.clk }
  | .quiescing => finishAll g.enCmds .flushed (s.setGate f { g with rePend := false, enCmds := [] })
  | .starting => s.setGate f { g with disPend := true }
  | _ => s

/-- The gate of a shut-down is applied (R22 step 4, R30): its disables complete with OK, what a power gate loses is
lost, and a pending enable begins. -/
def gateApply (f : Func) (lose : State → State) (s : State) : State :=
  let g := s.gate f
  let st : GateState := if g.deep then .powerGated else .clockGated
  let s1 := s.setGate f { g with st := st, disCmds := [] }
  let s2 := finishAll g.disCmds .ok (if g.deep then lose s1 else s1)
  if g.rePend then
    s2.setGate f { s2.gate f with st := .starting, rePend := false, cold := g.deep, deep := false, since := s.clk }
  else s2.setGate f { s2.gate f with deep := false }

/-- A start reaches RUN (R28): its enables complete with OK; a pending disable begins its shut-down in the same
cycle. -/
def gateRun (f : Func) (s : State) : State :=
  let g := s.gate f
  let g1 := { g with st := if g.disPend then GateState.quiescing else GateState.run, disPend := false, enCmds := [],
                     cold := false, since := s.clk }
  finishAll g.enCmds .ok (s.setGate f g1)

end Sys2Proof.Machine
end

