-- ==== Sys2Proof/Machine/Sys.lean ====
section
/-!
DEFINITION. Meanings of the SYS commands that read or withdraw (02 R50, 01 R36, 00 R4), and of IDREAD.
-/

namespace Sys2Proof.Machine

def sysEchoSpec : OpSpec :=
  { opcode := 0x0001, plen := (· ≤ 1019), p1 := false, exec := fun c s => .done .ok c.params s }

/-- SYS_ECHO (R51). -/
def execSysEcho (e : Stim) (r : Req) (s : State) : Host.Outcome State Fault Refusal :=
  .next (submit sysEchoSpec r (s.advance e))

/-- Commands of a tenant with a sequence number that have not begun to take effect: they wait on a not-before time not
yet reached, or are DEFERRED (R67, R68). -/
def State.withdrawable (s : State) (t seq : Nat) : List Nat :=
  (s.inflight.filter (fun c => c.tenant == t && c.seq == seq &&
    ((c.phase == .waiting && !c.due) || c.phase == .deferred))).map (·.id)

/-- Withdraws a command that waits or is DEFERRED, with a status. -/
def withdrawCmd (st : Status) (s : State) (id : Nat) : State := endCmd id st (reblock (forget id s))

def sysCancelSpec : OpSpec :=
  { opcode := 0x0002, plen := (· == 1), parm := fun _ ps _ => need (within (par ps 0) 0xFFFF)
    exec := fun c s =>
      let ids := s.withdrawable c.tenant (fld (par c.params 0) 15 0)
      .done .ok [wd ids.length] (ids.foldl (withdrawCmd .flushed) s) }

/-- SYS_CANCEL (R67). -/
def execSysCancel (e : Stim) (r : Req) (s : State) : Host.Outcome State Fault Refusal :=
  .next (submit sysCancelSpec r (s.advance e))

def sysIdentitySpec : OpSpec :=
  { opcode := 0x0003, plen := (· == 0)
    exec := fun _ s => if s.ident.bad then .fail .internal s else .done .ok (wordsOf 16 s.ident.primary) s }

/-- SYS_IDENTITY (00 R4, R6). -/
def execSysIdentity (e : Stim) (r : Req) (s : State) : Host.Outcome State Fault Refusal :=
  .next (submit sysIdentitySpec r (s.advance e))

def sysLimitsSpec : OpSpec :=
  { opcode := 0x0004, plen := (· == 0)
    exec := fun c s =>
      let all := (s.inflight.filter (fun x => !x.noSlot)).length
      .done .ok [wd ((s.inUse c.tenant - 1) * 2 ^ 16 + (all - 1)),
        wd ((s.tenant c.tenant).stalls * 2 ^ 16 + (s.tenant c.tenant).cmd)] s }

/-- SYS_LIMITS (R52). -/
def execSysLimits (e : Stim) (r : Req) (s : State) : Host.Outcome State Fault Refusal :=
  .next (submit sysLimitsSpec r (s.advance e))

/-- STATE encodings of R36 and R450. -/
def GateState.code : GateState → Nat
  | .powerGated => 0 | .clockGated => 1 | .starting => 2 | .run => 3 | .quiescing => 4 | .stopped => 5

/-- An island's status word (01 R36). -/
def State.islWord (s : State) (n : Nat) : Word :=
  let x := s.island n
  wd (x.forced * 2 ^ 16 + b2n x.gate.rePend * 2 ^ 11 + b2n x.gate.disPend * 2 ^ 10 + b2n x.clkLoss * 2 ^ 9 + x.gate.st.code)

def sysIslandStatusSpec : OpSpec :=
  { opcode := 0x0011, plen := (· == 0), exec := fun _ s => .done .ok ((List.range 9).map s.islWord) s }

/-- SYS_ISLAND_STATUS (01 R36). -/
def execSysIslandStatus (e : Stim) (r : Req) (s : State) : Host.Outcome State Fault Refusal :=
  .next (submit sysIslandStatusSpec r (s.advance e))

/-- IDREAD (00 R7): the primary fuses, whatever the check of R6 found. -/
def execIdread (e : Stim) (s : State) : Host.Outcome State Fault Refusal :=
  let s1 := s.advance e
  .next { s1 with rdata := wordsOf 16 s1.ident.primary }

end Sys2Proof.Machine
end

