-- ==== Sys2Proof/Machine/Que.lean ====
section
/-!
DEFINITION. The queue engine (03): packets in submission queues, doorbells, flush, level and pointer integrity, and what
a fault or reset of a tenant does to its queues and instances (04 R121, R123, R129).
-/

namespace Sys2Proof.Machine

/-! ### Uncorrectable errors of memories (15 R471, R479) -/

/-- Counts of memory m. -/
def State.memCnt (s : State) (m : Nat) : MemCnt := look {} s.cpu.cnt m
def State.setMemCnt (s : State) (m : Nat) (x : MemCnt) : State := { s with cpu := { s.cpu with cnt := put s.cpu.cnt m x } }

/-- The memory that holds an address, as the word index of R479; a tile's own alias names that tile (R453). -/
def memIndex (a : Nat) : Option Nat :=
  if 0x20000000 ≤ a ∧ a < 0x21000000 then some ((a - 0x20000000) / 0x100000)
  else if 0x30000000 ≤ a ∧ a < 0x30100000 then some (16 + (a - 0x30000000) / 0x40000)
  else if 0x10000000 ≤ a ∧ a < 0x11000000 then some 20
  else if 0x11000000 ≤ a ∧ a < 0x12000000 then some 21
  else none

/-- An uncorrectable word has been read: counted, recorded and posted, and FAULT_N's UNCORR latches (R471, 19 R588). A
word in a spill region does so at the first read alone (03 R77). -/
def uncorrectable (m a : Nat) (s : State) : State :=
  let w := a / 8 * 8
  if (s.spillAt a).isSome && s.cpu.uncorr.contains w then s
  else
    let x := s.memCnt m
    let s1 := s.setMemCnt m { x with unc := satInc 255 x.unc }
    logNotice (s.holders 14) 0xFF 0x4004 [wd (m + 2 ^ 8), wd a, wd (a / 2 ^ 32)]
      (latchFault 6 { s1 with cpu := { s1.cpu with uncorr := w :: s1.cpu.uncorr.filter (· != w) } })

/-- An engine has read an uncorrectable word at an address. -/
def badRead (a : Nat) (s : State) : State :=
  match memIndex a with
  | some m => uncorrectable m a s
  | none => s

/-! ### Packet headers (02 R37, R38) -/

/-- A packet header as its sixteen bytes spell it. -/
structure Hdr where
  version : Nat
  rsv : Bool
  chained : Bool
  notify : Bool
  lateOk : Bool
  field : Nat
  opcode : Nat
  seq : Nat
  plen : Nat
  notBefore : Nat
  /-- HCRC matches. -/
  ok : Bool
  deriving DecidableEq, Repr

/-- Reads a header from a slot's bytes. -/
def parseHdr (bs : List Byte) : Hdr :=
  let f := le bs 0 1
  { version := f / 16, rsv := f.testBit 3, chained := f.testBit 2, notify := f.testBit 1, lateOk := f.testBit 0,
    field := le bs 1 1, opcode := le bs 2 2, seq := le bs 4 2, plen := le bs 6 2, notBefore := le bs 8 6,
    ok := crc16 (fit 14 bs) == le bs 14 2 }

/-- The header of a slot, failed when the slot has an uncorrectable error (03 R77). -/
def Slot.hdr (x : Slot) : Hdr := let h := parseHdr x.bytes; { h with ok := h.ok && !x.bad }

/-- Slots of a packet (02 R43). -/
def itemLen (plen : Nat) : Nat := if 1020 < plen then 1 else (16 + 4 * plen + 63) / 64

/-- A final reply to an item that never became a command: OPCODE, SEQ and version echoed as received. Held for CQ room it
keeps no command slot, since the item was never in execution (DEDUCED, log 44). -/
def replyRaw (t : Nat) (h : Hdr) (st : Status) (res : List Word) (s : State) : State :=
  postReply t { version := h.version, opcode := h.opcode, seq := h.seq, status := st, result := res } none
    (countReset t st s)

/-! ### Flush (03 R96 to R99) -/

/-- What a flush does to an item: it answers FLUSHED, or BAD_CHECK with the slots that R55 discards. -/
inductive Flushed where
  | gone (h : Hdr)
  | bad (h : Hdr) (n : Nat)
  deriving DecidableEq, Repr

/-- The items of a submission queue's slots, and what remains of a partial one: slots still to come and its header
bytes. -/
def flushWalk : Nat → List Slot → List Flushed × Nat × List Byte
  | 0, _ => ([], 0, [])
  | _ + 1, [] => ([], 0, [])
  | n + 1, x :: xs =>
    let h := x.hdr
    if !h.ok then ([.bad h (xs.length + 1)], 0, [])
    else
      let len := itemLen h.plen
      if len ≤ xs.length + 1 then
        let r := flushWalk n (xs.drop (len - 1))
        (.gone h :: r.1, r.2)
      else ([], len - (xs.length + 1), x.bytes)

/-- Raises GEN, discards the slots and closes the chain of a queue (R96, 02 R65). -/
def Queue.flushed (x : Queue) : Queue :=
  { x.setCons x.prod with slots := [], gen := (x.gen + 1) % 16, chain := none }

/-- Frames of a remote tenant no longer stand for slots of a queue that has been emptied. -/
def clearOuts (t q : Nat) (s : State) : State :=
  let x := s.tenant t
  match x.assoc with
  | none => s
  | some a =>
    let kind := if q = 4 then 1 else 2
    let outs := a.outs.map (fun o => if o.kind = kind then { o with slots := 0 } else o)
    s.setTenant t { x with assoc := some { a with outs := outs } }

/-- Counts a BAD_CHECK of a tenant in the present window of 1 s (04 R121). -/
def countBad (t : Nat) (s : State) : State :=
  let x := s.tenant t
  s.setTenant t { x with badChk := x.badChk.inc s }

/-- An HCRC failure (02 R55): one BAD_CHECK reply with the number of slots discarded, and the Ledger record. -/
def badReply (t : Nat) (h : Hdr) (n : Nat) (s : State) : State :=
  countBad t (replyRaw t h .badCheck [wd n] (logObj 0 t h.opcode n 0 s))

/-- Replies of the items a flush discards. -/
def flushReplies (t : Nat) : List Flushed → State → State
  | [], s => s
  | .gone h :: fs, s => flushReplies t fs (replyRaw t h .flushed [] s)
  | .bad h n :: fs, s => flushReplies t fs (badReply t h n s)

/-- Flushes queue q of tenant t, with nothing said of a fault. -/
def flushPlain (t q : Nat) (s : State) : State :=
  let x := s.queue t q
  if x.depth = 0 then s
  else if 4 ≤ q then clearOuts t q (s.setQueue t q x.flushed)
  else
    let r := flushWalk 65536 (s.slotsOf x)
    let x1 := if x.drain = 0 then { x.flushed with drain := r.2.1, drainHdr := r.2.2 } else x.flushed
    flushReplies t r.1 (s.setQueue t q x1)

/-! ### Tenant faults and resets (04 R121, R123) -/

/-- Commands of a tenant that wait on a not-before time or are DEFERRED. -/
def State.waitingOf (s : State) (t : Nat) : List Nat :=
  (s.inflight.filter (fun c => c.tenant == t && (c.phase == .waiting || c.phase == .deferred))).map (·.id)

/-- Steps 1 to 4 of R123, to RESETTING or DELETING. -/
def tenResetBegin (t : Nat) (st : TenState) (cmds : List Nat) (s : State) : State :=
  let s0 := s.setTenant t { s.tenant t with st := st, resetCmds := cmds, flushedN := 0, resetN := 0 }
  let s2 := (List.range 4).foldl (fun s q => flushPlain t q s) s0
  let s3 := (s2.waitingOf t).foldl (withdrawCmd .tenantReset) s2
  let s4 := dropGroups t (dropXfers t s3)
  (s4.visOf t).foldl (fun s k => viResetBegin k none s) s4

/-- A LIVE tenant becomes FAULTED (R121): recorded, TEN_FAULT to T0 and the tenant, and reset under FAULTPOL 1. -/
def tenFault (t cause : Nat) (s : State) : State :=
  let x := s.tenant t
  if x.st ≠ .live then s
  else
    let s1 := logNotice [0, t] t 0x0101 [wd t, wd cause] (s.setTenant t { x with st := .faulted })
    if x.faultPol = 1 then tenResetBegin t .resetting [] s1 else s1

/-- The eighth BAD_CHECK in one window faults the tenant (R121 cause 3). -/
def badFault (t : Nat) (s : State) : State :=
  if (s.tenant t).badChk.now s = 8 then tenFault t 3 s else s

/-- Flushes queue q of tenant t (R96). -/
def flushQueue (t q : Nat) (s : State) : State :=
  let n := (s.tenant t).badChk.now s
  let s1 := flushPlain t q s
  if n < (s1.tenant t).badChk.now s1 then badFault t s1 else s1

/-! ### Doorbells (R86) -/

/-- Q_PEER.WIN (R82). -/
def Queue.window (x : Queue) (q : Nat) : Nat := min 8 (if q < 4 then x.room else x.occ)

/-- The tenant's own pointer of queue q (R81). -/
def Queue.own (x : Queue) (q : Nat) : BitVec 13 := if q < 4 then x.prod else x.cons

/-- Q_PTR, Q_PEER, Q_STATUS and Q_LEVEL (03 R81 to R84). -/
def Queue.regs (x : Queue) (q : Nat) : List Word :=
  if x.depth = 0 then [0, 0, 0, 0]
  else
    let peer := if q < 4 then x.cons else x.prod
    [wd (x.own q).toNat, wd (peer.toNat + x.window q * 2 ^ 16),
     wd (x.occ + x.drain * 2 ^ 16 + x.gen * 2 ^ 23 + b2n (x.drain != 0) * 2 ^ 27 + b2n x.ptrErr * 2 ^ 28 + b2n x.ovr * 2 ^ 29 +
       b2n x.latch * 2 ^ 30 + b2n (x.levelEn && decide (x.level < x.occ)) * 2 ^ 31),
     wd (x.level + b2n x.levelEn * 2 ^ 31)]

/-- Q_CFG (R85). -/
def Queue.cfg (x : Queue) : Word := wd (x.depth + b2n (x.depth != 0) * 2 ^ 4)

/-- Slot bytes as they stand in the producer window at a slot index (R74). -/
def Queue.winBytes (x : Queue) (i : Nat) : List Byte := (List.range 64).map (fun k => look 0 x.win (i % 8 * 64 + k))

/-- The slots that a doorbell commits from the window: n from the producer pointer on. -/
def Queue.commitSlots (x : Queue) (n : Nat) : List (List Byte) :=
  (List.range n).map (fun j => x.winBytes ((ptrAdd x.depth x.prod j).toNat % 4096))

/-- Whether the next slot committed begins an item: the last item of the queue is complete. -/
def itemOpen : Nat → List Slot → Bool
  | 0, _ => false
  | _ + 1, [] => false
  | n + 1, x :: xs =>
    let h := x.hdr
    if !h.ok then xs.length == 0
    else
      let len := itemLen h.plen
      if len ≤ xs.length + 1 then itemOpen n (xs.drop (len - 1)) else true

/-- Slots committed to an SQ (R97): first those that DRAIN still drops, then new ones. The reply of the flushed partial
item is posted when its last slot has been dropped; a reset counts it if that comes before its end (DEDUCED, log 38:
04 R136 names the partial item as withdrawn from step 1 to step 6). -/
def commitSq (t q : Nat) (sl : List (List Byte)) (s : State) : State :=
  let x := s.queue t q
  let d := min x.drain sl.length
  let p := ptrAdd x.depth x.prod d
  let x1 := if d = 0 then x else { (x.setProd p).setCons p with drain := x.drain - d }
  let s1 := s.setQueue t q x1
  let s2 := if 0 < d ∧ x.drain = d then replyRaw t (parseHdr x.drainHdr) .flushed []
      (s1.setQueue t q { x1 with drainHdr := [] }) else s1
  let rest := sl.drop d
  if rest = [] then s2
  else
    let openItem := itemOpen 65536 (s2.slotsOf (s2.queue t q))
    let ns := mkSlots x.gen rest
    postItem t q (if openItem then ns.map (fun n => { n with first := false }) else ns) s2

/-- A refused doorbell (R86). -/
def doorRefused (t q : Nat) (ptr : Nat) (s : State) : State :=
  notice t 0x0203 [queWord t q, wd ptr] (s.setQueue t q { s.queue t q with ovr := true })

/-- A write of Q_PTR (R86, R102). -/
def ring (t q : Nat) (value : Word) (s : State) : State :=
  let x := s.queue t q
  let ptr := value.toNat % 2 ^ 13
  if x.depth = 0 then s
  else
    let size := 2 ^ x.depth
    let p : BitVec 13 := BitVec.ofNat 13 ptr
    let adv := (ptrLin x.depth p + 2 * size - ptrLin x.depth (x.own q)) % (2 * size)
    let lim := if q < 4 then x.window q else x.occ
    if x.ptrErr || decide (size ≤ ptr % 4096) || decide (lim < adv) then doorRefused t q ptr s
    else if adv = 0 then s
    else if q < 4 then commitSq t q (x.commitSlots adv) s
    else s.takeSlots t q adv

/-- The requester is bound to tenant t (R80): a local tenant's partition. -/
def State.boundTo (s : State) (who t : Nat) : Bool :=
  s.exists t && (s.tenant t).kind == 0 && (s.tenant t).reqid == who

/-- A write by a requester at an offset of tenant t's doorbell page: one that is not bound is ignored and recorded with
its address, the first of each second (R80). -/
def pageOp (who t q off : Nat) (f : State → State) (s : State) : State :=
  if 6 ≤ q ∨ 32 ≤ t then s
  else if s.boundTo who t then f s
  else logFirst 1 0x02 t (0x40000000 + 0x1000 * t + off) s

/-- The offset of a register of queue q in a doorbell page (R78). -/
def regOff (q reg : Nat) : Nat := 0xC00 + 0x20 * q + reg

/-- A pointer of the queue disagrees with its inverted copy: the pair, as it is kept (R100). -/
def Queue.ptrBad (x : Queue) : Option (BitVec 13 × BitVec 13) :=
  if x.prodInv ≠ ~~~x.prod then some (x.prod, x.prodInv)
  else if x.consInv ≠ ~~~x.cons then some (x.cons, x.consInv)
  else none

/-- The forced queue reset (R101), with the pair as it was kept. A command of a reset SQ that has been dispatched and has no
reply yet, also one that waits on its not-before time or at a crossing, goes on and executes: R102 says that it never does,
04 R120 lets commands in execution continue, and the model takes the latter (DESIGN CHOICE, log 44). -/
def forcedReset (t q ptr inv : Nat) (s : State) : State :=
  let x := s.queue t q
  let x1 := (x.setProd 0).setCons 0
  let s1 := s.setQueue t q { x1 with slots := [], gen := (x.gen + 1) % 16, drain := 0, drainHdr := [], ptrErr := true,
                                     chain := none }
  let s2 := if 4 ≤ q then clearOuts t q s1 else s1
  tenFault t 4 (logNotice [t, 0] t 0x0202 [queWord t q, wd ptr, wd inv] s2)

/-- The comparison of both pointers of a queue with their copies, at an update and once in every 1 µs (R100). -/
def checkPtrs (t q : Nat) (s : State) : State :=
  match (s.queue t q).ptrBad with
  | some (p, i) => forcedReset t q p.toNat i.toNat s
  | none => s

/-- All six queues of a tenant are compared before a reset flushes them (R100). -/
def checkAll (t : Nat) (s : State) : State := (List.range 6).foldl (fun s q => checkPtrs t q s) s

/-- DOORBELL (R86). -/
def execDoorbell (e : Stim) (who t q : Nat) (value : Word) (s : State) : Host.Outcome State Fault Refusal :=
  event e s (fun s => s.running 1) (pageOp who t q (regOff q 0) (fun s => ring t q value (checkPtrs t q s)))

/-- FLUSH (R96): a write of Q_CTL. -/
def execFlush (e : Stim) (who t q : Nat) (value : Word) (s : State) : Host.Outcome State Fault Refusal :=
  event e s (fun s => s.running 1) (pageOp who t q (regOff q 0x10) (fun s =>
    if bit value 0 then flushQueue t q (checkPtrs t q s) else s))

/-- An upward crossing of the present queue-engine cycle, and whether QUE_LEVEL was posted for it (R95). Events share a cycle
of the queue engine when their clk, in whole nanoseconds, is the same (DESIGN CHOICE, log 44). -/
def State.crossedNow (s : State) (x : Queue) : Option Bool :=
  x.crossed.bind (fun c => if c.1 = s.clk then some c.2 else none)

/-- Clears the W1C bits of Q_STATUS (R83). A clear of LATCH on the cycle of an upward crossing leaves it set and posts
QUE_LEVEL, if the crossing has not (R95). -/
def clearStatus (t q : Nat) (v : Word) (s : State) : State :=
  let x := s.queue t q
  if x.depth = 0 then s
  else
    let both := s.crossedNow x
    let s1 := s.setQueue t q { x with
      latch := x.latch && (!bit v 30 || both.isSome), ovr := x.ovr && !bit v 29, ptrErr := x.ptrErr && !bit v 28
      crossed := if bit v 30 && both.isSome then some (s.clk, true) else x.crossed }
    if bit v 30 ∧ both = some false then notice t 0x0201 [queWord t q, wd x.occ] s1 else s1

/-- Q_STATUS_CLEAR (R95). -/
def execQStatusClear (e : Stim) (who t q : Nat) (value : Word) (s : State) : Host.Outcome State Fault Refusal :=
  event e s (fun s => s.running 1) (pageOp who t q (regOff q 8) (clearStatus t q value))

/-- Sets Q_LEVEL (R84). -/
def setLevel (t q : Nat) (v : Word) (s : State) : State :=
  let x := s.queue t q
  if x.depth = 0 then s
  else s.setQueue t q { x with levelEn := bit v 31, level := min (fld v 12 0) (2 ^ x.depth - 1) }

/-- A write of width bits to offset off of tenant t's page (R78, R79): the producer windows, and the registers by their
access codes. A 64-bit write to registers acts as its two words. -/
def pageWord (who t off : Nat) (v : Word) (s : State) : State :=
  if off < 0x800 then
    pageOp who t 0 off (fun s =>
      let q := off / 0x200
      let x := s.queue t q
      let win := (List.range 4).foldl (fun w k => put w (off % 0x200 + k) (BitVec.ofNat 8 (v.toNat / 256 ^ k))) x.win
      s.setQueue t q { x with win := win }) s
  else if 0xC00 ≤ off ∧ off < 0xCC0 then
    let q := (off - 0xC00) / 0x20
    let r := off % 0x20
    if r = 0 then pageOp who t q off (fun s => ring t q v (checkPtrs t q s)) s
    else if r = 8 then pageOp who t q off (clearStatus t q v) s
    else if r = 0xC then pageOp who t q off (setLevel t q v) s
    else if r = 0x10 then pageOp who t q off (fun s => if bit v 0 then flushQueue t q (checkPtrs t q s) else s) s
    else pageOp who t q off (fun s => s) s
  else pageOp who t 0 off (fun s => s) s

/-- A word of a doorbell page (R78, R79): the consumer windows, the registers; all else reads as 0. -/
def State.pageWordAt (s : State) (t off : Nat) : Word :=
  if 0x800 ≤ off ∧ off < 0xC00 then
    let x := s.queue t (if off < 0xA00 then 4 else 5)
    wd (le (look [] x.cwin (off % 0x200 / 64)) (off % 64) 4)
  else if 0xC00 ≤ off ∧ off < 0xCC0 then
    let q := (off - 0xC00) / 0x20
    let x := s.queue t q
    par (x.regs q ++ [0, x.cfg]) (off % 0x20 / 4)
  else 0

/-- What a read of a doorbell page returns (R78, R80): 0 for another width than 32 and 64 bits, for an unaligned address
and for a requester that is bound neither to the page's tenant nor to T0. -/
def State.pageRead (s : State) (who addr width : Nat) : Nat :=
  let t := (addr - 0x40000000) / 0x1000
  let off := addr % 0x1000
  if !(s.boundTo who t || s.boundTo who 0) then 0
  else if width = 32 ∧ off % 4 = 0 then (s.pageWordAt t off).toNat
  else if width = 64 ∧ off % 8 = 0 then (s.pageWordAt t off).toNat + (s.pageWordAt t (off + 4)).toNat * 2 ^ 32
  else 0

/-- A write to a doorbell page by width and alignment (R78): others than 32 and 64 bits, or unaligned, are ignored. -/
def pageWrite (who addr width value : Nat) (s : State) : State :=
  let t := (addr - 0x40000000) / 0x1000
  let off := addr % 0x1000
  pageOp who t 0 off (fun s =>
  if width = 32 ∧ off % 4 = 0 then pageWord who t off (wd value) s
  else if width = 64 ∧ off % 8 = 0 then pageWord who t (off + 4) (wd (value / 2 ^ 32)) (pageWord who t off (wd value) s)
  else s) s

/-- HELD_REPLY_POSTED (R90): the oldest held reply enters the CQ when it has room. -/
def heldPost (t : Nat) (s : State) : State :=
  let x := s.queue t 4
  match x.held with
  | [] => s
  | h :: hs =>
    if x.room < h.slots.length then s
    else
      let s1 := postItem t 4 (mkSlots x.gen h.slots) (s.setQueue t 4 { x with held := hs })
      match h.final with
      | some id => dropCmd id s1
      | none => s1

/-- HELD_REPLY_POSTED (R90). -/
def execHeldReplyPosted (e : Stim) (t : Nat) (s : State) : Host.Outcome State Fault Refusal :=
  event e s (fun s => s.exists t) (fun s => heldPost t (checkPtrs t 4 s))

/-! ### Pointer integrity (R100 to R102) -/

/-- An upset of a pointer or its copy since the last comparison: the pair as it is now kept. A pair that agrees is no
upset and changes nothing. -/
def upset (t q : Nat) (prod : Bool) (ptr inv : Nat) (s : State) : State :=
  let x := s.queue t q
  let p : BitVec 13 := BitVec.ofNat 13 ptr
  let i : BitVec 13 := BitVec.ofNat 13 inv
  if i = ~~~p then s
  else s.setQueue t q (if prod then { x with prod := p, prodInv := i } else { x with cons := p, consInv := i })

/-- POINTER_CHECK (R100): the pointers of a queue are compared with their copies, the producer or the consumer pair as an
upset has left it. -/
def execPointerCheck (e : Stim) (t q : Nat) (prod : Bool) (ptr inv : Nat) (s : State) :
    Host.Outcome State Fault Refusal :=
  event e s (fun s => decide (q < 6) && s.exists t && (s.queue t q).depth != 0)
    (fun s => checkPtrs t q (upset t q prod ptr inv s))

end Sys2Proof.Machine
end

