-- ==== Sys2Proof/Machine/Shaper.lean ====
section
/-!
DEFINITION. Gate schedules and credit-based shapers (11 R343 to R346): positions, open intervals, credits.
-/

namespace Sys2Proof.Machine

/-! ### Gate lists -/

/-- The segments of a cycle (R344): state word and duration, the last one held or cut at the cycle's end. -/
def segs : List (Nat × Nat) → Nat → List (Nat × Nat)
  | [], _ => []
  | [e], left => [(e.1, left)]
  | e :: es, left => if left ≤ e.2 then [(e.1, left)] else (e.1, e.2) :: segs es (left - e.2)

/-- The segments of a list's cycle. -/
def GateList.segs (g : GateList) : List (Nat × Nat) := Machine.segs g.entries g.cycle

/-- Position in the cycle: (now − S) mod CYCLE over full times (R344). -/
def GateList.pos (g : GateList) (full : Nat) : Nat := (((full : Int) - (g.start : Int)) % (g.cycle : Int)).toNat

/-- Index of the segment at a position, and the segments from that position to the cycle's end. -/
def segAt : List (Nat × Nat) → Nat → Nat → Nat × List (Nat × Nat)
  | [], _, i => (i, [])
  | e :: es, pos, i => if pos < e.2 then (i, (e.1, e.2 - pos) :: es) else segAt es (pos - e.2) (i + 1)

/-- Entry and state word in force at a full time. -/
def GateList.at_ (g : GateList) (full : Nat) : Nat × Nat :=
  let r := segAt g.segs (g.pos full) 0
  (r.1, (r.2.headD (0, 0)).1)

/-- Total of the leading segments that are open. -/
def openSum (ok : Nat → Bool) : List (Nat × Nat) → Nat
  | [] => 0
  | e :: es => if ok e.1 then e.2 + openSum ok es else 0

/-- Time from a full time to the next closing; none when the gate never closes. An interval open at the cycle's end
goes on in entry 0 (R345). -/
def GateList.openFor (g : GateList) (ok : Nat → Bool) (full : Nat) : Option Nat :=
  let rest := (segAt g.segs (g.pos full) 0).2
  let n := openSum ok (rest ++ g.segs)
  if g.cycle ≤ n ∧ g.segs.all (fun e => ok e.1) then none else some n

/-- The longest open interval; none when the gate never closes. -/
def GateList.longest (g : GateList) (ok : Nat → Bool) : Option Nat :=
  let all := g.segs
  if all.all (fun e => ok e.1) then none
  else some ((List.range all.length).foldl (fun m i => max m (openSum ok (all.drop i ++ all))) 0)

/-- The operating list of a gate, keyed by port or 16 + stream gate. -/
def State.gcl (s : State) (k : Nat) : Option GateList := look none s.tsn.gate k

/-- Gate of class tc is open. -/
def gateBit (tc w : Nat) : Bool := w.testBit tc

/-- The gate of a class of a port is open now. -/
def State.gateOpen (s : State) (p tc : Nat) : Bool :=
  match s.gcl p with
  | none => true
  | some g => gateBit tc (g.at_ s.tim.full).2

/-- First instant base + n × cycle at or after t. -/
def firstAt (base cycle t : Nat) : Nat := t + (((base : Int) - (t : Int)) % (cycle : Int)).toNat

/-- When the list of a gate switches (R356). -/
def State.listAt (s : State) (k t : Nat) (g : GateStage) : Nat :=
  match s.gcl k with
  | some o => firstAt o.start o.cycle t
  | none => if g.entries = [] then t else firstAt g.base g.cycle t

/-- The staged list of a gate, with its instant of switching, while it waits. -/
def State.listDue (s : State) (k : Nat) : Option (GateStage × Nat) :=
  match s.tsn.set with
  | none => none
  | some cs =>
    match cs.t, find? cs.lists k with
    | some t, some g => if cs.waiting.contains k then some (g, s.listAt k t g) else none
    | _, _ => none

/-- The operating list that a staged one becomes at its switch; none where it holds no entries. -/
def GateStage.become (x : GateStage) (start : Nat) : Option GateList :=
  if x.entries = [] then none else some { entries := x.entries, cycle := x.cycle, start := start }

/-- Time to the next closing of a port's gate (R345), the list that a committed change set switches to included (R356);
none when it never closes. -/
def State.openTill (s : State) (p : Nat) (ok : Nat → Bool) : Option Nat :=
  let full := s.tim.full
  let own := (s.gcl p).bind (fun g => g.openFor ok full)
  match s.listDue p with
  | none => own
  | some x =>
    let d := x.2 - full
    if own.any (fun n => decide (n < d)) then own
    else match x.1.become x.2 with
      | none => none
      | some g => if !ok (g.at_ x.2).2 then some d else (g.openFor ok x.2).map (d + ·)

/-! ### Rates and shapers -/

/-- Speed of a port in kb/s (10 R295, R324). -/
def portRate (p : Nat) (x : SwPort) : Nat :=
  if p < 2 then (match fld (par x.conf 0) 6 4 with
    | 0 => 10000000
    | 1 => 5000000
    | _ => 2500000)
  else if p < 6 then 1000000
  else if p < 12 then 100000
  else if p < 14 then 10000
  else if p = 14 then 25000000
  else 10000000

/-- idleSlope of a class in kb/s; 0 without a shaper. -/
def State.idleSlope (s : State) (p tc : Nat) : Nat := look 0 s.tsn.act.cbs (p * 8 + tc)

/-- The credit of a class brought to the present instant (R346): falling while the class is transmitted, held while its
gate is closed, rising while its frames wait, and returning to 0 when none waits (PRESUMED, log 22). -/
def creditNow (s : State) (p tc : Nat) : Credit :=
  let x := s.sp p
  let c := look {} x.credit tc
  let dt : Int := s.clk - c.at_
  let idle : Int := s.idleSlope p tc
  let sending := x.sending.any (fun t => t.tc == tc)
  let v :=
    if sending then c.val + (idle - portRate p x) * dt
    else if c.shut then c.val
    else if (x.q tc).isEmpty then (if c.val < 0 then min 0 (c.val + idle * dt) else 0)
    else c.val + idle * dt
  { val := v, at_ := s.clk, shut := !s.gateOpen p tc }

/-- Brings the credits of a port's shaped classes to the present instant. -/
def foldCredits (p : Nat) (s : State) : State :=
  let x := s.sp p
  let cr := (List.range 8).foldl (fun cr tc => if s.idleSlope p tc = 0 then cr else put cr tc (creditNow s p tc)) x.credit
  s.setSp p { x with credit := cr }

end Sys2Proof.Machine
end

