-- ==== Sys2Proof/Machine/Bmca.lean ====
section
/-!
DEFINITION. gPTP instances (09 R269, R291) and their best master clock algorithm: the Announce messages held at each port
and the slave port that they make. What R269 takes from IEEE 802.1AS-2020 is PRESUMED (log 35).
-/

namespace Sys2Proof.Machine

/-- gPTP instance i. -/
def State.inst (s : State) (i : Nat) : GptpInst := if i = 0 then s.tim.td0 else s.tim.td1

/-- The state with a gPTP instance set. -/
def State.setInst (s : State) (i : Nat) (x : GptpInst) : State :=
  if i = 0 then { s with tim := { s.tim with td0 := x } } else { s with tim := { s.tim with td1 := x } }

/-- The role that TIM_DOMAIN gives a port. -/
def GptpInst.role (x : GptpInst) (port : Nat) : Nat := fld x.roles (2 * port + 1) (2 * port)

/-- Big-endian 16 bits at offset i. -/
def be16 (bs : List Byte) (i : Nat) : Nat := natOfBE ((bs.drop i).take 2)

/-- Reads an Announce: the grandmaster's system identity, steps removed, the sender's port identity, and the instant (clk)
at which three of its intervals have passed. -/
def announceOf (clk : Nat) (p : List Byte) : Announce :=
  let l := signed 8 (le p 33 1)
  { vec := natOfBE ((p.drop 47).take 14), steps := be16 p 61, src := natOfBE ((p.drop 20).take 10)
    till := clk + 3 * (if 0 ≤ l then 10 ^ 9 * 2 ^ l.toNat else 10 ^ 9 / 2 ^ (-l).toNat) }

/-- The path trace of an Announce names the module. -/
def pathHasOwn (p : List Byte) : Bool :=
  be16 p 64 == 8 && (List.range (be16 p 66 / 8)).any (fun k => natOfBE ((p.drop (68 + 8 * k)).take 8) == Config.clockId)

/-- An Announce qualifies: for the instance's domain, at an enabled port under the algorithm, not from the module itself. -/
def GptpInst.qualifies (x : GptpInst) (port : Nat) (p : List Byte) : Bool :=
  !x.extPort && x.role port != 0 && decide (64 ≤ p.length) && le p 0 1 % 16 == 0xB && le p 4 1 == x.domain &&
    decide (be16 p 61 < 255) && natOfBE ((p.drop 20).take 8) != Config.clockId && !pathHasOwn p

/-- One Announce is better than another: by system identity, then steps removed, then sender. -/
def Announce.better (a b : Announce) : Bool :=
  decide (a.vec < b.vec) || (a.vec == b.vec && (decide (a.steps < b.steps) || (a.steps == b.steps && decide (a.src < b.src))))

/-- An Announce at a port takes the place of the one held there: from the same sender, better, or after its timeout. -/
def GptpInst.hear (x : GptpInst) (port clk : Nat) (p : List Byte) : GptpInst :=
  let a := announceOf clk p
  if !x.qualifies port p then x
  else match find? x.anns port with
  | none => { x with anns := put x.anns port a }
  | some b => if b.till ≤ clk || a.src == b.src || a.better b then { x with anns := put x.anns port a } else x

/-- The module's own system identity: priority1 is 255 where it may not be grandmaster. -/
def GptpInst.ownVec (x : GptpInst) : Nat :=
  ((if x.gmCap then x.prio1 else 255) * 2 ^ 32 + Config.clockQuality % 2 ^ 32) * 2 ^ 72 + x.prio2 * 2 ^ 64 + Config.clockId % 2 ^ 64

/-- The Announces that have not timed out, by port. -/
def GptpInst.live (x : GptpInst) (clk : Nat) : List (Nat × Announce) := x.anns.filter (fun p => decide (clk < p.2.till))

/-- The port whose Announce is the best, the lowest of equals, if it is better than the module's own: the slave port. -/
def GptpInst.slavePort (x : GptpInst) (clk : Nat) : Option Nat :=
  ((x.live clk).foldl (fun m p =>
    match m with
    | none => if p.2.vec < x.ownVec then some p else none
    | some q => if p.2.better q.2 then some p else m) none).map (·.1)

/-- The instance takes time on a port (R269): its role is slave by external configuration, or by the algorithm. While no
Announce stands, any enabled port takes a Sync (DESIGN CHOICE, log 35: the table has no row for an Announce of its own). -/
def GptpInst.takesSync (x : GptpInst) (port clk : Nat) : Bool :=
  decide (port < 12) &&
    (if x.extPort then x.role port == 1
     else x.role port != 0 && ((x.live clk).isEmpty || x.slavePort clk == some port))

/-- The module may be grandmaster of an instance (R269, R291): GMCAP, and no port is a slave. -/
def GptpInst.mayLead (x : GptpInst) (clk : Nat) : Bool :=
  x.gmCap && (if x.extPort then !(List.range 12).any (fun p => x.role p == 1) else (x.slavePort clk).isNone)

/-- A gPTP frame from a port reaches Teller, which runs both instances (R270). -/
def gptpIn (port : Nat) (p : List Byte) (s : State) : State :=
  let s1 := s.setInst 0 ((s.inst 0).hear port s.clk p)
  s1.setInst 1 ((s1.inst 1).hear port s1.clk p)

end Sys2Proof.Machine
end

