-- ==== Sys2Proof/Machine/Net.lean ====
section
/-!
DEFINITION. Meanings of the NET commands (10 R323), and of the link and forwarding-database events (10 R301, R314).
-/

namespace Sys2Proof.Machine

/-! ### Fields of the port configuration (R324) -/

def SwPort.mtu (x : SwPort) : Nat := fld (par x.conf 1) 13 0
def SwPort.hold (x : SwPort) : Nat := fld (par x.conf 1) 21 16
def SwPort.learn (x : SwPort) : Bool := bit (par x.conf 0) 9
def SwPort.tcOf (x : SwPort) (pcp : Nat) : Nat := fld (par x.conf 2) (3 * pcp + 2) (3 * pcp)
def SwPort.defPcp (x : SwPort) : Nat := fld (par x.conf 2) 26 24
def SwPort.pvid (x : SwPort) : Nat := fld (par x.conf 3) 11 0
def SwPort.kOf (x : SwPort) (tc : Nat) : Int := look 0 x.k tc
/-- AGE in ns. -/
def SwPort.ageOf (x : SwPort) (tc : Nat) : Nat := look 500 x.age tc * 100000

/-- Port state in the encoding of R36: P14 follows FBX and P15 follows SVX (R297). -/
def State.portState (s : State) (p : Nat) : GateState :=
  if p = 14 then (s.island 1).gate.st else if p = 15 then (s.island 3).gate.st else (s.gate (.port p)).st

/-- The port admits and transmits frames. -/
def State.portOn (s : State) (p : Nat) : Bool := s.portState p == .run

/-- The port has its link. -/
def State.linked (s : State) (p : Nat) : Bool := s.portOn p && (decide (14 ≤ p) || (s.sp p).link)

/-- MACsec runs on a port. -/
def State.macOn (s : State) (p : Nat) : Bool := decide (p < 14) && bit (look {} s.tsn.mac p).w0 8

/-- A frame's copy stands at a port and class (R305). -/
def State.isAt (s : State) (p tc : Nat) (f : Stored) : Bool :=
  f.dests.contains (p, tc) || ((s.sp p).q tc).contains f.id ||
    (s.sp p).sending.any (fun x => x.id == f.id && x.tc == tc)

/-- Shared occupancy of a queue (R305). -/
def State.occShared (s : State) (p tc : Nat) : Nat :=
  ((s.net.frames.filter (fun f => f.res.isNone && s.isAt p tc f)).map (·.cells)).sum

/-- Cells of the shared part in use, and of a tenant's reserve. -/
def State.sharedUsed (s : State) : Nat := ((s.net.frames.filter (fun f => f.res.isNone)).map (·.cells)).sum
def State.resUsed (s : State) (t : Nat) : Nat := ((s.net.frames.filter (fun f => f.res == some t)).map (·.cells)).sum

/-- Reserve of a tenant, and the shared part (R304). -/
def State.resSize (s : State) (t : Nat) : Nat := if s.exists t then (s.tenant t).swbuf * 64 else 0
def State.resAll (s : State) : Nat := ((List.range 32).map s.resSize).sum
def State.sharedSize (s : State) : Nat := 32768 - s.resAll

/-! ### Configuration -/

def parPort (ps : List Word) : Nat := fld (par ps 0) 3 0

/-- Every field of NET_PORT_CONFIG lies in its range and applies to its port (R324, R298, 11 R351). -/
def portConfOk (ps : List Word) (s : State) : Bool :=
  let p := parPort ps
  let w := par ps 0
  let mtu := fld (par ps 1) 13 0
  let lim := if p = 12 ∨ p = 13 then (if s.macOn p then 1490 else 1522) else (if s.macOn p then 9184 else 9216)
  within w 0x77077F && within (par ps 1) 0x3F3FFF && within (par ps 2) 0x7FFFFFF && within (par ps 3) 0xFFF &&
  (if p < 2 then decide (fld w 6 4 ≤ 2) else fld w 6 4 == 0) &&
  (!bit w 8 || (decide (2 ≤ p) && decide (p ≤ 11))) && (!bit w 9 || decide (p < 14)) &&
  (p == 12 || p == 13 || within w 0x37F) &&
  decide (64 ≤ mtu) && decide (mtu ≤ lim) && decide (fld (par ps 1) 21 16 ≤ 50) &&
  decide (1 ≤ fld (par ps 3) 11 0) && decide (fld (par ps 3) 11 0 ≤ 4094)

def netPortConfigSpec : OpSpec :=
  { opcode := 0x2801, plen := (· == 4), right := onlyT0, isl := some 2
    parm := fun _ ps s => need (portConfOk ps s)
    exec := fun c s =>
      let p := parPort c.params
      if s.portState p ≠ .clockGated then .fail .busy s
      else .okay (s.setSp p { s.sp p with conf := c.params }) }

/-- NET_PORT_CONFIG (R324). -/
def execNetPortConfig (e : Stim) (r : Req) (s : State) : Host.Outcome State Fault Refusal :=
  .next (submit netPortConfigSpec r (s.advance e))

/-- A ring runs on a bus, so that the ring alone governs its controller or port (14 R417). -/
def State.ringOn (s : State) (r : Nat) : Bool :=
  match find? s.nmg.ring r with
  | some x => x.st != .disabled
  | none => false

def netPortCtlSpec : OpSpec :=
  { opcode := 0x2802, plen := (· == 1), isl := some 2
    right := fun t ps _ => t == 0 && decide (parPort ps < 14)
    parm := fun _ ps _ => need (within (par ps 0) 0x30F && decide (fld (par ps 0) 9 8 ≤ 1))
    exec := fun c s =>
      let p := parPort c.params
      if (p = 12 ∧ s.ringOn 12) ∨ (p = 13 ∧ s.ringOn 13) then .fail .busy s
      else if fld (par c.params 0) 9 8 = 0 then
        (if 2 ≤ p ∧ s.blkFail (39 + p) then .fail .busy s else gateEnable (.port p) c.id s)
      else gateDisable (.port p) false c.id id s }

/-- NET_PORT_CTL (R297). -/
def execNetPortCtl (e : Stim) (r : Req) (s : State) : Host.Outcome State Fault Refusal :=
  .next (submit netPortCtlSpec r (s.advance e))

def netQueueConfigSpec : OpSpec :=
  { opcode := 0x2803, plen := (· == 2), right := onlyT0, isl := some 2
    parm := fun _ ps _ =>
      let k := signed 4 (fld (par ps 0) 19 16)
      let age := fld (par ps 1) 12 0
      need (within (par ps 0) 0xF070F && within (par ps 1) 0x1FFF && decide (-4 ≤ k) && decide (k ≤ 3) && decide (1 ≤ age) &&
        decide (age ≤ 5000))
    exec := fun c s =>
      let p := parPort c.params
      let tc := fld (par c.params 0) 10 8
      let x := s.sp p
      .okay (s.setSp p { x with k := put x.k tc (signed 4 (fld (par c.params 0) 19 16)),
                                age := put x.age tc (fld (par c.params 1) 12 0) }) }

/-- NET_QUEUE_CONFIG (R306). -/
def execNetQueueConfig (e : Stim) (r : Req) (s : State) : Host.Outcome State Fault Refusal :=
  .next (submit netQueueConfigSpec r (s.advance e))

/-- A VID that a table may hold. -/
def vidOk (v : Nat) : Bool := decide (1 ≤ v) && decide (v ≤ 4094)

def netVlanSpec : OpSpec :=
  { opcode := 0x2804, plen := (· == 2), right := onlyT0, isl := some 2
    parm := fun _ ps _ => need (within (par ps 0) 0x10FFF && vidOk (fld (par ps 0) 11 0))
    exec := fun c s =>
      let vid := fld (par c.params 0) 11 0
      let tab := if bit (par c.params 0) 16 then
          put s.net.vlan vid (fld (par c.params 1) 15 0, fld (par c.params 1) 31 16)
        else erase s.net.vlan vid
      .okay { s with net := { s.net with vlan := tab } } }

/-- NET_VLAN (R323). -/
def execNetVlan (e : Stim) (r : Req) (s : State) : Host.Outcome State Fault Refusal :=
  .next (submit netVlanSpec r (s.advance e))

/-- An EtherType that R316 allows. -/
def etypeOk (v : Nat) : Bool :=
  decide (0x600 ≤ v) && v != 0x8100 && v != 0x88A8 && v != 0x88E5 && v != 0x88F7 && v != 0x22F0

def netEtypeSpec : OpSpec :=
  { opcode := 0x2805, plen := (· == 1), right := onlyT0, isl := some 2
    parm := fun _ ps _ => need (within (par ps 0) 0xFFFF && etypeOk (fld (par ps 0) 15 0))
    exec := fun c s => .okay { s with net := { s.net with etype := fld (par c.params 0) 15 0 } } }

/-- NET_ETYPE (R316). -/
def execNetEtype (e : Stim) (r : Req) (s : State) : Host.Outcome State Fault Refusal :=
  .next (submit netEtypeSpec r (s.advance e))

/-! ### Forwarding database (R301 to R303) -/

/-- Members of a VID, and the ports at which its tag is removed. -/
def State.members (s : State) (vid : Nat) : Nat := (look (0, 0) s.net.vlan vid).1
def State.untag (s : State) (vid : Nat) : Nat := (look (0, 0) s.net.vlan vid).2

/-- The hashed bucket of a key (R301; DESIGN CHOICE, log 6). -/
def bucketOf (mac vid : Nat) : Nat := Config.fdbHash mac vid % 4096

/-- A dynamic entry that has not been refreshed for the ageing time (R301). -/
def State.fdbOld (s : State) (x : FdbEntry) : Bool := !x.static && decide (x.at_ + s.net.fdbAge * 1000000000 ≤ s.clk)

/-- The entry of a key. -/
def State.fdb? (s : State) (mac vid : Nat) : Option FdbEntry :=
  s.net.fdb.find? (fun x => x.mac == mac && x.vid == vid && !s.fdbOld x)

/-- Entries of a bucket. -/
def State.bucket (s : State) (b : Nat) : List FdbEntry := s.net.fdb.filter (fun x => bucketOf x.mac x.vid == b)

/-- The database without a key. -/
def fdbDrop (mac vid : Nat) (s : State) : State :=
  { s with net := { s.net with fdb := s.net.fdb.filter (fun x => !(x.mac == mac && x.vid == vid)) } }

/-- The dynamic entry of a list with the oldest refresh. -/
def oldest (l : List FdbEntry) : Option FdbEntry :=
  l.foldl (fun o x =>
    if x.static then o
    else match o with
      | none => some x
      | some y => if x.at_ < y.at_ then some x else some y) none

/-- Adds an entry in place of one of its key, or of the oldest dynamic one of a full bucket; none when its 4 ways all
hold static entries (R303, R323). -/
def fdbPut (x : FdbEntry) (s : State) : Option State :=
  let s1 := fdbDrop x.mac x.vid s
  let b := s1.bucket (bucketOf x.mac x.vid)
  let add := fun (s : State) => { s with net := { s.net with fdb := s.net.fdb ++ [x] } }
  if b.length < 4 then some (add s1)
  else match oldest b with
    | some y => some (add (fdbDrop y.mac y.vid s1))
    | none => none

/-- MAC address and VID of a key in parameter words 0 to 2. -/
def parMac (ps : List Word) : Nat := (par ps 1).toNat + fld (par ps 2) 15 0 * 2 ^ 32
def parVid (ps : List Word) : Nat := fld (par ps 0) 11 0

/-- The entry that NET_FDB_ADD installs. -/
def fdbOf (ps : List Word) (at_ : Nat) (vi : Bool) : FdbEntry :=
  { mac := parMac ps, vid := parVid ps, static := true, mc := bit (par ps 0) 12, port := fld (par ps 0) 27 24,
    vnic := fld (par ps 0) 21 16, mask := fld (par ps 2) 31 16, at_ := at_, vi := vi }

def netFdbAddSpec : OpSpec :=
  { opcode := 0x2810, plen := (· == 3), isl := some 2
    right := fun t ps _ => t == 0 &&
      (if bit (par ps 0) 12 then !bit (par ps 2) 31 else fld (par ps 0) 27 24 != 15)
    parm := fun _ ps _ => need (within (par ps 0) 0x0F3F1FFF && vidOk (parVid ps) &&
      (bit (par ps 0) 12 || within (par ps 2) 0xFFFF))
    exec := fun c s =>
      let old := s.fdb? (parMac c.params) (parVid c.params)
      match fdbPut (fdbOf c.params s.clk (old.any (·.vi))) s with
      | some s1 => .okay s1
      | none => .fail .busy s }

/-- NET_FDB_ADD (R301, R323). -/
def execNetFdbAdd (e : Stim) (r : Req) (s : State) : Host.Outcome State Fault Refusal :=
  .next (submit netFdbAddSpec r (s.advance e))

/-- A key alone: VID and MAC address, every other bit 0. -/
def keyOnly (ps : List Word) : Bool := within (par ps 0) 0xFFF && vidOk (parVid ps) && within (par ps 2) 0xFFFF

def netFdbDelSpec : OpSpec :=
  { opcode := 0x2811, plen := (· == 3), isl := some 2
    right := fun t ps s => t == 0 && !(s.fdb? (parMac ps) (parVid ps)).any (·.vi)
    parm := fun _ ps s => need (keyOnly ps && (s.fdb? (parMac ps) (parVid ps)).any (·.static))
    exec := fun c s =>
      if (s.fdb? (parMac c.params) (parVid c.params)).any (·.vi) then .fail .denied s
      else .okay (fdbDrop (parMac c.params) (parVid c.params) s) }

/-- NET_FDB_DEL (R323). -/
def execNetFdbDel (e : Stim) (r : Req) (s : State) : Host.Outcome State Fault Refusal :=
  .next (submit netFdbDelSpec r (s.advance e))

/-- An entry names a port. -/
def FdbEntry.names (x : FdbEntry) (p : Nat) : Bool := if x.mc then x.mask.testBit p else x.port == p

/-- The entries that NET_FDB_FLUSH removes. -/
def flushHit (w : Word) (x : FdbEntry) : Bool :=
  (bit w 8 || x.names (fld w 3 0)) && (bit w 9 || !x.static) && (!bit w 28 || x.vid == fld w 27 16)

def netFdbFlushSpec : OpSpec :=
  { opcode := 0x2812, plen := (· == 1), right := onlyT0, isl := some 2
    parm := fun _ ps _ => need (within (par ps 0) 0x1FFF030F)
    exec := fun c s =>
      let all := s.net.fdb.filter (fun x => !s.fdbOld x)
      let keep := all.filter (fun x => !flushHit (par c.params 0) x)
      .done .ok [wd (all.length - keep.length)] { s with net := { s.net with fdb := keep } } }

/-- NET_FDB_FLUSH (R323). -/
def execNetFdbFlush (e : Stim) (r : Req) (s : State) : Host.Outcome State Fault Refusal :=
  .next (submit netFdbFlushSpec r (s.advance e))

/-- The two words of R326. -/
def fdbWords (o : Option FdbEntry) (clk : Nat) : List Word :=
  match o with
  | none => [0, 0]
  | some x =>
    [ wd (2 ^ 31 + b2n x.static * 2 ^ 30 + b2n x.mc * 2 ^ 12 +
        (if x.mc then 0 else x.port * 2 ^ 24 + (if x.port = 14 then x.vnic * 2 ^ 16 else 0))),
      wd ((if x.mc then x.mask * 2 ^ 16 else 0) + cap16 ((clk - x.at_) / 1000000000)) ]

def netFdbLookupSpec : OpSpec :=
  { opcode := 0x2813, plen := (· == 3), isl := some 2
    parm := fun _ ps _ => need (keyOnly ps)
    exec := fun c s => .done .ok (fdbWords (s.fdb? (parMac c.params) (parVid c.params)) s.clk) s }

/-- NET_FDB_LOOKUP (R326). -/
def execNetFdbLookup (e : Stim) (r : Req) (s : State) : Host.Outcome State Fault Refusal :=
  .next (submit netFdbLookupSpec r (s.advance e))

def netFdbAgeSpec : OpSpec :=
  { opcode := 0x2814, plen := (· == 1), right := onlyT0, isl := some 2
    parm := fun _ ps _ => need (decide (10 ≤ (par ps 0).toNat) && decide ((par ps 0).toNat ≤ 1000))
    exec := fun c s => .okay { s with net := { s.net with fdbAge := (par c.params 0).toNat } } }

/-- NET_FDB_AGE (R301). -/
def execNetFdbAge (e : Stim) (r : Req) (s : State) : Host.Outcome State Fault Refusal :=
  .next (submit netFdbAgeSpec r (s.advance e))

/-- FDB_AGEING (R301): a dynamic entry not refreshed for the ageing time. -/
def execFdbAgeing (e : Stim) (mac vid : Nat) (s : State) : Host.Outcome State Fault Refusal :=
  event e s (fun s => s.net.fdb.any (fun x => x.mac == mac && x.vid == vid && s.fdbOld x)) (fdbDrop mac vid)

/-! ### Status -/

/-- Word 0 of R325. -/
def State.portWord (s : State) (p : Nat) : Word :=
  let x := s.sp p
  let rem := if x.holding then (x.downAt + x.hold * 1000000 - s.clk) / 100000 else 0
  wd (p * 2 ^ 24 + (s.portState p).code * 2 ^ 16 + b2n (s.linked p) * 2 ^ 15 + b2n x.holding * 2 ^ 14 +
    b2n x.expired * 2 ^ 13 + (if p < 2 then fld (par x.conf 0) 6 4 * 2 ^ 10 else 0) + min rem 511)

def netPortStatusSpec : OpSpec :=
  { opcode := 0x2820, plen := (· == 1), isl := some 2
    parm := fun _ ps _ => need (within (par ps 0) 0xF)
    exec := fun c s =>
      let p := parPort c.params
      .done .ok (s.portWord p :: (List.range 4).map (fun w =>
        wd (cap16 (s.occShared p (2 * w)) + cap16 (s.occShared p (2 * w + 1)) * 2 ^ 16))) s }

/-- NET_PORT_STATUS (R325). -/
def execNetPortStatus (e : Stim) (r : Req) (s : State) : Host.Outcome State Fault Refusal :=
  .next (submit netPortStatusSpec r (s.advance e))

def netCountersSpec : OpSpec :=
  { opcode := 0x2821, plen := (· == 1), isl := some 2
    right := fun t ps _ => t == 0 || !bit (par ps 0) 8
    parm := fun _ ps _ => need (within (par ps 0) 0x10F)
    exec := fun c s =>
      let p := parPort c.params
      let x := s.sp p
      let ws := (List.range 17).flatMap (fun j => [wd (look 0 x.cnt j), wd (look 0 x.cnt j / 2 ^ 32)])
      .done .ok ws (if bit (par c.params 0) 8 then s.setSp p { x with cnt := [] } else s) }

/-- NET_COUNTERS (R322). -/
def execNetCounters (e : Stim) (r : Req) (s : State) : Host.Outcome State Fault Refusal :=
  .next (submit netCountersSpec r (s.advance e))

def netBufferSpec : OpSpec :=
  { opcode := 0x2822, plen := (· == 0), isl := some 2
    exec := fun _ s =>
      let used := s.sharedUsed
      let res := ((List.range 32).map s.resUsed).sum
      let few := (List.range 16).foldl (fun m l => min m (2048 - s.laneUsed l)) 2048
      .done .ok [wd ((s.sharedSize - used) + s.sharedSize * 2 ^ 16), wd (s.resAll + res * 2 ^ 16), wd few] s }

/-- NET_BUFFER (R323). -/
def execNetBuffer (e : Stim) (r : Req) (s : State) : Host.Outcome State Fault Refusal :=
  .next (submit netBufferSpec r (s.advance e))

/-! ### Links (R314, R315) -/

/-- NET_LINK (R327): 1 up, 2 down, 3 hold expired. -/
def netLink (p ev flushed : Nat) (s : State) : State :=
  noticeAll (0 :: s.holders 9) 0x2801 [wd (p + ev * 2 ^ 8), wd (cap16 flushed)] s

/-- Flushes every queue of a port, each copy counted in LDFLUSH; copies still being written go at queueing time. The
number flushed (R314, R315, R297). -/
def flushPort (p : Nat) (s : State) : State × Nat :=
  let s0 := foldCredits p s
  let ids := (List.range 8).flatMap (fun tc => (s0.sp p).q tc)
  let s1 := s0.setSp p { s0.sp p with queue := [] }
  let s2 := ids.foldl (fun s id => dropCopy p cLDFLUSH id s) s1
  let frames := s2.net.frames.map (fun f => if f.dests.any (fun d => d.1 == p) then { f with cut := p :: f.cut } else f)
  ({ s2 with net := { s2.net with frames := frames } }, ids.length)

/-- The hold of a port expires (R314). -/
def holdEnds (p : Nat) (s : State) : State :=
  let r := flushPort p s
  let s1 := { r.1 with net := { r.1.net with fdb := r.1.net.fdb.filter (fun x => x.static || x.mc || x.port != p) } }
  netLink p 3 r.2 (s1.setSp p { s1.sp p with holding := false, expired := true })

/-- A frame cut off on the wire (R314). -/
def cutSending (p : Nat) (s : State) : State :=
  let s0 := foldCredits p s
  match (s0.sp p).sending with
  | none => s0
  | some t => dropCopy p cLDFLUSH t.id (s0.setSp p { s0.sp p with sending := none })

/-- LINK_DOWN (R314). -/
def execLinkDown (e : Stim) (port : Nat) (s : State) : Host.Outcome State Fault Refusal :=
  event e s (fun s => decide (port < 14) && (s.sp port).link) (fun s =>
    let s1 := cutSending port s
    let s2 := netLink port 2 0 (s1.setSp port { s1.sp port with link := false, holding := true, expired := false, downAt := s1.clk })
    if (s2.sp port).hold = 0 then holdEnds port s2 else s2)

/-- The hold window of a port has ended. -/
def State.holdDue (s : State) (p : Nat) : Bool :=
  (s.sp p).holding && decide ((s.sp p).downAt + (s.sp p).hold * 1000000 ≤ s.clk)

/-- LINK_UP (R314, R315): a hold that ends at this instant expires first. -/
def execLinkUp (e : Stim) (port : Nat) (s : State) : Host.Outcome State Fault Refusal :=
  event e s (fun s => decide (port < 14) && s.portOn port && !(s.sp port).link) (fun s =>
    let s1 := if s.holdDue port then holdEnds port s else s
    netLink port 1 0 (s1.setSp port { s1.sp port with link := true, holding := false, expired := false }))

/-- Flushes come before selections and admissions at one instant (R315): every hold that has ended expires. -/
def settleHolds (s : State) : State := (List.range 14).foldl (fun s p => if s.holdDue p then holdEnds p s else s) s

/-- HOLD_EXPIRE (R314). -/
def execHoldExpire (e : Stim) (port : Nat) (s : State) : Host.Outcome State Fault Refusal :=
  event e s (fun s => decide (port < 14) && s.holdDue port) (holdEnds port)

/-- What the gate of a port does when its shut-down ends (R297): queued frames are discarded, the PHY stops. -/
def portGated (p : Nat) (s : State) : State :=
  let s1 := (flushPort p (cutSending p s)).1
  s1.setSp p { s1.sp p with link := false, holding := false, expired := false }

end Sys2Proof.Machine
end

