-- ==== Sys2Proof/Machine/Switch.lean ====
section
/-!
DEFINITION. The path of a frame through the switch (10 R298 to R315, 11 R328 to R352): checks, MACsec, classification,
streams, admission, selection, transmission and delivery to virtual Ethernet interfaces.
-/

namespace Sys2Proof.Machine

/-! ### Frames as bytes -/

/-- Length by R298, FCS included. -/
def frameLen (f : EthFrame) : Nat := 18 + 4 * b2n f.vlan.isSome + 6 * b2n f.rtag.isSome + f.payload.length

/-- A frame's bytes without FCS. -/
def ethBytes (f : EthFrame) : List Byte :=
  bytesOf 6 f.dst ++ bytesOf 6 f.src ++
  (match f.vlan with
    | some v => bytesOfBE 2 0x8100 ++ bytesOfBE 2 v
    | none => []) ++
  (match f.rtag with
    | some r => bytesOfBE 2 0xF1C1 ++ [0, 0] ++ bytesOfBE 2 r
    | none => []) ++ bytesOfBE 2 f.etype ++ f.payload

/-- Reads a frame without FCS. -/
def parseEth (bs : List Byte) : EthFrame :=
  let vlan := if be16 bs 12 = 0x8100 then some (be16 bs 14) else none
  let o := if vlan.isSome then 16 else 12
  let rtag := if be16 bs o = 0xF1C1 then some (be16 bs (o + 4)) else none
  let o2 := if rtag.isSome then o + 6 else o
  { dst := le bs 0 6, src := le bs 6 6, vlan := vlan, rtag := rtag, etype := be16 bs o2, payload := bs.drop (o2 + 2) }

/-- Group bit of a MAC address, byte 0 first. -/
def isGroup (mac : Nat) : Bool := mac % 2 == 1
def broadcast : Nat := 2 ^ 48 - 1

/-! ### MACsec on reception (11 R347 to R349; PRESUMED, log 24) -/

/-- MACsec of a port. -/
def State.macp (s : State) (p : Nat) : MacPort := look {} s.tsn.mac p

/-- The state with a port's MACsec set. -/
def State.setMacp (s : State) (p : Nat) (x : MacPort) : State := { s with tsn := { s.tsn with mac := put s.tsn.mac p x } }

/-- Adds 1 to a counter of R363, by its index from word 2 on. -/
def countMac (p j : Nat) (s : State) : State :=
  let x := s.macp p
  s.setMacp p { x with cnt := put x.cnt j (satInc 0xFFFFFFFF (look 0 x.cnt j)) }

/-- Fields of TSN_MACSEC_PORT word 0. -/
def macValidate (w : Word) : Nat := fld w 10 9
def macReplay (w : Word) : Bool := bit w 11
def macIncSci (w : Word) : Bool := bit w 12
def macBypass (w : Word) : Bool := bit w 13
def macCipher (w : Word) : Nat := fld w 17 16
def macXpn (w : Word) : Bool := decide (2 ≤ macCipher w)

/-- Frames that pass the uncontrolled port, or by PTPBYPASS (R347, R349). -/
def uncontrolled (w : Word) (etype : Nat) : Bool := etype == 0x888E || (etype == 0x88F7 && macBypass w)

/-- The receive secure channel of a SecTAG at a port (R348). -/
def State.rxscOf (s : State) (p : Nat) (t : SecTag) : Option Nat :=
  let on := (List.range 64).filter (fun i => (look {} s.tsn.rxsc i).valid && (look {} s.tsn.rxsc i).port == p)
  match t.sci with
  | some sci => on.find? (fun i => (look {} s.tsn.rxsc i).sci == sci)
  | none => if on.length = 1 then on.head? else none

/-- The full packet number of a received frame: under XPN the upper half is recovered from the lowest acceptable PN. -/
def fullPn (xpn : Bool) (low lowest : Nat) : Nat :=
  if !xpn then low
  else
    let hi := lowest / 2 ^ 32
    let hi := if decide (2 ^ 31 ≤ lowest % 2 ^ 32) && decide (low < 2 ^ 31) then hi + 1 else hi
    hi * 2 ^ 32 + low

/-- What a SecTAG and frame authenticate as under an SA of a secure channel: the nonce of the channel's SCI, or of SSCI and
salt under XPN, with the PN, and the frame (DESIGN CHOICE, log 5). -/
def secMessage (xpn : Bool) (sa : Sa) (sci : Nat) (t : SecTag) (pn : Nat) (f : EthFrame) : List Byte :=
  (if xpn then wordBytes (sa.ssci :: sa.salt) else bytesOf 8 sci) ++ bytesOf 8 pn ++ bytesOf 1 t.an ++
    bytesOf 8 (t.sci.getD 0) ++ ethBytes f

/-- The ICV of a protected frame (DESIGN CHOICE, log 5). -/
def secIcv (w : Word) (sa : Sa) (sci : Nat) (t : SecTag) (pn : Nat) (f : EthFrame) : List Byte :=
  Config.keyed (0x100 + macCipher w) (wordBytes sa.key) [secMessage (macXpn w) sa sci t pn f]

/-- A frame with its SecTAG as a port without MACsec sees it: EtherType 0x88E5. -/
def secPlain (t : SecTag) (f : EthFrame) : EthFrame :=
  let sci := match t.sci with
    | some v => bytesOf 8 v
    | none => []
  { dst := f.dst, src := f.src, etype := 0x88E5,
    payload := bytesOf 1 (t.an + 12 * b2n t.enc + 32 * b2n t.sci.isSome) ++ [0] ++ bytesOfBE 4 t.pn ++ sci ++
      (ethBytes f).drop 12 ++ t.icv }

/-- Stage 2: the frame goes on, or is discarded; with the receive channel that decapsulated it. -/
def macIn (rx : RxFrame) (s : State) : Option EthFrame × State :=
  let p := rx.port
  let x := s.macp p
  let strict := macValidate x.w0 == 2
  if uncontrolled x.w0 rx.frame.etype && rx.sec.isNone then (some rx.frame, s)
  else match rx.sec with
  | none => if strict then (none, s) else (some rx.frame, countMac p 5 s)
  | some t =>
    match s.rxscOf p t with
    | none => if strict || t.enc then (none, s) else (some rx.frame, countMac p 4 s)
    | some sc =>
      let k := sc * 4 + t.an
      let sa := look {} s.tsn.rxsa k
      if !sa.valid then (if strict || t.enc then (none, s) else (some rx.frame, countMac p 4 s))
      else
        let pn := fullPn (macXpn x.w0) t.pn sa.pn
        if macReplay x.w0 && decide (pn < sa.pn) then (none, countMac p 3 s)
        else if macValidate x.w0 = 0 then (if t.enc then (none, countMac p 6 s) else (some rx.frame, countMac p 6 s))
        else if secIcv x.w0 sa (look {} s.tsn.rxsc sc).sci t pn rx.frame = t.icv then
          let low := max sa.pn (pn + 1 - x.replay.toNat)
          let s1 := { s with tsn := { s.tsn with rxsa := put s.tsn.rxsa k { sa with pn := low } } }
          (some rx.frame, countMac p 0 s1)
        else if strict || t.enc then (none, countMac p 2 s)
        else (some rx.frame, countMac p 1 s)

/-! ### Streams (11 R330 to R342) -/

/-- Fields of a stream context (R331). -/
def stType (b : List Word) : Nat := fld (par b 0) 23 16
def stFlag (b : List Word) (i : Nat) : Bool := bit (par b 0) (24 + i)
def stMac (b : List Word) : Nat := (par b 1).toNat + fld (par b 2) 15 0 * 2 ^ 32
def stVid (b : List Word) : Nat := fld (par b 2) 27 16
def stTc (b : List Word) : Nat := fld (par b 2) 30 28
def stInports (b : List Word) : Nat := fld (par b 3) 15 0
def stMaxSdu (b : List Word) : Nat := fld (par b 3) 31 16
def stCir (b : List Word) : Nat := (par b 4).toNat
def stCbs (b : List Word) : Nat := (par b 5).toNat
def stEir (b : List Word) : Nat := (par b 6).toNat
def stEbs (b : List Word) : Nat := (par b 7).toNat
def stGate (b : List Word) : Nat := fld (par b 8) 4 0
def stGen (b : List Word) : Bool := bit (par b 8) 8
def stRec (b : List Word) : Bool := bit (par b 8) 9
def stAlg (b : List Word) : Bool := bit (par b 8) 10
def stHist (b : List Word) : Nat := fld (par b 8) 23 16
def stReset (b : List Word) : Nat := fld (par b 9) 15 0
def stRep (b : List Word) : Nat := fld (par b 9) 31 16
def stStrip (b : List Word) : Nat := fld (par b 10) 15 0

/-- The context of a stream in the active tables. -/
def State.ctx (s : State) (sid : Nat) : List Word := look [] s.tsn.act.stream sid

/-- What stream sid keeps outside its context. -/
def State.strm (s : State) (sid : Nat) : Stream := look {} s.tsn.stream sid

/-- The state with a stream set. -/
def State.setStrm (s : State) (sid : Nat) (x : Stream) : State :=
  { s with tsn := { s.tsn with stream := put s.tsn.stream sid x } }

/-- Adds to a counter of R361, by its order from MATCHED on. -/
def Stream.count (x : Stream) (j n : Nat) : Stream := { x with cnt := put x.cnt j (satAdd 0xFFFFFFFF (look 0 x.cnt j) n) }

/-- The stream of a frame (R330): by destination first, then by source. -/
def State.streamOf (s : State) (iport vid : Nat) (f : EthFrame) : Option Nat :=
  let hit := fun ty mac (p : Nat × List Word) => stType p.2 == ty && stMac p.2 == mac && stVid p.2 == vid &&
    (stInports p.2).testBit iport
  match s.tsn.act.stream.find? (hit 1 f.dst) with
  | some p => some p.1
  | none => (s.tsn.act.stream.find? (hit 2 f.src)).map (·.1)

/-- Colour of a metered frame: 0 green, 1 yellow, 2 red, and the buckets after it (R336). Levels are kept as tokens
missing, in units of 1/8 000 000 byte, so that 1 kb/s adds one unit in a nanosecond. -/
def meter (b : List Word) (len clk : Nat) (x : Stream) : Nat × Stream :=
  let dt := clk - x.fillAt
  let c0 := x.usedC - stCir b * dt
  let spill := if stFlag b 2 then stCir b * dt - x.usedC else 0
  let e0 := x.usedE - (stEir b * dt + spill)
  let need := len * 8000000
  if c0 + need ≤ stCbs b * 8000000 then (0, { x with usedC := c0 + need, usedE := e0, fillAt := clk })
  else if e0 + need ≤ stEbs b * 8000000 then (1, { x with usedC := c0, usedE := e0 + need, fillAt := clk })
  else (2, { x with usedC := c0, usedE := e0, fillAt := clk })

/-- Zeros among the history positions that a shift by d drops and that have stood for a number (R339; DEDUCED, log
25). -/
def lostBits (x : Stream) (hist d : Nat) : Nat :=
  ((List.range hist).filter (fun i => decide (hist ≤ i + d) && decide (i < x.span) && !x.hist.testBit i)).length

/-- The recovery function's verdict on a sequence number (R339): accepted, and the stream after it. -/
def recover (b : List Word) (sq clk : Nat) (x : Stream) : Bool × Stream :=
  let ok := fun (y : Stream) => (true, (y.count 1 1))
  if stAlg b then
    if x.takeAny ∨ sq ≠ x.recov then ok { x with recov := sq, takeAny := false, lastAcc := some clk }
    else (false, x.count 6 1)
  else
    let n := stHist b
    let d := signed 16 (sq + 2 ^ 16 - x.recov)
    if x.takeAny then ok { x with recov := sq, hist := 1, span := 1, takeAny := false, lastAcc := some clk }
    else if d ≥ n ∨ d ≤ -(n : Int) then (false, x.count 8 1)
    else if d ≤ 0 then
      if x.hist.testBit (-d).toNat then (false, x.count 6 1)
      else ok ({ x with hist := x.hist ||| 2 ^ (-d).toNat, lastAcc := some clk }.count 7 1)
    else
      let k := d.toNat
      ok ({ x with hist := (x.hist * 2 ^ k + 1) % 2 ^ n, span := min n (x.span + k), recov := sq,
                   lastAcc := some clk }.count 9 (lostBits x n k))

/-- A frame as it leaves stages 5 to 9: its R-TAG and tag, its class, its destination override and strip mask. -/
structure Passed where
  frame : EthFrame
  tc : Nat
  rep : Nat := 0
  strip : Nat := 0
  sid : Option Nat := none
  deriving DecidableEq, Repr

/-- The reset window of a stream's recovery function has ended without an acceptance (R340). -/
def State.recoveryDue (s : State) (sid : Nat) : Bool :=
  stRec (s.ctx sid) && !(s.strm sid).takeAny &&
    (s.strm sid).lastAcc.any (fun a => decide (a + stReset (s.ctx sid) * 1000000 ≤ s.clk))

/-- TAKEANY is set at the end of the window (R340). -/
def recoveryReset (sid : Nat) (s : State) : State :=
  s.setStrm sid { s.strm sid with takeAny := true, lastAcc := none, resets := satInc 0xFFFF (s.strm sid).resets }

/-- Stages 8 and 9 (R338 to R342); a reset window that ends by now ends first. -/
def stageFrer (sid : Nat) (b : List Word) (p : Passed) (s0 : State) : Option Passed × State :=
  let s := if s0.recoveryDue sid then recoveryReset sid s0 else s0
  let x := s.strm sid
  let out := fun (f : EthFrame) => some { p with frame := f, rep := stRep b, strip := stStrip b, sid := some sid }
  if stRec b then
    match p.frame.rtag with
    | none => (none, s.setStrm sid (x.count 8 1))
    | some sq =>
      let r := recover b sq s.clk x
      (if r.1 then out p.frame else none, s.setStrm sid r.2)
  else if stGen b then
    (out { p.frame with rtag := some x.genSeq }, s.setStrm sid { x with genSeq := (x.genSeq + 1) % 2 ^ 16 })
  else (out p.frame, s)

/-- Stage 7 (R336). -/
def stageMeter (sid : Nat) (b : List Word) (len : Nat) (p : Passed) (s : State) : Option Passed × State :=
  if !stFlag b 1 then stageFrer sid b p s
  else
    let r := meter b len s.clk (s.strm sid)
    match r.1 with
    | 0 => stageFrer sid b p (s.setStrm sid r.2)
    | 1 =>
      let s1 := s.setStrm sid (r.2.count 5 1)
      if stFlag b 3 then (none, s1)
      else
        let v := p.frame.vlan.map (fun t => if t.testBit 12 then t else t + 2 ^ 12)
        stageFrer sid b { p with frame := { p.frame with vlan := v } } s1
    | _ => (none, s.setStrm sid (r.2.count 4 1))

/-- Stages 4 to 9 of a frame with class tc (R329, R334, R335, R337). -/
def stages (iport vid tc : Nat) (f : EthFrame) (s : State) : Option Passed × State :=
  match s.streamOf iport vid f with
  | none => (some { frame := f, tc := tc }, s)
  | some sid =>
    let b := s.ctx sid
    let x := (s.strm sid).count 0 1
    let len := frameLen f
    if x.blocked then (none, s.setStrm sid (x.count 2 1))
    else if stMaxSdu b ≠ 0 ∧ stMaxSdu b < len then
      let s1 := s.setStrm sid { x.count 2 1 with blocked := stFlag b 5 }
      (none, if stFlag b 5 then notice 0 0x2901 [wd sid, wd len] s1 else s1)
    else
      let s1 := s.setStrm sid x
      let tc1 := if stFlag b 4 then stTc b else tc
      if !stFlag b 0 then stageMeter sid b len { frame := f, tc := tc1 } s1
      else match s.gcl (16 + stGate b) with
      | none => stageMeter sid b len { frame := f, tc := tc1 } s1
      | some g =>
        let w := (g.at_ s.tim.full).2
        if !w.testBit 0 then (none, s.setStrm sid (x.count 3 1))
        else stageMeter sid b len { frame := f, tc := if w.testBit 11 then w / 256 % 8 else tc1 } s1

/-! ### Admission (10 R304, R305, R307) -/

/-- limit(free, k) of R305. -/
def thrLimit (free : Nat) (k : Int) : Nat := if 0 ≤ k then free * 2 ^ k.toNat else free / 2 ^ (-k).toNat

/-- Admits a frame to its destinations (R305): the state, and whether one destination took it. -/
def admitFrame (f : Stored) (dests : List (Nat × Nat)) (s : State) : State × Bool :=
  let n := f.cells
  let owner := fun v => (s.vi 0 v).map (·.owner)
  let t : Option Nat := match f.src with
    | some v => owner v
    | none => match (f.vnics.filterMap owner).eraseDups with
      | [t] => some t
      | _ => none
  let res := t.filter (fun t => decide (s.resUsed t + n ≤ s.resSize t))
  let free := s.sharedSize - s.sharedUsed
  let many := decide (1 < dests.length)
  let refuse := fun (d : Nat × Nat) =>
    if !s.portOn d.1 || ((s.sp d.1).expired && !(s.sp d.1).link) then some cLDDROP
    else if res.isNone && (decide (free < n) || decide (thrLimit free ((s.sp d.1).kOf d.2) ≤ s.occShared d.1 d.2)) then
      some (if many then cMCDROP else cDROPTHR)
    else none
  let ok := dests.filter (fun d => (refuse d).isNone)
  let s1 := dests.foldl (fun s d => match refuse d with
    | some j => countPort d.1 j 1 s
    | none => s) s
  if ok = [] then (s1, false)
  else
    let g := { f with id := s.net.nextFrame, res := res, refs := ok.length, dests := ok, first := s.clk * 10 / 192 + 1 }
    ({ s1 with net := { s1.net with frames := s1.net.frames ++ [g], nextFrame := s1.net.nextFrame + 1 } }, true)

/-! ### Classification and forwarding (10 R299 to R303) -/

/-- An IEEE 1722 frame whose stream_id a valid listener context names (13 R408). -/
def State.claims (s : State) (f : EthFrame) : Option Nat :=
  if f.etype ≠ 0x22F0 then none
  else (List.range 64).find? (fun c =>
    let w := (s.acf c).words
    bit (par w 0) 9 && !bit (par w 0) 8 && natOf ((f.payload.drop 4).take 8) == (par w 1).toNat + (par w 2).toNat * 2 ^ 32)

/-- RETYPE of rings 12 and 13 (14 R420). -/
def State.retype (s : State) (r : Nat) : Nat :=
  match find? s.nmg.ring r with
  | some x => fld (par x.words 1) 15 0
  | none => 0x88B6

/-- Frames delivered to P15 alone (10 R300, 14 R420). -/
def State.toTeller (s : State) (p : Nat) (f : EthFrame) : Bool :=
  f.etype == 0x88F7 || f.etype == s.net.etype || (s.claims f).isSome ||
    ((p == 12 || p == 13) && f.etype == s.retype p)

/-- VNICs of a VID, but the sender. -/
def State.vnicsOf (s : State) (vid : Nat) (src : Option Nat) : List Nat :=
  (List.range 64).filter (fun v => src != some v &&
    (s.vi 0 v).any (fun x => fld (par x.kindWords 1) 27 16 == vid))

/-- Ports of a mask that a frame from a port may go to: its members but the ingress port; P14 also from P14 when
another VNIC takes the frame. -/
def State.spread (s : State) (mask iport vid : Nat) (src : Option Nat) : List Nat :=
  (List.range 16).filter (fun p => mask.testBit p && (s.members vid).testBit p &&
    (p != iport || (p == 14 && !(s.vnicsOf vid src).isEmpty)))

/-- The destination set of R302, with the VNICs that receive a P14 copy. -/
def State.destSet (s : State) (iport vid : Nat) (src : Option Nat) (f : EthFrame) : List Nat × List Nat :=
  let all := (s.spread 0xFFFF iport vid src, s.vnicsOf vid src)
  if f.dst = broadcast then all
  else match s.fdb? f.dst vid with
  | none => all
  | some x =>
    if x.mc then (s.spread x.mask iport vid src, s.vnicsOf vid src)
    else if !(s.members vid).testBit x.port then ([], [])
    else if x.port = 14 then (if src = some x.vnic then ([], []) else ([14], [x.vnic]))
    else if x.port = iport then ([], [])
    else ([x.port], [])

/-- Learns a source address (R301, R303). -/
def learn (p vid mac : Nat) (s : State) : State :=
  if !(s.sp p).learn || decide (14 ≤ p) || isGroup mac then s
  else match s.fdb? mac vid with
  | some x => if x.static then s else (fdbPut { x with port := p, mc := false, at_ := s.clk } s).getD s
  | none => match fdbPut { mac := mac, vid := vid, port := p, at_ := s.clk } s with
    | some s1 => s1
    | none => countPort p cLEARNFAIL 1 s

/-- A frame as it leaves by a port: R-TAG and VLAN tag by STRIPMASK and the untag mask. -/
def State.egress (s : State) (p : Nat) (f : Stored) : EthFrame :=
  let dei := f.frame.vlan.any (fun t => t.testBit 12)
  { f.frame with
    rtag := if f.strip.testBit p then none else f.frame.rtag
    vlan := if f.vid = 0 ∨ (s.untag f.vid).testBit p then none else some (f.pcp * 2 ^ 13 + b2n dei * 2 ^ 12 + f.vid) }

/-- Counts a frame accepted at a port (R298, R322). -/
def countIn (p : Nat) (f : EthFrame) (s : State) : State := countPort p cRXBYTES (frameLen f) (countPort p cRXFRAMES 1 s)

/-- The port that a frame of Teller's own is for, and whether it leaves untagged. -/
structure Aim where
  port : Nat
  plain : Bool := false

/-- Stages 3 to 10 of a frame at a port, with the VID and PCP it takes when untagged: the state, and whether one
destination took it. A frame of Teller's that is for one port (03 R104, 14 R420) goes to that port of its destination set
alone (DEDUCED, log 26). -/
def forwardTo (aim : Option Aim) (iport : Nat) (src tsid : Option Nat) (vid0 pcp0 : Nat) (f : EthFrame) (s : State) :
    State × Bool :=
  let vid := match f.vlan with
    | some t => if t % 4096 = 0 then vid0 else t % 4096
    | none => vid0
  let pcp := match f.vlan with
    | some t => t / 2 ^ 13 % 8
    | none => pcp0
  if !(s.members vid).testBit iport then (countPort iport cNODEST 1 s, false)
  else
    let teller := aim.isNone && s.toTeller iport f
    let own := fun (d : List Nat × List Nat) => (d.1.filter (fun q => aim.all (fun a => a.port == q)), d.2)
    let d := if teller then (if iport = 15 then [] else [15], []) else own (s.destSet iport vid src f)
    let s1 := learn iport vid f.src s
    if d.1 = [] then (countPort iport cNODEST 1 s1, false)
    else match stages iport vid ((s1.sp iport).tcOf pcp) f s1 with
    | (none, s2) => (s2, false)
    | (some p, s2) =>
      let d1 := if teller then d
        else if p.rep ≠ 0 then own (s2.spread p.rep iport vid src, s2.vnicsOf vid src) else d
      let len := frameLen p.frame
      let st : Stored := { id := 0, frame := p.frame, vid := if aim.any (·.plain) then 0 else vid, pcp := pcp, len := len
                           cells := (len + 127) / 128, refs := 0, stamp := s2.tim.full, iport := iport, src := src
                           tsid := tsid, strip := p.strip, vnics := if d1.1.contains 14 then d1.2 else [] }
      let long := fun q => p.sid.isSome && p.frame.rtag.isSome && !p.strip.testBit q &&
        decide ((s2.sp q).mtu < frameLen (s2.egress q st))
      let cut := d1.1.filter long
      let s3 := match p.sid with
        | some sid => if cut = [] then s2 else s2.setStrm sid ((s2.strm sid).count 2 cut.length)
        | none => s2
      if d1.1 = [] then (countPort iport cNODEST 1 s3, false)
      else admitFrame st ((d1.1.filter (fun q => !long q)).map (fun q => (q, p.tc))) s3

/-- Stages 3 to 10 of a frame whose destination set is that of R302. -/
def forward (iport : Nat) (src tsid : Option Nat) (vid0 pcp0 : Nat) (f : EthFrame) (s : State) : State × Bool :=
  forwardTo none iport src tsid vid0 pcp0 f s

/-- A frame of Teller's own, untagged, enters P15 for one port: its VID is P15's PVID (R299). -/
def tellerSend (aim : Aim) (pcp : Nat) (f : EthFrame) (s : State) : State :=
  (forwardTo (some aim) 15 none none (s.sp 15).pvid pcp f (countIn 15 f s)).1

/-- A whole frame at a port of P0–P13 (R298, R299): RUNT goes by what is on the wire, the MTU of a MACsec port by the
unprotected frame (11 R351). -/
def receive (rx : RxFrame) (s : State) : State :=
  let p := rx.port
  let x := s.sp p
  let f := match rx.sec with
    | some t => if s.macOn p then rx.frame else secPlain t rx.frame
    | none => rx.frame
  let len := frameLen f
  let wire := match rx.sec with
    | some t => frameLen (secPlain t rx.frame)
    | none => len
  if wire < 64 then countPort p cRUNT 1 s
  else if x.mtu < len then countPort p cOVERSIZE 1 s
  else if !rx.fcsOk then countPort p cFCSERR 1 s
  else
    let s1 := countIn p f s
    if s.macOn p then
      match macIn rx s1 with
      | (none, s2) => s2
      | (some g, s2) => (forward p none none x.pvid x.defPcp g s2).1
    else (forward p none none x.pvid x.defPcp f s1).1

/-- A frame takes its place among others by ascending ingress port. -/
def byPort (f : RxFrame) : List RxFrame → List RxFrame
  | [] => [f]
  | g :: gs => if g.port ≤ f.port then g :: byPort f gs else f :: g :: gs

/-- The frames whose ingress completes in one SWX cycle pass in ascending ingress port (11 R341), each at a port with its
link. -/
def receiveAll (fs : List RxFrame) (s : State) : State :=
  ((fs.foldl (fun l f => byPort f l) []).filter (fun f => decide (f.port < 14) && s.linked f.port)).foldl
    (fun s f => receive f s) s

/-! ### Queueing (10 R307, R315) -/

/-- A frame's last cell has been written: it is queued at each destination, but where its port was flushed meanwhile. -/
def queueFrame (id : Nat) (s : State) : State :=
  match s.stored? id with
  | none => s
  | some f =>
    let s0 := f.dests.foldl (fun s d => foldCredits d.1 s) (setStored { f with dests := [] } s)
    f.dests.foldl (fun s d =>
      if f.cut.contains d.1 then dropCopy d.1 cLDFLUSH id s
      else
        let x := s.sp d.1
        s.setSp d.1 (x.setQ d.2 (x.q d.2 ++ [id]))) s0

/-- The frames whose last cells have been written and that are not queued yet. -/
def State.toQueue (s : State) : List Stored := s.net.frames.filter (fun f => !f.dests.isEmpty && f.written)

/-- A frame is the next to be queued: frames are queued in the order in which their last cells were written (R309). -/
def State.queueNext (s : State) (id : Nat) : Bool :=
  (s.stored? id).any (fun f => !f.dests.isEmpty && f.written &&
    s.toQueue.all (fun g => g.id == id || decide (f.lastSlot < g.lastSlot) || (f.lastSlot == g.lastSlot && decide (f.iport < g.iport))))

/-! ### Transmission (10 R311 to R313, 11 R345, R346, R352) -/

/-- MACsec protects a frame at a port, and the AN in use (R349, R350). -/
def State.protects (s : State) (p : Nat) (f : Stored) : Bool :=
  s.macOn p && !uncontrolled (s.macp p).w0 f.frame.etype
def State.txan (s : State) (p : Nat) : Nat := look 0 s.tsn.act.txan p
def State.txsa (s : State) (p an : Nat) : Sa := look {} s.tsn.txsa (p * 4 + an)

/-- Overhead of R351. -/
def State.macOverhead (s : State) (p : Nat) (f : Stored) : Nat :=
  if s.protects p f then (if macIncSci (s.macp p).w0 then 32 else 24) else 0

/-- The largest PN of a port's suite, and its warning level (R352). -/
def State.pnMax (s : State) (p : Nat) : Nat := if macXpn (s.macp p).w0 then 2 ^ 64 else 2 ^ 32
def State.pnWarn (s : State) (p : Nat) : Nat := s.pnMax p / 4 * 3

/-- The transmit SA in use can send no further frame (R352; PRESUMED, log 24). -/
def State.exhausted (s : State) (p : Nat) : Bool :=
  !(s.txsa p (s.txan p)).valid || decide (s.pnMax p ≤ (s.txsa p (s.txan p)).pn)

/-- Time of a frame on the link, in units of 10^-6 bit (R345). -/
def State.wireBits (s : State) (p : Nat) (f : Stored) : Nat :=
  (frameLen (s.egress p f) + (if p < 14 then 20 else 0) + s.macOverhead p f) * 8 * 1000000

/-- What selection makes of the head of a class. -/
inductive Pick where
  | pass
  | send (id : Nat)
  | drop (id : Nat) (counter : Option Nat)
  | exh (id : Nat)
  deriving DecidableEq, Repr

/-- The verdict on the head of class tc (R311, R312, R345, R346, R352). One that the egress
does not hold far enough yet is passed (10 R308; DEDUCED, log 26). -/
def pick (p tc : Nat) (s : State) : Pick :=
  let x := s.sp p
  match x.q tc with
  | [] => .pass
  | id :: _ =>
    match s.stored? id with
    | none => .drop id none
    | some f =>
      let rate := portRate p x
      let fits := fun (o : Option Nat) => match o with
        | none => true
        | some t => decide (s.wireBits p f ≤ t * rate)
      let ok := gateBit tc
      let g := s.gcl p
      let strictGate := p != 12 && p != 13
      if g.any (fun g => !fits (g.longest ok)) then .drop id none
      else if s.idleSlope p tc ≠ 0 ∧ (creditNow s p tc).val < 0 then .pass
      else if !s.gateOpen p tc then .pass
      else if strictGate && !fits (s.openTill p ok) then .pass
      else if s.tim.full < f.stamp ∨ f.stamp + x.ageOf tc ≤ s.tim.full then .drop id (some cAGED)
      else if s.protects p f && s.exhausted p then .exh id
      else if !s.begun p f then .pass
      else .send id

/-- Tally time at the message timestamp point of a frame that leaves a port: the external PHY's transmit latency comes on
top (09 R268). -/
def State.stampOut (s : State) (p : Nat) : Nat := (s.now + (s.portLat p).1) % 2 ^ 48

/-- Takes a stamp of a copy that leaves by one of P0–P11 (09 R278, R279). -/
def stampTx (p : Nat) (f : Stored) (s : State) : State :=
  match f.tsid with
  | none => s
  | some tsid =>
    if 12 ≤ p then s
    else
      let x := look {} s.tim.txq p
      let owner := f.src.bind (fun v => (s.vi 0 v).map (·.owner))
      let set := fun (y : TxStampQ) (s : State) => { s with tim := { s.tim with txq := put s.tim.txq p y } }
      if owner ≠ some x.reader then set { x with ign := satInc 0xFFFF x.ign } s
      else if x.entries.length < 16 then set { x with entries := x.entries ++ [(s.stampOut p, tsid)] } s
      else
        let s1 := set { x with lost := satInc 0xFFFF x.lost, ovf := true } s
        if x.ovf then s1 else notice x.reader 0x2003 [wd p] s1

/-- Drops the head of a class. -/
def popHead (p tc : Nat) (s : State) : State :=
  let x := s.sp p
  s.setSp p (x.setQ tc ((x.q tc).drop 1))

/-- Selects the next frame of a port and begins it. -/
def selectNext (p : Nat) : Nat → State → State
  | 0, s => s
  | n + 1, s =>
    match [7, 6, 5, 4, 3, 2, 1, 0].find? (fun tc => pick p tc s != .pass) with
    | none => s
    | some tc =>
      match pick p tc s with
      | .pass => s
      | .drop id (some j) => selectNext p n (dropCopy p j id (popHead p tc s))
      | .drop id none =>
        let s1 := popHead p tc s
        selectNext p n (releaseCopy id (s1.setSp p { s1.sp p with tooBig := satInc 0xFFFFFFFF (s1.sp p).tooBig }))
      | .exh id => selectNext p n (releaseCopy id (countMac p 9 (popHead p tc s)))
      | .send id =>
        match s.stored? id with
        | none => s
        | some f =>
          let s1 := popHead p tc s
          let an := if s.protects p f then some (s.txan p) else none
          stampTx p f (s1.setSp p { s1.sp p with sending := some { id := id, tc := tc, an := an } })

/-- Frames queued at a port. -/
def State.queued (s : State) (p : Nat) : Nat := ((List.range 8).map (fun tc => ((s.sp p).q tc).length)).sum

/-! ### Delivery to virtual Ethernet interfaces (10 R320, R321) -/

/-- Fields of a submission entry of KIND 0 (R319). -/
def rxAddr (en : List Word) : Nat := (par en 2).toNat + fld (par en 3) 7 0 * 2 ^ 32
def rxSize (en : List Word) : Nat := fld (par en 1) 15 0

/-- A completion entry of R320. -/
def vnicDone (kind st len epoch time cookie : Nat) : List Byte :=
  bytesOf 2 kind ++ bytesOf 2 st ++ bytesOf 2 len ++ bytesOf 2 epoch ++ bytesOf 6 time ++ [0, 0] ++ bytesOf 4 cookie

/-- Gives a frame to the oldest posted buffer that is large enough; smaller ones ahead complete with BAD_PARAM (R321).
Whether a buffer took it; without one the copy counts in NORXBUF. -/
def deliverVnic (vnic stamp : Nat) (bs : List Byte) (s : State) : State × Bool :=
  let none_ := (countPort 14 cNORXBUF 1 s, false)
  match s.vi 0 vnic with
  | none => none_
  | some v =>
    let idle := v.fetched.filter (·.idle 0)
    let small := idle.takeWhile (fun d => decide (rxSize d.entry < bs.length))
    match idle.drop small.length with
    | [] => none_
    | d :: _ =>
      if v.resetting then none_
      else
        let v1 := { v with fetched := v.fetched.filter (fun x => !small.any (fun y => y.index == x.index)) }
        let s1 := giveFrame 0 vnic v1 d { data := bs, stamp := stamp % 2 ^ 48 } s
        (small.foldl (fun s x => complete 0 vnic (vnicDone 1 0x101 0 x.epoch 0 (par x.entry 4).toNat) s) s1, true)

/-! ### End of transmission -/

/-- The PN of the SA in use advances (R352). -/
def nextPn (p an : Nat) (s : State) : State :=
  let sa := s.txsa p an
  let pn := sa.pn + 1
  let s1 := { s with tsn := { s.tsn with txsa := put s.tsn.txsa (p * 4 + an) { sa with pn := pn } } }
  if pn = s.pnWarn p then notice 0 0x2902 [wd (p + an * 2 ^ 8)] s1
  else if pn = s.pnMax p then notice 0 0x2902 [wd (p + an * 2 ^ 8 + 2 ^ 16)] s1
  else s1

/-- The SecTAG that the transmit SA of an AN puts on a frame, its ICV with it (stage 13; R347, R350). -/
def State.secTag (s : State) (p an : Nat) (f : EthFrame) : SecTag :=
  let sa := s.txsa p an
  let w := (s.macp p).w0
  let sci := (par sa.sci 0).toNat + (par sa.sci 1).toNat * 2 ^ 32
  let t : SecTag := { an := an, pn := sa.pn % 2 ^ 32, sci := if macIncSci w then some sci else none }
  { t with icv := secIcv w sa sci t sa.pn f }

/-- The P14 copy goes to its VNICs; whether one of them took it (R321). -/
def deliverAll (f : Stored) (g : EthFrame) (s : State) : State × Bool :=
  if f.vnics = [] then (countPort 14 cNORXBUF 1 s, false)
  else f.vnics.foldl (fun acc v => let r := deliverVnic v f.stamp (ethBytes g) acc.1; (r.1, acc.2 || r.2)) (s, false)

/-- A copy ends on the wire (R313), or reaches Teller, which takes gPTP (09 R270); one that P14 discards for want of a buffer has not been transmitted (R321). -/
def endSend (p : Nat) (t : Sending) (f : Stored) (s : State) : State :=
  let g := s.egress p f
  let len := frameLen g + s.macOverhead p f
  let s1 := s.setSp p { s.sp p with sending := none, out := some g, outSec := t.an.map (fun an => s.secTag p an g) }
  let r := if p = 14 then deliverAll f g s1 else (s1, true)
  let s2 := if r.2 then countPort p cTXBYTES len (countPort p cTXFRAMES 1 r.1) else r.1
  let s3 := match t.an with
    | some an => nextPn p an (countMac p 8 s2)
    | none => s2
  let s4 := if p = 15 ∧ f.frame.etype = 0x88F7 then gptpIn f.iport f.frame.payload s3 else s3
  releaseCopy t.id s4

/-- AGED_HEAD_CHECK (R312): while a link is down, the heads of its queues meet the ageing window. -/
def execAgedHeadCheck (e : Stim) (port : Nat) (s : State) : Host.Outcome State Fault Refusal :=
  event e s (fun s => decide (port < 16) && !s.linked port) (fun s =>
    (List.range 8).foldl (fun s tc =>
      let x := s.sp port
      match x.q tc with
      | [] => s
      | id :: _ =>
        if (s.stored? id).any (fun f => decide (s.tim.full < f.stamp) || decide (f.stamp + x.ageOf tc ≤ s.tim.full)) then
          dropCopy port cAGED id (popHead port tc s)
        else s) s)

end Sys2Proof.Machine
end

