-- ==== Sys2Proof/Machine/Tsn.lean ====
section
/-!
DEFINITION. Meanings of the TSN commands (11 R358) and of the gates', change sets' and recovery functions' events.
-/

namespace Sys2Proof.Machine

/-! ### Change sets (R353 to R357) -/

/-- The state with the change set replaced. -/
def setSet (o : Option ChangeSet) (s : State) : State := { s with tsn := { s.tsn with set := o } }

def tsnCsOpenSpec : OpSpec :=
  { opcode := 0x2901, plen := (· == 0), right := onlyT0, isl := some 2
    exec := fun _ s =>
      if s.tsn.set.isSome then .fail .busy s
      else
        let e := (s.tsn.cepoch + 1) % 256
        .done .ok [wd e] (setSet (some { e := e, tab := s.tsn.act }) s) }

/-- TSN_CS_OPEN (R354). -/
def execTsnCsOpen (e : Stim) (r : Req) (s : State) : Host.Outcome State Fault Refusal :=
  .next (submit tsnCsOpenSpec r (s.advance e))

/-- The change set that a command's epoch names. -/
def State.named (s : State) (e : Nat) : Option ChangeSet := s.tsn.set.filter (fun c => c.e == e)

/-- Two contexts of one IDTYPE share a MAC address and VID with overlapping INPORTS (R333). -/
def clash (a b : List Word) : Bool :=
  stType a != 0 && stType a == stType b && stMac a == stMac b && stVid a == stVid b &&
    ((stInports a) &&& (stInports b)) != 0

/-- The cross-table checks of a commit (R333, R346). -/
def crossOk (t : TsnTab) (s : State) : Bool :=
  t.stream.all (fun a => t.stream.all (fun b => a.1 == b.1 || !clash a.2 b.2)) &&
  (List.range 16).all (fun p =>
    decide (((List.range 8).map (fun tc => look 0 t.cbs (p * 8 + tc))).sum * 4 ≤ portRate p (s.sp p) * 3))

/-- A 48-bit time as the full time nearest the present (R344). -/
def State.nearest (s : State) (t : Nat) : Nat := ((s.tim.full : Int) + diff48 t s.now).toNat

def tsnCsCommitSpec : OpSpec :=
  { opcode := 0x2902, plen := (· == 3), right := onlyT0, isl := some 2
    parm := fun _ ps _ => need (within (par ps 0) 0xFF && within (par ps 2) 0xFFFF)
    exec := fun c s =>
      match s.named (par c.params 0).toNat with
      | none => .fail .staleEpoch s
      | some cs =>
        let t := (par c.params 1).toNat + (par c.params 2).toNat * 2 ^ 32
        let soon := t == 0 || decide (diff48 t s.now < 100000)
        if cs.t.isSome then .fail .busy s
        else if t ≠ 0 ∧ soon ∧ c.lateOk = false then .fail .tooLate s
        else if !crossOk cs.tab s then .fail .badParam s
        else
          let full := if soon then s.tim.full + 100000 else s.nearest t
          let lists := cs.lists.map (fun p => (p.1, { p.2 with base := s.nearest p.2.base }))
          .accept (setSet (some { cs with t := some full, cmd := c.id, lists := lists, waiting := lists.map (·.1) }) s) }

/-- TSN_CS_COMMIT (R355). -/
def execTsnCsCommit (e : Stim) (r : Req) (s : State) : Host.Outcome State Fault Refusal :=
  .next (submit tsnCsCommitSpec r (s.advance e))

def tsnCsAbortSpec : OpSpec :=
  { opcode := 0x2903, plen := (· == 1), right := onlyT0, isl := some 2
    parm := fun _ ps _ => need (within (par ps 0) 0xFF)
    exec := fun c s =>
      match s.named (par c.params 0).toNat with
      | none => .fail .staleEpoch s
      | some cs => if cs.t.isSome then .fail .busy s else .okay (setSet none s) }

/-- TSN_CS_ABORT (R354). -/
def execTsnCsAbort (e : Stim) (r : Req) (s : State) : Host.Outcome State Fault Refusal :=
  .next (submit tsnCsAbortSpec r (s.advance e))

/-- A staging command: BUSY but while a set is open (R354). -/
def stage (f : ChangeSet → ChangeSet) (s : State) : Ans :=
  match s.tsn.set with
  | none => .fail .busy s
  | some cs => if cs.t.isSome then .fail .busy s else .okay (setSet (some (f cs)) s)

/-- Meter fields of a context, and FRER fields. -/
def meterFields (b : List Word) : List Nat :=
  [stCir b, stCbs b, stEir b, stEbs b, b2n (stFlag b 1), b2n (stFlag b 2), b2n (stFlag b 3)]
def frerFields (b : List Word) : List Nat := [fld (par b 8) 15 8, stHist b, stReset b]

/-- What a stream keeps across the switch of its context (R336, R340, R357). -/
def carryStream (old new : List Word) (clk : Nat) (x : Stream) : Stream :=
  let y := if meterFields old = meterFields new then x else { x with usedC := 0, usedE := 0, fillAt := clk }
  if frerFields old = frerFields new then y
  else { y with takeAny := true, lastAcc := none, genSeq := 0, hist := 0, span := 0, recov := 0 }

/-- Shapers that a change set enables start at credit 0 (R346). -/
def startCredits (p : Nat) (t : TsnTab) (s : State) : State :=
  (List.range 8).foldl (fun s tc =>
    if s.idleSlope p tc = 0 ∧ look 0 t.cbs (p * 8 + tc) ≠ 0 then
      s.setSp p { s.sp p with credit := put (s.sp p).credit tc { val := 0, at_ := s.clk, shut := !s.gateOpen p tc } }
    else s) s

/-- The switch of a change set at T (R355): CEPOCH, streams, shapers and transmit SAs. -/
def switchSet (cs : ChangeSet) (s : State) : State :=
  let s0 := (List.range 16).foldl (fun s p => foldCredits p s) s
  let sp := (List.range 16).foldl (fun s p => startCredits p cs.tab s) s0
  let s1 := (cs.tab.stream).foldl (fun s p =>
    s.setStrm p.1 (carryStream (s.ctx p.1) p.2 s.clk (s.strm p.1))) sp
  { s1 with tsn := { s1.tsn with act := cs.tab, cepoch := cs.e, set := some { cs with switched := true } } }

/-- A committed change set whose T has come. -/
def State.setDue (s : State) : Bool := s.tsn.set.any (fun c => !c.switched && c.t.any (fun t => decide (t ≤ s.tim.full)))

/-- The change set switches. -/
def setSwitch (s : State) : State :=
  match s.tsn.set with
  | none => s
  | some cs => switchSet cs s

/-- CHANGE_SET_SWITCH (R355). -/
def execChangeSetSwitch (e : Stim) (s : State) : Host.Outcome State Fault Refusal := event e s (·.setDue) setSwitch

/-- Key of a gate in the tables of lists. -/
def gateKey : GateRef → Nat
  | .port p => p
  | .stream g => 16 + g

/-- The gate exists. -/
def gateRefOk : GateRef → Bool
  | .port p => decide (p < 16)
  | .stream g => decide (g < 32)

/-- Folds the credits of the port of a gate list's key. -/
def foldKey (k : Nat) (s : State) : State := if k < 16 then foldCredits k s else s

/-- The staged list of a gate switches at this full time or before. -/
def State.gateDue (s : State) (k : Nat) : Bool := (s.listDue k).any (fun x => decide (x.2 ≤ s.tim.full))

/-- The staged list of a gate becomes its operating list (R356). -/
def gateSwitch (k : Nat) (s : State) : State :=
  match s.listDue k, s.tsn.set with
  | some x, some cs =>
    let new := x.1.become x.2
    let s1 := foldKey k s
    let last := match cs.lastSwitch with
      | some m => max m x.2
      | none => x.2
    foldKey k { s1 with tsn := { s1.tsn with
      gate := put s1.tsn.gate k new
      set := some { cs with waiting := cs.waiting.filter (· != k), lastSwitch := some last } } }
  | _, _ => s

/-- GATE_LIST_SWITCH (R356). -/
def execGateListSwitch (e : Stim) (gk : GateRef) (s : State) : Host.Outcome State Fault Refusal :=
  event e s (fun s => gateRefOk gk && s.gateDue (gateKey gk)) (gateSwitch (gateKey gk))

/-- What falls due in the switch by now comes before the frames of this instant (10 R315, R12, R355, R356): holds expire,
a change set and gate lists switch. -/
def settleNet (s : State) : State :=
  let s1 := settleHolds s
  let s2 := if s1.setDue then setSwitch s1 else s1
  (((s2.tsn.set.map (·.waiting)).getD [])).foldl (fun s k => if s.gateDue k then gateSwitch k s else s) s2

/-- FRAME_RECEIVED (10 R299): the frames whose ingress completes in one SWX cycle. What falls due in the cycle comes first
(10 R315), and a link event or a selection that is taken after them is of a later cycle (DESIGN CHOICE, log 22: the phase
of the 1.6 ns cycle against whole nanoseconds is open). -/
def execFrameReceived (e : Stim) (fs : List RxFrame) (s : State) : Host.Outcome State Fault Refusal :=
  event e s (·.running 2) (fun s => receiveAll fs (settleNet s))

/-- FRAME_QUEUED (10 R307): at the end of the cell slot that writes the last cell. -/
def execFrameQueued (e : Stim) (id : Nat) (s : State) : Host.Outcome State Fault Refusal :=
  event e s (fun s => s.queueNext id) (fun s => queueFrame id (settleNet s))

/-- TRANSMISSION_START (10 R311). -/
def execTransmissionStart (e : Stim) (port : Nat) (s : State) : Host.Outcome State Fault Refusal :=
  event e s (fun s => decide (port < 16) && s.running 2 && s.linked port && (s.sp port).sending.isNone) (fun s =>
    let s1 := settleNet s
    selectNext port (s1.queued port + 1) (foldCredits port s1))

/-- A time as TIM_NOW words 0 and 1 with TFR 0. -/
def timeWords (t : Nat) : List Word := [wd t, wd (t / 2 ^ 32 % 2 ^ 16)]

/-- CHANGE_SET_COMPLETE (R357): every table has switched. -/
def execChangeSetComplete (e : Stim) (s : State) : Host.Outcome State Fault Refusal :=
  event e s (fun s => s.tsn.set.any (fun c => c.switched && c.waiting.isEmpty)) (fun s =>
    match s.tsn.set with
    | none => s
    | some cs => finishCmd cs.cmd .ok (wd cs.e :: timeWords (cs.lastSwitch.getD (cs.t.getD 0))) (setSet none s))

/-- GATE_ENTRY_CHANGE (R344): credits stand until the change under the gates before it (R346). -/
def execGateEntryChange (e : Stim) (gk : GateRef) (s : State) : Host.Outcome State Fault Refusal :=
  event e s (fun s => gateRefOk gk && (s.gcl (gateKey gk)).isSome) (foldKey (gateKey gk))

/-! ### Stream commands -/

/-- Every field of a context lies in its range (R331 to R333). -/
def streamOk (b : List Word) : Bool :=
  let rec_ := stRec b
  decide (fld (par b 0) 15 9 = 0) && decide (stType b ≤ 2) && decide (fld (par b 0) 31 30 = 0) &&
  !bit (par b 2) 31 && vidOk (stVid b) &&
  (stMaxSdu b == 0 || (decide (64 ≤ stMaxSdu b) && decide (stMaxSdu b ≤ 9216))) &&
  decide (stCir b ≤ 25000000) && decide (stEir b ≤ 25000000) && decide (stCbs b ≤ 16777215) && decide (stEbs b ≤ 16777215) &&
  within (par b 8) 0xFF071F &&
  (if rec_ && !stAlg b then decide (2 ≤ stHist b) && decide (stHist b ≤ 32) else stHist b == 0) &&
  (if rec_ then decide (1 ≤ stReset b) else stReset b == 0) && par b 11 == 0 &&
  !(stType b == 1 && stMac b == broadcast)

def tsnStreamSpec : OpSpec :=
  { opcode := 0x2910, plen := (· == 12), right := onlyT0, isl := some 2
    parm := fun _ ps _ =>
      if crc16 ((wordBytes ps).take 42) ≠ fld (par ps 10) 31 16 then some .badCheck else need (streamOk ps)
    exec := fun c s => stage (fun cs => { cs with tab := { cs.tab with
      stream := put cs.tab.stream (fld (par c.params 0) 8 0) c.params } }) s }

/-- TSN_STREAM (R333). -/
def execTsnStream (e : Stim) (r : Req) (s : State) : Host.Outcome State Fault Refusal :=
  .next (submit tsnStreamSpec r (s.advance e))

/-- A context as read: an unwritten one names its number and nothing else. -/
def ctxWords (t : TsnTab) (sid : Nat) : List Word := (find? t.stream sid).getD (wd sid :: List.replicate 11 0)

def tsnStreamReadSpec : OpSpec :=
  { opcode := 0x2911, plen := (· == 1), isl := some 2
    parm := fun _ ps _ => need (within (par ps 0) 0x101FF)
    exec := fun c s =>
      let tab := if bit (par c.params 0) 16 then (match s.tsn.set with
        | some cs => cs.tab
        | none => s.tsn.act) else s.tsn.act
      .done .ok (ctxWords tab (fld (par c.params 0) 8 0)) s }

/-- TSN_STREAM_READ (R358). -/
def execTsnStreamRead (e : Stim) (r : Req) (s : State) : Host.Outcome State Fault Refusal :=
  .next (submit tsnStreamReadSpec r (s.advance e))

def tsnStreamStatusSpec : OpSpec :=
  { opcode := 0x2912, plen := (· == 1), isl := some 2
    parm := fun _ ps _ => need (within (par ps 0) 0x1FF)
    exec := fun c s =>
      let sid := fld (par c.params 0) 8 0
      let x := s.strm sid
      .done .ok ([wd (sid + b2n x.blocked * 2 ^ 16 + b2n x.takeAny * 2 ^ 17), wd (x.recov + x.resets * 2 ^ 16)] ++
        (List.range 10).map (fun j => wd (look 0 x.cnt j))) s }

/-- TSN_STREAM_STATUS (R361). -/
def execTsnStreamStatus (e : Stim) (r : Req) (s : State) : Host.Outcome State Fault Refusal :=
  .next (submit tsnStreamStatusSpec r (s.advance e))

def tsnStreamClearSpec : OpSpec :=
  { opcode := 0x2913, plen := (· == 1), right := onlyT0, isl := some 2
    parm := fun _ ps _ => need (within (par ps 0) 0x1FF)
    exec := fun c s =>
      let sid := fld (par c.params 0) 8 0
      .okay (s.setStrm sid { s.strm sid with cnt := [], resets := 0, blocked := false, takeAny := true, lastAcc := none }) }

/-- TSN_STREAM_CLEAR (R358). -/
def execTsnStreamClear (e : Stim) (r : Req) (s : State) : Host.Outcome State Fault Refusal :=
  .next (submit tsnStreamClearSpec r (s.advance e))

/-- RECOVERY_RESET (R340): no acceptance within the reset window. -/
def execRecoveryReset (e : Stim) (sid : Nat) (s : State) : Host.Outcome State Fault Refusal :=
  event e s (fun s => decide (sid < 512) && s.recoveryDue sid) (recoveryReset sid)

/-! ### Gate lists and shapers -/

/-- Entries of TSN_GCL. -/
def gclEntries (ps : List Word) : List (Nat × Nat) :=
  (List.range (fld (par ps 0) 31 24)).map (fun i => ((par ps (4 + 2 * i)).toNat, (par ps (5 + 2 * i)).toNat))

/-- An entry of R343 lies in its range. -/
def gclEntryOk (stream : Bool) (e : Nat × Nat) : Bool :=
  decide (e.1 < 2 ^ 12) && decide (64 ≤ e.2) && decide (e.2 ≤ 1000000) &&
  (if stream then decide (e.1 % 256 ≤ 1) && (e.1.testBit 11 || decide (e.1 / 256 = 0)) else decide (e.1 < 256))

def gclOk (ps : List Word) : Bool :=
  let n := fld (par ps 0) 31 24
  within (par ps 0) 0xFF1F010F && decide (n ≤ 128) &&
  (if n = 0 then par ps 1 == 0 && par ps 2 == 0 && par ps 3 == 0
    else decide (1000 ≤ (par ps 1).toNat) && decide ((par ps 1).toNat ≤ 1000000) && within (par ps 3) 0xFFFF) &&
  (gclEntries ps).all (gclEntryOk (bit (par ps 0) 8))

def tsnGclSpec : OpSpec :=
  { opcode := 0x2920, plen := fun _ => true, plenP := fun ps => ps.length == 4 + 2 * fld (par ps 0) 31 24
    right := onlyT0, isl := some 2
    parm := fun _ ps _ => need (gclOk ps)
    exec := fun c s =>
      let ps := c.params
      let k := if bit (par ps 0) 8 then 16 + fld (par ps 0) 20 16 else parPort ps
      let g : GateStage := { entries := gclEntries ps, cycle := (par ps 1).toNat,
                             base := (par ps 2).toNat + (par ps 3).toNat * 2 ^ 32 }
      stage (fun cs => { cs with lists := put cs.lists k g }) s }

/-- TSN_GCL (R343, R359). -/
def execTsnGcl (e : Stim) (r : Req) (s : State) : Host.Outcome State Fault Refusal :=
  .next (submit tsnGclSpec r (s.advance e))

def tsnCbsSpec : OpSpec :=
  { opcode := 0x2921, plen := (· == 2), right := onlyT0, isl := some 2
    parm := fun _ ps s =>
      let v := (par ps 1).toNat
      need (within (par ps 0) 0x1070F &&
        (!bit (par ps 0) 16 || (decide (1 ≤ v) && decide (v ≤ portRate (parPort ps) (s.sp (parPort ps))))))
    exec := fun c s =>
      let k := parPort c.params * 8 + fld (par c.params 0) 10 8
      let v := if bit (par c.params 0) 16 then (par c.params 1).toNat else 0
      stage (fun cs => { cs with tab := { cs.tab with cbs := put cs.tab.cbs k v } }) s }

/-- TSN_CBS (R346). -/
def execTsnCbs (e : Stim) (r : Req) (s : State) : Host.Outcome State Fault Refusal :=
  .next (submit tsnCbsSpec r (s.advance e))

/-- The six words of R360. -/
def State.tsnPortWords (s : State) (p : Nat) : List Word :=
  let g := s.gcl p
  let full := s.tim.full
  let at_ := match g with
    | some g => g.at_ full
    | none => (0, 0xFF)
  let pend := s.tsn.set.any (fun c => c.t.isSome && c.waiting.contains p)
  let start := match g with
    | some g => full - g.pos full
    | none => 0
  let mask := ((List.range 8).map (fun tc => if s.idleSlope p tc = 0 then 0 else 2 ^ tc)).sum
  [ wd (s.tsn.cepoch * 2 ^ 24 + at_.1 * 2 ^ 16 + at_.2 % 256 * 2 ^ 8 + b2n pend * 2 ^ 7 + b2n g.isSome * 2 ^ 6 +
      (if p < 14 then s.txan p * 2 ^ 4 else 0) + p) ] ++ timeWords start ++
  [ wd (s.sp p).tooBig, wd mask, wd (match g with
      | some g => g.cycle
      | none => 0) ]

def tsnPortStatusSpec : OpSpec :=
  { opcode := 0x2930, plen := (· == 1), isl := some 2
    parm := fun _ ps _ => need (within (par ps 0) 0xF)
    exec := fun c s => .done .ok (s.tsnPortWords (parPort c.params)) s }

/-- TSN_PORT_STATUS (R360). -/
def execTsnPortStatus (e : Stim) (r : Req) (s : State) : Host.Outcome State Fault Refusal :=
  .next (submit tsnPortStatusSpec r (s.advance e))

/-! ### MACsec commands (R362, R363) -/

def tsnMacsecPortSpec : OpSpec :=
  { opcode := 0x2940, plen := (· == 2), right := onlyT0, isl := some 2
    parm := fun _ ps s =>
      let w := par ps 0
      let p := parPort ps
      need (within w 0x33F0F && decide (p < 14) && decide (macValidate w ≤ 2) &&
        (!bit w 8 || decide ((s.sp p).mtu ≤ (if p < 12 then 9184 else 1490))))
    exec := fun c s =>
      let p := parPort c.params
      if s.portState p ≠ .clockGated then .fail .busy s
      else .okay (s.setMacp p { s.macp p with w0 := par c.params 0, replay := par c.params 1 }) }

/-- TSN_MACSEC_PORT (R362). -/
def execTsnMacsecPort (e : Stim) (r : Req) (s : State) : Host.Outcome State Fault Refusal :=
  .next (submit tsnMacsecPortSpec r (s.advance e))

def tsnRxscSpec : OpSpec :=
  { opcode := 0x2942, plen := (· == 4), right := onlyT0, isl := some 2
    parm := fun _ ps _ => need (within (par ps 0) 0x10F3F && decide (fld (par ps 0) 11 8 < 14) && par ps 3 == 0)
    exec := fun c s =>
      let ps := c.params
      let x : RxSc := { port := fld (par ps 0) 11 8, valid := bit (par ps 0) 16,
                        sci := (par ps 1).toNat + (par ps 2).toNat * 2 ^ 32 }
      .okay { s with tsn := { s.tsn with rxsc := put s.tsn.rxsc (fld (par ps 0) 5 0) x } } }

/-- TSN_RXSC (R362). -/
def execTsnRxsc (e : Stim) (r : Req) (s : State) : Host.Outcome State Fault Refusal :=
  .next (submit tsnRxscSpec r (s.advance e))

/-- The port whose suite governs an SA. -/
def State.saPort (s : State) (ps : List Word) : Nat :=
  if bit (par ps 0) 0 then (look {} s.tsn.rxsc (fld (par ps 0) 21 16)).port else fld (par ps 0) 11 8

def saOk (ps : List Word) (s : State) : Bool :=
  let w := par ps 0
  let cw := (s.macp (s.saPort ps)).w0
  let zero := fun a n => (List.range n).all (fun i => par ps (a + i) == 0)
  within w 0x13F0F07 && decide (s.saPort ps < 14) &&
  (!bit w 0 || ((look {} s.tsn.rxsc (fld w 21 16)).valid && zero 15 2)) &&
  (macXpn cw || zero 2 5) && (macCipher cw % 2 == 1 || zero 11 4)

def tsnSaSpec : OpSpec :=
  { opcode := 0x2941, plen := (· == 17), right := onlyT0, isl := some 2
    parm := fun _ ps s => need (saOk ps s)
    exec := fun c s =>
      let ps := c.params
      let w := par ps 0
      let x : Sa := { valid := bit w 24, pn := (par ps 1).toNat + (par ps 2).toNat * 2 ^ 32, ssci := par ps 3,
                      salt := (ps.drop 4).take 3, key := (ps.drop 7).take 8, sci := (ps.drop 15).take 2 }
      if bit w 0 then .okay { s with tsn := { s.tsn with rxsa := put s.tsn.rxsa (fld w 21 16 * 4 + fld w 2 1) x } }
      else .okay { s with tsn := { s.tsn with txsa := put s.tsn.txsa (fld w 11 8 * 4 + fld w 2 1) x } } }

/-- TSN_SA (R350, R362). -/
def execTsnSa (e : Stim) (r : Req) (s : State) : Host.Outcome State Fault Refusal :=
  .next (submit tsnSaSpec r (s.advance e))

def tsnTxsaSelectSpec : OpSpec :=
  { opcode := 0x2943, plen := (· == 1), right := onlyT0, isl := some 2
    parm := fun _ ps _ => need (within (par ps 0) 0x30F && decide (parPort ps < 14))
    exec := fun c s => stage (fun cs => { cs with tab := { cs.tab with
      txan := put cs.tab.txan (parPort c.params) (fld (par c.params 0) 9 8) } }) s }

/-- TSN_TXSA_SELECT (R350, R353). -/
def execTsnTxsaSelect (e : Stim) (r : Req) (s : State) : Host.Outcome State Fault Refusal :=
  .next (submit tsnTxsaSelectSpec r (s.advance e))

/-- The twelve words of R363. -/
def State.macWords (s : State) (p : Nat) : List Word :=
  let x := s.macp p
  let pn := (s.txsa p (s.txan p)).pn
  [ wd (p + b2n (bit x.w0 8) * 2 ^ 8 + macValidate x.w0 * 2 ^ 9 + s.txan p * 2 ^ 12 + b2n (decide (s.pnWarn p ≤ pn)) * 2 ^ 16 +
      b2n (decide (s.pnMax p ≤ pn)) * 2 ^ 17), wd pn ] ++ (List.range 10).map (fun j => wd (look 0 x.cnt j))

def tsnMacsecStatusSpec : OpSpec :=
  { opcode := 0x2944, plen := (· == 1), isl := some 2
    parm := fun _ ps _ => need (within (par ps 0) 0xF && decide (parPort ps < 14))
    exec := fun c s => .done .ok (s.macWords (parPort c.params)) s }

/-- TSN_MACSEC_STATUS (R363). -/
def execTsnMacsecStatus (e : Stim) (r : Req) (s : State) : Host.Outcome State Fault Refusal :=
  .next (submit tsnMacsecStatusSpec r (s.advance e))

end Sys2Proof.Machine
end

