-- ==== Sys2Proof/Machine/Can.lean ====
section
/-!
DEFINITION. The CAN controllers (12 R365 to R391): configuration, message RAM, windows, filters, reception and the
lock, and the BUS commands of the CAN kind. Arbitration and its outcomes stand in CanTx.lean. Log entry 27.
-/

namespace Sys2Proof.Machine

/-! ### Configuration (R372 to R375, R398) -/

def CanCtl.legacy (x : CanCtl) : Bool := bit (par x.conf 0) 8

/-- Buffers in the groups RXF, RXB, TXF and PRI (R375). -/
def groupCounts (w : List Word) : List Nat :=
  [fld (par w 6) 14 8, fld (par w 6) 22 16, fld (par w 6) 6 0, if bit (par w 0) 8 then 0 else 32]

def CanCtl.count (x : CanCtl) (g : Nat) : Nat := (groupCounts x.conf).getD g 0

/-- DCAP of a group in bytes. -/
def dcapOf (w : List Word) (g : Nat) : Nat := (fld (par w 7) (8 * g + 7) (8 * g) + 1) * 8

def CanCtl.dcap (x : CanCtl) (g : Nat) : Nat := dcapOf x.conf g

/-- First buffer number of a group. -/
def CanCtl.first (x : CanCtl) (g : Nat) : Nat := ((groupCounts x.conf).take g).sum

/-- Number of buffer i of a group. -/
def CanCtl.bufNo (x : CanCtl) (g i : Nat) : Nat := x.first g + i

/-- Group of a buffer number and the index in it, if a group holds it. -/
def CanCtl.groupOf (x : CanCtl) (n : Nat) : Option (Nat × Nat) :=
  ((List.range 4).find? (fun g => decide (x.first g ≤ n) && decide (n < x.first g + x.count g))).map
    (fun g => (g, n - x.first g))

/-- DATAOFF of a buffer (R375): data areas in ascending buffer number from 0x0C00, without gaps. -/
def CanCtl.dataOff (x : CanCtl) (n : Nat) : Nat :=
  match x.groupOf n with
  | none => 0
  | some (g, i) => 0x0C00 + ((List.range g).map (fun k => x.count k * x.dcap k)).sum + i * x.dcap g

/-- Cycles of 12.5 ns in a bit of a timing set. -/
def bitCycles (brp tseg1 tseg2 : Nat) : Nat := brp * (1 + tseg1 + tseg2)

def nomCycles (w : Word) : Nat := bitCycles (fld w 28 24 + 1) (fld w 7 0 + 1) (fld w 14 8 + 1)
def dataCycles (w : Word) : Nat := bitCycles (fld w 26 24 + 1) (fld w 5 0 + 1) (fld w 12 8 + 1)

/-- The nominal set (R372). -/
def nomOk (w : Word) : Bool :=
  within w 0x1F7F7FFF && decide (1 ≤ fld w 7 0) && decide (1 ≤ fld w 14 8) && decide (fld w 22 16 ≤ fld w 14 8) &&
  decide (80 ≤ nomCycles w) && decide (nomCycles w ≤ 4000)

/-- A data set in use, with the fewest cycles that its rate limit allows (R372, R373). -/
def dataOk (w : Word) (fewest : Nat) (tdcen : Bool) : Bool :=
  within w 0x071F1F3F && decide (1 ≤ fld w 5 0) && decide (fld w 20 16 ≤ fld w 12 8) &&
  decide (fewest ≤ dataCycles w) && (decide (80 ≤ dataCycles w) || (tdcen && decide (fld w 26 24 ≤ 1)))

/-- The parameters of BUS_CAN_CONFIG for controller n (R372 to R375, R398). -/
def canConfOk (n : Nat) (w : List Word) : Bool :=
  let w0 := par w 0
  let fd := bit w0 9
  let xl := bit w0 10
  let pwm := bit w0 13
  let tdc := bit w0 11
  let q := dataCycles (par w 3)
  let cs := groupCounts w
  within w0 0xFFFF && within (par w 4) 0x3F3F7F7F && within (par w 5) 0x3F && within (par w 6) 0x7F7F7F &&
  nomOk (par w 1) &&
  (if fd then dataOk (par w 2) 10 tdc else par w 2 == 0 && fld (par w 4) 6 0 == 0) &&
  (if xl then dataOk (par w 3) (if n < 8 then 10 else 4) tdc else par w 3 == 0 && fld (par w 4) 14 8 == 0) &&
  (if pwm then decide (8 ≤ n) && xl && fld (par w 4) 21 16 + fld (par w 4) 29 24 == q
   else fld (par w 4) 31 16 == 0 && par w 5 == 0 && !(xl && decide (q < 8))) &&
  decide (cs.getD 0 0 ≤ 96) && decide (cs.getD 1 0 ≤ 96) &&
  (if bit w0 8 then decide (1 ≤ cs.getD 2 0) && decide (cs.getD 2 0 ≤ 32) else decide (cs.getD 2 0 ≤ 64)) &&
  decide (cs.sum ≤ 128) && decide (((List.range 4).map (fun g => cs.getD g 0 * dcapOf w g)).sum ≤ 47104)

/-! ### Headers (R376) -/

/-- First address of a controller's window (R378). -/
def winBase (n : Nat) : Nat := 0x70000000 + 0x10000 * n

/-- The 24 bytes of a buffer's header; DATAOFF stands as the configuration sets it. -/
def State.canHdr (s : State) (n b : Nat) : List Byte :=
  let x := s.canc n
  match x.groupOf b with
  | none => List.replicate 24 0
  | some _ => s.readMem (winBase n + 24 * b) 22 ++ bytesOf 2 (x.dataOff b)

def hFmt (h : List Byte) : Nat := le h 4 1
def hLen (h : List Byte) : Nat := le h 6 2
def hOneshot (h : List Byte) : Bool := (hFmt h).testBit 6
def hLog (h : List Byte) : Bool := (hFmt h).testBit 7
def hTag (h : List Byte) : Nat := le h 10 2

/-- A LEN valid for a format. -/
def lenOk (fmt len : Nat) : Bool :=
  if fmt = 0 then decide (len ≤ 8)
  else if fmt = 1 then decide (len ≤ 8) || [12, 16, 20, 24, 32, 48, 64].contains len
  else fmt == 2 && decide (1 ≤ len) && decide (len ≤ 2048)

/-- A malformed header in a group of a data capacity. -/
def malformed (h : List Byte) (dcap : Nat) : Bool :=
  let f := hFmt h % 4
  let ide := (hFmt h).testBit 2
  let remote := (hFmt h).testBit 3
  (f == 2 && (ide || remote)) || (f == 1 && remote) || !lenOk f (hLen h) || decide (dcap < hLen h)

/-- Identifier of a header, by its length. -/
def hIdent (h : List Byte) : Nat := le h 0 4 % (if (hFmt h).testBit 2 then 2 ^ 29 else 2 ^ 11)

/-- The frame that a header describes, with the data that a data frame carries. -/
def frameOfHdr (h : List Byte) (esi : Bool) (data : List Byte) : CanFrame :=
  let f := hFmt h % 4
  let rtr := f == 0 && (hFmt h).testBit 3
  { id := hIdent h, ext := (hFmt h).testBit 2, fmt := f, rtr := rtr, brs := f == 1 && (hFmt h).testBit 4,
    esi := esi, sdt := if f = 2 then le h 8 1 else 0, vcid := if f = 2 then le h 9 1 else 0,
    af := if f = 2 then le h 12 4 else 0, sec := f == 2 && (hFmt h).testBit 5, dlc := hLen h,
    data := if rtr then [] else data }

/-- The frame that a transmit buffer holds. -/
def State.canTxFrame (s : State) (n b : Nat) : CanFrame :=
  let h := s.canHdr n b
  frameOfHdr h ((s.canc n).estate == 1) (s.readMem (winBase n + (s.canc n).dataOff b) (hLen h))

/-- A frame with the fields that its format has, the others 0 (R376): FAST and ESI of FD, SEC, SDT, VCID and AF of XL, REMOTE
of Classical CAN. -/
def rxFormed (f : CanFrame) : CanFrame :=
  { f with rtr := f.fmt == 0 && f.rtr, brs := f.fmt == 1 && f.brs, esi := f.fmt != 0 && f.esi, sec := f.fmt == 2 && f.sec
           sdt := if f.fmt = 2 then f.sdt else 0, vcid := if f.fmt = 2 then f.vcid else 0, af := if f.fmt = 2 then f.af else 0 }

/-- The 22 bytes of the header of a received frame. -/
def rxHeader (f : CanFrame) (nm : Bool) (filter stamp : Nat) : List Byte :=
  let g := rxFormed f
  bytesOf 4 (g.id % 2 ^ 29 + b2n nm * 2 ^ 31) ++
  bytesOf 1 (g.fmt % 4 + b2n g.ext * 4 + b2n g.rtr * 8 + b2n g.brs * 16 + b2n g.sec * 32) ++
  bytesOf 1 (filter + b2n g.esi * 128) ++ bytesOf 2 g.dlc ++ bytesOf 1 g.sdt ++ bytesOf 1 g.vcid ++ bytesOf 2 0 ++
  bytesOf 4 g.af ++ bytesOf 6 stamp

/-- Stores a received frame into a buffer: its header and as much of its data as the area holds. -/
def storeRx (n b : Nat) (f : CanFrame) (nm : Bool) (filter stamp : Nat) (s : State) : State :=
  let x := s.canc n
  let d := match x.groupOf b with
    | some (g, _) => f.data.take (x.dcap g)
    | none => []
  (s.writeMem (winBase n + 24 * b) (rxHeader f nm filter stamp)).writeMem (winBase n + x.dataOff b) d

/-! ### Status words (R379, R399) -/

/-- Buffer number of the receive FIFO's head, if it holds an unread frame. -/
def CanCtl.rxfHead (x : CanCtl) : Option Nat := if x.rxFill = 0 then none else some (x.bufNo 0 x.rxHead)

/-- Buffer number that the next commit takes. -/
def CanCtl.putNo (x : CanCtl) : Nat := x.bufNo 2 ((x.txHead + x.txFill) % x.count 2)

/-- STATE of a controller. -/
def State.canState (s : State) (n : Nat) : GateState := (s.gate (.can n)).st

/-- The controller takes part in the bus. -/
def State.canUp (s : State) (n : Nat) : Bool :=
  s.alive 5 && (s.canState n == .run || s.canState n == .quiescing)

def State.errStat (s : State) (n : Nat) : Word :=
  let x := s.canc n
  wd (min 255 x.tec * 2 ^ 24 + x.recv * 2 ^ 16 + (s.canState n).code * 2 ^ 12 + x.lec * 2 ^ 8 + b2n (x.lock.any (fun l => decide (s.clk < l.2 + 100000))) * 2 ^ 5 +
    x.mode * 2 ^ 3 + b2n (x.lonePause.any (fun t => decide (s.clk < t + 100000000))) * 2 ^ 2 + x.estate)

/-- A ring governs a controller or port (14 R417). -/
def State.ringed (s : State) (r : Nat) : Bool := (find? s.nmg.ring r).any (fun x => x.st != .disabled)

/-- CAN time mastership is enabled on a controller (09 R284). -/
def State.refOn (s : State) (n : Nat) : Bool := (look {} s.tim.canRef n).en

/-- Priority buffers that carry the module's own frames (R391, R417). -/
def State.reserved (s : State) (n p : Nat) : Bool :=
  (s.ringed n && (p == 28 || p == 29)) || (s.refOn n && (p == 30 || p == 31))

/-- BUS_CAN_CONFIG has laid out the message RAM: no accepted timing set is 0. -/
def CanCtl.laidOut (x : CanCtl) : Bool := par x.conf 1 != 0

/-- RXF_STAT, TXF_STAT and TXE_STAT (R379); FULL is 0 until a configuration lays out the elements. -/
def CanCtl.rxfStat (x : CanCtl) : Word :=
  wd (24 * x.bufNo 0 x.rxHead * 2 ^ 16 + b2n (x.laidOut && x.rxFill == x.count 0) * 2 ^ 15 + x.rxFill)
def CanCtl.txfStat (x : CanCtl) : Word :=
  wd (24 * x.putNo * 2 ^ 16 + b2n (x.laidOut && x.txFill == x.count 2) * 2 ^ 15 + x.txFill)
def CanCtl.txeStat (x : CanCtl) : Word := wd (x.txeLost * 2 ^ 16 + x.txe.length)

/-- MB_NEWw: unread dedicated receive buffers 32w to 32w + 31 (R378). -/
def CanCtl.mbNew (x : CanCtl) (w : Nat) : Word :=
  wd ((x.rxNew.filter (fun r => r / 32 == w)).map (fun r => 2 ^ (r % 32))).sum

/-- A word of message RAM: headers with the DATAOFF that the configuration sets, 0 where no group holds the buffer
(R375, R376). -/
def State.ramWord (s : State) (n off : Nat) : Word :=
  if off < 0x0C00 then wd (le (s.canHdr n (off / 24)) (off % 24) 4) else wd (natOf (s.readMem (winBase n + off) 4))

/-- What a read of 32 bits at an aligned offset of a controller's window returns (R378). -/
def State.canRead (s : State) (n off : Nat) : Word :=
  let x := s.canc n
  if off < 0xC000 then s.ramWord n off
  else if off = 0xC000 then x.rxfStat
  else if off = 0xC004 then x.txfStat
  else if off = 0xC010 then wd x.pend
  else if off = 0xC018 then wd x.done
  else if off = 0xC01C then s.errStat n
  else if 0xC020 ≤ off ∧ off < 0xC030 then x.mbNew ((off - 0xC020) / 4)
  else if off = 0xC030 then wd x.flags
  else if off = 0xC034 then x.txeStat
  else if 0xC040 ≤ off ∧ off < 0xC04C then
    (match x.txe with
     | [] => 0
     | t :: _ => if off = 0xC040 then t.w0 else if off = 0xC044 then t.w1 else t.w2)
  else 0

/-! ### Notices, flags and events -/

/-- Owner and readers of a controller. -/
def CanCtl.watchers (x : CanCtl) : List Nat := x.owner :: setBits 32 x.readers.toNat

/-- Posts a notice to the owner and to each reader (R400). -/
def canNotice (n ncode : Nat) (det : List Word) (s : State) : State := noticeAll (s.canc n).watchers ncode det s

/-- Sets bits of FLAGS. -/
def setFlag (n i : Nat) (s : State) : State :=
  let x := s.canc n
  s.setCan n { x with flags := x.flags ||| 2 ^ i }

/-- Delivers the controller's interrupt identity (15 R455). -/
def canIrq (n : Nat) (s : State) : State := deliver (s.canc n).owner (224 + n) s

/-- Arbitrations entered for a buffer's frame. -/
def CanCtl.triesOf (x : CanCtl) (b : Nat) : Nat := look 0 x.tries b

/-- Makes a transmit event (R381). -/
def txEvent (n b status stamp : Nat) (s : State) : State :=
  let x := s.canc n
  let h := s.canHdr n b
  let st := if status = 0 then stamp % 2 ^ 48 else 0
  let att := if status = 4 then 0 else min 255 (x.triesOf b)
  let e : TxEvent := { w0 := wd (hTag h * 2 ^ 16 + status * 2 ^ 8 + b), w1 := wd st, w2 := wd (att * 2 ^ 16 + st / 2 ^ 32) }
  if 16 ≤ x.txe.length then
    s.setCan n { x with txeLost := satInc 0xFFFF x.txeLost, flags := x.flags ||| 16 }
  else canIrq n (s.setCan n { x with txe := x.txe ++ [e] })

/-- A priority buffer's request has ended: its TXB_DONE bit is set. -/
def priDone (n p : Nat) (s : State) : State :=
  let x := s.canc n
  canIrq n (s.setCan n { x with pend := x.pend &&& (2 ^ 32 - 1 - 2 ^ p), cancel := x.cancel &&& (2 ^ 32 - 1 - 2 ^ p),
                                done := x.done ||| 2 ^ p })

/-- The transmit FIFO's head leaves it. -/
def fifoNext (n : Nat) (s : State) : State :=
  let x := s.canc n
  s.setCan n { x with txHead := (x.txHead + 1) % x.count 2, txFill := x.txFill - 1,
                      tries := erase x.tries (x.bufNo 2 x.txHead) }

/-- Releases a lock that has expired (R386). -/
def lockExpire (n : Nat) (s : State) : State :=
  let x := s.canc n
  match x.lock with
  | none => s
  | some (b, at_) =>
    if s.clk < at_ + 100000 then s
    else
      canNotice n 0x3003 [wd (b * 2 ^ 16 + n)]
        (s.setCan n { x with lock := none, flags := x.flags ||| 2, lockExp := satInc 0xFFFF x.lockExp })

/-! ### Requests (R380) -/

/-- A request of priority buffer p (TXB_REQ bit p). -/
def priRequest (n p : Nat) (s : State) : State :=
  let x := s.canc n
  if x.legacy || s.reserved n p || x.pend.testBit p || x.mode = 1 then s
  else s.setCan n { x with pend := x.pend ||| 2 ^ p, cancel := x.cancel &&& (2 ^ 32 - 1 - 2 ^ p),
                           tries := erase x.tries (x.bufNo 3 p) }

/-- A commit of the buffer at the put position (TXF_PUT). -/
def fifoPut (n : Nat) (s : State) : State :=
  let x := s.canc n
  if x.mode = 1 then s
  else if x.count 2 ≤ x.txFill then setFlag n 5 s
  else s.setCan n { x with txFill := x.txFill + 1, tries := erase x.tries x.putNo }

/-- The frame of priority buffer p is in arbitration or transmission. -/
def CanCtl.sendingPri (x : CanCtl) (p : Nat) : Bool := x.sending.any (fun t => t.src == .pri p)

/-- A cancel of priority buffer p (TXB_CANCEL bit p). -/
def priCancel (n p : Nat) (s : State) : State :=
  let x := s.canc n
  if x.legacy || s.reserved n p || !x.pend.testBit p then s
  else if x.sendingPri p then s.setCan n { x with cancel := x.cancel ||| 2 ^ p }
  else priDone n p (txEvent n (x.bufNo 3 p) 1 0 s)

/-- Each set bit of a word, ascending. -/
def eachBit (v : Word) (f : Nat → State → State) (s : State) : State :=
  (setBits 32 v.toNat).foldl (fun s p => f p s) s

/-! ### Windows (R378) -/

/-- An access by a requester to a controller's window: one that is not bound to its owner is ignored, reads as 0 and is
recorded, the first of each second. -/
def canWin (who n : Nat) (f : State → State) (s : State) : State :=
  if s.boundTo who (s.canc n).owner then f s
  else
    let s1 := logFirst 2 0x30 (s.canc n).owner (winBase n) s
    { s1 with rdata := [0] }

def canEvent (e : Stim) (s : State) (who n : Nat) (f : State → State) : Host.Outcome State Fault Refusal :=
  event e s (fun s => decide (n < 12) && s.running 5) (canWin who n f)

/-- TXF_PUT (R380). -/
def execTxfPut (e : Stim) (who can : Nat) (value : Word) (s : State) : Host.Outcome State Fault Refusal :=
  canEvent e s who can (fun s => if bit value 0 then fifoPut can s else s)

/-- TXB_REQ (R380). -/
def execTxbReq (e : Stim) (who can : Nat) (value : Word) (s : State) : Host.Outcome State Fault Refusal :=
  canEvent e s who can (eachBit value (priRequest can))

/-- TXB_CANCEL (R380). -/
def execTxbCancel (e : Stim) (who can : Nat) (value : Word) (s : State) : Host.Outcome State Fault Refusal :=
  canEvent e s who can (eachBit value (priCancel can))

/-- Clears bits of TXB_DONE. -/
def doneClear (n : Nat) (v : Word) (s : State) : State :=
  let x := s.canc n
  s.setCan n { x with done := x.done &&& (2 ^ 32 - 1 - v.toNat) }

/-- TXB_DONE_CLEAR (R378). -/
def execTxbDoneClear (e : Stim) (who can : Nat) (value : Word) (s : State) : Host.Outcome State Fault Refusal :=
  canEvent e s who can (doneClear can value)

/-- Clears bits of FLAGS; LOST of TXE_STAT with TXE_OVF (R379). -/
def flagsClear (n : Nat) (v : Word) (s : State) : State :=
  let x := s.canc n
  s.setCan n { x with flags := x.flags &&& (2 ^ 32 - 1 - v.toNat), txeLost := if bit v 4 then 0 else x.txeLost }

/-- FLAGS_CLEAR (R379). -/
def execFlagsClear (e : Stim) (who can : Nat) (value : Word) (s : State) : Host.Outcome State Fault Refusal :=
  canEvent e s who can (flagsClear can value)

/-- Buffer whose header or data area holds a message RAM offset. -/
def CanCtl.bufAt (x : CanCtl) (off : Nat) : Option Nat :=
  if off < 0x0C00 then some (off / 24)
  else (List.range 128).find? (fun b => match x.groupOf b with
    | some (g, _) => decide (x.dataOff b ≤ off) && decide (off < x.dataOff b + x.dcap g)
    | none => false)

/-- A 32-bit write to message RAM (R375, R376, R380, R391). -/
def ramWrite (n off : Nat) (v : Word) (s : State) : State :=
  let x := s.canc n
  let b := x.bufAt off
  let g := b.bind x.groupOf
  let bytes := if off < 0x0C00 ∧ off % 24 = 20 then (bytesOf 4 v.toNat).take 2 else bytesOf 4 v.toNat
  match g with
  | some (3, p) =>
    if s.reserved n p then s
    else if x.pend.testBit p then setFlag n 6 s
    else s.writeMem (winBase n + off) bytes
  | some _ => s.writeMem (winBase n + off) bytes
  | none => if off < 0x0C00 then s else s.writeMem (winBase n + off) bytes

/-- MESSAGE_RAM_WRITE (R375, R376): a write at an address that is not aligned is ignored and recorded (R378). -/
def execMessageRamWrite (e : Stim) (who can off : Nat) (value : Word) (s : State) : Host.Outcome State Fault Refusal :=
  event e s (fun s => decide (can < 12) && s.running 5 && decide (off < 0xC000)) (fun s =>
    if off % 4 ≠ 0 then logFirst 2 0x30 (s.canc can).owner (winBase can + off) s
    else canWin who can (ramWrite can off value) s)

/-- Reads and removes the oldest transmit event (R378). -/
def txeRead (n : Nat) (s : State) : State :=
  let x := s.canc n
  let s1 := s.setCan n { x with txe := x.txe.tail }
  { s1 with rdata := [0xC040, 0xC044, 0xC048].map (s.canRead n) }

/-- TXE_HEAD_READ (R378). -/
def execTxeHeadRead (e : Stim) (who can : Nat) (s : State) : Host.Outcome State Fault Refusal :=
  canEvent e s who can (txeRead can)

/-- A buffer holds an unread frame and may be locked (R385). -/
def CanCtl.unread (x : CanCtl) (b : Nat) : Bool :=
  x.rxfHead == some b || (match x.groupOf b with
    | some (1, r) => x.rxNew.contains r
    | _ => false)

/-- A read of word 0 of a buffer's header (R385). -/
def word0Read (n b : Nat) (s : State) : State :=
  let s1 := lockExpire n s
  let x := s1.canc n
  let s2 := if x.unread b then s1.setCan n { x with lock := some (b, s1.clk) } else s1
  { s2 with rdata := [s2.canRead n (24 * b)] }

/-- HEADER_WORD0_READ (R385). -/
def execHeaderWord0Read (e : Stim) (who can buf : Nat) (s : State) : Host.Outcome State Fault Refusal :=
  event e s (fun s => decide (can < 12) && s.running 5 && decide (buf < 128)) (canWin who can (word0Read can buf))

/-- Consumes an unread buffer and releases the lock (R385). -/
def consume (n b : Nat) (s : State) : State :=
  let x := s.canc n
  match x.groupOf b with
  | some (0, _) => s.setCan n { x with rxHead := (x.rxHead + 1) % x.count 0, rxFill := x.rxFill - 1, lock := none }
  | some (1, r) => s.setCan n { x with rxNew := x.rxNew.filter (· != r), lock := none }
  | _ => s

/-- Window offset of a buffer's last word (R385). -/
def State.lastWord (s : State) (n b : Nat) : Nat :=
  let h := s.canHdr n b
  if hLen h = 0 then 24 * b + 20 else (s.canc n).dataOff b + 4 * ((hLen h + 3) / 4) - 4

/-- A read of a buffer's last word (R385). -/
def lastRead (n b : Nat) (s : State) : State :=
  let s1 := lockExpire n s
  let w := s1.canRead n (s1.lastWord n b)
  let s2 := if (s1.canc n).lock.any (fun l => l.1 == b) then consume n b s1 else s1
  { s2 with rdata := [w] }

/-- LAST_WORD_READ (R385). -/
def execLastWordRead (e : Stim) (who can buf : Nat) (s : State) : Host.Outcome State Fault Refusal :=
  event e s (fun s => decide (can < 12) && s.running 5 && ((s.canc can).groupOf buf).isSome)
    (canWin who can (lastRead can buf))

/-- LOCK_EXPIRY (R386). -/
def execLockExpiry (e : Stim) (can : Nat) (s : State) : Host.Outcome State Fault Refusal :=
  event e s (fun _ => decide (can < 12)) (lockExpire can)

/-! ### Reception (R377, R384) -/

/-- A filter element matches a frame. -/
def filterMatches (w : List Word) (f : CanFrame) : Bool :=
  let w0 := par w 0
  let id1 := fld w0 28 0
  let id2 := fld (par w 1) 28 0
  let ty := fld w0 31 30
  let byId := if ty = 1 then decide (id1 ≤ f.id) && decide (f.id ≤ id2)
    else if ty = 2 then (f.id &&& id2) == (id1 &&& id2)
    else ty == 3 && (f.id == id1 || f.id == id2)
  byId && bit w0 29 == f.ext && bit (par w 2) (8 + f.fmt) &&
    (f.fmt != 2 || !bit (par w 2) 24 || fld (par w 2) 23 16 == f.vcid)

/-- Where a received frame goes. -/
inductive RxDest where
  | discard
  | fifo (filter : Nat) (nm : Bool)
  | buffer (filter r : Nat)
  deriving DecidableEq, Repr

/-- The first match decides; without one, NOMATCH (R377). -/
def CanCtl.dest (x : CanCtl) (f : CanFrame) : RxDest :=
  match (List.range 128).find? (fun i => filterMatches (look [] x.filt i) f) with
  | none => if bit (par x.conf 0) 14 then .fifo 0 true else .discard
  | some i =>
    let w := look [] x.filt i
    let a := fld (par w 1) 31 29
    if a = 1 then .fifo i false
    else if a = 2 then .buffer i (fld (par w 2) 6 0)
    else .discard

/-- Posts BUS_RXF under RXNOTE and delivers the identity when a buffer or FIFO stops being empty. -/
def rxFilled (n b : Nat) (s : State) : State :=
  let s1 := canIrq n s
  if bit (par (s.canc n).conf 0) 15 then canNotice n 0x3004 [wd (b * 2 ^ 16 + n)] s1 else s1

/-- A frame is lost: its flag, and the count of R399. -/
def rxLost (n i : Nat) (s : State) : State :=
  let x := s.canc n
  s.setCan n { x with flags := x.flags ||| 2 ^ i, lostRx := satInc 0xFFFF x.lostRx }

/-- Stores a frame that the filters accept (R384). -/
def rxAccept (n stamp : Nat) (f : CanFrame) (s : State) : State :=
  let x := s.canc n
  match x.dest f with
  | .discard => s
  | .fifo i nm =>
    if x.count 0 ≤ x.rxFill then rxLost n 3 s
    else
      let b := x.bufNo 0 ((x.rxHead + x.rxFill) % x.count 0)
      let s1 := storeRx n b f nm i stamp (s.setCan n { x with rxFill := x.rxFill + 1 })
      if x.rxFill = 0 then rxFilled n 0x7F s1 else s1
  | .buffer i r =>
    if x.count 1 ≤ r then s
    else
      let b := x.bufNo 1 r
      if x.rxNew.contains r then
        if x.lock.any (fun l => l.1 == b) then rxLost n 2 s
        else storeRx n b f false i stamp (rxLost n 2 s)
      else rxFilled n b (storeRx n b f false i stamp (s.setCan n { x with rxNew := x.rxNew ++ [r] }))

/-- ESTATE that counters give while the controller is not bus-off (ISO 11898-1). -/
def stateFor (tec recv : Nat) : Nat := if 128 ≤ tec ∨ 128 ≤ recv then 1 else 0

/-- Sets the counters and ESTATE, posting BUS_STATE at a change (R387). -/
def setErr (n tec recv estate : Nat) (s : State) : State :=
  let x := s.canc n
  let s1 := s.setCan n { x with tec := tec, recv := min 128 recv, estate := estate }
  if x.estate = estate then s1 else canNotice n 0x3001 [wd n, s1.errStat n] s1

/-- REC after a frame received without error (ISO 11898-1): one less, and from the passive range a value of 119 to 127
that the standard leaves to the controller. -/
def recAfter (n : Nat) (s : State) : State :=
  let x := s.canc n
  if x.mode = 1 ∨ x.recv = 0 ∨ x.estate = 2 then s
  else if x.recv < 128 then setErr n x.tec (x.recv - 1) (stateFor x.tec (x.recv - 1)) s
  else
    let r := s.drawNat
    let v := 119 + r.1 % 9
    setErr n x.tec v (stateFor x.tec v) r.2

/-- A frame ends without error on the bus: the consecutive acknowledge errors and the pause end (R390). -/
def aloneEnds (n : Nat) (s : State) : State :=
  let x := s.canc n
  s.setCan n { x with ackErrs := 0, lonePause := none }

/-- A frame that is routed nowhere is counted in MISS at its source: a controller, a LIN channel; for a listener context
in DROPS (13 R401, R404). -/
def countMiss (kind idx : Nat) (s : State) : State :=
  if kind = 0 then s.setCan idx { s.canc idx with miss := satInc 0xFFFF (s.canc idx).miss }
  else if kind = 1 then
    let x := look {} s.bus.lin idx
    { s with bus := { s.bus with lin := put s.bus.lin idx { x with miss := satInc 0xFFFF x.miss } } }
  else if kind = 2 then s.setAcf idx { s.acf idx with drops := satInc 0xFFFF (s.acf idx).drops }
  else s

/-- The routing engine runs (13 R401). -/
def State.engineOn (s : State) : Bool := s.running 5 && s.running 3

/-- A frame reaches the engine; while the engine does not run, the frame is discarded and counted at its source
(13 R401, R402). -/
def toEngine (kind idx stamp : Nat) (f : CanFrame) (s : State) (lin : Bool := kind == 1) : State :=
  if s.engineOn then
    let it : GwItem := { kind := kind, idx := idx, at_ := s.clk, stamp := stamp, frame := f, lin := lin }
    { s with gwy := { s.gwy with items := s.gwy.items ++ [it] } }
  else countMiss kind idx s

/-- A full time as TNS. -/
def tns (t : Nat) : Nat := t % 2 ^ 48

/-- A frame received without error at the end of its EOF, with the full time of its start of frame. -/
def canReceive (n stamp : Nat) (g : CanFrame) (s : State) : State :=
  let f := rxFormed g
  let x := s.canc n
  let s1 := s.setCan n { x with rxCount := (x.rxCount + 1) % 2 ^ 32 }
  toEngine 0 n stamp f (rxAccept n (tns stamp) f (recAfter n (aloneEnds n (lockExpire n s1))))

/-- A frame's fields lie in what its format can carry. -/
def frameOk (f : CanFrame) : Bool :=
  lenOk f.fmt f.dlc && decide (f.id < if f.ext then 2 ^ 29 else 2 ^ 11) && !(f.fmt == 2 && f.ext) &&
  !(f.rtr && f.fmt != 0) && f.data.length == (if f.rtr then 0 else f.dlc)

/-! ### BUS commands of the CAN kind (R366, R367, R397) -/

def busId (ps : List Word) : Nat := fld (par ps 0) 7 0
def busIx (ps : List Word) : Nat := fld (par ps 0) 3 0

/-- The BUSID names a CAN controller; a LIN channel. -/
def isCan (ps : List Word) : Bool := decide (busId ps < 12)
def isLin (ps : List Word) : Bool := decide (16 ≤ busId ps) && decide (busId ps < 24)

def State.lin (s : State) (n : Nat) : LinCh := look {} s.bus.lin n
def State.setLin (s : State) (n : Nat) (x : LinCh) : State := { s with bus := { s.bus with lin := put s.bus.lin n x } }

/-- Owner and readers of the controller that BUSID names. -/
def State.busOwner (s : State) (ps : List Word) : Nat :=
  if isCan ps then (s.canc (busIx ps)).owner else (s.lin (busIx ps)).owner
def State.busReaders (s : State) (ps : List Word) : Word :=
  if isCan ps then (s.canc (busIx ps)).readers else (s.lin (busIx ps)).readers

/-- The issuer owns the controller; a BUSID that names none passes on to its own check. -/
def ownsBus (t : Nat) (ps : List Word) (s : State) : Bool := !(isCan ps || isLin ps) || s.busOwner ps == t

/-- The issuer owns it, reads it or is T0. -/
def readsBus (t : Nat) (ps : List Word) (s : State) : Bool :=
  t == 0 || ownsBus t ps s || bit (s.busReaders ps) t

/-- The function that BUSID names. -/
def busFn (ps : List Word) : Func := if isCan ps then .can (busIx ps) else .lin (busIx ps)

def busAssignSpec : OpSpec :=
  { opcode := 0x3001, plen := (· == 2), right := onlyT0
    parm := fun _ ps s => need (within (par ps 0) 0x1FFF && (isCan ps || isLin ps) &&
      tenantsOk (fld (par ps 0) 12 8) (par ps 1) s)
    exec := fun c s =>
      let ps := c.params
      if (s.gate (busFn ps)).st != .clockGated then .fail .busy s
      else if isCan ps then
        .okay (s.setCan (busIx ps) { s.canc (busIx ps) with owner := fld (par ps 0) 12 8, readers := par ps 1 })
      else .okay (s.setLin (busIx ps) { s.lin (busIx ps) with owner := fld (par ps 0) 12 8, readers := par ps 1 }) }

/-- The block of a controller failed the audit in force (19 R584). -/
def State.busFail (s : State) (ps : List Word) : Bool :=
  if isCan ps then decide (busIx ps < 8) && s.blkFail (53 + busIx ps) else s.blkFail (61 + busIx ps)

/-- BUS_CTL's action: an enable fixes the mode of a gated controller (R368); its start makes the counters of R399
begin at 0. -/
def busEnable (c : Cmd) (s : State) : Ans :=
  let ps := c.params
  let n := busIx ps
  let m := fld (par ps 0) 13 12
  let x := s.canc n
  if isCan ps && (s.gate (.can n)).st != .clockGated && x.mode != m then .fail .busy s
  else
    let s1 := if isCan ps then s.setCan n { x with mode := m } else s
    gateEnable (busFn ps) c.id s1

def busCtlSpec : OpSpec :=
  { opcode := 0x3002, plen := (· == 1), right := ownsBus, isl := some 5
    parm := fun _ ps _ => need (within (par ps 0) 0x33FF && (isCan ps || isLin ps) && decide (fld (par ps 0) 9 8 ≤ 1) &&
      decide (fld (par ps 0) 13 12 ≤ 2) && (isCan ps || fld (par ps 0) 13 12 == 0))
    exec := fun c s =>
      let ps := c.params
      if isCan ps && s.ringed (busIx ps) then .fail .busy s
      else if fld (par ps 0) 9 8 = 0 then (if s.busFail ps then .fail .busy s else busEnable c s)
      else gateDisable (busFn ps) false c.id id s }

/-- The parts of a configuration that lay out the message RAM. -/
def layout (w : List Word) : List Nat := groupCounts w ++ (List.range 4).map (dcapOf w)

/-- Empties everything that the message RAM holds. -/
def CanCtl.emptied (x : CanCtl) : CanCtl :=
  { x with rxHead := 0, rxFill := 0, rxNew := [], txHead := 0, txFill := 0, pend := 0, cancel := 0, tries := [],
           lock := none }

def busCanConfigSpec : OpSpec :=
  { opcode := 0x3003, plen := (· == 8), right := ownsBus, isl := some 5
    parm := fun _ ps _ => need (isCan ps && canConfOk (busIx ps) ps)
    exec := fun c s =>
      let n := busIx c.params
      let x := s.canc n
      let w := (par c.params 0 &&& 0xFF00) :: c.params.tail
      if s.canState n != .clockGated || (bit (par w 0) 8 && (s.refOn n || s.ringed n)) then .fail .busy s
      else
        let x1 := if layout w = layout x.conf then x else x.emptied
        .okay (s.setCan n { x1 with conf := w }) }

/-- A filter element's fields (R377). -/
def filterOk (rxbn : Nat) (w : List Word) : Bool :=
  let a := fld (par w 1) 31 29
  decide (a ≤ 2) && within (par w 2) 0x01FF077F &&
  (if a = 2 then decide (fld (par w 2) 6 0 < rxbn) else fld (par w 2) 6 0 == 0)

/-- Cuts parameters into elements of k words. -/
def elems (k : Nat) : Nat → List Word → List (List Word)
  | 0, _ => []
  | n + 1, ws => ws.take k :: elems k n (ws.drop k)

def busCanFilterSpec : OpSpec :=
  { opcode := 0x3004, plen := fun n => decide (4 ≤ n) && decide (n ≤ 97) && n % 3 == 1
    plenP := fun ps => ps.length == 1 + 3 * fld (par ps 0) 22 16
    right := ownsBus, isl := some 5
    parm := fun _ ps s =>
      let n := fld (par ps 0) 22 16
      need (within (par ps 0) 0x7F7FFF && isCan ps && decide (1 ≤ n) && decide (n ≤ 32) &&
        decide (fld (par ps 0) 14 8 + n ≤ 128) && (elems 3 n ps.tail).all (filterOk ((s.canc (busIx ps)).count 1)))
    exec := fun c s =>
      let ps := c.params
      let x := s.canc (busIx ps)
      let es := elems 3 (fld (par ps 0) 22 16) ps.tail
      let ft := (es.zipIdx (fld (par ps 0) 14 8)).foldl (fun t p => put t p.2 p.1) x.filt
      .okay (s.setCan (busIx ps) { x with filt := ft }) }

/-- The words of BUS_CAN_STATUS (R399). -/
def State.canStatus (s : State) (n : Nat) : List Word :=
  let x := s.canc n
  [s.errStat n, wd x.flags, wd (x.busOffs + x.lostRx * 2 ^ 16),
   wd (min 255 x.ackErrs + x.tdcv * 2 ^ 8 + x.lockExp * 2 ^ 16), wd x.rxCount, wd x.txCount]

def busCanStatusSpec : OpSpec :=
  { opcode := 0x3005, plen := (· == 1), right := readsBus, isl := some 5
    parm := fun _ ps _ => need (within (par ps 0) 0xFF && isCan ps)
    exec := fun c s0 =>
      let n := busIx c.params
      let s := lockExpire n s0
      .done .ok (s.canStatus n) s }

/-- Writes a transmit buffer from the words of BUS_CAN_TX: its header but for DATAOFF, and as much data as the area
holds. -/
def txFill (n b g : Nat) (ps : List Word) (s : State) : State :=
  let h := wordBytes ((ps.drop 1).take 6)
  let d := ((wordBytes (ps.drop 7)).take (hLen h)).take ((s.canc n).dcap g)
  (s.writeMem (winBase n + 24 * b) (h.take 22)).writeMem (winBase n + (s.canc n).dataOff b) d

def busCanTxSpec : OpSpec :=
  { opcode := 0x3006, plen := fun n => decide (7 ≤ n)
    plenP := fun ps => ps.length == 7 + (fld (par ps 2) 31 16 + 3) / 4
    right := ownsBus, isl := some 5
    parm := fun _ ps s =>
      let tg := fld (par ps 0) 14 8
      need (within (par ps 0) 0x7FFF && isCan ps && (decide (tg < 32) || tg == 0x7F) && within (par ps 1) 0x1FFFFFFF &&
        fld (par ps 2) 15 8 == 0 && par ps 5 == 0 && fld (par ps 6) 15 0 == 0 &&
        (tg == 0x7F || !(s.canc (busIx ps)).legacy))
    exec := fun c s =>
      let ps := c.params
      let n := busIx ps
      let x := s.canc n
      let tg := fld (par ps 0) 14 8
      if x.mode = 1 then .fail .busy s
      else if tg = 0x7F then
        if x.count 2 ≤ x.txFill then .fail .busy s
        else .done .ok [wd x.putNo] (fifoPut n (txFill n x.putNo 2 ps s))
      else if s.reserved n tg || x.pend.testBit tg then .fail .busy s
      else .done .ok [wd (x.bufNo 3 tg)] (priRequest n tg (txFill n (x.bufNo 3 tg) 3 ps s)) }

/-- The words of an element as BUS_CAN_RX returns them. -/
def State.canElem (s : State) (n b : Nat) : List Word :=
  let h := s.canHdr n b
  let k := (hLen h + 3) / 4
  wordsOf 6 h ++ wordsOf k (s.readMem (winBase n + (s.canc n).dataOff b) (4 * k))

def busCanRxSpec : OpSpec :=
  { opcode := 0x3007, plen := (· == 1), p1 := false, right := ownsBus, isl := some 5
    parm := fun _ ps s =>
      let src := fld (par ps 0) 14 8
      need (within (par ps 0) 0x7FFF && isCan ps && (src == 0x7F || decide (src < (s.canc (busIx ps)).count 1)))
    exec := fun c s0 =>
      let ps := c.params
      let n := busIx ps
      let s := lockExpire n s0
      let x := s.canc n
      let src := fld (par ps 0) 14 8
      let b := if src = 0x7F then x.rxfHead else if x.rxNew.contains src then some (x.bufNo 1 src) else none
      match b with
      | none => .okay s
      | some b =>
        if x.lock.any (fun l => l.1 == b) then .fail .busy s
        else
          let keep := x.lock
          let s1 := consume n b s
          .done .ok (s.canElem n b) (s1.setCan n { s1.canc n with lock := keep }) }

def busCanTxeSpec : OpSpec :=
  { opcode := 0x3008, plen := (· == 1), right := ownsBus, isl := some 5
    parm := fun _ ps _ => need (within (par ps 0) 0x1FF && isCan ps)
    exec := fun c s =>
      let ps := c.params
      let n := busIx ps
      let x := s.canc n
      let w0 := wd (x.txe.length + b2n (x.flags.testBit 4) * 2 ^ 8 + x.txeLost * 2 ^ 16)
      let ws := x.txe.flatMap (fun t => [t.w0, t.w1, t.w2])
      let x1 := { x with txe := [] }
      let x2 := if bit (par ps 0) 8 then { x1 with flags := x1.flags &&& (2 ^ 32 - 1 - 16), txeLost := 0 } else x1
      .done .ok (w0 :: (ws ++ List.replicate (48 - ws.length) 0)) (s.setCan n x2) }

end Sys2Proof.Machine
end

