-- ==== Sys2Proof/Machine/Lin.lean ====
section
/-!
DEFINITION. The LIN channels (12 R392 to R397): frame and schedule tables, slots, responses, sleep and wake. Log
entry 28.
-/

namespace Sys2Proof.Machine

/-! ### Configuration -/

def LinCh.commander (x : LinCh) : Bool := bit (par x.conf 0) 8
def LinCh.bitrate (x : LinCh) : Nat := fld (par x.conf 1) 15 0
def LinCh.frame (x : LinCh) (id : Nat) : Word := look 0 x.frames id
def LinCh.slots (x : LinCh) (t : Nat) : List Word := look [] x.sched t

def frDir (w : Word) : Nat := fld w 1 0
def frLen (w : Word) : Nat := fld w 7 4
def slotDelay (w : Word) : Nat := fld w 31 16
def slotKind (w : Word) : Nat := fld w 9 8
def slotId (w : Word) : Nat := fld w 5 0
def slotCrt (w : Word) : Nat := fld w 15 12

/-- Time of a number of bits, in ns. -/
def LinCh.bits (x : LinCh) (k : Nat) : Nat := k * 1000000000 / x.bitrate

/-- A commander's header: its break, a delimiter of one bit (DEDUCED, log 28), sync and identifier of ten bits each. -/
def LinCh.headTime (x : LinCh) : Nat := x.bits (fld (par x.conf 1) 20 16 + 21)

def parId (ps : List Word) : Nat := fld (par ps 0) 13 8

/-- The go-to-sleep frame of ISO 17987-3. -/
def sleepFrame : List Byte := 0x00 :: List.replicate 7 0xFF

/-- The go-to-sleep frame goes on the bus at once (R396). -/
def sleepNow (n : Nat) (s : State) : State :=
  let x := s.lin n
  s.setLin n { x with header := some (60, s.tim.full, false), hdrEnd := s.clk + x.headTime, sleepAsk := false, sleepTx := true, lastAct := s.clk }

/-- The channel may start a frame: it is in RUN, not shutting down (R368). -/
def State.linStarts (s : State) (n : Nat) : Bool := s.running 5 && (s.gate (.lin n)).st == .run

/-- The channel takes part in the bus, a frame in progress running to its end (R368). -/
def State.linUp (s : State) (n : Nat) : Bool :=
  s.alive 5 && ((s.gate (.lin n)).st == .run || (s.gate (.lin n)).st == .quiescing)

/-- A selection takes effect at once. -/
def select (n t : Nat) (s : State) : State :=
  let x := s.lin n
  let s1 := s.setLin n { x with table := t, next := none, slot := 0, nextSlot := 0, slotEnd := none, resume := none }
  if t = 15 ∧ x.sleepAsk ∧ s.linStarts n ∧ x.header.isNone then sleepNow n s1 else s1

/-- The slot in progress is over when its DELAY has passed; a selection that waited for its end takes effect. -/
def linSettle (n : Nat) (s : State) : State :=
  let x := s.lin n
  match x.slotEnd with
  | none => s
  | some z =>
    if s.clk < z then s
    else match x.next with
    | some t => select n t s
    | none => s.setLin n { x with slotEnd := none }

def busLinConfigSpec : OpSpec :=
  { opcode := 0x3010, plen := (· == 2), right := ownsBus, isl := some 5
    parm := fun _ ps _ =>
      let r := fld (par ps 1) 15 0
      let b := fld (par ps 1) 20 16
      need (within (par ps 0) 0x7FF && isLin ps && within (par ps 1) 0x1FFFFF && decide (2400 ≤ r) && decide (r ≤ 20000) &&
        (if bit (par ps 0) 8 then decide (13 ≤ b) && decide (b ≤ 20) else b == 0))
    exec := fun c s =>
      let n := busIx c.params
      if (s.gate (.lin n)).st != .clockGated then .fail .busy s
      else .okay (s.setLin n { s.lin n with conf := [par c.params 0 &&& 0x700, par c.params 1] }) }

/-- BUS_LIN_CONFIG (R397). -/
def execBusLinConfig (e : Stim) (r : Req) (s : State) : Host.Outcome State Fault Refusal :=
  .next (submit busLinConfigSpec r (s.advance e))

/-- An entry of the frame table (R392). -/
def linFrameOk (id : Nat) (w : Word) : Bool :=
  within w 0x3F3 && decide (1 ≤ frLen w) && decide (frLen w ≤ 8) && decide (frDir w ≤ 2) &&
  (if id = 60 ∨ id = 61 then frLen w == 8 && !bit w 8 else true) && (if 62 ≤ id then frDir w == 0 else true)

def busLinFramesSpec : OpSpec :=
  { opcode := 0x3011, plen := fun n => decide (2 ≤ n) && decide (n ≤ 65)
    plenP := fun ps => ps.length == 1 + fld (par ps 0) 22 16
    right := ownsBus, isl := some 5
    parm := fun _ ps _ =>
      let n := fld (par ps 0) 22 16
      need (within (par ps 0) 0x7F3FFF && isLin ps && decide (1 ≤ n) && decide (parId ps + n ≤ 64) &&
        (ps.tail.zipIdx (parId ps)).all (fun p => linFrameOk p.2 p.1))
    exec := fun c s =>
      let ps := c.params
      let x := (linSettle (busIx ps) s).lin (busIx ps)
      if x.table != 15 then .fail .busy s
      else
        .okay (s.setLin (busIx ps)
          { x with frames := (ps.tail.zipIdx (parId ps)).foldl (fun t p => put t p.2 p.1) x.frames }) }

/-- BUS_LIN_FRAMES (R392). -/
def execBusLinFrames (e : Stim) (r : Req) (s : State) : Host.Outcome State Fault Refusal :=
  .next (submit busLinFramesSpec r (s.advance e))

/-- A slot of a schedule table: its fields, and a DELAY no shorter than 1.4 × (34 + 10 × (LEN + 1)) bit times (R393). -/
def slotOk (x : LinCh) (w : Word) : Bool :=
  within w 0xFFFFF33F && decide (1 ≤ slotDelay w) && (slotKind w == 1 || slotCrt w == 0) &&
  (slotKind w != 3 || slotId w == 60 || slotId w == 61) &&
  decide (14000 * (44 + 10 * frLen (x.frame (slotId w))) ≤ slotDelay w * x.bitrate)

/-- Slots that the sixteen tables hold, without one of them. -/
def LinCh.others (x : LinCh) (t : Nat) : Nat := (((List.range 16).filter (· != t)).map (fun i => (x.slots i).length)).sum

def busLinScheduleSpec : OpSpec :=
  { opcode := 0x3012, plen := fun n => decide (1 ≤ n) && decide (n ≤ 65)
    plenP := fun ps => ps.length == 1 + fld (par ps 0) 23 16
    right := ownsBus, isl := some 5
    parm := fun _ ps s =>
      let n := fld (par ps 0) 23 16
      let x := s.lin (busIx ps)
      need (within (par ps 0) 0xFF0FFF && isLin ps && decide (n ≤ 64) && ps.tail.all (slotOk x) &&
        decide (x.others (fld (par ps 0) 11 8) + n ≤ 256))
    exec := fun c s =>
      let ps := c.params
      let x := (linSettle (busIx ps) s).lin (busIx ps)
      let t := fld (par ps 0) 11 8
      if (x.table == t && t != 15) || x.resume.any (·.1 == t) then .fail .busy s
      else .okay (s.setLin (busIx ps) { x with sched := put x.sched t ps.tail }) }

/-- BUS_LIN_SCHEDULE (R393). -/
def execBusLinSchedule (e : Stim) (r : Req) (s : State) : Host.Outcome State Fault Refusal :=
  .next (submit busLinScheduleSpec r (s.advance e))

/-! ### Slots (R393, R394) -/

def busLinRunSpec : OpSpec :=
  { opcode := 0x3013, plen := (· == 1), right := ownsBus, isl := some 5
    parm := fun _ ps _ => need (within (par ps 0) 0xFFF && isLin ps)
    exec := fun c s0 =>
      let n := busIx c.params
      let t := fld (par c.params 0) 11 8
      let s := linSettle n s0
      let x := s.lin n
      if x.slotEnd.isSome then .okay (s.setLin n { x with next := some t, resume := none })
      else .okay (select n t s) }

/-- BUS_LIN_RUN (R394). -/
def execBusLinRun (e : Stim) (r : Req) (s : State) : Host.Outcome State Fault Refusal :=
  .next (submit busLinRunSpec r (s.advance e))

/-- Table and slot that start next, with what remains to resume: after the last slot of a collision-resolving table the
interrupted table, else slot 0 again. -/
def LinCh.upcoming (x : LinCh) : Nat × Nat × Option (Nat × Nat) :=
  if x.nextSlot < (x.slots x.table).length then (x.table, x.nextSlot, x.resume)
  else match x.resume with
  | some (t, k) => (t, if k < (x.slots t).length then k else 0, none)
  | none => (x.table, 0, none)

/-- Starts the next slot (R393, R394). -/
def slotStart (n : Nat) (s : State) : State :=
  let x := s.lin n
  let u := x.upcoming
  match (x.slots u.1)[u.2.1]? with
  | none => s
  | some w =>
    let id := slotId w
    let k := slotKind w
    let sleep := k == 3 && id == 60 && x.sleepAsk
    let send := k == 0 || k == 1 || (k == 2 && x.updated.contains id) ||
      (k == 3 && (id == 61 || sleep || x.updated.contains 60))
    s.setLin n { x with table := u.1, slot := u.2.1, nextSlot := u.2.1 + 1, resume := u.2.2,
                        slotEnd := some (s.clk + slotDelay w * 100000),
                        header := if send then some (id, s.tim.full, k == 1) else none, hdrEnd := s.clk + x.headTime
                        sleepTx := sleep, sleepAsk := x.sleepAsk && !sleep,
                        lastAct := if send then s.clk else x.lastAct }

/-- LIN_SLOT_START (R393): the slot in progress is over. -/
def execLinSlotStart (e : Stim) (lin : Nat) (s : State) : Host.Outcome State Fault Refusal :=
  event e s (fun _ => decide (lin < 8)) (fun s0 =>
    let s := linSettle lin s0
    let x := s.lin lin
    if s.linStarts lin && x.commander && x.table != 15 && x.slotEnd.isNone && !x.sleep then
      slotStart lin s
    else s)

/-! ### Responses (R395, R396) -/

def linWatchers (x : LinCh) : List Nat := x.owner :: setBits 32 x.readers.toNat

def linNotice (n ncode : Nat) (det : List Word) (s : State) : State := noticeAll (linWatchers (s.lin n)) ncode det s

/-- An error of the channel: counted and posted (R395, R397). -/
def linErr (n id status : Nat) (s : State) : State :=
  let x := s.lin n
  linNotice n 0x3011 [wd (16 + n + id * 2 ^ 8 + status * 2 ^ 16)]
    (s.setLin n { x with errs := satInc 0xFFFFFFFF x.errs })

/-- A response reaches the routing engine (13 R402). -/
def linRoute (n id stamp : Nat) (d : List Byte) (s : State) : State :=
  toEngine 1 n stamp { id := id, dlc := d.length, data := d } s

/-- The channel enters sleep: its schedule stops (R396). -/
def linSleep (n : Nat) (s : State) : State :=
  let x := s.lin n
  s.setLin n { x with sleep := true, sleepTx := false, sleepAsk := false, table := 15, next := none, slot := 0,
                      nextSlot := 0, slotEnd := none, resume := none, header := none }

/-- The response that this module publishes for an identifier. -/
def LinCh.response (x : LinCh) (id : Nat) : List Byte :=
  if x.sleepTx then sleepFrame else fit (frLen (x.frame id)) (look [] x.data id)

/-- This module publishes the response to an identifier: by its frame entry, or as the commander's request data. -/
def LinCh.publishes (x : LinCh) (id : Nat) : Bool :=
  x.sleepTx || frDir (x.frame id) == 1 || (id == 60 && x.commander)

/-- A go-to-sleep frame that waits for a stopped schedule's last frame goes on the bus (R396). -/
def sleepDue (n : Nat) (s : State) : State :=
  let x := s.lin n
  if x.table = 15 ∧ x.slotEnd = none ∧ x.sleepAsk ∧ x.header.isNone ∧ s.linStarts n then sleepNow n s else s

/-- A response to the header on the bus ends with a status (R395). -/
def responseDone (n status : Nat) (data : List Byte) (s : State) : State :=
  let x := s.lin n
  match x.header with
  | none => s
  | some (id, stamp, event) =>
    let s1 := s.setLin n { x with header := none, lastAct := s.clk }
    let x1 := s1.lin n
    if x.publishes id then
      let d := if id = 60 ∧ !x.sleepTx then fit 8 (look [] x.data 60) else x.response id
      let s2 := s1.setLin n { x1 with out := some (id, d) }
      if status = 0 then
        if x.sleepTx then linSleep n (linRoute n id stamp d s2)
        else linRoute n id stamp d (s2.setLin n { s2.lin n with updated := x1.updated.filter (· != id) })
      else linErr n id status (s2.setLin n { s2.lin n with sleepTx := false, sleepAsk := x1.sleepAsk || x.sleepTx })
    else
      let s2 :=
        if frDir (x.frame id) = 2 then
          let r : LinRx := { status := status, len := data.length, new := true, data := data, stamp := stamp }
          let s3 := s1.setLin n { x1 with rx := put x1.rx id r }
          if status = 0 then
            let s4 := if bit (x.frame id) 9 then
                linNotice n 0x3010 (wd (16 + n + id * 2 ^ 8 + data.length * 2 ^ 16) :: wordsOf 2 data ++ timeWords stamp) s3
              else s3
            linRoute n id stamp data s4
          else if status = 1 ∧ event then s3
          else linErr n id status s3
        else s1
      let s5 :=
        if event ∧ (status = 2 ∨ status = 3) ∧ (s2.lin n).resume = none ∧ (s2.lin n).table ≠ 15 then
          let y := s2.lin n
          s2.setLin n { y with resume := some (y.table, y.nextSlot), nextSlot := 0,
                               table := slotCrt ((y.slots y.table).getD y.slot 0) }
        else s2
      if status = 0 ∧ id = 60 ∧ !x.commander ∧ data = sleepFrame then linSleep n s5 else s5

def responseEnd (n status : Nat) (data : List Byte) (s : State) : State := sleepDue n (responseDone n status data s)

/-- The timeout of the response to an identifier, 1.4 × 10 × (LEN + 1) bit times from the end of its header, has passed
(R395). -/
def State.linLate (s : State) (n id : Nat) : Bool :=
  let x := s.lin n
  decide (x.hdrEnd + x.bits (14 * (frLen (x.frame id) + 1)) ≤ s.clk)

/-- LIN_RESPONSE_END (R395): status 0 to 4, with the data bytes seen. A subscribed response that ends with status 0 has
its LEN; no response is found at the timeout, and every other end lies before it. -/
def execLinResponseEnd (e : Stim) (lin status : Nat) (data : List Byte) (s : State) :
    Host.Outcome State Fault Refusal :=
  event e s (fun s => decide (lin < 8) && s.linUp lin && decide (status ≤ 4) && decide (data.length ≤ 8) &&
    (match (s.lin lin).header with
     | some (id, _, _) => (status == 1) == s.linLate lin id &&
         (status != 0 || (s.lin lin).publishes id || data.length == frLen ((s.lin lin).frame id))
     | none => false)) (responseEnd lin status data)

/-- A header that a responder synchronises to, `ago` ns after its break's falling edge; or one that it finds faulty
(R395). -/
def headerIn (n id : Nat) (ok : Bool) (ago : Nat) (s : State) : State :=
  let x := s.lin n
  let s1 := s.setLin n { x with lastAct := s.clk, hdrEnd := s.clk, header := if ok then some (id, s.tim.full - ago, false) else none }
  if ok then s1 else linErr n id 5 s1

/-- LIN_HEADER_RECEIVED (R395). -/
def execLinHeaderReceived (e : Stim) (lin id : Nat) (ok : Bool) (ago : Nat) (s : State) :
    Host.Outcome State Fault Refusal :=
  event e s (fun s => decide (lin < 8) && decide (id < 64) && s.linUp lin && !(s.lin lin).commander && !(s.lin lin).sleep)
    (headerIn lin id ok ago)

def busLinDataSpec : OpSpec :=
  { opcode := 0x3014, plen := (· == 3), right := ownsBus, isl := some 5
    parm := fun _ ps s => need (within (par ps 0) 0x3FFF && isLin ps &&
      (parId ps == 60 || frDir ((s.lin (busIx ps)).frame (parId ps)) == 1))
    exec := fun c s =>
      let ps := c.params
      let x := s.lin (busIx ps)
      let id := parId ps
      .okay (s.setLin (busIx ps) { x with data := put x.data id (wordBytes [par ps 1, par ps 2])
                                          updated := if x.updated.contains id then x.updated else x.updated ++ [id] }) }

/-- BUS_LIN_DATA (R394, R397). -/
def execBusLinData (e : Stim) (r : Req) (s : State) : Host.Outcome State Fault Refusal :=
  .next (submit busLinDataSpec r (s.advance e))

def busLinReadSpec : OpSpec :=
  { opcode := 0x3015, plen := (· == 1), right := ownsBus, isl := some 5
    parm := fun _ ps _ => need (within (par ps 0) 0x3FFF && isLin ps)
    exec := fun c s =>
      let ps := c.params
      let x := s.lin (busIx ps)
      let r := look {} x.rx (parId ps)
      .done .ok (wd (r.status + r.len * 2 ^ 8 + b2n r.new * 2 ^ 16) :: wordsOf 2 r.data ++ timeWords r.stamp)
        (s.setLin (busIx ps) { x with rx := put x.rx (parId ps) { r with new := false } }) }

/-- BUS_LIN_READ (R395, R397). -/
def execBusLinRead (e : Stim) (r : Req) (s : State) : Host.Outcome State Fault Refusal :=
  .next (submit busLinReadSpec r (s.advance e))

def busLinStatusSpec : OpSpec :=
  { opcode := 0x3016, plen := (· == 1), right := readsBus, isl := some 5
    parm := fun _ ps _ => need (within (par ps 0) 0xFF && isLin ps)
    exec := fun c s0 =>
      let n := busIx c.params
      let s := linSettle n s0
      let x := s.lin n
      .done .ok [wd ((s.gate (.lin n)).st.code + x.table * 2 ^ 8 + x.slot * 2 ^ 16 + b2n x.sleep * 2 ^ 24), wd x.errs] s }

/-- BUS_LIN_STATUS (R397). -/
def execBusLinStatus (e : Stim) (r : Req) (s : State) : Host.Outcome State Fault Refusal :=
  .next (submit busLinStatusSpec r (s.advance e))

/-! ### Sleep and wake (R396) -/

def busLinSleepSpec : OpSpec :=
  { opcode := 0x3017, plen := (· == 1), right := ownsBus, isl := some 5
    parm := fun _ ps s => need (within (par ps 0) 0xFF && isLin ps && (s.lin (busIx ps)).commander)
    exec := fun c s0 =>
      let n := busIx c.params
      let s := linSettle n s0
      let x := s.lin n
      if x.table = 15 ∧ x.slotEnd = none ∧ x.header = none ∧ s.linStarts n then .okay (sleepNow n s)
      else .okay (s.setLin n { x with sleepAsk := true }) }

/-- BUS_LIN_SLEEP (R396). -/
def execBusLinSleep (e : Stim) (r : Req) (s : State) : Host.Outcome State Fault Refusal :=
  .next (submit busLinSleepSpec r (s.advance e))

def busLinWakeSpec : OpSpec :=
  { opcode := 0x3018, plen := (· == 1), right := ownsBus, isl := some 5
    parm := fun _ ps _ => need (within (par ps 0) 0xFF && isLin ps)
    exec := fun c s =>
      let n := busIx c.params
      let x := s.lin n
      if !x.sleep then .fail .busy s
      else .okay (s.setLin n { x with sleep := false, pulse := some s.clk, lastAct := s.clk }) }

/-- BUS_LIN_WAKE (R396): a dominant wake pulse of 1 ms. -/
def execBusLinWake (e : Stim) (r : Req) (s : State) : Host.Outcome State Fault Refusal :=
  .next (submit busLinWakeSpec r (s.advance e))

/-- LIN_RESPONDER_SLEEP (R396): 4 s without bus activity. -/
def execLinResponderSleep (e : Stim) (lin : Nat) (s : State) : Host.Outcome State Fault Refusal :=
  event e s (fun s => decide (lin < 8) && s.linUp lin && !(s.lin lin).commander && !(s.lin lin).sleep &&
    decide ((s.lin lin).lastAct + 4000000000 ≤ s.clk)) (linSleep lin)

/-- A dominant level has been held for tWAKE on a sleeping bus. -/
def linWaken (n : Nat) (s : State) : State :=
  linNotice n 0x3012 [wd (16 + n)] (s.setLin n { s.lin n with sleep := false, lastAct := s.clk })

/-- LIN_WAKE_DETECT (R396). -/
def execLinWakeDetect (e : Stim) (lin : Nat) (s : State) : Host.Outcome State Fault Refusal :=
  event e s (fun s => decide (lin < 8) && ((s.lin lin).sleep || (s.gate (.lin lin)).st == .clockGated)) (linWaken lin)

end Sys2Proof.Machine
end

