-- ==== Sys2Proof/Machine/Gwy.lean ====
section
/-!
DEFINITION. The gateway service (13): the routing engine, gateway queues, ACF contexts, virtual CAN endpoints' receive
completions, and the GWY commands. Message layouts are those of IEEE 1722-2016 (PRESUMED, log 29).
-/

namespace Sys2Proof.Machine

/-! ### Routing entries (R403, R404) -/

def rtType (w : List Word) : Nat := fld (par w 0) 31 30
def rtKind (w : List Word) : Nat := fld (par w 2) 9 8
def rtIdx (w : List Word) : Nat := fld (par w 2) 7 0
def rtCans (w : List Word) : Nat := fld (par w 2) 21 10
def rtOutfmt (w : List Word) : Nat := fld (par w 3) 18 17
def rtXlate (w : List Word) : Bool := bit (par w 3) 16

/-- Indices of a source kind (R402). -/
def kindCount (k : Nat) : Nat := if k = 0 then 12 else if k = 1 then 8 else if k = 2 then 64 else 96

/-- Every field of an entry lies in its range (R403, R404). -/
def routeOk (w : List Word) : Bool :=
  let w3 := par w 3
  rtType w != 3 && within (par w 2) 0x3FFFFF && within w3 0x1F07FF7F && within (par w 4) 0x3FFFFFFF &&
  within (par w 5) 0xFFFF && decide (rtIdx w < kindCount (rtKind w)) &&
  (if bit w3 15 then decide (fld w3 14 8 ≤ 95) else fld w3 14 8 == 0) && (bit w3 6 || fld w3 5 0 == 0) &&
  (rtXlate w || fld (par w 4) 28 0 == 0) &&
  (rtKind w != 1 || (!bit (par w 0) 29 && fld (par w 1) 31 29 == 1 && (rtXlate w || rtCans w == 0)))

/-- CHECK of an entry. -/
def routeCheck (w : List Word) : Bool := crc16 ((wordBytes w).take 20) == fld (par w 5) 15 0

/-- Identifier as the engine holds it: left-aligned, a LIN identifier in bits 5:0 (R403). -/
def GwItem.ident (i : GwItem) : Nat := if i.lin || i.frame.ext then i.frame.id else i.frame.id * 2 ^ 18

/-- An entry routes a frame (R404). -/
def routes (w : List Word) (i : GwItem) : Bool :=
  let id1 := fld (par w 0) 28 0
  let id2 := fld (par w 1) 28 0
  let byId := if rtType w = 1 then decide (id1 ≤ i.ident) && decide (i.ident ≤ id2)
    else rtType w == 2 && (i.ident &&& id2) == (id1 &&& id2)
  byId && rtKind w == i.kind && rtIdx w == i.idx && bit (par w 0) 29 == i.frame.ext && bit (par w 1) (29 + i.frame.fmt)

/-! ### Copies (R405, R406) -/

/-- A frame's arbitration field: the smaller wins on the bus. -/
def arbKey (f : CanFrame) : Nat :=
  if f.ext then (f.id / 2 ^ 18) * 2 ^ 21 + 2 ^ 20 + 2 ^ 19 + (f.id % 2 ^ 18) * 2 + b2n f.rtr
  else f.id * 2 ^ 21 + b2n f.rtr * 2 ^ 20

/-- Inserts a frame into a gateway queue: by arbitration field, equal ones in order of arrival. -/
def gqInsert (g : GwFrame) : List GwFrame → List GwFrame
  | [] => [g]
  | h :: t => if arbKey g.frame < arbKey h.frame then g :: h :: t else h :: gqInsert g t

/-- Frames that a gateway queue holds: the one in arbitration or transmission keeps its place until it has been sent. -/
def CanCtl.gwCount (x : CanCtl) : Nat := x.gq.length + b2n (x.sending.any (fun t => t.gw.isSome))

/-- The frame that an entry makes of a routed frame for a CAN destination, if one can be made: XLATE and OUTFMT. -/
def outFrame (w : List Word) (i : GwItem) : Option CanFrame :=
  let f := i.frame
  let o := rtOutfmt w
  let ext := if rtXlate w then bit (par w 4) 29 else f.ext
  let id := if rtXlate w then (let v := fld (par w 4) 28 0; if ext then v else v / 2 ^ 18) else f.id
  let fmt := if o = 0 then f.fmt else if o = 1 then 0 else 1
  if (f.fmt == 2 && (o != 0 || ext)) || (f.rtr && fmt == 1) || !lenOk fmt f.dlc then none
  else some { f with id := id, ext := ext, fmt := fmt, brs := if o = 0 then f.brs else o == 3, esi := f.esi && fmt == 1 }

/-- A copy to CANn; the second component says whether it was taken. -/
def copyCan (w : List Word) (i : GwItem) (n : Nat) (s : State) : State × Bool :=
  let x := s.canc n
  match (outFrame w i).filter (fun f => f.fmt != 2 || bit (par x.conf 0) 10) with
  | none => (s.setCan n { x with fmtDrop := satInc 0xFFFF x.fmtDrop }, false)
  | some f =>
    if (s.gate (.can n)).st != .run || x.mode == 1 then
      (s.setCan n { x with dstDown := satInc 0xFFFF x.dstDown }, false)
    else if 32 ≤ x.gwCount then (s.setCan n { x with gqDrop := satInc 0xFFFF x.gqDrop }, false)
    else
      let g : GwFrame := { frame := f, stamp := i.stamp, oneshot := i.oneshot,
                           vep := if i.kind = 3 then some (i.idx, i.epoch) else none }
      (s.setCan n { x with gq := gqInsert g x.gq }, true)

/-! ### ACF contexts (R407 to R409) -/

def acfTalker (w : List Word) : Bool := bit (par w 0) 9 && bit (par w 0) 8
def acfListener (w : List Word) : Bool := bit (par w 0) 9 && !bit (par w 0) 8
def acfMax (w : List Word) : Nat := fld (par w 0) 27 24 + 1
def acfPcp (w : List Word) : Nat := fld (par w 0) 18 16
/-- stream_id as the number its eight bytes spell in wire order. -/
def acfStream (w : List Word) : Nat := natOfBE (wordBytes [par w 1, par w 2])
def acfDst (w : List Word) : Nat := natOfBE ((wordBytes [par w 3, par w 4]).take 6)
def acfVid (w : List Word) : Nat := fld (par w 4) 27 16
def acfWait (w : List Word) : Nat := fld (par w 5) 9 0 * 1000

/-- Bytes padded to whole quadlets. -/
def quads (bs : List Byte) : List Byte := bs ++ List.replicate ((4 - bs.length % 4) % 4) 0

/-- The ACF message of a frame, with mtv = 1 (R407). -/
def acfMessage (bus : Nat) (i : GwItem) : List Byte :=
  let d := quads i.frame.data
  let pad := d.length - i.frame.data.length
  let f := i.frame
  if i.lin then
    bytesOfBE 2 (3 * 2 ^ 9 + (12 + d.length) / 4) ++ bytesOf 1 (pad * 2 ^ 6 + 2 ^ 5 + bus) ++ bytesOf 1 f.id ++
      bytesOfBE 8 i.stamp ++ d
  else
    bytesOfBE 2 (1 * 2 ^ 9 + (16 + d.length) / 4) ++
      bytesOf 1 (pad * 2 ^ 6 + 2 ^ 5 + b2n f.rtr * 2 ^ 4 + b2n f.ext * 2 ^ 3 + b2n f.brs * 2 ^ 2 + b2n (f.fmt == 1) * 2 +
        b2n f.esi) ++ bytesOf 1 bus ++ bytesOfBE 8 i.stamp ++ bytesOfBE 4 f.id ++ d

/-- The frame of a received ACF message and whether it is a LIN frame; none for other message types. -/
def acfParse (m : List Byte) : Option (CanFrame × Bool) :=
  let h := natOfBE (m.take 2)
  let ty := h / 2 ^ 9
  let n := h % 2 ^ 9 * 4
  let b2 := le m 2 1
  let pad := b2 / 2 ^ 6
  if ty = 1 ∧ 16 + pad ≤ n ∧ n ≤ m.length then
    let f : CanFrame := { id := natOfBE ((m.drop 12).take 4) % 2 ^ 29, ext := b2.testBit 3, fmt := b2n (b2.testBit 1),
                          rtr := b2.testBit 4, brs := b2.testBit 2, esi := b2.testBit 0, dlc := n - 16 - pad,
                          data := (m.drop 16).take (n - 16 - pad) }
    some (f, false)
  else if ty = 3 ∧ 12 + pad ≤ n ∧ n ≤ m.length then
    let d := (m.drop 12).take (n - 12 - pad)
    some ({ id := le m 3 1 % 64, dlc := d.length, data := d }, true)
  else none

/-- Bytes of the PDU being packed: the NTSCF header and its messages. -/
def AcfCtx.size (x : AcfCtx) : Nat := 12 + (x.msgs.map (fun m => m.bytes.length)).sum

/-- The PDU of a talker's messages (R407): NTSCF, subtype 0x82, sv = 1. -/
def AcfCtx.pdu (x : AcfCtx) (seq : Nat) : List Byte :=
  let body := x.msgs.flatMap (·.bytes)
  bytesOf 1 0x82 ++ bytesOfBE 2 (2 ^ 15 + body.length) ++ bytesOf 1 seq ++ bytesOfBE 8 (acfStream x.words) ++ body

/-- Sends the PDU being packed through P15; while SWX does not run it is held. -/
def acfSend (c : Nat) (s : State) : State :=
  let x := s.acf c
  if x.msgs = [] ∨ !s.running 2 then s
  else
    let seq := if x.seen then (x.seq + 1) % 256 else 0
    let f : EthFrame := { dst := acfDst x.words, src := s.image.gwAddr,
                          vlan := some (acfPcp x.words * 2 ^ 13 + acfVid x.words), etype := 0x22F0, payload := x.pdu seq }
    let s1 := s.setAcf c { x with msgs := [], pdus := (x.pdus + 1) % 2 ^ 32, seq := seq, seen := true }
    (forward 15 none none (acfVid x.words) (acfPcp x.words) f (countIn 15 f (settleNet s1))).1

/-- A copy to a talker context. -/
def copyAcf (w : List Word) (i : GwItem) (s : State) : State × Bool :=
  let c := fld (par w 3) 5 0
  let x := s.acf c
  let m : AcfMsg := { bytes := acfMessage (fld (par w 3) 28 24) i, vep := if i.kind = 3 then some (i.idx, i.epoch) else none }
  if i.frame.fmt = 2 ∨ !acfTalker x.words then (s.setAcf c { x with drops := satInc 0xFFFF x.drops }, false)
  else
    let over_ := x.msgs != [] && decide (x.firstAt + acfWait x.words ≤ s.clk)
    let s1 := if over_ || decide (1500 < x.size + m.bytes.length) then acfSend c s else s
    let y := s1.acf c
    if acfMax y.words ≤ y.msgs.length ∨ 1500 < y.size + m.bytes.length then
      (s1.setAcf c { y with drops := satInc 0xFFFF y.drops }, false)
    else
      let z := { y with msgs := y.msgs ++ [m], firstAt := if y.msgs = [] then s.clk else y.firstAt
                        count := (y.count + 1) % 2 ^ 32 }
      let s2 := s1.setAcf c z
      (if z.msgs.length = acfMax z.words ∨ acfWait z.words = 0 then acfSend c s2 else s2, true)

/-! ### Endpoints (R410) -/

/-- A completion entry of an endpoint (R410). -/
def vepDone (head : List Byte) (st epoch stamp cookie : Nat) : List Byte :=
  fit 16 head ++ bytesOf 2 st ++ bytesOf 2 epoch ++ bytesOf 6 stamp ++ bytesOf 4 cookie

/-- COOKIE and address of an endpoint's submission entry, as words. -/
def vepCookie (en : List Word) : Nat := (par en 6).toNat
def vepAddr (en : List Word) : Nat := (par en 4).toNat + fld (par en 5) 7 0 * 2 ^ 32

/-- A copy to an endpoint: into its oldest posted buffer. -/
def copyVep (v : Nat) (i : GwItem) (s : State) : State × Bool :=
  let drop := ({ s with gwy := { s.gwy with noBuf := put s.gwy.noBuf v (satInc 0xFFFF (look 0 s.gwy.noBuf v)) } }, false)
  match s.vi 1 v with
  | none => drop
  | some x =>
    match x.fetched.find? (·.idle 1) with
    | none => drop
    | some d =>
      if x.resetting then drop
      else
        let w : Inbound := { head := rxHeader i.frame false 0 i.stamp, data := i.frame.data, stamp := tns i.stamp }
        (giveFrame 1 v x d w s, true)

/-! ### The engine (R404, R405, R412) -/

/-- Every copy that an entry makes; the second component says whether one was taken. -/
def routeCopies (w : List Word) (i : GwItem) (s : State) : State × Bool :=
  let cans := (setBits 12 (rtCans w)).filter (fun n => !(i.kind == 0 && i.idx == n))
  let r1 := cans.foldl (fun acc n => let r := copyCan w i n acc.1; (r.1, acc.2 || r.2)) (s, false)
  let r2 := if bit (par w 3) 6 then (let r := copyAcf w i r1.1; (r.1, r1.2 || r.2)) else r1
  if bit (par w 3) 15 then (let r := copyVep (fld (par w 3) 14 8) i r2.1; (r.1, r2.2 || r.2)) else r2

/-- The completion of an endpoint's transmit entry, by whether a copy was taken. -/
def vepSent (i : GwItem) (ok : Bool) (s : State) : State :=
  if i.kind = 3 then
    let s1 := match s.vi 1 i.idx with
      | some x => s.setVi 1 i.idx (some { x with fetched := x.fetched.eraseP (fun d => !d.posts 1 && !d.live) })
      | none => s
    complete 1 i.idx (vepDone i.head (if ok then 0 else 0x300) i.epoch 0 i.cookie) s1
  else s

/-- Looks a frame up and routes it. -/
def routeItem (i : GwItem) (s : State) : State :=
  match s.gwy.route.find? (fun p => routes p.2.words i) with
  | none => vepSent i false (countMiss i.kind i.idx s)
  | some (k, x) =>
    let s1 := { s with gwy := { s.gwy with route := put s.gwy.route k { x with hits := satInc 0xFFFFFFFF x.hits } } }
    let r := routeCopies x.words i s1
    vepSent i r.2 r.1

/-- BSX cycle of a clk. -/
def bsxCycle (t : Nat) : Nat := t * 2 / 25

/-- A frame is taken before another (R412). -/
def GwItem.before (a b : GwItem) : Bool :=
  decide (bsxCycle a.at_ < bsxCycle b.at_) ||
  (bsxCycle a.at_ == bsxCycle b.at_ && (decide (a.kind < b.kind) || (a.kind == b.kind && decide (a.idx < b.idx))))

/-- The frame that the engine takes next, and the others. -/
def takeItem : List GwItem → Option (GwItem × List GwItem)
  | [] => none
  | i :: t => match takeItem t with
    | none => some (i, [])
    | some (j, r) => if j.before i then some (j, i :: r) else some (i, t)

/-- One lookup. -/
def lookupOne (s : State) : State :=
  match takeItem s.gwy.items with
  | none => s
  | some (i, r) => routeItem i { s with gwy := { s.gwy with items := r } }

/-- GATEWAY_LOOKUP (R404): also of the frames that the engine holds when BSX or SVX quiesces (01 R22). -/
def execGatewayLookup (e : Stim) (s : State) : Host.Outcome State Fault Refusal :=
  event e s (fun s => s.alive 5 && s.alive 3) lookupOne

/-- The engine is cut: the frames that it holds are discarded and counted at their sources (R401). -/
def dropItems (s : State) : State :=
  s.gwy.items.foldl (fun s i => vepSent i false (countMiss i.kind i.idx s)) { s with gwy := { s.gwy with items := [] } }

/-- ACF_PDU_SEND (R407): MAXWAIT has passed since the PDU's first message. -/
def execAcfPduSend (e : Stim) (ctx : Nat) (s : State) : Host.Outcome State Fault Refusal :=
  event e s (fun s => decide (ctx < 64) && s.running 3 && (s.acf ctx).msgs != [] &&
    decide ((s.acf ctx).firstAt + acfWait (s.acf ctx).words ≤ s.clk)) (acfSend ctx)

/-- The valid listener context of a stream_id. -/
def State.listener? (s : State) (sid : Nat) : Option Nat :=
  (s.gwy.acf.find? (fun p => acfListener p.2.words && acfStream p.2.words == sid)).map (·.1)

/-- A message of an accepted PDU enters the engine, or is counted in DROPS. -/
def acfMsgIn (c : Nat) (m : List Byte) (s : State) : State :=
  let x := s.acf c
  let s1 := s.setAcf c { x with count := (x.count + 1) % 2 ^ 32 }
  match acfParse m with
  | some (f, lin) => toEngine 2 c s.tim.full f s1 lin
  | none => s1.setAcf c { x with drops := satInc 0xFFFF x.drops }

/-- A claimed PDU is accepted (R408). -/
def acfReceive (c : Nat) (p : AcfPdu) (s : State) : State :=
  let x := s.acf c
  let err := x.seen && p.seqNum != (x.seq + 1) % 256
  let s1 := s.setAcf c { x with pdus := (x.pdus + 1) % 2 ^ 32, seq := p.seqNum % 256, seen := true
                                seqErr := if err then satInc 0xFFFF x.seqErr else x.seqErr }
  p.msgs.foldl (fun s m => acfMsgIn c m s) s1

/-- ACF_PDU_RECEIVED (R408). -/
def execAcfPduReceived (e : Stim) (pdu : AcfPdu) (s : State) : Host.Outcome State Fault Refusal :=
  event e s (fun s => s.running 3 && (s.listener? pdu.streamId).isSome && (pdu.subtype == 0x82 || pdu.subtype == 0x04)) (fun s =>
    match s.listener? pdu.streamId with
    | some c => acfReceive c pdu s
    | none => s)

/-! ### GWY commands (R414, R415) -/

def gwyRouteSpec : OpSpec :=
  { opcode := 0x3101, plen := fun n => decide (7 ≤ n) && decide (n ≤ 193) && n % 6 == 1
    plenP := fun ps => ps.length == 1 + 6 * fld (par ps 0) 21 16
    right := onlyT0, isl := some 5
    parm := fun _ ps _ =>
      let n := fld (par ps 0) 21 16
      let es := elems 6 n ps.tail
      if !es.all routeCheck then some .badCheck
      else need (within (par ps 0) 0x3F0FFF && decide (1 ≤ n) && decide (n ≤ 32) && decide (fld (par ps 0) 11 0 + n ≤ 4096) &&
        es.all routeOk)
    exec := fun c s0 =>
      let ps := c.params
      let s := if s0.engineOn then (List.range s0.gwy.items.length).foldl (fun s _ => lookupOne s) s0 else s0
      let es := elems 6 (fld (par ps 0) 21 16) ps.tail
      let rt := (es.zipIdx (fld (par ps 0) 11 0)).foldl
        (fun t p => put t p.2 { look {} t p.2 with words := p.1 }) s.gwy.route
      .okay { s with gwy := { s.gwy with route := rt } } }

/-- GWY_ROUTE (R403, R414): the frames that have reached the engine by this cycle are looked up first, in their order
(R412). -/
def execGwyRoute (e : Stim) (r : Req) (s : State) : Host.Outcome State Fault Refusal :=
  .next (submit gwyRouteSpec r (s.advance e))

def gwyRouteReadSpec : OpSpec :=
  { opcode := 0x3102, plen := (· == 1), isl := some 5
    parm := fun _ ps _ => need (within (par ps 0) 0xFFF)
    exec := fun c s =>
      let x := look {} s.gwy.route (fld (par c.params 0) 11 0)
      .done .ok (x.words ++ [wd x.hits]) s }

/-- GWY_ROUTE_READ (R414). -/
def execGwyRouteRead (e : Stim) (r : Req) (s : State) : Host.Outcome State Fault Refusal :=
  .next (submit gwyRouteReadSpec r (s.advance e))

/-- The words of GWY_ACF (R409). -/
def acfOk (w : List Word) : Bool :=
  let talk := bit (par w 0) 8
  within (par w 0) 0x0F07033F && within (par w 4) 0x0FFFFFFF && within (par w 5) 0x3FF &&
  (if talk then decide (1 ≤ acfVid w) && decide (acfVid w ≤ 4094) && decide (fld (par w 5) 9 0 ≤ 1000)
   else acfPcp w == 0 && acfMax w == 1 && par w 3 == 0 && par w 4 == 0 && par w 5 == 0)

def gwyAcfSpec : OpSpec :=
  { opcode := 0x3110, plen := (· == 6), right := onlyT0, isl := some 3
    parm := fun _ ps _ => need (acfOk ps)
    exec := fun c s0 =>
      let ps := c.params
      let k := fld (par ps 0) 5 0
      if acfListener ps && s0.gwy.acf.any (fun p => p.1 != k && acfListener p.2.words && acfStream p.2.words == acfStream ps)
      then .fail .busy s0
      else
        let s := acfSend k s0
        let x := s.acf k
        .okay (s.setAcf k { x with words := ps, msgs := []
                                   seen := x.seen && acfStream x.words == acfStream ps && bit (par x.words 0) 8 == bit (par ps 0) 8 }) }

/-- GWY_ACF (R409). -/
def execGwyAcf (e : Stim) (r : Req) (s : State) : Host.Outcome State Fault Refusal :=
  .next (submit gwyAcfSpec r (s.advance e))

def gwyAcfStatusSpec : OpSpec :=
  { opcode := 0x3111, plen := (· == 1), isl := some 3
    parm := fun _ ps _ => need (within (par ps 0) 0x3F)
    exec := fun c s =>
      let x := s.acf (fld (par c.params 0) 5 0)
      .done .ok [wd x.pdus, wd x.count, wd (x.seqErr + x.drops * 2 ^ 16), wd x.seq] s }

/-- GWY_ACF_STATUS (R414). -/
def execGwyAcfStatus (e : Stim) (r : Req) (s : State) : Host.Outcome State Fault Refusal :=
  .next (submit gwyAcfStatusSpec r (s.advance e))

def gwyQueueSpec : OpSpec :=
  { opcode := 0x3120, plen := (· == 1), right := onlyT0, isl := some 5
    parm := fun _ ps _ =>
      let g := fld (par ps 0) 25 16
      need (within (par ps 0) 0x03FF00FF && isCan ps && decide (1 ≤ g) && decide (g ≤ 1000))
    exec := fun c s =>
      let n := busIx c.params
      .okay (s.setCan n { s.canc n with gage := fld (par c.params 0) 25 16 }) }

/-- GWY_QUEUE (R406, R414). -/
def execGwyQueue (e : Stim) (r : Req) (s : State) : Host.Outcome State Fault Refusal :=
  .next (submit gwyQueueSpec r (s.advance e))

def gwyStatusSpec : OpSpec :=
  { opcode := 0x3121, plen := (· == 1), right := readsBus, isl := some 5
    parm := fun _ ps _ => need (within (par ps 0) 0xFF && (isCan ps || isLin ps))
    exec := fun c s =>
      let n := busIx c.params
      if isCan c.params then
        let x := s.canc n
        .done .ok [wd (x.gwCount + x.gqDrop * 2 ^ 16), wd (x.fmtDrop + x.aged * 2 ^ 16), wd (x.miss + x.dstDown * 2 ^ 16)] s
      else .done .ok [0, 0, wd (s.lin n).miss] s }

/-- GWY_STATUS (R415). -/
def execGwyStatus (e : Stim) (r : Req) (s : State) : Host.Outcome State Fault Refusal :=
  .next (submit gwyStatusSpec r (s.advance e))

end Sys2Proof.Machine
end

