-- ==== Sys2Proof/Machine/Nmg.lean ====
section
/-!
DEFINITION. The Poppy rings (14): membership, the ring states, partial networks, wake sources and the NMG commands. On
a CAN ring the module's own frames travel in priority buffers 28 and 29 (R417); on P12 and P13 the end of an own
message is the instant at which the switch takes it. Log entry 30.
-/

namespace Sys2Proof.Machine

/-! ### Fields of NMG_RING_CONFIG (R438) -/

def Ring.en (x : Ring) : Bool := bit (par x.words 0) 8
def Ring.pnEn (x : Ring) : Bool := bit (par x.words 0) 9
def Ring.swEn (x : Ring) : Bool := bit (par x.words 0) 10
def Ring.xtd (x : Ring) : Bool := bit (par x.words 0) 11
def Ring.node (x : Ring) : Nat := fld (par x.words 0) 20 16
def Ring.base (x : Ring) : Nat := fld (par x.words 1) 28 0
def Ring.clBase (x : Ring) : Nat := fld (par x.words 2) 28 0
def Ring.ttyp (x : Ring) : Nat := fld (par x.words 3) 9 0 * 1000000
def Ring.tmax (x : Ring) : Nat := fld (par x.words 3) 25 16 * 10000000
def Ring.tprep (x : Ring) : Nat := fld (par x.words 4) 6 0 * 100000000
def Ring.pnto (x : Ring) : Nat := fld (par x.words 4) 15 8 * 100000000

/-- A ring at reset: TTYP 100 ms, TMAX 250 ms, TPREP 1.5 s, PNTO 2 s, RETYPE 0x88B6 on P12 and P13 (R420, R438). -/
def ringReset (r : Nat) : Ring :=
  { words := [0, if 12 ≤ r then 0x88B6 else 0, 0, 100 + 25 * 2 ^ 16, 15 + 20 * 2 ^ 8] }

def State.ring (s : State) (r : Nat) : Ring := look (ringReset r) s.nmg.ring r
def State.setRing (s : State) (r : Nat) (x : Ring) : State := { s with nmg := { s.nmg with ring := put s.nmg.ring r x } }
def State.cluster (s : State) (c : Nat) : Cluster := look {} s.nmg.cluster c

/-- The controller or port that carries a ring. -/
def ringFn (r : Nat) : Func := if r < 12 then .can r else .port r

/-! ### Members (R421) -/

/-- The leader: the lowest member. -/
def Ring.leader (x : Ring) : Nat := ((setBits 32 x.members).head?).getD 0

/-- The next higher member, wrapping to the lowest. -/
def Ring.next (x : Ring) (n : Nat) : Nat := ((setBits 32 x.members).find? (fun m => decide (n < m))).getD x.leader

def addBit (v n : Nat) : Nat := v ||| 2 ^ n
def delBit (v n : Nat) : Nat := if v.testBit n then v - 2 ^ n else v

/-! ### Requests and consent (R423) -/

/-- Rings that a tenant's request keeps awake: those it names, and those of the clusters it names. -/
def State.ringsOf (s : State) (q : Nat × Nat) : Nat :=
  (setBits 32 q.2).foldl (fun acc c => acc ||| (s.cluster c).rings) q.1

/-- A tenant's request keeps ring r awake. -/
def State.requested (s : State) (r : Nat) : Bool := s.nmg.req.any (fun p => (s.ringsOf p.2).testBit r)

/-- A tenant request holds. -/
def State.anyReq (s : State) : Bool := s.nmg.req.any (fun p => p.2.1 != 0 || p.2.2 != 0)

/-- KEY is active, and KEYHOLD keeps the rings awake by it. -/
def State.keyHeld (s : State) : Bool := s.probe .key == 1 && bit s.nmg.wake0 24

/-- The module's consent on a ring. -/
def State.consent (s : State) (r : Nat) : Bool := !s.requested r && !s.keyHeld

/-- CLREQ: the union of every tenant's cluster request (R429). -/
def State.clReq (s : State) : Nat := s.nmg.req.foldl (fun acc p => acc ||| p.2.2) 0

/-- A ring's received request set: the cluster frames of [now − PNTO, now) (R429). -/
def State.received (s : State) (r : Nat) : Nat :=
  let x := s.ring r
  x.clreq.foldl (fun acc p => if s.clk ≤ p.2.1 + x.pnto ∧ p.2.1 < s.clk then acc ||| p.2.2 else acc) 0

/-! ### State changes (R424, R425) -/

def RState.code : RState → Nat
  | .disabled => 0 | .starting => 1 | .ring => 2 | .prepare => 3 | .disengage => 4 | .busSleep => 5 | .pnSleep => 6

/-- A ring changes state, posting NMG_STATE (R440). -/
def ringTo (r : Nat) (st : RState) (s : State) : State :=
  let x := s.ring r
  if x.st = st then s
  else
    noticeAll (s.holders 13) 0x3801 [wd (r + st.code * 2 ^ 8 + x.st.code * 2 ^ 12)]
      (s.setRing r { x with st := st, enteredAt := s.clk, pnSince := none })

/-- A ring starts: its controller or port is enabled (R425). -/
def startRing (r : Nat) (s : State) : State :=
  let s1 := gateStart (ringFn r) (ringTo r .starting s)
  s1.setRing r { s1.ring r with heard := false, aliveAt := none, turn := none, last := none, out := none, own := none,
                                vetoDue := none, wake := none, toPn := false, clOut := none, clSent := none,
                                decRun := false }

/-- Word 0 of NMG_WAKE_CAUSE. -/
def State.wakeWord (s : State) : Word := wd (s.nmg.cause + s.nmg.causeIdx * 2 ^ 8 + s.nmg.wakes * 2 ^ 16)

/-- A wake is recorded and posted (R435). -/
def wakeRecord (cause idx : Nat) (s : State) : State :=
  let s1 := { s with nmg := { s.nmg with cause := cause, causeIdx := idx, wakes := satInc 0xFFFF s.nmg.wakes
                                         causeAt := s.tim.full } }
  logNotice (s1.holders 13) 0xFF 0x3802 [s1.wakeWord] s1

/-- A wake of a ring's bus: a sleeping ring starts; during a release the wake is latched, to be recorded at its end unless
it has been already (R425, R428). -/
def ringWake (r cause : Nat) (record : Bool) (s : State) : State :=
  let x := s.ring r
  match x.st with
  | .busSleep | .pnSleep => startRing r (if record then wakeRecord cause r s else s)
  | .disengage => if x.wake.isNone then s.setRing r { x with wake := some (cause, !record) } else s
  | _ => s

/-- The PREPARE window [entry, entry + TPREP) has ended: the ring is in DISENGAGE from that instant on (R425, R428; 00
R12). -/
def prepareOver (r : Nat) (s : State) : State :=
  let x := s.ring r
  if x.st = .prepare ∧ x.enteredAt + x.tprep ≤ s.clk then
    let s1 := ringTo r .disengage s
    gateStop (ringFn r) (s1.setRing r { s1.ring r with enteredAt := x.enteredAt + x.tprep })
  else s

/-- What consent 0 does to a ring (R425): a veto out of PREPARE, a wake out of sleep. -/
def consentGone (record : Bool) (s0 : State) (r : Nat) : State :=
  let s := prepareOver r s0
  let x := s.ring r
  if s.consent r then s
  else match x.st with
  | .prepare =>
    let s1 := ringTo r .ring s
    s1.setRing r { s1.ring r with vetoDue := some s.clk }
  | .busSleep | .pnSleep | .disengage => ringWake r (if s.requested r then 10 else 5) record s
  | _ => s

/-- A request set holds a cluster of which the module is a member, with the ring in its RINGS (R430). -/
def State.needs (s : State) (r req : Nat) : Bool :=
  (setBits 32 req).any (fun c => (s.cluster c).member && (s.cluster c).rings.testBit r)

/-- The conditions of R430 hold for a ring. -/
def State.pnReady (s : State) (r : Nat) : Bool :=
  let x := s.ring r
  x.pnEn && x.st == .ring && s.consent r &&
  !s.needs r (s.received r) &&
  delBit x.members x.node != 0 && x.leader != x.node

/-- Notes since when the conditions of R430 hold without interruption. -/
def pnNote (s : State) (r : Nat) : State :=
  let x := s.ring r
  if s.pnReady r then (if x.pnSince.isNone then s.setRing r { x with pnSince := some s.clk } else s)
  else if x.pnSince.isSome then s.setRing r { x with pnSince := none }
  else s

/-- Every enabled ring sleeps and no request holds. -/
def State.ringsAsleep (s : State) : Bool :=
  let on := s.nmg.ring.filter (fun p => p.2.st != .disabled)
  !on.isEmpty && on.all (fun p => p.2.st == .busSleep || p.2.st == .pnSleep) && !s.anyReq

/-- NMG_ALLSLEEP (R436, R440), once for each time that its condition comes to hold. -/
def allSleepNote (s : State) : State :=
  if s.ringsAsleep then
    (if s.nmg.allSleep then s
     else noticeAll (s.holders 13) 0x3803 [] { s with nmg := { s.nmg with allSleep := true } })
  else { s with nmg := { s.nmg with allSleep := false } }

/-- What follows at once from a change of requests, members or consent. -/
def nmgSettle (record : Bool) (s : State) : State :=
  let rs := s.nmg.ring.map (·.1)
  allSleepNote (rs.foldl pnNote (rs.foldl (consentGone record) s))

/-! ### Own frames (R417 to R420) -/

/-- Puts an own frame into a priority buffer and requests it. -/
def ownFrame (n p ident : Nat) (ext : Bool) (d : List Byte) (s : State) : State :=
  let x := s.canc n
  let b := x.bufNo 3 p
  let h := bytesOf 4 ident ++ bytesOf 1 (b2n ext * 4) ++ [0] ++ bytesOf 2 d.length ++ List.replicate 14 0
  let s1 := (s.writeMem (winBase n + 24 * b) h).writeMem (winBase n + x.dataOff b) d
  s1.setCan n { x with pend := x.pend ||| 2 ^ p, cancel := delBit x.cancel p, tries := erase x.tries b }

/-- Withdraws an own frame. -/
def ownDrop (n p : Nat) (s : State) : State := s.setCan n { s.canc n with pend := delBit (s.canc n).pend p }

/-- The 8 bytes of a ring message (R419). -/
def ringBytes (x : Ring) (m : RMsg) : List Byte :=
  bytesOf 1 (m.kind + b2n x.pnEn * 4) ++ bytesOf 1 m.dst ++ bytesOf 1 m.round ++ [0] ++ bytesOf 4 m.consent

/-- The module's ring message has ended on the bus (R421, R422, R425, R426). -/
def ringSent (r : Nat) (s : State) : State :=
  let x := s.ring r
  match x.out with
  | none => s
  | some m =>
    let mem := if m.kind = 3 then delBit x.members x.node else addBit x.members x.node
    let y := { x with out := none, own := some m, members := mem, round := m.round
                      last := if m.kind = 1 then x.last else some (x.node, m.dst, s.clk)
                      consent := m.consent
                      vetoes := if x.vetoDue.isSome then satInc 0xFFFF x.vetoes else x.vetoes
                      vetoDue := none
                      aliveAt := if m.kind = 1 then some s.clk else x.aliveAt
                      turn := if m.kind = 0 ∧ m.dst = x.node then some ⟨s.clk, m.round, m.consent⟩ else x.turn }
    let s0 : State := if m.kind = 1 ∧ s.nmg.wakeBus = some r then { s with nmg := { s.nmg with wakeBus := none } } else s
    let s1 := s0.setRing r y
    if m.kind = 2 then nmgSettle true (ringTo r .prepare s1)
    else if m.kind = 3 then
      let s2 := gateStop (ringFn r) (ringTo r .disengage s1)
      s2.setRing r { s2.ring r with toPn := true, turn := none }
    else pnNote s1 r

/-- The Ethernet frame of a ring message or a cluster frame on P12 or P13 (R420). -/
def State.ringFrame (s : State) (r kind : Nat) (d : List Byte) : EthFrame :=
  let x := s.ring r
  { dst := broadcast, src := s.image.gwAddr, etype := fld (par x.words 1) 15 0
    payload := fit 46 (bytesOf 1 kind ++ bytesOf 1 x.node ++ d) }

/-- Sends a ring message: in buffer 28 of the controller, or through P15 to its port (R417, R420). -/
def ringSend (r : Nat) (m : RMsg) (s : State) : State :=
  let x := s.ring r
  let s1 := s.setRing r { x with out := some m, turn := none }
  if r < 12 then ownFrame r 28 (x.base + x.node) x.xtd (ringBytes x m) s1
  else
    ringSent r (tellerSend { port := r, plain := true } 7 (s.ringFrame r 0 (ringBytes x m)) (settleNet s1))

/-- The RING that the module sends now: ROUND and the other members' CONSENT copied from the message that it answers, or
from the last one on the ring; its own bit set to its own consent (R419, R422). -/
def State.ownRing (s : State) (r : Nat) : RMsg :=
  let x := s.ring r
  let t : Turn := x.turn.getD ⟨s.clk, x.round, x.consent⟩
  let mem := addBit x.members x.node
  let c := delBit (t.consent &&& mem) x.node + (if s.consent r then 2 ^ x.node else 0)
  let y := { x with members := mem }
  { kind := 0, dst := y.next x.node, round := if y.leader = x.node then (t.round + 1) % 256 else t.round, consent := c }

/-- A veto: the CONSENT bits of the other members are set, the module's own is 0 (R426). -/
def State.vetoMsg (s : State) (r : Nat) : RMsg :=
  let x := s.ring r
  { s.ownRing r with consent := delBit (addBit x.members x.node) x.node }

/-- The module may send on the ring's bus. -/
def State.ringUp (s : State) (r : Nat) : Bool :=
  s.running 3 && (if r < 12 then s.running 5 && s.canState r == .run && (s.canc r).estate != 2 && (s.canc r).mode == 0
    else s.running 2 && s.linked r)

/-- The ring's bus is heard. -/
def State.ringHears (s : State) (r : Nat) : Bool :=
  s.running 3 && (if r < 12 then s.canUp r else s.running 2 && s.linked r)

/-! ### Ring messages received (R421, R422, R425, R426) -/

/-- Membership after a message: the sender joins or leaves, and a node that the message goes past is removed. -/
def memberStep (x : Ring) (m : RingMsg) : Nat :=
  let past := match x.last with
    | some (a, b, _) => if a = m.src ∧ m.kind ≠ 1 ∧ b ≠ m.dst ∧ b ≠ a then delBit x.members b else x.members
    | none => x.members
  if m.kind = 3 then delBit past m.src else addBit past m.src

/-- A node addressed that has stayed silent for TMAX is no member any longer (R421). -/
def Ring.pruned (x : Ring) (now : Nat) : Ring :=
  match x.last with
  | some (a, b, t) =>
    if (x.st = .ring ∨ x.st = .starting) ∧ a ≠ b ∧ b ≠ x.node ∧ t + x.tmax ≤ now then { x with members := delBit x.members b } else x
  | none => x

/-- The node addressed last, and since when it is silent, after a message. An ALIVE addresses nobody: of the node
addressed it ends the silence so far, of another it changes nothing. -/
def lastStep (now : Nat) (x : Ring) (m : RingMsg) : Option (Nat × Nat × Nat) :=
  if m.kind ≠ 1 then some (m.src, m.dst, now)
  else x.last.map (fun l => if l.2.1 = m.src then (l.1, l.2.1, now) else l)

/-- A ring message is received. Of a SLEEP_IND that the leader did not send, only the sender's membership is taken (R421,
R425). -/
def ringHeard (r : Nat) (m : RingMsg) (s0 : State) : State :=
  let s := prepareOver r s0
  let x := (s.ring r).pruned s.clk
  let mine := m.dst == x.node && (m.kind == 0 || m.kind == 3)
  let z := { x with members := memberStep x m }
  let y := { z with round := m.round, consent := m.consent, heard := x.heard || m.kind == 0, last := lastStep s.clk x m
                    turn := if mine then some ⟨s.clk, m.round, m.consent⟩ else x.turn }
  let s1 := s.setRing r y
  match x.st with
  | .ring =>
    if m.kind = 2 then
      if m.src = z.leader then nmgSettle true (ringTo r .prepare (s.setRing r { y with turn := none }))
      else pnNote (s.setRing r { z with badind := satInc 0xFFFF z.badind }) r
    else pnNote s1 r
  | .prepare =>
    if m.kind = 0 ∨ m.kind = 1 then
      pnNote (ringTo r .ring (s1.setRing r { y with vetoes := satInc 0xFFFF y.vetoes })) r
    else s1
  | _ => s1

/-- Teller hears the messages of a ring: it is enabled, and not asleep. -/
def State.ringAwake (s : State) (r : Nat) : Bool :=
  let st := (s.ring r).st
  st == .starting || st == .ring || st == .prepare || st == .disengage

/-- The fields of a ring message (R419). -/
def ringMsgOk (m : RingMsg) : Bool :=
  decide (m.src < 32) && decide (m.kind < 4) && decide (m.round < 256) && decide (m.consent < 2 ^ 32)

/-- The leader's decision: SLEEP_IND when every member consents by the message that it answers, and the module does
(R425). -/
def State.turnMsg (s : State) (r : Nat) : RMsg :=
  let x := s.ring r
  let m := s.ownRing r
  match x.turn with
  | some t =>
    if x.leader = x.node ∧ t.consent &&& x.members = x.members ∧ s.consent r then { m with kind := 2, round := t.round }
    else m
  | none => m

/-- RING_SEND (R422): TTYP after the message that addressed the module. -/
def execRingSend (e : Stim) (ring : Nat) (s : State) : Host.Outcome State Fault Refusal :=
  event e s (fun s => decide (ring < 14) && s.ringUp ring && (s.ring ring).st == .ring && (s.ring ring).out.isNone &&
    (s.ring ring).turn.any (fun t => decide (t.at_ + (s.ring ring).ttyp ≤ s.clk)))
    (fun s => ringSend ring (s.turnMsg ring) s)

/-- A node addressed has stayed silent for TMAX: it leaves the set, and the module, if it sent the message, sends it
again to the next member (R421, R422). -/
def silent (r d : Nat) (s : State) : State :=
  let x := s.ring r
  let y := { x with members := delBit x.members d, last := none }
  let s1 := s.setRing r y
  match x.last, x.own with
  | some (a, _, _), some m =>
    if a = x.node ∧ (x.st = .ring ∨ x.st = .prepare) ∧ x.out.isNone then ringSend r { m with dst := y.next x.node } s1
    else pnNote s1 r
  | _, _ => pnNote s1 r

/-- RING_SILENCE (R421, R422). -/
def execRingSilence (e : Stim) (ring : Nat) (s : State) : Host.Outcome State Fault Refusal :=
  event e s (fun s => decide (ring < 14) && s.ringUp ring && ((s.ring ring).st == .ring || (s.ring ring).st == .starting) &&
    (s.ring ring).last.any (fun l => l.1 != l.2.1 && l.2.1 != (s.ring ring).node &&
      decide (l.2.2 + (s.ring ring).tmax ≤ s.clk)))
    (fun s => match (s.ring ring).last with
      | some (_, d, _) => silent ring d s
      | none => s)

/-- A starting ring sends ALIVE, and goes to RING after TMAX; a leader that has heard no RING sends the first (R425). -/
def aliveStep (r : Nat) (s : State) : State :=
  let x := s.ring r
  match x.aliveAt with
  | none =>
    let m := s.ownRing r
    ringSend r { m with kind := 1, dst := x.node, round := x.round } s
  | some t =>
    if s.clk < t + x.tmax then s
    else
      let s1 := ringTo r .ring s
      if x.leader = x.node ∧ !x.heard then ringSend r (s1.ownRing r) s1 else pnNote s1 r

/-- ALIVE_SEND (R425, R435): after a wake from SLEEP the wake bus goes first. -/
def execAliveSend (e : Stim) (ring : Nat) (s : State) : Host.Outcome State Fault Refusal :=
  event e s (fun s => decide (ring < 14) && s.ringUp ring && (s.ring ring).st == .starting && (s.ring ring).out.isNone &&
    !(s.nmg.wakeBus.any (fun b => b != ring && (s.ring b).st == .starting && (s.ring b).aliveAt.isNone)))
    (aliveStep ring)

/-- VETO (R426): within 1 ms of its cause. -/
def execVeto (e : Stim) (ring : Nat) (s : State) : Host.Outcome State Fault Refusal :=
  let s1 := s.advance e
  let s2 := if ring < 14 then consentGone true s1 ring else s1
  let x := s2.ring ring
  .next (if ring < 14 ∧ s2.ringUp ring ∧ x.st = .ring ∧ x.vetoDue.isSome ∧ x.out.isNone then
    ringSend ring (s2.vetoMsg ring) s2 else s2)

/-! ### Release (R427, R428, R430) -/

/-- PREPARE_END (R425). -/
def execPrepareEnd (e : Stim) (ring : Nat) (s : State) : Host.Outcome State Fault Refusal :=
  event e s (fun s => decide (ring < 14) && (s.ring ring).st == .prepare &&
    decide ((s.ring ring).enteredAt + (s.ring ring).tprep ≤ s.clk)) (fun s => nmgSettle true (prepareOver ring s))

/-- The release is complete: a latched wake starts the ring at once (R428). -/
def released (r : Nat) (s : State) : State :=
  let x := s.ring r
  let s1 := match x.wake with
    | some (c, recorded) => startRing r (if recorded then s else wakeRecord c r s)
    | none => ringTo r (if x.toPn then .pnSleep else .busSleep) s
  nmgSettle true s1

/-- RELEASE_COMPLETE (R428). -/
def execReleaseComplete (e : Stim) (ring : Nat) (s : State) : Host.Outcome State Fault Refusal :=
  event e s (fun s => decide (ring < 14) && (s.ring ring).st == .disengage &&
    ((s.gate (ringFn ring)).st == .clockGated || (s.gate (ringFn ring)).st == .powerGated)) (released ring)

/-- PN_SLEEP_ENTRY (R430): the conditions have held for TTYP; LEAVE goes to the successor. -/
def execPnSleepEntry (e : Stim) (ring : Nat) (s : State) : Host.Outcome State Fault Refusal :=
  event e s (fun _ => decide (ring < 8)) (fun s0 =>
    let s := pnNote s0 ring
    let x := s.ring ring
    if s.ringUp ring ∧ x.out.isNone ∧ x.pnSince.any (fun t => decide (t + x.ttyp ≤ s.clk)) then
      let m := s.ownRing ring
      ringSend ring { m with kind := 3, round := x.round } s
    else s)

/-! ### Cluster frames (R429) -/

/-- A ring carries cluster frames: on CAN with PNEN = 1, which gives them identifiers (R438); P12 and P13 always (R420). -/
def Ring.clustered (x : Ring) (r : Nat) : Bool := x.pnEn || decide (12 ≤ r)

/-- A cluster frame is received: it stands in the request set for PNTO (R429). -/
def clusterHeard (r node clreq : Nat) (s0 : State) : State :=
  let s := prepareOver r s0
  let x := s.ring r
  let now := x.clreq.filter (fun p => decide (s.clk ≤ p.2.1 + x.pnto))
  let y := { x with clreq := now ++ [(node, s.clk, clreq)] }
  if s.needs r clreq then s.setRing r { y with pnSince := none } else pnNote (s.setRing r y) r

/-- The cluster frame has ended on the bus. -/
def clusterSent (r : Nat) (s : State) : State :=
  let x := s.ring r
  match x.clOut with
  | some v => s.setRing r { x with clOut := none, clSent := some (v, s.clk) }
  | none => s

/-- CLUSTER_FRAME_SEND (R424, R429): at a change of CLREQ, and every TTYP in RING, and in STARTING once ALIVE has been
sent. On P12 and P13 the frame has KIND 1 (R420). -/
def execClusterFrameSend (e : Stim) (ring : Nat) (s : State) : Host.Outcome State Fault Refusal :=
  event e s (fun s =>
    let x := s.ring ring
    decide (ring < 14) && s.ringUp ring && x.clustered ring && x.clOut.isNone &&
    ((x.st == .starting && x.aliveAt.isSome) || x.st == .ring) &&
    (match x.clSent with
     | none => true
     | some (v, t) => v != s.clReq || decide (t + x.ttyp ≤ s.clk)))
    (fun s =>
      let x := s.ring ring
      let s1 := s.setRing ring { x with clOut := some s.clReq }
      if ring < 12 then ownFrame ring 29 (x.clBase + x.node) x.xtd (bytesOf 4 s.clReq) s1
      else clusterSent ring (tellerSend { port := ring, plain := true } 7 (s.ringFrame ring 1 (bytesOf 4 s.clReq))
        (settleNet s1)))

/-! ### What Teller hears on a bus (R418, R420) -/

/-- A Classical data frame of a ring's identifier format. -/
def Ring.plainFrame (x : Ring) (f : CanFrame) : Bool := f.fmt == 0 && !f.rtr && f.ext == x.xtd

/-- The ring message in a frame's sender and 8 bytes (R419). -/
def msgOf (src : Nat) (d : List Byte) : RingMsg :=
  let t := natOf (d.take 1)
  { src := src, kind := t % 4, pn := t.testBit 2, dst := natOf ((d.drop 1).take 1), round := natOf ((d.drop 2).take 1)
    consent := natOf ((d.drop 4).take 4) }

/-- Teller takes the 8 or 4 bytes of a node's frame. -/
def tellerTakes (r : Nat) (cl : Bool) (src : Nat) (d : List Byte) (s : State) : State :=
  if cl then (if (s.ring r).st = .disabled then s else clusterHeard r src (natOf (d.take 4)) s)
  else if s.ringAwake r then ringHeard r (msgOf src d) s
  else s

/-- Teller sees a CAN frame whose identifier is a ring message's or a cluster frame's (R418). -/
def tellerSees (n : Nat) (f : CanFrame) (s : State) : State :=
  let x := s.ring n
  if !x.plainFrame f then s
  else if f.dlc = 8 ∧ f.id / 32 * 32 = x.base then tellerTakes n false (f.id % 32) f.data s
  else if x.pnEn ∧ f.dlc = 4 ∧ f.id / 32 * 32 = x.clBase then tellerTakes n true (f.id % 32) f.data s
  else s

/-- A frame that began after the wake latch was armed in a release is a latched wake (R428: within 10 µs). -/
def releaseFrame (n ago : Nat) (s : State) : State :=
  if (s.ring n).st = .disengage ∧ (s.ring n).enteredAt + 10000 + ago ≤ s.clk then ringWake n 1 true s else s

/-- The controller takes frames from its bus. -/
def State.canTakes (s : State) (n : Nat) : Bool :=
  decide (n < 12) && s.canUp n && (s.canc n).mode != 2 && (s.canc n).estate != 2

/-- A frame ends on a CAN bus: the filters and the gateway take it, and so does Teller (R418; 12 R377, R384). `ago` is the
time in ns since its start-of-frame bit was sampled. -/
def canHeard (n ago : Nat) (f : CanFrame) (s0 : State) : State :=
  let s := prepareOver n s0
  releaseFrame n ago (tellerSees n f (canReceive n (s.tim.full - ago) f s))

/-- A ring message or cluster frame of a node as a CAN frame (R418). -/
def Ring.canFrame (x : Ring) (base src : Nat) (d : List Byte) : CanFrame :=
  { id := base + src, ext := x.xtd, dlc := d.length, data := d }

/-- RING_MESSAGE_RECEIVED (R418, R422): on CAN the frame that carries it, on P12 and P13 what reaches Teller. -/
def execRingMessageReceived (e : Stim) (ring : Nat) (m : RingMsg) (s : State) : Host.Outcome State Fault Refusal :=
  event e s (fun s => decide (ring < 14) && s.ringHears ring && ringMsgOk m && s.ringAwake ring &&
      (decide (12 ≤ ring) || s.canTakes ring)) (fun s =>
    if ring < 12 then
      let d := bytesOf 1 (m.kind + b2n m.pn * 4) ++ bytesOf 1 m.dst ++ bytesOf 1 m.round ++ [0] ++ bytesOf 4 m.consent
      canHeard ring m.ago ((s.ring ring).canFrame (s.ring ring).base m.src d) s
    else ringHeard ring m s)

/-- CLUSTER_FRAME_RECEIVED (R418, R429). -/
def execClusterFrameReceived (e : Stim) (ring node : Nat) (m : ClMsg) (s : State) : Host.Outcome State Fault Refusal :=
  event e s (fun s => decide (ring < 14) && s.ringHears ring && decide (node < 32) && (s.ring ring).st != .disabled &&
      (s.ring ring).clustered ring && (decide (12 ≤ ring) || s.canTakes ring)) (fun s =>
    if ring < 12 then
      canHeard ring m.ago ((s.ring ring).canFrame (s.ring ring).clBase node (bytesOf 4 m.clreq.toNat)) s
    else clusterHeard ring node m.clreq.toNat s)

/-- Teller takes a frame of P12 or P13 with RETYPE that reaches P15 (R420). -/
def tellerFrame (p : Nat) (f : EthFrame) (s : State) : State :=
  let kind := natOf (f.payload.take 1)
  let node := natOf ((f.payload.drop 1).take 1)
  if (p = 12 ∨ p = 13) ∧ f.etype = s.retype p ∧ kind < 2 ∧ node < 32 then
    tellerTakes p (kind == 1) node (f.payload.drop 2) s
  else s

/-- TRANSMISSION_END (10 R313): what ends at P15 has reached Teller. -/
def execTransmissionEnd (e : Stim) (port : Nat) (s : State) : Host.Outcome State Fault Refusal :=
  event e s (fun s => decide (port < 16) && (s.sp port).sending.isSome) (fun s =>
    let s0 := foldCredits port s
    match (s0.sp port).sending with
    | none => s0
    | some t => match s0.stored? t.id with
      | none => s0.setSp port { s0.sp port with sending := none }
      | some f =>
        let s1 := endSend port t f s0
        if port = 15 then tellerFrame f.iport f.frame s1 else s1)

/-- PNTO_EXPIRY (R429): requests received longer than PNTO ago leave the set. -/
def execPntoExpiry (e : Stim) (ring : Nat) (s : State) : Host.Outcome State Fault Refusal :=
  event e s (fun s => decide (ring < 14) && (find? s.nmg.ring ring).isSome) (fun s =>
    let x := s.ring ring
    pnNote (s.setRing ring { x with clreq := x.clreq.filter (fun p => decide (s.clk ≤ p.2.1 + x.pnto)) }) ring)

/-! ### Wakes (R431 to R435) -/

/-- DECODER_SILENCE (R433): tSIL is at least 0.6 s (R434). -/
def execDecoderSilence (e : Stim) (can : Nat) (s : State) : Host.Outcome State Fault Refusal :=
  event e s (fun s => decide (can < 8) && (s.ring can).decRun && decide ((s.ring can).decAt + 600000000 ≤ s.clk)) (fun s => s.setRing can { s.ring can with decRun := false })

/-! ### NMG commands (R437 to R439) -/

/-- The words of NMG_RING_CONFIG (R438). -/
def ringOk (w : List Word) (s : State) : Bool :=
  let r := fld (par w 0) 3 0
  let wf := fld (par w 0) 27 24
  let pn := bit (par w 0) 9
  let top := if bit (par w 0) 11 then 2 ^ 29 else 2 ^ 11
  let b := fld (par w 1) 28 0
  let cl := fld (par w 2) 28 0
  let ttyp := fld (par w 3) 9 0
  let tmax := fld (par w 3) 25 16
  let tprep := fld (par w 4) 6 0
  let pnto := fld (par w 4) 15 8
  within (par w 0) 0x0F1F0F0F && within (par w 1) 0x1FFFFFFF && within (par w 2) 0x1FFFFFFF &&
  within (par w 3) 0x03FF03FF && within (par w 4) 0xFF7F && decide (r < 14) &&
  (if 8 ≤ r ∧ r < 12 then wf == 0 else decide (1 ≤ wf) && decide (wf ≤ 10)) &&
  (if r < 12 then b % 32 == 0 && decide (b < top) else decide (b < 2 ^ 16) && etypeOk b && b != s.net.etype) &&
  (if pn then cl % 32 == 0 && decide (cl < top) else cl == 0) && (decide (r < 8) || (!pn && !bit (par w 0) 10)) &&
  decide (10 ≤ ttyp) && decide (ttyp ≤ 1000) && decide (2 ≤ tmax) && decide (tmax ≤ 500) && decide (2 * ttyp ≤ tmax * 10) &&
  decide (1 ≤ tprep) && decide (tprep ≤ 100) && decide (5 ≤ pnto) && decide (pnto ≤ 100)

/-- The block of a ring's controller or port failed the audit in force (19 R584). -/
def State.ringFail (s : State) (r : Nat) : Bool :=
  if r < 8 then s.blkFail (53 + r) else if 12 ≤ r then s.blkFail (39 + r) else false

/-- The ring is disabled: its controller or port stays in its present state (R425). -/
def ringOff (r : Nat) (s : State) : State :=
  let s1 := ringTo r .disabled s
  let s2 := s1.setRing r { s1.ring r with out := none, clOut := none, turn := none, vetoDue := none, last := none }
  let s3 : State := if s2.nmg.wakeBus = some r then { s2 with nmg := { s2.nmg with wakeBus := none } } else s2
  if r < 12 then ownDrop r 29 (ownDrop r 28 s3) else s3

def nmgRingConfigSpec : OpSpec :=
  { opcode := 0x3801, plen := (· == 5), right := onlyT0
    parm := fun _ ps s => need (ringOk ps s)
    exec := fun c s =>
      let ps := c.params
      let r := fld (par ps 0) 3 0
      let x := s.ring r
      let on := bit (par ps 0) 8
      let clears := !on && ps.tail == x.words.tail && par ps 0 ||| 0x100 == par x.words 0 ||| 0x100
      if x.st != .disabled && !clears then .fail .busy s
      else if on && ((decide (r < 12) && (s.canc r).legacy) || s.ringFail r) then .fail .busy s
      else if on then
        let y := { ringReset r with words := ps }
        let s1 := if r < 12 ∧ s.canState r ≠ .run then s.setCan r { s.canc r with mode := 0 } else s
        .okay (nmgSettle true (startRing r (s1.setRing r y)))
      else
        let s1 := if x.st = .disabled then s else ringOff r s
        .okay (nmgSettle true (s1.setRing r { s1.ring r with words := ps })) }

/-- NMG_RING_CONFIG (R438). -/
def execNmgRingConfig (e : Stim) (r : Req) (s : State) : Host.Outcome State Fault Refusal :=
  .next (submit nmgRingConfigSpec r (s.advance e))

def nmgClusterSpec : OpSpec :=
  { opcode := 0x3802, plen := (· == 1), right := onlyT0
    parm := fun _ ps _ => need (within (par ps 0) 0xFF031F)
    exec := fun c s =>
      let w := par c.params 0
      let k := fld w 4 0
      if !bit w 8 && s.nmg.req.any (fun p => p.2.2.testBit k && (s.tenant p.1).st == .live) then .fail .busy s
      else
        let y : Cluster := { valid := bit w 8, member := bit w 9, rings := fld w 23 16 }
        .okay (nmgSettle true { s with nmg := { s.nmg with cluster := put s.nmg.cluster k y } }) }

/-- NMG_CLUSTER (R437). -/
def execNmgCluster (e : Stim) (r : Req) (s : State) : Host.Outcome State Fault Refusal :=
  .next (submit nmgClusterSpec r (s.advance e))

def nmgRequestSpec : OpSpec :=
  { opcode := 0x3803, plen := (· == 2)
    parm := fun _ ps s => need (within (par ps 0) 0x3FFF &&
      (setBits 32 (par ps 1).toNat).all (fun k => (s.cluster k).valid))
    exec := fun c s =>
      let q := ((par c.params 0).toNat, (par c.params 1).toNat)
      .okay (nmgSettle true { s with nmg := { s.nmg with req := put s.nmg.req c.tenant q } }) }

/-- NMG_REQUEST (R437): it replaces the tenant's previous request. -/
def execNmgRequest (e : Stim) (r : Req) (s : State) : Host.Outcome State Fault Refusal :=
  .next (submit nmgRequestSpec r (s.advance e))

def nmgStatusSpec : OpSpec :=
  { opcode := 0x3804, plen := (· == 1)
    parm := fun _ ps _ => need (within (par ps 0) 0xF && decide (fld (par ps 0) 3 0 < 14))
    exec := fun c s =>
      let r := fld (par c.params 0) 3 0
      let x := s.ring r
      .done .ok [wd (x.round * 2 ^ 24 + x.leader * 2 ^ 16 + x.node * 2 ^ 8 + b2n (s.consent r && x.st != .disabled) * 2 ^ 4 +
        x.st.code), wd x.members, wd (s.received r), wd (x.vetoes + x.badind * 2 ^ 16)] s }

/-- NMG_STATUS (R439). -/
def execNmgStatus (e : Stim) (r : Req) (s : State) : Host.Outcome State Fault Refusal :=
  .next (submit nmgStatusSpec r (s.advance e))

def nmgWakeConfigSpec : OpSpec :=
  { opcode := 0x3805, plen := (· == 2), right := onlyT0
    parm := fun _ ps _ => need (within (par ps 0) 0x0103FFFF && within (par ps 1) 0xFF)
    exec := fun c s =>
      .okay (nmgSettle true { s with nmg := { s.nmg with wake0 := par c.params 0, wake1 := par c.params 1 } }) }

/-- NMG_WAKE_CONFIG (R437). -/
def execNmgWakeConfig (e : Stim) (r : Req) (s : State) : Host.Outcome State Fault Refusal :=
  .next (submit nmgWakeConfigSpec r (s.advance e))

def nmgWakeCauseSpec : OpSpec :=
  { opcode := 0x3806, plen := (· == 0), free := fun _ => true
    exec := fun _ s => .done .ok (s.wakeWord :: timeWords s.nmg.causeAt) s }

/-- NMG_WAKE_CAUSE (R437). -/
def execNmgWakeCause (e : Stim) (r : Req) (s : State) : Host.Outcome State Fault Refusal :=
  .next (submit nmgWakeCauseSpec r (s.advance e))

end Sys2Proof.Machine
end

