-- ==== Sys2Proof/Machine/VaultCore.lean ====
section
/-!
DEFINITION. Harts, seats and pairs (15 R441, R447), the Vault's gate return and mailbox slots (16 R491, R494), and the
beginning of a Vault restart (16 R501, R502).
-/

namespace Sys2Proof.Machine

/-! ### Harts and pairs -/

def State.hart (s : State) (h : Nat) : Hart := look {} s.cpu.hart h
def State.setHart (s : State) (h : Nat) (x : Hart) : State := { s with cpu := { s.cpu with hart := put s.cpu.hart h x } }
def State.pair (s : State) (p : Nat) : Pair := look {} s.cpu.pair p
def State.setPair (s : State) (p : Nat) (x : Pair) : State := { s with cpu := { s.cpu with pair := put s.cpu.pair p x } }

/-- The integer register r of a hart. -/
def Hart.reg (h : Hart) (r : Nat) : BitVec 64 := look 0 h.x r

/-- The hart with an integer register set. -/
def Hart.setReg (h : Hart) (r : Nat) (v : BitVec 64) : Hart := { h with x := put h.x r v }

/-- KIND and SEAT of a partition block (R447). -/
def blkKind (b : List Word) : Nat := fld (par b 0) 9 8
def blkSeat (b : List Word) : Nat := fld (par b 0) 15 12
def blkFailop (b : List Word) : Bool := bit (par b 0) 16
def blkEntry (b : List Word) : Nat := (par b 1).toNat + fld (par b 2) 7 0 * 2 ^ 32

/-- Lockstep pairs of a seat; performance cores; harts as software sees them (R441, R442). -/
def seatPairs (b : List Word) : List Nat :=
  if blkKind b = 0 then [blkSeat b] else if blkKind b = 1 then [2 * blkSeat b, 2 * blkSeat b + 1] else []
def seatPcs (b : List Word) : List Nat := if blkKind b = 2 then setBits 4 (blkSeat b) else []
def seatHarts (b : List Word) : List Nat :=
  if blkKind b = 0 then [blkSeat b] else if blkKind b = 1 then [2 * blkSeat b] else (seatPcs b).map (· + 4)

/-- The block of a partition, empty without one. -/
def State.blk (s : State) (p : Nat) : List Word := ((s.part p).block).getD []

/-- A partition is configured. -/
def State.confd (s : State) (p : Nat) : Bool := ((s.part p).block).isSome

/-- The partition on whose seat a hart executes. -/
def State.partOfHart (s : State) (h : Nat) : Option Nat :=
  (List.range 8).find? (fun p => s.confd p && (seatHarts (s.blk p)).contains h)

/-- State of a partition's gate. -/
def State.partState (s : State) (p : Nat) : GateState := (s.gate (.part p)).st

/-- The other pair of a quad. -/
def partner (p : Nat) : Nat := if p % 2 = 0 then p + 1 else p - 1

/-- Tenants that learn of a partition's events: T0 and the bound tenant. -/
def State.partWatch (s : State) (p : Nat) : List Nat := 0 :: (s.boundTen p).toList

/-! ### Refused accesses of harts (15 R452) -/

/-- The partition whose requester writes. -/
def partOfReq (who : Nat) : Option Nat := if 0x100 ≤ who ∧ who < 0x108 then some (who - 0x100) else none

/-- A hart takes an exception, cause code and the address or CSR concerned, in HS-mode: sepc, scause, stval, sstatus.SPP
and SPIE save what was, SIE clears, and the hart goes on at stvec (PRESUMED, the RISC-V privileged architecture; log 31). -/
def takeExc (h cause v : Nat) (s : State) : State :=
  let x := s.hart h
  let st := look 0 x.csr 0x100
  let sie := st.getLsbD 1
  let st1 := (st &&& ~~~ (0x122 : BitVec 64)) ||| BitVec.ofNat 64 (b2n sie * 2 ^ 5 + (if x.priv = 0 then 0 else 2 ^ 8))
  let hst := look 0 x.csr 0x600
  let hst1 := (hst &&& ~~~ (0x80 : BitVec 64)) ||| BitVec.ofNat 64 (b2n x.virt * 2 ^ 7)
  let c1 := put (put x.csr 0x141 x.pc) 0x142 (BitVec.ofNat 64 cause)
  let c2 := put (put (put c1 0x143 (BitVec.ofNat 64 v)) 0x100 st1) 0x600 hst1
  s.setHart h { x with exc := some (cause, v), csr := c2, pc := look 0 x.csr 0x105 &&& ~~~ (3 : BitVec 64), priv := 1, virt := false }

/-! ### Splitting a pair (15 R465, R467) -/

/-- The command that waits for a resync ends. -/
def resyncCmd (p : Nat) (st : Status) (s : State) : State :=
  match (s.pair p).cmd with
  | some id => finishCmd id st [] (s.setPair p { s.pair p with cmd := none })
  | none => s

/-- The end of a resync is posted (R480). -/
def resyncNote (p : Nat) (ok : Bool) (s : State) : State :=
  let x := s.pair p
  noticeAll (s.partWatch x.part) 0x4002 [wd (p + b2n ok * 2 ^ 8), wd ((s.clk - x.tripAt) / 1000)] s

/-- A resync of a pair is abandoned: the pair takes a role, and the end is posted (R465). -/
def resyncAbandon (p : Nat) (role : Role) (s : State) : State :=
  if (s.pair p).role = .resync then
    let s1 := resyncNote p false s
    resyncCmd p .internal (s1.setPair p { s1.pair p with role := role })
  else s

/-- A pair, or the running pair of its quad, splits with its first core halted: a spare is removed first, a resync is
abandoned. -/
def pairSplit (q : Nat) (s : State) : State :=
  let run := if (s.pair q).role = .spare ∨ (s.pair q).role = .resync then partner q else q
  let quad := blkKind (s.blk (s.pair run).part) == 1
  let s1 := if quad then
      let s2 := resyncAbandon (partner run) .idle s
      if (s2.pair (partner run)).role = .spare then s2.setPair (partner run) { s2.pair (partner run) with role := .idle } else s2
    else s
  let s3 := s1.setPair run { s1.pair run with role := .split, halted := true }
  let h := if quad then run - run % 2 else run
  logNotice [0] 0xFF 0x4003 [wd (run + 2 ^ 8)] (s3.setHart h { s3.hart h with run := false })

/-- A pair that can split: it runs a partition in lockstep. -/
def State.splits (s : State) (q : Nat) : Bool :=
  let r := (s.pair q).role
  r == .single || r == .primary || r == .alone || r == .spare || r == .resync

/-- The hart behind a lockstep pair's number: a quad's is that of its even pair (R442). -/
def State.debugHart (s : State) (h : Nat) : Nat :=
  if h < 4 ∧ blkKind (s.blk (s.pair h).part) = 1 then h - h % 2 else h

/-- A debug halt is taken: a lockstep pair splits, a split pair's first core and a performance core halt (R467). -/
def debugHalt (h : Nat) (s : State) : State :=
  if 4 ≤ h then s.setHart h { s.hart h with run := false }
  else if s.splits h then pairSplit h s
  else if (s.pair h).role = .split then
    let k := s.debugHart h
    (s.setPair h { s.pair h with halted := true }).setHart k { s.hart k with run := false }
  else s

/-- The Vault has taken a hart from its partition: it serves a slot on VHOME, or it restarts there (16 R495, R503). -/
def State.preempted (s : State) (h : Nat) : Bool :=
  decide (h < 4) && (s.vlt.serving.isSome || s.vlt.mode == .restarting) && s.debugHart s.vlt.home == h

/-- A hart executes for its partition. -/
def State.hartRuns (s : State) (h : Nat) : Bool := (s.hart h).run && !s.preempted h

/-! ### Gate return (16 R491) -/

/-- A gate return: every saved register is restored, but a0 and a1 carry the result; a debug halt that waited is taken
(R492). -/
def gateReturn (h status w0 w1 w2 : Nat) (s : State) : State :=
  let x := s.hart h
  match x.gate with
  | none => s
  | some g =>
    let y := { x with x := g.x, f := g.f, fcsr := g.fcsr, pc := g.pc, gate := none, haltPend := false }
    let s1 := s.setHart h
      ((y.setReg 10 (BitVec.ofNat 64 (status + w0 * 2 ^ 32))).setReg 11 (BitVec.ofNat 64 (w1 + w2 * 2 ^ 32)))
    if x.haltPend then debugHalt h s1 else s1

/-- Every hart in a gate call returns with a status and no result. -/
def gatesOut (status : Nat) (s : State) : State := (List.range 4).foldl (fun s h => gateReturn h status 0 0 0 s) s

/-! ### Mailbox slots (16 R493, R494) -/

def State.slot (s : State) (n : Nat) : MbSlot := look {} s.vlt.mb n
def State.setSlot (s : State) (n : Nat) (x : MbSlot) : State := { s with vlt := { s.vlt with mb := put s.vlt.mb n x } }

/-- A status from its code. -/
def statusOf (c : Nat) : Status :=
  if c = 0 then .ok else if c = 0x100 then .badOpcode else if c = 0x101 then .badParam else if c = 0x200 then .denied else if c = 0x202 then .lifecycle
  else if c = 0x300 then .busy else if c = 0x403 then .vaultRestarted else if c = 0x601 then .authFail else .internal

/-- A slot's call ends: a partition's slot becomes DONE and identity 3 is delivered; Teller's command completes and its
slot is free again (R494, R496). -/
def slotDone (n status : Nat) (res : List Word) (out : List Byte) (s : State) : State :=
  let x := s.slot n
  match x.cmd with
  | some id =>
    let s1 := s.setSlot n {}
    finishCmd id (statusOf status) (if status = 0 then res ++ wordsPad out else []) s1
  | none =>
    let s1 := s.setSlot n { x with st := .done, status := status, res := if status = 0 then res else [0, 0, 0] }
    match x.part with
    | some p => deliverPart p 3 s1
    | none => s1

/-- Service time charged at the end of a call that began at from_: what lies beyond VBUDGET in a window is charged to the
next one (R495). -/
def State.servedBy (s : State) (from_ : Nat) : Nat :=
  let a := from_ / 10000000
  let b := s.clk / 10000000
  if a = b then s.vlt.used + (s.clk - from_)
  else
    let z := (a + 1) * 10000000
    let first := s.vlt.used + (z - from_) - s.vlt.budget * 1000
    first + (s.clk - z) - (b - a - 1) * (s.vlt.budget * 1000)

/-- The service in progress, if any, ends and is charged (R495). -/
def serviceEnd (s : State) : State :=
  match s.vlt.serving with
  | some (_, t) => { s with vlt := { s.vlt with serving := none, used := s.servedBy t, win := s.clk / 10000000 } }
  | none => s

/-- Every POSTED and RUNNING slot ends with a status, and so do Teller's commands that wait for a slot. -/
def slotsOut (status : Nat) (s0 : State) : State :=
  let s := serviceEnd s0
  let s1 := (List.range 64).foldl (fun s n =>
    if (s.slot n).st = .posted ∨ (s.slot n).st = .running then slotDone n status [] [] s else s) s
  let ids := s1.vlt.waiting
  finishAll ids (statusOf status) { s1 with vlt := { s1.vlt with waiting := [] } }

/-! ### Restart (16 R501 to R503) -/

/-- Zeroises the Vault's part of system SRAM and the tile SRAMs (R502 step 4). -/
def vaultZero (s : State) : State :=
  let s1 := s.clearMem 0x20000000 ((s.wm 0).level * 0x10000)
  (List.range 4).foldl (fun s n => s.clearMem (0x30000000 + 0x40000 * n) ((s.wm (3 + n)).level * 0x10000)) s1

/-- Destroys the volatile keys. -/
def dropVolatile (s : State) : State :=
  { s with vlt := { s.vlt with keys := s.vlt.keys.map (fun p => (p.1, p.2.filter (·.persist))) } }

/-- The call behind the fuses being written is abandoned: the write goes on (R511). -/
def fuseAlone (gone : Caller → Bool) (s : State) : State :=
  { s with vlt := { s.vlt with fuse := s.vlt.fuse.map (fun f => if gone f.caller then { f with caller := .gone } else f) } }

/-- A cause of R501 arises: the restart begins, or the Vault fails after three within 60 s. -/
def vaultRestartBegin (cause : Nat) (s : State) : State :=
  let v := s.vlt
  if v.mode = .failed ∨ v.mode = .retired ∨ v.mode = .restarting then s
  else
    let recent := v.starts.filter (fun t => decide (s.clk ≤ t + 60000000000))
    if 3 ≤ (recent.filter (fun t => decide (t < s.clk))).length then
      let s0 := fuseAlone (fun _ => true) s
      let s1 := { s0 with vlt := { s0.vlt with mode := .failed, nonce := none } }
      logObj 0x48 0xFF 0 cause 0 (slotsOut 0xFFFF (gatesOut 0xFFFF s1))
    else
      let s0 := fuseAlone (fun _ => true) s
      let v1 := { s0.vlt with mode := .restarting, cause := cause, restarts := satInc 255 v.restarts
                              starts := s.clk :: recent, since := s.clk, nonce := none }
      let s1 := { s0 with vlt := v1 }
      vaultZero (dropVolatile (slotsOut 0x403 (gatesOut 0x403 s1)))

/-! ### Accesses that a window ignores (15 R452) -/

/-- A hart's access that is ignored and reads as 0, with the mark, group and tenant of its record: any in a spill region
(03 R76); a fetch from a doorbell page, or an access to one not its tenant's (03 R80); in a controller's window (12 R378) and
in a mailbox slot (16 R493), any but the owner's load or store of 32 bits at an aligned address. -/
def State.quiet (s : State) (h a : Nat) (acc : Access) : Option (Nat × Nat × Nat) :=
  match s.partOfHart h with
  | none => none
  | some p =>
    let own := s.boundTen p
    if 0x20000000 ≤ a ∧ a < 0x21000000 then (s.spillAt a).map (fun t => (5, 0x02, t))
    else if 0x40000000 ≤ a ∧ a < 0x40020000 then
      let t := (a - 0x40000000) / 0x1000
      if acc.kind < 2 ∧ (own = some t ∨ (acc.kind = 0 ∧ own = some 0)) then none else some (1, 0x02, t)
    else if 0x70000000 ≤ a ∧ a < 0x700C0000 then
      let t := (s.canc ((a - 0x70000000) / 0x10000)).owner
      if own = some t ∧ a % 4 = 0 ∧ acc.width = 32 ∧ acc.kind < 2 then none else some (2, 0x30, t)
    else if 0x60000000 ≤ a ∧ a < 0x60002000 then
      if (s.slot ((a - 0x60000000) / 0x80)).part = some p ∧ a % 4 = 0 ∧ acc.width = 32 ∧ acc.kind < 2 then none
      else some (4, 0x48, 0xFF)
    else none

/-- A refused access (R452): one that a window or a spill region ignores is recorded and reads as 0, which for a fetch is
no instruction (exception 2, DEDUCED, log 42); a misaligned LR, SC or AMO raises its address-misaligned exception (R443);
any other raises the hart's access fault, and the first of each second is recorded. -/
def refuseAccess (h a : Nat) (acc : Access) (s : State) : State :=
  let kind := acc.kind
  if acc.kind = 3 then takeExc h 4 a s
  else if acc.kind = 4 then takeExc h 6 a s
  else match s.quiet h a acc with
  | some (mark, group, t) =>
    let s1 := logFirst mark group t a s
    if kind = 0 then { s1 with rdata := [0] } else if kind = 1 then s1 else takeExc h 2 0 s1
  | none =>
    takeExc h (if kind = 0 then 5 else if kind = 1 then 7 else 1) a
      (logFirst 3 0x40 (((s.partOfHart h).bind s.boundTen).getD 0xFF) a s)

/-- The lowest hart of a partition takes the store access fault of a write that does not pass, and the first of each second
is recorded (15 R452). -/
def storeRefused (p addr width : Nat) (s : State) : State :=
  match seatHarts (s.blk p) with
  | h :: _ => refuseAccess h addr { kind := 1, width := width } s
  | [] => s

end Sys2Proof.Machine
end

