-- ==== Sys2Proof/Machine/ImgCore.lean ====
section
/-!
DEFINITION. Components of image relay (18 R546, R547, R569): their status word, state changes, slot switches and
reverts (R564, R565), as the parts that can fault them need these.
-/

namespace Sys2Proof.Machine

/-- STATE changes, posting IMG_STATE (R570). -/
def compTo (c : Nat) (st : ImgState) (s : State) : State :=
  let x := s.icomp c
  if x.st = st then s
  else
    let s1 := s.setIcomp c { x with st := st }
    notice 0 0x5801 [s1.imgWord0 c, 0] s1

/-- A page or address of the old bank moved into the new one (R547): old and new first addresses. -/
def rebaseAddr (old new a : Nat) : Nat := if old ≤ a ∧ a < old + 0x1000000 then a - old + new else a

/-- First address of an eMRAM bank. -/
def bankBase (b : Nat) : Nat := if b = 0 then 0x10000000 else 0x11000000

/-- A partition block with its ENTRY and eMRAM regions moved from one bank into the other. -/
def rebaseBlock (old new : Nat) (b : List Word) : List Word :=
  let e := rebaseAddr (bankBase old) (bankBase new) (blkEntry b)
  let n := fld (par b 0) 28 24
  b.zipIdx.map (fun p =>
    let i := p.2
    if i = 1 then wd e
    else if i = 2 then wd (e / 2 ^ 32)
    else if 3 ≤ i ∧ i < 3 + 2 * n ∧ i % 2 = 1 then wd (rebaseAddr (bankBase old) (bankBase new) (p.1.toNat * 0x1000) / 0x1000)
    else p.1)

/-- The component runs from the other slot from now on. -/
def switchSlot (c : Nat) (s : State) : State :=
  if compEmram c then
    let x := s.icomp c
    let new := 1 - x.bank
    let s1 := s.setIcomp c { x with bank := new }
    if c = 0 then { s1 with vlt := { s1.vlt with newImage := true } }
    else
      let p := c % 16
      s1.setPart p { s1.part p with block := (s1.part p).block.map (rebaseBlock x.bank new) }
  else s

/-- Teller pairs in service (19 R585). -/
def State.tellers (s : State) : List Nat := (List.range 4).filter (fun t => (look {} s.aud.teller t).inService)

/-- A channel is in an off window (R565). -/
def State.offWindow (s : State) (ch : Nat) : Bool := (s.chn ch).st.idle || (s.chn ch).st == .retryWait || (s.chn ch).st == .feedLost

/-- What makes a component change over to the image that is active now, from the slot that holds it (R565). -/
def changeOver (c : Nat) (s : State) : State :=
  let s1 := switchSlot c s
  if c = 0 then vaultRestartBegin 4 s1
  else if c = 0x10 then s1.setIcomp c { s1.icomp c with todo := s1.tellers }
  else if c / 16 = 2 then
    let p := c % 16
    match s1.partState p with
    | .run =>
      let s2 := gateStop (.part p) s1
      gateStart (.part p) (s2.setGate (.part p) { s2.gate (.part p) with deep := true })
    | .quiescing => s1.setGate (.part p) { s1.gate (.part p) with deep := true }
    | .stopped => gateStart (.part p) (s1.setPart p { s1.part p with keep := true })
    | _ => s1
  else if c / 16 = 3 then
    if (s1.gate (.port (c % 16))).st = .run then gateStart (.port (c % 16)) (gateStop (.port (c % 16)) s1) else s1
  else if c = 0x40 ∨ c = 0x41 then
    s1.setIcomp c { s1.icomp c with todo := (dieChans (c % 16)).filter (fun ch => !s1.offWindow ch) }
  else s1

/-- The change of a component is complete (R565). -/
def State.changed (s : State) (c : Nat) : Bool :=
  if c = 0 then s.vlt.mode == .running
  else if c = 0x10 then (s.icomp c).todo.isEmpty
  else if c / 16 = 2 then s.partState (c % 16) == .run || s.partState (c % 16) == .powerGated || s.partState (c % 16) == .clockGated
  else if c / 16 = 3 then s.portState (c % 16) != .quiescing && s.portState (c % 16) != .starting
  else if c = 0x40 ∨ c = 0x41 then (s.icomp c).todo.all s.offWindow
  else true

/-- A revert begins (R564): the previous image becomes active and confirmed, the failed one is discarded. -/
def revertBegin (c trigger : Nat) (s : State) : State :=
  let x := s.icomp c
  let v := x.active.version
  let s1 := compTo c .fallback (s.setIcomp c { x with active := x.prev.getD {}, prev := none, ready := none, run := 0
                                                      window := 0, resets := 0, revertAfter := none, atStart := false })
  let heard := 0 :: (if c / 16 = 2 then (s1.boundTen (c % 16)).toList else [])
  changeOver c (logNotice heard 0xFF 0x5803 [wd (c + trigger * 2 ^ 8), wd v, wd (v / 2 ^ 32)] s1)

/-- A revert asked for (R564): a component whose change has yet to end reverts when it has (R567). -/
def revertAsk (c trigger : Nat) (s : State) : State :=
  let x := s.icomp c
  if x.st = .trial then revertBegin c trigger s
  else if x.st = .activating then s.setIcomp c { x with revertAfter := some trigger }
  else s

/-- The trial of a component opens: IMG_ACTIVATE completes, and a revert asked for meanwhile follows (R561, R567). -/
def openTrial (c : Nat) (s : State) : State :=
  let x := s.icomp c
  let s1 := compTo c .trial (s.setIcomp c { x with run := 0, window := x.active.health * 60000000000, resets := 0
                                                   atStart := false, actCmds := [] })
  let s2 := finishAll x.actCmds .ok s1
  match x.revertAfter with
  | some t => revertBegin c t s2
  | none => s2

/-- A fault of a component (R564): a trial reverts, and a window that ends in the same cycle is recorded beside it
(R567); during a revert the fault is only recorded. -/
def trialFault (c : Nat) (s : State) : State :=
  let x := s.icomp c
  if x.st = .trial then revertBegin c 3 (if x.window ≤ x.run then logObj 0x58 0xFF 0 c 1 s else s)
  else if x.st = .fallback then logObj 0x58 0xFF 0 c 3 s
  else s

/-- A cause of a Vault restart (16 R501), with what it does to a Vault image on trial. -/
def vaultRestart (cause : Nat) (s : State) : State :=
  let s1 := vaultRestartBegin cause s
  if cause = 1 ∨ cause = 2 then trialFault 0 s1 else s1

end Sys2Proof.Machine
end

