-- ==== Sys2Proof/Machine/Cpu.lean ====
section
/-!
DEFINITION. The compute tiles (15): partitions, lockstep pairs and quads, debugging, memories' errors, and the CPU
commands. Log entry 31.
-/

namespace Sys2Proof.Machine

/-! ### Partition blocks (R447, R448) -/

/-- CHECK of a partition block. -/
def partCheckOk (b : List Word) : Bool :=
  let n := b.length - 1
  crc16 (wordBytes (b.take n)) == fld (par b n) 15 0

/-- Cores of a seat: lockstep pairs as 0 to 3, performance cores as 4 to 7. -/
def seatCores (b : List Word) : List Nat := seatPairs b ++ (seatPcs b).map (· + 4)

/-- Order 4 of R448. -/
def partRangeOk (b : List Word) : Bool :=
  let n := fld (par b 0) 28 24
  let k := blkKind b
  let seat := blkSeat b
  within (par b 0) 0x1F03F307 && decide (n ≤ 16) && decide (k ≤ 2) &&
  (if k = 0 then decide (seat ≤ 3) else if k = 1 then decide (seat ≤ 1) else seat != 0) &&
  (!blkFailop b || k == 1) && within (par b 2) 0xFF && within (par b (3 + 2 * n)) 0xFFFF &&
  (List.range n).all (fun r => within (par b (3 + 2 * r)) 0x0FFFFFFF && within (par b (4 + 2 * r)) 0x07FFFFFF &&
    fld (par b (4 + 2 * r)) 23 0 != 0)

/-- A range lies inside one memory. -/
def insideOf (base size a n : Nat) : Bool := decide (base ≤ a) && decide (a + n ≤ base + size)

/-- Order 5 of R448. -/
def regionOk (r : Nat × Nat × Nat) : Bool :=
  r.2.2 != 0 && (insideOf 0x20000000 0x1000000 r.1 r.2.1 ||
    (!r.2.2.testBit 1 && (insideOf 0x10000000 0x1000000 r.1 r.2.1 || insideOf 0x11000000 0x1000000 r.1 r.2.1)))

/-- Order 6 of R448. -/
def entryOk (b : List Word) : Bool :=
  blkEntry b % 2 == 0 && (blockRegions b).any (fun r => r.2.2.testBit 2 && decide (r.1 ≤ blkEntry b) &&
    decide (blkEntry b < r.1 + r.2.1))

/-- Order 7 of R448: a core of the seat belongs to another configured partition. -/
def State.seatTaken (s : State) (b : List Word) : Bool :=
  (List.range 8).any (fun p => p != fld (par b 0) 2 0 && s.confd p &&
    (seatCores (s.blk p)).any (fun c => (seatCores b).contains c))

/-- A partition that may be configured or is as good as off. -/
def State.partOff (s : State) (p : Nat) : Bool := s.partState p == .powerGated || s.partState p == .stopped

/-- A stopped partition leaves its seat when a new block places it elsewhere: the pairs are IDLE, and there is no tile
SRAM to keep (DEDUCED, log 31). -/
def leaveSeat (p : Nat) (b : List Word) (s : State) : State :=
  let old := s.blk p
  if !s.confd p || (blkKind old == blkKind b && blkSeat old == blkSeat b) then s
  else
    let s1 := (seatPairs old).foldl (fun s q =>
      if (s.pair q).part = p then s.setPair q { s.pair q with role := .idle, part := 15, halted := false } else s) s
    s1.setPart p { s1.part p with keep := false }

/-- Orders 4 to 6 of R448, and 16 R488. -/
def State.partBlockOk (s : State) (b : List Word) : Bool :=
  partRangeOk b && (blockRegions b).all regionOk && entryOk b && (blockRegions b).all (fun r => s.clearOfVault r.1 r.2.1)

/-- CPU_PART_CONFIG. BUSY (order 3) is found at execution; orders 4 to 6 are tested at the dispatch of a command whose
partition is off then (02 R54), and again at its execution. -/
def cpuPartConfigSpec : OpSpec :=
  { opcode := 0x4001, plen := fun n => decide (4 ≤ n) && decide (n ≤ 66) && n % 2 == 0
    plenP := fun ps => ps.length == 4 + 2 * fld (par ps 0) 28 24
    right := onlyT0
    parm := fun _ ps s =>
      if !partCheckOk ps then some .badCheck
      else need (!s.partOff (fld (par ps 0) 2 0) || s.partBlockOk ps)
    exec := fun c s =>
      let ps := c.params
      let p := fld (par ps 0) 2 0
      if !s.partOff p then .fail .busy s
      else if !s.partBlockOk ps then .fail .badParam s
      else if s.seatTaken ps then .fail .busy s
      else .okay ((leaveSeat p ps s).setPart p { (leaveSeat p ps s).part p with block := some ps }) }

/-! ### Starting and stopping (R449, R450) -/

/-- A pair's blocks passed the audit in force (19 R584). -/
def State.pairOk (s : State) (p : Nat) : Bool := !s.blkFail (16 + p) && !s.blkFail (26 + p)

/-- A partition's seat can start: no failed core, but for one pair of a quad (19 R584). -/
def State.seatOk (s : State) (b : List Word) : Bool :=
  (if blkKind b = 1 then (seatPairs b).any s.pairOk else (seatPairs b).all s.pairOk) &&
  (seatPcs b).all (fun n => !s.blkFail (30 + n))

/-- A block of a partition's seat is under test: its start is held until then (19 R576). -/
def State.seatTested (s : State) (b : List Word) : Bool :=
  (seatPairs b).any (fun q => s.testing (16 + q) || s.testing (26 + q)) || (seatPcs b).any (fun n => s.testing (30 + n))

/-- Holds the harts of a partition; a gate call in progress is abandoned without a return (16 R492). -/
def holdHarts (p : Nat) (s : State) : State :=
  (seatHarts (s.blk p)).foldl (fun s h =>
    (fuseAlone (· == .hart h) s).setHart h { s.hart h with run := false, gate := none, haltPend := false }) s

/-- A partition's shut-down to the power gate loses its contents: its pairs are IDLE again (R450, R478). -/
def partLose (p : Nat) (s : State) : State :=
  let b := s.blk p
  let s1 := (seatPairs b).foldl (fun s q => s.setPair q { s.pair q with role := .idle, part := 15, halted := false }) s
  (seatHarts b).foldl (fun s h => s.setHart h {}) s1

/-- A partition whose shut-down is forced is reset: it starts from its reset state after a clock gate too (01 R25, R31). -/
def partForced (p : Nat) (s : State) : State :=
  (partLose p s).setPart p { s.part p with wiped := true, keep := false }

/-- The gate of a partition is applied. -/
def partGated (p : Nat) (s : State) : State := gateApply (.part p) (partLose p) (holdHarts p s)

def partIx (ps : List Word) : Nat := fld (par ps 0) 2 0

/-- A disable begins: calls and resyncs are abandoned (R465, 16 R492). -/
def partDisable (p : Nat) (deep : Bool) (id : Nat) (s : State) : Ans :=
  let s1 := if s.partState p = .run then
      holdHarts p ((seatPairs (s.blk p)).foldl (fun s q => resyncAbandon q .idle s) s)
    else s
  gateDisable (.part p) deep id (partLose p) s1

def cpuPartCtlSpec : OpSpec :=
  { opcode := 0x4002, plen := (· == 1), right := onlyT0, isl := some 0
    parm := fun _ ps s => need (within (par ps 0) 0x307 && decide (fld (par ps 0) 9 8 ≤ 2) && s.confd (partIx ps))
    exec := fun c s =>
      let p := partIx c.params
      let a := fld (par c.params 0) 9 8
      if a = 0 then
        if !s.seatOk (s.blk p) then .fail .busy s
        else gateEnable (.part p) c.id (if s.partState p = .starting then s
          else s.setPart p { s.part p with keep := s.partState p == .stopped })
      else partDisable p (a == 2) c.id s }

/-- First address of a tile SRAM. -/
def tileBase (n : Nat) : Nat := 0x30000000 + 0x40000 * n

/-- Copies one tile SRAM into another. -/
def tileCopy (src dst : Nat) (s : State) : State :=
  let old := s.mem.filter (fun c => decide (tileBase src ≤ c.1) && decide (c.1 < tileBase src + 0x40000))
  old.foldl (fun s c => s.writeMem (c.1 - tileBase src + tileBase dst) [c.2]) (s.clearMem (tileBase dst) 0x40000)

/-- Roles of a seat's pairs at a start: from the power gate the even pair of a quad is PRIMARY and the odd one SPARE, a
failed one IDLE with the other ALONE; from the clock gate a pair left IDLE joins again (R461, R465, 19 R584). -/
def startRoles (p : Nat) (cold : Bool) (s : State) : State :=
  let b := s.blk p
  let set := fun q (r : Role) (s : State) => s.setPair q { s.pair q with role := r, part := p, halted := false }
  let set2 := fun q (r : Role) (s : State) => s.setPair q { s.pair q with role := r, part := p }
  match seatPairs b with
  | [q] => if cold then set q .single s else s
  | [a, o] =>
    if cold then
      if s.pairOk a && s.pairOk o then set o .spare (set a .primary s)
      else if s.pairOk a then set a .alone s
      else set o .alone s
    else if (s.pair a).role = .alone ∧ (s.pair o).role = .idle ∧ s.pairOk o then tileCopy a o (set2 o .spare (set2 a .primary s))
    else if (s.pair o).role = .alone ∧ (s.pair a).role = .idle ∧ s.pairOk a then tileCopy o a (set2 a .spare (set2 o .primary s))
    else s
  | _ => s

/-- Tile SRAM at a start: zeroed from the power gate; from STOPPED a quad's even tile is copied into its odd one (R449). -/
def startTiles (p : Nat) (s : State) : State :=
  match seatPairs (s.blk p) with
  | [a, o] => if (s.part p).keep then tileCopy a o s else (s.clearMem (tileBase a) 0x40000).clearMem (tileBase o) 0x40000
  | [q] => if (s.part p).keep then s else s.clearMem (tileBase q) 0x40000
  | _ => s

/-- A hart begins at ENTRY in HS-mode, a0 its mhartid and a1 the partition (R449). -/
def startHart (p h : Nat) (s : State) : State :=
  let x := s.hart h
  let y := (x.setReg 10 (BitVec.ofNat 64 h)).setReg 11 (BitVec.ofNat 64 p)
  s.setHart h { y with pc := BitVec.ofNat 64 (blkEntry (s.blk p)), priv := 1, virt := false, run := true, gate := none
                       exc := none, haltPend := false }

/-- A partition reaches RUN. -/
def partStart (p : Nat) (s : State) : State :=
  let b := s.blk p
  let cold := (s.gate (.part p)).cold || (s.part p).wiped
  let s1 := if cold then startTiles p s else s
  let s2 := (seatHarts b).foldl (fun s h =>
    if cold then startHart p h s else s.setHart h { s.hart h with run := true }) s1
  let s3 := startRoles p cold s2
  let s4 := gateRun (.part p) (s3.setPart p { s3.part p with keep := false, wiped := false, force := (s3.part p).block })
  let s5 := if s4.partState p = .quiescing then holdHarts p s4 else s4
  if (s5.icomp (0x20 + p)).atStart then openTrial (0x20 + p) s5 else s5

/-- PARTITION_START (R449). -/
def execPartitionStart (e : Stim) (p : Nat) (s : State) : Host.Outcome State Fault Refusal :=
  event e s (fun s => decide (p < 8) && s.confd p && s.running 0 && s.partState p == .starting && s.seatOk (s.blk p) &&
      !s.seatTested (s.blk p)) (partStart p)

/-- A partition becomes STOPPED (R451, R460): its harts are held, its tenant faults, its image's trial ends. -/
def partStop (p cause : Nat) (s : State) : State :=
  let x := s.part p
  let s1 := (seatPairs (s.blk p)).foldl (fun s q =>
    let s2 := resyncAbandon q .stopped s
    if (s2.pair q).role = .idle then s2 else s2.setPair q { s2.pair q with role := .stopped, halted := false }) (holdHarts p s)
  let g := s1.gate (.part p)
  let st : GateState := if g.rePend || g.st == .starting then .starting else .stopped
  let g1 := { g with st := st, rePend := false, disCmds := [], deep := false, cold := true, since := s.clk }
  let s3 := finishAll g.disCmds .ok (s1.setGate (.part p) g1)
  let s4 := s3.setPart p { x with stops := satInc 255 x.stops, stopCause := cause, keep := true }
  let s5 := noticeAll (s4.partWatch p) 0x4005 [wd (p + cause * 2 ^ 8)] s4
  let s6 := match s5.boundTen p with
    | some t => tenFault t 1 s5
    | none => s5
  trialFault (0x20 + p) s6

/-! ### Trips (R457 to R465) -/

/-- A trip is posted and recorded (R460, R462, R480). -/
def tripNote (q cause outcome : Nat) (s : State) : State :=
  let p := (s.pair q).part
  logNotice (s.partWatch p) ((s.boundTen p).getD 0xFF) 0x4001 [wd (q + cause * 2 ^ 8 + p * 2 ^ 16), wd outcome] s

/-- A pair leaves its quad for a resync, or for good when it trips within 1 s of its last one (R462, R464). -/
def pairOut (q : Nat) (s : State) : State :=
  let x := s.pair q
  let again := x.resyncEnd.any (fun t => decide (s.clk < t + 1000000000))
  let y := s.pair (partner q)
  (s.setPair q { x with role := if again then .stopped else .resync, tripAt := s.clk }).setPair (partner q)
    { y with role := .alone }

/-- A comparator trips with a cause. -/
def pairTrip (q cause : Nat) (s : State) : State :=
  let x := s.pair q
  let s1 := s.setPair q { x with diverges := satInc 255 x.diverges, cause := cause }
  let spare := (s.pair (partner q)).role == .spare && (s.pair (partner q)).part == x.part
  match x.role with
  | .single | .alone => partStop x.part cause (tripNote q cause 1 s1)
  | .primary =>
    if spare then
      let s2 := pairOut q (tripNote q cause 2 s1)
      s2.setPart x.part { s2.part x.part with switchovers := satInc 0xFFFF (s2.part x.part).switchovers }
    else partStop x.part cause (tripNote q cause 1 s1)
  | .spare => pairOut q (tripNote q cause 3 s1)
  | .resync => resyncAbandon q .stopped s1
  | _ => s

/-- Both pairs of a quad trip in one cycle (R465): the partition stops by R460. -/
def quadTrip (q cause : Nat) (s : State) : State :=
  let one := fun (q : Nat) (s : State) =>
    tripNote q cause 1 (s.setPair q { s.pair q with diverges := satInc 255 (s.pair q).diverges, cause := cause })
  partStop (s.pair q).part cause (one (partner q) (one q s))

/-- A pair's cores execute: its partition runs, or quiesces. -/
def State.pairLive (s : State) (q : Nat) : Bool :=
  s.partState (s.pair q).part == .run || s.partState (s.pair q).part == .quiescing

/-- Both pairs of a quad run in lockstep, the one checking the other's place. -/
def State.pairBoth (s : State) (q : Nat) : Bool :=
  let a := (s.pair q).role
  let b := (s.pair (partner q)).role
  (a == .primary && b == .spare) || (a == .spare && b == .primary)

/-- COMPARATOR_TRIP (R457): COMPARE, DELAY or CHECKER; ARRIVAL of a spare (R461); of both pairs at once (R465). -/
def execComparatorTrip (e : Stim) (trip : TripRef) (cause : Nat) (s : State) : Host.Outcome State Fault Refusal :=
  event e s (fun s => decide (trip.pair < 4) && s.running 0 && s.pairLive trip.pair &&
    (cause == 1 || cause == 2 || cause == 3 || (cause == 5 && !trip.both && (s.pair trip.pair).role == .spare)) &&
    (!trip.both || s.pairBoth trip.pair))
    (fun s => if trip.both then quadTrip trip.pair cause s else pairTrip trip.pair cause s)

/-- A pair under the tests of R458 and R459. -/
def State.tested (s : State) (q : Nat) : Bool :=
  let r := (s.pair q).role
  decide (q < 4) && s.running 0 && s.pairLive q && (r == .single || r == .primary || r == .spare || r == .alone)

/-- INJECTED_MISMATCH_TEST (R458): a lane that fails the test trips with CHECKER. -/
def execInjectedMismatchTest (e : Stim) (pair : Nat) (pass : Bool) (s : State) : Host.Outcome State Fault Refusal :=
  event e s (fun s => s.tested pair) (fun s => if pass then s else pairTrip pair 3 s)

/-- STATE_SIGNATURE_SWEEP (R459): unequal signatures trip with SWEEP. -/
def execStateSignatureSweep (e : Stim) (pair : Nat) (equal : Bool) (s : State) : Host.Outcome State Fault Refusal :=
  event e s (fun s => s.tested pair) (fun s => if equal then s else pairTrip pair 4 s)

/-- The end of a resync (R463, R464): the pair joins as SPARE, or it tripped with a cause and stops. -/
def handover (q cause : Nat) (s : State) : State :=
  if cause = 0 then
    let x := s.pair q
    let r := (s.pair (partner q)).role
    let s1 := s.setPair q { x with role := .spare, resyncEnd := some s.clk }
    let s2 := if r = .alone then s1.setPair (partner q) { s1.pair (partner q) with role := .primary } else s1
    resyncCmd q .ok (resyncNote q true s2)
  else resyncAbandon q .stopped (s.setPair q { s.pair q with diverges := satInc 255 (s.pair q).diverges, cause := cause })

/-- RESYNC_HANDOVER (R463): with the running pair's tile SRAM; a cause other than 0 is that of a trip of the pair. -/
def execResyncHandover (e : Stim) (pair : Nat) (cause : Nat) (s : State) : Host.Outcome State Fault Refusal :=
  event e s (fun s => decide (pair < 4) && s.running 0 && decide (cause ≤ 4) && (s.pair pair).role == .resync)
    (fun s => handover pair cause (if cause = 0 then tileCopy (partner pair) pair s else s))

/-- CORE_STORAGE_ERROR (R451): an uncorrectable error in a performance core's own storage. -/
def execCoreStorageError (e : Stim) (pc : Nat) (s : State) : Host.Outcome State Fault Refusal :=
  event e s (fun s => decide (pc < 4) && (s.partOfHart (4 + pc)).any (fun p =>
    s.partState p == .run || s.partState p == .quiescing))
    (fun s => match s.partOfHart (4 + pc) with
      | some p => partStop p 7 s
      | none => s)

/-! ### Debugging (R467, R468) -/

/-- The halted first core's state is copied back and the pair compares again; a removed spare is resynchronised. -/
def pairJoin (q : Nat) (s : State) : State :=
  let quad := blkKind (s.blk (s.pair q).part) == 1
  let o := s.pair (partner q)
  let rejoin := quad && o.role == .idle && s.pairOk (partner q)
  let role : Role := if !quad then .single else if rejoin then .primary else .alone
  let s1 := s.setPair q { s.pair q with role := role, halted := false }
  let s2 := if rejoin then
      s1.setPair (partner q) { o with role := .resync, tripAt := s.clk, part := (s.pair q).part }
    else s1
  let h := if quad then q - q % 2 else q
  notice 0 0x4003 [wd q] (s2.setHart h { s2.hart h with run := s.partState (s.pair q).part == .run })

/-- Life-cycle states that permit CPU_DEBUG, CPU_INJECT, VLT_RESTART and TST_AUDIT_RUN (R476). -/
def lifeOpen (l : LifeCycle) : Bool := l == .manufacture || l == .service || l == .ret

def pairIx (ps : List Word) : Nat := fld (par ps 0) 1 0

def cpuDebugSpec : OpSpec :=
  { opcode := 0x4005, plen := (· == 1), right := onlyT0, life := lifeOpen, isl := some 0
    parm := fun _ ps _ => need (within (par ps 0) 0x103)
    exec := fun c s =>
      let q := pairIx c.params
      if bit (par c.params 0) 8 then
        if (s.pair q).role = .split ∧ (s.pair q).halted then .okay (pairJoin q s) else .fail .busy s
      else if s.splits q then .okay (pairSplit q s)
      else .fail .busy s }

/-- CPU_DEBUG (R467, R468). -/
def execCpuDebug (e : Stim) (r : Req) (s : State) : Host.Outcome State Fault Refusal :=
  .next (submit cpuDebugSpec r (s.advance e))

/-- The debugger lets a halted core run again: a split pair's first core (R467), or a performance core. -/
def debugGo (h : Nat) (s : State) : State :=
  if h < 4 then
    let p := (s.pair h).part
    if (s.pair h).role = .split ∧ (s.pair h).halted then
      let k := s.debugHart h
      (s.setPair h { s.pair h with halted := false }).setHart k { s.hart k with run := s.partState p == .run }
    else s
  else s.setHart h { s.hart h with run := (s.partOfHart h).any (fun p => s.partState p == .run) }

/-- DEBUG_HALT_REQUEST (R467, 16 R492, R513): a session with HALT halts a hart, a lockstep pair splitting, or lets it run
again; during a gate call the halt is taken after the return unless the session's scope includes VAULTMEM. -/
def execDebugHaltRequest (e : Stim) (req : DebugReq) (s : State) : Host.Outcome State Fault Refusal :=
  event e s (fun s => decide (req.hart < 8) && s.running 0 && s.vlt.session.any (fun w => w.testBit 0))
    (fun s =>
      let k := s.debugHart req.hart
      if req.go then debugGo req.hart s
      else if (s.hart k).gate.isSome ∧ ¬ s.vlt.session.any (fun w => w.testBit 2) then
        s.setHart k { s.hart k with haltPend := true }
      else debugHalt req.hart s)

def cpuResyncSpec : OpSpec :=
  { opcode := 0x4006, plen := (· == 1), right := onlyT0, isl := some 0
    parm := fun _ ps _ => need (within (par ps 0) 0x3)
    exec := fun c s =>
      let q := pairIx c.params
      let x := s.pair q
      if x.role = .stopped ∧ (s.pair (partner q)).role = .alone ∧ (s.pair (partner q)).part = x.part then
        .accept (s.setPair q { x with role := .resync, tripAt := s.clk, cmd := some c.id })
      else .fail .busy s }

/-- CPU_RESYNC (R464, R476). -/
def execCpuResync (e : Stim) (r : Req) (s : State) : Host.Outcome State Fault Refusal :=
  .next (submit cpuResyncSpec r (s.advance e))

def cpuInjectSpec : OpSpec :=
  { opcode := 0x4007, plen := (· == 1), right := onlyT0, life := lifeOpen, isl := some 0
    parm := fun _ ps _ => need (within (par ps 0) 0x3)
    exec := fun c s =>
      let q := pairIx c.params
      let r := (s.pair q).role
      if r = .idle ∨ r = .split ∨ r = .stopped then .fail .busy s else .okay (pairTrip q 6 s) }

/-- CPU_INJECT (R476). -/
def execCpuInject (e : Stim) (r : Req) (s : State) : Host.Outcome State Fault Refusal :=
  .next (submit cpuInjectSpec r (s.advance e))

/-! ### Status (R477 to R479) -/

/-- The words of CPU_PART_STATUS. -/
def State.partWords (s : State) (p : Nat) : List Word :=
  let x := s.part p
  let b := s.blk p
  let t := s.boundTen p
  [wd ((0x100 + p) * 2 ^ 16 + blkSeat b * 2 ^ 12 + blkKind b * 2 ^ 10 + b2n x.block.isSome * 2 ^ 9 + b2n (blkFailop b) * 2 ^ 8 +
    (s.partState p).code * 2 ^ 4 + p),
   wd (x.switchovers * 2 ^ 16 + x.stops * 2 ^ 8 + b2n t.isSome * 2 ^ 7 + t.getD 0), wd x.stopCause]

def cpuPartStatusSpec : OpSpec :=
  { opcode := 0x4003, plen := (· == 1)
    right := fun t ps s => t == 0 || s.boundPart t == some (partIx ps)
    parm := fun _ ps _ => need (within (par ps 0) 0x7)
    exec := fun c s => .done .ok (s.partWords (partIx c.params)) s }

def Role.code : Role → Nat
  | .idle => 0 | .single => 1 | .primary => 2 | .spare => 3 | .alone => 4 | .resync => 5 | .split => 6 | .stopped => 7

/-- A word of CPU_PAIR_STATUS (R478). -/
def State.pairWord (s : State) (q : Nat) : Word :=
  let x := s.pair q
  wd (x.diverges * 2 ^ 24 + x.part * 2 ^ 16 + x.cause * 2 ^ 10 + x.role.code)

def cpuPairStatusSpec : OpSpec :=
  { opcode := 0x4004, plen := (· == 0), exec := fun _ s => .done .ok ((List.range 4).map s.pairWord) s }

/-- CPU_PAIR_STATUS (R478). -/
def execCpuPairStatus (e : Stim) (r : Req) (s : State) : Host.Outcome State Fault Refusal :=
  .next (submit cpuPairStatusSpec r (s.advance e))

/-- Spare rows of a system SRAM bank in use: those of R470 and the audits' (19 R580). -/
def State.spareRows (s : State) (m : Nat) : Nat := if m < 16 then (s.memCnt m).spares + look 0 s.aud.rows m else 0

def cpuMemStatusSpec : OpSpec :=
  { opcode := 0x4008, plen := (· == 1), right := fun t ps _ => t == 0 || !bit (par ps 0) 8
    parm := fun _ ps _ => need (within (par ps 0) 0x100)
    exec := fun c s =>
      let ws := (List.range 22).map (fun m =>
        wd (s.spareRows m * 2 ^ 28 + (s.memCnt m).unc * 2 ^ 16 + (s.memCnt m).corr))
      let s1 := if bit (par c.params 0) 8 then
          (List.range 22).foldl (fun s m => s.setMemCnt m { s.memCnt m with unc := 0, corr := 0 }) s
        else s
      .done .ok ws s1 }

/-- CPU_MEM_STATUS (R479). -/
def execCpuMemStatus (e : Stim) (r : Req) (s : State) : Host.Outcome State Fault Refusal :=
  .next (submit cpuMemStatusSpec r (s.advance e))

/-! ### Memory errors (R469 to R472) -/

/-- The address behind a hart's tile alias (R453). -/
def aliasAddr (h a : Nat) : Nat := if 0x30100000 ≤ a ∧ a < 0x30140000 ∧ h < 4 then tileBase h + (a - 0x30100000) else a

/-- Posts CPU_ECC to T0 and the holders of the CPU right (R480). -/
def eccNote (m flags a : Nat) (s : State) : State :=
  noticeAll (s.holders 14) 0x4004 [wd (m + flags * 2 ^ 8), wd a, wd (a / 2 ^ 32)] s

/-- The patrol corrects an error at a word: counted, and the row remapped at the second sweep in turn (R469, R470). -/
def patrolFix (m a : Nat) (s : State) : State :=
  let w := a / 8
  let sweep := s.clk / 2000000000
  let x := s.memCnt m
  let s1 := s.setMemCnt m { x with corr := satInc 0xFFFF x.corr }
  if sweep ≠ 0 ∧ find? s.cpu.swept w = some (sweep - 1) then
    if s.spareRows m < 8 then
      let s2 := s1.setMemCnt m { s1.memCnt m with spares := (s1.memCnt m).spares + 1 }
      let keep := s2.cpu.swept.filter (fun p => p.1 * 8 / 1024 != a / 1024)
      eccNote m 2 a { s2 with cpu := { s2.cpu with swept := keep } }
    else eccNote m 4 a { s1 with cpu := { s1.cpu with swept := put s1.cpu.swept w sweep } }
  else { s1 with cpu := { s1.cpu with swept := put s1.cpu.swept w sweep } }

/-- PATROL_READ (R469): kind 0 clean, 1 corrected, 2 uncorrectable. -/
def execPatrolRead (e : Stim) (addr kind : Nat) (s : State) : Host.Outcome State Fault Refusal :=
  event e s (fun s => s.running 1 && (memIndex addr).any (fun m => decide (m < 16)))
    (fun s => match memIndex addr with
      | some m => if kind = 1 then patrolFix m addr s else if kind = 2 then uncorrectable m addr s else s
      | none => s)

/-- UNCORRECTABLE_READ (R471, R472): the requester is a hart's load (0 to 7), its instruction fetch (8 to 15), or another
requester of the fabric (16). -/
def execUncorrectableRead (e : Stim) (who addr : Nat) (s : State) : Host.Outcome State Fault Refusal :=
  let a := if who < 16 then aliasAddr (who % 8) addr else addr
  event e s (fun s => decide (who ≤ 16) && (memIndex a).isSome && (who == 16 || s.hartRuns (who % 8)))
    (fun s => match memIndex a with
      | some m =>
        let s1 := uncorrectable m a s
        if who < 8 then takeExc who 5 addr s1 else if who < 16 then takeExc (who - 8) 1 addr s1 else s1
      | none => s)

/-! ### What a hart meets at the module's registers (R444, R445, R452) -/

/-- The requester identifier of a hart's partition, and PARTID (R445, R446). -/
def State.partId (s : State) (h : Nat) : Nat :=
  match s.partOfHart h with
  | some p => p + b2n (blkKind (s.blk p) == 1) * 2 ^ 8 + (0x100 + p) * 2 ^ 16
  | none => 0

/-- The time CSR, and mtime: the full Tally time modulo 2^64 (R444). -/
def State.timeCsr (s : State) : Nat := s.tim.full % 2 ^ 64

/-- The supervisor timer interrupt is pending: time has reached stimecmp, by an unsigned comparison, so a step back
withdraws it (R444). A stimecmp that nothing has written holds all ones (DESIGN CHOICE, log 31). -/
def State.timerPending (s : State) (h : Nat) : Bool :=
  decide ((look (BitVec.allOnes 64) (s.hart h).csr 0x14D).toNat ≤ s.timeCsr)

/-- What a hart reads in a CSR that the module gives its content: TALLY, TALLYEP, PARTID, time, and the timer's pending
bit in sip. -/
def State.csrRead (s : State) (h csr : Nat) : Option Nat :=
  if csr = 0xCC0 then some (s.now + s.tfr * 2 ^ 48)
  else if csr = 0xCC1 then some (s.hart h).tallyEp.toNat
  else if csr = 0xCC2 then some (s.partId h)
  else if csr = 0xC01 then some s.timeCsr
  else if csr = 0x144 then some (b2n (s.timerPending h) * 2 ^ 5)
  else none

/-- TALLY_READ (R444, R445): a hart reads a CSR; TALLYEP is latched with TALLY. -/
def execTallyRead (e : Stim) (rd : CsrRead) (s : State) : Host.Outcome State Fault Refusal :=
  event e s (fun s => decide (rd.hart < 8) && s.running 0 && s.hartRuns rd.hart && (s.csrRead rd.hart rd.csr).isSome)
    (fun s =>
      let v := (s.csrRead rd.hart rd.csr).getD 0
      let x := s.hart rd.hart
      let s1 := if rd.csr = 0xCC0 then
          s.setHart rd.hart { x with tally := BitVec.ofNat 64 v, tallyEp := BitVec.ofNat 64 (s.epoch + s.tim.steps * 2 ^ 32) }
        else s
      { s1 with rdata := [wd v, wd (v / 2 ^ 32)] })

/-- CSR_WRITE_TRAP (R445): a write of TALLY, TALLYEP or PARTID raises an illegal-instruction exception. -/
def execCsrWriteTrap (e : Stim) (hart csr : Nat) (s : State) : Host.Outcome State Fault Refusal :=
  event e s (fun s => decide (hart < 8) && s.running 0 && s.hartRuns hart && decide (0xCC0 ≤ csr) && decide (csr ≤ 0xCC2))
    (takeExc hart 2 csr)

/-- An address that a partition's hart reaches without a region (R452, R453, 16 R484, R489, R493). The doorbell pages,
the windows and the mailbox check loads and stores by rules of their own, and hold no code. -/
def State.windowOk (s : State) (h a kind : Nat) : Bool :=
  (decide (kind < 2) &&
    ((decide (0x40000000 ≤ a) && decide (a < 0x40020000)) || (decide (0x70000000 ≤ a) && decide (a < 0x700C0000)) ||
     (decide (0x50000000 ≤ a) && decide (a < 0x50002000)) || (decide (0x60000000 ≤ a) && decide (a < 0x60002000)))) ||
  (decide (h < 4) && decide (0x30100000 ≤ a) && decide (a < 0x30140000) && !s.vaultAddr (aliasAddr h a)) ||
  (decide (0x30000000 ≤ a) && decide (a < 0x30100000))

/-- A hart's access passes: a window, or a region with the permission above every watermark (R452, 16 R483). -/
def State.hartMay (s : State) (h a kind : Nat) : Bool :=
  match s.partOfHart h with
  | some p => s.windowOk h a kind || (s.inRegion p a 1 kind && !s.vaultAddr a)
  | none => false

/-- ACCESS_REFUSED (R443, R452, 03 R76, R80, 12 R378, 16 R493): a hart's access that does not pass. -/
def execAccessRefused (e : Stim) (who addr : Nat) (acc : Access) (s : State) : Host.Outcome State Fault Refusal :=
  event e s (fun s => decide (who < 8) && s.running 0 && s.hartRuns who && decide (acc.kind < 5) &&
    (if acc.kind < 3 then (s.quiet who addr acc).isSome || !s.hartMay who addr acc.kind
     else addr % (acc.width / 8) != 0 && (acc.width == 32 || acc.width == 64))) (refuseAccess who addr acc)

/-- ECALL (16 R482): from HS-mode it sets a0 to BAD_OPCODE and returns to the next instruction. -/
def execEcall (e : Stim) (hart : Nat) (s : State) : Host.Outcome State Fault Refusal :=
  event e s (fun s => decide (hart < 8) && s.running 0 && s.hartRuns hart && (s.hart hart).gate.isNone)
    (fun s =>
      let x := s.hart hart
      s.setHart hart { x.setReg 10 0x100 with pc := x.pc + 4 })

end Sys2Proof.Machine
end

