-- ==== Sys2Proof/Machine/CanTx.lean ====
section
/-!
DEFINITION. Transmission of the CAN controllers (12 R380 to R391): selection of a frame before each arbitration, the
outcomes of its transmission, error states, bus-off and the pause on lone; and what the gate of a controller or channel
does to it (R368, R380, R399). Log entry 27.
-/

namespace Sys2Proof.Machine

/-! ### Selection (R382) -/

/-- A transmit buffer whose header is malformed, in group g (R376). -/
def State.txBad (s : State) (n g b : Nat) : Bool := malformed (s.canHdr n b) ((s.canc n).dcap g)

/-- Pending priority buffers whose headers are malformed are reported (R376, R381). -/
def reportPri (n : Nat) (s : State) : State :=
  (setBits 32 (s.canc n).pend).foldl (fun s p =>
    let b := (s.canc n).bufNo 3 p
    if s.txBad n 3 b then priDone n p (txEvent n b 4 0 s) else s) s

/-- Malformed heads of the transmit FIFO are reported and leave it: at most k of them. -/
def reportFifo (n : Nat) : Nat → State → State
  | 0, s => s
  | k + 1, s =>
    let x := s.canc n
    let b := x.bufNo 2 x.txHead
    if x.txFill = 0 ∨ !s.txBad n 2 b then s else reportFifo n k (fifoNext n (txEvent n b 4 0 s))

/-- A head of the gateway queue outside [source stamp, source stamp + GAGE) (13 R406). -/
def State.aged (s : State) (gage : Nat) (g : GwFrame) : Bool :=
  decide (s.tim.full < g.stamp) || decide (g.stamp + gage * 1000000 ≤ s.tim.full)

/-- Heads of the gateway queue past their age are discarded and counted in AGED. -/
def ageQueue (n : Nat) (s : State) : State :=
  let x := s.canc n
  let keep := x.gq.dropWhile (s.aged x.gage)
  s.setCan n { x with gq := keep, aged := satAdd 0xFFFF x.aged (x.gq.length - keep.length) }

/-- The candidates, in the order that decides between equal arbitration fields: dedicated buffers by number, the gateway
queue's head, the transmit FIFO's head. -/
def State.candidates (s : State) (n : Nat) : List CanTx :=
  let x := s.canc n
  let at_ := s.tim.full
  (setBits 32 x.pend).map (fun p => { src := .pri p, frame := s.canTxFrame n (x.bufNo 3 p), stamp := at_ }) ++
  (x.gq.take 1).map (fun g => { src := .gateway, frame := g.frame, stamp := at_, gw := some g }) ++
  (if x.txFill = 0 then []
   else [{ src := .fifo, frame := s.canTxFrame n (x.bufNo 2 x.txHead), stamp := at_ }])

/-- The first candidate whose arbitration field would win on the bus. -/
def bestTx : List CanTx → Option CanTx
  | [] => none
  | t :: ts => match bestTx ts with
    | none => some t
    | some u => if arbKey u.frame < arbKey t.frame then some u else some t

/-- The buffer number that a transmission comes from, if it comes from a buffer. -/
def CanCtl.txBuf (x : CanCtl) : TxSrc → Option Nat
  | .pri p => some (x.bufNo 3 p)
  | .gateway => none
  | .fifo => some (x.bufNo 2 x.txHead)

/-- The code of a state of the working domain (09 R271). -/
def TimState.code : TimState → Nat
  | .unsync => 0 | .locked => 1 | .holdover => 2 | .freerun => 3 | .grandmaster => 4

/-- State of the working domain. -/
def State.workState (s : State) : TimState := (s.inst s.tim.wdom).st

/-- Byte 2 of a SYNC (09 R285). -/
def State.syncByte (s : State) : Nat := s.workState.code + s.tim.wdom % 2 * 8 + s.tim.steps % 16 * 16

/-- The SYNC in buffer 30 takes the present STATE, WDOM and STEPS. -/
def syncFresh (n : Nat) (s : State) : State :=
  if (look {} s.tim.canRef n).queued.isSome then
    s.writeMem (winBase n + (s.canc n).dataOff ((s.canc n).bufNo 3 30) + 2) (bytesOf 1 s.syncByte)
  else s

/-- A selected frame enters arbitration. -/
def enterArb (n : Nat) (t : CanTx) (s : State) : State :=
  let x := s.canc n
  let tries := match x.txBuf t.src with
    | some b => put x.tries b (min 255 (x.triesOf b + 1))
    | none => x.tries
  let s1 := s.setCan n { x with sending := some t, tries := tries, gq := if t.src = .gateway then x.gq.tail else x.gq
                                out := if x.mode = 2 then x.out else some t.frame }
  match t.src, (look {} s.tim.canRef n).queued with
  | .pri 30, some (tt, seq) =>
    let r := look {} s.tim.canRef n
    let r1 : CanRef := { r with queued := none, sending := some (tt, seq, t.stamp) }
    { s1 with tim := { s1.tim with canRef := put s1.tim.canRef n r1 } }
  | _, _ => s1

/-- The selection before an arbitration. -/
def arbitrate (n : Nat) (s : State) : State :=
  let s1 := ageQueue n (reportFifo n (s.canc n).txFill (reportPri n (syncFresh n s)))
  match bestTx (s1.candidates n) with
  | none => s1
  | some t => enterArb n t s1

/-- A controller may start a frame: it is in RUN, drives the bus, is not bus-off, sends nothing and does not pause. -/
def State.canIdle (s : State) (n : Nat) : Bool :=
  let x := s.canc n
  s.running 5 && s.canState n == .run && x.mode != 1 && x.estate != 2 && x.sending.isNone &&
    (match x.lonePause with
     | some t => decide (t + 100000000 ≤ s.clk)
     | none => true)

/-- CAN_ARBITRATION (R382): the start-of-frame bit of the selected frame is sampled at the present instant. A ring whose
PREPARE window has ended starts no new frame (14 R428). -/
def execCanArbitration (e : Stim) (can : Nat) (s : State) : Host.Outcome State Fault Refusal :=
  event e s (fun s => decide (can < 12) && (prepareOver can s).canIdle can) (fun s0 =>
    let s := prepareOver can s0
    arbitrate can (s.setCan can { s.canc can with lonePause := none }))

/-! ### Outcomes (R380, R381, R383, R387) -/

/-- A withdrawn or failed SYNC counts in its trigger's SKIPS (09 R286). -/
def syncSkip (tt : Nat) (s : State) : State :=
  let x := look {} s.tim.trig tt
  { s with tim := { s.tim with trig := put s.tim.trig tt { x with skips := satInc 255 x.skips } } }

/-- The state with a controller's time master set. -/
def State.setRef (s : State) (n : Nat) (r : CanRef) : State :=
  { s with tim := { s.tim with canRef := put s.tim.canRef n r } }

/-- The SYNC being transmitted has ended: with success its FUP falls due, else it counts as failed. -/
def syncEnd (n : Nat) (ok : Bool) (s : State) : State :=
  let r := look {} s.tim.canRef n
  match r.sending with
  | none => s
  | some (tt, seq, stamp) =>
    let s1 := s.setRef n { r with sending := none, fup := if ok then some (seq, tns stamp) else r.fup }
    if ok then s1 else syncSkip tt s1

/-- A SYNC lost the arbitration: it stays a candidate, or gives way to one that a later firing has queued. -/
def syncLost (n : Nat) (s : State) : State :=
  let r := look {} s.tim.canRef n
  match r.sending with
  | none => s
  | some (tt, seq, _) =>
    match r.queued with
    | none => s.setRef n { r with sending := none, queued := some (tt, seq) }
    | some _ => syncSkip tt (s.setRef n { r with sending := none })

/-- A SYNC stands in buffer 30 for transmission. -/
def State.syncWaits (s : State) (n p : Nat) : Bool := p == 30 && (look {} s.tim.canRef n).queued.isSome

/-- Ends the request of priority buffer p; a SYNC queued behind the one just ended keeps the buffer pending. -/
def priEnd (n p : Nat) (s : State) : State := if s.syncWaits n p then s else priDone n p s

/-- What the module's own frames do once sent: ring message, cluster frame, SYNC and FUP. -/
def ownSent (n p : Nat) (s : State) : State :=
  if s.ringed n ∧ p = 28 then ringSent n s
  else if s.ringed n ∧ p = 29 then clusterSent n s
  else if s.refOn n ∧ p = 30 then syncEnd n true s
  else s

/-- TEC after a frame sent without error (ISO 11898-1). -/
def tecDown (n : Nat) (s : State) : State :=
  let x := s.canc n
  setErr n (x.tec - 1) x.recv (stateFor (x.tec - 1) x.recv) s

/-- The frame has been transmitted. -/
def txSuccess (n : Nat) (t : CanTx) (s0 : State) : State :=
  let x0 := s0.canc n
  let s1 := s0.setCan n { x0 with sending := none, txCount := (x0.txCount + 1) % 2 ^ 32 }
  let s := tecDown n (aloneEnds n s1)
  let x := s.canc n
  let s2 := match x.txBuf t.src with
    | some b => if hLog (s.canHdr n b) then txEvent n b 0 (tns t.stamp) s else s
    | none => s
  let s3 := match t.src with
    | .pri p => priEnd n p (ownSent n p s2)
    | .gateway => s2
    | .fifo => canIrq n (fifoNext n s2)
  if x.mode = 2 then rxAccept n (tns t.stamp) t.frame s3 else s3

/-- Puts a frame back into a gateway queue, ahead of those with an equal arbitration field. -/
def gwPlace (g : GwFrame) : List GwFrame → List GwFrame
  | [] => [g]
  | h :: t => if arbKey h.frame < arbKey g.frame then h :: gwPlace g t else g :: h :: t

/-- A frame of the gateway queue stays a candidate after a failure, ahead of those that arrived later, unless its
endpoint has been reset since (13 R411). -/
def gwBack (n : Nat) (g : GwFrame) (s : State) : State :=
  let x := s.canc n
  let stale : Bool := match g.vep with
    | none => false
    | some (v, ep) => (s.vi 1 v).all (fun i => i.epoch != ep)
  if stale = true then s else s.setCan n { x with gq := gwPlace g x.gq }

/-- The attempt failed: it lost the arbitration, or ended in an error. ONESHOT ends a frame at its first error, and a
cancel takes effect (R380 to R382). -/
def txFail (n : Nat) (lost : Bool) (t : CanTx) (s0 : State) : State :=
  let s := s0.setCan n { s0.canc n with sending := none }
  let x := s.canc n
  match t.src with
  | .gateway => match t.gw with
    | some g => if g.oneshot && !lost then s else gwBack n g s
    | none => s
  | .pri p =>
    let b := x.bufNo 3 p
    let own := s.refOn n && p == 30
    let s1 := if own then (if lost then syncLost n s else syncEnd n false s) else s
    if own then (if lost || s1.syncWaits n 30 then s1 else s1.setCan n { x with pend := delBit x.pend 30 })
    else if hOneshot (s.canHdr n b) && !lost then priDone n p (txEvent n b 2 0 s)
    else if x.cancel.testBit p then priDone n p (txEvent n b 1 0 s)
    else s
  | .fifo =>
    let b := x.bufNo 2 x.txHead
    if hOneshot (s.canHdr n b) && !lost then fifoNext n (txEvent n b 2 0 s) else s

/-- A frame with a fast data phase. -/
def fastPhase (f : CanFrame) : Bool := (f.fmt == 1 && f.brs) || f.fmt == 2

/-- TDCV of the frame is taken; the second component says that the secondary sample point lies beyond its range
(R373). -/
def takeTdcv (n tdcv : Nat) (f : CanFrame) (s : State) : State × Bool :=
  let x := s.canc n
  if fastPhase f && bit (par x.conf 0) 11 then
    let off := if f.fmt = 2 then fld (par x.conf 4) 14 8 else fld (par x.conf 4) 6 0
    let bad := decide (127 < tdcv + off)
    let s1 := s.setCan n { x with tdcv := min 127 tdcv, lec := if bad then 7 else x.lec }
    (if bad then setFlag n 7 s1 else s1, bad)
  else (s, false)

/-- The attempt in progress ends. -/
def txOutcome (n : Nat) (o : TxOutcome) (tdcv : Nat) (s : State) : State :=
  match (s.canc n).sending with
  | none => s
  | some t =>
    if o = .lostArbitration then txFail n true t s
    else
      let r := takeTdcv n tdcv t.frame s
      if o = .success ∧ r.2 = false then txSuccess n t r.1 else txFail n false t r.1

/-- CAN_TRANSMIT_OUTCOME (R380 to R383): `tdcv` is the loop delay measured in a frame with a fast data phase. -/
def execCanTransmitOutcome (e : Stim) (can : Nat) (outcome : TxOutcome) (tdcv : Nat) (s : State) :
    Host.Outcome State Fault Refusal :=
  event e s (fun s => decide (can < 12) && s.canUp can && (s.canc can).sending.isSome) (txOutcome can outcome tdcv)

/-! ### Errors (R386 to R390) -/

/-- 32 consecutive acknowledge errors (R390). -/
def loneNote (n : Nat) (s : State) : State :=
  let s1 := setFlag n 0 s
  canNotice n 0x3002 [wd n, s1.errStat n] s1

/-- An acknowledge error is counted; with PAUSELONE each later attempt is preceded by a pause of 100 ms. -/
def ackCount (n : Nat) (s : State) : State :=
  let x := s.canc n
  let k := x.ackErrs + 1
  let pause := if bit (par x.conf 0) 12 ∧ 32 ≤ k then some s.clk else x.lonePause
  let s1 := s.setCan n { x with ackErrs := k, lonePause := pause }
  if k = 32 then loneNote n s1 else s1

/-- The controller goes bus-off (R388): the frame in transmission fails, a lock is released. -/
def busOff (n recv : Nat) (s : State) : State :=
  let s1 := match (s.canc n).sending with
    | some t => txFail n false t s
    | none => s
  let x := s1.canc n
  setErr n 256 recv 2 (s1.setCan n { x with lock := none, busOffs := satInc 0xFFFF x.busOffs, lonePause := none, offAt := s.clk })

/-- TEC and REC after an error (R387; the steps of ISO 11898-1, PRESUMED, log 27). As transmitter TEC rises by 8, but not
in error-passive for want of an acknowledge (R390), nor for a stuff error in arbitration (alt). As receiver REC rises by 1,
or by 8 where the controller sees a dominant bit after its error flag or an error in one (alt). -/
def CanCtl.errStep (x : CanCtl) (lec : Nat) (tx alt : Bool) : Nat × Nat :=
  if tx then ((if (lec = 3 ∧ x.estate = 1) ∨ alt then x.tec else x.tec + 8), x.recv)
  else (x.tec, x.recv + (if alt then 8 else 1))

/-- An error with its code: the counters step, and a TEC above 255 is bus-off (R388). -/
def canError (n lec : Nat) (tx alt : Bool) (s0 : State) : State :=
  let s := s0.setCan n { s0.canc n with lec := lec }
  let x := s.canc n
  if x.mode = 1 then s
  else
    let k := x.errStep lec tx alt
    let s1 := if lec = 3 then ackCount n s else s
    if 255 < k.1 then busOff n k.2 s1 else setErr n k.1 k.2 (stateFor k.1 k.2) s1

/-- The bus may have shown 128 occurrences of 11 recessive bits since the bus-off: 1408 nominal bits of 12.5 ns cycles
have passed. -/
def State.offOver (s : State) (n : Nat) : Bool :=
  let x := s.canc n
  decide (2 * x.offAt + 1408 * 25 * nomCycles (par x.conf 1) ≤ 2 * s.clk)

/-- BUS_OFF_RECOVERY (R388). -/
def execBusOffRecovery (e : Stim) (can : Nat) (s : State) : Host.Outcome State Fault Refusal :=
  event e s (fun s => decide (can < 12) && s.canUp can && (s.canc can).estate == 2 && s.offOver can) (setErr can 0 0 0)

/-- LONE_PAUSE_END (R390): 100 ms have passed. -/
def execLonePauseEnd (e : Stim) (can : Nat) (s : State) : Host.Outcome State Fault Refusal :=
  event e s (fun s => decide (can < 12) && (s.canc can).lonePause.any (fun t => decide (t + 100000000 ≤ s.clk)))
    (fun s => s.setCan can { s.canc can with lonePause := none })

/-! ### Gates (R368, R399) -/

/-- Pending priority requests are cancelled at shut-down. -/
def shutPri (n : Nat) (s : State) : State :=
  (setBits 32 (s.canc n).pend).foldl (fun s p => priDone n p (txEvent n ((s.canc n).bufNo 3 p) 3 0 s)) s

/-- The transmit FIFO is emptied at shut-down: at most k frames. -/
def shutFifo (n : Nat) : Nat → State → State
  | 0, s => s
  | k + 1, s =>
    if (s.canc n).txFill = 0 then s
    else shutFifo n k (fifoNext n (txEvent n ((s.canc n).bufNo 2 (s.canc n).txHead) 3 0 s))

/-- A SYNC that waits is withdrawn and counted. -/
def syncDrop (n : Nat) (s : State) : State :=
  let r := look {} s.tim.canRef n
  let s1 := s.setRef n { r with queued := none, fup := none }
  match r.queued with
  | some (tt, _) => syncSkip tt s1
  | none => s1

/-- The SYNC in transmission ends with its time master: it goes on as a plain frame. -/
def syncFree (n : Nat) (s : State) : State := s.setRef n { look {} s.tim.canRef n with sending := none }

/-- A SYNC that waits or is cut in transmission is counted (09 R286). -/
def syncCut (n : Nat) (s : State) : State := syncDrop n (syncEnd n false s)

/-- A controller's gate is applied: requests cancelled, FIFO and gateway queue emptied, lock released. -/
def canGated (n : Nat) (s : State) : State :=
  let s1 := syncCut n (shutFifo n (s.canc n).txFill (shutPri n s))
  let x := s1.canc n
  s1.setCan n { x with lock := none, lonePause := none, sending := none, gq := []
                       dstDown := satAdd 0xFFFF x.dstDown x.gq.length }

/-- A controller's start: its counters begin at 0 (R399). One that is bus-off stays so (R388: no command shortens or
suppresses the recovery), and its 128 occurrences count from here (DESIGN CHOICE, log 27: the spec does not say whether
those seen before the disable count). -/
def canRun (n : Nat) (s : State) : State :=
  let x := s.canc n
  let s1 := s.setCan n { x with ackErrs := 0, busOffs := 0, lostRx := 0, tdcv := 0, lockExp := 0, rxCount := 0, txCount := 0
                                lonePause := none, wasOn := false, offAt := if x.estate = 2 then s.clk else x.offAt }
  if x.estate = 2 then s1 else setErr n 0 0 0 s1

/-- A LIN channel's gate is applied: its schedule stops and no header is on the bus. -/
def linGated (n : Nat) (s : State) : State :=
  let x := s.lin n
  s.setLin n { x with table := 15, next := none, slot := 0, nextSlot := 0, slotEnd := none, resume := none
                      header := none, sleepTx := false }

/-- A LIN channel's start: errors are counted from enable (R397). -/
def linRun (n : Nat) (s : State) : State :=
  let x := s.lin n
  s.setLin n { x with errs := 0, lastAct := s.clk, wasOn := false }

end Sys2Proof.Machine
end

