-- ==== Sys2Proof/Machine/Tim.lean ====
section
/-!
DEFINITION. Tally time, gPTP and scheduled actions (09): the TIM commands, steps, Syncs, triggers, PPS and the CAN time
reference. Time stamps of transmitted frames are taken in Switch.lean. Log entries 11 and 35.
-/

namespace Sys2Proof.Machine

/-! ### States (R271, R290, R294) -/

/-- Word 0 of TIM_STATUS. -/
def State.timWord0 (s : State) : Word :=
  let w := s.inst s.tim.wdom
  wd (s.tim.steps * 2 ^ 24 + (s.inst (1 - s.tim.wdom)).st.code * 2 ^ 20 + w.port * 2 ^ 16 + s.tim.wdom * 2 ^ 4 + w.st.code)

/-- T0 and every tenant holding the TIM right. -/
def State.timWatch (s : State) : List Nat := 0 :: s.holders 8

/-- Applies a change and posts TIM_STATE when the working domain's state has changed. -/
def withWork (f : State → State) (s : State) : State :=
  let s1 := f s
  if s1.workState = s.workState then s1 else noticeAll s1.timWatch 0x2001 [s1.timWord0] s1

/-- An instance enters a state. -/
def instTo (i : Nat) (st : TimState) (s : State) : State :=
  let x := s.inst i
  if x.st = st then s else s.setInst i { x with st := st, since := s.clk, good := 0 }

/-! ### Steps (R273) -/

/-- Firings of a trigger in [old, old + delta), from its next one on. -/
def firingsIn (x : Trigger) (b : List Word) (old delta : Nat) : Nat :=
  let d := diff48 (firingTime b x.k) old
  let period := fld (par b 2) 31 16 + fld (par b 3) 15 0 * 2 ^ 16
  let count := fld (par b 3) 31 16
  let n := if d < 0 ∨ (delta : Int) ≤ d then 0 else if period = 0 then 1 else ceilDiv (delta - d.toNat) period
  if count = 0 then n else min n (count - x.k)

/-- A forward step lets each armed trigger perform one firing for all that fall in the interval. -/
def foldFirings (old delta : Nat) (s : State) : State :=
  let trig := s.tim.trig.map (fun p =>
    match p.2.block with
    | some b =>
      let n := firingsIn p.2 b (old % 2 ^ 48) delta
      if p.2.armed && n != 0 then (p.1, { p.2 with due := true, dueAt := old + delta, folded := n - 1 }) else p
    | none => p)
  { s with tim := { s.tim with trig := trig } }

/-- Every window of a channel that has ended is evaluated, the oldest first (06 R188). -/
def overdrawAll (s : State) (ch : Nat) : State :=
  overdrawRun ch (s.chn ch).meter.done.length s

/-- The overdraw windows in progress end and are evaluated (00 R625, 06 R188). -/
def stepMeters (s : State) : State :=
  (s.chan.map (·.1)).foldl overdrawAll { s with chan := s.chan.map (fun p => (p.1, { p.2 with meter := p.2.meter.close })) }

/-- Tally time is set to a new full time. -/
def tallyStep (new : Nat) (s0 : State) : State :=
  let old := s0.tim.full
  let s := stepMeters s0
  let s1 := if old < new then markDue true (new - old) (foldFirings old (new - old) s) else s
  let s2 := stepWindows old new s1
  let t := { s2.tim with full := new, steps := satInc 255 s2.tim.steps, gen := s2.tim.gen + 1, ppsLevel := false
                         ppsSec := if new % 10 ^ 9 = 0 then (0, 0) else (s2.tim.gen + 1, new / 10 ^ 9) }
  let s3 := { s2 with tim := t }
  logNotice s3.timWatch 0xFF 0x2002 (timeWords old ++ timeWords new) s3

/-- Removes an offset from Tally time (R272): by a slew, whose RADJ the spec leaves to the module, or by a step. The counter
is FBX's. -/
def discipline (o : Int) (s : State) : State :=
  if !s.alive 1 then s
  else if o.natAbs ≤ 100000 then
    let r := s.drawNat
    { r.2 with tim := { r.2.tim with radj := (r.1 % 50000001 : Nat) - 25000000 } }
  else tallyStep (((s.tim.full : Int) - o) % (2 ^ 80 : Nat)).toNat s

/-! ### Syncs (R269 to R272) -/

/-- A Sync of the accepted grandmaster. -/
def syncAccepted (i : Nat) (o : Int) (port : Nat) (s : State) : State :=
  let x := s.inst i
  let g := if o.natAbs ≤ 100 then x.good + 1 else 0
  let s1 := s.setInst i { x with offset := o, port := port, lastSync := s.clk, good := min 4 g }
  let s2 := if 4 ≤ g ∧ x.st ≠ .grandmaster then instTo i .locked s1 else s1
  if i = s.tim.wdom ∧ x.st ≠ .grandmaster then discipline o s2 else s2

/-- A Sync of an instance: from the accepted grandmaster, or from another, which two consecutive ones make the accepted
one. -/
def syncIn (i : Nat) (o : Int) (gm port : Nat) (s : State) : State :=
  let x := s.inst i
  if x.gm = some gm then syncAccepted i o port (s.setInst i { x with cand := none })
  else
    let s1 := if x.st = .locked then instTo i .holdover s else s
    let y := s1.inst i
    if y.cand = some gm then
      let s2 := s1.setInst i { y with gm := some gm, cand := none, good := 0 }
      let s3 := if y.st = .grandmaster then instTo i .unsync s2 else s2
      syncAccepted i o port s3
    else s1.setInst i { y with cand := some gm }

/-- SYNC_RECEIVED (R272): `offset` is Tally time of the port's stamp less the domain's time, in ns, before the
compensation of a port's receive latency, which makes it o. -/
def execSyncReceived (e : Stim) (inst : Nat) (offset : Int) (gm port : Nat) (s : State) :
    Host.Outcome State Fault Refusal :=
  event e s (fun s => decide (inst < 2) && s.running 3 && s.linked port && (s.inst inst).takesSync port s.clk)
    (fun s => withWork (syncIn inst (offset - (s.portLat port).2) gm port) s)

/-- Sync interval in ns. -/
def GptpInst.interval (x : GptpInst) : Nat := 10 ^ 9 / 2 ^ (-x.logSync).toNat

/-- No Sync for three Sync intervals (R271). -/
def syncTimeout (i : Nat) (s : State) : State :=
  let x := s.inst i
  if x.st = .locked ∧ x.lastSync + 3 * x.interval ≤ s.clk then instTo i .holdover s else s

/-- SYNC_TIMEOUT (R271). -/
def execSyncTimeout (e : Stim) (s : State) : Host.Outcome State Fault Refusal :=
  event e s (fun _ => true) (withWork (fun s => syncTimeout 1 (syncTimeout 0 s)))

/-- 2 s in HOLDOVER (R271). -/
def holdoverEnd (i : Nat) (s : State) : State :=
  let x := s.inst i
  if x.st = .holdover ∧ x.since + 2000000000 ≤ s.clk then instTo i .freerun s else s

/-- HOLDOVER_EXPIRY (R271). -/
def execHoldoverExpiry (e : Stim) (s : State) : Host.Outcome State Fault Refusal :=
  event e s (fun _ => true) (withWork (fun s => holdoverEnd 1 (holdoverEnd 0 s)))

/-- The module becomes grandmaster of the working domain. -/
def becomeGm (s : State) : State :=
  let i := s.tim.wdom
  let s1 := instTo i .grandmaster s
  let s2 := s1.setInst i { s1.inst i with gm := none, cand := none, port := 15 }
  { s2 with tim := { s2.tim with radj := 0 } }

/-- BECOMES_GRANDMASTER (R271). -/
def execBecomesGrandmaster (e : Stim) (s : State) : Host.Outcome State Fault Refusal :=
  event e s (fun s => s.running 3 && (s.inst s.tim.wdom).mayLead s.clk) (withWork becomeGm)

/-- TNS_WRAP (R264): EPOCH counts the wrap, as the full time that the state holds shows. -/
def execTnsWrap (e : Stim) (s : State) : Host.Outcome State Fault Refusal := .next (s.advance e)

/-- SECOND_WINDOW_END (00 R625): every count kept per window stands beside its window's number, so a new window begins
at 0. -/
def execSecondWindowEnd (e : Stim) (s : State) : Host.Outcome State Fault Refusal := .next (s.advance e)

/-! ### Time commands (R289 to R291) -/

def timNowSpec : OpSpec :=
  { opcode := 0x2001, plen := (· == 0), free := fun _ => true
    exec := fun _ s => .done .ok [wd s.now, wd (s.now / 2 ^ 32 + s.tfr * 2 ^ 16), wd s.epoch] s }

/-- TIM_NOW (R289). -/
def execTimNow (e : Stim) (r : Req) (s : State) : Host.Outcome State Fault Refusal :=
  .next (submit timNowSpec r (s.advance e))

/-- The words of TIM_STATUS (R290). -/
def State.timWords (s : State) : List Word :=
  let w := s.inst s.tim.wdom
  let o := s.inst (1 - s.tim.wdom)
  let held := if w.st = .holdover ∨ w.st = .freerun then min 0xFFFF ((s.clk - w.since) / 100000000) else 0
  let gm := match w.gm with
    | some g => g
    | none => if w.st = .grandmaster then Config.clockId else 0
  [s.timWord0, wdi (satInt (2 ^ 31 - 1) w.offset), wdi s.tim.radj, wd (s.tim.lateSched * 2 ^ 16 + held)] ++
    wordsOf 2 (bytesOfBE 8 gm) ++ [wdi (satInt (2 ^ 31 - 1) (-o.offset)), 0]

def timStatusSpec : OpSpec :=
  { opcode := 0x2002, plen := (· == 0), free := fun _ => true
    exec := fun _ s => .done .ok s.timWords s }

/-- TIM_STATUS (R290). -/
def execTimStatus (e : Stim) (r : Req) (s : State) : Host.Outcome State Fault Refusal :=
  .next (submit timStatusSpec r (s.advance e))

/-- The words of TIM_DOMAIN (R291). -/
def domainOk (ps : List Word) (s : State) : Bool :=
  let i := fld (par ps 0) 0 0
  let l := signed 4 (fld (par ps 0) 27 24)
  within (par ps 0) 0x0F0F7F01 && decide (-5 ≤ l) && decide (l ≤ 0) && within (par ps 1) 0xFFFFFF &&
    within (par ps 2) 0xFFFF && fld (par ps 0) 15 8 != (s.inst (1 - i)).domain

/-- An instance takes its words; one with a new domainNumber starts anew. Tally time is then free at RADJ 0 if it is the
working one, and so it is when a grandmaster is no longer disciplined to PPS_IN (R271). -/
def setDomain (ps : List Word) (s0 : State) : State :=
  let i := fld (par ps 0) 0 0
  let w0 := par ps 0
  let x := s0.inst i
  let same := x.domain == fld w0 15 8
  let y : GptpInst := if same then x else { since := s0.clk }
  let free := !same || (x.st == .grandmaster && x.ppsDisc && !bit w0 19)
  let s := if free && s0.tim.wdom == i then { s0 with tim := { s0.tim with radj := 0 } } else s0
  s.setInst i { y with domain := fld w0 15 8, extPort := bit w0 16, gmCap := bit w0 17, ppsDisc := bit w0 19
                       logSync := signed 4 (fld w0 27 24), roles := par ps 1, prio1 := fld (par ps 2) 7 0
                       prio2 := fld (par ps 2) 15 8 }

/-- An instance becomes the working domain: what it differs by is removed from Tally time (R272, R291). -/
def setWork (i : Nat) (s : State) : State :=
  if s.tim.wdom = i then s
  else
    let s1 := { s with tim := { s.tim with wdom := i } }
    let x := s1.inst i
    if x.st = .unsync ∨ x.st = .grandmaster then { s1 with tim := { s1.tim with radj := 0 } }
    else discipline x.offset s1

def timDomainSpec : OpSpec :=
  { opcode := 0x2003, plen := (· == 3), right := onlyT0
    parm := fun _ ps s => need (domainOk ps s)
    exec := fun c s =>
      .okay (withWork (fun s =>
        let s1 := setDomain c.params s
        if bit (par c.params 0) 18 then setWork (fld (par c.params 0) 0 0) s1 else s1) s) }

/-- TIM_DOMAIN (R291). -/
def execTimDomain (e : Stim) (r : Req) (s : State) : Host.Outcome State Fault Refusal :=
  .next (submit timDomainSpec r (s.advance e))

def timSetSpec : OpSpec :=
  { opcode := 0x2004, plen := (· == 3), right := onlyT0
    parm := fun _ ps _ => need (within (par ps 1) 0xFFFF)
    exec := fun c s =>
      if s.workState = .locked ∨ s.workState = .holdover then .fail .busy s
      else
        let new := (par c.params 0).toNat + (par c.params 1).toNat * 2 ^ 32 + (par c.params 2).toNat * 2 ^ 48
        let s1 := tallyStep new s
        .okay { s1 with tim := { s1.tim with sub := 0 } } }

/-- TIM_SET (R273, R289). -/
def execTimSet (e : Stim) (r : Req) (s : State) : Host.Outcome State Fault Refusal :=
  .next (submit timSetSpec r (s.advance e))

def timPortlatSpec : OpSpec :=
  { opcode := 0x2005, plen := (· == 2), right := onlyT0
    parm := fun _ ps _ => need (within (par ps 0) 0x1)
    exec := fun c s =>
      let v := (fld (par c.params 1) 15 0, fld (par c.params 1) 31 16)
      .okay { s with tim := if par c.params 0 = 0 then { s.tim with lat0 := v } else { s.tim with lat1 := v } } }

/-- TIM_PORTLAT (R289). -/
def execTimPortlat (e : Stim) (r : Req) (s : State) : Host.Outcome State Fault Refusal :=
  .next (submit timPortlatSpec r (s.advance e))

/-! ### PPS (R287, R288) -/

/-- The present second of full Tally time, with the steps before it. -/
def State.ppsNow (s : State) : Nat × Nat := (s.tim.gen, s.tim.full / 10 ^ 9)

def timPpsSpec : OpSpec :=
  { opcode := 0x2006, plen := (· == 1), right := onlyT0
    parm := fun _ ps _ =>
      let w := fld (par ps 0) 24 16
      need (within (par ps 0) 0x01FF0003 && (if bit (par ps 0) 0 then decide (1 ≤ w) && decide (w ≤ 500) else decide (w ≤ 500)))
    exec := fun c s =>
      let p := par c.params 0
      let on := bit p 0
      .okay { s with tim := { s.tim with
        ppsOut := on, ppsIn := bit p 1, ppsWidth := fld p 24 16, ppsLevel := s.tim.ppsLevel && on
        ppsSec := if on && !s.tim.ppsOut && s.tim.full % 10 ^ 9 != 0 then s.ppsNow else s.tim.ppsSec } } }

/-- TIM_PPS (R287). -/
def execTimPps (e : Stim) (r : Req) (s : State) : Host.Outcome State Fault Refusal :=
  .next (submit timPpsSpec r (s.advance e))

/-- PPS_OUT_PULSE (R287): PPS_OUT rises at a whole second that it has not risen at. -/
def execPpsOutPulse (e : Stim) (s : State) : Host.Outcome State Fault Refusal :=
  event e s (fun s => s.tim.ppsOut && s.tim.ppsSec != s.ppsNow) (fun s =>
    { s with tim := { s.tim with ppsLevel := true, ppsRise := s.clk, ppsSec := s.ppsNow } })

/-- PPS_OUT_FALL (R287): WIDTH has passed since the rise. -/
def execPpsOutFall (e : Stim) (s : State) : Host.Outcome State Fault Refusal :=
  event e s (fun s => s.tim.ppsLevel && decide (s.tim.ppsRise + s.tim.ppsWidth * 1000000 ≤ s.clk)) (fun s =>
    { s with tim := { s.tim with ppsLevel := false } })

/-- Offset of a time from the nearest whole second. -/
def secOffset (t : Nat) : Int :=
  let r : Nat := t % 10 ^ 9
  if r ≤ 5 * 10 ^ 8 then (r : Int) else (r : Int) - 10 ^ 9

/-- A rising edge of PPS_IN: stamped, the oldest of four discarded; in GRANDMASTER with PPSDISC it disciplines Tally
time. -/
def ppsEdge (s : State) : State :=
  let q := s.tim.ppsStamps ++ [(s.now, s.tfr)]
  let s1 := { s with tim := { s.tim with ppsStamps := if 4 < q.length then q.drop 1 else q } }
  if s.workState = .grandmaster ∧ (s.inst s.tim.wdom).ppsDisc then discipline (secOffset s.tim.full) s1 else s1

/-- PPS_IN_EDGE (R288). -/
def execPpsInEdge (e : Stim) (s : State) : Host.Outcome State Fault Refusal := event e s (fun s => s.tim.ppsIn) ppsEdge

def timPpsinSpec : OpSpec :=
  { opcode := 0x2007, plen := (· == 0)
    exec := fun _ s =>
      let q := s.tim.ppsStamps
      let ws := q.flatMap (fun p => [wd p.1, wd (p.1 / 2 ^ 32 + p.2 * 2 ^ 16)])
      .done .ok (wd q.length :: padWords 8 ws) s }

/-- TIM_PPSIN (R288, R289). -/
def execTimPpsin (e : Stim) (r : Req) (s : State) : Host.Outcome State Fault Refusal :=
  .next (submit timPpsinSpec r (s.advance e))

/-! ### Triggers (R280 to R283, R292) -/

/-- Trigger tt. -/
def State.trg (s : State) (tt : Nat) : Trigger := look {} s.tim.trig tt

/-- The state with a trigger set. -/
def State.setTrg (s : State) (tt : Nat) (x : Trigger) : State := { s with tim := { s.tim with trig := put s.tim.trig tt x } }

def parTt (ps : List Word) : Nat := fld (par ps 0) 4 0
def tgAction (b : List Word) : Nat := fld (par b 0) 15 8
def tgTarget (b : List Word) : Nat := fld (par b 0) 23 16
def tgArg (b : List Word) : Nat := fld (par b 0) 31 24
def tgPeriod (b : List Word) : Nat := fld (par b 2) 31 16 + fld (par b 3) 15 0 * 2 ^ 16
def tgCount (b : List Word) : Nat := fld (par b 3) 31 16
def tgDuty (b : List Word) : Nat := fld (par b 4) 15 0

def ownsTrg (t : Nat) (ps : List Word) (s : State) : Bool := (s.trg (parTt ps)).owner == t

def timTrigAssignSpec : OpSpec :=
  { opcode := 0x2010, plen := (· == 1), right := onlyT0
    parm := fun _ ps s => need (within (par ps 0) 0x1F1F && s.exists (fld (par ps 0) 12 8))
    exec := fun c s =>
      let tt := parTt c.params
      let x := s.trg tt
      if x.armed then .fail .busy s
      else .okay (s.setTrg tt { x with owner := fld (par c.params 0) 12 8 }) }

/-- TIM_TRIG_ASSIGN (R280). -/
def execTimTrigAssign (e : Stim) (r : Req) (s : State) : Host.Outcome State Fault Refusal :=
  .next (submit timTrigAssignSpec r (s.advance e))

/-- CHECK of a block. -/
def trgCheckOk (b : List Word) : Bool := crc16 ((wordBytes b).take 20) == fld (par b 5) 15 0

/-- Every field of a block lies in its range (R280). -/
def trgRangeOk (b : List Word) (s : State) : Bool :=
  let a := tgAction b
  let t := tgTarget b
  decide (fld (par b 0) 7 0 < 32) && (tgPeriod b == 0 || decide (10000 ≤ tgPeriod b)) && within (par b 4) 0xFFFF &&
  within (par b 5) 0xFFFF && (if a = 3 ∨ a = 4 then decide (tgDuty b ≤ 1000) else tgDuty b == 0) &&
  (if a = 3 then chNamed t s && actionOk t (tgArg b) s
   else if a = 4 then decide (ioKind t = 1) && ioValid t && decide (tgArg b ≤ 1)
   else tgArg b == 0 && (if a = 0 then t == 0 else if a = 2 then decide (t < 8) else a == 5 && decide (t < 12)))

/-- The trigger's owner owns the target (R281). -/
def State.ownsTarget (s : State) (o : Nat) (b : List Word) : Bool :=
  let a := tgAction b
  let t := tgTarget b
  if a = 2 then s.boundTen t == some o
  else if a = 3 then (s.chn t).owner == o
  else if a = 4 then (s.fout (ioIdx t)).owner == o
  else if a = 5 then (s.canc t).owner == o
  else true

def timTrigConfigSpec : OpSpec :=
  { opcode := 0x2011, plen := (· == 6), right := ownsTrg
    parm := fun t ps s =>
      if !trgCheckOk ps then some .badCheck
      else if !trgRangeOk ps s then some .badParam
      else if !s.ownsTarget t ps then some .denied
      else none
    exec := fun c s =>
      let tt := parTt c.params
      let x := s.trg tt
      if x.armed then .fail .busy s else .okay (s.setTrg tt { x with block := some c.params }) }

/-- TIM_TRIG_CONFIG (R281). -/
def execTimTrigConfig (e : Stim) (r : Req) (s : State) : Host.Outcome State Fault Refusal :=
  .next (submit timTrigConfigSpec r (s.advance e))

/-- No firing with this index remains. -/
def spent (b : List Word) (k : Nat) : Bool :=
  (tgPeriod b == 0 && decide (0 < k)) || (tgCount b != 0 && decide (tgCount b ≤ k))

/-- Firings that lie less than 50 µs ahead, from firing 0 on. -/
def lateFirings (b : List Word) (now : Nat) : Nat :=
  let d := diff48 (firingTime b 0) now
  if 50000 ≤ d then 0
  else
    let n := if tgPeriod b = 0 then 1 else ceilDiv (50000 - d).toNat (tgPeriod b)
    if tgCount b = 0 then n else min n (tgCount b)

/-- Arms a trigger (R281). -/
def armTrg (tt : Nat) (lateOk : Bool) (s : State) : Ans :=
  let x := s.trg tt
  match x.block with
  | none => .fail .busy s
  | some b =>
    if x.armed then .fail .busy s
    else
      let n := lateFirings b s.now
      let y := { x with done := false, made := 0, k := n, due := false, folded := 0 }
      if n = 0 then .okay (s.setTrg tt { y with armed := true })
      else if lateOk then .okay (s.setTrg tt { y with armed := !spent b n, missed := satAdd 0xFFFF x.missed n })
      else .fail .tooLate (s.setTrg tt { x with done := false, made := 0 })

def timTrigArmSpec : OpSpec :=
  { opcode := 0x2012, plen := (· == 1), right := ownsTrg
    parm := fun _ ps _ => need (within (par ps 0) 0x11F)
    exec := fun c s =>
      let tt := parTt c.params
      if bit (par c.params 0) 8 then armTrg tt c.lateOk s
      else .okay (s.setTrg tt { s.trg tt with armed := false, due := false, folded := 0 }) }

/-- TIM_TRIG_ARM (R281). -/
def execTimTrigArm (e : Stim) (r : Req) (s : State) : Host.Outcome State Fault Refusal :=
  .next (submit timTrigArmSpec r (s.advance e))

/-- The words of TIM_TRIG_STATUS (R292). -/
def State.trgWords (s : State) (tt : Nat) : List Word :=
  let x := s.trg tt
  let b := x.block.getD []
  let next := if x.armed then firingTime b x.k else 0
  [wd (x.missed * 2 ^ 16 + x.skips * 2 ^ 8 + b2n x.done * 16 + b2n x.armed * 8 + tgAction b % 8), wd next,
   wd (next / 2 ^ 32 + x.defers * 2 ^ 16), wd (min 0xFFFFFFFF x.made)]

def timTrigStatusSpec : OpSpec :=
  { opcode := 0x2013, plen := (· == 1), right := fun t ps s => t == 0 || ownsTrg t ps s
    parm := fun _ ps _ => need (within (par ps 0) 0x1F)
    exec := fun c s => .done .ok (s.trgWords (parTt c.params)) s }

/-- TIM_TRIG_STATUS (R292). -/
def execTimTrigStatus (e : Stim) (r : Req) (s : State) : Host.Outcome State Fault Refusal :=
  .next (submit timTrigStatusSpec r (s.advance e))

/-- Puts a SYNC or FUP into a reserved buffer and requests it (R284, R285). -/
def refFrame (n p : Nat) (d : List Byte) (s : State) : State :=
  let r := look {} s.tim.canRef n
  let x := s.canc n
  let b := x.bufNo 3 p
  let h := bytesOf 4 r.ident ++ bytesOf 1 (b2n r.fd + b2n r.ide * 4) ++ [0] ++ bytesOf 2 8 ++ List.replicate 14 0
  let s1 := (s.writeMem (winBase n + 24 * b) h).writeMem (winBase n + x.dataOff b) d
  s1.setCan n { x with pend := x.pend ||| 2 ^ p, cancel := delBit x.cancel p, tries := erase x.tries b }

/-- A firing queues a SYNC: one that has not begun transmission is withdrawn (R286). -/
def queueSync (tt n : Nat) (s : State) : State :=
  let r := look {} s.tim.canRef n
  let s1 := match r.queued with
    | some (old, _) => syncSkip old s
    | none => s
  refFrame n 30 ([0x10] ++ bytesOf 1 r.seq ++ bytesOf 1 s.syncByte ++ List.replicate 5 0)
    (s1.setRef n { r with queued := some (tt, r.seq), seq := (r.seq + 1) % 256 })

/-- What a firing comes to. -/
inductive Fired where
  | done
  | skip
  | defer
  deriving DecidableEq, Repr

/-- The ACTION of a firing (R282, R283); a skip leaves the target unchanged. -/
def fireAction (tt owner : Nat) (b : List Word) (s : State) : Fired × State :=
  let a := tgAction b
  let t := tgTarget b
  if !s.ownsTarget owner b then (.skip, s)
  else if a = 2 then (if s.running 0 then (.done, deliverPart t (16 + tt) s) else (.skip, s))
  else if a = 3 then
    if !chNamed t s || !actionOk t (tgArg b) s then (.skip, s)
    else if tgArg b ≠ 0 ∧ !pwrSwitchShare owner [wd (t + tgArg b * 2 ^ 8)] s then (.skip, s)
    else
      let r := switchCh t (tgArg b) (tgDuty b) none (some tt) s
      match r.1 with
      | .now .ok => (.done, r.2)
      | .now _ => (.skip, s)
      | .later => (.done, r.2)
      | .queued => (.defer, r.2)
  else if a = 4 then
    if !s.running 5 then (.skip, s)
    else
      let r := switchFo (ioIdx t) (tgArg b == 1) (tgDuty b) none s
      match r.1 with
      | .now .ok => (.done, r.2)
      | .now _ => (.skip, s)
      | _ => (.done, r.2)
  else if a = 5 then
    if s.refOn t && s.running 5 then (.done, queueSync tt t s) else (.skip, s)
  else (.done, s)

/-- TIM_TRIG (R294): reason 1 SKIP, 2 DEFER. -/
def trgNote (tt owner reason time : Nat) (s : State) : State :=
  notice owner 0x2004 (wd (tt + reason * 2 ^ 8) :: timeWords time) s

/-- One firing of a trigger. -/
def fire (tt : Nat) (s : State) : State :=
  let x := s.trg tt
  let b := x.block.getD []
  let time := firingTime b x.k
  let k := x.k + 1 + x.folded
  let past := spent b k
  let y := { x with k := k, made := x.made + 1, missed := satAdd 0xFFFF x.missed x.folded, folded := 0
                    armed := !past, done := past, due := !past && decide (diff48 (firingTime b k) s.now ≤ 0)
                    dueAt := s.tim.full - (-(diff48 (firingTime b k) s.now)).toNat }
  let r := fireAction tt x.owner b (s.setTrg tt y)
  let s1 := r.2
  let z := s1.trg tt
  let s2 := match r.1 with
    | .done => s1
    | .skip => trgNote tt x.owner 1 time (s1.setTrg tt { z with skips := satInc 255 z.skips })
    | .defer => trgNote tt x.owner 2 time (s1.setTrg tt { z with defers := satInc 0xFFFF z.defers })
  trigSeqsOf tt s2

/-- The target of a trigger's block: its ACTION and TARGET. -/
def Trigger.aim (x : Trigger) : Nat × Nat := let b := x.block.getD []; (tgAction b, tgTarget b)

/-- The firing due on a target that is taken next: the earliest, and at one instant that of the lowest TT (R283). -/
def State.nextFiring (s : State) (aim : Nat × Nat) : Option Nat :=
  (List.range 32).foldl (fun m tt =>
    let x := s.trg tt
    if x.armed && x.due && x.aim == aim then
      match m with
      | none => some tt
      | some u => if x.dueAt < (s.trg u).dueAt then some tt else m
    else m) none

/-- TRIGGER_FIRING (R282): those that come before it on its target are taken first (R283). -/
def execTriggerFiring (e : Stim) (tt : Nat) (s : State) : Host.Outcome State Fault Refusal :=
  event e s (fun s => decide (tt < 32) && (s.trg tt).armed && (s.trg tt).due && s.nextFiring (s.trg tt).aim == some tt)
    (fire tt)

/-- Takes at most n firings due on a target up to a full Tally time, in their order. -/
def fireDue (aim : Nat × Nat) (till : Nat) : Nat → State → State
  | 0, s => s
  | n + 1, s =>
    match s.nextFiring aim with
    | some tt => if (s.trg tt).dueAt ≤ till then fireDue aim till n (fire tt s) else s
    | none => s

/-- The target that a command shares with triggers: a load channel (PWR, PUR and LMP commands that name one), a field
output, a CAN controller, a partition. TEN_BIND names none: it binds a remote tenant to a port, and a partition's tenant is
that of TEN_CREATE. -/
def cmdAim (opcode : Nat) (ps : List Word) : Option (Nat × Nat) :=
  let is := fun (l : List Nat) => l.contains opcode
  if opcode / 256 = 0x10 ∨ is [0x1101, 0x1102, 0x1111, 0x1201, 0x1204] then some (3, parCh ps)
  else if is [0x1802, 0x1803, 0x1804, 0x1820, 0x1821, 0x1822] then some (4, fld (par ps 0) 7 0)
  else if opcode = 0x2031 ∨ (0x3001 ≤ opcode ∧ opcode ≤ 0x3008 ∧ isCan ps) then some (5, fld (par ps 0) 3 0)
  else if is [0x4001, 0x4002, 0x4003] then some (2, fld (par ps 0) 2 0)
  else none

/-- Triggers come before a command on their target at one instant (R283): those due up to a full Tally time fire. -/
def trigsFirst (opcode : Nat) (ps : List Word) (till : Nat) (s : State) : State :=
  match cmdAim opcode ps with
  | some aim => fireDue aim till 64 s
  | none => s

/-- A command that Teller takes at the present instant comes after the firings due on its target (R283). -/
def submitAfter (o : OpSpec) (r : Req) (s : State) : State := submit o r (trigsFirst o.opcode r.params s.tim.full s)

/-- PWR_SWITCH (05 R174). -/
def execPwrSwitch (e : Stim) (r : Req) (s : State) : Host.Outcome State Fault Refusal :=
  .next (submitAfter pwrSwitchSpec r (s.advance e))

/-- PWR_DUTY (05 R174). -/
def execPwrDuty (e : Stim) (r : Req) (s : State) : Host.Outcome State Fault Refusal :=
  .next (submitAfter pwrDutySpec r (s.advance e))

/-- PWR_CLEAR (05 R174). -/
def execPwrClear (e : Stim) (r : Req) (s : State) : Host.Outcome State Fault Refusal :=
  .next (submitAfter pwrClearSpec r (s.advance e))

/-- PWR_CONFIG (05 R145). -/
def execPwrConfig (e : Stim) (r : Req) (s : State) : Host.Outcome State Fault Refusal :=
  .next (submitAfter pwrConfigSpec r (s.advance e))

/-- PWR_ASSIGN (05 R139). -/
def execPwrAssign (e : Stim) (r : Req) (s : State) : Host.Outcome State Fault Refusal :=
  .next (submitAfter pwrAssignSpec r (s.advance e))

/-- PWR_READ_CONFIG (05 R174): the block as stored, zeros without one. -/
def execPwrReadConfig (e : Stim) (r : Req) (s : State) : Host.Outcome State Fault Refusal :=
  .next (submitAfter pwrReadConfigSpec r (s.advance e))

/-- PWR_STATUS (05 R175). -/
def execPwrStatus (e : Stim) (r : Req) (s : State) : Host.Outcome State Fault Refusal :=
  .next (submitAfter pwrStatusSpec r (s.advance e))

/-- FIO_OUT (08 R244). -/
def execFioOut (e : Stim) (r : Req) (s : State) : Host.Outcome State Fault Refusal :=
  .next (submitAfter fioOutSpec r (s.advance e))

/-- FIO_OUT_CONFIG (08 R256). -/
def execFioOutConfig (e : Stim) (r : Req) (s : State) : Host.Outcome State Fault Refusal :=
  .next (submitAfter fioOutConfigSpec r (s.advance e))

/-- FIO_OUT_CLEAR (08 R242). -/
def execFioOutClear (e : Stim) (r : Req) (s : State) : Host.Outcome State Fault Refusal :=
  .next (submitAfter fioOutClearSpec r (s.advance e))

/-! ### Transmit time-stamps (R278, R279, R293) -/

def State.txQueue (s : State) (p : Nat) : TxStampQ := look {} s.tim.txq p

def timTxqAssignSpec : OpSpec :=
  { opcode := 0x2020, plen := (· == 1), right := onlyT0
    parm := fun _ ps s => need (within (par ps 0) 0x1F0F && decide (fld (par ps 0) 3 0 < 12) && s.exists (fld (par ps 0) 12 8))
    exec := fun c s =>
      let p := fld (par c.params 0) 3 0
      .okay { s with tim := { s.tim with txq := put s.tim.txq p { s.txQueue p with reader := fld (par c.params 0) 12 8 } } } }

/-- TIM_TXQ_ASSIGN (R278). -/
def execTimTxqAssign (e : Stim) (r : Req) (s : State) : Host.Outcome State Fault Refusal :=
  .next (submit timTxqAssignSpec r (s.advance e))

def timTxstampsSpec : OpSpec :=
  { opcode := 0x2021, plen := (· == 1)
    right := fun t ps s => decide (12 ≤ fld (par ps 0) 3 0) || (s.txQueue (fld (par ps 0) 3 0)).reader == t
    parm := fun _ ps _ => need (within (par ps 0) 0x10F && decide (fld (par ps 0) 3 0 < 12))
    exec := fun c s =>
      let p := fld (par c.params 0) 3 0
      let x := s.txQueue p
      let ws := x.entries.flatMap (fun q => [wd q.1, wd (q.1 / 2 ^ 32 + q.2 * 2 ^ 16)])
      let y := { x with entries := [] }
      let z := if bit (par c.params 0) 8 then { y with ovf := false, lost := 0, ign := 0 } else y
      .done .ok ([wd (x.lost * 2 ^ 16 + b2n x.ovf * 2 ^ 8 + x.entries.length), wd x.ign] ++ padWords 32 ws)
        { s with tim := { s.tim with txq := put s.tim.txq p z } } }

/-- TIM_TXSTAMPS (R293). -/
def execTimTxstamps (e : Stim) (r : Req) (s : State) : Host.Outcome State Fault Refusal :=
  .next (submit timTxstampsSpec r (s.advance e))

/-! ### The alarm (R276) -/

/-- The alarm fires in RUN or IDLE: TIM_ALARM with its time. -/
def alarmNote (t : Nat) (s : State) : State := notice 0 0x2005 (0 :: timeWords t) s

def timAlarmSpec : OpSpec :=
  { opcode := 0x2030, plen := (· == 3), right := onlyT0
    parm := fun _ ps _ => need (within (par ps 0) 0x1 && within (par ps 2) 0xFFFF)
    exec := fun c s =>
      let t := (par c.params 1).toNat + (par c.params 2).toNat * 2 ^ 32
      let off := { s with tim := { s.tim with alarm := none, alarmDue := false } }
      if par c.params 0 = 0 then .okay off
      else if diff48 t s.now ≤ 0 then (if c.lateOk then .okay (alarmNote t off) else .fail .tooLate s)
      else .okay { s with tim := { s.tim with alarm := some t, alarmDue := false } } }

/-- TIM_ALARM (R276). -/
def execTimAlarm (e : Stim) (r : Req) (s : State) : Host.Outcome State Fault Refusal :=
  .next (submit timAlarmSpec r (s.advance e))

/-! ### The CAN reference (R284 to R286) -/

def timCanrefSpec : OpSpec :=
  { opcode := 0x2031, plen := (· == 2)
    right := fun t ps s => decide (12 ≤ fld (par ps 0) 3 0) || (s.canc (fld (par ps 0) 3 0)).owner == t
    parm := fun _ ps _ => need (within (par ps 0) 0x70F && decide (fld (par ps 0) 3 0 < 12) && within (par ps 1) 0x1FFFFFFF &&
      (bit (par ps 0) 9 || decide ((par ps 1).toNat < 2 ^ 11)))
    exec := fun c s =>
      let n := fld (par c.params 0) 3 0
      let w := par c.params 0
      if (s.canc n).legacy then .fail .busy s
      else
        let s1 := if bit w 8 then s else ownDrop n 31 (ownDrop n 30 (syncFree n (syncDrop n s)))
        .okay (s1.setRef n { look {} s1.tim.canRef n with en := bit w 8, ide := bit w 9, fd := bit w 10
                                                          ident := (par c.params 1).toNat }) }

/-- TIM_CANREF (R284). -/
def execTimCanref (e : Stim) (r : Req) (s : State) : Host.Outcome State Fault Refusal :=
  .next (submitAfter timCanrefSpec r (s.advance e))

/-- CANREF_FUP (R286): the follow-up of the SYNC that has ended. -/
def execCanrefFup (e : Stim) (can : Nat) (s : State) : Host.Outcome State Fault Refusal :=
  event e s (fun s => decide (can < 12) && s.alive 5 && s.refOn can && (look {} s.tim.canRef can).fup.isSome) (fun s =>
    let r := look {} s.tim.canRef can
    match r.fup with
    | none => s
    | some (seq, t) => refFrame can 31 ([0x18] ++ bytesOf 1 seq ++ bytesOf 6 t) (s.setRef can { r with fup := none }))

end Sys2Proof.Machine
end

