-- ==== Sys2Proof/Machine/Aimed.lean ====
section
/-!
DEFINITION. Meanings of the commands of other groups that name a target of triggers: each comes after the firings due on
it at its instant (09 R283).
-/

namespace Sys2Proof.Machine

/-- FIO_READ_CONFIG (R254). -/
def execFioReadConfig (e : Stim) (r : Req) (s : State) : Host.Outcome State Fault Refusal :=
  .next (submitAfter fioReadConfigSpec r (s.advance e))

/-- FIO_ASSIGN (R228). -/
def execFioAssign (e : Stim) (r : Req) (s : State) : Host.Outcome State Fault Refusal :=
  .next (submitAfter fioAssignSpec r (s.advance e))

/-- FIO_OUT_STATUS (R259). -/
def execFioOutStatus (e : Stim) (r : Req) (s : State) : Host.Outcome State Fault Refusal :=
  .next (submitAfter fioOutStatusSpec r (s.advance e))

/-- PUR_WIRE (R197). -/
def execPurWire (e : Stim) (r : Req) (s : State) : Host.Outcome State Fault Refusal :=
  .next (submitAfter purWireSpec r (s.advance e))

/-- PUR_READ_WIRE (R202). -/
def execPurReadWire (e : Stim) (r : Req) (s : State) : Host.Outcome State Fault Refusal :=
  .next (submitAfter purReadWireSpec r (s.advance e))

/-- PUR_CHANNEL (R205). -/
def execPurChannel (e : Stim) (r : Req) (s : State) : Host.Outcome State Fault Refusal :=
  .next (submitAfter purChannelSpec r (s.advance e))

/-- LMP_POLICY (R217): on OK the die writes the block to its non-volatile memory. -/
def execLmpPolicy (e : Stim) (r : Req) (s : State) : Host.Outcome State Fault Refusal :=
  .next (submitAfter lmpPolicySpec r (s.advance e))

/-- LMP_READ_POLICY (R222). -/
def execLmpReadPolicy (e : Stim) (r : Req) (s : State) : Host.Outcome State Fault Refusal :=
  .next (submitAfter lmpReadPolicySpec r (s.advance e))

/-- BUS_ASSIGN (R367). -/
def execBusAssign (e : Stim) (r : Req) (s : State) : Host.Outcome State Fault Refusal :=
  .next (submitAfter busAssignSpec r (s.advance e))

/-- BUS_CTL (R368). -/
def execBusCtl (e : Stim) (r : Req) (s : State) : Host.Outcome State Fault Refusal :=
  .next (submitAfter busCtlSpec r (s.advance e))

/-- BUS_CAN_CONFIG (R398). -/
def execBusCanConfig (e : Stim) (r : Req) (s : State) : Host.Outcome State Fault Refusal :=
  .next (submitAfter busCanConfigSpec r (s.advance e))

/-- BUS_CAN_FILTER (R377). -/
def execBusCanFilter (e : Stim) (r : Req) (s : State) : Host.Outcome State Fault Refusal :=
  .next (submitAfter busCanFilterSpec r (s.advance e))

/-- BUS_CAN_STATUS (R399). -/
def execBusCanStatus (e : Stim) (r : Req) (s : State) : Host.Outcome State Fault Refusal :=
  .next (submitAfter busCanStatusSpec r (s.advance e))

/-- BUS_CAN_TX (R380, R397). -/
def execBusCanTx (e : Stim) (r : Req) (s : State) : Host.Outcome State Fault Refusal :=
  .next (submitAfter busCanTxSpec r (s.advance e))

/-- BUS_CAN_RX (R397). -/
def execBusCanRx (e : Stim) (r : Req) (s : State) : Host.Outcome State Fault Refusal :=
  .next (submitAfter busCanRxSpec r (s.advance e))

/-- BUS_CAN_TXE (R397). -/
def execBusCanTxe (e : Stim) (r : Req) (s : State) : Host.Outcome State Fault Refusal :=
  .next (submitAfter busCanTxeSpec r (s.advance e))

/-- CPU_PART_CONFIG (R448). -/
def execCpuPartConfig (e : Stim) (r : Req) (s : State) : Host.Outcome State Fault Refusal :=
  .next (submitAfter cpuPartConfigSpec r (s.advance e))

/-- CPU_PART_CTL (R450). -/
def execCpuPartCtl (e : Stim) (r : Req) (s : State) : Host.Outcome State Fault Refusal :=
  .next (submitAfter cpuPartCtlSpec r (s.advance e))

/-- CPU_PART_STATUS (R477). -/
def execCpuPartStatus (e : Stim) (r : Req) (s : State) : Host.Outcome State Fault Refusal :=
  .next (submitAfter cpuPartStatusSpec r (s.advance e))

end Sys2Proof.Machine
end

