-- ==== Sys2Proof/Machine/Vault.lean ====
section
/-!
DEFINITION. The Vault (16): watermarks, gate calls, the mailbox, crypto services and keys, life cycle, debug sessions and
the VLT commands. Log entries 5 and 32.
-/

namespace Sys2Proof.Machine

/-! ### Watermarks (R485 to R488) -/

/-- The memories' bases and ranges of LEVEL. -/
def wmBase (i : Nat) : Nat :=
  if i = 0 then 0x20000000 else if i = 1 then 0x10000000 else if i = 2 then 0x11000000 else 0x30000000 + 0x40000 * (i - 3)
def wmTop (i : Nat) : Nat := if i < 3 then 256 else 4

def State.setWm (s : State) (i : Nat) (x : Wm) : State := { s with vlt := { s.vlt with wm := put s.vlt.wm i x } }

/-- LEVEL as a write names it, at most the top of the memory's range. -/
def wmLevel (i : Nat) (v : Word) : Nat := min (wmTop i) (fld v 8 0)

/-- A page of system SRAM that a configured queue or a virtual instance uses lies below a page number (R488). -/
def State.pagesBelow (s : State) (n : Nat) : Bool :=
  s.que.any (fun p => p.2.depth != 0 && decide (p.2.spill < n)) ||
  s.vis.any (fun p => match p.2 with
    | some v => decide (v.sqBase < n) || decide (v.cqBase < n) || decide (v.ctlPage (p.1 / 256) < n)
    | none => false)

/-- A write to one watermark register. -/
def wmWrite (v : Word) (s : State) (i : Nat) : State :=
  let x := s.wm i
  let y := if bit v 30 then { x with refused := false } else x
  let l := wmLevel i v
  if x.busy then s.setWm i y
  else if x.level < l then
    if i = 0 ∧ s.pagesBelow (l * 16) then s.setWm i { y with refused := true }
    else s.setWm i { y with level := l, target := l }
  else if l < x.level then s.setWm i { y with busy := true, target := l }
  else s.setWm i y

/-- The registers that a write to one applies to: both tiles of a configured quad (R488). -/
def State.wmTargets (s : State) (i : Nat) : List Nat :=
  let quad := fun n => (List.range 8).any (fun p => s.confd p && blkKind (s.blk p) == 1 && blkSeat (s.blk p) == n)
  if (i = 3 ∨ i = 4) ∧ quad 0 then [3, 4] else if (i = 5 ∨ i = 6) ∧ quad 1 then [5, 6] else [i]

/-- The Vault executes. -/
def State.vaultUp (s : State) : Bool := s.running 0 && (s.vlt.mode == .running || s.vlt.mode == .booting)

/-- WM_RAISE (R486, R488): the Vault writes a LEVEL above the present one. -/
def execWmRaise (e : Stim) (idx : Nat) (value : Word) (s : State) : Host.Outcome State Fault Refusal :=
  event e s (fun s => s.vaultUp && decide (idx < 7) && decide ((s.wm idx).level < wmLevel idx value))
    (fun s => (s.wmTargets idx).foldl (wmWrite value) s)

/-- WM_LOWER (R487): the Vault writes a LEVEL below the present one. -/
def execWmLower (e : Stim) (idx : Nat) (value : Word) (s : State) : Host.Outcome State Fault Refusal :=
  event e s (fun s => s.vaultUp && decide (idx < 7) && decide (wmLevel idx value < (s.wm idx).level))
    (fun s => (s.wmTargets idx).foldl (wmWrite value) s)

/-- WM_REFUSED_CLEAR (R485, R487): the Vault writes a 1 to REFUSED. -/
def execWmRefusedClear (e : Stim) (idx : Nat) (value : Word) (s : State) : Host.Outcome State Fault Refusal :=
  event e s (fun s => s.vaultUp && decide (idx < 7) && bit value 30) (fun s => (s.wmTargets idx).foldl (wmWrite value) s)

/-- ZEROISE_COMPLETE (R487): the released range is 0, LEVEL takes TARGET. -/
def execZeroiseComplete (e : Stim) (idx : Nat) (s : State) : Host.Outcome State Fault Refusal :=
  event e s (fun s => decide (idx < 7) && (s.wm idx).busy)
    (fun s =>
      let x := s.wm idx
      (s.clearMem (wmBase idx + x.target * 0x10000) ((x.level - x.target) * 0x10000)).setWm idx
        { x with level := x.target, busy := false })

/-- A watermark register's word (R485). -/
def Wm.word (x : Wm) : Word := wd (b2n x.busy * 2 ^ 31 + b2n x.refused * 2 ^ 30 + x.target * 2 ^ 16 + x.level)

/-! ### Calls (R490, R496, R497) -/

/-- What a call function works on: the tenant, the call block, the bytes of IN and AUX, the capacity of OUT. -/
structure CallIn where
  tenant : Option Nat
  w : List Word
  inp : List Byte := []
  aux : List Byte := []
  cap : Nat := 0
  deriving DecidableEq, Repr

/-- What a call function answers: status, bytes for OUT, result words 1 and 2. -/
structure CallOut where
  st : Status := .ok
  out : List Byte := []
  w1 : Nat := 0
  w2 : Nat := 0
  deriving DecidableEq, Repr

/-- Fields of the call block. -/
def cOpf (w : List Word) : Nat := fld (par w 0) 23 16
def cHandle (w : List Word) : Nat := fld (par w 0) 15 8
def cAlg (w : List Word) : Nat := fld (par w 0) 7 0
/-- Buffer k, 0 IN, 1 AUX, 2 OUT: its address and its length. -/
def cBuf (w : List Word) (k : Nat) : Nat × Nat :=
  ((par w (1 + 2 * k)).toNat + fld (par w (2 + 2 * k)) 7 0 * 2 ^ 32, fld (par w (2 + 2 * k)) 31 8)

/-- FUNC names a call function. -/
def funcIs (f : Nat) : Bool := decide (0x10 ≤ f) && decide (f ≤ 0x1F)

/-- Option bits of a function, and the scalar words that its row of R514 names. -/
def funcOpf (f : Nat) : Nat := if f = 0x12 ∨ f = 0x13 ∨ f = 0x14 then 1 else if f = 0x17 then 3 else 0
def funcScalars (f : Nat) : List Nat :=
  if f = 0x17 ∨ f = 0x18 ∨ f = 0x19 ∨ f = 0x1F then [7] else if f = 0x1D then [7, 8] else []

/-- Reserved fields and undefined option bits of the call block are 0 (R490). -/
def blockOk (f : Nat) (w : List Word) : Bool :=
  fld (par w 0) 31 24 == 0 && (cOpf w &&& funcOpf f) == cOpf w &&
  ((List.range 9).map (· + 7)).all (fun i => (funcScalars f).contains i || par w i == 0)

/-- Two byte ranges share a byte. -/
def overlap (a b : Nat × Nat) : Bool :=
  a.2 != 0 && b.2 != 0 && decide (a.1 < b.1 + b.2) && decide (b.1 < a.1 + a.2)

/-- The buffers of a partition's call (R497). -/
def State.buffersOk (s : State) (p f : Nat) (w : List Word) : Bool :=
  let ok := fun (b : Nat × Nat) perm => b.2 == 0 || (s.inRegion p b.1 b.2 perm && s.clearOfVault b.1 b.2)
  ok (cBuf w 0) 0 && ok (cBuf w 1) 0 && ok (cBuf w 2) 1 && !overlap (cBuf w 2) (cBuf w 1) &&
  (!overlap (cBuf w 2) (cBuf w 0) || (f == 0x13 && cBuf w 0 == cBuf w 2))

/-- A partition's call as its function takes it. -/
def State.partCall (s : State) (t : Option Nat) (w : List Word) : CallIn :=
  { tenant := t, w := w, inp := s.readMem (cBuf w 0).1 (cBuf w 0).2, aux := s.readMem (cBuf w 1).1 (cBuf w 1).2
    cap := (cBuf w 2).2 }

/-- The input data of a Hiast call, from parameter word 16 on, and whether its offsets stay inside it (R496). -/
def hiastOk (ps : List Word) : Bool :=
  let n := (ps.length - 16) * 4
  (cBuf ps 2).1 == 0 && decide ((cBuf ps 2).2 ≤ 4064) &&
  ((cBuf ps 0).2 == 0 || decide ((cBuf ps 0).1 + (cBuf ps 0).2 ≤ n)) &&
  ((cBuf ps 1).2 == 0 || decide ((cBuf ps 1).1 + (cBuf ps 1).2 ≤ n))

def hiastCall (t : Nat) (ps : List Word) : CallIn :=
  let d := wordBytes (ps.drop 16)
  { tenant := some t, w := ps.take 16, inp := (d.drop (cBuf ps 0).1).take (cBuf ps 0).2
    aux := (d.drop (cBuf ps 1).1).take (cBuf ps 1).2, cap := (cBuf ps 2).2 }

/-! ### Keys (R504 to R507) -/

/-- The key in a handle. -/
def State.vkey (s : State) (h : Nat) : Option VKey := look none s.vlt.keys h

/-- A tenant's use of a key: its ALG is one of a list, and its mask has the use. -/
def useKey (t h : Nat) (algs : List Nat) (use : Nat) (s : State) : Except Status VKey :=
  if h < 16 then .error .denied
  else match s.vkey h with
  | none => .error .badParam
  | some k =>
    if k.owner ≠ t then .error .denied
    else if !algs.contains k.alg then .error .badParam
    else if !k.usage.testBit use then .error .denied
    else .ok k

/-- Keys of some kind have this ALG. -/
def keyAlg (a : Nat) : Bool :=
  (decide (0x10 ≤ a) && decide (a ≤ 0x13)) || (decide (0x20 ≤ a) && decide (a ≤ 0x24)) ||
  (decide (0x30 ≤ a) && decide (a ≤ 0x33)) || (decide (0x40 ≤ a) && decide (a ≤ 0x42))

/-- Handles that hold no key. -/
def State.freeHandles (s : State) : List Nat := ((List.range 240).map (· + 16)).filter (fun h => (s.vkey h).isNone)

/-- A key takes a free handle, which one the spec leaves open (DEDUCED, log 32); BUSY with none free or past 128
persistent
keys. -/
def newKey (k : VKey) (out : CallOut) (s : State) : CallOut × State :=
  let l := s.freeHandles
  let n := (s.vlt.keys.filter (fun p => p.2.any (·.persist))).length
  if l = [] ∨ (k.persist ∧ 128 ≤ n) then ({ st := .busy }, s)
  else
    let r := s.drawNat
    let h := l.getD (r.1 % l.length) 16
    ({ out with w1 := h }, { r.2 with vlt := { r.2.vlt with keys := put r.2.vlt.keys h (some k) } })

/-- Word 7 of a key creation: usage and PERSIST. -/
def keyWordOk (w : List Word) : Bool := within (par w 7) 0x13F

/-- Digest lengths of ALG 1 to 6. -/
def hashLen (a : Nat) : Nat := if a = 1 ∨ a = 4 then 32 else if a = 2 ∨ a = 5 then 48 else 64
/-- Tag lengths of ALG 0x10 to 0x13. -/
def macLen (a : Nat) : Nat := if a = 0x10 then 32 else if a = 0x11 then 48 else if a = 0x12 then 64 else 16
/-- Signature lengths (R505). -/
def sigLen (a : Nat) : Nat := if a = 0x31 then 96 else if a = 0x33 then 3309 else 64
/-- Public key lengths (R505). -/
def pubLen (a : Nat) : Nat :=
  if a = 0x30 ∨ a = 0x40 then 65 else if a = 0x31 ∨ a = 0x41 then 97 else if a = 0x32 then 32
  else if a = 0x33 then 1952 else 1184

/-- A function's failing answer. -/
def callFail (st : Status) (s : State) : CallOut × State := ({ st := st }, s)

/-- An output that needs room in OUT. -/
def callOut (c : CallIn) (b : List Byte) (s : State) : CallOut × State :=
  if c.cap < b.length then callFail .badParam s else ({ out := b }, s)

/-- Random bytes, counted as a request of the DRBG (R508). -/
def draw (n : Nat) (s : State) : List Byte × State :=
  let r := s.drawBytes n
  (r.1, { r.2 with vlt := { r.2.vlt with requests := r.2.vlt.requests + 1 } })

/-! ### Call functions (R514) -/

def callRandom (c : CallIn) (s : State) : CallOut × State :=
  if c.cap = 0 ∨ 4096 < c.cap then callFail .badParam s
  else if !s.vlt.drbgOk then callFail .internal s
  else let r := draw c.cap s
    ({ out := r.1 }, r.2)

def callHash (c : CallIn) (s : State) : CallOut × State :=
  let a := cAlg c.w
  if a = 0 ∨ 6 < a then callFail .badParam s
  else callOut c (fit (hashLen a) (Config.hash a c.inp)) s

def callMac (t : Nat) (c : CallIn) (s : State) : CallOut × State :=
  let a := cAlg c.w
  if a < 0x10 ∨ 0x13 < a then callFail .badParam s
  else match useKey t (cHandle c.w) [a] 4 s with
  | .error st => callFail st s
  | .ok k =>
    let tag := fit (macLen a) (Config.keyed a k.material [c.inp])
    if (cOpf c.w).testBit 0 then (if c.aux = tag then ({}, s) else callFail .authFail s) else callOut c tag s

/-- Lengths of R505 for the ciphers. -/
def cipherOk (a n aux : Nat) : Bool :=
  if a = 0x20 then n % 16 == 0
  else if a = 0x21 then n % 16 == 0 && aux == 16
  else if a = 0x22 then aux == 16
  else n % 16 == 0 && decide (16 ≤ n) && aux == 16

def callCipher (t : Nat) (c : CallIn) (s : State) : CallOut × State :=
  let a := cAlg c.w
  let dec := (cOpf c.w).testBit 0
  if a < 0x20 ∨ 0x23 < a ∨ !cipherOk a c.inp.length c.aux.length then callFail .badParam s
  else match useKey t (cHandle c.w) [a] (if dec then 1 else 0) s with
  | .error st => callFail st s
  | .ok k => callOut c (fit c.inp.length (Config.keyed (a + 0x100 * b2n dec) k.material [c.aux, c.inp])) s

def callAead (t : Nat) (c : CallIn) (s : State) : CallOut × State :=
  let opn := (cOpf c.w).testBit 0
  let n := c.inp.length
  if cAlg c.w ≠ 0x24 ∨ c.aux.length < 12 ∨ (opn ∧ n < 16) then callFail .badParam s
  else match useKey t (cHandle c.w) [0x24] (if opn then 1 else 0) s with
  | .error st => callFail st s
  | .ok k =>
    if !opn then callOut c (fit (n + 16) (Config.keyed 0x24 k.material [c.aux, c.inp])) s
    else if c.cap < n - 16 then callFail .badParam s
    else if Config.verifies 0x24 k.material (c.aux ++ c.inp.take (n - 16)) (c.inp.drop (n - 16)) then
      ({ out := fit (n - 16) (Config.keyed 0x124 k.material [c.aux, c.inp.take (n - 16)]) }, s)
    else ({ st := .authFail, out := List.replicate (n - 16) 0 }, s)

def callSign (t : Nat) (c : CallIn) (s : State) : CallOut × State :=
  let a := cAlg c.w
  if a < 0x30 ∨ 0x33 < a then callFail .badParam s
  else match useKey t (cHandle c.w) [a] 2 s with
  | .error st => callFail st s
  | .ok k =>
    let r := s.drawBytes 32
    callOut c (fit (sigLen a) (Config.keyed a k.material [c.inp, r.1])) r.2

def callVerify (t : Nat) (c : CallIn) (s : State) : CallOut × State :=
  let a := cAlg c.w
  if a < 0x30 ∨ 0x33 < a then callFail .badParam s
  else match useKey t (cHandle c.w) [a] 3 s with
  | .error st => callFail st s
  | .ok k =>
    if c.aux.length = sigLen a ∧ Config.verifies a k.material c.inp c.aux then ({}, s) else callFail .authFail s

/-- ALG of the key that an exchange makes (R507). -/
def kexAlgOk (a : Nat) : Bool := (decide (0x10 ≤ a) && decide (a ≤ 0x12)) || (decide (0x20 ≤ a) && decide (a ≤ 0x24))

/-- The secret of an exchange becomes a volatile key; its usage mask is not stated (DEDUCED, log 32). -/
def kexKey (t : Nat) (c : CallIn) (secret : List Byte) (out : CallOut) (s : State) : CallOut × State :=
  let a := (par c.w 7).toNat
  let r := s.drawNat
  newKey { alg := a, usage := r.1 % 64, owner := t, material := if a < 0x20 then secret else secret.take 32 } out r.2

def callKex (t : Nat) (c : CallIn) (s : State) : CallOut × State :=
  let a := cAlg c.w
  let op := cOpf c.w % 4
  if !kexAlgOk (par c.w 7).toNat then callFail .badParam s
  else if op = 0 ∧ (a = 0x40 ∨ a = 0x41) ∧ c.aux.length = pubLen a then
    match useKey t (cHandle c.w) [a] 5 s with
    | .error st => callFail st s
    | .ok k => kexKey t c (fit (if a = 0x40 then 32 else 48) (Config.keyed a k.material [c.aux])) {} s
  else if op = 1 ∧ a = 0x42 ∧ c.aux.length = 1184 ∧ 1088 ≤ c.cap then
    let r := s.drawBytes 32
    kexKey t c (fit 32 (Config.keyed 0x242 c.aux [r.1])) { out := fit 1088 (Config.keyed 0x142 c.aux [r.1]) } r.2
  else if op = 2 ∧ a = 0x42 ∧ c.inp.length = 1088 then
    match useKey t (cHandle c.w) [a] 5 s with
    | .error st => callFail st s
    | .ok k => kexKey t c (fit 32 (Config.keyed 0x342 k.material [c.inp])) {} s
  else callFail .badParam s

def callKeyGen (t : Nat) (c : CallIn) (s : State) : CallOut × State :=
  if !keyAlg (cAlg c.w) ∨ !keyWordOk c.w then callFail .badParam s
  else if !s.vlt.drbgOk then callFail .internal s
  else
    let r := draw 64 s
    newKey { alg := cAlg c.w, usage := fld (par c.w 7) 5 0, persist := bit (par c.w 7) 8, owner := t, material := r.1 } {} r.2

/-- Plain key lengths that R504 states. -/
def plainOk (a n : Nat) : Bool := if a = 0x13 then n == 16 || n == 32 else if a = 0x23 then n == 64 else n != 0

def callKeyImport (t : Nat) (c : CallIn) (s : State) : CallOut × State :=
  let a := cAlg c.w
  let n := c.inp.length
  let put := fun m => newKey { alg := a, usage := fld (par c.w 7) 5 0, persist := bit (par c.w 7) 8, owner := t, material := m } {} s
  if cHandle c.w = 0xFF then
    if s.ident.lc ≠ .manufacture ∧ s.ident.lc ≠ .provisioned then callFail .lifecycle s
    else if !keyAlg a ∨ !keyWordOk c.w ∨ !plainOk a n then callFail .badParam s
    else put c.inp
  else if !keyAlg a ∨ !keyWordOk c.w ∨ n < 28 ∨ !plainOk a (n - 28) then callFail .badParam s
  else match useKey t (cHandle c.w) [0x24] 1 s with
  | .error st => callFail st s
  | .ok k =>
    let iv := c.inp.take 12
    let ct := (c.inp.drop 12).take (n - 28)
    if Config.verifies 0x24 k.material (iv ++ c.aux ++ ct) (c.inp.drop (n - 16)) then
      put (fit (n - 28) (Config.keyed 0x124 k.material [iv ++ c.aux, ct]))
    else callFail .authFail s

def callKeyPublic (t : Nat) (c : CallIn) (s : State) : CallOut × State :=
  let h := cHandle c.w
  let give := fun a m => callOut c (fit (pubLen a) (Config.keyed (0x400 + a) m [])) s
  if h < 3 then give (if h = 0 then 0x31 else if h = 1 then 0x33 else 0x42) (Config.deviceKey h)
  else if h < 16 then callFail .denied s
  else match s.vkey h with
  | none => callFail .badParam s
  | some k => if k.owner ≠ t then callFail .denied s else if k.alg < 0x30 then callFail .badParam s else give k.alg k.material

def callKeyDelete (t : Nat) (c : CallIn) (s : State) : CallOut × State :=
  let h := cHandle c.w
  if h < 16 then callFail .denied s
  else match s.vkey h with
  | none => callFail .badParam s
  | some k =>
    if k.owner ≠ t ∧ t ≠ 0 then callFail .denied s
    else ({}, { s with vlt := { s.vlt with keys := put s.vlt.keys h none } })

def callKeyInfo (t : Nat) (c : CallIn) (s : State) : CallOut × State :=
  let h := cHandle c.w
  if h < 16 then callFail .denied s
  else match s.vkey h with
  | none => callFail .badParam s
  | some k =>
    if k.owner ≠ t then callFail .denied s
    else ({ w1 := k.alg + k.usage * 2 ^ 8 + b2n k.persist * 2 ^ 16 + k.owner * 2 ^ 24 }, s)

def callCert (c : CallIn) (s : State) : CallOut × State :=
  if 1 < (par c.w 7).toNat then callFail .badParam s
  else
    let d := Config.cert (par c.w 7).toNat s.ident.primary
    ({ out := (d.drop (par c.w 8).toNat).take c.cap, w1 := d.length }, s)

def callLcNonce (c : CallIn) (s : State) : CallOut × State :=
  if c.cap < 16 then callFail .badParam s
  else if !s.vlt.drbgOk then callFail .internal s
  else
    let r := draw 16 s
    ({ out := r.1 }, { r.2 with vlt := { r.2.vlt with nonce := some (r.1, r.2.clk) } })

/-! ### Life cycle and tokens (R510 to R513) -/

/-- LC codes. -/
def LifeCycle.code : LifeCycle → Nat
  | .blank => 0 | .manufacture => 1 | .provisioned => 2 | .field => 3 | .service => 4 | .ret => 5 | .retired => 6
def lcOf (n : Nat) : LifeCycle :=
  if n = 0 then .blank else if n = 1 then .manufacture else if n = 2 then .provisioned else if n = 3 then .field
  else if n = 4 then .service else if n = 5 then .ret else .retired

/-- Who authorises: nobody beyond T0, the owner's keys, Vessenholm's, or either. -/
inductive Auth where
  | none | owner | vess | either
  deriving DecidableEq, Repr

/-- The authority of a move (R511). -/
def moveAuth (l : LifeCycle) (target : Nat) : Option Auth :=
  match l, target with
  | .manufacture, 2 => some .none
  | .provisioned, 3 => some .none
  | .field, 4 => some .owner
  | .service, 3 => some .owner
  | .provisioned, 5 => some .vess
  | .field, 5 => some .vess
  | .service, 5 => some .vess
  | .ret, 6 => some .either
  | .retired, _ => none
  | .blank, _ => none
  | _, 6 => some .owner
  | _, _ => none

/-- Both signatures of a token verify under an authority's keys. -/
def sigsOk (a : Auth) (tok : List Byte) (s : State) : Bool :=
  let m := tok.take 32
  let two := fun k => Config.verifies 0x131 k m ((tok.drop 32).take 96) && Config.verifies 0x133 k m (tok.drop 128)
  match a with
  | .none => true
  | .owner => s.ident.ownerHash != [] && two s.ident.ownerHash
  | .vess => two Config.vessenholmKey
  | .either => (s.ident.ownerHash != [] && two s.ident.ownerHash) || two Config.vessenholmKey

/-- A token passes R512 but for its nonce and signatures. -/
def tokenOk (tok : List Byte) (target : Nat) (s : State) : Bool :=
  tok.length == 3437 && le tok 0 1 == 1 && le tok 1 1 == target && le tok 4 5 == le s.ident.primary 0 5 &&
  ((tok.drop 9).take 7).all (· == 0)

/-- A token's NONCE is the one issued, within [issue, issue + 10 min). -/
def nonceOk (n : Option (List Byte × Nat)) (tok : List Byte) (s : State) : Bool :=
  n.any (fun x => x.1 == (tok.drop 16).take 16 && decide (s.clk < x.2 + 600000000000))

/-- The token names the nonce issued: its first use consumes it. -/
def nonceUsed (n : Option (List Byte × Nat)) (tok : List Byte) : Bool := n.any (fun x => x.1 == (tok.drop 16).take 16)

/-- VLT_LC_ADVANCE up to the writing of its fuses: a failing status, or the hashes to fuse. -/
def lcAdvance (c : CallIn) (s : State) : Except Status (List Byte) × State :=
  let t := fld (par c.w 7) 2 0
  if 7 < (par c.w 7).toNat then (.error .badParam, s)
  else match moveAuth s.ident.lc t with
  | none => (.error .badParam, s)
  | some .none =>
    if s.ident.lc = .manufacture then (if c.inp.length = 96 then (.ok c.inp, s) else (.error .badParam, s)) else (.ok [], s)
  | some a =>
    let ok := tokenOk c.inp t s && le c.inp 2 2 == 0 && nonceOk s.vlt.nonce c.inp s && sigsOk a c.inp s
    let s1 := if nonceUsed s.vlt.nonce c.inp then { s with vlt := { s.vlt with nonce := none } } else s
    if ok then (.ok [], s1) else (.error .authFail, s1)

/-! ### Running a call -/

/-- A call's rights (R497, R510, R514): the failing status. -/
def callRight (f : Nat) (t : Option Nat) (s : State) : Option Status :=
  if !funcIs f then some .badOpcode
  else match t with
  | none => if f = 0x10 ∨ f = 0x11 then (if s.ident.lc = .retired then some .lifecycle else none) else some .denied
  | some t =>
    if f = 0x1F ∧ t ≠ 0 then some .denied
    else if t ≠ 0 ∧ !(s.tenant t).groups.testBit 15 then some .denied
    else if s.ident.lc = .retired then some .lifecycle
    else none

/-- A function at the end of its call; none for an advance whose fuses are now being written. -/
def callRun (f : Nat) (c : CallIn) (who : Caller) (s : State) : Option CallOut × State :=
  let t := c.tenant.getD 0
  let one := fun (r : CallOut × State) => (some r.1, r.2)
  match f with
  | 0x10 => one (callRandom c s)
  | 0x11 => one (callHash c s)
  | 0x12 => one (callMac t c s)
  | 0x13 => one (callCipher t c s)
  | 0x14 => one (callAead t c s)
  | 0x15 => one (callSign t c s)
  | 0x16 => one (callVerify t c s)
  | 0x17 => one (callKex t c s)
  | 0x18 => one (callKeyGen t c s)
  | 0x19 => one (callKeyImport t c s)
  | 0x1A => one (callKeyPublic t c s)
  | 0x1B => one (callKeyDelete t c s)
  | 0x1C => one (callKeyInfo t c s)
  | 0x1D => one (callCert c s)
  | 0x1E => one (callLcNonce c s)
  | 0x1F =>
    let r := lcAdvance c s
    match r.1 with
    | .error st => (some { st := st }, r.2)
    | .ok h => (none, { r.2 with vlt := { r.2.vlt with fuse := some { target := fld (par c.w 7) 2 0, hash := h, caller := who } } })
  | _ => (some { st := .badOpcode }, s)

/-- A partition's call, by gate or slot: its checks, then its function. -/
def partRun (p f : Nat) (t : Option Nat) (w : List Word) (who : Caller) (s : State) : Option CallOut × State :=
  match callRight f t s with
  | some st => (some { st := st }, s)
  | none =>
    if !blockOk f w || !s.buffersOk p f w then (some { st := .badParam }, s)
    else callRun f (s.partCall t w) who s

/-- A call in progress: who, when it was accepted (R498), FUNC, HANDLE. -/
structure InCall where
  who : Caller
  at_ : Nat
  func : Nat
  handle : Nat
  deriving DecidableEq, Repr

/-- The call block of a gate call (R491). -/
def gateBlock (g : Shadow) : List Word :=
  (List.range 8).flatMap (fun k =>
    let v := (look (0 : BitVec 64) g.x (10 + k)).toNat
    [wd v, wd (v / 2 ^ 32)])

/-- The calls in progress: gate calls, and the slot being served. -/
def State.calls (s : State) : List InCall :=
  (List.range 4).filterMap (fun h => (s.hart h).gate.map (fun g =>
    { who := Caller.hart h, at_ := g.since, func := g.func, handle := cHandle (gateBlock g) })) ++
  (match s.vlt.serving with
   | some (n, at_) => [{ who := Caller.slot n, at_ := at_, func := (s.slot n).func, handle := cHandle (s.slot n).call }]
   | none => [])

/-- FUNC takes a key handle. -/
def takesHandle (f : Nat) : Bool := (decide (0x12 ≤ f) && decide (f ≤ 0x1C) && f != 0x18)

/-- A call in progress has run for 50 ms: it ends by a restart alone (R492, R495). -/
def InCall.hung (c : InCall) (now : Nat) : Bool := decide (c.at_ + 50000000 ≤ now)

/-- A call ends only after the calls accepted before it that name its handle; an advance waits for every call in
progress, and later calls wait for it (R498, R511). -/
def State.mayEnd (s : State) (who : Caller) : Bool :=
  s.vlt.fuse.isNone && match s.calls.find? (fun c => c.who == who) with
  | none => false
  | some c => !c.hung s.clk && s.calls.all (fun d => d.who == who || decide (c.at_ ≤ d.at_) ||
      !(c.func == 0x1F || d.func == 0x1F || (takesHandle c.func && takesHandle d.func && c.handle == d.handle)))

/-- A gate call ends with its function's answer (R491). -/
def gateEnd (h : Nat) (o : CallOut) (s : State) : State :=
  match (s.hart h).gate with
  | none => s
  | some g =>
    let s1 := s.writeMem (cBuf (gateBlock g) 2).1 o.out
    if o.st = .ok then gateReturn h 0 o.out.length o.w1 o.w2 s1 else gateReturn h o.st.code 0 0 0 s1

/-- Service time charged in the present window of 10 ms, what lies beyond VBUDGET carried on (R495). -/
def State.served (s : State) : Nat :=
  s.vlt.used - (s.clk / 10000000 - s.vlt.win) * (s.vlt.budget * 1000)

/-- A command that waits takes a free slot of Teller's (R496). -/
def vltFill (s : State) : State :=
  match s.vlt.waiting, ((List.range 16).map (· + 48)).find? (fun n => (s.slot n).st == .free) with
  | id :: rest, some n =>
    let s1 := { s with vlt := { s.vlt with waiting := rest } }
    match s.cmd? id with
    | some c =>
      let s2 := s1.setSlot n { st := .posted, func := c.opcode % 256, call := c.params.take 16, at_ := s.vlt.nextPost
                               cmd := some id }
      { s2 with vlt := { s2.vlt with nextPost := s2.vlt.nextPost + 1 } }
    | none => s1
  | _, _ => s

/-- A call in a slot ends with its function's answer (R494, R496). -/
def slotEnd (n : Nat) (o : CallOut) (s : State) : State :=
  let x := s.slot n
  let s1 := serviceEnd s
  let s2 := if n < 48 then s1.writeMem (cBuf x.call 2).1 o.out else s1
  let s3 := slotDone n o.st.code [wd o.out.length, wd o.w1, wd o.w2] (if o.st = .ok then o.out else []) s2
  if 48 ≤ n then vltFill s3 else s3

/-- The call of slot n: a partition's, or a Hiast command's. -/
def slotRun (n : Nat) (s : State) : Option CallOut × State :=
  let x := s.slot n
  match x.cmd.bind s.cmd? with
  | some c =>
    if !blockOk x.func x.call || !hiastOk c.params then (some { st := .badParam }, s)
    else callRun x.func (hiastCall c.tenant c.params) (.slot n) s
  | none =>
    match x.part with
    | some p => partRun p x.func (s.boundTen p) x.call (.slot n) s
    | none => (some { st := .denied }, s)

/-! ### Gate calls (R489 to R492) -/

/-- A store to VGATE that enters no call returns at once with a status in a0. -/
def gateRefuse (h status : Nat) (s : State) : State :=
  s.setHart h (((s.hart h).setReg 10 (BitVec.ofNat 64 status)).setReg 11 0)

/-- A store to VGATE. The operand holds the address after the store and then x1 to x31 as the hart holds them. -/
def vgateStore (h width value : Nat) (x : List Nat) (s : State) : State :=
  let old := s.hart h
  let regs := (List.range 31).foldl (fun r i => put r (i + 1) (BitVec.ofNat 64 (x.getD (i + 1) 0))) old.x
  let s1 := s.setHart h { old with x := regs, pc := BitVec.ofNat 64 (x.getD 0 0) }
  if 4 ≤ h ∨ width ≠ 64 ∨ 256 ≤ value then takeExc h 7 0x50000000 s
  else match s.vlt.mode with
  | .restarting => gateRefuse h 0x403 s1
  | .booting => gateRefuse h 0x300 s1
  | .suspended => gateRefuse h 0x300 s1
  | .failed => gateRefuse h 0xFFFF s1
  | .retired => gateRefuse h 0x202 s1
  | .running =>
    let y := s1.hart h
    let g : Shadow := { x := y.x, f := y.f, fcsr := y.fcsr, pc := y.pc, func := value % 256
                        tenant := (s.partOfHart h).bind s.boundTen, since := s.clk }
    s1.setHart h { y with gate := some g }

/-- VGATE_STORE (R489, R492). -/
def execVgateStore (e : Stim) (hart width value : Nat) (x : List Nat) (s : State) : Host.Outcome State Fault Refusal :=
  event e s (fun s => decide (hart < 8) && s.running 0 && s.hartRuns hart && (s.hart hart).gate.isNone &&
    (s.partOfHart hart).isSome)
    (vgateStore hart width value x)

/-- GATE_RETURN (R491): the Vault has carried out the call of a hart. -/
def execGateReturn (e : Stim) (hart : Nat) (s : State) : Host.Outcome State Fault Refusal :=
  event e s (fun s => s.running 0 && s.vlt.mode == .running && s.mayEnd (.hart hart))
    (fun s =>
      match (s.hart hart).gate with
      | none => s
      | some g =>
        let r := partRun ((s.partOfHart hart).getD 0) g.func g.tenant (gateBlock g) (.hart hart) s
        match r.1 with
        | some o => gateEnd hart o r.2
        | none => r.2)

/-! ### The mailbox (R493 to R495) -/

/-- A requester's access to a slot: refused and recorded, the first of each second, unless its partition is assigned
the slot. -/
def slotOp (who n : Nat) (f : State → State) (s : State) : State :=
  if 64 ≤ n then s
  else if (s.slot n).part.any (fun p => 0x100 + p == who) then f s
  else logFirst 4 0x48 0xFF (0x60000000 + 0x80 * n) s

/-- A word of a mailbox slot (R493). -/
def MbSlot.word (x : MbSlot) (off : Nat) : Word :=
  if off = 4 then wd (x.status * 2 ^ 16 + (match x.st with | .free => 0 | .posted => 1 | .running => 2 | .done => 3))
  else if off = 8 then wd (x.func + x.seq * 2 ^ 16)
  else if 0x10 ≤ off ∧ off < 0x50 then par x.call ((off - 0x10) / 4)
  else if 0x50 ≤ off ∧ off < 0x5C then par x.res ((off - 0x50) / 4)
  else 0

/-- POST (R494). -/
def slotPost (n : Nat) (s : State) : State :=
  let x := s.slot n
  if x.st = .free then
    let s1 := s.setSlot n { x with st := .posted, at_ := s.vlt.nextPost }
    let s2 := { s1 with vlt := { s1.vlt with nextPost := s1.vlt.nextPost + 1 } }
    if s.vlt.mode = .failed then slotDone n 0xFFFF [] [] s2
    else if s.vlt.mode = .retired then slotDone n 0x202 [] [] s2
    else s2
  else s

/-- RELEASE (R494). -/
def slotRelease (n : Nat) (s : State) : State :=
  let x := s.slot n
  if x.st = .done ∨ x.st = .posted then s.setSlot n { x with st := .free } else s

/-- MB_POST (R494). -/
def execMbPost (e : Stim) (who slot : Nat) (s : State) : Host.Outcome State Fault Refusal :=
  event e s (fun _ => true) (slotOp who slot (slotPost slot))

/-- MB_RELEASE (R494). -/
def execMbRelease (e : Stim) (who slot : Nat) (s : State) : Host.Outcome State Fault Refusal :=
  event e s (fun _ => true) (slotOp who slot (slotRelease slot))

/-- The POSTED slot that is served next. -/
def State.nextSlot (s : State) : Option Nat :=
  ((List.range 64).filter (fun n => (s.slot n).st == .posted)).foldl (fun b n =>
    match b with
    | none => some n
    | some m => if (s.slot n).at_ < (s.slot m).at_ then some n else b) none

/-- The home pair can serve (R495): also while CPX quiesces, until the calls accepted have ended (01 R22). -/
def State.homeUp (s : State) : Bool :=
  let r := (s.pair s.vlt.home).role
  s.alive 0 && s.vlt.mode == .running && r != .split && r != .stopped

/-- MAILBOX_SERVE (R495). -/
def execMailboxServe (e : Stim) (s : State) : Host.Outcome State Fault Refusal :=
  event e s (fun s => s.homeUp && s.vlt.serving.isNone && s.vlt.fuse.isNone && s.nextSlot.isSome &&
    decide (s.served < s.vlt.budget * 1000))
    (fun s => match s.nextSlot with
      | some n =>
        let s1 := s.setSlot n { s.slot n with st := .running }
        { s1 with vlt := { s1.vlt with serving := some (n, s.clk), used := s.served, win := s.clk / 10000000 } }
      | none => s)

/-- MAILBOX_DONE (R494, R495). -/
def execMailboxDone (e : Stim) (s : State) : Host.Outcome State Fault Refusal :=
  event e s (fun s => s.homeUp && s.vlt.serving.any (fun x => s.mayEnd (.slot x.1)))
    (fun s => match s.vlt.serving with
      | some (n, _) =>
        let r := slotRun n s
        match r.1 with
        | some o => slotEnd n o r.2
        | none => r.2
      | none => s)

/-! ### Restart, randomness, fuses (R501 to R503, R508, R511) -/

/-- VAULT_RESTART (R501): a crash. -/
def execVaultRestart (e : Stim) (cause : Nat) (s : State) : Host.Outcome State Fault Refusal :=
  event e s (fun s => s.vlt.mode == .running && cause == 1) (vaultRestart 1)

/-- VAULT_HANG (R501): a call has reached 50 ms, or there was no liveness write for 5 ms in RUNNING. -/
def execVaultHang (e : Stim) (s : State) : Host.Outcome State Fault Refusal :=
  event e s (fun s => s.vlt.mode == .running &&
    (s.calls.any (·.hung s.clk) || decide (s.vlt.runAt + 5000000 ≤ s.clk))) (vaultRestart 2)

/-- The end of a restart is posted and recorded (R502 step 7, R516). -/
def restartNote (s : State) : State :=
  let st := if s.vlt.mode = .running then 1 else 4
  logNotice (s.holders 15) 0xFF 0x4801
    [wd (st + s.vlt.cause * 2 ^ 8 + s.vlt.restarts * 2 ^ 16), wd ((s.clk - s.vlt.since) / 1000)] s

/-- The Vault has been measured and starts, or fails (R482, R502, R503). -/
def vaultRunning (digest : List Byte) (s : State) : State :=
  let v := s.vlt
  let d := fit 48 digest
  let up := { v with mode := VaultMode.running, drbgOk := true, reseedAt := s.clk, runAt := s.clk, requests := 0, newImage := false
                     released := false, restartCmds := [] }
  if v.mode = .booting then finishAll v.restartCmds .ok { s with vlt := { up with meas := d } }
  else if v.cause = 4 ∨ v.newImage ∨ v.meas = d then
    finishAll v.restartCmds .ok (restartNote { s with vlt := { up with meas := if v.cause = 4 ∨ v.newImage then d else v.meas } })
  else
    let s1 := { s with vlt := { v with mode := .failed, restartCmds := [] } }
    finishAll v.restartCmds .internal (restartNote (slotsOut 0xFFFF s1))

/-- VAULT_RUNNING (R502 steps 5 to 7): the digest measured of the image. A revert or activation of the Vault's image is
complete with it (18 R565, by its own row). -/
def execVaultRunning (e : Stim) (digest : List Byte) (s : State) : Host.Outcome State Fault Refusal :=
  event e s (fun s => s.running 0 && (s.vlt.mode == .booting || s.vlt.mode == .restarting) && s.ident.lc != .blank &&
    s.ident.lc != .retired) (vaultRunning digest)

/-- DRBG_RESEED (R508): a reseed, or a failed health test, which is recorded. -/
def execDrbgReseed (e : Stim) (failed : Bool) (s : State) : Host.Outcome State Fault Refusal :=
  event e s (fun s => s.vlt.mode == .running)
    (fun s =>
      if failed then logObj 0x48 0xFF 0 0 0 { s with vlt := { s.vlt with drbgOk := false } }
      else { s with vlt := { s.vlt with reseedAt := s.clk, requests := 0 } })

/-- The fuses of a move are written (R511, R516). -/
def fuseDone (f : FuseWrite) (s : State) : State :=
  let old := s.ident.lc
  let new := lcOf f.target
  let keys := if new = .ret ∨ new = .retired then [] else s.vlt.keys
  let h := if f.hash = [] then s.ident.ownerHash else f.hash
  let s1 := { s with ident := { s.ident with lc := new, ownerHash := h }
                     vlt := { s.vlt with fuse := none, keys := keys, volKeys := if new = .retired then [] else s.vlt.volKeys }
                     sto := { s.sto with slots := if new = .retired then [] else s.sto.slots } }
  let s2 := notice 0 0x4802 [wd (f.target + old.code * 2 ^ 4)] s1
  let s3 := match f.caller with
    | .hart n => gateEnd n {} s2
    | .slot n => slotEnd n {} s2
    | .gone => s2
  if new = .retired then slotsOut 0x202 (gatesOut 0x202 { s3 with vlt := { s3.vlt with mode := .retired } }) else s3

/-- FUSE_WRITE_COMPLETE (R511): a restart meanwhile does not interrupt it. -/
def execFuseWriteComplete (e : Stim) (s : State) : Host.Outcome State Fault Refusal :=
  event e s (fun s => s.vlt.fuse.isSome) (fun s => match s.vlt.fuse with
    | some f => fuseDone f s
    | none => s)

/-- VAULT_CLAIM_RELEASE (R499): for a power state or a shut-down audit. -/
def execVaultClaimRelease (e : Stim) (s : State) : Host.Outcome State Fault Refusal :=
  event e s (fun s => s.pow.mode != .run) (fun s => { s with vlt := { s.vlt with released := true } })

/-! ### Debug sessions (R510, R513) -/

/-- Debug scopes of a state, and the authority that grants them (R510). -/
def debugScopes : LifeCycle → Nat
  | .blank => 31 | .manufacture => 31 | .provisioned => 11 | .service => 11 | .ret => 31 | _ => 0
def debugAuth : LifeCycle → Option Auth
  | .blank => some .none | .manufacture => some .vess | .provisioned => some .owner | .service => some .owner
  | .ret => some .vess | _ => none

/-- DBGNONCE (R513). -/
def execDbgnonce (e : Stim) (s : State) : Host.Outcome State Fault Refusal :=
  let r := (s.advance e).drawBytes 16
  .next { r.2 with vlt := { r.2.vlt with debugNonce := some (r.1, r.2.clk) }, rdata := wordsOf 4 r.1 }

/-- A token shifted in by DBGAUTH. -/
def debugAuthorise (tok : List Byte) (s : State) : State :=
  let l := s.ident.lc
  let ok := match debugAuth l with
    | some a => tokenOk tok l.code s && nonceOk s.vlt.debugNonce tok s && sigsOk a tok s
    | none => false
  let s1 := if nonceUsed s.vlt.debugNonce tok then { s with vlt := { s.vlt with debugNonce := none } } else s
  if ok then
    let scope := le tok 2 2 &&& debugScopes l
    let s2 := { s1 with vlt := { s1.vlt with session := some ((s1.vlt.session.getD 0) ||| scope) } }
    logNotice [0] 0xFF 0x4803 [wd (scope + 2 ^ 16)] s2
  else s1

/-- DBGAUTH (R513). -/
def execDbgauth (e : Stim) (token : List Byte) (s : State) : Host.Outcome State Fault Refusal :=
  .next (debugAuthorise token (s.advance e))

/-- The end of a debug session is posted and recorded (R513, R516). -/
def sessionEnd (s : State) : State :=
  match s.vlt.session with
  | some w => logNotice [0] 0xFF 0x4803 [wd w] { s with vlt := { s.vlt with session := none } }
  | none => s

/-- DBGEND (R513). -/
def execDbgend (e : Stim) (s : State) : Host.Outcome State Fault Refusal :=
  event e s (fun s => s.vlt.session.isSome) sessionEnd

/-! ### VLT commands (R514, R515) -/

def VaultMode.code : VaultMode → Nat
  | .booting => 0 | .running => 1 | .restarting => 2 | .suspended => 3 | .failed => 4 | .retired => 5

/-- VSTATE. -/
def State.vstate (s : State) : Word :=
  wd (s.vlt.restarts * 2 ^ 24 + s.vlt.cause * 2 ^ 16 + s.ident.lc.code * 2 ^ 12 + s.vlt.home * 2 ^ 8 + s.vlt.mode.code)

/-- A word of the Vault's register page (R484). -/
def State.vaultWord (s : State) (off : Nat) : Word :=
  if off < 0x1C then (s.wm (off / 4)).word
  else if off = 0x20 then s.vstate
  else if 0x40 ≤ off ∧ off < 0x70 then wd (le s.vlt.meas (off - 0x40) 4)
  else 0

def vltStatusSpec : OpSpec :=
  { opcode := 0x4801, plen := (· == 0)
    free := fun _ => true
    exec := fun _ s =>
      let l := fun i => (s.wm i).level
      .done .ok [s.vstate, wd (l 0 + l 1 * 2 ^ 16), wd (l 2), wd (l 3 + l 4 * 2 ^ 8 + l 5 * 2 ^ 16 + l 6 * 2 ^ 24)] s }

/-- VLT_STATUS (R514). -/
def execVltStatus (e : Stim) (r : Req) (s : State) : Host.Outcome State Fault Refusal :=
  .next (submit vltStatusSpec r (s.advance e))

def vltConfigSpec : OpSpec :=
  { opcode := 0x4802, plen := (· == 1), right := onlyT0
    parm := fun _ ps _ => need (within (par ps 0) 0x3FFF0003 && decide (100 ≤ fld (par ps 0) 29 16) &&
      decide (fld (par ps 0) 29 16 ≤ 10000))
    exec := fun c s =>
      .okay { s with vlt := { s.vlt with home := fld (par c.params 0) 1 0, budget := fld (par c.params 0) 29 16
                                         used := s.served, win := s.clk / 10000000 } } }

/-- VLT_CONFIG (R514). -/
def execVltConfig (e : Stim) (r : Req) (s : State) : Host.Outcome State Fault Refusal :=
  .next (submit vltConfigSpec r (s.advance e))

def vltMboxAssignSpec : OpSpec :=
  { opcode := 0x4803, plen := (· == 1), right := onlyT0
    parm := fun _ ps _ => need (within (par ps 0) 0x7013F && decide (fld (par ps 0) 5 0 < 48))
    exec := fun c s =>
      let w := par c.params 0
      let n := fld w 5 0
      let x := s.slot n
      if x.st ≠ .free then .fail .busy s
      else .okay (s.setSlot n { x with part := if bit w 8 then some (fld w 18 16) else none }) }

/-- VLT_MBOX_ASSIGN (R514). -/
def execVltMboxAssign (e : Stim) (r : Req) (s : State) : Host.Outcome State Fault Refusal :=
  .next (submit vltMboxAssignSpec r (s.advance e))

def vltRestartSpec : OpSpec :=
  { opcode := 0x4804, plen := (· == 0), right := onlyT0, life := lifeOpen
    exec := fun c s =>
      let wait := fun (s : State) => Ans.accept { s with vlt := { s.vlt with restartCmds := s.vlt.restartCmds ++ [c.id] } }
      match s.vlt.mode with
      | .suspended => .fail .busy s
      | .failed => .fail .internal s
      | .retired => .fail .lifecycle s
      | .running =>
        let s1 := vaultRestart 3 s
        if s1.vlt.mode = .failed then .fail .internal s1 else wait s1
      | _ => wait s }

/-- VLT_RESTART (R501, R514). -/
def execVltRestart (e : Stim) (r : Req) (s : State) : Host.Outcome State Fault Refusal :=
  .next (submit vltRestartSpec r (s.advance e))

def vltMeasureSpec : OpSpec :=
  { opcode := 0x4805, plen := (· == 0), free := fun _ => true
    exec := fun _ s => .done .ok (wordsOf 12 s.vlt.meas) s }

/-- VLT_MEASURE (R514). -/
def execVltMeasure (e : Stim) (r : Req) (s : State) : Host.Outcome State Fault Refusal :=
  .next (submit vltMeasureSpec r (s.advance e))

/-- A call command enters one of Teller's slots, or waits for one (R496). -/
def callExec (c : Cmd) (s : State) : Ans :=
  match s.vlt.mode with
  | .suspended => .fail .busy s
  | .failed => .fail .internal s
  | .retired => .fail .lifecycle s
  | _ => .ongoing (vltFill { s with vlt := { s.vlt with waiting := s.vlt.waiting ++ [c.id] } })

/-- A call function over Hiast. -/
def callSpec (f : Nat) (data : Bool) : OpSpec :=
  { opcode := 0x4800 + f, plen := fun n => if data then decide (16 ≤ n) else n == 16, p1 := false
    right := fun t _ _ => f != 0x1F || t == 0
    life := fun l => l != .retired
    parm := fun _ ps _ => need (blockOk f (ps.take 16) && hiastOk ps)
    exec := callExec }

def vltRandomSpec : OpSpec := callSpec 0x10 false
def vltHashSpec : OpSpec := callSpec 0x11 true
def vltMacSpec : OpSpec := callSpec 0x12 true
def vltCipherSpec : OpSpec := callSpec 0x13 true
def vltAeadSpec : OpSpec := callSpec 0x14 true
def vltSignSpec : OpSpec := callSpec 0x15 true
def vltVerifySpec : OpSpec := callSpec 0x16 true
def vltKexSpec : OpSpec := callSpec 0x17 true
def vltKeyGenSpec : OpSpec := callSpec 0x18 false
def vltKeyImportSpec : OpSpec := callSpec 0x19 true
def vltKeyPublicSpec : OpSpec := callSpec 0x1A false
def vltKeyDeleteSpec : OpSpec := callSpec 0x1B false
def vltKeyInfoSpec : OpSpec := callSpec 0x1C false
def vltCertSpec : OpSpec := callSpec 0x1D false
def vltLcNonceSpec : OpSpec := callSpec 0x1E false
def vltLcAdvanceSpec : OpSpec := callSpec 0x1F true

/-- VLT_RANDOM (R514). -/
def execVltRandom (e : Stim) (r : Req) (s : State) : Host.Outcome State Fault Refusal :=
  .next (submit vltRandomSpec r (s.advance e))
/-- VLT_HASH (R514). -/
def execVltHash (e : Stim) (r : Req) (s : State) : Host.Outcome State Fault Refusal :=
  .next (submit vltHashSpec r (s.advance e))
/-- VLT_MAC (R514). -/
def execVltMac (e : Stim) (r : Req) (s : State) : Host.Outcome State Fault Refusal :=
  .next (submit vltMacSpec r (s.advance e))
/-- VLT_CIPHER (R514). -/
def execVltCipher (e : Stim) (r : Req) (s : State) : Host.Outcome State Fault Refusal :=
  .next (submit vltCipherSpec r (s.advance e))
/-- VLT_AEAD (R514). -/
def execVltAead (e : Stim) (r : Req) (s : State) : Host.Outcome State Fault Refusal :=
  .next (submit vltAeadSpec r (s.advance e))
/-- VLT_SIGN (R514). -/
def execVltSign (e : Stim) (r : Req) (s : State) : Host.Outcome State Fault Refusal :=
  .next (submit vltSignSpec r (s.advance e))
/-- VLT_VERIFY (R514). -/
def execVltVerify (e : Stim) (r : Req) (s : State) : Host.Outcome State Fault Refusal :=
  .next (submit vltVerifySpec r (s.advance e))
/-- VLT_KEX (R507, R514). -/
def execVltKex (e : Stim) (r : Req) (s : State) : Host.Outcome State Fault Refusal :=
  .next (submit vltKexSpec r (s.advance e))
/-- VLT_KEY_GEN (R514). -/
def execVltKeyGen (e : Stim) (r : Req) (s : State) : Host.Outcome State Fault Refusal :=
  .next (submit vltKeyGenSpec r (s.advance e))
/-- VLT_KEY_IMPORT (R514). -/
def execVltKeyImport (e : Stim) (r : Req) (s : State) : Host.Outcome State Fault Refusal :=
  .next (submit vltKeyImportSpec r (s.advance e))
/-- VLT_KEY_PUBLIC (R514). -/
def execVltKeyPublic (e : Stim) (r : Req) (s : State) : Host.Outcome State Fault Refusal :=
  .next (submit vltKeyPublicSpec r (s.advance e))
/-- VLT_KEY_DELETE (R498, R514). -/
def execVltKeyDelete (e : Stim) (r : Req) (s : State) : Host.Outcome State Fault Refusal :=
  .next (submit vltKeyDeleteSpec r (s.advance e))
/-- VLT_KEY_INFO (R514). -/
def execVltKeyInfo (e : Stim) (r : Req) (s : State) : Host.Outcome State Fault Refusal :=
  .next (submit vltKeyInfoSpec r (s.advance e))
/-- VLT_CERT (R496, R514). -/
def execVltCert (e : Stim) (r : Req) (s : State) : Host.Outcome State Fault Refusal :=
  .next (submit vltCertSpec r (s.advance e))
/-- VLT_LC_NONCE (R512, R514). -/
def execVltLcNonce (e : Stim) (r : Req) (s : State) : Host.Outcome State Fault Refusal :=
  .next (submit vltLcNonceSpec r (s.advance e))
/-- VLT_LC_ADVANCE (R511, R514). -/
def execVltLcAdvance (e : Stim) (r : Req) (s : State) : Host.Outcome State Fault Refusal :=
  .next (submit vltLcAdvanceSpec r (s.advance e))

end Sys2Proof.Machine
end

