-- ==== Sys2Proof/Machine/Sto.lean ====
section
/-!
DEFINITION. Strongbox (17): volumes, commits and groups under energy escrow, patrol and defects; and the Ledger's
persistence, checkpoints and commands. Log entry 33.
-/

namespace Sys2Proof.Machine

/-- Volume v. -/
def State.vol (s : State) (v : Nat) : Vol := look {} s.sto.vol v
def State.setVol (s : State) (v : Nat) (x : Vol) : State := { s with sto := { s.sto with vol := put s.sto.vol v x } }

/-- A tenant may use a volume: its grant, or V15 for T0 (R526). -/
def State.volOf (s : State) (t v : Nat) : Bool := if v = 15 then t == 0 else (s.tenant t).vols.testBit v

/-- T0 and the grantees of a volume; of every volume for 16 (R545). -/
def State.volWatch (s : State) (v : Nat) : List Nat :=
  0 :: (List.range 32).filter (fun t => s.exists t && (if v < 16 then s.volOf t v else (s.tenant t).vols != 0))

/-- A logical page's contents: 0 when nothing is mapped (R521). -/
def Vol.page (x : Vol) (p : Nat) : List Byte := fit 4096 (look [] x.pages p)

/-- A page of an encrypted volume as the device stores it: AES-256-XTS with the physical page number as tweak (R526). -/
def sealedPage (key : List Byte) (at_ : Nat) (d : List Byte) : List Byte := fit 4096 (Config.keyed 0x23 key [bytesOf 16 at_, d])

/-- A logical page as it reads: an encrypted volume's through its key slot; without a key, something that only what is
stored determines (16 R510). -/
def State.volPage (s : State) (v p : Nat) : List Byte :=
  let x := s.vol v
  let key := look [] s.sto.slots v
  match find? x.pages p with
  | some d => if x.enc && key.isEmpty then sealedPage [] (look 0 x.at_ p) d else fit 4096 d
  | none => x.page p

/-! ### The device (R517, R518) -/

/-- A LUN that R517 supports; a codeword's 4 metadata and 70 parity bytes need 74 of the 76 spare bytes of each KiB (R519). -/
def lunOk (l : NandLun) : Bool :=
  l.onfi && l.crc && l.cells == 1 && (l.page == 2048 || l.page == 4096) && decide (76 * (l.page / 1024) ≤ l.spare) &&
  decide (64 ≤ l.pages) && decide (l.pages ≤ 256) && l.blocks != 0 && decide (l.blocks ≤ 8192) &&
  (l.sdr % 64 != 0 || l.ddr2 != 0)

/-- 4 KiB pages of a block. -/
def lunPages (l : NandLun) : Nat := l.pages * l.page / 4096

/-- A device that R517 supports, by the LUNs of its chip enables: alike, one or two on each of one or two chip enables, at
most 16 GiB in all. -/
def nandOk (ce0 ce1 : List NandLun) : Bool :=
  match ce0 ++ ce1 with
  | [] => false
  | l :: ls => ce0 != [] && decide (ce0.length ≤ 2) && decide (ce1.length ≤ 2) && lunOk l &&
    ls.all (fun m => lunOk m && m.page == l.page && m.pages == l.pages) &&
    decide (((l :: ls).map (fun m => m.blocks * lunPages m)).sum ≤ 0x400000)

/-- The fastest interface that every LUN and R517 permit: NV-DDR2 at up to 400 MT/s, else the highest SDR mode. -/
def nandIface (ls : List NandLun) : Nat :=
  let rate := (ls.map (·.ddr2)).foldl min 400
  let modes := ls.foldl (fun m l => m &&& l.sdr) 63
  if rate ≠ 0 then 16 + rate else ((List.range 6).filter modes.testBit).foldl max 0

/-! ### Physical pages and blocks (R521 to R524) -/

def State.nb (s : State) (b : Nat) : NandBlk := look {} s.sto.blk b
def State.setNb (s : State) (b : Nat) (x : NandBlk) : State := { s with sto := { s.sto with blk := put s.sto.blk b x } }

/-- The physical pages that hold something: mapped, staged, or programmed for a commit in execution. -/
def State.physLive (s : State) : List Nat :=
  s.sto.vol.flatMap (fun p => p.2.at_.map (·.2)) ++ s.sto.groups.flatMap (fun p => (p.2.map (fun g => g.at_.map (·.2))).getD []) ++
  (s.sto.jobs ++ s.sto.waiting.map (·.job)).flatMap (·.phys)

/-- Those in a block. -/
def State.liveIn (s : State) (b : Nat) : List Nat := (s.physLive.filter (fun p => p / s.sto.perBlock == b)).eraseDups

/-- Good blocks. -/
def State.goodBlks (s : State) : List Nat := (List.range s.sto.total).filter (fun b => !(s.nb b).bad)

/-- The block with the lowest erase count among some, the first of equals. -/
def State.coldest (s : State) (l : List Nat) : Option Nat :=
  l.foldl (fun m b => match m with
    | none => some b
    | some k => if (s.nb b).erases < (s.nb k).erases then some b else m) none

/-- The free block with the lowest erase count (R522). -/
def State.freeBlk (s : State) : Option Nat :=
  let live := s.physLive.map (· / s.sto.perBlock)
  s.coldest (s.goodBlks.filter (fun b => some b != s.sto.open_ && !live.contains b))

/-- A block with n pages programmed after an erase. -/
def NandBlk.fresh (x : NandBlk) (n : Nat) : NandBlk :=
  { x with erases := if x.used = 0 then x.erases else x.erases + 1, reads := 0, used := n }

/-- Physical pages take new places everywhere. -/
def replace (f : Nat → Nat) (s : State) : State :=
  let tab : Tbl Nat → Tbl Nat := fun t => t.map (fun p => (p.1, f p.2))
  let job : StoJob → StoJob := fun j => { j with phys := j.phys.map f }
  s.setSto { s.sto with
    vol := s.sto.vol.map (fun p => (p.1, { p.2 with at_ := tab p.2.at_ }))
    groups := s.sto.groups.map (fun p => (p.1, p.2.map (fun g => { g with at_ := tab g.at_ })))
    jobs := s.sto.jobs.map job
    waiting := s.sto.waiting.map (fun w => { w with job := job w.job }) }

/-- The valid pages of a block are copied to another, page by page, and the block is erased (R522, R524). -/
def moveBlk (src dst : Nat) (s : State) : State :=
  let l := s.liveIn src
  let s1 := replace (fun p => if p / s.sto.perBlock = src then dst * s.sto.perBlock + l.idxOf p else p) s
  let s2 := s1.setNb src ((s1.nb src).fresh 0)
  s2.setNb dst { (s2.nb dst).fresh l.length with used := l.length }

/-- With no free block left, the block with the fewest valid pages is compacted: a free block takes their place (DESIGN
CHOICE, log 33). -/
def compact (s : State) : State :=
  match (s.goodBlks.filter (fun b => some b != s.sto.open_)).foldl (fun m b => match m with
      | none => some b
      | some k => if (s.liveIn b).length < (s.liveIn k).length then some b else m) (none : Option Nat) with
  | some b => { moveBlk b b s with sto := { (moveBlk b b s).sto with open_ := some b } }
  | none => s

/-- The block that takes the next program: the open one while it has room, else the free one of R522, erased. -/
def openBlk (s : State) : State :=
  let room := s.sto.open_.any (fun b => !(s.nb b).bad && decide ((s.nb b).used < s.sto.perBlock))
  if room then s
  else match s.freeBlk with
    | some b => let s1 := s.setNb b ((s.nb b).fresh 0); s1.setSto { s1.sto with open_ := some b }
    | none => compact s

/-- Programs one page: its physical page, one past the device where none is left. -/
def takePage (s0 : State) : Nat × State :=
  let s := openBlk s0
  match s.sto.open_ with
  | some b => if (s.nb b).used < s.sto.perBlock
      then (b * s.sto.perBlock + (s.nb b).used, s.setNb b { s.nb b with used := (s.nb b).used + 1, reads := 0 })
      else (s.sto.total * s.sto.perBlock, s)
  | none => (s.sto.total * s.sto.perBlock, s)

/-- A logical page has been read: after READLIM reads since it was last written, its block is due for the patrol (R524). -/
def readCount (v p : Nat) (s : State) : State :=
  match find? (s.vol v).at_ p with
  | none => s
  | some a =>
    let b := a / s.sto.perBlock
    let x := s.nb b
    let s1 := s.setNb b { x with reads := x.reads + 1 }
    if s.sto.readLim * 1000 ≤ x.reads + 1 ∧ !s.sto.due.contains b then s1.setSto { s1.sto with due := s1.sto.due ++ [b] } else s1

/-- Lowest and highest erase count of good blocks. -/
def State.eraseLo (s : State) : Nat := (s.coldest s.goodBlks).elim 0 (fun b => (s.nb b).erases)
def State.eraseHi (s : State) : Nat := (s.goodBlks.map (fun b => (s.nb b).erases)).foldl max 0

/-! ### Escrow (R532 to R535), in units of 0.01 mJ -/

/-- Reservation of a job. -/
def StoJob.reserve (j : StoJob) : Nat :=
  match j.kind with
  | .commit _ _ r _ => r
  | .ledger _ r => r
  | _ => 0

/-- A job is a commit. -/
def StoJob.commits (j : StoJob) : Bool :=
  match j.kind with
  | .commit .. => true
  | .ledger .. => true
  | _ => false

/-- EBASE and the reservations of running commits. -/
def State.escrowHeld (s : State) : Nat := s.sto.ebase * 10 + (s.sto.jobs.map StoJob.reserve).sum

/-- The bank energy above 10 V at the last sample, in units of 10^-12 × 50 µJ. -/
def State.bankEnergy (s : State) : Nat := s.sto.c * (s.sto.v * s.sto.v - 100000000) * 5

/-- Brownout has been entered (20 R604). -/
def State.inBrownout (s : State) : Bool := s.pow.mode == .off

/-- The test of R534, with a bank sample no more than 100 µs old. -/
def State.escrowFits (s : State) (w : Nat) : Bool :=
  s.sto.charged && !s.sto.fault && !s.sto.measuring && !s.inBrownout && decide (s.clk ≤ s.sto.vAt + 100000) &&
  decide (120000000 * (s.escrowHeld + w) ≤ s.bankEnergy)

/-- A waiting command's TIMEOUT has passed; the Ledger's own commits have none (R535, R538). -/
def StoWait.expired (w : StoWait) (s : State) : Bool := w.job.cmd.isSome && decide (w.at_ + w.timeout * 1000000 < s.clk)

/-- A commit that was not admitted in time: counted, NO_ENERGY (R535). -/
def noEnergy (w : StoWait) (s : State) : State :=
  finishAll w.job.cmd.toList .noEnergy (s.setSto { s.sto with noEnergy := satInc 0xFFFF s.sto.noEnergy })

/-- The commits waiting are tested in order; the first that does not fit holds back the rest (R535). -/
def admitList : List StoWait → State → State
  | [], s => s.setSto { s.sto with waiting := [] }
  | w :: ws, s =>
    if w.expired s then admitList ws (noEnergy w s)
    else if s.escrowFits w.job.reserve then
      let s1 := s.setSto { s.sto with jobs := s.sto.jobs ++ [w.job] }
      let s2 := match w.job.cmd.bind s1.cmd? with
        | some c => setCmd { c with phase := .running } s1
        | none => s1
      admitList ws s2
    else s.setSto { s.sto with waiting := w :: ws }

/-- The queue of commits is evaluated. -/
def escrowEval (s : State) : State := admitList s.sto.waiting s

/-- A commit begun by a command (R535): admitted, deferred, or NO_ENERGY when its TIMEOUT, counted from its dispatch, has
passed or is 0. -/
def commitAns (c : Cmd) (j : StoJob) (timeout : Nat) (s : State) : Ans :=
  if s.sto.readonly then .fail .mediaError s
  else if s.sto.waiting = [] ∧ s.escrowFits j.reserve then .ongoing (s.setSto { s.sto with jobs := s.sto.jobs ++ [j] })
  else if timeout = 0 ∨ c.sent + timeout * 1000000 < s.clk then .fail .noEnergy (s.setSto { s.sto with noEnergy := satInc 0xFFFF s.sto.noEnergy })
  else .defer (s.setSto { s.sto with waiting := s.sto.waiting ++ [{ job := j, at_ := c.sent, timeout := timeout }] })

/-- W of a commit with n pages to program (R533). -/
def State.commitW (s : State) (n : Nat) : Nat := s.sto.epage * n + s.sto.ejournal

/-- ESCROW_EVALUATION (R535). -/
def execEscrowEvaluation (e : Stim) (s : State) : Host.Outcome State Fault Refusal :=
  event e s (fun s => s.running 4) escrowEval

/-- COMMIT_TIMEOUT (R535), by position in the queue. -/
def execCommitTimeout (e : Stim) (cmd : Nat) (s : State) : Host.Outcome State Fault Refusal :=
  event e s (fun s => s.sto.waiting[cmd]?.any (fun w => w.job.cmd.isSome && decide (w.at_ + w.timeout * 1000000 ≤ s.clk)))
    (fun s => match s.sto.waiting[cmd]? with
      | some w =>
        noEnergy w (s.setSto { s.sto with waiting := s.sto.waiting.eraseIdx cmd })
      | none => s)

/-- BANK_SAMPLE (R532, R534, R535): the first sample at VHOLD − 1.0 V or more after a start begins the measurement. -/
def execBankSample (e : Stim) (mv : Nat) (s : State) : Host.Outcome State Fault Refusal :=
  event e s (fun s => s.alive 4)
    (fun s =>
      let begin_ := !s.sto.charged && decide (s.sto.vhold * 100 ≤ mv + 1000)
      escrowEval (s.setSto { s.sto with v := mv, vAt := s.clk, measuring := s.sto.measuring || begin_ }))

/-- ESCROW_MEASURE_END (R532): drop is Δt of the fall by 2.0 V, in µs. -/
def escrowMeasured (drop : Nat) (s : State) : State :=
  let c := (drop + 10) / 20
  let bad := decide (c < 400) || decide (5500 < c)
  let s1 := s.setSto { s.sto with c := c, charged := true, measuring := false, fault := bad, measCmds := [] }
  let s2 := if bad = s.sto.fault then s1 else noticeAll (s1.volWatch 16) 0x5002 [wd (b2n bad), wd c] s1
  s.sto.measCmds.foldl (fun s id => finishCmd id .ok [wd c] s) s2

/-- ESCROW_MEASURE_END (R532). -/
def execEscrowMeasureEnd (e : Stim) (drop : Nat) (s : State) : Host.Outcome State Fault Refusal :=
  event e s (fun s => s.alive 4 && s.sto.measuring) (escrowMeasured drop)

/-! ### The Ledger's pages (R538) -/

/-- Records retained, oldest first. -/
def State.retained (s : State) : List LedRec :=
  let ring := s.led.ring
  if s.persisting then
    let old := s.led.pages.flatten
    match ring with
    | [] => old
    | r :: _ => old.filter (fun x => decide (x.rseq < r.rseq)) ++ ring
  else ring

/-- RSEQ of the oldest record retained. -/
def State.oldest (s : State) : Nat :=
  match s.retained with
  | r :: _ => r.rseq
  | [] => s.led.next

/-- Checkpoints older than every record retained are let go; with persistence ceased no page of the Ledger is written (R538). -/
def ledgerSettle (s : State) : State :=
  let s1 := if s.persisting then s else
    { s with sto := { s.sto with jobs := s.sto.jobs.filter (fun j => j.cmd.isSome)
                                 waiting := s.sto.waiting.filter (fun w => w.job.cmd.isSome) } }
  { s1 with led := { s1.led with cps := s1.led.cps.filter (fun p => decide (s1.oldest ≤ p.1)) } }

/-- A page of V15 becomes durable: the oldest 64 records not persisted. -/
def ledgerPage (phys : List Nat) (s : State) : State :=
  let l := s.led
  let rs := (l.ring.drop (l.ring.length - l.unpers)).take 64
  let size := (s.vol 15).size
  let pages := l.pages ++ [rs]
  let s1 := { s with led := { l with pages := pages.drop (pages.length - size), unpers := l.unpers - rs.length
                                     written := l.written + 1 } }
  let x := s1.vol 15
  let k := l.written % size
  ledgerSettle (s1.setVol 15 { x with pages := put x.pages k (rs.flatMap LedRec.bytes)
                                      at_ := phys.foldl (fun t p => put t k p) (erase x.at_ k) })

/-- A page of the Ledger is being written or waits for escrow. -/
def State.ledgerJob (s : State) : Bool :=
  (s.sto.jobs ++ s.sto.waiting.map (·.job)).any (fun j => j.cmd.isNone)

/-- LEDGER_PERSIST (R538): a commit under escrow, in the order of arrival. -/
def execLedgerPersist (e : Stim) (s : State) : Host.Outcome State Fault Refusal :=
  event e s (fun s => s.running 4 && s.persisting && !s.sto.rebuild && decide (64 ≤ s.led.unpers) && !s.ledgerJob)
    (fun s =>
      let j : StoJob := { cmd := none, vol := 15, kind := .ledger 1 (s.commitW 1) }
      escrowEval (s.setSto { s.sto with waiting := s.sto.waiting ++ [{ job := j, at_ := s.clk, timeout := 0 }] }))

/-- A checkpoint block (R539). -/
def checkpoint (r : LedRec) (rnd : List Byte) (s : State) : List Byte :=
  let m := bytesOf 8 r.rseq ++ fit 32 r.hash ++ s.ident.primary.take 5 ++ [0, 0, 0]
  m ++ fit 96 (Config.keyed 0x31 (Config.deviceKey 0) [m, rnd]) ++ fit 3309 (Config.keyed 0x33 (Config.deviceKey 1) [m, rnd])

/-- CHECKPOINT_SIGN (R539). -/
def execCheckpointSign (e : Stim) (s : State) : Host.Outcome State Fault Refusal :=
  event e s (fun s => s.vlt.mode == .running && !s.led.cpDue.isEmpty)
    (fun s => match s.led.cpDue with
      | r :: rest =>
        let s1 := { s with led := { s.led with cpDue := rest } }
        let d := s1.drawBytes 32
        let s2 := { d.2 with led := { d.2.led with cps := put d.2.led.cps r.rseq (checkpoint r d.1 s1), lastCp := r.rseq } }
        ledgerSettle (notice 0 0x5101 [wd r.rseq, wd (r.rseq / 2 ^ 32)] s2)
      | [] => s)

/-! ### Media operations (R528 to R531) -/

/-- The job at a position is replaced, or removed. -/
def State.setJob (s : State) (i : Nat) (j : Option StoJob) : State :=
  s.setSto { s.sto with jobs := match j with
    | some j => s.sto.jobs.set i j
    | none => s.sto.jobs.eraseIdx i }

/-- Logical pages take the physical pages programmed for them. -/
def placeAt (t : Tbl Nat) (pages phys : List Nat) : Tbl Nat :=
  (pages.zip phys).foldl (fun t p => put t p.1 p.2) (pages.foldl (fun t p => erase t p) t)

/-- The pages of a staged write enter their group: a later copy replaces (R530). -/
def stagePages (g : Nat) (ws : Tbl (List Byte)) (phys : List Nat) (s : State) : State :=
  match s.grp g with
  | some x => s.setGrp g (some { x with pages := ws.foldl (fun t p => put t p.1 p.2) x.pages
                                        at_ := placeAt x.at_ (ws.map (·.1)) phys })
  | none => s

/-- PAGE_PROGRAM_END (R528, R533), by position among the media operations. -/
def pageProgrammed (i : Nat) (s : State) : State :=
  let r := takePage s
  let s1 := r.2
  match s1.sto.jobs[i]? with
  | none => s
  | some j0 =>
    let j := { j0 with phys := j0.phys ++ [r.1] }
    match j.kind with
    | .commit w left res g => escrowEval (s1.setJob i (some { j with kind := .commit w (left - 1) (res - s.sto.epage) g }))
    | .ledger left res => escrowEval (s1.setJob i (some { j with kind := .ledger (left - 1) (res - s.sto.epage) }))
    | .stage g w left =>
      if 1 < left then escrowEval (s1.setJob i (some { j with kind := .stage g w (left - 1) }))
      else finishAll j.cmd.toList .ok (escrowEval (stagePages g w j.phys (s1.setJob i none)))
    | .read .. => s

/-- Pages that a job has yet to program. -/
def StoJob.left (j : StoJob) : Nat :=
  match j.kind with
  | .commit _ n _ _ => n
  | .ledger n _ => n
  | .stage _ _ n => n
  | .read .. => 0

/-- PAGE_PROGRAM_END (R533, R535). At most 64 media operations are in flight (R520): the others wait their turn. -/
def execPageProgramEnd (e : Stim) (cmd : Nat) (s : State) : Host.Outcome State Fault Refusal :=
  event e s (fun s => s.alive 4 && decide (cmd < 64) && s.sto.jobs[cmd]?.any (fun j => j.left != 0)) (pageProgrammed cmd)

/-- The map takes a commit's pages. -/
def mapPages (v : Nat) (w : Tbl (Option (List Byte))) (phys : List Nat) (s : State) : State :=
  let x := s.vol v
  let gone := (w.filter (fun p => p.2.isNone)).map (·.1)
  s.setVol v { x with pages := w.foldl (fun t p => match p.2 with
                        | some d => put t p.1 d
                        | none => erase t p.1) x.pages
                      at_ := placeAt (gone.foldl (fun t p => erase t p) x.at_) ((w.filter (fun p => p.2.isSome)).map (·.1)) phys }

/-- A commit's journal record ends: the map switches and the command completes (R528 step 4). -/
def journalled (i : Nat) (s : State) : State :=
  match s.sto.jobs[i]? with
  | none => s
  | some j =>
    let s0 := s.setJob i none
    let s1 := if !s.inBrownout then s0 else s0.setSto { s0.sto with finished := s0.sto.finished + 1 }
    match j.kind with
    | .commit w _ _ g =>
      let s2 := mapPages j.vol w j.phys s1
      let s3 := match g with
        | some g => s2.setGrp g none
        | none => s2
      escrowEval (finishAll j.cmd.toList .ok s3)
    | .ledger _ _ => escrowEval (ledgerPage j.phys s1)
    | _ => s

/-- JOURNAL_RECORD_END (R528, R533, R535). -/
def execJournalRecordEnd (e : Stim) (cmd : Nat) (s : State) : Host.Outcome State Fault Refusal :=
  event e s (fun s => s.alive 4 && decide (cmd < 64) && s.sto.jobs[cmd]?.any (fun j => j.left == 0 && j.commits))
    (journalled cmd)

/-- An uncorrectable page is counted, recorded and posted (R525). -/
def mediaLost (v p : Nat) (s : State) : State :=
  logNotice (s.volWatch v) 0xFF 0x5001 [wd (v + 3 * 2 ^ 8), wd p] (s.setSto { s.sto with uncorr := satInc 0xFFFF s.sto.uncorr })

/-- A page reads correctly (R519): at the first read or at one with a read-retry setting, no codeword has more than 40 bit
errors. The list holds the worst codeword's bit errors at each; empty stands for a clean read. -/
def readable (l : List Nat) : Bool := l.isEmpty || l.any (fun n => decide (n ≤ 40))

/-- MEDIA_READ_END (R519, R525, R541): each page's bit errors, in the order of the pages; the first uncorrectable page ends
the read, and the data is written while its tenant may still write there (16 R486). -/
def readEnd (i : Nat) (bits : List (List Nat)) (s : State) : State :=
  match s.sto.jobs[i]? with
  | none => s
  | some j =>
    match j.kind with
    | .read p d dma =>
      let n := if dma.isSome then d.length / 4096 else 1
      let s1 := (List.range n).foldl (fun s k => readCount j.vol (p + k) s) (s.setJob i none)
      match (bits.take n).findIdx? (fun l => !readable l) with
      | some k => finishAll j.cmd.toList .mediaError (mediaLost j.vol (p + k) s1)
      | none => match dma with
      | some a =>
        let t := ((j.cmd.bind s.cmd?).map (·.tenant)).getD 0
        if s.mayAccess t a d.length 1 then finishAll j.cmd.toList .ok (s1.writeMem a d)
        else finishAll j.cmd.toList .badParam (vaultLog t a d.length s1)
      | none => j.cmd.toList.foldl (fun s id => finishCmd id .ok (wordsPad d) s) s1
    | _ => s

/-- MEDIA_READ_END (R541), by position among the media operations. -/
def execMediaReadEnd (e : Stim) (cmd : Nat) (bits : List (List Nat)) (s : State) : Host.Outcome State Fault Refusal :=
  event e s (fun s => s.alive 4 && decide (cmd < 64)) (readEnd cmd bits)

/-! ### Wear, defects, patrol (R522 to R525) -/

/-- Every volume becomes read-only: commits that wait complete with MEDIA_ERROR (R523). -/
def goReadonly (v p : Nat) (s : State) : State :=
  let ids := s.sto.waiting.filterMap (·.job.cmd)
  let s1 := s.setSto { s.sto with readonly := true, waiting := [] }
  noticeAll (s.volWatch 16) 0x5001 [wd (v + 2 * 2 ^ 8), wd p] (ledgerSettle (finishAll ids .mediaError s1))

/-- PROGRAM_FAILURE (R523): the block being programmed is retired, a spare takes its place, and the page is programmed again
in another block. -/
def programFailed (v p : Nat) (s : State) : State :=
  let s0 := match s.sto.open_ with
    | some b => s.setNb b { s.nb b with bad := true }
    | none => s
  let s1 := s0.setSto { s0.sto with grown := satInc 0xFFFF s.sto.grown, good := s.sto.good - 1, spare := s.sto.spare - 1
                                    open_ := none }
  let s2 := noticeAll (s1.volWatch v) 0x5001 [wd (v + 2 ^ 8), wd p] s1
  if !s2.sto.readonly && decide (s2.sto.spare * 100 < s2.sto.good) then goReadonly v p s2 else s2

/-- PROGRAM_FAILURE (R523): the volume and logical page being programmed. -/
def execProgramFailure (e : Stim) (vol page : Nat) (s : State) : Host.Outcome State Fault Refusal :=
  event e s (fun s => s.alive 4 && !s.sto.absent && s.sto.formatted && decide (vol < 16)) (programFailed vol page)

/-- A block whose worst codeword had REFRESH corrected bits or more is refreshed (R524). -/
def refreshBlk (b : Nat) (s : State) : State :=
  let s1 := s.setSto { s.sto with refreshes := satInc 0xFFFF s.sto.refreshes }
  match s1.freeBlk with
  | some d => moveBlk b d s1
  | none => s1

/-- The patrol reads a block, at the page named (R524, R525): bits is its worst codeword's corrected bits, more than 40 for
an uncorrectable one, which is recorded and not moved. -/
def patrolled (v p bits : Nat) (s : State) : State :=
  let b := look 0 (s.vol v).at_ p / s.sto.perBlock
  let s1 := s.setSto { s.sto with due := s.sto.due.filter (· != b) }
  if 40 < bits then mediaLost v p s1 else if s.sto.refresh ≤ bits then refreshBlk b s1 else s1

/-- NAND_PATROL (R524, R525) of a mapped page's block, in RUN or IDLE. -/
def execNandPatrol (e : Stim) (vol page result : Nat) (s : State) : Host.Outcome State Fault Refusal :=
  event e s (fun s => s.running 4 && !s.sto.absent && s.sto.formatted && decide (vol < 16) && s.pow.mode == .run &&
      (find? (s.vol vol).pages page).isSome)
    (patrolled vol page result)

/-- The contents of the good block with the lowest erase count move into a free block, the most worn one (R522; which free
block is DESIGN CHOICE, log 33). -/
def wearMove (s : State) : State :=
  let live := s.physLive.map (· / s.sto.perBlock)
  match s.coldest s.goodBlks with
  | none => s
  | some src =>
    let free := s.goodBlks.filter (fun b => some b != s.sto.open_ && b != src && !live.contains b)
    match free.foldl (fun m b => match m with
        | none => some b
        | some k => if (s.nb k).erases < (s.nb b).erases then some b else m) (none : Option Nat) with
    | some d => moveBlk src d s
    | none => s

/-- WEAR_LEVEL_MOVE (R522): the highest and lowest erase counts of good blocks differ by more than WLDELTA. -/
def execWearLevelMove (e : Stim) (s : State) : Host.Outcome State Fault Refusal :=
  event e s (fun s => s.running 4 && s.sto.formatted && decide (s.eraseLo + s.sto.wlDelta < s.eraseHi)) wearMove

/-! ### Commands on volumes -/

/-- Every STO command but STO_STATUS: waiting until the device has been examined and while the map is rebuilt (R518, R542),
MEDIA_ERROR while ABSENT, BUSY while STO_FORMAT runs (DEDUCED, log 33). -/
def stoGate (run : Cmd → State → Ans) (c : Cmd) (s : State) : Ans :=
  if !s.sto.started then .ongoing (setCmd { c with phase := .crossing } s)
  else if s.sto.absent then .fail .mediaError s
  else if s.sto.rebuild then .ongoing (setCmd { c with phase := .crossing } s)
  else if s.sto.format.isSome then .fail .busy s
  else run c s

/-- Fields of the STO words. -/
def stoVol (ps : List Word) : Nat := fld (par ps 0) 3 0
def stoGroup (ps : List Word) : Nat := fld (par ps 0) 7 4
def stoTimeout (ps : List Word) : Nat := fld (par ps 0) 31 20
def stoNsec (ps : List Word) : Nat := fld (par ps 0) 18 16
def stoSec0 (ps : List Word) : Nat := fld (par ps 0) 14 12
def stoDma (ps : List Word) : Bool := bit (par ps 0) 9
def stoInGrp (ps : List Word) : Bool := bit (par ps 0) 8
def stoPage (ps : List Word) : Nat := (par ps 1).toNat
def stoPages (ps : List Word) : Nat := fld (par ps 3) 22 16
def stoAddr (ps : List Word) : Nat := (par ps 2).toNat + fld (par ps 3) 7 0 * 2 ^ 32

def grantee (t : Nat) (ps : List Word) (s : State) : Bool := s.volOf t (stoVol ps)

/-- A DMA buffer passes (R527). -/
def State.dmaOk (s : State) (t a n perm : Nat) : Bool := s.mayAccess t a n perm && insideOf 0x20000000 0x1000000 a n

/-- A buffer that its tenant may not access ends the command; one below a watermark is recorded (16 R483). -/
def State.dmaFail (s : State) (t a n : Nat) : Ans := .fail .badParam (vaultLog t a n s)

/-- The volume that a command is on: named by its words, or through its group. -/
def State.cmdVol (s : State) (c : Cmd) : Option Nat :=
  if c.opcode = 0x5002 ∨ 0x5010 ≤ c.opcode ∧ c.opcode ≤ 0x5012 ∨ c.opcode = 0x5020 then some (stoVol c.params)
  else if c.opcode = 0x5021 ∨ c.opcode = 0x5022 then (s.grp (stoGroup c.params)).map (·.vol)
  else none

/-- Another command on a volume is in execution (R526), or a page of the Ledger is being written to it. -/
def State.volBusy (s : State) (id v : Nat) : Bool :=
  s.inflight.any (fun c => c.id != id && s.cmdVol c == some v) ||
  (s.sto.jobs ++ s.sto.waiting.map (·.job)).any (fun j => j.vol == v)

/-- Another staged write of a group is still in execution (R531). -/
def State.grpStaging (s : State) (g : Nat) : Bool :=
  s.inflight.any (fun c => c.opcode == 0x5011 && stoInGrp c.params && stoGroup c.params == g)

def stoFormatSpec : OpSpec :=
  { opcode := 0x5001, plen := (· == 0), right := onlyT0, isl := some 4
    life := fun l => l == .manufacture || l == .provisioned || l == .service || l == .ret
    exec := stoGate (fun c s =>
      if s.sto.jobs != [] || s.sto.waiting != [] then .fail .busy s
      else .accept (s.setSto { s.sto with format := some c.id })) }

/-- STO_FORMAT (R540). -/
def execStoFormat (e : Stim) (r : Req) (s : State) : Host.Outcome State Fault Refusal :=
  .next (submit stoFormatSpec r (s.advance e))

/-- The staging volume's contents are discarded (R526, R540): the packages received there read as 0 from now on. -/
def stagingLost (s : State) : State :=
  { s with img := { s.img with xfer := s.img.xfer.map (fun p =>
    (p.1, p.2.map (fun x => { x with data := x.data.map (fun _ => 0) }))) } }

/-- STO_FORMAT's work on the device: the factory marks are read, and every block is erased; 7 % of the good blocks are
spare (R521, R523). -/
def formatted (x : StoSt) : StoSt :=
  let old := x.blk.map (fun p => (p.1, ({ erases := if p.2.used = 0 then p.2.erases else p.2.erases + 1, bad := p.2.bad } : NandBlk)))
  let blk := (x.marks.filter (fun b => decide (b < x.total))).foldl (fun t b => put t b { look {} t b with bad := true }) old
  let good := x.total - (blk.filter (fun p => p.2.bad && decide (p.1 < x.total))).length
  { x with format := none, formatted := true, vol := [], groups := [], slots := [], readonly := false, blk := blk, open_ := none
           due := [], good := good, spare := ceilDiv (good * 7) 100 }

/-- FORMAT_COMPLETE (R521, R523, R540): an empty format, with no volume. -/
def execFormatComplete (e : Stim) (s : State) : Host.Outcome State Fault Refusal :=
  event e s (fun s => s.alive 4 && s.sto.format.isSome)
    (fun s =>
      let x := s.sto
      let s1 := { s with led := { s.led with pages := [] }, vlt := { s.vlt with volKeys := [] }, sto := formatted x }
      finishAll x.format.toList .ok (ledgerSettle (stagingLost s1)))

/-- Pages that the volumes may have in all (R526). -/
def State.stoCap (s : State) : Nat :=
  if s.sto.formatted then (s.sto.good - s.sto.spare) * s.sto.perBlock else 0

/-- A volume's key, in the Vault's sealed store and in its NAND key slot; [] for none (R526). -/
def volKey (v : Nat) (k : List Byte) (s : State) : State :=
  { s with vlt := { s.vlt with volKeys := if k = [] then erase s.vlt.volKeys v else put s.vlt.volKeys v k }
           sto := { s.sto with slots := if k = [] then erase s.sto.slots v else put s.sto.slots v k } }

def stoVolConfigSpec : OpSpec :=
  { opcode := 0x5002, plen := (· == 2), right := onlyT0, isl := some 4
    parm := fun _ ps _ => need (within (par ps 0) 0x10F)
    exec := stoGate (fun c s =>
      let v := stoVol c.params
      let x := s.vol v
      let size := (par c.params 1).toNat
      let enc := bit (par c.params 0) 8
      let others := (((List.range 16).filter (· != v)).map (fun u => (s.vol u).size)).sum
      if s.stoCap < others + size then .fail .badParam s
      else if s.volBusy c.id v then .fail .busy s
      else if x.size = size ∧ x.enc = enc then .okay s
      else
        let k := if enc ∧ !x.enc then s.drawBytes 64 else (if enc then look [] s.vlt.volKeys v else [], s)
        let s1 := volKey v k.1 (k.2.setVol v { size := size, enc := enc })
        let s2 := s1.setSto { s1.sto with groups := s1.sto.groups.map (fun p => (p.1, p.2.map (fun g =>
          if g.vol = v then { g with pages := [], at_ := [] } else g))) }
        let s3 := if v = 15 then { s2 with led := { s2.led with pages := [] } } else s2
        .okay (ledgerSettle (if s.img.staging = some v then stagingLost s3 else s3))) }

/-- STO_VOL_CONFIG (R526). -/
def execStoVolConfig (e : Stim) (r : Req) (s : State) : Host.Outcome State Fault Refusal :=
  .next (submit stoVolConfigSpec r (s.advance e))

def stoStatusSpec : OpSpec :=
  { opcode := 0x5003, plen := (· == 0), isl := some 4
    exec := fun _ s =>
      let x := s.sto
      let open_ := (List.range 16).foldl (fun n g => if (s.grp g).isSome then n + 2 ^ g else n) 0
      .done .ok [wd (open_ * 2 ^ 16 + b2n x.rebuild * 2 ^ 11 + b2n x.readonly * 2 ^ 10 + b2n x.formatted * 2 ^ 9 +
          b2n x.absent * 2 ^ 8 + min 64 x.jobs.length), wd (x.grown * 2 ^ 16 + min 0xFFFF x.spare),
        wd (min 0xFFFF s.eraseHi * 2 ^ 16 + min 0xFFFF s.eraseLo), wd (x.uncorr * 2 ^ 16 + x.refreshes)] s }

/-- STO_STATUS (R542). -/
def execStoStatus (e : Stim) (r : Req) (s : State) : Host.Outcome State Fault Refusal :=
  .next (submit stoStatusSpec r (s.advance e))

def stoReadSpec : OpSpec :=
  { opcode := 0x5010, plen := fun n => n == 2 || n == 4, p1 := false, isl := some 4
    plenP := fun ps => ps.length == (if stoDma ps then 4 else 2)
    right := grantee
    parm := fun _ ps _ => need (within (par ps 0) 0x7720F && (if stoDma ps
      then stoNsec ps == 0 && stoSec0 ps == 0 && within (par ps 3) 0x7F00FF && stoPages ps != 0 && decide (stoPages ps ≤ 64)
      else stoNsec ps != 0 && decide (stoSec0 ps + stoNsec ps ≤ 8)))
    exec := stoGate (fun c s =>
      let ps := c.params
      let x := s.vol (stoVol ps)
      let n := if stoDma ps then stoPages ps else 1
      if x.size < stoPage ps + n then .fail .badParam s
      else if stoDma ps && !s.dmaOk c.tenant (stoAddr ps) (n * 4096) 1 then s.dmaFail c.tenant (stoAddr ps) (n * 4096)
      else
        let d := (List.range n).flatMap (fun i => s.volPage (stoVol ps) (stoPage ps + i))
        let d1 := if stoDma ps then d else (d.drop (stoSec0 ps * 512)).take (stoNsec ps * 512)
        .ongoing (s.setSto { s.sto with jobs := s.sto.jobs ++
          [{ cmd := some c.id, vol := stoVol ps
             kind := .read (stoPage ps) d1 (if stoDma ps then some (stoAddr ps) else none) }] })) }

/-- STO_READ (R541). -/
def execStoRead (e : Stim) (r : Req) (s : State) : Host.Outcome State Fault Refusal :=
  .next (submit stoReadSpec r (s.advance e))

/-- The pages that a write programs (R529): from memory, or one page with its other sectors kept. -/
def writePages (ps : List Word) (old : Nat → List Byte) (s : State) : Tbl (List Byte) :=
  if stoDma ps then (List.range (stoPages ps)).map (fun i => (stoPage ps + i, s.readMem (stoAddr ps + i * 4096) 4096))
  else
    let o := old (stoPage ps)
    let d := wordBytes ((ps.drop 2).take (128 * stoNsec ps))
    [(stoPage ps, o.take (stoSec0 ps * 512) ++ d ++ o.drop (stoSec0 ps * 512 + d.length))]

/-- Distinct pages of a group, staged writes in execution included. -/
def State.grpPages (s : State) (g : Nat) : List Nat :=
  ((((s.grp g).map (·.pages)).getD []).map (·.1) ++ s.sto.jobs.flatMap (fun j => match j.kind with
    | .stage h w _ => if h = g then w.map (·.1) else []
    | _ => [])).eraseDups

/-- A write into a group (R530). -/
def stageAns (c : Cmd) (s : State) : Ans :=
  let ps := c.params
  let g := stoGroup ps
  match s.grp g with
  | none => .fail .badParam s
  | some x =>
    let ws := writePages ps (fun p => (find? x.pages p).getD (s.volPage (stoVol ps) p)) s
    if x.opener ≠ c.tenant then .fail .denied s
    else if x.vol ≠ stoVol ps then .fail .badParam s
    else if s.sto.readonly then .fail .mediaError s
    else if s.grpCommits g then .fail .busy s
    else if 64 < ((s.grpPages g) ++ ws.map (·.1)).eraseDups.length then .fail .noShare s
    else .ongoing (s.setSto { s.sto with jobs := s.sto.jobs ++ [{ cmd := some c.id, vol := x.vol, kind := .stage g ws ws.length }] })

/-- An open group is named by its opener only (R530). -/
def openerOk (t g : Nat) (s : State) : Bool := (s.grp g).all (fun x => x.opener == t)

def stoWriteSpec : OpSpec :=
  { opcode := 0x5011, plen := fun n => decide (2 ≤ n), isl := some 4
    plenP := fun ps => ps.length == (if stoDma ps then 4 else 2 + 128 * stoNsec ps)
    right := fun t ps s => grantee t ps s && (!stoInGrp ps || openerOk t (stoGroup ps) s)
    parm := fun _ ps _ => need (within (par ps 0) 0xFFF773FF && decide (stoTimeout ps ≤ 4000) &&
      (stoInGrp ps || stoGroup ps == 0) && (if stoDma ps
      then stoNsec ps == 0 && stoSec0 ps == 0 && within (par ps 3) 0x7F00FF && stoPages ps != 0 && decide (stoPages ps ≤ 64)
      else stoNsec ps != 0 && decide (stoSec0 ps + stoNsec ps ≤ 8)))
    exec := stoGate (fun c s =>
      let ps := c.params
      let x := s.vol (stoVol ps)
      let n := if stoDma ps then stoPages ps else 1
      if x.size < stoPage ps + n then .fail .badParam s
      else if stoDma ps && !s.dmaOk c.tenant (stoAddr ps) (n * 4096) 0 then s.dmaFail c.tenant (stoAddr ps) (n * 4096)
      else if stoInGrp ps then stageAns c s
      else
        let ws := (writePages ps (s.volPage (stoVol ps)) s).map (fun p => (p.1, some p.2))
        commitAns c { cmd := some c.id, vol := stoVol ps, kind := .commit ws n (s.commitW n) none } (stoTimeout ps) s) }

/-- STO_WRITE (R529, R530, R541). -/
def execStoWrite (e : Stim) (r : Req) (s : State) : Host.Outcome State Fault Refusal :=
  .next (submit stoWriteSpec r (s.advance e))

def stoTrimSpec : OpSpec :=
  { opcode := 0x5012, plen := (· == 3), right := grantee, isl := some 4
    parm := fun _ ps _ => need (within (par ps 0) 0xFFF0000F && decide (stoTimeout ps ≤ 4000) &&
      par ps 2 != 0 && decide ((par ps 2).toNat ≤ 64))
    exec := stoGate (fun c s =>
      let ps := c.params
      let n := (par ps 2).toNat
      if (s.vol (stoVol ps)).size < stoPage ps + n then .fail .badParam s
      else
        let ws := (List.range n).map (fun i => (stoPage ps + i, (none : Option (List Byte))))
        commitAns c { cmd := some c.id, vol := stoVol ps, kind := .commit ws 0 (s.commitW 0) none } (stoTimeout ps) s) }

/-- STO_TRIM (R521, R533, R540). -/
def execStoTrim (e : Stim) (r : Req) (s : State) : Host.Outcome State Fault Refusal :=
  .next (submit stoTrimSpec r (s.advance e))

/-! ### Groups (R530) -/

def stoGroupOpenSpec : OpSpec :=
  { opcode := 0x5020, plen := (· == 1), right := grantee, isl := some 4
    parm := fun _ ps _ => need (within (par ps 0) 0xF)
    exec := stoGate (fun c s =>
      let v := stoVol c.params
      let l := (List.range 16).filter (fun g => (s.grp g).isNone)
      if (s.vol v).size = 0 then .fail .badParam s
      else if l = [] then .fail .busy s
      else
        let r := s.drawNat
        let g := l.getD (r.1 % l.length) 0
        .done .ok [wd g] (r.2.setGrp g (some { opener := c.tenant, vol := v }))) }

/-- STO_GROUP_OPEN (R530). -/
def execStoGroupOpen (e : Stim) (r : Req) (s : State) : Host.Outcome State Fault Refusal :=
  .next (submit stoGroupOpenSpec r (s.advance e))

/-- The opener of a group, while the volume is granted to it (R115, R530, R540). -/
def openerRight (t : Nat) (ps : List Word) (s : State) : Bool :=
  openerOk t (stoGroup ps) s && (s.grp (stoGroup ps)).all (fun x => s.volOf t x.vol)

def stoGroupCommitSpec : OpSpec :=
  { opcode := 0x5021, plen := (· == 1), isl := some 4
    right := openerRight
    parm := fun _ ps s => need (within (par ps 0) 0xFFF000F0 && decide (stoTimeout ps ≤ 4000) && (s.grp (stoGroup ps)).isSome)
    exec := stoGate (fun c s =>
      let g := stoGroup c.params
      match s.grp g with
      | none => .fail .badParam s
      | some x =>
        if !openerRight c.tenant c.params s then .fail .denied s
        else if s.grpStaging g ∨ s.grpCommits g then .fail .busy s
        else
          let ws := x.pages.map (fun p => (p.1, some p.2))
          commitAns c { cmd := some c.id, vol := x.vol, kind := .commit ws 0 (s.commitW 0) (some g)
                        phys := x.pages.map (fun p => look (s.sto.total * s.sto.perBlock) x.at_ p.1) }
            (stoTimeout c.params) s) }

/-- STO_GROUP_COMMIT (R530, R531, R533). -/
def execStoGroupCommit (e : Stim) (r : Req) (s : State) : Host.Outcome State Fault Refusal :=
  .next (submit stoGroupCommitSpec r (s.advance e))

def stoGroupAbortSpec : OpSpec :=
  { opcode := 0x5022, plen := (· == 1), isl := some 4
    right := openerRight
    parm := fun _ ps s => need (within (par ps 0) 0xF0 && (s.grp (stoGroup ps)).isSome)
    exec := stoGate (fun c s =>
      let g := stoGroup c.params
      if !openerRight c.tenant c.params s then .fail .denied s
      else if s.grpStaging g ∨ s.grpCommits g then .fail .busy s
      else .okay (s.setGrp g none)) }

/-- STO_GROUP_ABORT (R530). -/
def execStoGroupAbort (e : Stim) (r : Req) (s : State) : Host.Outcome State Fault Refusal :=
  .next (submit stoGroupAbortSpec r (s.advance e))

/-! ### Settings and status (R540, R543) -/

def stoEscrowConfigSpec : OpSpec :=
  { opcode := 0x5030, plen := (· == 2), right := onlyT0, isl := some 4
    parm := fun _ ps _ =>
      let in_ := fun lo hi v => decide (lo ≤ v) && decide (v ≤ hi)
      need (within (par ps 0) 0x1FFF01FF && within (par ps 1) 0x1FFF1FFF && in_ 240 440 (fld (par ps 0) 8 0) &&
        in_ 50 5000 (fld (par ps 0) 28 16) && in_ 10 5000 (fld (par ps 1) 12 0) && in_ 10 5000 (fld (par ps 1) 28 16))
    exec := stoGate (fun c s =>
      .okay (s.setSto { s.sto with vhold := fld (par c.params 0) 8 0, ebase := fld (par c.params 0) 28 16
                                   epage := fld (par c.params 1) 12 0, ejournal := fld (par c.params 1) 28 16 })) }

/-- STO_ESCROW_CONFIG (R540). -/
def execStoEscrowConfig (e : Stim) (r : Req) (s : State) : Host.Outcome State Fault Refusal :=
  .next (submit stoEscrowConfigSpec r (s.advance e))

def stoEscrowStatusSpec : OpSpec :=
  { opcode := 0x5031, plen := (· == 0), isl := some 4
    exec := stoGate (fun _ s =>
      let x := s.sto
      .done .ok [wd (x.c * 2 ^ 16 + x.v / 10), wd (min 0xFFFFFFFF (s.bankEnergy / 1000000000)),
        wd (min 0xFF x.waiting.length * 2 ^ 24 + (x.jobs.filter StoJob.commits).length % 256 * 2 ^ 16 +
          min 0xFFFF (s.escrowHeld / 10)),
        wd (x.noEnergy * 2 ^ 16 + b2n x.charged * 4 + b2n x.measuring * 2 + b2n x.fault)] s) }

/-- STO_ESCROW_STATUS (R543). -/
def execStoEscrowStatus (e : Stim) (r : Req) (s : State) : Host.Outcome State Fault Refusal :=
  .next (submit stoEscrowStatusSpec r (s.advance e))

def stoEscrowMeasureSpec : OpSpec :=
  { opcode := 0x5032, plen := (· == 0), right := onlyT0, isl := some 4
    exec := stoGate (fun c s =>
      .accept (s.setSto { s.sto with measuring := true, measCmds := s.sto.measCmds ++ [c.id] })) }

/-- STO_ESCROW_MEASURE (R532, R540). -/
def execStoEscrowMeasure (e : Stim) (r : Req) (s : State) : Host.Outcome State Fault Refusal :=
  .next (submit stoEscrowMeasureSpec r (s.advance e))

def stoPatrolSpec : OpSpec :=
  { opcode := 0x5040, plen := (· == 2), right := onlyT0, isl := some 4
    parm := fun _ ps _ =>
      let in_ := fun lo hi v => decide (lo ≤ v) && decide (v ≤ hi)
      need (within (par ps 0) 0x3FF3F7F && in_ 1 90 (fld (par ps 0) 6 0) && in_ 8 39 (fld (par ps 0) 13 8) &&
        in_ 50 1000 (fld (par ps 0) 25 16) && in_ 1 1000 (par ps 1).toNat)
    exec := stoGate (fun c s =>
      .okay (s.setSto { s.sto with patrol := fld (par c.params 0) 6 0, refresh := fld (par c.params 0) 13 8
                                   wlDelta := fld (par c.params 0) 25 16, readLim := (par c.params 1).toNat })) }

/-- STO_PATROL (R524, R540). -/
def execStoPatrol (e : Stim) (r : Req) (s : State) : Host.Outcome State Fault Refusal :=
  .next (submit stoPatrolSpec r (s.advance e))

/-! ### STX start (R518, R526, R542) -/

/-- What Strongbox learns at STX start: the device by its parameter pages and marks, and the keys of its volumes, loaded into
the NAND key slots (R518, R523, R526). -/
def stxFound (ce0 ce1 : List NandLun) (marks : List Nat) (s : State) : State :=
  let x := s.sto
  let ok := nandOk ce0 ce1
  let ls := ce0 ++ ce1
  ledgerSettle (s.setSto { x with
    started := true, absent := !ok, rebuild := ok && x.formatted, marks := marks, ckpt := false
    total := if ok then (ls.map (·.blocks)).sum else x.total, perBlock := if ok then (ls.map lunPages).headD 0 else x.perBlock
    iface := if ok then nandIface ls else 0, slots := if ok then s.vlt.volKeys else [] })

/-- The STO commands that wait for the map (R542). -/
def stoTable : List OpSpec :=
  [stoFormatSpec, stoVolConfigSpec, stoReadSpec, stoWriteSpec, stoTrimSpec, stoGroupOpenSpec, stoGroupCommitSpec,
   stoGroupAbortSpec, stoEscrowConfigSpec, stoEscrowStatusSpec, stoEscrowMeasureSpec, stoPatrolSpec]

/-- Commands held at a crossing begin again, in the order in which they stand (01 R22). -/
def resumeOps (ops : List OpSpec) (s : State) : State :=
  (s.inflight.filter (fun c => c.phase == .crossing)).foldl (fun s c =>
    match ops.find? (fun o => o.opcode == c.opcode) with
    | some o => begin o c s
    | none => s) s

/-- STX loses its contents at a power gate or reset: open groups, operations, and what it knew of the device; commits that
still wait end with NO_ENERGY (R535). -/
def stxLose (s : State) : State :=
  let ids := s.sto.waiting.filterMap (·.job.cmd)
  ledgerSettle (finishAll ids .noEnergy (s.setSto { s.sto with started := false, rebuild := false, groups := [], jobs := []
                                                               waiting := [], slots := [], due := [] }))

/-! ### LOG commands (R544) -/

def logStatusSpec : OpSpec :=
  { opcode := 0x5101, plen := (· == 0)
    exec := fun _ s =>
      let l := s.led
      .done .ok [wd l.next, wd (l.next / 2 ^ 32), wd s.oldest, wd (s.oldest / 2 ^ 32), wd l.lost, wd l.lastCp] s }

/-- LOG_STATUS (R544). -/
def execLogStatus (e : Stim) (r : Req) (s : State) : Host.Outcome State Fault Refusal :=
  .next (submit logStatusSpec r (s.advance e))

/-- A 64-bit number of two words. -/
def par64 (ps : List Word) (i : Nat) : Nat := (par ps i).toNat + (par ps (i + 1)).toNat * 2 ^ 32

def logReadSpec : OpSpec :=
  { opcode := 0x5102, plen := (· == 3), p1 := false
    parm := fun _ ps _ => need (within (par ps 2) 0x3F && par ps 2 != 0)
    exec := fun c s =>
      let a := par64 c.params 0
      let n := (par c.params 2).toNat
      let rs := s.retained.filter (fun r => decide (a ≤ r.rseq) && decide (r.rseq < a + n))
      .done .ok (wordsPad (rs.flatMap LedRec.bytes)) s }

/-- LOG_READ (R544). -/
def execLogRead (e : Stim) (r : Req) (s : State) : Host.Outcome State Fault Refusal :=
  .next (submit logReadSpec r (s.advance e))

def logCheckpointSpec : OpSpec :=
  { opcode := 0x5103, plen := (· == 2), p1 := false
    exec := fun c s =>
      match find? s.led.cps (par64 c.params 0) with
      | some b => .done .ok (wordsPad b) s
      | none => .fail .badParam s }

/-- LOG_CHECKPOINT (R544). -/
def execLogCheckpoint (e : Stim) (r : Req) (s : State) : Host.Outcome State Fault Refusal :=
  .next (submit logCheckpointSpec r (s.advance e))

def logWriteSpec : OpSpec :=
  { opcode := 0x5104, plen := (· == 3), free := fun _ => true
    exec := fun c s =>
      let w := look {} s.led.writes c.tenant
      if 100 ≤ w.now s then .fail .busy s
      else
        let s1 := { s with led := { s.led with writes := put s.led.writes c.tenant (w.inc s) } }
        .done .ok [wd s.led.next, wd (s.led.next / 2 ^ 32)] (logSev 0 0x51F0 c.tenant c.params s1) }

/-- LOG_WRITE (R544). -/
def execLogWrite (e : Stim) (r : Req) (s : State) : Host.Outcome State Fault Refusal :=
  .next (submit logWriteSpec r (s.advance e))

end Sys2Proof.Machine
end

