-- ==== Sys2Proof/Machine/Relay.lean ====
section
/-!
DEFINITION. Image relay and in-service update (18): packages, transfers, the checks of R554, relay, activation, trial and
revert. Log entry 34.
-/

namespace Sys2Proof.Machine

/-! ### The manifest (R549, R550) -/

/-- Fields of a package's manifest. -/
def mfNchunk (d : List Byte) : Nat := le d 20 2
def mfImglen (d : List Byte) : Nat := le d 16 4
def mfNrelay (d : List Byte) : Nat := le d 27 1
def mfNkey (d : List Byte) : Nat := le d 28 1
def mfLen (d : List Byte) : Nat := 5605 + 8 * mfNrelay d + 1144 * mfNkey d

/-- n bytes from i on. -/
def cut (d : List Byte) (i n : Nat) : List Byte := (d.drop i).take n

/-- Bytes that are all 0. -/
def zeros (d : List Byte) (i n : Nat) : Bool := (cut d i n).all (· == 0)

/-- Entry j of RELAY and entry k of KEYS. -/
def mfRelay (d : List Byte) (j : Nat) : List Byte := cut d (2200 + 8 * j) 8
def mfKey (d : List Byte) (k : Nat) : List Byte := cut d (2200 + 8 * mfNrelay d + 1144 * k) 1144

/-- The number of chunks of an image. -/
def chunksOf (imglen : Nat) : Nat := (imglen + 65535) / 65536

/-- Ciphertext length of chunk i. -/
def chunkLen (imglen i : Nat) : Nat := min 65536 (imglen - 65536 * i)

/-- Chunk i with its tag: every chunk but the last has 65536 bytes and 16 of tag. -/
def mfChunk (d : List Byte) (i : Nat) : List Byte := cut d (mfLen d + 65552 * i) (chunkLen (mfImglen d) i + 16)

/-- The slot of an eMRAM component: offset and size (R547). -/
def State.slotOf (s : State) (c : Nat) : Nat × Nat := look (0, 0) s.image.slot c

/-- SERIAL of the module (00 R8). -/
def State.serial (s : State) : List Byte := s.ident.primary.take 5

/-- Checks 1 to 3 of R554. -/
def formOk (x : ImgXfer) (s : State) : Bool :=
  let d := x.data
  let n := mfImglen d
  let step := cut d 25 2
  d.length == x.pklen && decide (5605 ≤ x.pklen) && mfLen d == x.mlen && cut d 0 4 == [0x4A, 0x4B, 0x49, 0x4D] &&
  le d 4 1 == 1 && le d 5 1 == x.comp && decide (le d 6 1 ≤ 63) && decide (le d 22 2 ≤ 120) && decide (mfNrelay d ≤ 32) &&
  decide (mfNkey d ≤ 64) && zeros d 7 1 && zeros d 29 3 && zeros d 40 8 && zeros d 2193 7 &&
  (List.range (mfNrelay d)).all (fun j => zeros (mfRelay d j) 5 3) && (List.range (mfNkey d)).all (fun k => zeros (mfKey d k) 5 3) &&
  x.pklen == x.mlen + mfNchunk d * 16 + n && mfNchunk d == chunksOf n && n != 0 && decide (n ≤ 16777216) &&
  (!compEmram x.comp || decide (n ≤ (s.slotOf x.comp).2)) &&
  decide (le d 24 1 ≤ le s.ident.primary 9 1) && (step == [0x20, 0x20] || step == cut s.ident.primary 28 2)

/-- Check 4: the signer's keys (R553) and both signatures. -/
def signedOk (d : List Byte) (s : State) : Bool :=
  let n := mfLen d - 3405
  let ec := cut d 144 97
  let pq := cut d 241 1952
  let trust := match s.ident.lc with
    | .manufacture | .ret => ec ++ pq == Config.vessenholmKey
    | .provisioned | .field | .service =>
      s.ident.ownerHash == fit 48 (Config.hash 2 ec) ++ fit 48 (Config.hash 2 pq)
    | _ => false
  trust && Config.verifies 0x31 ec (d.take n) (cut d n 96) && Config.verifies 0x33 pq (d.take n) (cut d (n + 96) 3309)

/-- Check 5: CTHASH over the stored chunks. -/
def cthashOk (d : List Byte) : Bool := cut d 96 48 == fit 48 (Config.hash 2 (d.drop (mfLen d)))

/-- The key entry of the module, when it is a target (R552). -/
def keyEntry (d : List Byte) (s : State) : Option (List Byte) :=
  ((List.range (mfNkey d)).map (mfKey d)).find? (fun e => e.take 5 == s.serial)

/-- Check 7: the plaintext image, when the key unwraps, every tag verifies and IMGHASH matches (R551, R552). -/
def openImage (d : List Byte) (s : State) : Option (List Byte) :=
  match keyEntry d s with
  | none => none
  | some e =>
    let secret := fit 32 (Config.keyed 0x342 (Config.deviceKey 2) [cut e 8 1088])
    let iv0 := List.replicate 12 (0 : Byte)
    let wrapped := cut e 1096 32
    if !Config.verifies 0x24 secret (iv0 ++ wrapped) (cut e 1128 16) then none
    else
      let key := fit 32 (Config.keyed 0x124 secret [iv0, wrapped])
      let parts := (List.range (mfNchunk d)).map (fun i =>
        let n := chunkLen (mfImglen d) i
        let c := mfChunk d i
        let aux := cut d 32 8 ++ bytesOfBE 4 i ++ d.take 48
        (Config.verifies 0x24 key (aux ++ c.take n) (c.drop n), fit n (Config.keyed 0x124 key [aux, c.take n])))
      let img := parts.flatMap (·.2)
      if parts.all (·.1) && cut d 48 48 == fit 48 (Config.hash 2 img) then some img else none

/-! ### Transfers (R557) -/

def imgComp (ps : List Word) : Nat := fld (par ps 0) 7 0
def imgXfr (ps : List Word) : Nat := fld (par ps 0) 1 0

/-- A transfer ends without an installed image: its component stands as before it. -/
def closeXfr (n : Nat) (s : State) : State :=
  match s.xfr n with
  | none => s
  | some x => compTo x.comp (s.icomp x.comp).rest (s.setXfr n none)

/-- Pages of a byte count. -/
def pagesOf (n : Nat) : Nat := (n + 4095) / 4096

/-- The installed images of a component whose packages the staging volume keeps (R548, R563). -/
def ImgComp.kept (x : ImgComp) : List ImgInfo := (x.active :: (x.ready.toList ++ x.prev.toList)).filter (fun i => i.size != 0)

/-- A relay alone keeps its package: neither the transfer nor an installed image does (R560). -/
def State.relayKeeps (s : State) (r : ImgRelay) : Bool :=
  !(s.icomp r.comp).kept.any (fun i => i.cthash == r.cthash) &&
  (List.range 4).all (fun n => !(s.xfr n).any (fun x => x.comp == r.comp && x.passed))

/-- Pages of the staging volume in use: packages in transfer or being relayed, and staged components' images. -/
def State.stagingUsed (s : State) : Nat :=
  ((List.range 4).map (fun n => ((s.xfr n).map (fun x => pagesOf x.pklen)).getD 0)).sum +
  ((s.img.relay.filter s.relayKeeps).map (fun r => pagesOf r.size)).sum +
  (s.img.comp.map (fun p => (p.2.kept.map (fun i => pagesOf i.size)).sum)).sum

/-- A transfer without IMG_DATA or IMG_CLOSE for 60 s is abandoned (R557). -/
def ImgXfer.stale (x : ImgXfer) (s : State) : Bool := x.close.isNone && decide (x.at_ + 60000000000 ≤ s.clk)

/-- A transfer that a command may name. -/
def State.live (s : State) (n : Nat) : Option ImgXfer := (s.xfr n).filter (fun x => !x.stale s)

/-- The transfers whose 60 s have passed are abandoned before a command sees them (R557). -/
def settleXfers (s : State) : State :=
  (List.range 4).foldl (fun s n => if (s.xfr n).any (fun x => x.stale s) then abandonXfr n .timeout s else s) s

/-- Only the offering tenant names its transfer (R557). -/
def offered (t : Nat) (ps : List Word) (s : State) : Bool := (s.live (imgXfr ps)).all (fun x => x.tenant == t)

/-- A command on a transfer begins: BAD_PARAM where there is none, DENIED for another tenant's. -/
def onXfr (free : Nat → Bool) (run : Nat → ImgXfer → Cmd → State → Ans) (c : Cmd) (s : State) : Ans :=
  let s := settleXfers s
  match s.xfr (imgXfr c.params) with
  | none => .fail .badParam s
  | some x => if x.tenant = c.tenant ∨ free c.tenant then run (imgXfr c.params) x c s else .fail .denied s

/-- The staging volume has room for a package (R557). -/
def State.stagingRoom (s : State) (pklen : Nat) : Bool :=
  s.img.staging.all (fun v => decide (pagesOf pklen + s.stagingUsed ≤ (s.vol v).size))

/-- Life-cycle states that permit IMG_OFFER, IMG_ACTIVATE and IMG_REVERT (R568). -/
def imgLife (l : LifeCycle) : Bool := l != .blank && l != .retired

def imgOfferSpec : OpSpec :=
  { opcode := 0x5801, plen := (· == 3), life := imgLife, isl := some 4
    share := fun _ ps s => s.sto.absent || (settleXfers s).stagingRoom (par ps 1).toNat
    parm := fun _ ps _ => need (within (par ps 0) 0xFF && compOk (imgComp ps))
    exec := fun c s =>
      let s := settleXfers s
      let k := imgComp c.params
      let x := s.icomp k
      let free := (List.range 4).filter (fun n => (s.xfr n).isNone)
      if s.img.staging.isNone || s.sto.absent then .fail .mediaError s
      else if !s.stagingRoom (par c.params 1).toNat then .fail .noShare s
      else if free = [] ∨ (x.st ≠ .idle ∧ x.st ≠ .ready) then .fail .busy s
      else
        let r := s.drawNat
        let n := free.getD (r.1 % free.length) 0
        let y : ImgXfer := { comp := k, tenant := c.tenant, pklen := (par c.params 1).toNat, mlen := (par c.params 2).toNat
                             at_ := s.clk }
        .done .ok [wd n] (compTo k .receiving (r.2.setXfr n (some y))) }

/-- IMG_OFFER (R557). -/
def execImgOffer (e : Stim) (r : Req) (s : State) : Host.Outcome State Fault Refusal :=
  .next (submit imgOfferSpec r (s.advance e))

/-- COUNT of IMG_DATA. -/
def imgCount (ps : List Word) : Nat := fld (par ps 0) 27 16

/-- IMG_DATA in execution: appended under escrow, without effect below the bytes received. -/
def dataAns (n : Nat) (x : ImgXfer) (c : Cmd) (s : State) : Ans :=
  let ps := c.params
  let off := (par ps 1).toNat
  match s.img.staging with
  | none => .fail .badParam s
  | some v =>
    let k := x.data.length
    if x.close.isSome then .fail .badParam s
    else if off + imgCount ps ≤ k then .okay (s.setXfr n (some { x with at_ := s.clk }))
    else if off ≠ k ∨ x.pklen < off + imgCount ps then .fail .badParam s
    else
      let d := (wordBytes (ps.drop 2)).take (imgCount ps)
      let pages := (k + d.length - 1) / 4096 - k / 4096 + 1
      match commitAns c { cmd := some c.id, vol := v, kind := .commit [] pages (s.commitW pages) none } 0 s with
      | .ongoing s1 => .ongoing (s1.setXfr n (some { x with data := x.data ++ d, at_ := s.clk }))
      | a => a

def imgDataSpec : OpSpec :=
  { opcode := 0x5802, plen := fun n => decide (2 ≤ n), isl := some 4
    plenP := fun ps => ps.length == 2 + (imgCount ps + 3) / 4
    right := offered
    parm := fun _ ps s => need (within (par ps 0) 0xFFF0003 && imgCount ps != 0 && decide (imgCount ps ≤ 4072) &&
      (s.live (imgXfr ps)).isSome)
    exec := stoGate (onXfr (fun _ => false) dataAns) }

/-- IMG_DATA (R548, R557). -/
def execImgData (e : Stim) (r : Req) (s : State) : Host.Outcome State Fault Refusal :=
  .next (submit imgDataSpec r (s.advance e))

/-- STX_START (17 R518): the commands that waited for the device go on, unless the map is being rebuilt. -/
def execStxStart (e : Stim) (ce0 ce1 : List NandLun) (marks : List Nat) (s : State) : Host.Outcome State Fault Refusal :=
  event e s (fun s => s.running 4 && !s.sto.started)
    (fun s =>
      let s1 := stxFound ce0 ce1 marks s
      if s1.sto.rebuild then s1 else resumeOps (imgDataSpec :: stoTable) s1)

/-- TRANSLATION_REBUILD_END (17 R542): the commands that waited for the map go on. -/
def execTranslationRebuildEnd (e : Stim) (s : State) : Host.Outcome State Fault Refusal :=
  event e s (fun s => s.running 4 && s.sto.rebuild)
    (fun s => resumeOps (imgDataSpec :: stoTable) (s.setSto { s.sto with rebuild := false }))

/-! ### Relay (R558 to R560) -/

/-- The association that IMG_PEER installs; its series start at 1. -/
def peerAssoc (ps : List Word) : Assoc :=
  let cmac := bit (par ps 0) 29
  { port := fld (par ps 0) 19 16, mac := parMac (ps.drop 2), cmac := cmac, rxsc := if cmac then 0 else fld (par ps 5) 5 0
    keyIn := if cmac then wordBytes ((ps.drop 13).take 8) else []
    keyOut := if cmac then wordBytes ((ps.drop 5).take 8) else [] }

/-- A valid peer with a SERIAL, by its number. -/
def State.peerOf (s : State) (serial : List Byte) : Option Nat :=
  (List.range 16).find? (fun p => match find? s.img.peer p with
    | some x => (wordBytes [par x.words 1]) ++ (wordBytes [par x.words 2]).take 1 == serial
    | none => false)

/-- The entries of RELAY after the module's own, with their numbers (R559). -/
def relayTail (d : List Byte) (s : State) : List (Nat × Nat) :=
  let es := (List.range (mfNrelay d)).map (fun j => (natOf ((mfRelay d j).take 5), j))
  ((es.dropWhile (fun p => p.1 != natOf s.serial)).drop 1)

/-- The entries that are valid peers. -/
def State.reachable (s : State) (l : List (Nat × Nat)) : List (Nat × Nat) :=
  l.filter (fun p => (s.peerOf (bytesOf 5 p.1)).isSome)

/-- The relay goes on to its next valid entry, or ends. -/
def relayNext (r : ImgRelay) (s : State) : State :=
  let others := s.img.relay.filter (fun x => x.comp != r.comp)
  match s.reachable r.todo with
  | [] => { s with img := { s.img with relay := others } }
  | (serial, j) :: rest =>
    let y := { r with todo := rest, entry := j, peer := (s.peerOf (bytesOf 5 serial)).getD 0, attempt := 1, active := true, step := .idle }
    { s with img := { s.img with relay := others ++ [y] } }

def State.relay? (s : State) (c : Nat) : Option ImgRelay := s.img.relay.find? (fun r => r.comp == c)

def setRelay (r : ImgRelay) (s : State) : State :=
  { s with img := { s.img with relay := s.img.relay.map (fun x => if x.comp = r.comp then r else x) } }

/-- Final statuses that fail an attempt (R560); 0x500 stands for an abandoned frame and a silent peer too. -/
def attemptFails (st : Nat) : Bool := st == 0x300 || st == 0x301 || st == 0x201 || st == 0x500

/-- The outcome of an attempt (R560). -/
def relayOutcome (comp status : Nat) (s : State) : State :=
  match s.relay? comp with
  | none => s
  | some r =>
    let s1 := notice 0 0x5802 [wd (comp + r.entry * 2 ^ 8 + r.attempt * 2 ^ 16), wd (status % 2 ^ 16)] s
    if status = 0 then { s1 with img := { s1.img with relay := s1.img.relay.filter (fun x => x.comp != comp) } }
    else if attemptFails status && decide (r.attempt < 6) then setRelay { r with active := false, failedAt := s.clk, step := .idle } s1
    else relayNext r s1

/-! ### IMG_CLOSE (R554 to R556) -/

/-- A package fails: it is discarded and recorded, and IMG_CLOSE completes with the status. -/
def closeFail (n : Nat) (st : Status) (s : State) : State :=
  match s.xfr n with
  | none => s
  | some x => finishAll x.close.toList st (logObj 0x58 x.tenant 0x5803 x.comp st.code (closeXfr n s))

/-- Checks 1 to 6 and the duplicate of R556; a target goes on to its install, another module completes. -/
def closeChecks (n : Nat) (s : State) : State :=
  match s.xfr n with
  | none => s
  | some x =>
    let d := x.data
    let y := s.icomp x.comp
    let end_ := fun (w : Nat) (s : State) => x.close.toList.foldl (fun s id => finishCmd id .ok [wd w] s) (closeXfr n s)
    if !formOk x s then closeFail n .badParam s
    else if !(signedOk d s && cthashOk d) then closeFail n .authFail s
    else if le d 6 1 < y.otpSvn then closeFail n .staleEpoch s
    else if y.active.cthash = cut d 96 48 ∨ y.confirmed.cthash = cut d 96 48 ∨ y.ready.any (fun r => r.cthash == cut d 96 48) then
      end_ 4 s
    else
      let tail := s.reachable (relayTail d s)
      let s1 := if tail = [] then s else
        { s with img := { s.img with relay := s.img.relay.filter (fun r => r.comp != x.comp) ++
          [{ comp := x.comp, size := d.length, cthash := cut d 96 48, data := d, todo := relayTail d s }] } }
      if (keyEntry d s).isNone then end_ (2 * b2n (tail != [])) s1
      else compTo x.comp .installing (s1.setXfr n (some { x with passed := true }))

def imgCloseSpec : OpSpec :=
  { opcode := 0x5803, plen := (· == 1), right := offered, isl := some 4
    parm := fun _ ps s => need (within (par ps 0) 0x3 && (s.live (imgXfr ps)).isSome)
    exec := onXfr (fun _ => false) (fun n x c s =>
      if x.close.isSome then .fail .busy s
      else
        let s1 := interim c.id .accepted (s.setXfr n (some { x with close := some c.id, at_ := s.clk }))
        .ongoing (closeChecks n (compTo x.comp .verifying s1))) }

/-- IMG_CLOSE (R554). -/
def execImgClose (e : Stim) (r : Req) (s : State) : Host.Outcome State Fault Refusal :=
  .next (submit imgCloseSpec r (s.advance e))

/-- The install of a verified image (R547, R548, R554): it becomes READY. -/
def installed (n : Nat) (s : State) : State :=
  match s.xfr n with
  | none => s
  | some x =>
    let d := x.data
    match openImage d s with
    | none => closeFail n .authFail s
    | some img =>
      let y := s.icomp x.comp
      let h := le d 22 2
      let info : ImgInfo := { version := le d 8 8, svn := le d 6 1, cthash := cut d 96 48, health := if h = 0 then 10 else h
                              data := if compEmram x.comp then [] else img
                              size := if compEmram x.comp then 0 else d.length }
      let s1 := if compEmram x.comp then s.writeMem (bankBase (1 - y.bank) + (s.slotOf x.comp).1) img else s
      let s2 := (s1.setIcomp x.comp { y with ready := some info, prev := none }).setXfr n none
      let s3 := compTo x.comp .ready s2
      x.close.toList.foldl (fun s id => finishCmd id .ok [wd (1 + 2 * b2n (s.relaying x.comp))] s) s3

/-- INSTALL_COMPLETE (R554). -/
def execInstallComplete (e : Stim) (xfr : Nat) (s : State) : Host.Outcome State Fault Refusal :=
  event e s (fun s => (s.xfr xfr).any (fun x => x.passed)) (installed xfr)

/-- TRANSFER_ABANDON (R557): 60 s without IMG_DATA or IMG_CLOSE. -/
def execTransferAbandon (e : Stim) (xfr : Nat) (s : State) : Host.Outcome State Fault Refusal :=
  event e s (fun s => (s.xfr xfr).any (fun x => x.stale s)) (abandonXfr xfr .timeout)

def imgAbortSpec : OpSpec :=
  { opcode := 0x5809, plen := (· == 1)
    right := fun t ps s => t == 0 || offered t ps s
    parm := fun _ ps s => need (within (par ps 0) 0x3 && (s.live (imgXfr ps)).isSome)
    exec := onXfr (· == 0) (fun n _ _ s => .okay (abandonXfr n .flushed s)) }

/-- IMG_ABORT (R557). -/
def execImgAbort (e : Stim) (r : Req) (s : State) : Host.Outcome State Fault Refusal :=
  .next (submit imgAbortSpec r (s.advance e))

/-! ### Activation, confirmation, revert (R561 to R567) -/

/-- COMP alone. -/
def compParm (_ : Nat) (ps : List Word) (_ : State) : Option Status := need (within (par ps 0) 0xFF && compOk (imgComp ps))

def imgConfirmSpec : OpSpec :=
  { opcode := 0x5804, plen := (· == 1)
    right := fun t ps s => t == 0 || (imgComp ps / 16 == 2 && s.boundPart t == some (imgComp ps % 16))
    parm := compParm
    exec := fun c s =>
      let k := imgComp c.params
      let x := s.icomp k
      if x.st ≠ .trial ∨ x.window ≤ x.run then .fail .busy s
      else .okay (compTo k .idle (s.setIcomp k { x with run := 0, window := 0, resets := 0, otpSvn := max x.otpSvn x.active.svn })) }

/-- IMG_CONFIRM (R555, R563). -/
def execImgConfirm (e : Stim) (r : Req) (s : State) : Host.Outcome State Fault Refusal :=
  .next (submit imgConfirmSpec r (s.advance e))

/-- A READY image takes its component over (R561, R565, R567). -/
def activate (k id : Nat) (s : State) : State :=
  let x := s.icomp k
  let s1 := compTo k .activating (s.setIcomp k { x with active := x.ready.getD {}, prev := some x.active, ready := none
                                                        actCmds := [id], revertAfter := none })
  let off := k / 16 = 2 ∧ s.partState (k % 16) ≠ .run
  if off then
    let s2 := switchSlot k s1
    s2.setIcomp k { s2.icomp k with atStart := true }
  else changeOver k s1

def imgActivateSpec : OpSpec :=
  { opcode := 0x5805, plen := (· == 1), right := onlyT0, life := imgLife, parm := compParm
    exec := fun c s =>
      let k := imgComp c.params
      let p := s.partState (k % 16)
      if (s.icomp k).st ≠ .ready ∨ (k / 16 = 2 ∧ (p = .quiescing ∨ p = .starting)) then .fail .busy s
      else .ongoing (activate k c.id (interim c.id .accepted s)) }

/-- IMG_ACTIVATE (R561, R567). -/
def execImgActivate (e : Stim) (r : Req) (s : State) : Host.Outcome State Fault Refusal :=
  .next (submit imgActivateSpec r (s.advance e))

def imgRevertSpec : OpSpec :=
  { opcode := 0x5806, plen := (· == 1), right := onlyT0, life := imgLife, parm := compParm
    exec := fun c s =>
      let k := imgComp c.params
      let x := s.icomp k
      if x.st ≠ .trial ∧ x.st ≠ .activating then .fail .busy s
      else
        let s1 := interim c.id .accepted s
        .ongoing (revertAsk k 2 (s1.setIcomp k { s1.icomp k with revCmds := x.revCmds ++ [c.id] })) }

/-- IMG_REVERT (R564, R567). -/
def execImgRevert (e : Stim) (r : Req) (s : State) : Host.Outcome State Fault Refusal :=
  .next (submit imgRevertSpec r (s.advance e))

/-- ACTIVATION_COMPLETE (R561, R565): every Teller pair has rolled, or the change has otherwise ended. -/
def execActivationComplete (e : Stim) (comp : Nat) (s : State) : Host.Outcome State Fault Refusal :=
  event e s (fun s => (s.icomp comp).st == .activating && !(s.icomp comp).atStart && (comp == 0x10 || s.changed comp))
    (fun s => openTrial comp (s.setIcomp comp { s.icomp comp with todo := [] }))

/-- HEALTH_WINDOW_END (R562, R564). -/
def execHealthWindowEnd (e : Stim) (comp : Nat) (s : State) : Host.Outcome State Fault Refusal :=
  event e s (fun s => (s.icomp comp).st == .trial && decide ((s.icomp comp).window ≤ (s.icomp comp).run)) (revertBegin comp 1)

/-- REVERT_COMPLETE (R564, R565). -/
def execRevertComplete (e : Stim) (comp : Nat) (s : State) : Host.Outcome State Fault Refusal :=
  event e s (fun s => (s.icomp comp).st == .fallback && (comp == 0x10 || s.changed comp))
    (fun s =>
      let x := s.icomp comp
      finishAll x.revCmds .ok (compTo comp .idle (s.setIcomp comp { x with todo := [], revCmds := [] })))

/-- PHY_FIRMWARE_WATCHDOG (R564). -/
def execPhyFirmwareWatchdog (e : Stim) (port : Nat) (s : State) : Host.Outcome State Fault Refusal :=
  event e s (fun _ => decide (2 ≤ port) && decide (port ≤ 13)) (trialFault (0x30 + port))

/-! ### Status and configuration (R558, R568, R569) -/

/-- The words of IMG_STATUS. -/
def State.imgWords (s : State) (c : Nat) : List Word :=
  let x := s.icomp c
  let v := x.confirmed.version
  let new := match x.ready with
    | some r => r.version
    | none => if x.st = .activating ∨ x.st = .trial then x.active.version else 0
  let r := s.relay? c
  let sec := fun (n : Nat) => if x.st = .trial then min 0xFFFF (n / 1000000000) else 0
  [s.imgWord0 c, wd v, wd (v / 2 ^ 32), wd new, wd (new / 2 ^ 32), wd (sec x.window * 2 ^ 16 + sec x.run),
   wd ((r.map (·.entry)).getD 0x3F + (r.map (·.attempt)).getD 0 * 2 ^ 8)]

def imgStatusSpec : OpSpec :=
  { opcode := 0x5807, plen := (· == 1), parm := compParm
    exec := fun c s =>
      let s := settleXfers s
      .done .ok (s.imgWords (imgComp c.params)) s }

/-- IMG_STATUS (R569). -/
def execImgStatus (e : Stim) (r : Req) (s : State) : Host.Outcome State Fault Refusal :=
  .next (submit imgStatusSpec r (s.advance e))

def imgPeerSpec : OpSpec :=
  { opcode := 0x5808, plen := fun n => n == 6 || n == 21, right := onlyT0
    plenP := fun ps => ps.length == (if bit (par ps 0) 29 then 21 else 6)
    parm := fun _ ps _ => need (within (par ps 0) 0x3F0F010F && decide (fld (par ps 0) 19 16 ≤ 13) &&
      within (par ps 2) 0xFF && within (par ps 4) 0xFFFF && (bit (par ps 0) 29 || within (par ps 5) 0x3F))
    exec := fun c s =>
      let p := fld (par c.params 0) 3 0
      let l := if bit (par c.params 0) 8 then put s.img.peer p { words := c.params, assoc := peerAssoc c.params } else erase s.img.peer p
      .okay { s with img := { s.img with peer := l } } }

/-- IMG_PEER (R558). -/
def execImgPeer (e : Stim) (r : Req) (s : State) : Host.Outcome State Fault Refusal :=
  .next (submit imgPeerSpec r (s.advance e))

/-- A staged image is READY or on trial. -/
def State.stagedBusy (s : State) : Bool :=
  s.img.comp.any (fun p => !compEmram p.1 && (p.2.ready.isSome || p.2.st == .trial))

def imgConfigSpec : OpSpec :=
  { opcode := 0x580A, plen := (· == 1), right := onlyT0
    parm := fun _ ps s =>
      let v := fld (par ps 0) 3 0
      need (within (par ps 0) 0x10F && (!bit (par ps 0) 8 ||
        (v != 15 && (List.range 32).all (fun t => !(s.exists t && (s.tenant t).vols.testBit v)))))
    exec := fun c s =>
      let v := if bit (par c.params 0) 8 then some (fld (par c.params 0) 3 0) else none
      let s := settleXfers s
      if (List.range 4).any (fun n => (s.xfr n).isSome) || s.stagedBusy then .fail .busy s
      else .okay { s with img := { s.img with staging := v } } }

/-- IMG_CONFIG (R548, R568). -/
def execImgConfig (e : Stim) (r : Req) (s : State) : Host.Outcome State Fault Refusal :=
  .next (submit imgConfigSpec r (s.advance e))

end Sys2Proof.Machine
end

