-- ==== Sys2Proof/Machine/Audit.lean ====
section
/-!
DEFINITION. Audits and the opening check (19 R571 to R584), Teller pairs (R585), FAULT_N (R588) and the TST group (R591).
Log entry 40.
-/

namespace Sys2Proof.Machine

/-! ### Summaries (R581) -/

/-- RES of a block: NOT RUN without one. -/
def Summary.resOf (x : Summary) (b : Nat) : Nat := look 3 x.res b

/-- Blocks with a result. -/
def Summary.count (x : Summary) (r : Nat) : Nat := ((List.range 72).filter (fun b => x.resOf b == r)).length

/-- Result word 4 + i. -/
def Summary.resWord (x : Summary) (i : Nat) : Nat :=
  ((List.range 16).map (fun k => if 16 * i + k < 72 then x.resOf (16 * i + k) * 4 ^ k else 0)).sum

/-- The ten words of a summary, as they read at a clk. -/
def Summary.words (x : Summary) (clk : Nat) : List Word :=
  let age := if x.aonKnown then min 0xFFFF ((clk - x.endAt) / 60000000000) else 0xFFFF
  let w0 := x.details.length * 2 ^ 24 + x.count 1 * 2 ^ 16 + x.count 2 * 2 ^ 8 + x.status * 2 ^ 4 + x.kind
  let flags := x.lc * 2 ^ 12 + b2n x.romPat * 4 + b2n x.aonKept * 2 + b2n x.valid
  let first := ((List.range 72).find? (fun b => x.resOf b == 2)).getD 0xFF
  [wd w0, wd (x.start % 2 ^ 32), wd (min x.durMs 0xFFFF * 2 ^ 16 + x.start / 2 ^ 32 % 2 ^ 16), wd (age * 2 ^ 16 + flags)] ++
    (List.range 5).map (fun i => wd (x.resWord i)) ++ [wd (x.skipped * 2 ^ 16 + x.dlost * 2 ^ 8 + first)]

/-- Life-cycle states in their encoding (16 R510). -/
def LifeCycle.num : LifeCycle → Nat
  | .blank => 0 | .manufacture => 1 | .provisioned => 2 | .field => 3 | .service => 4 | .ret => 5 | .retired => 6

/-! ### Starting (R573 to R575, R583) -/

/-- Life-cycle states in which an audit runs (R573). -/
def lifeAudit (l : LifeCycle) : Bool := l == .manufacture || l == .field || l == .service || l == .ret

/-- Order of the shut-down audit (R575), and the blocks of the opening check (R583). -/
def auditOrder : List Nat :=
  [16, 17, 18, 19] ++ List.range' 26 8 ++ List.range' 34 6 ++ List.range' 41 31 ++ [40] ++ List.range 16 ++ [22, 23, 24, 25, 20, 21]
def bistBlocks : List Nat := resetBlocks

/-- The pattern image cannot be loaded: there is none (R577). -/
def State.noPatterns (s : State) : Bool := (s.icomp 0x50).active.data.isEmpty

/-- An audit or opening check begins. -/
def auditStart (kind : Nat) (blocks : List Nat) (cmd : Option Nat) (s : State) : State :=
  let sum : Summary := { kind := kind, start := s.now, lc := s.ident.lc.num, romPat := kind != 2 && s.noPatterns }
  { s with aud := { s.aud with run := some { kind := kind, left := blocks, cmd := cmd, sum := sum, startClk := s.clk } } }

/-! ### One block (R572, R576, R579, R580) -/

/-- Spare rows of a memory block; none for the others. -/
def spareMax (b : Nat) : Option Nat :=
  if b < 16 then some 8
  else if b < 20 then some 4
  else if b < 22 then some 16
  else if b < 26 then some 4
  else if b = 40 then some 16
  else none

/-- Spare rows in use, by audits and by R470. -/
def State.rowsUsed (s : State) (b : Nat) : Nat := look 0 s.aud.rows b + (if b < 16 then (s.memCnt b).spares else 0)

/-- A channel's switch is on. -/
def State.switchOn (s : State) (ch : Nat) : Bool :=
  match (s.chn ch).st with
  | .slewOn | .inrush | .on | .slewOff => true
  | _ => false

/-- Channels of a current-sense block that are skipped (R572). -/
def State.skipChans (s : State) (b : Nat) : List Nat := if b = 70 ∨ b = 71 then (dieChans (b - 70)).filter s.switchOn else []

/-- The rows that the failures of a memory block need, in order of their finding. -/
def failRows (fails : List AuditFail) : List Nat := ((fails.filter (fun f => !f.logic)).map (fun f => f.addr / 1024)).eraseDups

/-- A detail record (R579); fate 0 none, 1 repaired, 2 unrepairable. -/
def detailOf (b fate : Nat) (f : AuditFail) : List Word :=
  let mem := (spareMax b).isSome && !f.logic
  let analogue := (34 ≤ b ∧ b < 40) ∨ 41 ≤ b
  [wd ((if analogue then 0 else f.bit % 256) * 2 ^ 24 + (if fate = 2 then 2 ^ 17 else 0) + (if fate = 1 then 2 ^ 16 else 0) + f.step % 256 * 2 ^ 8 + b),
   wd f.addr, if mem then wd (f.addr / 2 ^ 32 % 256) else 0,
   if analogue then wdi f.dev else 0]

/-- A block set back after its test (R576). -/
def reinit (b : Nat) (s : State) : State :=
  if b < 16 then s.clearMem (0x20000000 + 0x100000 * b) 0x100000
  else if b < 20 then s.clearMem (tileBase (b - 16)) 0x40000
  else if b = 40 then
    { s with net := { s.net with frames := [], port := s.net.port.map (fun p => (p.1, { p.2 with queue := [], sending := none })) } }
  else s

/-- Adds details, at most 64 of them; the others are counted (R579). -/
def Summary.addDetails (x : Summary) (ds : List (List Word)) : Summary :=
  let all := x.details ++ ds
  { x with details := all.take 64, dlost := satAdd 255 x.dlost (all.length - 64) }

/-- SWX goes to its gate before the packet buffer is tested in a closing audit (R575, R576). -/
def auditGate (kind : Nat) (left : List Nat) (s : State) : State :=
  if kind = 1 ∧ left.head? = some 40 ∧ ((s.gate (.island 2)).st = .run ∨ (s.gate (.island 2)).st = .starting) then
    gateStop (.island 2) { s with pow := { s.pow with gated := s.pow.gated ++ [2] } }
  else s

/-- The test of a block with the faults it finds. -/
def testBlock (b : Nat) (fails : List AuditFail) (rom : Bool) (r : AuditRun) (s : State) : State :=
  let skip := s.skipChans b
  let fs := fails.filter (fun f => !skip.contains f.addr || !(b == 70 || b == 71))
  let old := s.aud.inForce.details.filter (fun d => fld (par d 0) 7 0 == b && skip.contains (fld (par d 1) 7 0))
  let free := match spareMax b with
    | some n => n - s.rowsUsed b
    | none => 0
  let fixed := (failRows fs).take free
  let fate := fun (f : AuditFail) =>
    match spareMax b with
    | none => 0
    | some _ => if f.logic then 2 else if fixed.contains (f.addr / 1024) then 1 else 2
  let ok := fs.all (fun f => fate f == 1)
  let res : Nat := if fs = [] ∧ old = [] then 0 else if ok ∧ old = [] then 1 else 2
  let sum0 := r.sum.addDetails (old ++ fs.map (fun f => detailOf b (fate f) f))
  let sum := { sum0 with res := put sum0.res b res, skipped := min 255 (sum0.skipped + skip.length), romPat := sum0.romPat || rom }
  let rows := if fixed = [] then s.aud.rows else put s.aud.rows b (look 0 s.aud.rows b + fixed.length)
  let tp := look {} s.aud.teller (b - 22)
  let teller := if 22 ≤ b ∧ b < 26 then
      put s.aud.teller (b - 22) (if res = 2 then { tp with inService := false } else { tp with inService := true, barred := false })
    else s.aud.teller
  let s1 := { s with aud := { s.aud with run := some { r with left := r.left.tail, sum := sum }, rows := rows, teller := teller } }
  let s2 := auditGate r.kind r.left.tail (if r.kind = 2 then s1 else reinit b s1)
  if rom then trialFault 0x50 s2 else s2

/-- A block is isolated (R576): in a closing audit SWX is gated for its buffer; in a commanded one no partition runs on a
core, and a port, controller or channel is out of service. -/
def State.isolated (s : State) (kind b : Nat) : Bool :=
  let off := fun (f : Func) => (s.gate f).st != .run && (s.gate f).st != .quiescing
  if kind = 1 then b != 40 || off (.island 2)
  else if kind = 3 then
    if b < 20 then (s.pair (b - 16)).role == .idle
    else if 26 ≤ b ∧ b < 30 then (s.pair (b - 26)).role == .idle
    else if 30 ≤ b ∧ b < 34 then
      (List.range 8).all (fun p => !(s.confd p && (seatPcs (s.blk p)).contains (b - 30) && !off (.part p)))
    else if 41 ≤ b ∧ b < 53 then off (.port (b - 39))
    else if 53 ≤ b ∧ b < 61 then off (.can (b - 53))
    else if 61 ≤ b ∧ b < 69 then off (.lin (b - 61))
    else true
  else true

/-- The conditions of R573 have been checked at most 100 µs ago; the opening check is under none. -/
def State.condFresh (s : State) (kind : Nat) : Bool := kind == 2 || decide (s.clk ≤ s.aud.condAt + 100000)

/-- AUDIT_BLOCK_TEST (R573, R576, R579, R580): the next block is tested. -/
def execAuditBlockTest (e : Stim) (fails : List AuditFail) (rom : Bool) (s : State) : Host.Outcome State Fault Refusal :=
  event e s (fun s => s.aud.run.any (fun r => r.left.head?.any (s.isolated r.kind) && s.condFresh r.kind)) (fun s =>
    match s.aud.run with
    | some r => testBlock (r.left.headD 0) fails (rom && r.kind != 2) r s
    | none => s)

/-- The audit in progress ends early: the block under test is set back, the others report NOT RUN (R578). -/
def auditStop (status : Nat) (s : State) : State :=
  match s.aud.run with
  | none => s
  | some r =>
    if r.ended then s
    else
      let s1 := match r.left with
        | b :: _ => reinit b s
        | [] => s
      { s1 with aud := { s1.aud with run := some { r with left := [], ended := true, sum := { r.sum with status := status } } } }

/-- The core supply lies within 3 % of 0.80 V, and the reference within 1 % of 25 MHz (R573). -/
def condHolds (supplyMv refKhz : Nat) : Bool :=
  decide (776 ≤ supplyMv) && decide (supplyMv ≤ 824) && decide (24750 ≤ refKhz) && decide (refKhz ≤ 25250)

/-- AUDIT_CONDITION_CHECK (R573): the measured supply and reference. A breach lets no audit start, and ends one. -/
def execAuditConditionCheck (e : Stim) (supplyMv refKhz : Nat) (s : State) : Host.Outcome State Fault Refusal :=
  event e s (fun s => s.alive 3) (fun s =>
    let ok := condHolds supplyMv refKhz
    let s1 := { s with aud := { s.aud with condOk := ok, condAt := s.clk } }
    if s1.aud.run.any (fun r => r.kind != 2) && !(ok && lifeAudit s.ident.lc) then auditStop 3 s1 else s1)

/-! ### The end (R580 to R584, R592) -/

/-- Details of blocks that an audit has not tested. -/
def keptDetails (x : Summary) (tested : List Nat) : List (List Word) := x.details.filter (fun d => !tested.contains (fld (par d 0) 7 0))

/-- A commanded audit's summary over the one in force: blocks it has not tested keep their results. -/
def mergeSum (old new : Summary) : Summary :=
  let tested := new.res.map (·.1)
  let res := (List.range 72).filterMap (fun b =>
    if tested.contains b then some (b, new.resOf b) else if old.resOf b = 3 then none else some (b, old.resOf b))
  { new with res := res, details := (keptDetails old tested ++ new.details).take 64 }

/-- Teller pairs that the summary in force fails are out of service (R584). -/
def tellerSettle (s : State) : State :=
  let teller := (List.range 4).foldl (fun t i =>
    if s.blkFail (22 + i) then put t i { look {} t i with inService := false } else t) s.aud.teller
  { s with aud := { s.aud with teller := teller } }

/-- Online remaps become permanent with a complete audit (R580). -/
def makePermanent (s : State) : State :=
  (List.range 16).foldl (fun s b =>
    let n := (s.memCnt b).spares
    if n = 0 then s
    else
      let s1 := s.setMemCnt b { s.memCnt b with spares := 0 }
      { s1 with aud := { s1.aud with rows := put s1.aud.rows b (look 0 s1.aud.rows b + n) } }) s

/-- An audit or opening check ends: its summary is written, recorded and posted (R592). -/
def auditFinish (s : State) : State :=
  match s.aud.run with
  | none => s
  | some r =>
    let sum := { r.sum with status := if r.sum.status = 0 then 1 else r.sum.status, durMs := (s.clk - r.startClk) / 1000000, endAt := s.clk }
    let s0 := if r.kind = 1 ∧ sum.status = 1 then makePermanent s else s
    let a := s0.aud
    let a1 := if r.kind = 1 then { a with run := none, closing := sum }
      else if r.kind = 2 then { a with run := none, inForce := sum }
      else { a with run := none, inForce := mergeSum a.inForce sum }
    let s1 := { s0 with aud := a1, flt := { s0.flt with startup := s0.flt.startup && r.kind != 2 } }
    let s2 := if r.kind = 1 then s1 else tellerSettle s1
    let w := sum.words s.clk
    let s3 := logNotice [0] 0xFF 0x6001 [par w 0, par w 9] s2
    match r.cmd with
    | some id => finishCmd id (if sum.status = 1 then .ok else .internal) [] s3
    | none => s3

/-! ### Teller pairs (R585, 18 R567) -/

/-- A trip of a pair: the commands that it was executing and that had begun end with INTERNAL. -/
def tellerTrip (tp : Nat) (cmds : List Nat) (s : State) : State :=
  let x := look {} s.aud.teller tp
  let twice := x.lastTrip.any (fun t => decide (s.clk < t + 3600000000000))
  let y := { x with inService := false, lastTrip := some s.clk, barred := x.barred || twice }
  let s1 := { s with aud := { s.aud with teller := put s.aud.teller tp y } }
  let ids := (s1.inflight.filter (fun c => cmds.contains c.id && (c.phase == .running || c.phase == .accepted))).map (·.id)
  let s2 : State := ids.foldl (fun s id => endCmd id .internal (forget id s)) s1
  let k := s2.icomp 0x10
  if k.st = .activating then
    let s3 := s2.setIcomp 0x10 { k with actCmds := [], todo := [] }
    revertBegin 0x10 3 (finishAll k.actCmds .internal s3)
  else trialFault 0x10 s2

/-- TELLER_PAIR_TRIP (R585). -/
def execTellerPairTrip (e : Stim) (tp : Nat) (cmds : List Nat) (s : State) : Host.Outcome State Fault Refusal :=
  event e s (fun s => decide (tp < 4) && (look {} s.aud.teller tp).inService) (tellerTrip tp cmds)

/-- TELLER_PAIR_REJOIN (R585): the pair has passed its logic BIST. -/
def execTellerPairRejoin (e : Stim) (tp : Nat) (s : State) : Host.Outcome State Fault Refusal :=
  event e s (fun s => decide (tp < 4) && !(look {} s.aud.teller tp).inService && !(look {} s.aud.teller tp).barred && !s.blkFail (22 + tp))
    (fun s => { s with aud := { s.aud with teller := put s.aud.teller tp { look {} s.aud.teller tp with inService := true } } })

/-! ### FAULT_N (R588) -/

/-- A partition with FAILOP = 1 runs ALONE or is STOPPED. -/
def State.failopAlone (s : State) : Bool :=
  (List.range 8).any (fun p => s.confd p && blkFailop (s.blk p) &&
    (s.partState p == .stopped || (seatPairs (s.blk p)).any (fun q => (s.pair q).role == .alone && (s.pair q).part == p)))

/-- The causes of FAULT_N: word 0 of TST_FAULT_STATUS. -/
def State.faults (s : State) : Nat :=
  b2n s.flt.startup + b2n ((List.range 4).any (fun q => (s.pair q).role == .split)) * 2 + b2n (s.vlt.mode == .failed) * 4 +
  (s.flt.latched &&& 0x58) + b2n ((List.range 72).any s.blkFail) * 32 + b2n s.failopAlone * 128 +
  b2n (decide (s.tellers.length < 4)) * 256 + b2n ((List.range 2).any (fun d => (s.pdie d).yarrow)) * 512 + b2n s.yar.safeN * 1024

/-- FAULT_N is low: a cause that is not masked is 1, and the module is not in DORMANT. -/
def State.faultLow (s : State) : Bool :=
  s.pow.mode != .dormant && s.pow.mode != .off && (s.faults &&& (0x7FF ^^^ s.flt.mask)) != 0

def tstFaultStatusSpec : OpSpec :=
  { opcode := 0x6004, plen := (· == 0), free := fun _ => true
    exec := fun _ s => .done .ok [wd s.faults, wd (s.flt.latched &&& 0x58), wd s.flt.mask] s }

/-- TST_FAULT_STATUS (R588). -/
def execTstFaultStatus (e : Stim) (r : Req) (s : State) : Host.Outcome State Fault Refusal :=
  .next (submit tstFaultStatusSpec r (s.advance e))

def tstFaultClearSpec : OpSpec :=
  { opcode := 0x6005, plen := (· == 1), right := onlyT0, parm := fun _ ps _ => need (within (par ps 0) 0x7FF)
    exec := fun c s =>
      let keep := 0x7FF ^^^ ((par c.params 0).toNat &&& 0x58)
      .okay { s with flt := { s.flt with latched := s.flt.latched &&& keep } } }

/-- TST_FAULT_CLEAR (R588, R591). -/
def execTstFaultClear (e : Stim) (r : Req) (s : State) : Host.Outcome State Fault Refusal :=
  .next (submit tstFaultClearSpec r (s.advance e))

def tstFaultMaskSpec : OpSpec :=
  { opcode := 0x6006, plen := (· == 1), right := onlyT0, parm := fun _ ps _ => need (within (par ps 0) 0x7C0)
    exec := fun c s => .okay { s with flt := { s.flt with mask := (par c.params 0).toNat } } }

/-- TST_FAULT_MASK (R588, R591). -/
def execTstFaultMask (e : Stim) (r : Req) (s : State) : Host.Outcome State Fault Refusal :=
  .next (submit tstFaultMaskSpec r (s.advance e))

/-! ### TST_AUDIT_RUN, TST_SUMMARY, TST_DETAIL -/

/-- Blocks that a command names. -/
def namedBlocks (ps : List Word) : List Nat := setBits 72 ((par ps 0).toNat + (par ps 1).toNat * 2 ^ 32 + (par ps 2).toNat * 2 ^ 64)

/-- The Command column of R571. -/
def blockNamable (b : Nat) : Bool :=
  (decide (16 ≤ b) && decide (b < 20)) || (decide (22 ≤ b) && decide (b < 38)) || (decide (41 ≤ b) && decide (b < 69))

/-- A controller's ring is DISABLED. -/
def State.blockIdle (s : State) (b : Nat) : Bool :=
  let off := fun (f : Func) => (s.gate f).st == .clockGated || (s.gate f).st == .powerGated
  if b < 20 then (s.pair (b - 16)).role == .idle
  else if b < 26 then true
  else if b < 30 then (s.pair (b - 26)).role == .idle
  else if b < 34 then (List.range 8).all (fun p => !(s.confd p && (seatPcs (s.blk p)).contains (b - 30)))
  else if b < 38 then s.mea.seq.all (fun p => !(p.2.armed && p.2.conf.any (fun w => sqAdc w == b - 34)))
  else if b < 53 then off (.port (b - 39))
  else if b < 61 then off (.can (b - 53)) && !s.ringed (b - 53)
  else off (.lin (b - 61))

def tstAuditRunSpec : OpSpec :=
  { opcode := 0x6001, plen := (· == 3), right := onlyT0, life := lifeOpen
    parm := fun _ ps _ => need (within (par ps 2) 0xFF && (namedBlocks ps).all blockNamable)
    exec := fun c s =>
      let bs := namedBlocks c.params
      if s.aud.run.isSome ∨ ¬ bs.all s.blockIdle ∨ 1 < (bs.filter (fun b => decide (22 ≤ b) && decide (b < 26))).length ∨
          ¬ lifeAudit s.ident.lc ∨ !s.aud.condOk then .fail .busy s
      else .accept (auditStart 3 bs (some c.id) s) }

/-- TST_AUDIT_RUN (R571, R591). -/
def execTstAuditRun (e : Stim) (r : Req) (s : State) : Host.Outcome State Fault Refusal :=
  .next (submit tstAuditRunSpec r (s.advance e))

/-- The summary that a command selects. -/
def State.summary (s : State) (w : Word) : Summary := if bit w 0 then s.aud.inForce else s.aud.closing

def tstSummarySpec : OpSpec :=
  { opcode := 0x6002, plen := (· == 1), parm := fun _ ps _ => need (within (par ps 0) 1)
    exec := fun c s => .done .ok ((s.summary (par c.params 0)).words s.clk) s }

/-- TST_SUMMARY (R581). -/
def execTstSummary (e : Stim) (r : Req) (s : State) : Host.Outcome State Fault Refusal :=
  .next (submit tstSummarySpec r (s.advance e))

def tstDetailSpec : OpSpec :=
  { opcode := 0x6003, plen := (· == 1), parm := fun _ ps _ => need (within (par ps 0) 0x3F01)
    exec := fun c s =>
      let ds := ((s.summary (par c.params 0)).details.drop (fld (par c.params 0) 13 8)).take 16
      .done .ok (padWords 65 (wd ds.length :: ds.flatten)) s }

/-- TST_DETAIL (R579). -/
def execTstDetail (e : Stim) (r : Req) (s : State) : Host.Outcome State Fault Refusal :=
  .next (submit tstDetailSpec r (s.advance e))

end Sys2Proof.Machine
end

