-- ==== Sys2Proof/Machine/Carriage.lean ====
section
/-!
DEFINITION. Remote carriage (03 R103 to R109): frames from remote tenants, replies and notices to them, and their
retransmission. The switch hands carriage frames to P15; those of the module leave Teller for the association's port.
Log entry 37.
-/

namespace Sys2Proof.Machine

/-- Bytes of an item in a frame: header and words; one slot where PLEN is out of range (02 R43). -/
def carriedLen (plen : Nat) : Nat := if 1020 < plen then 64 else 16 + 4 * plen

/-! ### Frames to a remote tenant -/

/-- The carriage header (R103). -/
def carHeader (kind t ack count fseq : Nat) (room : List Nat) (ackseq : Nat) : List Byte :=
  bytesOf 1 (0x10 + kind) ++ bytesOf 1 t ++ bytesOf 1 ack ++ bytesOf 1 count ++ bytesOf 4 fseq ++
    room.flatMap (bytesOf 2) ++ bytesOf 4 ackseq

/-- The tag of an item, or of a header alone (R105). -/
def carTag (key head item : List Byte) (pos : Option Nat) : List Byte :=
  fit 8 (Config.cmac key (head ++ (pos.map (bytesOf 1)).getD [] ++ item))

/-- Free slots of SQ0 to SQ3. -/
def State.sqRoom (s : State) (t : Nat) : List Nat := (List.range 4).map (fun q => (s.queue t q).room)

/-- The bytes of a frame: its items, each with its tag under CMAC. -/
def carBytes (a : Assoc) (head : List Byte) (items : List (List Byte)) : List Byte :=
  if !a.cmac then head ++ items.flatten
  else if items = [] then head ++ carTag a.keyOut head [] none
  else head ++ items.zipIdx.flatMap (fun p => p.1 ++ carTag a.keyOut head p.1 (some p.2))

/-- Puts a carriage frame on its way to a port and MAC address; while SWX is not in RUN it waits at the crossing (01
R22). -/
def carOut (port mac : Nat) (bs : List Byte) (s : State) : State :=
  if !s.running 2 then { s with gwy := { s.gwy with carHeld := s.gwy.carHeld ++ [(port, mac, bs)] } }
  else
    tellerSend { port := port } (s.sp 15).defPcp
      { dst := mac, src := s.image.gwAddr, etype := s.net.etype, payload := bs } (settleNet s)

/-- The frames that waited at the crossing go on (01 R22). -/
def carResume (s : State) : State :=
  s.gwy.carHeld.foldl (fun s x => carOut x.1 x.2.1 x.2.2 s) { s with gwy := { s.gwy with carHeld := [] } }

/-- Puts a carriage frame on its way to the association's port. -/
def carSend (a : Assoc) (bs : List Byte) (s : State) : State := carOut a.port a.mac bs s

/-- The state with a tenant's association set. -/
def State.setAssoc (s : State) (t : Nat) (a : Assoc) : State := s.setTenant t { s.tenant t with assoc := some a }

/-- Sends an acknowledge (R107). -/
def carAck (t stat ackseq : Nat) (s : State) : State :=
  match (s.tenant t).assoc with
  | none => s
  | some a =>
    let head := carHeader 3 t stat 0 a.txSeq (s.sqRoom t) ackseq
    carSend a (carBytes a head []) (s.setAssoc t { a with txSeq := (a.txSeq + 1) % 2 ^ 32 })

/-! ### Acknowledged and abandoned frames (R108) -/

/-- Slots that leave a queue: those of the frames at its head that are acknowledged or abandoned. -/
def ackedSlots (kind : Nat) : List OutFrame → Nat
  | [] => 0
  | o :: os => if o.kind ≠ kind then ackedSlots kind os else if o.acked then o.slots + ackedSlots kind os else 0

/-- The frames left when those at the head of a series are done with. -/
def openOuts (kind : Nat) : List OutFrame → List OutFrame
  | [] => []
  | o :: os => if o.kind ≠ kind then o :: openOuts kind os else if o.acked then openOuts kind os else o :: os

/-- Frees the slots of the frames done with: the consumer pointers of CQ and NQ are compared with their copies (R100) and
advance. -/
def freeOuts (t : Nat) (s : State) : State :=
  match (s.tenant t).assoc with
  | none => s
  | some a =>
    let s := checkPtrs t 5 (checkPtrs t 4 s)
    let c := s.queue t 4
    let n := s.queue t 5
    let s1 := s.setAssoc t { a with outs := openOuts 2 (openOuts 1 a.outs) }
    (s1.takeSlots t 4 (min c.occ (ackedSlots 1 a.outs))).takeSlots t 5 (min n.occ (ackedSlots 2 a.outs))

/-- A frame is done with. -/
def doneOut (t fseq : Nat) (s : State) : State :=
  match (s.tenant t).assoc with
  | none => s
  | some a => freeOuts t (s.setAssoc t { a with outs := a.outs.map (fun o => if o.fseq = fseq then { o with acked := true } else o) })

/-- A frame is abandoned: its slots are free, QUE_REMOTE_LOST goes to T0 and the Ledger (R108). -/
def abandonOut (t : Nat) (o : OutFrame) (s : State) : State :=
  logNotice [0] t 0x0204 [queWord t (if o.kind = 1 then 4 else 5), wd o.fseq] (doneOut t o.fseq s)

/-! ### Frames from a remote tenant -/

/-- Cuts the items out of a command frame's bytes, with the tags that follow them; none when COUNT disagrees with the
length (R109). -/
def carItems (cmac : Bool) : Nat → List Byte → Option (List (List Byte × List Byte))
  | 0, bs => if bs = [] then some [] else none
  | n + 1, bs =>
    let k := carriedLen (le bs 6 2)
    let tag := if cmac then 8 else 0
    if bs.length < 16 ∨ bs.length < k + tag then none
    else (carItems cmac n (bs.drop (k + tag))).map (fun l => (bs.take k, (bs.drop k).take tag) :: l)

/-- How a series stands to a frame number (R106). A series begins at 1, so FSEQ 0 is a replay (DEDUCED, log 37). -/
inductive SeqCase where
  | fresh | seen | replay
  deriving DecidableEq, Repr

def Assoc.seqCase (a : Assoc) (n : Nat) : SeqCase :=
  if a.rxHigh < n then .fresh
  else if a.rxHigh ≤ n + 64 ∧ n ≠ 0 then (if n = a.rxHigh ∨ a.rxSeen.contains n then .seen else .fresh)
  else .replay

/-- Marks a frame number accepted. -/
def Assoc.accept (a : Assoc) (n : Nat) : Assoc :=
  let high := max a.rxHigh n
  let old := if a.rxHigh = 0 then a.rxSeen else a.rxHigh :: a.rxSeen
  { a with rxHigh := high, rxSeen := ((n :: old).filter (fun m => decide (high ≤ m + 64))).eraseDups }

/-- The items that verify, in order; the others are dropped, counted and recorded (R105). -/
def carVerify (t : Nat) (a : Assoc) (head : List Byte) (items : List (List Byte × List Byte)) (s : State) :
    List (List Byte) × State :=
  if !a.cmac then (items.map (·.1), s)
  else
    let ok := fun (p : (List Byte × List Byte) × Nat) => carTag a.keyIn head p.1.1 (some p.2) == p.1.2
    let l := items.zipIdx
    let bad := (l.filter (fun p => !ok p)).map (·.2)
    ((l.filter ok).map (·.1.1), bad.foldl (fun s i =>
      logObj 0x02 t 0 (le head 4 4) i
        (s.setTenant t { s.tenant t with dropTag := satInc 0xFFFFFFFF (s.tenant t).dropTag })) s)

/-- Whether a frame with COUNT = 0 carries its tag (R105). -/
def carBare (a : Assoc) (head rest : List Byte) : Bool :=
  if a.cmac then rest == carTag a.keyIn head [] none else rest == []

/-- A command frame whose number is new (R107, R109). -/
def carCommand (t : Nat) (a : Assoc) (head rest : List Byte) (s : State) : State :=
  let fseq := le head 4 4
  let prio := le head 2 1
  let count := le head 3 1
  if count = 0 then
    if carBare a head rest then carAck t 0 fseq (s.setAssoc t (a.accept fseq))
    else if rest.length = 8 ∧ a.cmac then
      logObj 0x02 t 0 fseq 0 (s.setTenant t { s.tenant t with dropTag := satInc 0xFFFFFFFF (s.tenant t).dropTag })
    else carAck t 2 fseq s
  else match carItems a.cmac count rest with
  | none => carAck t 2 fseq s
  | some items =>
    if 9216 < head.length + rest.length + 18 ∨ 3 < prio then carAck t 2 fseq s
    else
      let r := carVerify t a head items (checkPtrs t prio s)
      if r.1 = [] then r.2
      else
        let q := r.2.queue t prio
        let n := (r.1.map (fun b => (itemSlots b).length)).sum
        if q.ptrErr || decide (q.room < n) then carAck t 1 fseq r.2
        else
          let s1 := r.1.foldl (fun s b => postItem t prio (mkSlots q.gen (itemSlots b)) s) (r.2.setAssoc t (a.accept fseq))
          carAck t 0 fseq s1

/-- A frame counted as dropped outside an association: at the tenant it claims, or with those that name no tenant. -/
def carForeign (t : Nat) (s : State) : State :=
  if s.exists t then s.setTenant t { s.tenant t with dropForeign := satInc 0xFFFFFFFF (s.tenant t).dropForeign }
  else { s with gwy := { s.gwy with foreign := satInc 0xFFFFFFFF s.gwy.foreign } }

/-- A frame arrives (R104 to R108). -/
def carReceive (f : Carriage) (s : State) : State :=
  let head := f.bytes.take 20
  let rest := f.bytes.drop 20
  let t := le head 1 1
  let kind := le head 0 1 % 16
  let fseq := le head 4 4
  match (s.tenant t).assoc with
  | none => carForeign t s
  | some a =>
    if head.length < 20 || le head 0 1 / 16 != 1 || f.port != a.port || f.src != a.mac || (!a.cmac && f.rxsc != some a.rxsc) ||
        (kind != 0 && kind != 3) then carForeign t s
    else match a.seqCase fseq with
    | .replay => s.setTenant t { s.tenant t with dropReplay := satInc 0xFFFFFFFF (s.tenant t).dropReplay }
    | .seen => if kind = 0 then carAck t 0 fseq s else s
    | .fresh =>
      if kind = 0 then carCommand t a head rest s
      else if le head 3 1 = 0 && carBare a head rest then doneOut t (le head 16 4) (s.setAssoc t (a.accept fseq))
      else s.setTenant t { s.tenant t with dropTag := satInc 0xFFFFFFFF (s.tenant t).dropTag }

/-! ### Sending replies and notices (R108) -/

/-- The items of a queue's slots, each as its bytes and its number of slots. -/
def queueItems : List Slot → List (List Byte × Nat)
  | [] => []
  | x :: xs =>
    match queueItems xs, (xs.head?).map (·.first) with
    | (b, n) :: l, some false => (x.bytes ++ b, n + 1) :: l
    | l, _ => (x.bytes, 1) :: l

/-- The first items, as many as fit the payload; one at least. -/
def fitItems (room tag : Nat) : List (List Byte × Nat) → List (List Byte × Nat)
  | [] => []
  | x :: xs => x :: (go (room - (x.1.length + tag)) xs)
where
  go (room : Nat) : List (List Byte × Nat) → List (List Byte × Nat)
    | [] => []
    | x :: xs => if x.1.length + tag ≤ room then x :: go (room - (x.1.length + tag)) xs else []

/-- Items of the CQ or NQ that no frame carries yet. -/
def State.unsent (s : State) (t q : Nat) (a : Assoc) : List (List Byte × Nat) :=
  let kind := if q = 4 then 1 else 2
  let out := ((a.outs.filter (fun o => o.kind == kind)).map (·.slots)).sum
  queueItems ((s.slotsOf (s.queue t q)).drop out)

/-- Sends the next frame of replies, or of notices when no reply waits. PTRERR of a CQ or NQ, which only refuses
doorbells, does not stop it (DEDUCED, log 37). -/
def carNext (t : Nat) (s : State) : State :=
  match (s.tenant t).assoc with
  | none => s
  | some a =>
    let q := if s.unsent t 4 a = [] then 5 else 4
    let kind := if q = 4 then 1 else 2
    let tag := if a.cmac then 8 else 0
    let items := (fitItems ((s.sp a.port).mtu - 42) tag (s.unsent t q a)).take 255
    if items = [] then s
    else
      let head := carHeader kind t 0 items.length a.txSeq (s.sqRoom t) 0
      let bs := carBytes a head (items.map (·.1))
      let o : OutFrame := { fseq := a.txSeq, kind := kind, slots := (items.map (·.2)).sum, bytes := bs, sentAt := s.clk }
      carSend a bs (s.setAssoc t { a with txSeq := (a.txSeq + 1) % 2 ^ 32, outs := a.outs ++ [o] })

/-- CARRIAGE_SEND (R108). -/
def execCarriageSend (e : Stim) (t : Nat) (s : State) : Host.Outcome State Fault Refusal :=
  event e s (fun s => s.alive 3) (carNext t)

end Sys2Proof.Machine
end

