-- ==== Sys2Proof/Machine/Loss.lean ====
section
/-!
DEFINITION. What islands lose at a power gate or a reset, and what happens to them at their gates and starts (01 R20,
R26; 08 R225; 12 R369; 15 R450; 16 R500; 17 R518).
-/

namespace Sys2Proof.Machine

/-- The commands of a function's gate end with INTERNAL, and it stands at a gate. -/
def gateCut (f : Func) (st : GateState) (s : State) : State :=
  let g := s.gate f
  finishAll (g.enCmds ++ g.disCmds) .internal (s.setGate f { st := st })

/-! ### CPX (15 R450, 16 R500) -/

/-- CPX loses its contents: every partition is off, its tiles are empty, the Vault is reset. -/
def cpxLose (s : State) : State :=
  let s1 := (List.range 8).foldl (fun s p => gateCut (.part p) .powerGated s) s
  let s2 := (List.range 4).foldl (fun s q => resyncCmd q .internal s) s1
  let s3 := s2.clearMem 0x30000000 0x100000
  let pairs := (List.range 4).map (fun q => (q, { s3.pair q with role := Role.idle, part := 15, halted := false }))
  let parts := s3.cpu.part.map (fun p => (p.1, { p.2 with keep := false }))
  let down := s3.vlt.mode == .failed || s3.vlt.mode == .retired
  { s3 with cpu := { s3.cpu with part := parts, pair := pairs, hart := [], irq := [] }
            vlt := { s3.vlt with mode := if down then s3.vlt.mode else .booting, serving := none } }

/-- A clock gate of CPX suspends the Vault. -/
def cpxGated (s : State) : State :=
  if s.vlt.mode = .running then { s with vlt := { s.vlt with mode := .suspended } } else s

/-- CPX reaches RUN: the Vault resumes, or restarts with cause CPX. -/
def cpxRun (cold : Bool) (s : State) : State :=
  if cold then (if s.vlt.mode = .booting then vaultRestartBegin 5 s else s)
  else if s.vlt.mode = .suspended then { s with vlt := { s.vlt with mode := .running, runAt := s.clk } }
  else s

/-! ### FBX (03, 04 R129) -/

/-- A queue whose slots are lost. -/
def Queue.lostSlots (q : Queue) : Queue :=
  { q with slots := [], win := [], cwin := [], prod := 0, prodInv := 0x1FFF, cons := 0, consInv := 0x1FFF, drain := 0, drainHdr := [] }

/-- FBX loses system SRAM, its online row remaps (15 R470), the slots of every queue, its counter's rate adjustment (09
R265) and the descriptors its engines hold; the virtual instances, for which no chapter states a restart, are left disabled
(R20, R31). The copies of Tally time run on at nominal rate until FBX restarts (DEDUCED, log 36). -/
def fbxLose (s : State) : State :=
  let s1 := s.clearMem 0x20000000 0x1000000
  let cnt := s1.cpu.cnt.map (fun p => (p.1, if p.1 < 16 then { p.2 with spares := 0 } else p.2))
  { s1 with cpu := { s1.cpu with cnt := cnt, swept := [] }
            que := s1.que.map (fun p => (p.1, p.2.lostSlots))
            tim := { s1.tim with radj := 0 }
            vis := s1.vis.map (fun p => (p.1, p.2.map (fun v =>
              { v with fetched := [], off := true, resetting := false, deleting := false }))) }

/-! ### SWX (10, 11) -/

/-- SWX loses its tables, its frames, its streams and its keys; its ports are left disabled. -/
def swxLose (s : State) : State :=
  let s1 := (List.range 14).foldl (fun s p => gateCut (.port p) .clockGated s) s
  let s2 := match s1.tsn.set with
    | some x => if x.t.isSome then finishCmd x.cmd .internal [] s1 else s1
    | none => s1
  { s2 with net := { nextFrame := s2.net.nextFrame }, tsn := {} }

/-! ### SVX -/

/-- SVX loses the commands in execution, each of which ends with INTERNAL, and the ACF contexts with the PDUs that Teller
packs. -/
def svxLose (s : State) : State :=
  let s1 := dropItems s
  let s2 := { s1 with gwy := { s1.gwy with acf := [] } }
  (s2.inflight.filter (fun c => c.phase != .held)).foldl (fun s c => endCmd c.id .internal (forget c.id s)) s2

/-! ### BSX (08 R225, 12 R369) -/

/-- A controller is enabled, or will be once its gate has been applied. -/
def gateOn (g : Gate) : Bool := g.st == .run || g.st == .starting || g.rePend

/-- A controller is reset: what Teller keeps stays, with the counts of 13 R415 and, while the module runs, the frames of the
gateway queue (13 R401); GAGE is at its reset value and the message RAM is empty (12 R369). -/
def canWipe (on : Bool) (n : Nat) (s0 : State) : State :=
  let s := syncCut n s0
  let x := s.canc n
  let y : CanCtl := { owner := x.owner, readers := x.readers, conf := x.conf, filt := x.filt, mode := x.mode, wasOn := on
                      gq := x.gq, gqDrop := x.gqDrop, aged := x.aged, fmtDrop := x.fmtDrop
                      dstDown := x.dstDown, miss := x.miss }
  (s.setCan n y).clearMem (winBase n) 0xC000

/-- A controller whose island loses its contents: it starts again with its island where it was enabled, also when the
island is lost again before that. -/
def canLose (n : Nat) (s : State) : State :=
  canWipe (gateOn (s.gate (.can n)) || (s.canc n).wasOn) n (gateCut (.can n) .clockGated s)

/-- The same for a LIN channel. -/
def linWipe (on : Bool) (n : Nat) (s : State) : State :=
  let x := s.lin n
  let y : LinCh := { owner := x.owner, readers := x.readers, conf := x.conf, frames := x.frames, sched := x.sched, wasOn := on, miss := x.miss }
  s.setLin n y

def linLose (n : Nat) (s : State) : State :=
  linWipe (gateOn (s.gate (.lin n)) || (s.lin n).wasOn) n (gateCut (.lin n) .clockGated s)

/-- A field output whose island loses its contents: off, its pending switch-on ended; one in FORCED stays so until
reclaim (07 R211). -/
def foLose (i : Nat) (s : State) : State :=
  let s1 := foDrop i .internal s
  let x := s1.fout i
  s1.setFout i { owner := x.owner, readers := x.readers, block := x.block, drvMark := x.drvMark
                 st := if x.st = .forced then .forced else if x.block.isNone then .unconf else .off }

/-- A field input that starts from its configuration. -/
def State.fiFresh (s : State) (x : FieldIn) : FieldIn :=
  let b := fiBlk x
  fiReopen s { owner := x.owner, readers := x.readers, block := x.block, raw := x.raw
               nextWin := if fiPeriod b = 0 then 0 else s.fiWindow b }

/-- BSX loses its contents, the gateway's routing table included. -/
def bsxLose (s0 : State) : State :=
  let s := dropItems s0
  let s1 := (List.range 8).foldl (fun s n => linLose n s) ((List.range 12).foldl (fun s n => canLose n s) s)
  let s2 := (List.range 16).foldl (fun s i => foLose i s) s1
  let s3 := s2.mea.converts.foldl (fun s c => finishCmd c.cmd .internal [] s) s2
  let seq := s3.mea.seq.map (fun p => (p.1, ({ owner := p.2.owner, conf := p.2.conf } : MeaSeq)))
  let fi := s3.fio.fi.map (fun p => (p.1, s3.fiFresh p.2))
  let ring := s3.nmg.ring.map (fun p => if p.1 < 12 then (p.1, { p.2 with out := none, clOut := none }) else p)
  { s3 with mea := { seq := seq, converts := [] }, fio := { s3.fio with fi := fi, stopAt := none }, nmg := { s3.nmg with ring := ring }
            gwy := { s3.gwy with route := [] } }

/-- BSX reaches RUN: candidates are discarded and debounce restarts from the raw level; after a power gate inputs start
from their configurations, outputs obey LIMP again, and the controllers that were enabled start. -/
def bsxRun (cold : Bool) (s : State) : State :=
  let fi := s.fio.fi.map (fun p => (p.1, if cold then s.fiFresh p.2 else fiReopen s p.2))
  let s1 := { s with fio := { s.fio with fi := fi, stopAt := none
                                         lost := s.fio.lost + (s.clk - s.fio.stopAt.getD s.clk) } }
  if cold then
    let s2 := if s1.foCause then foForce s1 else s1
    let s3 := (List.range 12).foldl (fun s n => if (s.canc n).wasOn then gateStart (.can n) s else s) s2
    (List.range 8).foldl (fun s n => if (s.lin n).wasOn then gateStart (.lin n) s else s) s3
  else if s1.running 5 then resumeRuns s1
  else s1

/-! ### Power dies -/

/-- The rise that a wire model starts with where none is known: WINIT % of DTMAX (06 R193). -/
def State.thetaInit (s : State) (ch : Nat) : Rat :=
  mkRat (fld (par (s.wireBlk ch) 0) 31 24 * wireMax (s.wireBlk ch)) 1000

/-- A channel whose die's controller is reset: off, its requests and commands ended. -/
def chLose (ch : Nat) (s : State) : State :=
  let s1 := withdraw ch .internal (dropSecond ch .internal (dropPend ch .internal s))
  let c := s1.chn ch
  s1.setChn ch { owner := c.owner, readers := c.readers, block := c.block, wire := c.wire, policy := c.policy
                 st := if c.block.isNone then .unconf else .off, retryLeft := c.retries
                 theta := s1.thetaInit ch, thetaAt := s1.clk / 50000 }

/-- A power die's controller is reset. -/
def dieLose (d : Nat) (s : State) : State := reblock ((dieChans d).foldl (fun s ch => chLose ch s) s)

/-! ### AON -/

/-- AON loses its registers: the alarm, its time and the recorded wakes. -/
def aonLose (s : State) : State :=
  { s with tim := { s.tim with alarm := none, alarmDue := false, aonKnown := false }
           nmg := { s.nmg with wake0 := 0, wake1 := 0 } }

/-! ### By island -/

/-- An island loses its contents. -/
def islLose (n : Nat) (s : State) : State :=
  match n with
  | 0 => cpxLose s
  | 1 => fbxLose s
  | 2 => swxLose s
  | 3 => svxLose s
  | 4 => stxLose s
  | 5 => bsxLose s
  | 6 => dieLose 0 s
  | 7 => dieLose 1 s
  | _ => aonLose s

/-- What a clock gate does to an island beside stopping its clock. -/
def islGated (n : Nat) (s : State) : State :=
  if n = 0 then cpxGated s
  else if n = 3 then dropItems s
  else if n = 5 then
    let s1 := dropItems s
    { s1 with fio := { s1.fio with stopAt := some s1.clk } }
  else s

/-- What an island does as it reaches RUN. -/
def islRun (n : Nat) (cold : Bool) (s : State) : State :=
  if n = 0 then cpxRun cold s else if n = 5 then bsxRun cold s else s

end Sys2Proof.Machine
end

