-- ==== Sys2Proof/Machine/Island.lean ====
section
/-!
DEFINITION. SYS_ISLAND_CTL (01 R33 to R35, 16 R499) and the enable of an island that TEN_ISLAND_ENABLE shares.
-/

namespace Sys2Proof.Machine

/-- The combinations of R34. -/
def islCombo (isl action : Nat) : Bool :=
  (isl == 0 || isl == 2 || isl == 4 || isl == 5 || (isl == 1 && action != 2)) && decide (action ≤ 2)

/-- A block in an island is claimed by the Vault (16 R499). -/
def State.claimed (s : State) (isl : Nat) : Bool :=
  !s.vlt.released &&
  (if isl = 1 then s.vlt.keys.any (fun k => k.2.isSome) || !s.calls.isEmpty
   else isl == 4 && !s.sto.slots.isEmpty)

/-- A partition counts as running (R35). -/
def State.partsRun (s : State) : Bool := (List.range 8).any (fun p => !s.partOff p)

/-- A disable that R28 answers with OK at once. -/
def idleDisable (g : Gate) (deep : Bool) : Bool :=
  g.st == .powerGated || g.st == .stopped || (g.st == .clockGated && !deep)

/-- A gate request to an island. -/
def islDisable (n : Nat) (deep : Bool) (c : Cmd) (s : State) : Ans :=
  let g := (s.island n).gate
  if idleDisable g deep then .okay s
  else if s.claimed n then .fail .denied (logObj 0x00 c.tenant c.opcode n (b2n deep + 1)
    { s with vlt := { s.vlt with claimEvent := some (n, deep, c.tenant) } })
  else if n = 0 ∧ s.partsRun then .fail .busy s
  else gateDisable (.island n) deep c.id (islLose n) s

/-- An enable of an island: one whose clock has failed starts when its clock is good, and one left off starts again
(R20, R28). -/
def islEnable (n : Nat) (c : Cmd) (s : State) : Ans :=
  let x := s.island n
  if x.lossHold then .accept (s.setIsland n { x with gate := { x.gate with enCmds := x.gate.enCmds ++ [c.id] } })
  else gateEnable (.island n) c.id (s.setIsland n { x with stuck := false })

def sysIslandCtlSpec : OpSpec :=
  { opcode := 0x0010, plen := (· == 1), right := onlyT0
    parm := fun _ ps _ => need (within (par ps 0) 0xFF03 && islCombo (fld (par ps 0) 15 8) (fld (par ps 0) 1 0))
    exec := fun c s =>
      let n := fld (par c.params 0) 15 8
      let a := fld (par c.params 0) 1 0
      if a = 0 then islEnable n c s else islDisable n (a == 2) c s }

/-- SYS_ISLAND_CTL (R33 to R35). -/
def execSysIslandCtl (e : Stim) (r : Req) (s : State) : Host.Outcome State Fault Refusal :=
  .next (submit sysIslandCtlSpec r (s.advance e))

end Sys2Proof.Machine
end

