-- ==== Sys2Proof/Machine/Vnic.lean ====
section
/-!
DEFINITION. The shared engines that serve the rings of virtual instances (04 R127 to R130): frames of VNICs (10 R318 to
R321), frames of endpoints (13 R410) and plain transfers (15 R474, R475). Each takes a transfer-engine slot from its start
to its end, which is a row of its own. Log entry 39.
-/

namespace Sys2Proof.Machine

/-! ### VNICs (10 R319 to R321) -/

/-- A submission entry of KIND 0 in range: transmit, or receive buffer. -/
def vnicEntryOk (v : Vi) (b : List Byte) (s : State) : Bool :=
  let len := le b 4 2
  let addr := le b 8 5
  decide (le b 1 1 < 4) && decide (le b 2 1 < 8) && le b 3 1 == 0 && le b 13 3 == 0 && le b 20 4 == 0 && le b 24 8 == 0 &&
  (if le b 0 1 = 0 then decide (60 ≤ len) && decide (len + 4 ≤ fld (par v.kindWords 2) 31 16) && s.mayAccess v.owner addr len 0
   else le b 0 1 == 1 && len % 64 == 0 && decide (64 ≤ len) && decide (len ≤ 9216) && le b 6 2 == 0 && s.mayAccess v.owner addr len 1)

/-- The frame of a transmit entry. -/
def State.txFrame (s : State) (b : List Byte) : EthFrame := parseEth (s.readMem (le b 8 5) (le b 4 2))

/-- PCP for an untagged frame of a transmit entry. -/
def txPcp (v : Vi) (b : List Byte) : Nat := if (le b 1 1).testBit 1 then le b 2 1 else fld (par v.kindWords 1) 30 28

/-- Traffic class at P14 of a transmit entry's frame (10 R299). -/
def State.txClass (s : State) (v : Vi) (b : List Byte) : Nat :=
  (s.sp 14).tcOf (match (s.txFrame b).vlan with
    | some t => t / 2 ^ 13 % 8
    | none => txPcp v b)

/-- A transmit entry: its frame enters P14. -/
def vnicTx (idx : Nat) (v : Vi) (d : Fetched) (s0 : State) : State :=
  let s := settleNet s0
  let b := wordBytes d.entry
  let f := s.txFrame b
  let tsid := if (le b 1 1).testBit 0 then some (le b 6 2) else none
  let r := forward 14 (some idx) tsid (s.sp 14).pvid (txPcp v b) f (countIn 14 f s)
  complete 0 idx (vnicDone 0 (if r.2 then 0 else 0x300) 0 d.epoch 0 (le b 16 4)) r.1

/-- Takes a descriptor into the engines. -/
def fetch (kind idx : Nat) (v : Vi) (b : List Byte) (s : State) : State :=
  let d : Fetched := { entry := wordsOf 8 b, index := v.sqc, epoch := v.epoch }
  s.setVi kind idx (some { v with fetched := v.fetched ++ [{ d with live := !d.posts kind }] })

/-- An entry of a VNIC. -/
def vnicServe (idx : Nat) (v : Vi) (b : List Byte) (s : State) : State :=
  if !vnicEntryOk v b s then complete 0 idx (vnicDone (le b 0 1) 0x101 0 v.epoch 0 (le b 16 4)) (vaultLog v.owner (le b 8 5) (le b 4 2) s)
  else fetch 0 idx v b s

/-! ### Endpoints (13 R410) -/

/-- A submission entry of KIND 1 in range. -/
def vepEntryOk (v : Vi) (b : List Byte) (s : State) : Bool :=
  let addr := le b 16 5
  le b 13 3 == 0 && le b 21 3 == 0 && le b 28 4 == 0 &&
  (if le b 12 1 = 0 then
     !malformed b 2048 && decide (hFmt b % 4 < 3) && le b 5 1 == 0 &&
       ((hFmt b).testBit 3 || hLen b == 0 || s.mayAccess v.owner addr (hLen b) 0)
   else le b 12 1 == 1 && s.mayAccess v.owner addr 2048 1)

/-- An entry of an endpoint. -/
def vepServe (idx : Nat) (v : Vi) (b : List Byte) (s : State) : State :=
  if !vepEntryOk v b s then complete 1 idx (vepDone (b.take 12) 0x101 v.epoch 0 (le b 24 4)) (vaultLog v.owner (le b 16 5) (if le b 12 1 = 0 then hLen b else 2048) s)
  else fetch 1 idx v b s

/-- A transmit entry of an endpoint: its frame enters the engine. -/
def vepTx (idx : Nat) (d : Fetched) (bad : Bool) (s : State) : State :=
  let b := wordBytes d.entry
  let f := frameOfHdr (b.take 12) false (s.readMem (le b 16 5) (hLen b))
  let i : GwItem := { kind := 3, idx := idx, at_ := s.clk, stamp := s.tim.full, frame := f, oneshot := hOneshot b
                      epoch := d.epoch, cookie := vepCookie d.entry, head := b.take 12 }
  if s.engineOn && !bad then { s with gwy := { s.gwy with items := s.gwy.items ++ [i] } } else vepSent i false s

/-! ### Serving a ring -/

/-- The engines may fetch the next entry of an instance: while the share leaves no slot, descriptors stay in their ring
(04 R115). -/
def mayFetch (kind : Nat) (v : Vi) (s : State) : Bool :=
  let b := s.sqEntry v
  s.running 1 && !v.resetting && !v.off && v.waiting != 0 && s.cqRoom kind v != 0 && s.xferFree v.owner &&
  (kind != 0 || le b 0 1 != 0 || s.running 2)

/-- Fetches entries while it may, at most n of them. -/
def serve (kind idx : Nat) : Nat → State → State
  | 0, s => s
  | n + 1, s =>
    match s.vi kind idx with
    | none => s
    | some v =>
      if !mayFetch kind v s then s
      else
        let b := s.sqEntry v
        let v1 := { v with sqc := (v.sqc + 1) % 2 ^ 16 }
        let s1 := writeCtl kind v1 (s.setVi kind idx (some v1))
        let s2 := match kind with
          | 0 => vnicServe idx { v1 with sqc := v.sqc } b s1
          | 1 => vepServe idx { v1 with sqc := v.sqc } b s1
          | _ => fetch kind idx { v1 with sqc := v.sqc } b s1
        serve kind idx n (s2.setSqc kind idx v1.sqc)

/-- Begins the transfer of the oldest frame of an instance that waits for a slot. -/
def startOne (key : Nat) (s : State) : State :=
  match look none s.vis key with
  | none => s
  | some v =>
    match v.fetched.find? (fun d => d.work.isSome && !d.live) with
    | none => s
    | some d =>
      if v.resetting || !s.running 1 || !s.xferFree v.owner then s
      else { s with vis := put s.vis key (some { v with fetched := v.fetched.map (fun x =>
        if x.index = d.index then { x with live := true } else x) }) }

/-- Serves an instance, by its key: frames that wait for a transfer first, then its ring. -/
def serveKey (s : State) (key : Nat) : State :=
  match look none s.vis key with
  | some v => serve (key / 256) (key % 256) v.waiting (v.fetched.foldl (fun s _ => startOne key s) s)
  | none => s

/-- Serves every instance of a tenant. -/
def serveTenant (t : Nat) (s : State) : State := (s.visOf t).foldl serveKey s

/-- Serves every instance. -/
def serveAll (s : State) : State := (s.vis.map (·.1)).foldl serveKey s

/-- The owner's write of SQP (10 R318): a store of its partition, within its regions (15 R452). -/
def sqpWrite (who kind idx sqp : Nat) (s : State) : State :=
  match s.vi kind idx with
  | none => s
  | some v =>
    let a := pageAddr (v.ctlPage kind)
    match partOfReq who with
    | none => s
    | some r =>
    if !s.inRegion r a 2 1 || s.vaultAddr a then storeRefused r a 16 s
    else
      let p := sqp % 2 ^ 16
      serveKey ((s.setVi kind idx (some { v with sqp := p })).writeMem a (bytesOf 2 p)) (kind * 256 + idx)

/-- SQP_WRITE (10 R318). -/
def execSqpWrite (e : Stim) (who kind idx sqp : Nat) (s : State) : Host.Outcome State Fault Refusal :=
  event e s (fun s => s.running 1) (sqpWrite who kind idx sqp)

/-! ### Plain transfers (15 R474, R475) -/

/-- An entry of a transfer instance in range, with the access it needs. -/
def xferOk (owner : Nat) (b : List Byte) (s : State) : Bool :=
  let len := le b 4 4
  let src := le b 8 5
  let dst := le b 16 5
  decide (le b 0 1 ≤ 1) && decide (le b 1 1 ≤ 1) && le b 2 2 == 0 && le b 13 3 == 0 && le b 21 3 == 0 && le b 28 4 == 0 &&
  decide (1 ≤ len) && decide (len ≤ 16777216) && s.mayAccess owner dst len 1 &&
  (if le b 0 1 = 0 then s.mayAccess owner src len 0 && (decide (src + len ≤ dst) || decide (dst + len ≤ src))
   else len % 4 == 0 && le b 12 1 == 0)

/-- Moves the first n bytes of a transfer. -/
def xferMove (b : List Byte) (n : Nat) (s : State) : State :=
  let data := if le b 0 1 = 0 then s.readMem (le b 8 5) n
    else (List.range n).map (fun i => (b.drop 8).getD (i % 4) 0)
  s.writeMem (le b 16 5) data

/-- A completion entry of R475. -/
def xferDone (b : List Byte) (st done epoch time : Nat) : List Byte :=
  bytesOf 2 (le b 0 1) ++ bytesOf 2 st ++ bytesOf 4 done ++ bytesOf 2 epoch ++ bytesOf 6 time ++ bytesOf 4 (le b 24 4)

/-- The state with a descriptor of an instance done with. -/
def dropFetched (kind idx : Nat) (v : Vi) (d : Fetched) (s : State) : State :=
  s.setVi kind idx (some { v with fetched := v.fetched.filter (fun x => x.index != d.index) })

/-- A transfer with the old epoch ends while its instance is being reset: its completion is dropped and counted, and how
much of it was written is open (04 R129, R130). -/
def xferDropped (kind idx : Nat) (v : Vi) (d : Fetched) (s : State) : State :=
  let b := wordBytes d.entry
  let n := if xferOk v.owner b s then min s.drawNat.1 (le b 4 4) else 0
  let s1 := s.setVi kind idx (some { v with dropped := v.dropped + 1, fetched := v.fetched.map (fun x =>
    if x.index = d.index then { x with live := false, done := n } else x) })
  let r := s1.drawNat
  match d.work with
  | some w => r.2.writeMem (if kind = 0 then rxAddr d.entry else vepAddr d.entry) (w.data.take r.1)
  | none => if kind = 2 ∧ xferOk v.owner b s then xferMove b n r.2 else s1

/-- An access that the engines make for a descriptor meets the regions and watermarks in force then (15 R454, 16 R483,
R486). -/
def State.stillMay (s : State) (owner a n perm : Nat) : Bool := n == 0 || s.mayAccess owner a n perm

/-- A transfer of a VNIC ends: a frame is in its buffer, or enters P14; one that could not be read is admitted nowhere
(DEDUCED, log 39). -/
def vnicEnd (idx : Nat) (v : Vi) (d : Fetched) (bad : Bool) (s : State) : State :=
  let s1 := dropFetched 0 idx v d s
  match d.work with
  | some w =>
    if s.stillMay v.owner (rxAddr d.entry) w.data.length 1 then
      complete 0 idx (vnicDone 1 0 w.data.length d.epoch w.stamp (par d.entry 4).toNat) (s1.writeMem (rxAddr d.entry) w.data)
    else complete 0 idx (vnicDone 1 0x101 0 d.epoch 0 (par d.entry 4).toNat) (vaultLog v.owner (rxAddr d.entry) w.data.length s1)
  | none =>
    let b := wordBytes d.entry
    let k := s.txClass v b
    let s2 := { s1 with net := { s1.net with lastTx := put s1.net.lastTx k idx } }
    if !s.stillMay v.owner (le b 8 5) (le b 4 2) 0 then
      complete 0 idx (vnicDone 0 0x101 0 d.epoch 0 (par d.entry 4).toNat) (vaultLog v.owner (le b 8 5) (le b 4 2) s2)
    else if bad then complete 0 idx (vnicDone 0 0x300 0 d.epoch 0 (par d.entry 4).toNat) s2 else vnicTx idx v d s2

/-- A transfer of an endpoint ends: a frame is in its buffer, or enters the engine. -/
def vepEnd (idx : Nat) (v : Vi) (d : Fetched) (bad : Bool) (s : State) : State :=
  let s1 := dropFetched 1 idx v d s
  let b := wordBytes d.entry
  match d.work with
  | some w =>
    if s.stillMay v.owner (vepAddr d.entry) w.data.length 1 then
      complete 1 idx (vepDone w.head 0 d.epoch w.stamp (vepCookie d.entry)) (s1.writeMem (vepAddr d.entry) w.data)
    else complete 1 idx (vepDone w.head 0x101 d.epoch 0 (vepCookie d.entry)) (vaultLog v.owner (vepAddr d.entry) w.data.length s1)
  | none =>
    if !(hFmt b).testBit 3 && !s.stillMay v.owner (le b 16 5) (hLen b) 0 then
      complete 1 idx (vepDone (b.take 12) 0x101 d.epoch 0 (vepCookie d.entry)) (vaultLog v.owner (le b 16 5) (hLen b) s1)
    else vepTx idx d bad (s.setVi 1 idx (some { v with fetched := v.fetched.map (fun x =>
      if x.index = d.index then { x with live := false } else x) }))

/-- Where a plain copy meets its first uncorrectable word: as the row says, or in a word known to hold one (15 R471); a
fill reads no memory. -/
def State.xferBad (s : State) (b : List Byte) (badAt : Option Nat) : Option Nat :=
  let src := le b 8 5
  if le b 0 1 ≠ 0 then none
  else
    let at_ := badAt.toList ++ (s.cpu.uncorr.filter (fun w => decide (src < w + 8) && decide (w < src + le b 4 4))).map (· - src)
    at_.foldl (fun m n => some (match m with | some k => min k n | none => n)) none

/-- A plain transfer ends; badAt: the bytes before an uncorrectable read, which is counted, recorded and posted (15 R471,
R475). -/
def plainEnd (idx : Nat) (v : Vi) (d : Fetched) (badAt : Option Nat) (s : State) : State :=
  let b := wordBytes d.entry
  let s1 := dropFetched 2 idx v d s
  let len := le b 4 4
  let s2 := if !xferOk v.owner b s then complete 2 idx (xferDone b 0x101 0 d.epoch s.now)
      (vaultLog v.owner (le b 16 5) len (if le b 0 1 = 0 then vaultLog v.owner (le b 8 5) len s1 else s1))
    else match s.xferBad b badAt with
      | none => complete 2 idx (xferDone b 0 len d.epoch s.now) (xferMove b len s1)
      | some n => complete 2 idx (xferDone b 0xFFFF (min n len) d.epoch s.now)
          (badRead (le b 8 5 + min n len) (xferMove b (min n len) s1))
  if le b 1 1 % 2 = 1 then deliver v.owner 240 s2 else s2

/-- The descriptor with an index whose transfer is in flight. -/
def Vi.flying (v : Vi) (index : Nat) : Option Fetched := v.fetched.find? (fun d => d.index == index && d.live)

/-- A transfer of an instance ends; a slot is free again. -/
def xferEnd (kind idx index : Nat) (badAt : Option Nat) (s : State) : State :=
  match s.vi kind idx with
  | none => s
  | some v =>
    match v.flying index with
    | none => s
    | some d =>
      serveAll (if v.resetting then xferDropped kind idx v d s
        else match kind with
          | 0 => vnicEnd idx v d badAt.isSome s
          | 1 => vepEnd idx v d badAt.isSome s
          | _ => plainEnd idx v d badAt s)

/-- The oldest transmit entry of an instance in flight, and its oldest frame being written. -/
def Vi.txHead (v : Vi) (kind : Nat) : Option Fetched := v.fetched.find? (fun d => d.live && !d.posts kind)
def Vi.rxHead (v : Vi) (kind : Nat) : Option Fetched := v.fetched.find? (fun d => d.live && d.posts kind)

/-- The VNICs with a transmit entry in flight, with its traffic class. -/
def State.txWaiting (s : State) : List (Nat × Nat) :=
  (List.range 64).filterMap (fun i => (s.vi 0 i).bind (fun v =>
    if v.resetting then none else (v.txHead 0).map (fun d => (i, s.txClass v (wordBytes d.entry)))))

/-- The VNIC whose transmit entry P14 serves next: strict priority by class, round-robin within a class (10 R321). -/
def State.txNext (s : State) : Option Nat :=
  let l := s.txWaiting
  let k := (l.map (·.2)).foldl max 0
  (List.range 64).findSome? (fun i =>
    let v := (look 63 s.net.lastTx k + 1 + i) % 64
    if l.contains (v, k) then some v else none)

/-- The engines may end a transfer: those of one instance and direction in the order of its ring, plain transfers in ring
order (15 R475), P14's in the order of 10 R321. -/
def State.xferReady (s : State) (kind idx index : Nat) : Bool :=
  s.alive 1 && (s.vi kind idx).any (fun v => (v.flying index).any (fun d => v.resetting ||
    (if d.posts kind then (v.rxHead kind).any (·.index == index)
     else match kind with
      | 0 => s.running 2 && (v.txHead 0).any (·.index == index) && s.txNext == some idx
      | 1 => (v.txHead 1).any (·.index == index)
      | _ => (v.fetched.head?).any (·.index == index))))

/-- TRANSFER_COMPLETE (15 R475): the transfer of the descriptor with an index of an instance's ring. -/
def execTransferComplete (e : Stim) (d : RingRef) (badAt : Option Nat) (s : State) :
    Host.Outcome State Fault Refusal :=
  event e s (fun s => s.xferReady d.kind d.idx d.index) (xferEnd d.kind d.idx d.index badAt)

end Sys2Proof.Machine
end

