-- ==== Sys2Proof/Machine/Ten.lean ====
section
/-!
DEFINITION. Meanings of the TEN and QUE groups (04 R110 to R136, R628), and the ends of tenant and instance resets.
Log entry 38.
-/

namespace Sys2Proof.Machine

/-! ### Shares (R115 to R117) -/

/-- The target tenant of a TEN or QUE command. -/
def parTen (ps : List Word) : Nat := fld (par ps 0) 4 0

/-- The tenant that a command names exists (R628). -/
def tenThere (ps : List Word) (s : State) : Bool := s.exists (parTen ps)

/-- T0, or the tenant for itself. -/
def selfOrT0 (t : Nat) (ps : List Word) (_ : State) : Bool := t == 0 || parTen ps == t

/-- A share of a tenant, by POOL. -/
def Tenant.share (x : Tenant) (pool : Nat) : Nat :=
  match pool with
  | 0 => x.cmd | 1 => x.xfer | 2 => x.vnic | 3 => x.vcan | 4 => x.vols | 5 => x.swbuf | _ => x.purse

/-- The tenant with a share set. -/
def Tenant.setShare (x : Tenant) (pool v : Nat) : Tenant :=
  match pool with
  | 0 => { x with cmd := v } | 1 => { x with xfer := v } | 2 => { x with vnic := v } | 3 => { x with vcan := v }
  | 4 => { x with vols := v } | 5 => { x with swbuf := v } | _ => { x with purse := v }

/-- Sizes of the pools in the units of their fields (R115). -/
def poolSize (pool : Nat) : Nat :=
  match pool with
  | 0 => 256 | 1 => 96 | 2 => 64 | 3 => 96 | 5 => 128 | _ => 1800

/-- Largest value of a share field (R113). -/
def shareMax (pool : Nat) : Nat := if pool = 0 then 64 else if pool = 4 then 0x7FFF else poolSize pool

/-- CMD as it counts: 0 means 16 (R113). -/
def shareVal (pool v : Nat) : Nat := if pool = 0 ∧ v = 0 then 16 else v

/-- Tenants that exist, but one. -/
def State.others (s : State) (t : Nat) : List Tenant := ((List.range 32).filter (fun u => u != t && s.exists u)).map s.tenant

/-- The pool covers a share of a tenant beside those of the others (R116). -/
def State.covers (s : State) (t pool v : Nat) : Bool :=
  if pool = 4 then (s.others t).all (fun x => x.vols &&& v == 0)
  else decide (((s.others t).map (fun x => x.share pool)).sum + v ≤ poolSize pool)

/-! ### Queues and spill regions -/

/-- Pages of a spill region. -/
def spillPages (depth : Nat) : Nat := 2 ^ (depth - 6)

/-- Two spill regions overlap. -/
def spillMeets (a da b db : Nat) : Bool :=
  da != 0 && db != 0 && decide (a < b + spillPages db) && decide (b < a + spillPages da)

/-- A spill region ends within system SRAM, clear of the configured queues but one and of the Vault (R114 row 4,
16 R488). -/
def State.spillOk (s : State) (key depth page : Nat) : Bool :=
  depth == 0 || (decide (page + spillPages depth ≤ 4096) && decide ((s.wm 0).level * 16 ≤ page) &&
    s.que.all (fun p => p.1 == key || !spillMeets page depth p.2.spill p.2.depth))

/-- Depth fields: 6 to 12, or 0. -/
def depthOk (d : Nat) : Bool := d == 0 || (decide (6 ≤ d) && decide (d ≤ 12))

/-! ### TEN_CREATE and TEN_QUERY (R113, R114) -/

/-- DEPTHS field q of a descriptor, and its SPILL field. -/
def dDepth (b : List Byte) (q : Nat) : Nat := le b 8 3 / 16 ^ q % 16
def dSpill (b : List Byte) (q : Nat) : Nat := le b (12 + 2 * q) 2

/-- Row 2 of R114: ranges, reserved fields, REQID. -/
def dRanges (b : List Byte) (s : State) : Bool :=
  let f := fun i => le b i 1
  decide (f 0 < 32) && decide (f 1 ≤ 1) && decide (f 2 ≤ 1) && f 3 == 0 && decide (f 6 ≤ 1) && f 7 == 0 && f 11 == 0 &&
  (List.range 6).all (fun q => depthOk (dDepth b q) && decide (dSpill b q < 4096)) &&
  decide (f 24 ≤ 64) && decide (f 25 ≤ 96) && decide (f 26 ≤ 64) && decide (f 27 ≤ 96) && decide (le b 28 2 < 0x8000) &&
  decide (le b 30 2 ≤ 128) && decide (le b 32 2 ≤ 1800) && le b 34 2 == 0 && decide (le b 36 4 < 2 ^ 20) &&
  (le b 40 2 &&& 0xFFC8) == 0 && le b 42 6 == 0 &&
  (if f 1 = 1 then le b 4 2 == 0xFFFF
   else decide (0x100 ≤ le b 4 2) && decide (le b 4 2 < 0x108) && (s.boundTen (le b 4 2 - 0x100)).isNone)

/-- Row 3: depths by PROFILE. -/
def dDepths (b : List Byte) : Bool :=
  if le b 2 1 = 0 then (List.range 6).all (fun q => dDepth b q != 0)
  else (List.range 5).all (fun q => dDepth b q != 0) && dDepth b 5 == 0

/-- Row 4: spill regions. -/
def dSpills (b : List Byte) (s : State) : Bool :=
  (List.range 6).all (fun q => s.spillOk 1000 (dDepth b q) (dSpill b q) &&
    (List.range q).all (fun r => !spillMeets (dSpill b q) (dDepth b q) (dSpill b r) (dDepth b r)))

/-- Row 1: TENANT is 0 or not FREE. -/
def dTaken (b : List Byte) (s : State) : Bool := le b 0 1 == 0 || s.exists (le b 0 1)

/-- The tenant that a descriptor makes. -/
def dTenant (b : List Byte) : Tenant :=
  { st := .live, kind := le b 1 1, profile := le b 2 1, reqid := le b 4 2, faultPol := le b 6 1, cmd := shareVal 0 (le b 24 1)
    xfer := le b 25 1, vnic := le b 26 1, vcan := le b 27 1, vols := le b 28 2, swbuf := le b 30 2, purse := le b 32 2
    groups := le b 36 4 ||| 7, islen := le b 40 2, label := b.drop 48 }

/-- A TEN_CREATE descriptor's bytes. -/
def descBytes (ps : List Word) : List Byte := fit 64 (wordBytes ps)

/-- Rows 2 to 4. -/
def dOk (b : List Byte) (s : State) : Bool := dRanges b s && dDepths b && dSpills b s

/-- Rows 5 and 6. -/
def dShares (b : List Byte) (s : State) : Bool := (List.range 7).all (fun k => s.covers (le b 0 1) k ((dTenant b).share k))

/-- Creates the tenant and its queues. -/
def tenMake (b : List Byte) (s : State) : State :=
  let t := le b 0 1
  (List.range 6).foldl (fun s q => s.setQueue t q { depth := dDepth b q, spill := dSpill b q }) (s.setTenant t (dTenant b))

def tenCreateSpec : OpSpec :=
  { opcode := 0x0101, plen := (· == 16), right := onlyT0
    parm := fun _ ps s => need (dTaken (descBytes ps) s || dOk (descBytes ps) s)
    exec := fun c s =>
      let b := descBytes c.params
      if dTaken b s then .fail .busy s
      else if !dOk b s then .fail .badParam s
      else if !dShares b s then .fail .noShare s
      else .okay (tenMake b s) }

/-- TEN_CREATE (R114). -/
def execTenCreate (e : Stim) (r : Req) (s : State) : Host.Outcome State Fault Refusal :=
  .next (submit tenCreateSpec r (s.advance e))

/-- GROUPS and ISLEN as they hold: T0 has every right (R110). -/
def State.groupsOf (s : State) (t : Nat) : Nat := if t = 0 then 0xFFFFF else (s.tenant t).groups
def State.islenOf (s : State) (t : Nat) : Nat := if t = 0 then 0x37 else (s.tenant t).islen

/-- Tenant state in its encoding. -/
def TenState.code : TenState → Nat
  | .free => 0 | .live => 1 | .faulted => 2 | .resetting => 3 | .deleting => 4

/-- The descriptor of a tenant (R113). -/
def State.descOf (s : State) (t : Nat) : List Byte :=
  let x := s.tenant t
  if x.st = .free then fit 64 (bytesOf 1 t)
  else
    let depths := ((List.range 6).map (fun q => (s.queue t q).depth * 16 ^ q)).sum
    bytesOf 1 t ++ bytesOf 1 x.kind ++ bytesOf 1 x.profile ++ bytesOf 1 x.st.code ++ bytesOf 2 x.reqid ++
      bytesOf 1 x.faultPol ++ [0] ++ bytesOf 3 depths ++ [0] ++ (List.range 6).flatMap (fun q => bytesOf 2 (s.queue t q).spill) ++
      bytesOf 1 x.cmd ++ bytesOf 1 x.xfer ++ bytesOf 1 x.vnic ++ bytesOf 1 x.vcan ++ bytesOf 2 x.vols ++ bytesOf 2 x.swbuf ++
      bytesOf 2 x.purse ++ [0, 0] ++ bytesOf 4 (s.groupsOf t) ++ bytesOf 2 (s.islenOf t) ++ List.replicate 6 0 ++ fit 16 x.label

def tenQuerySpec : OpSpec :=
  { opcode := 0x0103, plen := (· == 1), right := selfOrT0
    parm := fun _ ps _ => need (within (par ps 0) 0x1F)
    exec := fun c s => .done .ok (wordsOf 16 (s.descOf (parTen c.params))) s }

/-- TEN_QUERY (R113, R628). -/
def execTenQuery (e : Stim) (r : Req) (s : State) : Host.Outcome State Fault Refusal :=
  .next (submit tenQuerySpec r (s.advance e))

/-! ### Shares and rights (R117 to R119) -/

/-- Instances of a kind that a tenant holds. -/
def State.visHeld (s : State) (t kind : Nat) : Nat := ((s.visOf t).filter (fun k => k / 256 == kind)).length

def tenShareSpec : OpSpec :=
  { opcode := 0x0104, plen := (· == 2), right := onlyT0
    parm := fun _ ps s =>
      let pool := fld (par ps 0) 11 8
      need (within (par ps 0) 0xF1F && tenThere ps s && decide (pool ≤ 6) && decide ((par ps 1).toNat ≤ shareMax pool))
    exec := fun c s =>
      let t := parTen c.params
      let pool := fld (par c.params 0) 11 8
      let v := shareVal pool (par c.params 1).toNat
      let old := (s.tenant t).share pool
      if !s.covers t pool v then .fail .noShare s
      else if (pool = 2 ∧ v < s.visHeld t 0) ∨ (pool = 3 ∧ v < s.visHeld t 1) then .fail .busy s
      else
        let s1 := s.setTenant t ((s.tenant t).setShare pool v)
        .done .ok [wd old] (if pool = 1 then serveTenant t s1 else s1) }

/-- TEN_SHARE (R117). -/
def execTenShare (e : Stim) (r : Req) (s : State) : Host.Outcome State Fault Refusal :=
  .next (submit tenShareSpec r (s.advance e))

def tenRightsSpec : OpSpec :=
  { opcode := 0x0105, plen := (· == 3), right := fun t ps _ => t == 0 && parTen ps != 0
    parm := fun _ ps s => need (within (par ps 0) 0x1F && within (par ps 1) 0xFFFFF && within (par ps 2) 0x37 && tenThere ps s)
    exec := fun c s =>
      let t := parTen c.params
      .okay (s.setTenant t { s.tenant t with groups := (par c.params 1).toNat ||| 7, islen := (par c.params 2).toNat }) }

/-- TEN_RIGHTS (R118, R119, R628). -/
def execTenRights (e : Stim) (r : Req) (s : State) : Host.Outcome State Fault Refusal :=
  .next (submit tenRightsSpec r (s.advance e))

def tenIslandEnableSpec : OpSpec :=
  { opcode := 0x0120, plen := (· == 1)
    right := fun t ps s => decide (fld (par ps 0) 7 0 < 9) && (s.islenOf t).testBit (fld (par ps 0) 7 0)
    parm := fun _ ps _ => need (within (par ps 0) 0xFF)
    exec := fun c s => islEnable (fld (par c.params 0) 7 0) c s }

/-- TEN_ISLAND_ENABLE (R119). -/
def execTenIslandEnable (e : Stim) (r : Req) (s : State) : Host.Outcome State Fault Refusal :=
  .next (submit tenIslandEnableSpec r (s.advance e))

/-! ### Reset, deletion, resumption (R121 to R126) -/

def tenResetSpec : OpSpec :=
  { opcode := 0x0106, plen := (· == 1), right := selfOrT0
    parm := fun _ ps s => need (within (par ps 0) 0x1F && tenThere ps s)
    exec := fun c s0 =>
      let t := parTen c.params
      let s := checkAll t s0
      let x := s.tenant t
      match x.st with
      | .deleting => .fail .busy s
      | .resetting => .accept (s.setTenant t { x with resetCmds := x.resetCmds ++ [c.id] })
      | _ => .ongoing (tenResetBegin t .resetting [c.id] (interim c.id .accepted s)) }

/-- TEN_RESET (R123, R124). -/
def execTenReset (e : Stim) (r : Req) (s : State) : Host.Outcome State Fault Refusal :=
  .next (submit tenResetSpec r (s.advance e))

/-- A tenant owns a load channel. -/
def State.ownsChan (s : State) (t : Nat) : Bool := s.chan.any (fun p => p.2.owner == t)

def tenDeleteSpec : OpSpec :=
  { opcode := 0x0102, plen := (· == 1), right := fun t ps _ => t == 0 && parTen ps != 0
    parm := fun _ ps s => need (within (par ps 0) 0x1F && tenThere ps s)
    exec := fun c s0 =>
      let t := parTen c.params
      let s := checkAll t s0
      let x := s.tenant t
      if s.ownsChan t ∨ s.visOf t ≠ [] ∨ x.st = .resetting ∨ x.st = .deleting then .fail .busy s
      else .ongoing (tenResetBegin t .deleting [c.id] (interim c.id .accepted s)) }

/-- TEN_DELETE (R125). -/
def execTenDelete (e : Stim) (r : Req) (s : State) : Host.Outcome State Fault Refusal :=
  .next (submit tenDeleteSpec r (s.advance e))

def tenResumeSpec : OpSpec :=
  { opcode := 0x0108, plen := (· == 1), right := onlyT0
    parm := fun _ ps s => need (within (par ps 0) 0x1F && tenThere ps s)
    exec := fun c s =>
      let t := parTen c.params
      let x := s.tenant t
      if x.st = .faulted then .okay (s.setTenant t { x with st := .live }) else .fail .busy s }

/-- TEN_RESUME (R121). -/
def execTenResume (e : Stim) (r : Req) (s : State) : Host.Outcome State Fault Refusal :=
  .next (submit tenResumeSpec r (s.advance e))

/-- A reader mask without a tenant. -/
def maskOff (t : Nat) (m : Word) : Word := m &&& ~~~(wd (2 ^ t))

/-- An owner that is deleted is T0 from then on. -/
def ownerOff (t o : Nat) : Nat := if o = t then 0 else o

/-- What the deletion of a tenant releases (R126): fields and buses; a load channel assigned to it while it was DELETING
becomes T0's (DEDUCED, log 38). -/
def releaseIo (t : Nat) (s : State) : State :=
  let fi := s.fio.fi.map (fun p => (p.1, { p.2 with owner := ownerOff t p.2.owner, readers := maskOff t p.2.readers }))
  let fo := s.fio.fo.map (fun p => (p.1, { p.2 with owner := ownerOff t p.2.owner, readers := maskOff t p.2.readers }))
  let ai := s.fio.ai.map (fun p => (p.1, { p.2 with owner := ownerOff t p.2.owner, readers := maskOff t p.2.readers }))
  let can := s.bus.can.map (fun p => (p.1, { p.2 with owner := ownerOff t p.2.owner, readers := maskOff t p.2.readers }))
  let lin := s.bus.lin.map (fun p => (p.1, { p.2 with owner := ownerOff t p.2.owner, readers := maskOff t p.2.readers }))
  let chan := s.chan.map (fun p => (p.1, { p.2 with owner := ownerOff t p.2.owner, readers := maskOff t p.2.readers }))
  { s with fio := { s.fio with fi := fi, fo := fo, ai := ai }, bus := { s.bus with can := can, lin := lin }, chan := chan }

/-- Sequences, triggers, stamp queues, keys and requests. -/
def releaseRest (t : Nat) (s : State) : State :=
  let seq := s.mea.seq.map (fun p => if p.2.owner = t then (p.1, { p.2 with armed := false, waiting := false, owner := 0 }) else p)
  let trig := s.tim.trig.map (fun p => if p.2.owner = t then (p.1, { p.2 with armed := false, due := false, owner := 0 }) else p)
  let txq := s.tim.txq.map (fun p => if p.2.reader = t then (p.1, { p.2 with reader := 0, entries := [] }) else p)
  let keys := s.vlt.keys.map (fun p => (p.1, p.2.filter (fun k => k.owner != t)))
  let s1 := { s with mea := { s.mea with seq := seq }, tim := { s.tim with trig := trig, txq := txq }, vlt := { s.vlt with keys := keys } }
  nmgSettle true { s1 with nmg := { s1.nmg with req := put s1.nmg.req t (0, 0) } }

/-- MAC address of a VNIC's kind words. -/
def viMac (kw : List Word) : Nat := (par kw 0).toNat + fld (par kw 1) 15 0 * 2 ^ 32

/-- An instance is gone, and with it the static entry of a VNIC. -/
def viGone (kind idx : Nat) (s : State) : State :=
  match s.vi kind idx with
  | none => s
  | some v =>
    let s1 := s.setVi kind idx none
    if kind = 0 then fdbDrop (viMac v.kindWords) (fld (par v.kindWords 1) 27 16) s1 else s1

/-- A deletion ends (R125, R126). Groups, transfers and instances that came about while the tenant was DELETING go with
it. -/
def tenGone (t : Nat) (s : State) : State :=
  let cmds := (s.tenant t).resetCmds
  let s0 := (s.visOf t).foldl (fun s k => viGone (k / 256) (k % 256) s) (dropGroups t (dropXfers t s))
  let s1 := releaseRest t (releaseIo t s0)
  let s2 := (List.range 6).foldl (fun s q => s.setQueue t q {}) s1
  let s3 := { s2.setTenant t {} with inflight := s2.inflight.filter (fun c => c.tenant != t) }
  finishAll cmds .ok s3

/-- A reset ends (R123 step 6). -/
def tenLive (t : Nat) (s : State) : State :=
  let x := s.tenant t
  let s1 := finishAll x.resetCmds .ok (s.setTenant t { x with st := .live, resetCmds := [] })
  notice t 0x0102 [wd t, wd (x.flushedN + x.resetN * 2 ^ 16)] s1

/-- Steps 4 and 5 of R123 are complete. -/
def State.tenIdle (s : State) (t : Nat) : Bool :=
  s.inflight.all (fun c => c.tenant != t || c.phase == .held || (s.tenant t).resetCmds.contains c.id) &&
  (s.visOf t).all (fun k => (look none s.vis k).all (fun v => !v.resetting))

/-- TEN_RESET_DONE (R123 step 6, R125). -/
def execTenResetDone (e : Stim) (t : Nat) (s : State) : Host.Outcome State Fault Refusal :=
  event e s (fun s => ((s.tenant t).st == .resetting || (s.tenant t).st == .deleting) && s.tenIdle t)
    (fun s => if (s.tenant t).st = .deleting then tenGone t s else tenLive t s)

/-! ### Remote association (R132) -/

/-- The association that TEN_BIND installs. -/
def bindOf (ps : List Word) : Assoc :=
  let cmac := bit (par ps 0) 16
  { port := fld (par ps 0) 11 8, mac := parMac ps, cmac := cmac, rxsc := if cmac then 0 else fld (par ps 3) 15 0
    keyIn := if cmac then wordBytes ((ps.drop 3).take 8) else []
    keyOut := if cmac then wordBytes ((ps.drop 11).take 8) else [] }

def tenBindSpec : OpSpec :=
  { opcode := 0x0107, plen := fun n => n == 4 || n == 19, right := onlyT0
    plenP := fun ps => ps.length == (if bit (par ps 0) 16 then 19 else 4)
    parm := fun _ ps s => need (within (par ps 0) 0x10F1F && decide (fld (par ps 0) 11 8 < 14) && within (par ps 2) 0xFFFF &&
      (bit (par ps 0) 16 || within (par ps 3) 0x3F) && tenThere ps s && (s.tenant (parTen ps)).kind == 1)
    exec := fun c s =>
      let t := parTen c.params
      let outs := (((s.tenant t).assoc.map (·.outs)).getD []).filter (fun o => !o.acked)
      let s1 := outs.foldl (fun s o => abandonOut t o s) s
      .okay (s1.setAssoc t (bindOf c.params)) }

/-- TEN_BIND (R132). -/
def execTenBind (e : Stim) (r : Req) (s : State) : Host.Outcome State Fault Refusal :=
  .next (submit tenBindSpec r (s.advance e))

/-! ### Virtual instances (R127 to R131) -/

def viKind (ps : List Word) : Nat := fld (par ps 0) 9 8
def viIdx (ps : List Word) : Nat := fld (par ps 0) 22 16

/-- The instance that a command names. -/
def State.viOf (s : State) (ps : List Word) : Option Vi := s.vi (viKind ps) (viIdx ps)

/-- INDEX by KIND (R127). -/
def viIndexOk (ps : List Word) : Bool :=
  match viKind ps with
  | 0 => decide (viIdx ps < 64)
  | 1 => decide (viIdx ps < 96)
  | 2 => viIdx ps == parTen ps
  | _ => false

/-- A ring: pages of system SRAM above the watermark, 16 to 4096 entries of 32 bytes (R133, 16 R488). -/
def State.viRingOk (s : State) (w : Word) : Bool :=
  let l := fld w 19 16
  within w 0xF0FFF && decide (4 ≤ l) && decide (l ≤ 12) && decide ((s.wm 0).level * 16 ≤ fld w 11 0) &&
    decide (fld w 11 0 + (2 ^ l * 32 + 4095) / 4096 ≤ 4096)

/-- The kind words (R317, 13 R410, 15 R474). -/
def State.viWordsOk (s : State) (ps : List Word) : Bool :=
  let page := fun (w : Word) => decide ((s.wm 0).level * 16 ≤ fld w 11 0)
  if viKind ps = 0 then
    !bit (par ps 4) 31 && vidOk (fld (par ps 4) 27 16) && within (par ps 5) 0xFFFF0FFF && page (par ps 5) &&
      decide (64 ≤ fld (par ps 5) 31 16) && decide (fld (par ps 5) 31 16 ≤ 9216)
  else within (par ps 3) 0xFFF && page (par ps 3)

/-- Writes a control block afresh: pointers 0 and the epoch. -/
def freshCtl (kind : Nat) (v : Vi) (s : State) : State :=
  s.writeMem (pageAddr (v.ctlPage kind)) (List.replicate 8 0 ++ bytesOf 2 v.epoch ++ List.replicate 6 0)

/-- The share of the owner named leaves an instance of the kind (R115). -/
def State.viShare (s : State) (ps : List Word) : Bool :=
  (viKind ps != 0 || decide (s.visHeld (parTen ps) 0 < (s.tenant (parTen ps)).vnic)) &&
  (viKind ps != 1 || decide (s.visHeld (parTen ps) 1 < (s.tenant (parTen ps)).vcan))

def tenViCreateSpec : OpSpec :=
  { opcode := 0x0110, plen := fun n => n == 4 || n == 6, right := onlyT0
    plenP := fun ps => ps.length == (if viKind ps = 0 then 6 else 4)
    share := fun _ ps s => !tenThere ps s || s.viShare ps
    parm := fun _ ps s => need (within (par ps 0) 0x7F031F && tenThere ps s && viIndexOk ps && s.viRingOk (par ps 1) &&
      s.viRingOk (par ps 2) && s.viWordsOk ps)
    exec := fun c s =>
      let ps := c.params
      let t := parTen ps
      let kw := ps.drop 3
      let v : Vi := { owner := t, sqBase := fld (par ps 1) 11 0, sqLog := fld (par ps 1) 19 16, cqBase := fld (par ps 2) 11 0
                      cqLog := fld (par ps 2) 19 16, kindWords := kw }
      let s1 := freshCtl (viKind ps) v (s.setVi (viKind ps) (viIdx ps) (some v))
      if !s.viShare ps then .fail .noShare s
      else if (s.viOf ps).isSome then .fail .busy s
      else if viKind ps ≠ 0 then .done .ok [1] s1
      else
        let mac := viMac kw
        let vid := fld (par kw 1) 27 16
        if s.net.fdb.any (fun x => x.static && (x.mac == mac || x.vid == vid)) then .fail .busy s
        else match fdbPut { mac := mac, vid := vid, static := true, port := 14, vnic := viIdx ps, at_ := s.clk, vi := true } s1 with
          | some s2 => .done .ok [1] s2
          | none => .fail .busy s }

/-- TEN_VI_CREATE (R127, R133). -/
def execTenViCreate (e : Stim) (r : Req) (s : State) : Host.Outcome State Fault Refusal :=
  .next (submit tenViCreateSpec r (s.advance e))

/-- A command names an instance that exists. The owner is named through the instance, so bits 4:0 of word 0 are reserved
(DEDUCED, log 38: R133 says both). -/
def viNamed (ps : List Word) (s : State) : Bool := within (par ps 0) 0x7F0300 && (s.viOf ps).isSome

/-- T0, or the owner of the instance. -/
def viRight (t : Nat) (ps : List Word) (s : State) : Bool := t == 0 || (s.viOf ps).any (fun v => v.owner == t)

/-- An instance's reset begins, its interim reply first. -/
def viResetCmd (del : Bool) (c : Cmd) (s : State) : State :=
  let k := viKind c.params
  let i := viIdx c.params
  let s1 := viResetBegin (k * 256 + i) (some c.id) (interim c.id .accepted s)
  match s1.vi k i with
  | some v => s1.setVi k i (some { v with deleting := v.deleting || del })
  | none => s1

def tenViDeleteSpec : OpSpec :=
  { opcode := 0x0111, plen := (· == 1), right := onlyT0
    parm := fun _ ps s => need (viNamed ps s)
    exec := fun c s => if (s.viOf c.params).isNone then .fail .badParam s else .ongoing (viResetCmd true c s) }

/-- TEN_VI_DELETE (R133). -/
def execTenViDelete (e : Stim) (r : Req) (s : State) : Host.Outcome State Fault Refusal :=
  .next (submit tenViDeleteSpec r (s.advance e))

def tenViResetSpec : OpSpec :=
  { opcode := 0x0112, plen := (· == 1), right := viRight
    parm := fun _ ps s => need (viNamed ps s)
    exec := fun c s => if (s.viOf c.params).isNone then .fail .badParam s else .ongoing (viResetCmd false c s) }

/-- TEN_VI_RESET (R129, R131). -/
def execTenViReset (e : Stim) (r : Req) (s : State) : Host.Outcome State Fault Refusal :=
  .next (submit tenViResetSpec r (s.advance e))

def tenViQuerySpec : OpSpec :=
  { opcode := 0x0113, plen := (· == 1), right := viRight
    parm := fun _ ps s => need (viNamed ps s)
    exec := fun c s =>
      match s.viOf c.params with
      | none => .fail .badParam s
      | some v =>
        let st := if v.off then 0 else if v.resetting then 4 else 3
        .done .ok [wd (v.owner + st * 2 ^ 8 + v.epoch * 2 ^ 16), wd v.fetched.length] s }

/-- TEN_VI_QUERY (R133). -/
def execTenViQuery (e : Stim) (r : Req) (s : State) : Host.Outcome State Fault Refusal :=
  .next (submit tenViQuerySpec r (s.advance e))

/-- The TENANT_RESET entry of a descriptor that was fetched and not completed (R129 step 5). -/
def viResetEntry (kind : Nat) (d : Fetched) (now : Nat) : List Byte :=
  let b := wordBytes d.entry
  match kind with
  | 0 => vnicDone (le b 0 1) 0x402 0 d.epoch 0 (le b 16 4)
  | 1 => vepDone (b.take 12) 0x402 d.epoch 0 (vepCookie d.entry)
  | _ => bytesOf 2 (le b 0 1) ++ bytesOf 2 0x402 ++ bytesOf 4 d.done ++ bytesOf 2 d.epoch ++ bytesOf 6 now ++ bytesOf 4 (le b 24 4)

/-- The end of an instance's reset (R129 steps 5 and 6), and its deletion; each completion of an entry with IRQ = 1
delivers identity 240 (15 R474). -/
def viResetEnd (kind idx : Nat) (s : State) : State :=
  match s.vi kind idx with
  | none => s
  | some v =>
    let s1 := v.fetched.foldl (fun s d =>
      let s2 := complete kind idx (viResetEntry kind d s.now) s
      if kind = 2 ∧ le (wordBytes d.entry) 1 1 % 2 = 1 then deliver v.owner 240 s2 else s2) s
    let v1 := { v with off := false, resetting := false, sqp := 0, sqc := 0, cqp := 0, cqc := 0, fetched := [], resetCmds := [] }
    let s2 := freshCtl kind v1 s1
    let s3 := if v.deleting then viGone kind idx s2 else s2.setVi kind idx (some v1)
    let res := [wd v.epoch, wd (min v.dropped 0xFFFF + min v.removed 0xFFFF * 2 ^ 16), wd (min v.notRecalled 0xFFFF)]
    let s4 := v.resetCmds.foldl (fun s id =>
      match s.cmd? id with
      | some c => finishCmd id .ok (if c.opcode = 0x0112 then res else []) s
      | none => s) s3
    notice v.owner 0x0103 [wd (kind * 2 ^ 8 + idx * 2 ^ 16), wd v.epoch] s4

/-- VI_RESET_COMPLETE (R129): no work with the old epoch remains. -/
def execViResetComplete (e : Stim) (kind idx : Nat) (s : State) : Host.Outcome State Fault Refusal :=
  event e s (fun s => (s.vi kind idx).any (fun v => v.resetting && v.fetched.all (fun d => !d.live)))
    (viResetEnd kind idx)

/-! ### QUE (R134, R135) -/

def parQ (ps : List Word) : Nat := fld (par ps 0) 10 8

/-- The queue that a QUE command names exists as a number, of a tenant that exists. -/
def queNamed (mask : Word) (ps : List Word) (s : State) : Bool := within (par ps 0) mask && decide (parQ ps < 6) && tenThere ps s

def queConfigSpec : OpSpec :=
  { opcode := 0x0201, plen := (· == 2), right := onlyT0
    parm := fun _ ps s =>
      let t := parTen ps
      let q := parQ ps
      let d := fld (par ps 0) 19 16
      need (queNamed 0xF071F ps s && within (par ps 1) 0xFFF && depthOk d && s.spillOk (qkey t q) d (fld (par ps 1) 11 0) &&
        !(d == 0 && decide (q < 5) && (s.tenant t).st == .live) && !(d != 0 && q == 5 && (s.tenant t).profile == 1))
    exec := fun c s =>
      let t := parTen c.params
      let q := parQ c.params
      let x := s.queue t q
      if x.occ ≠ 0 ∨ x.held ≠ [] then .fail .busy s
      else .okay (s.setQueue t q { depth := fld (par c.params 0) 19 16, spill := fld (par c.params 1) 11 0, gen := x.gen
                                   win := x.win, chain := x.chain }) }

/-- QUE_CONFIG (R135). -/
def execQueConfig (e : Stim) (r : Req) (s : State) : Host.Outcome State Fault Refusal :=
  .next (submit queConfigSpec r (s.advance e))

def queFlushSpec : OpSpec :=
  { opcode := 0x0202, plen := (· == 1), right := selfOrT0
    parm := fun _ ps s => need (queNamed 0x71F ps s)
    exec := fun c s =>
      let t := parTen c.params
      let q := parQ c.params
      if (s.queue t q).depth = 0 then .fail .busy s else .okay (flushQueue t q (checkPtrs t q s)) }

/-- QUE_FLUSH (R96, R134). -/
def execQueFlush (e : Stim) (r : Req) (s : State) : Host.Outcome State Fault Refusal :=
  .next (submit queFlushSpec r (s.advance e))

def queStatusSpec : OpSpec :=
  { opcode := 0x0203, plen := (· == 1), right := selfOrT0
    parm := fun _ ps s => need (queNamed 0x71F ps s)
    exec := fun c s => .done .ok ((s.queue (parTen c.params) (parQ c.params)).regs (parQ c.params)) s }

/-- QUE_STATUS (R134, R628). -/
def execQueStatus (e : Stim) (r : Req) (s : State) : Host.Outcome State Fault Refusal :=
  .next (submit queStatusSpec r (s.advance e))

def queLevelSpec : OpSpec :=
  { opcode := 0x0204, plen := (· == 2), right := selfOrT0
    parm := fun _ ps s => need (queNamed 0x71F ps s && within (par ps 1) 0x80001FFF)
    exec := fun c s =>
      let t := parTen c.params
      let q := parQ c.params
      if (s.queue t q).depth = 0 then .fail .busy s else .okay (setLevel t q (par c.params 1) s) }

/-- QUE_LEVEL (R134). -/
def execQueLevel (e : Stim) (r : Req) (s : State) : Host.Outcome State Fault Refusal :=
  .next (submit queLevelSpec r (s.advance e))

def queClearSpec : OpSpec :=
  { opcode := 0x0205, plen := (· == 2), right := selfOrT0
    parm := fun _ ps s => need (queNamed 0x71F ps s && within (par ps 1) 0x70000000)
    exec := fun c s =>
      let t := parTen c.params
      let q := parQ c.params
      if (s.queue t q).depth = 0 then .fail .busy s else .okay (clearStatus t q (par c.params 1) s) }

/-- QUE_CLEAR (R134). -/
def execQueClear (e : Stim) (r : Req) (s : State) : Host.Outcome State Fault Refusal :=
  .next (submit queClearSpec r (s.advance e))

end Sys2Proof.Machine
end

