-- ==== Sys2Proof/Machine/OpTable.lean ====
section
/-!
DEFINITION. The opcodes of the twenty groups (02 R49, R54 check 5), each with its checks and its execution.
-/

namespace Sys2Proof.Machine

def opsSys : List OpSpec :=
  [sysEchoSpec, sysCancelSpec, sysIdentitySpec, sysLimitsSpec, sysIslandCtlSpec, sysIslandStatusSpec]

def opsTen : List OpSpec :=
  [tenCreateSpec, tenDeleteSpec, tenQuerySpec, tenShareSpec, tenRightsSpec, tenResetSpec, tenBindSpec,
   tenResumeSpec, tenViCreateSpec, tenViDeleteSpec, tenViResetSpec, tenViQuerySpec, tenIslandEnableSpec]

def opsQue : List OpSpec :=
  [queConfigSpec, queFlushSpec, queStatusSpec, queLevelSpec, queClearSpec]

def opsPwr : List OpSpec :=
  [pwrConfigSpec, pwrReadConfigSpec, pwrAssignSpec, pwrSwitchSpec, pwrDutySpec, pwrClearSpec, pwrStatusSpec]

def opsPur : List OpSpec :=
  [purWireSpec, purReadWireSpec, purStatusSpec, purChannelSpec, purLimitsSpec]

def opsLmp : List OpSpec :=
  [lmpPolicySpec, lmpReclaimSpec, lmpStatusSpec, lmpReadPolicySpec, lmpEnterSpec]

def opsFio : List OpSpec :=
  [fioInConfigSpec, fioReadConfigSpec, fioAssignSpec, fioOutConfigSpec, fioInStateSpec, fioEdgesSpec,
   fioOutSpec, fioOutClearSpec, fioOutStatusSpec]

def opsMea : List OpSpec :=
  [meaAiConfigSpec, meaSeqAssignSpec, meaSeqConfigSpec, meaRunSpec, meaResultsSpec, meaConvertSpec]

def opsTim : List OpSpec :=
  [timNowSpec, timStatusSpec, timDomainSpec, timSetSpec, timPortlatSpec, timPpsSpec, timPpsinSpec,
   timTrigAssignSpec, timTrigConfigSpec, timTrigArmSpec, timTrigStatusSpec, timTxqAssignSpec, timTxstampsSpec,
   timAlarmSpec, timCanrefSpec]

def opsNet : List OpSpec :=
  [netPortConfigSpec, netPortCtlSpec, netQueueConfigSpec, netVlanSpec, netEtypeSpec, netFdbAddSpec,
   netFdbDelSpec, netFdbFlushSpec, netFdbLookupSpec, netFdbAgeSpec, netPortStatusSpec, netCountersSpec,
   netBufferSpec]

def opsTsn : List OpSpec :=
  [tsnCsOpenSpec, tsnCsCommitSpec, tsnCsAbortSpec, tsnStreamSpec, tsnStreamReadSpec, tsnStreamStatusSpec,
   tsnStreamClearSpec, tsnGclSpec, tsnCbsSpec, tsnPortStatusSpec, tsnMacsecPortSpec, tsnSaSpec, tsnRxscSpec,
   tsnTxsaSelectSpec, tsnMacsecStatusSpec]

def opsBus1 : List OpSpec :=
  [busAssignSpec, busCtlSpec, busCanConfigSpec, busCanFilterSpec, busCanStatusSpec, busCanTxSpec, busCanRxSpec,
   busCanTxeSpec, busLinConfigSpec, busLinFramesSpec, busLinScheduleSpec, busLinRunSpec, busLinDataSpec,
   busLinReadSpec, busLinStatusSpec, busLinSleepSpec]

def opsBus2 : List OpSpec :=
  [busLinWakeSpec]

def opsGwy : List OpSpec :=
  [gwyRouteSpec, gwyRouteReadSpec, gwyAcfSpec, gwyAcfStatusSpec, gwyQueueSpec, gwyStatusSpec]

def opsNmg : List OpSpec :=
  [nmgRingConfigSpec, nmgClusterSpec, nmgRequestSpec, nmgStatusSpec, nmgWakeConfigSpec, nmgWakeCauseSpec]

def opsCpu : List OpSpec :=
  [cpuPartConfigSpec, cpuPartCtlSpec, cpuPartStatusSpec, cpuPairStatusSpec, cpuDebugSpec, cpuResyncSpec,
   cpuInjectSpec, cpuMemStatusSpec]

def opsVlt1 : List OpSpec :=
  [vltStatusSpec, vltConfigSpec, vltMboxAssignSpec, vltRestartSpec, vltMeasureSpec, vltRandomSpec, vltHashSpec,
   vltMacSpec, vltCipherSpec, vltAeadSpec, vltSignSpec, vltVerifySpec, vltKexSpec, vltKeyGenSpec,
   vltKeyImportSpec, vltKeyPublicSpec]

def opsVlt2 : List OpSpec :=
  [vltKeyDeleteSpec, vltKeyInfoSpec, vltCertSpec, vltLcNonceSpec, vltLcAdvanceSpec]

def opsSto : List OpSpec :=
  [stoFormatSpec, stoVolConfigSpec, stoStatusSpec, stoReadSpec, stoWriteSpec, stoTrimSpec, stoGroupOpenSpec,
   stoGroupCommitSpec, stoGroupAbortSpec, stoEscrowConfigSpec, stoEscrowStatusSpec, stoEscrowMeasureSpec,
   stoPatrolSpec]

def opsLog : List OpSpec :=
  [logStatusSpec, logReadSpec, logCheckpointSpec, logWriteSpec]

def opsImg : List OpSpec :=
  [imgOfferSpec, imgDataSpec, imgCloseSpec, imgConfirmSpec, imgActivateSpec, imgRevertSpec, imgStatusSpec,
   imgPeerSpec, imgAbortSpec, imgConfigSpec]

def opsTst : List OpSpec :=
  [tstAuditRunSpec, tstSummarySpec, tstDetailSpec, tstFaultStatusSpec, tstFaultClearSpec, tstFaultMaskSpec]

/-- Every opcode. -/
def opTable : List OpSpec :=
  opsSys ++ opsTen ++ opsQue ++ opsPwr ++ opsPur ++ opsLmp ++ opsFio ++ opsMea ++ opsTim ++ opsNet ++ opsTsn ++
  opsBus1 ++ opsBus2 ++ opsGwy ++ opsNmg ++ opsCpu ++ opsVlt1 ++ opsVlt2 ++ opsSto ++ opsLog ++ opsImg ++ opsTst

/-- The meaning of an opcode. -/
def opFind (opcode : Nat) : Option OpSpec := opTable.find? (fun o => o.opcode == opcode)

end Sys2Proof.Machine
end

