-- ==== Sys2Proof/Machine/IslandEv.lean ====
section
/-!
DEFINITION. Clock losses, quiescence, forced shut-downs and starts of islands and of the functions in them (01 R20 to
R31). Log entry 36.
-/

namespace Sys2Proof.Machine

/-! ### Commands at an island (R21, R22) -/

/-- The commands that are executing in an island, by id. -/
def State.inIsland (s : State) (n : Nat) : List Nat :=
  (s.inflight.filter (fun c => (c.phase == .running || c.phase == .accepted || c.phase == .deferred) &&
    ((opFind c.opcode).bind (·.isl)) == some n)).map (·.id)

/-- The engines and wires that the reset of an instance waits for lie in an island: those of every ring in FBX, a VNIC's
frames in SWX, an endpoint's in BSX. -/
def viHome (key n : Nat) : Bool := n == 1 || (n == 2 && key / 256 == 0) || (n == 5 && key / 256 == 1)

/-- R21 for instances: TEN_VI_RESET and TEN_VI_DELETE that wait on an island's engines end with INTERNAL; the reset goes
on, and the instance is not deleted (DEDUCED, log 36). -/
def viAbort (n : Nat) (s : State) : State :=
  s.vis.foldl (fun s p =>
    match look none s.vis p.1 with
    | none => s
    | some v =>
      if v.resetting && viHome p.1 n then
        finishAll v.resetCmds .internal { s with vis := put s.vis p.1 (some { v with resetCmds := [], deleting := false }) }
      else s) s

/-- R21: every request outstanding into an island ends with INTERNAL. A request still held at the crossing is none: it
stays held and runs at the next RUN (DEDUCED, log 36). -/
def islAbort (n : Nat) (s : State) : State :=
  viAbort n ((s.inIsland n).foldl (fun s id => endCmd id .internal (forget id s)) s)

/-- A command held at the crossing begins, after the firings due on its target (09 R283). -/
def resumeOne (c : Cmd) (s0 : State) : State :=
  let s := trigsFirst c.opcode c.params s0.tim.full s0
  match opFind c.opcode, s.cmd? c.id with
  | some o, some c1 => begin o c1 s
  | _, _ => s

/-- Commands held at the crossing into an island go on, in their order (R22). -/
def resume (n : Nat) (s : State) : State :=
  (s.inflight.filter (fun c => c.phase == .crossing && ((opFind c.opcode).bind (·.isl)) == some n)).foldl
    (fun s c => resumeOne c s) s

/-! ### Quiescence (R22 to R25) -/

/-- No start or shut-down that was asked for is under way in any of these functions. -/
def State.startsDone (s : State) (fs : List Func) : Bool :=
  fs.all (fun f => (s.gate f).enCmds.isEmpty && (s.gate f).disCmds.isEmpty)

/-- A function has run its accepted work to its end. For SWX and its ports that is the frames in transmission: frames
queued in the buffer and a committed change set are state, not requests in flight (DEDUCED, log 36). -/
def State.drained (s : State) : Func → Bool
  | .island 0 => s.calls.isEmpty && s.startsDone [.part 0, .part 1, .part 2, .part 3, .part 4, .part 5, .part 6, .part 7]
  | .island 1 => s.vis.all (fun p => p.2.all (fun v => v.fetched.all (fun d => !d.live)))
  | .island 2 => (List.range 16).all (fun p => (s.sp p).sending.isNone) && s.startsDone ((List.range 16).map Func.port)
  | .island 3 => s.gwy.items.isEmpty
  | .island 4 => s.sto.jobs.isEmpty && s.sto.waiting.all (fun w => w.job.cmd.isNone) && s.sto.format.isNone && !s.sto.measuring
  | .island 5 =>
    (List.range 12).all (fun n => (s.canc n).sending.isNone) && (List.range 8).all (fun n => (s.lin n).header.isNone) &&
      s.gwy.items.isEmpty && s.mea.converts.isEmpty && s.mea.seq.all (fun p => !p.2.running) && s.fio.fo.all (fun p => p.2.pend.isNone) &&
      s.startsDone ((List.range 12).map Func.can ++ (List.range 8).map Func.lin)
  | .port p => (s.sp p).sending.isNone
  | .can n => (s.canc n).sending.isNone
  | .lin n => (s.lin n).header.isNone
  | .vi k i => (s.vi k i).all (fun v => v.fetched.all (fun d => !d.live))
  | _ => true

/-- Shut-down bounds in ns (R24, 04 R128, 10 R295, 12 R368, 15 R450). -/
def quietBound : Func → Nat
  | .island n => if n = 4 then 2000000 else 200000
  | .port p => if p = 12 ∨ p = 13 then 20000000 else if 6 ≤ p ∧ p < 12 then 1000000 else 200000
  | .can _ => 15000000
  | .lin _ => 80000000
  | .part _ => 100000
  | .vi _ _ => 50000

/-- The transfers of an instance that is being reset are cut: their completions are dropped and counted (R25, 04 R129). -/
def viCut (kind idx : Nat) (s : State) : State :=
  match s.vi kind idx with
  | none => s
  | some v =>
    let n := (v.fetched.filter (·.live)).length
    s.setVi kind idx (some { v with dropped := v.dropped + n, fetched := v.fetched.map (fun x => { x with live := false }) })

/-- The gate of a shut-down is applied, with what the function does at its gate. -/
def gateOf (f : Func) (s : State) : State :=
  match f with
  | .island n => if (s.gate f).deep then gateApply f (islLose n) s else gateApply f (fun s => s) (islGated n s)
  | .port p => gateApply f (fun s => s) (portGated p s)
  | .can n => gateApply f (fun s => s) (canGated n s)
  | .lin n => gateApply f (fun s => s) (linGated n s)
  | .part p => partGated p s
  | .vi k i => viResetEnd k i s

/-- A forced shut-down of an island is recorded and counted, and what was outstanding into it is answered (R21, R25). -/
def islForced (n : Nat) (s : State) : State :=
  let s1 := logObj 0x00 0xFF 0 n 0 s
  let x := s1.island n
  islAbort n (s1.setIsland n { x with forced := satInc 255 x.forced })

/-- A forced shut-down (R25): recorded, reset, then the gate. -/
def forceShut (f : Func) (s : State) : State :=
  let s1 := logObj 0x00 0xFF 0 (funcKey f) 0 s
  match f with
  | .island n => gateApply f (fun s => s) (islLose n (islForced n s))
  | .vi k i => gateOf f (viCut k i s1)
  | .can n => canWipe false n (gateOf f s1)
  | .lin n => linWipe false n (gateOf f s1)
  | .part p => partForced p (gateOf f s1)
  | .port _ => gateOf f s1

/-! ### Starts (R26, R27) -/

/-- Partitions with AUTOSTART start (15 R447, 20 R599, R602). -/
def autoStart (s : State) : State :=
  (List.range 8).foldl (fun s p => if s.confd p && bit (par (s.blk p) 0) 17 then gateStart (.part p) s else s) s

/-- FBX restarts from its reset state: its counter is loaded as on a wake, from AON within one AON period, in FREERUN, or
starts at 0 in UNSYNC where AON does not run (DEDUCED, log 36: 09 R271 and R277 speak of wakes). -/
def fbxTime (s : State) : State :=
  withWork (fun s =>
    let st : TimState := if s.running 8 then .freerun else .unsync
    let r := s.drawNat
    let new := if s.running 8 then s.tim.full - min (r.1 % 30518) s.tim.full else 0
    instTo s.tim.wdom st (tallyStep new r.2)) s

/-- An island reaches RUN. -/
def islStarted (n : Nat) (s : State) : State :=
  let f : Func := .island n
  let cold := (s.gate f).cold
  let s0 := islRun n cold (gateRun f s)
  let s1 := if n = 1 ∧ cold then fbxTime s0 else s0
  let s2 := s1.setIsland n { s1.island n with runAt := some s1.clk }
  if s2.running n then
    let s3 := if n = 0 ∧ s2.pow.auto then autoStart { s2 with pow := { s2.pow with auto := false } } else s2
    let s4 := resume n (if n = 2 then carResume s3 else s3)
    if n = 1 ∨ n = 2 ∨ n = 5 then serveAll s4 else s4
  else s2

/-- The island that a function lies in. -/
def funcHome : Func → Option Nat
  | .island _ => none
  | .port _ => some 2
  | .can _ => some 5
  | .lin _ => some 5
  | .part _ => some 0
  | .vi _ _ => some 1

/-- A port, controller or channel is under test: its start is held until then (19 R576). -/
def State.funcTested (s : State) : Func → Bool
  | .port p => s.testing (39 + p)
  | .can n => decide (n < 8) && s.testing (53 + n)
  | .lin n => s.testing (61 + n)
  | _ => false

/-- ISLAND_RUN_REACHED (R27): a start of an island, port, controller or channel ends; a partition's ends by its own
row. A start that its island has accepted ends while the island quiesces (R22). -/
def execIslandRunReached (e : Stim) (fn : Func) (s : State) : Host.Outcome State Fault Refusal :=
  event e s (fun s => funcOk fn && (s.gate fn).st == .starting && (funcHome fn).all s.alive && !s.funcTested fn) (fun s =>
    match fn with
    | .island n => islStarted n s
    | .port _ => gateRun fn s
    | .can n => gateRun fn (canRun n s)
    | .lin n => gateRun fn (linRun n s)
    | .part _ => s
    | .vi _ _ => s)

/-! ### Clock losses (R20, R626) -/

/-- An island loses its clock. A shut-down in progress ends with it; a start in progress goes on when the clock is
good, unless the island is left off. A disable that is pending in STARTING completes with OK, since the island is then
gated, and is dropped: the island starts again to RUN (DEDUCED, log 36). A loss counts as one within 1 s of returning to
RUN only when the island has returned to RUN since the loss before. -/
def clockLoss (n : Nat) (s : State) : State :=
  let x := s.island n
  let g := x.gate
  let again := x.clkLoss && x.runAt.any (fun t => decide (s.clk < t + 1000000000))
  let ends := g.st == .quiescing && !g.rePend
  let lost := if again then g.enCmds else []
  let g1 : Gate := { st := .powerGated, enCmds := if again then [] else g.enCmds, since := s.clk }
  let s1 := s.setIsland n { x with gate := g1, clkLoss := true, lossHold := !again && !ends, stuck := again, runAt := none }
  let s2 := finishAll lost .internal (finishAll g.disCmds .ok (islLose n (islAbort n s1)))
  let det := [wd n, wd (b2n again)]
  noticeOnly 0 0x0002 det (logSev 2 0x0002 0xFF det (latchFault 4 s2))

/-- CLOCK_LOSS (R20). -/
def execClockLoss (e : Stim) (isl : Nat) (s : State) : Host.Outcome State Fault Refusal :=
  event e s (fun s => decide (isl < 9) && ((s.island isl).gate.st == .starting || s.alive isl)) (clockLoss isl)

/-- CLOCK_RETURN (R20): the clock has been good for 100 µs; the island starts from its reset state. -/
def execClockReturn (e : Stim) (isl : Nat) (s : State) : Host.Outcome State Fault Refusal :=
  event e s (fun s => decide (isl < 9) && (s.island isl).lossHold && decide ((s.island isl).gate.since + 100000 ≤ s.clk))
    (fun s =>
      let x := s.island isl
      s.setIsland isl { x with lossHold := false, gate := { x.gate with st := .starting, cold := true, since := s.clk } })

end Sys2Proof.Machine
end

