-- ==== Sys2Proof/Machine/Power.lean ====
section
/-!
DEFINITION. Wakes (14 R432, R435), the Tally alarm (09 R276), SLEEP, DORMANT, starts and brownout (20). Log entry 41.
-/

namespace Sys2Proof.Machine

/-! ### What survives a loss of power (20 R600, R601, R604) -/

/-- What AON keeps of the state of audits, the Ledger's ring being in eMRAM. -/
def keptAudit (aon : Bool) (a : AuditSt) : AuditSt :=
  let f := fun (x : Summary) => { x with aonKnown := x.aonKnown && aon, aonKept := x.aonKept && aon }
  { closing := f a.closing, inForce := f a.inForce, rows := a.rows }

/-- A Vault without power: its persistent keys and its sealed state. The debug authenticator stands in AON: a session ends
at the start, which is a module reset (R513). -/
def keptVault (aon : Bool) (lc : LifeCycle) (v : VaultSt) : VaultSt :=
  { session := if aon then v.session else none, mode := if lc = .retired then .retired else .booting, keys := v.keys.map (fun p => (p.1, p.2.filter (·.persist))), volKeys := v.volKeys
    starts := v.starts }

/-- Strongbox without power: what the NAND device holds. Its counts of refreshes and uncorrectable reads restart (R542). -/
def keptSto (x : StoSt) : StoSt :=
  { absent := x.absent, formatted := x.formatted, readonly := x.readonly, total := x.total, perBlock := x.perBlock, blk := x.blk
    open_ := x.open_, ckpt := x.ckpt, good := x.good, spare := x.spare, grown := x.grown, vol := x.vol }

/-- Components and their images. -/
def keptImg (x : ImgSt) : ImgSt :=
  { comp := x.comp.map (fun p =>
      let st := if p.2.st = .receiving ∨ p.2.st = .verifying ∨ p.2.st = .installing then p.2.rest else p.2.st
      (p.1, { p.2 with st := st, actCmds := [], revCmds := [], todo := [] }))
    staging := x.staging }

/-- Network management while AON has its supply. -/
def keptNmg (aon : Bool) (x : NmgSt) : NmgSt :=
  if aon then { x with req := [], wakePend := false, wakeBus := none, allSleep := false } else {}

/-- Tally time: AON's counter and alarm, or nothing. -/
def keptTim (aon : Bool) (x : TimSt) : TimSt :=
  if aon then { full := x.full, sub := x.sub, gen := x.gen, alarm := x.alarm, alarmDue := x.alarmDue }
  else { gen := x.gen + 1 }

/-- A channel without power: its limp policy, and its rise. -/
def keptChan (c : Chan) : Chan := { policy := c.policy, theta := c.theta, thetaAt := c.thetaAt }

/-- The module without power, but for AON's if aon: what non-volatile memory, fuses and AON keep; the rest at its reset
values, every other island off. -/
def keptState (aon : Bool) (s : State) : State :=
  let off : Island := { gate := { st := .powerGated } }
  { pending := s.pending, clk := s.clk, free := s.free, nextId := s.nextId, env := s.env, rdata := s.rdata, ident := s.ident
    image := s.image
    mem := s.mem.filter (fun c => decide (0x10000000 ≤ c.1) && decide (c.1 < 0x12000000))
    tim := { keptTim aon s.tim with aonKnown := aon && s.running 8 }
    isl := (List.range 9).map (fun n => (n, if n = 8 ∧ aon then s.island 8 else off))
    led := { s.led with writes := [] }
    pow := { mode := s.pow.mode, dispatch := false, since := s.clk, orderly := s.pow.orderly }
    bus := { lin := if aon then (s.bus.lin.filter (fun p => p.2.sleep)).map (fun p => (p.1, ({ sleep := true } : LinCh))) else [] }
    chan := s.chan.map (fun p => (p.1, keptChan p.2))
    yar := { die := s.yar.die.map (fun p => (p.1, { lh := p.2.lh })) }
    flt := if aon then s.flt else {}
    fio := { fi := if aon then (s.fio.fi.filter (fun p => decide (40 ≤ p.1))).map (fun p =>
      (p.1, ({ block := p.2.block, raw := p.2.raw } : FieldIn))) else [] }
    aud := keptAudit aon s.aud, nmg := keptNmg aon s.nmg, vlt := keptVault aon s.ident.lc s.vlt, sto := keptSto s.sto, img := keptImg s.img }

/-! ### The end of a SLEEP entry (20 R599) -/

/-- An entry ends: the module stays in RUN, and the islands that it gated start again. -/
def endEntry (s : State) : State :=
  let s1 := { s with pow := { s.pow with mode := .run, dispatch := true, since := s.clk, quietSince := none, gated := []
                                         auto := s.pow.gated.contains 0 }
                     vlt := { s.vlt with released := false }, nmg := { s.nmg with wakePend := false } }
  let s2 := s.pow.gated.foldl (fun s n => gateStart (.island n) s) s1
  nmgSettle false (match s.nmg.wakeBus with
    | some r => ringWake r s.nmg.cause false s2
    | none => s2)

/-- A wake that is latched during an entry: an audit ends, and the entry with it; with no audit running and step 2 past
the entry ends at once, but not before CPX has ended its shut-down (R599, 19 R578). -/
def entryWake (s : State) : State :=
  if s.pow.mode ≠ .entering 2 ∨ s.alive 0 then s
  else if s.aud.run.isSome then auditStop 2 s
  else endEntry s

/-- AUDIT_END (19 R575, R592): every block has been tested, or the audit has been ended; a latched wake then ends the
SLEEP entry. -/
def execAuditEnd (e : Stim) (s : State) : Host.Outcome State Fault Refusal :=
  event e s (fun s => s.aud.run.any (fun r => r.left.isEmpty)) (fun s =>
    let s1 := auditFinish s
    if s1.nmg.wakePend ∧ s1.pow.mode = .entering 2 then endEntry s1 else s1)

/-! ### Wakes (14 R432 to R435) -/

/-- The module is in SLEEP, or its entry has armed the detectors for it (R598). -/
def State.asleep (s : State) : Bool :=
  match s.pow.mode with
  | .sleep => true
  | .entering _ => true
  | _ => false

/-- A ring's bus detects wakes: it sleeps or is being released, or the module is in SLEEP. -/
def State.busArmed (s : State) (r : Nat) (pn : Bool) : Bool :=
  let st := (s.ring r).st
  s.asleep || st == .busSleep || st == .disengage || (pn && st == .pnSleep)

/-- During a release any start of frame is latched, whatever is enabled for the bus (R428). -/
def State.releaseWake (s : State) (cause idx : Nat) : Bool :=
  (s.ring idx).st == .disengage && ((cause == 1 && decide (idx < 12)) || (cause == 4 && decide (12 ≤ idx)))

/-- The selective wake decoder of a bus runs (R432, R433). -/
def State.decoding (s : State) (idx : Nat) : Bool :=
  decide (idx < 8) && (s.ring idx).swEn && s.busArmed idx true && (s.ring idx).decRun

/-- The decoder's match (R431): a cluster frame that requests a cluster of the module's for that ring. -/
def State.decMatch (s : State) (n : Nat) (f : CanFrame) : Bool :=
  let x := s.ring n
  x.plainFrame f && x.pnEn && f.dlc == 4 && f.id / 32 * 32 == x.clBase && s.needs n (natOf (f.data.take 4))

/-- The source of a wake is armed (R432, R433). The AON comparator of FI40 to FI47 goes by the input's thresholds, and
wakes when its output changes (08 R226; DEDUCED, log 41). -/
def State.wakeArmed (s : State) (cause idx : Nat) : Bool :=
  if s.pow.mode = .off then false
  else if s.pow.mode = .dormant then cause == 5 || cause == 6
  else if s.releaseWake cause idx then true
  else if cause = 1 then
    decide (idx < 8) && (if (s.ring idx).swEn then s.busArmed idx true else bit s.nmg.wake0 idx && s.busArmed idx false)
  else if cause = 2 then s.decoding idx
  else if cause = 3 then decide (idx < 8) && bit s.nmg.wake0 (8 + idx) && (s.lin idx).sleep
  else if cause = 4 then decide (12 ≤ idx) && decide (idx < 14) && bit s.nmg.wake0 (4 + idx) && s.busArmed idx false
  else if cause = 5 ∨ cause = 6 then true
  else if cause = 7 then
    decide (40 ≤ idx) && decide (idx < 48) && bit s.nmg.wake1 (idx - 40) && s.asleep && s.fiTakes idx (1 - (s.fin idx).raw)
  else if cause = 8 then s.asleep && s.tim.alarmDue
  else cause == 9 && s.decoding idx && decide (31 ≤ (s.ring idx).decErr)

/-- A cause that names a ring's bus. -/
def busCause (cause : Nat) : Bool := cause == 1 || cause == 2 || cause == 4 || cause == 9

/-- A wake latched while the module sleeps: the start that follows records it. A later one finds the start under way. -/
def latchWake (cause idx : Nat) (s : State) : State :=
  if s.nmg.wakePend then s
  else { s with nmg := { s.nmg with wakePend := true, cause := cause, causeIdx := idx, causeAt := aonTime s.tim.full
                                    wakeBus := if busCause cause then some idx else none } }

/-- A wake with a recorded cause: out of SLEEP or DORMANT it is latched; during an entry it is recorded and latched; in
RUN the bus's ring wakes (R425, R435). -/
def wakeTake (cause idx : Nat) (s : State) : State :=
  match s.pow.mode with
  | .sleep => latchWake cause idx s
  | .dormant => latchWake cause idx s
  | .entering _ =>
    let s1 := wakeRecord cause idx s
    entryWake { s1 with nmg := { s1.nmg with wakePend := true, wakeBus := if busCause cause then some idx else s1.nmg.wakeBus } }
  | _ =>
    if busCause cause ∧ (s.ring idx).st = .disengage then ringWake idx cause true s
    else
      let s1 := wakeRecord cause idx s
      nmgSettle false (if busCause cause then ringWake idx cause false s1 else s1)

/-- The alarm has fired: it disarms (09 R276). -/
def alarmOff (s : State) : State := { s with tim := { s.tim with alarm := none, alarmDue := false } }

/-- An armed source fires. With selective wake, the wake-up pattern only starts the decoder (R433); KEY stays active until
KEY_INACTIVE. -/
def wakeStep (cause idx : Nat) (s : State) : State :=
  let x := s.ring idx
  if cause = 1 ∧ x.swEn ∧ !s.releaseWake 1 idx then
    (if x.decRun then s.setRing idx { x with decAt := s.clk }
     else s.setRing idx { x with decRun := true, decErr := 0, decAt := s.clk })
  else if cause = 2 then wakeTake 2 idx (s.setRing idx { x with decErr := x.decErr - 1, decAt := s.clk })
  else if cause = 9 then wakeTake 9 idx (s.setRing idx { x with decErr := 32, decAt := s.clk })
  else if cause = 5 then wakeTake 5 idx (setProbe .key 1 s)
  else if cause = 8 then wakeTake 8 0 (alarmOff s)
  else if cause = 7 ∧ s.pow.mode = .sleep then wakeTake 7 idx (s.setFin idx { s.fin idx with raw := 1 - (s.fin idx).raw })
  else wakeTake cause idx s

/-- Before a wake at a ring's bus is judged, a PREPARE window that has ended puts the ring into DISENGAGE (R428: a wake
stamped exactly at the end falls in DISENGAGE). -/
def wakeReady (cause idx : Nat) (s : State) : State :=
  if (busCause cause && s.diesUp) && decide (idx < 14) then prepareOver idx s else s

/-- WAKE (R432, R435). With CAUSE 2 the decoder's frame must match (R431). -/
def execWake (e : Stim) (cause : Nat) (src : WakeSrc) (s : State) : Host.Outcome State Fault Refusal :=
  event e s (fun s =>
    let s1 := wakeReady cause src.idx s
    s1.wakeArmed cause src.idx && (cause != 2 || src.frame.any (fun f => frameOk f && s1.decMatch src.idx f)))
    (fun s => wakeStep cause src.idx (wakeReady cause src.idx s))

/-- The decoder sees a frame end (R431, R433): a correct Classical one lowers its error count, one that matches wakes; CAN
FD and CAN XL frames are ignored. -/
def decFrame (n : Nat) (f : CanFrame) (s : State) : State :=
  if !s.decoding n then s
  else
    let x := s.ring n
    let s1 := s.setRing n { x with decAt := s.clk, decErr := if f.fmt = 0 then x.decErr - 1 else x.decErr }
    if s1.decMatch n f then wakeTake 2 n s1 else s1

/-- The decoder sees an erroneous frame (R433): at a count of 32 the module wakes. -/
def decError (n : Nat) (s : State) : State :=
  if !s.decoding n then s
  else
    let x := s.ring n
    let s1 := s.setRing n { x with decAt := s.clk, decErr := x.decErr + 1 }
    if 32 ≤ x.decErr + 1 then wakeTake 9 n s1 else s1

/-- CAN_FRAME_RECEIVED (12 R377, R384; R418, R433): at a controller that is up, and at a decoder. -/
def execCanFrameReceived (e : Stim) (can : Nat) (f : CanFrame) (ago : Nat) (s : State) :
    Host.Outcome State Fault Refusal :=
  event e s (fun s => frameOk f && (s.canTakes can || s.decoding can)) (fun s =>
    decFrame can f (if s.canTakes can then canHeard can ago f s else s))

/-- CAN_ERROR (12 R387 to R390; R433): an error of the frame that the controller transmits or receives, or of a frame that
a decoder sees. An acknowledge error is a transmitter's. -/
def execCanError (e : Stim) (can lec : Nat) (tx alt : Bool) (s : State) : Host.Outcome State Fault Refusal :=
  event e s (fun s => decide (1 ≤ lec) && decide (lec ≤ 7) && (lec != 3 || tx) &&
      ((decide (can < 12) && s.canUp can && (s.canc can).estate != 2) || s.decoding can)) (fun s =>
    decError can (if can < 12 ∧ s.canUp can = true ∧ (s.canc can).estate ≠ 2 then canError can lec tx alt s else s))

/-- TALLY_ALARM_FIRE (09 R276): TIM_ALARM while the module runs; a wake in SLEEP and during its entry. -/
def execTallyAlarmFire (e : Stim) (s : State) : Host.Outcome State Fault Refusal :=
  event e s (fun s => s.tim.alarmDue && s.pow.mode != .off && s.pow.mode != .dormant) (fun s =>
    let t := s.tim.alarm.getD 0
    let s1 := alarmOff s
    match s.pow.mode with
    | .sleep => wakeTake 8 0 s1
    | .entering _ => wakeTake 8 0 (alarmNote t s1)
    | _ => alarmNote t s1)

/-- KEY_INACTIVE (20 R597, 14 R423). -/
def execKeyInactive (e : Stim) (s : State) : Host.Outcome State Fault Refusal :=
  event e s (fun s => s.probe .key == 1) (fun s => nmgSettle true (setProbe .key 0 s))

/-! ### Entering SLEEP (20 R597 to R600) -/

/-- SLEEP_ENTRY (R597, R598 step 1, R606). -/
def execSleepEntry (e : Stim) (s : State) : Host.Outcome State Fault Refusal :=
  event e s (fun s => s.pow.mode == .run && s.parked &&
      s.pow.quietSince.any (fun t => decide (t + s.image.tsleep * 1000000000 ≤ s.clk)))
    (fun s =>
      let s1 := { s with pow := { s.pow with mode := .entering 1, since := s.clk }, nmg := { s.nmg with wakePend := false, wakeBus := none } }
      noticeAll (List.range 32) 0x0001 [2, 100] s1)

/-- A function goes to its power gate by the module's own order: its disables complete, its pending enables do not. -/
def gateDown (f : Func) (s : State) : State :=
  let g := s.gate f
  finishAll g.enCmds .flushed (finishAll g.disCmds .ok (s.setGate f { st := .powerGated }))

/-- Commands that wait on not-before times or are DEFERRED, of every tenant. -/
def State.waitingAll (s : State) : List Nat :=
  (s.inflight.filter (fun c => c.phase == .waiting || c.phase == .deferred)).map (·.id)

/-- The end of step 3 of R598: CPX is power-gated and the Vault's claims are released. A wake that has been latched ends
the entry here (R599); else step 4 begins. -/
def entryCpx (s : State) : State :=
  let s1 := cpxLose (gateDown (.island 0) s)
  let s2 := { s1 with vlt := { s1.vlt with released := true }, pow := { s1.pow with since := s1.clk } }
  if s2.nmg.wakePend then endEntry s2
  else if lifeAudit s2.ident.lc && s2.aud.condOk && s2.aud.run.isNone then auditStart 1 auditOrder none s2
  else s2

/-- CPX begins its orderly shut-down to the power gate by the module's own order (01 R22). -/
def cpxDown (s : State) : State :=
  let g := s.gate (.island 0)
  finishAll g.enCmds .flushed (s.setGate (.island 0) { g with st := .quiescing, deep := true, rePend := false, enCmds := [], since := s.clk })

/-- Steps 2 and 3 of R598. CPX runs the calls that it has accepted to their end first, up to its bound. -/
def entryGo (s : State) : State :=
  let s1 : State := s.waitingAll.foldl (withdrawCmd .flushed) s
  let s2 : State := (List.range 8).foldl (fun s p => gateDown (.part p) s) s1
  let trig := s2.tim.trig.map (fun p => (p.1, ({ p.2 with armed := false, due := false } : Trigger)))
  let cpx := s.alive 0 || (s.gate (.island 0)).st == .starting
  let s3 : State := { s2 with tim := { s2.tim with trig := trig }
                              pow := { s2.pow with mode := .entering 2, dispatch := false, since := s2.clk
                                                   gated := if cpx then [0] else [] } }
  if s3.alive 0 && !s3.drained (.island 0) then cpxDown s3 else entryCpx s3

/-- The gate of a shut-down that quiesced, or was forced; CPX's during an entry is step 3 of R598. -/
def entryGate (f : Func) (s : State) : State :=
  if f = .island 0 ∧ s.pow.mode = .entering 2 then entryCpx s else s

/-- QUIESCENCE_REACHED (01 R22 steps 3 and 4). -/
def execQuiescenceReached (e : Stim) (fn : Func) (s : State) : Host.Outcome State Fault Refusal :=
  event e s (fun s => funcOk fn && (s.gate fn).st == .quiescing && s.drained fn) (fun s => entryGate fn (gateOf fn s))

/-- FORCED_SHUTDOWN (01 R25): at the bound without quiescence. -/
def execForcedShutdown (e : Stim) (fn : Func) (s : State) : Host.Outcome State Fault Refusal :=
  event e s (fun s => funcOk fn && (s.gate fn).st == .quiescing && decide ((s.gate fn).since + quietBound fn ≤ s.clk))
    (fun s => entryGate fn (forceShut fn s))

/-- SLEEP_ENTRY_CHECK (R598 steps 2 and 3): at +100 ms. -/
def execSleepEntryCheck (e : Stim) (s : State) : Host.Outcome State Fault Refusal :=
  event e s (fun s => s.pow.mode == .entering 1 && decide (s.pow.since + 100000000 ≤ s.clk)) (fun s =>
    if s.nmg.wakePend || !s.parked then endEntry s else entryGo s)

/-- The islands of step 6 of R598, in its order. -/
def sleepOrder : List Nat := [2, 5, 4, 1, 3]

/-- The bound of 01 R24 for an island has passed since the last step of the entry. -/
def State.quietOver (s : State) (n : Nat) : Bool :=
  decide (max s.pow.since s.aud.closing.endAt + quietBound (.island n) ≤ s.clk)

/-- An island is not quiet at its bound: its shut-down is forced (01 R25). -/
def State.quietLate (s : State) (n : Nat) : Bool := s.quietOver n && !s.drained (.island n)

/-- Every island has run its accepted work to its end, or has reached its bound. -/
def State.islandsQuiet (s : State) : Bool := sleepOrder.all (fun n => s.drained (.island n) || s.quietOver n)

/-- SLEEP_REACHED (R598 steps 5 to 7): once the audit has ended, every command in execution has and the islands are quiet.
One that is not quiet at its bound is forced, recorded, and its commands end by 01 R21. The wire models of every channel run
up to now (06 R193), STX writes its map checkpoint, and FAULT_N stays as it is (19 R588). -/
def execSleepReached (e : Stim) (s : State) : Host.Outcome State Fault Refusal :=
  event e s (fun s => s.pow.mode == .entering 2 && s.aud.run.isNone && !s.nmg.wakePend && !s.alive 0 &&
      s.inflight.all (fun c => c.phase == .held || c.phase == .crossing ||
        ((opFind c.opcode).bind (·.isl)).any s.quietLate) && s.islandsQuiet)
    (fun s0 =>
      let s := sleepOrder.foldl (fun s n => if s.quietLate n then islForced n s else s) s0
      let s1 := allChans.foldl (fun s ch => s.thetaNow ch) s
      keptState true { s1 with sto := { s1.sto with ckpt := !s1.sto.absent }, pow := { s1.pow with mode := .sleep, orderly := true }
                               flt := { s1.flt with held := s.faultLow } })

/-- DORMANT_ENTRY (R601). -/
def execDormantEntry (e : Stim) (s : State) : Host.Outcome State Fault Refusal :=
  event e s (fun s => s.pow.mode == .sleep && !s.nmg.wakePend && s.image.tdorm != 0 &&
      decide (s.pow.since + s.image.tdorm * 3600000000000 ≤ s.clk))
    (fun s => keptState false (sessionEnd { s with pow := { s.pow with mode := .dormant } }))

/-- AON_SUPPLY_LOSS (R600). -/
def execAonSupplyLoss (e : Stim) (s : State) : Host.Outcome State Fault Refusal :=
  event e s (fun s => (s.pow.mode == .sleep || s.pow.mode == .dormant) && s.vhfDown)
    (fun s => keptState false (sessionEnd { s with pow := { s.pow with mode := .off } }))

/-! ### Brownout (20 R604, R605, 17 R536) -/

/-- Every running commit reaches its journal record, the first first; STX runs at a bank voltage of VMIN or more (17
R536). -/
def runCommits : Nat → State → State
  | 0, s => s
  | n + 1, s =>
    match s.sto.jobs.findIdx? StoJob.isCommit with
    | some i => runCommits n (journalled i s)
    | none => s

/-- The STO commands in execution that no media operation has begun: at the crossing, or before their not-before time. -/
def State.stoUnbegun (s : State) : List Nat :=
  (s.inflight.filter (fun c => c.opcode / 256 == 0x50 && (c.phase == .waiting || c.phase == .crossing))).map (·.id)

/-- Replies held for want of CQ room, which the module cannot post any more, are recorded in their place: tenant, and the
opcode and sequence number of a final one's command (17 R536). -/
def unposted (s : State) : State :=
  (List.range 32).foldl (fun s t => (s.queue t 4).held.foldl (fun s h =>
    let c := h.final.bind (fun id => s.inflight.find? (fun c => c.id == id))
    logObj 0x50 t ((c.map (·.opcode)).getD 0) ((c.map (·.seq)).getD 0) 0 s) s) s

/-- Brownout to its end. -/
def brownout (s : State) : State :=
  let s1 := auditFinish (auditStop 4 (sessionEnd (logObj 0x00 0xFF 0 0 0 s)))
  let s2 := { s1 with pow := { s1.pow with mode := .off, dispatch := false, orderly := false }, sto := { s1.sto with finished := 0 } }
  let s3 := islAbort 5 (islAbort 2 (islAbort 0 s2))
  let s4 := bsxLose (swxLose (cpxLose s3))
  let ids := s4.sto.waiting.filterMap (·.job.cmd) ++ s4.stoUnbegun
  let s5 := finishAll ids .noEnergy (s4.setSto { s4.sto with waiting := [] })
  let s6 := if s5.sto.absent then s5 else
    let s6 := if 10000 ≤ s5.sto.v then runCommits s5.sto.jobs.length s5 else s5
    logObj 0x50 0xFF 0 s6.sto.finished 0 (s6.setSto { s6.sto with ckpt := decide (10000 ≤ s6.sto.v) })
  keptState false (unposted s6)

/-- BROWNOUT (R604): VHF has been below VBRN for 20 µs. -/
def execBrownout (e : Stim) (s : State) : Host.Outcome State Fault Refusal :=
  event e s (fun s => s.diesUp && decide (20000 ≤ s.pow.vhfLow)) brownout

/-! ### Starting (20 R602, R603) -/

/-- Tally time at a start (09 R271, R277): where AON knows it, from AON within one AON period, in FREERUN; else 0 in
UNSYNC. -/
def startTime (s : State) : State :=
  if s.tim.aonKnown then
    let r := s.drawNat
    let x := r.2.tim
    let back := min (r.1 % 30518) x.full
    { r.2 with tim := { x with full := x.full - back, sub := 0, gen := x.gen + 1, td0 := { st := .freerun, since := s.clk } } }
  else { s with tim := { gen := s.tim.gen + 1 } }

/-- The step of a wake (09 R273, R277): counted, recorded and posted, from the time that AON carried. -/
def wakeStepped (old : Nat) (s : State) : State :=
  logNotice s.timWatch 0xFF 0x2002 (timeWords (aonTime old) ++ timeWords s.now)
    { s with tim := { s.tim with steps := satInc 255 s.tim.steps } }

/-- A valid descriptor of T0: local, and bound to a partition (04 R110, R446). -/
def t0Ok (x : Tenant) : Bool := x.kind == 0 && decide (0x100 ≤ x.reqid) && decide (x.reqid < 0x108)

/-- Tenants and their queues (04 R110, R111): T0 is live whatever the image says. -/
def startTenants (s : State) : State :=
  if s.image.t0 && t0Ok (look {} s.image.ten 0) then
    { s with ten := put s.image.ten 0 { look {} s.image.ten 0 with st := .live }, que := s.image.que }
  else logObj 0x01 0 0 0 0 { s with ten := [(0, defaultT0)], que := defaultQueues }

/-- A parameter block of the image that is valid for its channel (05 R140). -/
def imgBlock (ch : Nat) (b : Option (List Word)) : Option (List Word) :=
  b.filter (fun b => blockCheckOk b && blockRangeOk b && parCh b == ch)

/-- A wire block of the image that is valid for its channel (06 R196). -/
def imgWire (ch : Nat) (b : Option (List Word)) : Option (List Word) :=
  b.filter (fun b => wireCheckOk b && wireRangeOk b && parCh b == ch)

/-- exp(−f / 2^64) in units of 2^-64, for f below 2^64: the first 24 terms of its series, by Horner's scheme. -/
def expFrac (f : Nat) : Nat :=
  (List.range 24).foldl (fun h i => 2 ^ 64 - f * h / ((24 - i) * 2 ^ 64)) (2 ^ 64)

/-- exp(−t / tau) for t in ns and tau in s (06 R193), to within 2^-56 (DESIGN CHOICE, log 18): 6786177901268885274 × 2^-64 is
exp(−1), whose powers beyond the 63rd are taken as 0. -/
def expDecay (t tau : Nat) : Rat :=
  let d := tau * 1000000000
  let p := (List.range (min 64 (t / d))).foldl (fun a _ => a * 6786177901268885274 / 2 ^ 64) (2 ^ 64)
  if 64 ≤ t / d then 0 else mkRat (p * expFrac (t % d * 2 ^ 64 / d)) (2 ^ 128)

/-- A load channel at a start (05 R140, 06 R193): without a valid block in the image it is UNCONF. -/
def startChan (aon : Bool) (asleep : Nat) (s : State) (ch : Nat) : State :=
  let g := look {} s.image.chan ch
  let old := s.chn ch
  let block := imgBlock ch g.block
  let c : Chan := { owner := g.owner, readers := g.readers, block := block, wire := imgWire ch g.wire, policy := old.policy
                    st := if block.isNone then .unconf else .off, thetaAt := s.clk / 50000 }
  let s1 := s.setChn ch { c with retryLeft := c.retries }
  let th := if aon then old.theta * expDecay asleep (wireTau (s1.wireBlk ch)) else s1.thetaInit ch
  s1.setChn ch { s1.chn ch with theta := th }

/-- Field objects and sequences at a start (08 R228): a block of the image that is not valid counts as none (R255,
R256). -/
def startField (s : State) : State :=
  let fo := s.image.fo.map (fun p =>
    let b := p.2.block.filter (fun b => foCheckOk b && foRangeOk b && parIo b == 0x40 + p.1)
    (p.1, ({ owner := p.2.owner, readers := p.2.readers, block := b
             st := if b.isNone then FoState.unconf else FoState.off } : FieldOut)))
  let fi := s.image.fi.map (fun p =>
    let b := p.2.block.filter (fun b => fiCheckOk b && fiRangeOk b && parIo b == p.1)
    (p.1, s.fiFresh { p.2 with block := b, raw := s.rawAt p.1 (b.getD [0, wd 5000, 0]) }))
  let seq := s.image.seq.map (fun p => (p.1, ({ owner := p.2.owner, conf := p.2.conf } : MeaSeq)))
  { s with fio := { fi := fi, fo := fo, ai := s.image.ai }, mea := { seq := seq } }

/-- Controllers, channels and rings at a start (12 R369, 14 R435): after SLEEP the rings are AON's, the wake bus first. -/
def startBuses (aon : Bool) (s : State) : State :=
  let nmg : NmgSt := if aon then s.nmg else
    { ring := s.image.ring, cluster := s.image.cluster, wake0 := s.image.wake0, wake1 := s.image.wake1
      cause := s.nmg.cause, causeIdx := s.nmg.causeIdx, causeAt := s.nmg.causeAt, wakeBus := s.nmg.wakeBus }
  let on := (nmg.ring.filter (fun p => if aon then p.2.st != .disabled else p.2.en)).map (·.1)
  let rings := nmg.wakeBus.toList.filter on.contains ++ on.filter (fun r => nmg.wakeBus != some r)
  let s1 := { s with nmg := { nmg with wakePend := false }, bus := { can := s.image.can, lin := s.image.lin } }
  let s2 := rings.foldl (fun s r => startRing r s) s1
  let s3 := (List.range 12).foldl (fun s n => if (s.canc n).wasOn then gateStart (.can n) s else s) s2
  (List.range 8).foldl (fun s n => if (s.lin n).wasOn then gateStart (.lin n) s else s) s3

/-- Partitions at a start (15 R446, 18 R547): blocks from the image, rebased into their components' banks. -/
def startParts (s : State) : State :=
  let part := s.image.part.map (fun p =>
    (p.1, ({ block := some (if (s.icomp (0x20 + p.1)).bank = 1 then rebaseBlock 0 1 p.2 else p.2) } : Part)))
  autoStart { s with cpu := { part := part } }

/-- Trials at a start (18 R564): the third module reset after no orderly shut-down reverts. -/
def startTrials (s : State) : State :=
  if s.pow.orderly then s
  else s.img.comp.foldl (fun s p =>
    if p.2.st = .trial then
      let s1 := s.setIcomp p.1 { s.icomp p.1 with resets := p.2.resets + 1 }
      if 3 ≤ p.2.resets + 1 then revertBegin p.1 4 s1 else s1
    else s) s

/-- R582 holds for the last closing audit. -/
def State.auditUsed (s : State) : Bool :=
  let x := s.aud.closing
  x.status == 1 && x.kind == 1 && x.aonKnown && x.aonKept && decide (s.clk < x.endAt + 72 * 3600000000000) &&
    (List.range 72).all (fun b => x.resOf b != 2)

/-- The opening check (19 R582, R583, R592): the closing audit is used, or the full BIST begins. -/
def startAudit (aon : Bool) (s : State) : State :=
  let use := aon && s.auditUsed
  let sum := { s.aud.closing with valid := use }
  let s1 := { s with aud := { s.aud with closing := sum, teller := [] }, flt := { startup := !use } }
  if use then
    let s2 := tellerSettle { s1 with aud := { s1.aud with inForce := sum } }
    let w := sum.words s.clk
    logNotice [0] 0xFF 0x6001 [par w 0, par w 9] s2
  else tellerSettle (auditStart 2 bistBlocks none s1)

/-- The pins that the dies read (07 R207, 19 R589, 20 R600). -/
def startPins (s : State) : State :=
  let s1 := if s.probe .limpN 1 = 0 then foForce (bothDies (fun d s => enterDie d 2 s) s) else s
  if s1.probe .safeN 1 = 0 then
    logObj 0x60 0 0 0 0 (foForce (bothDies (fun d s => enterDie d 3 s) { s1 with yar := { s1.yar with safeN := true } }))
  else s1

/-- The configuration image in force from this start on (18 R565). -/
def State.startImage (s : State) : Image :=
  let d := (s.icomp 0x60).active.data
  if d = [] then s.image else Config.imageOf d

/-- An island that a module reset finds alive, AON or after a reset of the logic die alone a power die's: its counts restart
and it runs again if it was left off, but for a reset that waits for its clock (01 R20, R36). -/
def Island.freshAon (x : Island) : Island := if x.lossHold then { gate := x.gate, lossHold := true } else {}

/-- What a start finds: after a reset of the logic die (kind 3) the AON part and the power dies as they are. -/
def startFound (kind : Nat) (s : State) : State :=
  if kind = 3 then
    let k := keptState true s
    { k with chan := s.chan, yar := { s.yar with logicReset := false, reclaims := [] }
             isl := put (put k.isl 6 (s.island 6)) 7 (s.island 7) }
  else s

/-- The image takes effect, the islands that stayed alive keep their gates, and the two fuse copies are compared. -/
def startImaged (kind : Nat) (s : State) : State :=
  { s with image := s.startImage, isl := ([(6, (s.island 6).freshAon), (7, (s.island 7).freshAon)].filter (fun _ => kind == 3)) ++
             [(8, (s.island 8).freshAon)].filter (fun _ => kind == 1 || kind == 3)
           pow := { orderly := if kind = 3 then false else s.pow.orderly, since := s.clk }
           ident := { s.ident with bad := s.ident.primary != s.ident.copy } }

/-- The first record of a start: fuse copies that differ. -/
def startFuses (s : State) : State := if s.ident.bad then logObj 0x00 0xFF 0x0003 0 0 s else s

/-- Tally time and the tenants at a start; s0 is the state that the start found. -/
def startTally (kind : Nat) (s0 s : State) : State :=
  let st := startTenants (startTime s)
  if kind = 1 ∧ s0.tim.aonKnown then wakeStepped s0.tim.full st else st

/-- The channels at a start; gated is how long the power dies were without their modelled part. -/
def startChans (kind gated : Nat) (s : State) : State :=
  if kind = 3 then s else allChans.foldl (startChan (kind == 1 && s.tim.aonKnown) gated) s

/-- Fields, buses, partitions, trials, audits and pins at a start. -/
def startUnits (kind : Nat) (s : State) : State :=
  let aon := kind == 1 || kind == 3
  let s4 := startTrials (startParts (startBuses aon (startField s)))
  startPins (startAudit aon (if kind = 3 then foForce s4 else s4))

/-- The end of a debug session (16 R513), and the wake that a start out of SLEEP or DORMANT ends with. -/
def startWoken (kind : Nat) (s0 : State) : State :=
  let s := sessionEnd s0
  if kind = 1 ∨ kind = 2 then
    let s7 := { s with nmg := { s.nmg with wakes := satInc 0xFFFF s.nmg.wakes,
                                           causeAt := if kind = 1 then s.nmg.causeAt else 0 } }
    logNotice (s7.holders 13) 0xFF 0x3802 [s7.wakeWord] s7
  else s

/-- A start of the module (R602): kind 0 supply-up, 1 from SLEEP, 2 from DORMANT, 3 after a reset of the logic die, which
leaves the power dies as they are (07 R207). -/
def startModule (kind : Nat) (s : State) : State :=
  let s0 := startFound kind s
  let s2 := startTally kind s0 (startFuses (startImaged kind s0))
  let s5 := startUnits kind (startChans kind (s.clk - s.pow.since) s2)
  startWoken kind { s5 with pow := { s5.pow with orderly := false } }

/-- START (R602). -/
def execStart (e : Stim) (kind : Nat) (s : State) : Host.Outcome State Fault Refusal :=
  event e s (fun s =>
    match kind with
    | 0 => s.pow.mode == .off && decide (5700 ≤ s.probe .vhfMv)
    | 1 => s.pow.mode == .sleep && s.nmg.wakePend
    | 2 => s.pow.mode == .dormant && s.nmg.wakePend
    | 3 => s.diesUp && s.yar.logicReset
    | _ => false) (startModule kind)

end Sys2Proof.Machine
end

