-- ==== Sys2Proof/Machine/Teller.lean ====
section
/-!
DEFINITION. Teller's own steps (02): the dispatch of a packet from the submission queues (R55, R57, R58, R65, R66) and
the start of commands at their not-before times (R60, R62).
-/

namespace Sys2Proof.Machine

/-! ### Dispatch (R55 to R58, R65, R66) -/

/-- The packet that a header and the slots of its item make. -/
def pktOf (h : Hdr) (sl : List Slot) : Pkt :=
  let bs := (sl.flatMap (·.bytes)).drop 16
  { field := h.field, opcode := h.opcode, seq := h.seq, version := h.version, rsv := h.rsv, chained := h.chained
    notify := h.notify, lateOk := h.lateOk, plen := h.plen, notBefore := h.notBefore
    params := if 1020 < h.plen then [] else wordsOf h.plen bs, bad := (sl.drop 1).any (·.bad) }

/-- What stands at the head of a submission queue. -/
inductive Head where
  /-- Nothing that may be dispatched: empty, not wholly committed, or behind a chain member that is awaited. -/
  | none
  /-- Its header fails HCRC, or its first slot an uncorrectable error (R55, 03 R77). -/
  | corrupt (h : Hdr)
  /-- A whole packet, its slots and whether an ended chain flushes it (R66). -/
  | whole (h : Hdr) (n : Nat) (cut : Bool)
  deriving DecidableEq, Repr

/-- The head of a queue (R58, R65). -/
def State.headItem (s : State) (x : Queue) : Head :=
  if x.chain.any (fun c => c.await.isSome) then .none
  else match s.slotsOf x with
  | [] => .none
  | a :: _ =>
    let h := a.hdr
    if !h.ok then .corrupt h
    else if itemLen h.plen ≤ x.occ then .whole h (itemLen h.plen) (x.chain.any (·.failed))
    else .none

/-- Something stands at the head that may be dispatched but for the share. -/
def Head.here : Head → Bool
  | .none => false
  | _ => true

/-- Queue q of tenant t has something to dispatch now. -/
def State.ready (s : State) (t q : Nat) : Bool :=
  s.serves t && (s.headItem (s.queue t q)).here && s.slotFree t

/-- Marks and counts the head of queue q of tenant t when the tenant's share alone holds it back (R57). -/
def stallNote (s : State) (t q : Nat) : State :=
  let x := s.queue t q
  if s.serves t && (s.headItem x).here && !s.slotFree t then
    match x.slots with
    | a :: r =>
      if a.stalled then s
      else
        (s.setQueue t q { x with slots := { a with stalled := true } :: r }).setTenant t
          { s.tenant t with stalls := satInc 0xFFFF (s.tenant t).stalls }
    | [] => s
  else s

/-- The tenant served next at priority level q, round-robin after the one served last (R58). -/
def State.nextAt (s : State) (q : Nat) : Option Nat :=
  (List.range 32).findSome? (fun i =>
    let t := (look 31 s.rr q + 1 + i) % 32
    if s.ready t q then some t else none)

/-- Takes the head of queue q of tenant t. -/
def takeHead (t q : Nat) (s : State) : State :=
  let x := s.queue t q
  match s.headItem x with
  | .none => s
  | .corrupt h =>
    let n := x.occ
    badFault t (badReply t h n (s.setQueue t q { x.take n with chain := none }))
  | .whole h n _ =>
    let p := pktOf h ((s.slotsOf x).take n)
    launch (opFind h.opcode) t p (some q) (trigsFirst p.opcode p.params s.tim.full (s.takeSlots t q n))

/-- One dispatch: the highest priority level at which any tenant has a dispatchable packet (R58). -/
def dispatchOne (s : State) : State :=
  let s1 := (List.range 128).foldl (fun s i => stallNote s (i / 4) (i % 4)) s
  match (List.range 4).findSome? (fun q => (s1.nextAt q).map (fun t => (q, t))) with
  | none => s1
  | some (q, t) => takeHead t q (checkPtrs t q { s1 with rr := put s1.rr q t })

/-- DISPATCH (R58). -/
def execDispatch (e : Stim) (s : State) : Host.Outcome State Fault Refusal :=
  event e s (fun _ => true) dispatchOne

/-! ### Not-before times (R60, R62) -/

/-- Inserts a command behind those whose targets are not later (R60). -/
def byTarget (now : Nat) (c : Cmd) : List Cmd → List Cmd
  | [] => [c]
  | d :: ds => if diff48 d.notBefore now ≤ diff48 c.notBefore now then d :: byTarget now c ds else c :: d :: ds

/-- The waiting commands whose not-before times have been reached, in the order in which they begin. -/
def State.dueCmds (s : State) : List Cmd :=
  (s.inflight.filter (fun c => c.phase == .waiting && c.due)).foldl (fun l c => byTarget s.now c l) []

/-- A scheduled switching of a load channel or field output (R62, 09 R274): PWR_SWITCH, FIO_OUT (DEDUCED, log 35). -/
def Cmd.switches (c : Cmd) : Bool := c.opcode == 0x1010 || c.opcode == 0x1820

/-- Begins a waiting command (R62), after the firings due on its target up to its time (09 R283). One dispatched less
than 50 µs before its switching counts in LATESCHED (09 R274). -/
def beginDue (s0 : State) (c : Cmd) : State :=
  let s := trigsFirst c.opcode c.params c.dueAt s0
  match s.cmd? c.id with
  | none => s
  | some c =>
    if c.phase ≠ .waiting then s
    else
      let s1 := if c.switches && c.short then
          { s with tim := { s.tim with lateSched := satInc 0xFFFF s.tim.lateSched } }
        else s
      match opFind c.opcode with
      | some o => begin o c s1
      | none => finishCmd c.id .badOpcode [] s1

/-- NOTBEFORE_REACHED (R61). -/
def execNotbeforeReached (e : Stim) (s : State) : Host.Outcome State Fault Refusal :=
  event e s (fun s => s.teller) (fun s => s.dueCmds.foldl beginDue s)

end Sys2Proof.Machine
end

