-- ==== Sys2Proof/Machine/Regs.lean ====
section
/-!
DEFINITION. A write by a requester to an address of the module's map: registers and windows by their access codes
(00 R13), system SRAM and the tile alias within the requester's regions (15 R452, R453). The tiles' global range and the
Vault's pages ignore it; any other address is refused. A requester is 0x100 plus its partition.
-/

namespace Sys2Proof.Machine

/-- The bytes of a value of a width in bits. -/
def valueBytes (width value : Nat) : List Byte := bytesOf (width / 8) value

/-- A width in bits that a store has; the cores handle a misaligned store to memory (15 R443). -/
def storeOk (width : Nat) : Bool := [8, 16, 32, 64].contains width

/-! ### Windows -/

/-- A write inside the window of controller n (12 R378): 32 bits wide and aligned, from the bound requester. -/
def canRegWrite (who n off width : Nat) (v : Word) (s : State) : State :=
  if width ≠ 32 ∨ off % 4 ≠ 0 then logFirst 2 0x30 (s.canc n).owner (winBase n + off) s
  else canWin who n (fun s =>
    if off < 0xC000 then ramWrite n off v s
    else if off = 0xC008 then (if bit v 0 then fifoPut n s else s)
    else if off = 0xC00C then eachBit v (priRequest n) s
    else if off = 0xC014 then eachBit v (priCancel n) s
    else if off = 0xC018 then doneClear n v s
    else if off = 0xC030 then flagsClear n v s
    else s) s

/-- A write of a register of mailbox slot n (16 R493, R494). -/
def slotRegWrite (n off : Nat) (v : Word) (s : State) : State :=
  let x := s.slot n
  if off = 0 then
    if x.st = .free then (if bit v 0 then slotPost n s else s)
    else if bit v 1 then slotRelease n s else s
  else if x.st ≠ .free then s
  else if off = 8 then s.setSlot n { x with func := fld v 7 0, seq := fld v 31 16 }
  else if 0x10 ≤ off ∧ off < 0x50 then s.setSlot n { x with call := x.call.set ((off - 0x10) / 4) v }
  else s

/-- A write inside the mailbox (16 R493): 32 bits wide and aligned, from the slot's partition. -/
def mailboxWrite (who off width : Nat) (v : Word) (s : State) : State :=
  let n := off / 0x80
  if width ≠ 32 ∨ off % 4 ≠ 0 then logFirst 4 0x48 0xFF (0x60000000 + off) s
  else slotOp who n (slotRegWrite n (off % 0x80) v) s

/-! ### Memories -/

/-- The instance whose control block's SQP or CQC stands at an address of system SRAM (10 R318). -/
def State.ctlAt (s : State) (addr : Nat) : Option (Nat × Nat) :=
  s.vis.findSome? (fun p => match p.2 with
    | some v =>
      let a := pageAddr (v.ctlPage (p.1 / 256))
      if a ≤ addr ∧ addr < a + 8 then some (p.1, addr - a) else none
    | none => none)

/-- The instance whose control block a store of n bytes touches. -/
def State.ctlHit (s : State) (addr n : Nat) : Option (Nat × Nat) := (List.range n).findSome? (fun i => s.ctlAt (addr + i))

/-- SQP as an instance's control block now holds it, taken by the module that serves it (10 R318). -/
def ctlWritten (key : Nat) (s : State) : State :=
  match look none s.vis key with
  | none => s
  | some v =>
    let p := le (s.readMem (pageAddr (v.ctlPage (key / 256))) 2) 0 2
    serveKey (s.setVi (key / 256) (key % 256) (some { v with sqp := p })) key

/-- A write to system SRAM by a partition, inside a region of it with W and above the watermark (15 R452, 16 R483), or
refused; one to a queue's spill region is ignored and recorded, the first of each second (03 R76). -/
def sramWrite (p addr width value : Nat) (s : State) : State :=
  match (s.spillAt addr).orElse (fun _ => s.spillAt (addr + width / 8 - 1)) with
  | some t => logFirst 5 0x02 t addr s
  | none =>
    if !s.inRegion p addr (width / 8) 1 || s.vaultAddr addr then storeRefused p addr width s
    else
      let s1 := s.writeMem addr (valueBytes width value)
      match s1.ctlHit addr (width / 8) with
      | some (key, _) => ctlWritten key s1
      | none => s1

/-- A write through the tile alias by a partition (15 R453): each pair of its seat that executes stores to its own tile
SRAM. A partition on performance cores has none, and an address below the watermark is refused (15 R452, 16 R483). -/
def tileWrite (p addr width value : Nat) (s : State) : State :=
  let tiles := (seatPairs (s.blk p)).filter (fun q =>
    [Role.single, .primary, .spare, .alone, .split].contains (s.pair q).role)
  if tiles.all (fun q => !s.vaultAddr (aliasAddr q addr)) ∧ tiles ≠ [] then
    tiles.foldl (fun s q => s.writeMem (aliasAddr q addr) (valueBytes width value)) s
  else storeRefused p addr width s

/-! ### Reads -/

/-- What a read of width bits at an address of the module's registers and windows returns: 0 where the access does not
pass (03 R78, 12 R378, 16 R484, R493). -/
def State.regRead (s : State) (who addr width : Nat) : Nat :=
  if 0x40000000 ≤ addr ∧ addr < 0x40020000 then s.pageRead who addr width
  else if width ≠ 32 ∨ addr % 4 ≠ 0 then 0
  else if 0x70000000 ≤ addr ∧ addr < 0x700C0000 then
    let n := (addr - 0x70000000) / 0x10000
    if s.boundTo who (s.canc n).owner then (s.canRead n (addr % 0x10000)).toNat else 0
  else if 0x60000000 ≤ addr ∧ addr < 0x60002000 then
    let x := s.slot ((addr - 0x60000000) / 0x80)
    if x.part.any (fun p => 0x100 + p == who) then (x.word (addr % 0x80)).toNat else 0
  else if 0x50001000 ≤ addr ∧ addr < 0x50002000 then (s.vaultWord (addr - 0x50001000)).toNat
  else 0

/-! ### The row -/

/-- A write of width bits to an address. -/
def regWrite (who addr width value : Nat) (s : State) : State :=
  if 0x40000000 ≤ addr ∧ addr < 0x40020000 then (if s.running 1 then pageWrite who addr width value s else s)
  else if 0x70000000 ≤ addr ∧ addr < 0x700C0000 then
    (if s.running 5 then
      canRegWrite who ((addr - 0x70000000) / 0x10000) (addr % 0x10000) width (wd value) s else s)
  else if 0x60000000 ≤ addr ∧ addr < 0x60002000 then mailboxWrite who (addr - 0x60000000) width (wd value) s
  else match partOfReq who with
  | none => s
  | some p =>
    if !storeOk width then s
    else if 0x20000000 ≤ addr ∧ addr < 0x21000000 then (if s.running 1 then sramWrite p addr width value s else s)
    else if 0x30100000 ≤ addr ∧ addr < 0x30140000 then (if s.running 0 then tileWrite p addr width value s else s)
    else if (0x30000000 ≤ addr ∧ addr < 0x30100000) ∨ (0x50000000 ≤ addr ∧ addr < 0x50002000) then s
    else storeRefused p addr width s

/-- REGISTER_WRITE (R13). -/
def execRegisterWrite (e : Stim) (who addr width value : Nat) (s : State) : Host.Outcome State Fault Refusal :=
  event e s (fun _ => true) (regWrite who addr width value)

end Sys2Proof.Machine
end

