-- ==== Sys2Proof/Machine/RelayCar.lean ====
section
/-!
DEFINITION. The relay's own commands to a peer (18 R558 to R560): the carriage of 03 R103 to R108 from the sending side.
Log entry 34.
-/

namespace Sys2Proof.Machine

/-! ### Frames to a peer (R558) -/

/-- A valid peer. -/
def State.peer? (s : State) (p : Nat) : Option ImgPeer := find? s.img.peer p

def State.setPeer (s : State) (p : Nat) (x : ImgPeer) : State := { s with img := { s.img with peer := put s.img.peer p x } }

/-- The tenant as which the module is known to a peer. -/
def ImgPeer.ten (x : ImgPeer) : Nat := fld (par x.words 0) 28 24

/-- Sends a frame to a peer: a command stays open until it is acknowledged. -/
def peerSend (p kind ackseq : Nat) (items : List (List Byte)) (s : State) : State :=
  match s.peer? p with
  | none => s
  | some x =>
    let a := x.assoc
    let head := carHeader kind x.ten 0 items.length a.txSeq [0, 0, 0, 0] ackseq
    let bs := carBytes a head items
    let o : OutFrame := { fseq := a.txSeq, kind := kind, slots := 0, bytes := bs, sentAt := s.clk }
    carSend a bs (s.setPeer p { x with assoc := { a with txSeq := (a.txSeq + 1) % 2 ^ 32
                                                         outs := if kind = 0 then a.outs ++ [o] else a.outs } })

/-! ### Commands (R559) -/

/-- A command packet of version 2 with NOTIFY = 1 (02 R37). -/
def relayPacket (t op seq : Nat) (ps : List Word) : List Byte :=
  let h := [(0x22 : Byte)] ++ bytesOf 1 t ++ bytesOf 2 op ++ bytesOf 2 seq ++ bytesOf 2 ps.length ++ bytesOf 6 0
  h ++ bytesOf 2 (crc16 h) ++ wordBytes ps

/-- SEQ of a relay's last command: COMP keeps the relays to one peer apart. -/
def ImgRelay.tag (r : ImgRelay) : Nat := r.comp * 256 + r.seq

/-- Sends a relay's next command. -/
def relayCmd (r : ImgRelay) (step : RelayStep) (op : Nat) (ps : List Word) (s : State) : State :=
  match s.peer? r.peer with
  | none => s
  | some x =>
    let r1 := { r with step := step, seq := (r.seq + 1) % 256, fseq := x.assoc.txSeq }
    peerSend r.peer 0 0 [relayPacket x.ten op r1.tag ps] (setRelay r1 s)

/-- Bytes of the package that the next IMG_DATA carries. -/
def ImgRelay.chunk (r : ImgRelay) : List Byte := (r.data.drop r.sent).take 4072

/-- IMG_DATA in ascending offset, then IMG_CLOSE. -/
def relayMore (r : ImgRelay) (s : State) : State :=
  let d := r.chunk
  if d = [] then relayCmd r .close 0x5803 [wd r.xfr] s
  else relayCmd r .data 0x5802 ([wd (r.xfr + d.length * 2 ^ 16), wd r.sent] ++ wordsOf ((d.length + 3) / 4) d) s

/-- An attempt that has yet to send anything begins with IMG_OFFER. -/
def relayGo (comp : Nat) (s : State) : State :=
  match s.relay? comp with
  | none => s
  | some r =>
    if r.active && r.step == .idle then relayCmd r .offer 0x5801 [wd comp, wd r.size, wd (mfLen r.data)] s else s

/-- An attempt ends; a relay that goes on to its next entry begins there. -/
def relayEnd (comp status : Nat) (s : State) : State := relayGo comp (relayOutcome comp status s)

/-- RELAY_START (R559). -/
def execRelayStart (e : Stim) (comp : Nat) (s : State) : Host.Outcome State Fault Refusal :=
  event e s (fun s => (s.relay? comp).any (fun r => r.entry == 0x3F))
    (fun s => match s.relay? comp with
      | some r => relayGo comp (relayNext r s)
      | none => s)

/-- RELAY_OUTCOME (R560): an outcome that no reply of the peer brings, as of one that does not answer. -/
def execRelayOutcome (e : Stim) (comp status : Nat) (s : State) : Host.Outcome State Fault Refusal :=
  event e s (fun s => (s.relay? comp).any (fun r => r.active)) (relayEnd comp status)

/-- RELAY_RETRY (R560). -/
def execRelayRetry (e : Stim) (comp : Nat) (s : State) : Host.Outcome State Fault Refusal :=
  event e s (fun s => (s.relay? comp).any (fun r => !r.active && r.entry != 0x3F && decide (r.failedAt + 10000000000 ≤ s.clk)))
    (fun s => match s.relay? comp with
      | some r => relayGo comp (setRelay { r with active := true, attempt := r.attempt + 1, step := .idle } s)
      | none => s)

/-! ### Frames from a peer (R558) -/

/-- The relay whose command a reply of a peer answers. -/
def State.relayOf (s : State) (p tag : Nat) : Option ImgRelay :=
  s.img.relay.find? (fun r => r.active && r.peer == p && r.step != .idle && r.tag == tag)

/-- A final reply takes the relay on: its transfer, the bytes taken, or the outcome of the attempt (R559, R560). An interim
one changes nothing. -/
def relayReply (p : Nat) (s : State) (b : List Byte) : State :=
  match s.relayOf p (le b 4 2) with
  | none => s
  | some r =>
    let st := le b 6 2
    if (le b 0 1).testBit 0 then s
    else if st ≠ 0 then relayEnd r.comp st s
    else match r.step with
    | .offer => relayMore { r with xfr := le b 16 4 % 4, sent := 0 } s
    | .data => relayMore { r with sent := r.sent + r.chunk.length } s
    | .close => relayEnd r.comp 0 s
    | .idle => s

/-- Cuts replies (02 R44) or notices (03 R92) out of a frame, with the tags that follow them. -/
def peerItems (cmac : Bool) (kind : Nat) : Nat → List Byte → Option (List (List Byte × List Byte))
  | 0, bs => if bs = [] then some [] else none
  | n + 1, bs =>
    let k := if kind = 1 then 20 + 4 * le bs 8 2 else 64
    let tag := if cmac then 8 else 0
    if bs.length < k + tag then none
    else (peerItems cmac kind n (bs.drop (k + tag))).map (fun l => (bs.take k, (bs.drop k).take tag) :: l)

/-- The items that verify; another is dropped and recorded (03 R105). -/
def peerVerify (a : Assoc) (head : List Byte) (items : List (List Byte × List Byte)) (s : State) : List (List Byte) × State :=
  let ok := fun (p : (List Byte × List Byte) × Nat) => !a.cmac || carTag a.keyIn head p.1.1 (some p.2) == p.1.2
  let l := items.zipIdx
  ((l.filter ok).map (·.1.1), (l.filter (fun p => !ok p)).foldl (fun s p => logObj 0x02 0xFF 0 (le head 4 4) p.2 s) s)

/-- A new frame of a peer with replies or notices: acknowledged, and its replies taken in order. -/
def peerTake (p : Nat) (x : ImgPeer) (head rest : List Byte) (s : State) : State :=
  let kind := le head 0 1 % 16
  match peerItems x.assoc.cmac kind (le head 3 1) rest with
  | none => s
  | some items =>
    let v := peerVerify x.assoc head items s
    if v.1 = [] then v.2
    else
      let s1 := peerSend p 3 (le head 4 4) [] (v.2.setPeer p { x with assoc := x.assoc.accept (le head 4 4) })
      if kind = 1 then v.1.foldl (relayReply p) s1 else s1

/-- A command frame is acknowledged. -/
def peerAcked (p fseq : Nat) (s : State) : State :=
  match s.peer? p with
  | none => s
  | some x => s.setPeer p { x with assoc := { x.assoc with outs := x.assoc.outs.filter (fun o => o.fseq != fseq) } }

/-- A frame of a peer arrives. An acknowledge with ACKSTAT 1 or 2 leaves the command open, to be sent again. -/
def peerReceive (p : Nat) (x : ImgPeer) (f : Carriage) (s : State) : State :=
  let head := f.bytes.take 20
  let rest := f.bytes.drop 20
  let kind := le head 0 1 % 16
  let fseq := le head 4 4
  match x.assoc.seqCase fseq with
  | .replay => s
  | .seen => if kind = 3 then s else peerSend p 3 fseq [] s
  | .fresh =>
    if kind ≠ 3 then peerTake p x head rest s
    else if le head 3 1 = 0 && carBare x.assoc head rest then
      let s1 := s.setPeer p { x with assoc := x.assoc.accept fseq }
      if le head 2 1 = 0 then peerAcked p (le head 16 4) s1 else s1
    else s

/-- The peer from whose association a frame comes: with replies or notices, or with an acknowledge of a command open there
(DESIGN CHOICE, log 34: a module may be a peer and a remote tenant at once). -/
def State.peerFor (s : State) (f : Carriage) : Option Nat :=
  let head := f.bytes.take 20
  let kind := le head 0 1 % 16
  (List.range 16).find? (fun p => (s.peer? p).any (fun x =>
    let a := x.assoc
    head.length == 20 && le head 0 1 / 16 == 1 && le head 1 1 == x.ten && f.port == a.port && f.src == a.mac &&
      (a.cmac || f.rxsc == some a.rxsc) &&
      (kind == 1 || kind == 2 || (kind == 3 && a.outs.any (fun o => o.fseq == le head 16 4)))))

/-- A carriage frame arrives: of a peer, or of a remote tenant. -/
def carHeard (f : Carriage) (s : State) : State :=
  match s.peerFor f with
  | some p => match s.peer? p with
    | some x => peerReceive p x f s
    | none => s
  | none => carReceive f s

/-- CARRIAGE_FRAME_RECEIVED (03 R103; R558). -/
def execCarriageFrameReceived (e : Stim) (f : Carriage) (s : State) : Host.Outcome State Fault Refusal :=
  event e s (fun s => s.alive 3 && decide (f.port < 14)) (carHeard f)

/-! ### Retransmission (03 R108) -/

/-- A frame of an association is sent again. -/
def resent (fseq now : Nat) (a : Assoc) : Assoc :=
  { a with outs := a.outs.map (fun y => if y.fseq = fseq then { y with sends := y.sends + 1, sentAt := now } else y) }

/-- The frame of an association that is due to be sent again or abandoned. -/
def Assoc.dueOut (a : Assoc) (fseq now : Nat) : Option OutFrame :=
  a.outs.find? (fun o => o.fseq == fseq && !o.acked && decide (o.sentAt + 1000000 ≤ now))

/-- A frame to a remote tenant is due: after the eighth transmission it is abandoned, which faults the tenant (04 R121). -/
def tenResend (t fseq : Nat) (s : State) : State :=
  match (s.tenant t).assoc with
  | none => s
  | some a =>
    match a.dueOut fseq s.clk with
    | none => s
    | some o => if o.sends < 8 then carSend a o.bytes (s.setAssoc t (resent fseq s.clk a)) else tenFault t 2 (abandonOut t o s)

/-- A command frame to a peer is due: after the eighth transmission it is abandoned, a failure of the attempt (R560). -/
def peerResend (p fseq : Nat) (s : State) : State :=
  match s.peer? p with
  | none => s
  | some x =>
    match x.assoc.dueOut fseq s.clk with
    | none => s
    | some o =>
      if o.sends < 8 then carSend x.assoc o.bytes (s.setPeer p { x with assoc := resent fseq s.clk x.assoc })
      else
        let s1 := peerAcked p fseq s
        match s1.img.relay.find? (fun r => r.active && r.peer == p && r.step != .idle && r.fseq == fseq) with
        | some r => relayEnd r.comp 0x500 s1
        | none => s1

/-- CARRIAGE_RETRANSMIT (03 R108; R558): 1 ms after the last transmission, to a remote tenant, or from t = 32 on to peer
t − 32. -/
def execCarriageRetransmit (e : Stim) (t fseq : Nat) (s : State) : Host.Outcome State Fault Refusal :=
  event e s (fun s => s.alive 3) (if t < 32 then tenResend t fseq else peerResend (t - 32) fseq)

end Sys2Proof.Machine
end

