-- ==== Sys2Proof/Machine/Dispatch.lean ====
section
/-!
DEFINITION. One meaning per command: exec hands every command to its meaning.
-/

namespace Sys2Proof.Machine

/-- The effect of a command on everything but the queue. -/
def exec (i : Instr) (s : State) : Host.Outcome State Fault Refusal :=
  match i with
  | .sysEcho e r => Sys2Proof.Machine.execSysEcho e r s
  | .sysCancel e r => Sys2Proof.Machine.execSysCancel e r s
  | .sysIdentity e r => Sys2Proof.Machine.execSysIdentity e r s
  | .sysLimits e r => Sys2Proof.Machine.execSysLimits e r s
  | .sysIslandCtl e r => Sys2Proof.Machine.execSysIslandCtl e r s
  | .sysIslandStatus e r => Sys2Proof.Machine.execSysIslandStatus e r s
  | .tenCreate e r => Sys2Proof.Machine.execTenCreate e r s
  | .tenDelete e r => Sys2Proof.Machine.execTenDelete e r s
  | .tenQuery e r => Sys2Proof.Machine.execTenQuery e r s
  | .tenShare e r => Sys2Proof.Machine.execTenShare e r s
  | .tenRights e r => Sys2Proof.Machine.execTenRights e r s
  | .tenReset e r => Sys2Proof.Machine.execTenReset e r s
  | .tenBind e r => Sys2Proof.Machine.execTenBind e r s
  | .tenResume e r => Sys2Proof.Machine.execTenResume e r s
  | .tenViCreate e r => Sys2Proof.Machine.execTenViCreate e r s
  | .tenViDelete e r => Sys2Proof.Machine.execTenViDelete e r s
  | .tenViReset e r => Sys2Proof.Machine.execTenViReset e r s
  | .tenViQuery e r => Sys2Proof.Machine.execTenViQuery e r s
  | .tenIslandEnable e r => Sys2Proof.Machine.execTenIslandEnable e r s
  | .queConfig e r => Sys2Proof.Machine.execQueConfig e r s
  | .queFlush e r => Sys2Proof.Machine.execQueFlush e r s
  | .queStatus e r => Sys2Proof.Machine.execQueStatus e r s
  | .queLevel e r => Sys2Proof.Machine.execQueLevel e r s
  | .queClear e r => Sys2Proof.Machine.execQueClear e r s
  | .pwrConfig e r => Sys2Proof.Machine.execPwrConfig e r s
  | .pwrReadConfig e r => Sys2Proof.Machine.execPwrReadConfig e r s
  | .pwrAssign e r => Sys2Proof.Machine.execPwrAssign e r s
  | .pwrSwitch e r => Sys2Proof.Machine.execPwrSwitch e r s
  | .pwrDuty e r => Sys2Proof.Machine.execPwrDuty e r s
  | .pwrClear e r => Sys2Proof.Machine.execPwrClear e r s
  | .pwrStatus e r => Sys2Proof.Machine.execPwrStatus e r s
  | .purWire e r => Sys2Proof.Machine.execPurWire e r s
  | .purReadWire e r => Sys2Proof.Machine.execPurReadWire e r s
  | .purStatus e r => Sys2Proof.Machine.execPurStatus e r s
  | .purChannel e r => Sys2Proof.Machine.execPurChannel e r s
  | .purLimits e r => Sys2Proof.Machine.execPurLimits e r s
  | .lmpPolicy e r => Sys2Proof.Machine.execLmpPolicy e r s
  | .lmpReclaim e r => Sys2Proof.Machine.execLmpReclaim e r s
  | .lmpStatus e r => Sys2Proof.Machine.execLmpStatus e r s
  | .lmpReadPolicy e r => Sys2Proof.Machine.execLmpReadPolicy e r s
  | .lmpEnter e r => Sys2Proof.Machine.execLmpEnter e r s
  | .fioInConfig e r => Sys2Proof.Machine.execFioInConfig e r s
  | .fioReadConfig e r => Sys2Proof.Machine.execFioReadConfig e r s
  | .fioAssign e r => Sys2Proof.Machine.execFioAssign e r s
  | .fioOutConfig e r => Sys2Proof.Machine.execFioOutConfig e r s
  | .fioInState e r => Sys2Proof.Machine.execFioInState e r s
  | .fioEdges e r => Sys2Proof.Machine.execFioEdges e r s
  | .fioOut e r => Sys2Proof.Machine.execFioOut e r s
  | .fioOutClear e r => Sys2Proof.Machine.execFioOutClear e r s
  | .fioOutStatus e r => Sys2Proof.Machine.execFioOutStatus e r s
  | .meaAiConfig e r => Sys2Proof.Machine.execMeaAiConfig e r s
  | .meaSeqAssign e r => Sys2Proof.Machine.execMeaSeqAssign e r s
  | .meaSeqConfig e r => Sys2Proof.Machine.execMeaSeqConfig e r s
  | .meaRun e r => Sys2Proof.Machine.execMeaRun e r s
  | .meaResults e r => Sys2Proof.Machine.execMeaResults e r s
  | .meaConvert e r => Sys2Proof.Machine.execMeaConvert e r s
  | .timNow e r => Sys2Proof.Machine.execTimNow e r s
  | .timStatus e r => Sys2Proof.Machine.execTimStatus e r s
  | .timDomain e r => Sys2Proof.Machine.execTimDomain e r s
  | .timSet e r => Sys2Proof.Machine.execTimSet e r s
  | .timPortlat e r => Sys2Proof.Machine.execTimPortlat e r s
  | .timPps e r => Sys2Proof.Machine.execTimPps e r s
  | .timPpsin e r => Sys2Proof.Machine.execTimPpsin e r s
  | .timTrigAssign e r => Sys2Proof.Machine.execTimTrigAssign e r s
  | .timTrigConfig e r => Sys2Proof.Machine.execTimTrigConfig e r s
  | .timTrigArm e r => Sys2Proof.Machine.execTimTrigArm e r s
  | .timTrigStatus e r => Sys2Proof.Machine.execTimTrigStatus e r s
  | .timTxqAssign e r => Sys2Proof.Machine.execTimTxqAssign e r s
  | .timTxstamps e r => Sys2Proof.Machine.execTimTxstamps e r s
  | .timAlarm e r => Sys2Proof.Machine.execTimAlarm e r s
  | .timCanref e r => Sys2Proof.Machine.execTimCanref e r s
  | .netPortConfig e r => Sys2Proof.Machine.execNetPortConfig e r s
  | .netPortCtl e r => Sys2Proof.Machine.execNetPortCtl e r s
  | .netQueueConfig e r => Sys2Proof.Machine.execNetQueueConfig e r s
  | .netVlan e r => Sys2Proof.Machine.execNetVlan e r s
  | .netEtype e r => Sys2Proof.Machine.execNetEtype e r s
  | .netFdbAdd e r => Sys2Proof.Machine.execNetFdbAdd e r s
  | .netFdbDel e r => Sys2Proof.Machine.execNetFdbDel e r s
  | .netFdbFlush e r => Sys2Proof.Machine.execNetFdbFlush e r s
  | .netFdbLookup e r => Sys2Proof.Machine.execNetFdbLookup e r s
  | .netFdbAge e r => Sys2Proof.Machine.execNetFdbAge e r s
  | .netPortStatus e r => Sys2Proof.Machine.execNetPortStatus e r s
  | .netCounters e r => Sys2Proof.Machine.execNetCounters e r s
  | .netBuffer e r => Sys2Proof.Machine.execNetBuffer e r s
  | .tsnCsOpen e r => Sys2Proof.Machine.execTsnCsOpen e r s
  | .tsnCsCommit e r => Sys2Proof.Machine.execTsnCsCommit e r s
  | .tsnCsAbort e r => Sys2Proof.Machine.execTsnCsAbort e r s
  | .tsnStream e r => Sys2Proof.Machine.execTsnStream e r s
  | .tsnStreamRead e r => Sys2Proof.Machine.execTsnStreamRead e r s
  | .tsnStreamStatus e r => Sys2Proof.Machine.execTsnStreamStatus e r s
  | .tsnStreamClear e r => Sys2Proof.Machine.execTsnStreamClear e r s
  | .tsnGcl e r => Sys2Proof.Machine.execTsnGcl e r s
  | .tsnCbs e r => Sys2Proof.Machine.execTsnCbs e r s
  | .tsnPortStatus e r => Sys2Proof.Machine.execTsnPortStatus e r s
  | .tsnMacsecPort e r => Sys2Proof.Machine.execTsnMacsecPort e r s
  | .tsnSa e r => Sys2Proof.Machine.execTsnSa e r s
  | .tsnRxsc e r => Sys2Proof.Machine.execTsnRxsc e r s
  | .tsnTxsaSelect e r => Sys2Proof.Machine.execTsnTxsaSelect e r s
  | .tsnMacsecStatus e r => Sys2Proof.Machine.execTsnMacsecStatus e r s
  | .busAssign e r => Sys2Proof.Machine.execBusAssign e r s
  | .busCtl e r => Sys2Proof.Machine.execBusCtl e r s
  | .busCanConfig e r => Sys2Proof.Machine.execBusCanConfig e r s
  | .busCanFilter e r => Sys2Proof.Machine.execBusCanFilter e r s
  | .busCanStatus e r => Sys2Proof.Machine.execBusCanStatus e r s
  | .busCanTx e r => Sys2Proof.Machine.execBusCanTx e r s
  | .busCanRx e r => Sys2Proof.Machine.execBusCanRx e r s
  | .busCanTxe e r => Sys2Proof.Machine.execBusCanTxe e r s
  | .busLinConfig e r => Sys2Proof.Machine.execBusLinConfig e r s
  | .busLinFrames e r => Sys2Proof.Machine.execBusLinFrames e r s
  | .busLinSchedule e r => Sys2Proof.Machine.execBusLinSchedule e r s
  | .busLinRun e r => Sys2Proof.Machine.execBusLinRun e r s
  | .busLinData e r => Sys2Proof.Machine.execBusLinData e r s
  | .busLinRead e r => Sys2Proof.Machine.execBusLinRead e r s
  | .busLinStatus e r => Sys2Proof.Machine.execBusLinStatus e r s
  | .busLinSleep e r => Sys2Proof.Machine.execBusLinSleep e r s
  | .busLinWake e r => Sys2Proof.Machine.execBusLinWake e r s
  | .gwyRoute e r => Sys2Proof.Machine.execGwyRoute e r s
  | .gwyRouteRead e r => Sys2Proof.Machine.execGwyRouteRead e r s
  | .gwyAcf e r => Sys2Proof.Machine.execGwyAcf e r s
  | .gwyAcfStatus e r => Sys2Proof.Machine.execGwyAcfStatus e r s
  | .gwyQueue e r => Sys2Proof.Machine.execGwyQueue e r s
  | .gwyStatus e r => Sys2Proof.Machine.execGwyStatus e r s
  | .nmgRingConfig e r => Sys2Proof.Machine.execNmgRingConfig e r s
  | .nmgCluster e r => Sys2Proof.Machine.execNmgCluster e r s
  | .nmgRequest e r => Sys2Proof.Machine.execNmgRequest e r s
  | .nmgStatus e r => Sys2Proof.Machine.execNmgStatus e r s
  | .nmgWakeConfig e r => Sys2Proof.Machine.execNmgWakeConfig e r s
  | .nmgWakeCause e r => Sys2Proof.Machine.execNmgWakeCause e r s
  | .cpuPartConfig e r => Sys2Proof.Machine.execCpuPartConfig e r s
  | .cpuPartCtl e r => Sys2Proof.Machine.execCpuPartCtl e r s
  | .cpuPartStatus e r => Sys2Proof.Machine.execCpuPartStatus e r s
  | .cpuPairStatus e r => Sys2Proof.Machine.execCpuPairStatus e r s
  | .cpuDebug e r => Sys2Proof.Machine.execCpuDebug e r s
  | .cpuResync e r => Sys2Proof.Machine.execCpuResync e r s
  | .cpuInject e r => Sys2Proof.Machine.execCpuInject e r s
  | .cpuMemStatus e r => Sys2Proof.Machine.execCpuMemStatus e r s
  | .vltStatus e r => Sys2Proof.Machine.execVltStatus e r s
  | .vltConfig e r => Sys2Proof.Machine.execVltConfig e r s
  | .vltMboxAssign e r => Sys2Proof.Machine.execVltMboxAssign e r s
  | .vltRestart e r => Sys2Proof.Machine.execVltRestart e r s
  | .vltMeasure e r => Sys2Proof.Machine.execVltMeasure e r s
  | .vltRandom e r => Sys2Proof.Machine.execVltRandom e r s
  | .vltHash e r => Sys2Proof.Machine.execVltHash e r s
  | .vltMac e r => Sys2Proof.Machine.execVltMac e r s
  | .vltCipher e r => Sys2Proof.Machine.execVltCipher e r s
  | .vltAead e r => Sys2Proof.Machine.execVltAead e r s
  | .vltSign e r => Sys2Proof.Machine.execVltSign e r s
  | .vltVerify e r => Sys2Proof.Machine.execVltVerify e r s
  | .vltKex e r => Sys2Proof.Machine.execVltKex e r s
  | .vltKeyGen e r => Sys2Proof.Machine.execVltKeyGen e r s
  | .vltKeyImport e r => Sys2Proof.Machine.execVltKeyImport e r s
  | .vltKeyPublic e r => Sys2Proof.Machine.execVltKeyPublic e r s
  | .vltKeyDelete e r => Sys2Proof.Machine.execVltKeyDelete e r s
  | .vltKeyInfo e r => Sys2Proof.Machine.execVltKeyInfo e r s
  | .vltCert e r => Sys2Proof.Machine.execVltCert e r s
  | .vltLcNonce e r => Sys2Proof.Machine.execVltLcNonce e r s
  | .vltLcAdvance e r => Sys2Proof.Machine.execVltLcAdvance e r s
  | .stoFormat e r => Sys2Proof.Machine.execStoFormat e r s
  | .stoVolConfig e r => Sys2Proof.Machine.execStoVolConfig e r s
  | .stoStatus e r => Sys2Proof.Machine.execStoStatus e r s
  | .stoRead e r => Sys2Proof.Machine.execStoRead e r s
  | .stoWrite e r => Sys2Proof.Machine.execStoWrite e r s
  | .stoTrim e r => Sys2Proof.Machine.execStoTrim e r s
  | .stoGroupOpen e r => Sys2Proof.Machine.execStoGroupOpen e r s
  | .stoGroupCommit e r => Sys2Proof.Machine.execStoGroupCommit e r s
  | .stoGroupAbort e r => Sys2Proof.Machine.execStoGroupAbort e r s
  | .stoEscrowConfig e r => Sys2Proof.Machine.execStoEscrowConfig e r s
  | .stoEscrowStatus e r => Sys2Proof.Machine.execStoEscrowStatus e r s
  | .stoEscrowMeasure e r => Sys2Proof.Machine.execStoEscrowMeasure e r s
  | .stoPatrol e r => Sys2Proof.Machine.execStoPatrol e r s
  | .logStatus e r => Sys2Proof.Machine.execLogStatus e r s
  | .logRead e r => Sys2Proof.Machine.execLogRead e r s
  | .logCheckpoint e r => Sys2Proof.Machine.execLogCheckpoint e r s
  | .logWrite e r => Sys2Proof.Machine.execLogWrite e r s
  | .imgOffer e r => Sys2Proof.Machine.execImgOffer e r s
  | .imgData e r => Sys2Proof.Machine.execImgData e r s
  | .imgClose e r => Sys2Proof.Machine.execImgClose e r s
  | .imgConfirm e r => Sys2Proof.Machine.execImgConfirm e r s
  | .imgActivate e r => Sys2Proof.Machine.execImgActivate e r s
  | .imgRevert e r => Sys2Proof.Machine.execImgRevert e r s
  | .imgStatus e r => Sys2Proof.Machine.execImgStatus e r s
  | .imgPeer e r => Sys2Proof.Machine.execImgPeer e r s
  | .imgAbort e r => Sys2Proof.Machine.execImgAbort e r s
  | .imgConfig e r => Sys2Proof.Machine.execImgConfig e r s
  | .tstAuditRun e r => Sys2Proof.Machine.execTstAuditRun e r s
  | .tstSummary e r => Sys2Proof.Machine.execTstSummary e r s
  | .tstDetail e r => Sys2Proof.Machine.execTstDetail e r s
  | .tstFaultStatus e r => Sys2Proof.Machine.execTstFaultStatus e r s
  | .tstFaultClear e r => Sys2Proof.Machine.execTstFaultClear e r s
  | .tstFaultMask e r => Sys2Proof.Machine.execTstFaultMask e r s
  | .doorbell e who t q value => Sys2Proof.Machine.execDoorbell e who t q value s
  | .flush e who t q value => Sys2Proof.Machine.execFlush e who t q value s
  | .qStatusClear e who t q value => Sys2Proof.Machine.execQStatusClear e who t q value s
  | .registerWrite e who addr width value => Sys2Proof.Machine.execRegisterWrite e who addr width value s
  | .dispatch e => Sys2Proof.Machine.execDispatch e s
  | .notbeforeReached e => Sys2Proof.Machine.execNotbeforeReached e s
  | .heldReplyPosted e t => Sys2Proof.Machine.execHeldReplyPosted e t s
  | .pointerCheck e t q prod ptr inv => Sys2Proof.Machine.execPointerCheck e t q prod ptr inv s
  | .carriageFrameReceived e f => Sys2Proof.Machine.execCarriageFrameReceived e f s
  | .carriageSend e t => Sys2Proof.Machine.execCarriageSend e t s
  | .carriageRetransmit e t fseq => Sys2Proof.Machine.execCarriageRetransmit e t fseq s
  | .tenResetDone e t => Sys2Proof.Machine.execTenResetDone e t s
  | .viResetComplete e kind idx => Sys2Proof.Machine.execViResetComplete e kind idx s
  | .clockLoss e isl => Sys2Proof.Machine.execClockLoss e isl s
  | .clockReturn e isl => Sys2Proof.Machine.execClockReturn e isl s
  | .quiescenceReached e fn => Sys2Proof.Machine.execQuiescenceReached e fn s
  | .forcedShutdown e fn => Sys2Proof.Machine.execForcedShutdown e fn s
  | .islandRunReached e fn => Sys2Proof.Machine.execIslandRunReached e fn s
  | .slewStart e ch => Sys2Proof.Machine.execSlewStart e ch s
  | .turnOnSlewEnd e ch => Sys2Proof.Machine.execTurnOnSlewEnd e ch s
  | .turnOffSlewEnd e ch => Sys2Proof.Machine.execTurnOffSlewEnd e ch s
  | .inrushWindowEnd e ch => Sys2Proof.Machine.execInrushWindowEnd e ch s
  | .overcurrentTrip e ch => Sys2Proof.Machine.execOvercurrentTrip e ch s
  | .shortCircuitTrip e ch => Sys2Proof.Machine.execShortCircuitTrip e ch s
  | .thermalLatchSet e sw => Sys2Proof.Machine.execThermalLatchSet e sw s
  | .thermalLatchRelease e sw => Sys2Proof.Machine.execThermalLatchRelease e sw s
  | .wireTrip e ch => Sys2Proof.Machine.execWireTrip e ch s
  | .wireLatchRelease e ch => Sys2Proof.Machine.execWireLatchRelease e ch s
  | .reverseCurrent e ch present => Sys2Proof.Machine.execReverseCurrent e ch present s
  | .driverFault e ch => Sys2Proof.Machine.execDriverFault e ch s
  | .blockCheck e ch wire found => Sys2Proof.Machine.execBlockCheck e ch wire found s
  | .retryDue e ch => Sys2Proof.Machine.execRetryDue e ch s
  | .onStableReload e ch => Sys2Proof.Machine.execOnStableReload e ch s
  | .openLoadCount e ch below => Sys2Proof.Machine.execOpenLoadCount e ch below s
  | .offStateCycle e ch aboveIpu aboveNone => Sys2Proof.Machine.execOffStateCycle e ch aboveIpu aboveNone s
  | .pwmPeriodBoundary e ch => Sys2Proof.Machine.execPwmPeriodBoundary e ch s
  | .feedLoss e die => Sys2Proof.Machine.execFeedLoss e die s
  | .feedReturn e die => Sys2Proof.Machine.execFeedReturn e die s
  | .purseEvaluation e => Sys2Proof.Machine.execPurseEvaluation e s
  | .overdrawWindowEnd e ch n => Sys2Proof.Machine.execOverdrawWindowEnd e ch n s
  | .yarrowEntry e die cause => Sys2Proof.Machine.execYarrowEntry e die cause s
  | .heartbeatLoss e die => Sys2Proof.Machine.execHeartbeatLoss e die s
  | .logicResetIndication e => Sys2Proof.Machine.execLogicResetIndication e s
  | .limpNLow e => Sys2Proof.Machine.execLimpNLow e s
  | .safeNLow e => Sys2Proof.Machine.execSafeNLow e s
  | .linkLostDeclared e die => Sys2Proof.Machine.execLinkLostDeclared e die s
  | .holdExpiry e ch => Sys2Proof.Machine.execHoldExpiry e ch s
  | .lhPinChange e die pin level => Sys2Proof.Machine.execLhPinChange e die pin level s
  | .reclaimComplete e => Sys2Proof.Machine.execReclaimComplete e s
  | .fieldOutputSwitch e fo => Sys2Proof.Machine.execFieldOutputSwitch e fo s
  | .fieldOutputLimit e fo => Sys2Proof.Machine.execFieldOutputLimit e fo s
  | .fieldOutputThermal e fo => Sys2Proof.Machine.execFieldOutputThermal e fo s
  | .fieldOutputThermalRelease e fo => Sys2Proof.Machine.execFieldOutputThermalRelease e fo s
  | .fieldOutputDriverFault e fo => Sys2Proof.Machine.execFieldOutputDriverFault e fo s
  | .fieldOutputOpenLoad e fo below => Sys2Proof.Machine.execFieldOutputOpenLoad e fo below s
  | .rawTransition e fi v => Sys2Proof.Machine.execRawTransition e fi v s
  | .debounceExpiry e fi => Sys2Proof.Machine.execDebounceExpiry e fi s
  | .countWindowPublish e fi => Sys2Proof.Machine.execCountWindowPublish e fi s
  | .sequenceTrigger e seq => Sys2Proof.Machine.execSequenceTrigger e seq s
  | .sequenceRunEnd e seq codes => Sys2Proof.Machine.execSequenceRunEnd e seq codes s
  | .syncReceived e inst offset gm port => Sys2Proof.Machine.execSyncReceived e inst offset gm port s
  | .syncTimeout e => Sys2Proof.Machine.execSyncTimeout e s
  | .holdoverExpiry e => Sys2Proof.Machine.execHoldoverExpiry e s
  | .tnsWrap e => Sys2Proof.Machine.execTnsWrap e s
  | .secondWindowEnd e => Sys2Proof.Machine.execSecondWindowEnd e s
  | .triggerFiring e tt => Sys2Proof.Machine.execTriggerFiring e tt s
  | .tallyAlarmFire e => Sys2Proof.Machine.execTallyAlarmFire e s
  | .ppsOutPulse e => Sys2Proof.Machine.execPpsOutPulse e s
  | .ppsInEdge e => Sys2Proof.Machine.execPpsInEdge e s
  | .canrefFup e can => Sys2Proof.Machine.execCanrefFup e can s
  | .frameReceived e fs => Sys2Proof.Machine.execFrameReceived e fs s
  | .frameQueued e id => Sys2Proof.Machine.execFrameQueued e id s
  | .transmissionStart e port => Sys2Proof.Machine.execTransmissionStart e port s
  | .transmissionEnd e port => Sys2Proof.Machine.execTransmissionEnd e port s
  | .linkDown e port => Sys2Proof.Machine.execLinkDown e port s
  | .linkUp e port => Sys2Proof.Machine.execLinkUp e port s
  | .holdExpire e port => Sys2Proof.Machine.execHoldExpire e port s
  | .fdbAgeing e mac vid => Sys2Proof.Machine.execFdbAgeing e mac vid s
  | .sqpWrite e who kind idx sqp => Sys2Proof.Machine.execSqpWrite e who kind idx sqp s
  | .transferComplete e d badAt => Sys2Proof.Machine.execTransferComplete e d badAt s
  | .gateEntryChange e gk => Sys2Proof.Machine.execGateEntryChange e gk s
  | .changeSetSwitch e => Sys2Proof.Machine.execChangeSetSwitch e s
  | .gateListSwitch e gk => Sys2Proof.Machine.execGateListSwitch e gk s
  | .changeSetComplete e => Sys2Proof.Machine.execChangeSetComplete e s
  | .recoveryReset e sid => Sys2Proof.Machine.execRecoveryReset e sid s
  | .txfPut e who can value => Sys2Proof.Machine.execTxfPut e who can value s
  | .txbReq e who can value => Sys2Proof.Machine.execTxbReq e who can value s
  | .txbCancel e who can value => Sys2Proof.Machine.execTxbCancel e who can value s
  | .txbDoneClear e who can value => Sys2Proof.Machine.execTxbDoneClear e who can value s
  | .flagsClear e who can value => Sys2Proof.Machine.execFlagsClear e who can value s
  | .messageRamWrite e who can off value => Sys2Proof.Machine.execMessageRamWrite e who can off value s
  | .txeHeadRead e who can => Sys2Proof.Machine.execTxeHeadRead e who can s
  | .headerWord0Read e who can buf => Sys2Proof.Machine.execHeaderWord0Read e who can buf s
  | .lastWordRead e who can buf => Sys2Proof.Machine.execLastWordRead e who can buf s
  | .lockExpiry e can => Sys2Proof.Machine.execLockExpiry e can s
  | .canFrameReceived e can f ago => Sys2Proof.Machine.execCanFrameReceived e can f ago s
  | .canArbitration e can => Sys2Proof.Machine.execCanArbitration e can s
  | .canTransmitOutcome e can outcome tdcv => Sys2Proof.Machine.execCanTransmitOutcome e can outcome tdcv s
  | .canError e can lec tx alt => Sys2Proof.Machine.execCanError e can lec tx alt s
  | .busOffRecovery e can => Sys2Proof.Machine.execBusOffRecovery e can s
  | .lonePauseEnd e can => Sys2Proof.Machine.execLonePauseEnd e can s
  | .linSlotStart e lin => Sys2Proof.Machine.execLinSlotStart e lin s
  | .linResponseEnd e lin status data => Sys2Proof.Machine.execLinResponseEnd e lin status data s
  | .linResponderSleep e lin => Sys2Proof.Machine.execLinResponderSleep e lin s
  | .linWakeDetect e lin => Sys2Proof.Machine.execLinWakeDetect e lin s
  | .gatewayLookup e => Sys2Proof.Machine.execGatewayLookup e s
  | .acfPduSend e ctx => Sys2Proof.Machine.execAcfPduSend e ctx s
  | .acfPduReceived e pdu => Sys2Proof.Machine.execAcfPduReceived e pdu s
  | .ringMessageReceived e ring m => Sys2Proof.Machine.execRingMessageReceived e ring m s
  | .ringSend e ring => Sys2Proof.Machine.execRingSend e ring s
  | .ringSilence e ring => Sys2Proof.Machine.execRingSilence e ring s
  | .aliveSend e ring => Sys2Proof.Machine.execAliveSend e ring s
  | .veto e ring => Sys2Proof.Machine.execVeto e ring s
  | .prepareEnd e ring => Sys2Proof.Machine.execPrepareEnd e ring s
  | .releaseComplete e ring => Sys2Proof.Machine.execReleaseComplete e ring s
  | .clusterFrameReceived e ring node m => Sys2Proof.Machine.execClusterFrameReceived e ring node m s
  | .clusterFrameSend e ring => Sys2Proof.Machine.execClusterFrameSend e ring s
  | .pnSleepEntry e ring => Sys2Proof.Machine.execPnSleepEntry e ring s
  | .pntoExpiry e ring => Sys2Proof.Machine.execPntoExpiry e ring s
  | .wake e cause src => Sys2Proof.Machine.execWake e cause src s
  | .decoderSilence e can => Sys2Proof.Machine.execDecoderSilence e can s
  | .partitionStart e p => Sys2Proof.Machine.execPartitionStart e p s
  | .comparatorTrip e trip cause => Sys2Proof.Machine.execComparatorTrip e trip cause s
  | .injectedMismatchTest e pair pass => Sys2Proof.Machine.execInjectedMismatchTest e pair pass s
  | .stateSignatureSweep e pair equal => Sys2Proof.Machine.execStateSignatureSweep e pair equal s
  | .resyncHandover e pair cause => Sys2Proof.Machine.execResyncHandover e pair cause s
  | .coreStorageError e pc => Sys2Proof.Machine.execCoreStorageError e pc s
  | .debugHaltRequest e req => Sys2Proof.Machine.execDebugHaltRequest e req s
  | .patrolRead e addr kind => Sys2Proof.Machine.execPatrolRead e addr kind s
  | .uncorrectableRead e who addr => Sys2Proof.Machine.execUncorrectableRead e who addr s
  | .tallyRead e rd => Sys2Proof.Machine.execTallyRead e rd s
  | .csrWriteTrap e hart csr => Sys2Proof.Machine.execCsrWriteTrap e hart csr s
  | .accessRefused e who addr acc => Sys2Proof.Machine.execAccessRefused e who addr acc s
  | .ecall e hart => Sys2Proof.Machine.execEcall e hart s
  | .wmRaise e idx value => Sys2Proof.Machine.execWmRaise e idx value s
  | .wmLower e idx value => Sys2Proof.Machine.execWmLower e idx value s
  | .wmRefusedClear e idx value => Sys2Proof.Machine.execWmRefusedClear e idx value s
  | .zeroiseComplete e idx => Sys2Proof.Machine.execZeroiseComplete e idx s
  | .vgateStore e hart width value x => Sys2Proof.Machine.execVgateStore e hart width value x s
  | .gateReturn e hart => Sys2Proof.Machine.execGateReturn e hart s
  | .mbPost e who slot => Sys2Proof.Machine.execMbPost e who slot s
  | .mbRelease e who slot => Sys2Proof.Machine.execMbRelease e who slot s
  | .mailboxServe e => Sys2Proof.Machine.execMailboxServe e s
  | .mailboxDone e => Sys2Proof.Machine.execMailboxDone e s
  | .vaultRestart e cause => Sys2Proof.Machine.execVaultRestart e cause s
  | .vaultHang e => Sys2Proof.Machine.execVaultHang e s
  | .vaultRunning e digest => Sys2Proof.Machine.execVaultRunning e digest s
  | .drbgReseed e failed => Sys2Proof.Machine.execDrbgReseed e failed s
  | .fuseWriteComplete e => Sys2Proof.Machine.execFuseWriteComplete e s
  | .vaultClaimRelease e => Sys2Proof.Machine.execVaultClaimRelease e s
  | .idread e => Sys2Proof.Machine.execIdread e s
  | .dbgnonce e => Sys2Proof.Machine.execDbgnonce e s
  | .dbgauth e token => Sys2Proof.Machine.execDbgauth e token s
  | .dbgend e => Sys2Proof.Machine.execDbgend e s
  | .stxStart e ce0 ce1 marks => Sys2Proof.Machine.execStxStart e ce0 ce1 marks s
  | .escrowEvaluation e => Sys2Proof.Machine.execEscrowEvaluation e s
  | .pageProgramEnd e cmd => Sys2Proof.Machine.execPageProgramEnd e cmd s
  | .journalRecordEnd e cmd => Sys2Proof.Machine.execJournalRecordEnd e cmd s
  | .commitTimeout e cmd => Sys2Proof.Machine.execCommitTimeout e cmd s
  | .bankSample e mv => Sys2Proof.Machine.execBankSample e mv s
  | .escrowMeasureEnd e drop => Sys2Proof.Machine.execEscrowMeasureEnd e drop s
  | .programFailure e vol page => Sys2Proof.Machine.execProgramFailure e vol page s
  | .nandPatrol e vol page result => Sys2Proof.Machine.execNandPatrol e vol page result s
  | .wearLevelMove e => Sys2Proof.Machine.execWearLevelMove e s
  | .ledgerPersist e => Sys2Proof.Machine.execLedgerPersist e s
  | .checkpointSign e => Sys2Proof.Machine.execCheckpointSign e s
  | .installComplete e xfr => Sys2Proof.Machine.execInstallComplete e xfr s
  | .relayStart e comp => Sys2Proof.Machine.execRelayStart e comp s
  | .relayOutcome e comp status => Sys2Proof.Machine.execRelayOutcome e comp status s
  | .relayRetry e comp => Sys2Proof.Machine.execRelayRetry e comp s
  | .transferAbandon e xfr => Sys2Proof.Machine.execTransferAbandon e xfr s
  | .activationComplete e comp => Sys2Proof.Machine.execActivationComplete e comp s
  | .healthWindowEnd e comp => Sys2Proof.Machine.execHealthWindowEnd e comp s
  | .auditBlockTest e fails rom => Sys2Proof.Machine.execAuditBlockTest e fails rom s
  | .auditConditionCheck e supplyMv refKhz => Sys2Proof.Machine.execAuditConditionCheck e supplyMv refKhz s
  | .auditEnd e => Sys2Proof.Machine.execAuditEnd e s
  | .tellerPairTrip e tp cmds => Sys2Proof.Machine.execTellerPairTrip e tp cmds s
  | .tellerPairRejoin e tp => Sys2Proof.Machine.execTellerPairRejoin e tp s
  | .sleepEntry e => Sys2Proof.Machine.execSleepEntry e s
  | .sleepEntryCheck e => Sys2Proof.Machine.execSleepEntryCheck e s
  | .sleepReached e => Sys2Proof.Machine.execSleepReached e s
  | .dormantEntry e => Sys2Proof.Machine.execDormantEntry e s
  | .start e kind => Sys2Proof.Machine.execStart e kind s
  | .brownout e => Sys2Proof.Machine.execBrownout e s
  | .vetchFrameError e die => Sys2Proof.Machine.execVetchFrameError e die s
  | .safeNHigh e => Sys2Proof.Machine.execSafeNHigh e s
  | .heartbeatRestored e die => Sys2Proof.Machine.execHeartbeatRestored e die s
  | .keyInactive e => Sys2Proof.Machine.execKeyInactive e s
  | .becomesGrandmaster e => Sys2Proof.Machine.execBecomesGrandmaster e s
  | .ppsOutFall e => Sys2Proof.Machine.execPpsOutFall e s
  | .linHeaderReceived e lin id ok ago => Sys2Proof.Machine.execLinHeaderReceived e lin id ok ago s
  | .formatComplete e => Sys2Proof.Machine.execFormatComplete e s
  | .mediaReadEnd e cmd bits => Sys2Proof.Machine.execMediaReadEnd e cmd bits s
  | .translationRebuildEnd e => Sys2Proof.Machine.execTranslationRebuildEnd e s
  | .revertComplete e comp => Sys2Proof.Machine.execRevertComplete e comp s
  | .phyFirmwareWatchdog e port => Sys2Proof.Machine.execPhyFirmwareWatchdog e port s
  | .aonSupplyLoss e => Sys2Proof.Machine.execAonSupplyLoss e s
  | .agedHeadCheck e port => Sys2Proof.Machine.execAgedHeadCheck e port s
  | .feedBlocked e die => Sys2Proof.Machine.execFeedBlocked e die s

end Sys2Proof.Machine
end

