-- ==== Sys2Proof/Safety.lean ====
section
/-!
DEFINITION. The terms that claims use: runs that do not stop, what every reachable state keeps, and a Hiast command that
is taken and begins at once.
-/

namespace Sys2Proof.Machine

/-! ### Runs -/

/-- A step that does not stop. -/
def Goes (o : Host.Outcome State Fault Refusal) : Prop := ∃ t, o = .next t

/-- A run of n steps that does not stop, from a state to a state. -/
inductive Runs : Nat → State → State → Prop where
  | zero (s : State) : Runs 0 s s
  | succ {n : Nat} {s t u : State} : step s = .next t → Runs n t u → Runs (n + 1) s u

/-- What every reachable state keeps: byte memory in its canonical form. -/
def Safe (s : State) : Prop := Memory.wf s.mem = true

/-! ### Hiast commands -/

/-- The command in execution that a packet for an opcode makes (02 R56). -/
def cmdOf (o : OpSpec) (r : Req) (s : State) : Cmd := newCmd r.tenant (reqPkt r o.opcode) none s

/-- The state in which that command's execution begins. -/
def begun (o : OpSpec) (r : Req) (s : State) : State := setCmd (cmdOf o r s) (enterCmd (cmdOf o r s) s)

/-- A packet for an opcode is dispatched and its execution begins at once: Teller serves its tenant, which has a command
slot left (02 R57), every check of R54 passes, no not-before time is named, and the island that carries the service
runs (01 R22). -/
def Begins (o : OpSpec) (r : Req) (s : State) : Bool :=
  s.serves r.tenant && s.slotFree r.tenant &&
  (checks (some o) r.tenant (reqPkt r o.opcode) (enterCmd (cmdOf o r s) s) == none) &&
  r.notBefore == 0 && !o.parked s

/-- The state in which Teller takes a packet for an opcode: after the row's elapsed time, and after the trigger firings due
on the command's target, which come before it (09 R283). -/
def arrived (o : OpSpec) (r : Req) (e : Stim) (s : State) : State :=
  trigsFirst o.opcode r.params (s.advance e).tim.full (s.advance e)

/-- The Hiast row c runs its opcode to the end at once: for every packet that begins under the condition cond, exec
answers the next state in which the final reply OK carries the words res and the command has had the effect f on the
state b in which its execution began. b is the state u in which Teller takes the packet, with the command in execution. -/
def Completes (c : Stim → Req → Instr) (o : OpSpec) (cond : Req → State → Prop) (res : Req → State → List Word)
    (f : Req → State → State) : Prop :=
  ∀ (e : Stim) (r : Req) (s u b : State), u = arrived o r e s → Begins o r u = true → b = begun o r u → cond r b →
    exec (c e r) s = .next (finishCmd u.nextId .ok (res r b) (f r b))

/-- The Hiast row c takes its command, number id, for an execution that ends later: exec answers the next state in which
the interim reply ACCEPTED is posted and the command, still in execution, has had the effect f so far. -/
def Accepts (c : Stim → Req → Instr) (o : OpSpec) (cond : Req → State → Prop) (f : Nat → Req → State → State) : Prop :=
  ∀ (e : Stim) (r : Req) (s u b : State), u = arrived o r e s → Begins o r u = true → b = begun o r u → cond r b →
    exec (c e r) s = .next (interim u.nextId .accepted (f u.nextId r b))

/-- The Hiast row c starts an execution that ends later without an interim reply of its own: exec answers the next state
in which the command, number id, has had the effect f so far. -/
def Opens (c : Stim → Req → Instr) (o : OpSpec) (cond : Req → State → Prop) (f : Nat → Req → State → State) : Prop :=
  ∀ (e : Stim) (r : Req) (s u b : State), u = arrived o r e s → Begins o r u = true → b = begun o r u → cond r b →
    exec (c e r) s = .next (f u.nextId r b)

/-- The Hiast row c ends its command with a status other than OK: exec answers the next state in which the final reply
carries the status st and no words, and the command has had the effect f. -/
def Fails (c : Stim → Req → Instr) (o : OpSpec) (cond : Req → State → Prop) (st : Status) (f : Req → State → State) :
    Prop :=
  ∀ (e : Stim) (r : Req) (s u b : State), u = arrived o r e s → Begins o r u = true → b = begun o r u → cond r b →
    exec (c e r) s = .next (finishCmd u.nextId st [] (f r b))

/-- The event row c has the effect f whenever cond holds of the state after its elapsed time. -/
def Happens (c : Stim → Instr) (cond : State → Prop) (f : State → State) : Prop :=
  ∀ (e : Stim) (s u : State), u = s.advance e → cond u → exec (c e) s = .next (f u)

/-! ### Terms of single claims -/

/-- Restarts of the Vault begun in the 60 s before now (16 R501). -/
def State.recentStarts (s : State) : Nat :=
  ((s.vlt.starts.filter (fun t => decide (s.clk ≤ t + 60000000000))).filter (fun t => decide (t < s.clk))).length

/-- A range of addresses lies inside one region, by the block in force, of the partition bound to a tenant, with a
permission (bit 0 R, 1 W) (15 R454). -/
def Inside (s : State) (t a n perm : Nat) : Prop :=
  ∃ p blk r, s.boundPart t = some p ∧ (s.part p).force = some blk ∧ r ∈ blockRegions blk ∧
    r.2.2.testBit perm = true ∧ r.1 ≤ a ∧ a + n ≤ r.1 + r.2.1

/-- A queue's pointers: slot indices below its depth, copies inverted, and their linear difference modulo twice the depth
equal to its occupancy, which is at most its depth (03 R72, R100). -/
def PointersOk (x : Queue) : Prop :=
  x.prod.toNat % 4096 < 2 ^ x.depth ∧ x.cons.toNat % 4096 < 2 ^ x.depth ∧ x.prodInv = ~~~x.prod ∧ x.consInv = ~~~x.cons ∧
  x.occ ≤ 2 ^ x.depth ∧
  (ptrLin x.depth x.prod + 2 * 2 ^ x.depth - ptrLin x.depth x.cons) % (2 * 2 ^ x.depth) = x.occ

/-- s with what replies and notices may change taken from u: tenants, queues, commands in execution, the Ledger, memory,
the words known to be uncorrectable and pending interrupts. -/
def withReplies (s u : State) : State :=
  { s with ten := u.ten, que := u.que, inflight := u.inflight, led := u.led, mem := u.mem
           cpu := { s.cpu with irq := u.cpu.irq, uncorr := u.cpu.uncorr } }

/-- An address lies outside the spill regions of the reply and notice queues (03 R74, R75). -/
def OutsideSpill (s : State) (a : Nat) : Prop :=
  ∀ t q, q = 4 ∨ q = 5 →
    a < (s.queue t q).slotAddr 0 ∨ (s.queue t q).slotAddr (2 ^ (s.queue t q).depth) ≤ a

/-- From s to u nothing has changed but what replies and notices may change, and of memory only slots of reply and notice
queues; a queue stays where it is, and no word becomes uncorrectable. -/
structure OnlyReplies (s u : State) : Prop where
  rest : u = withReplies s u
  mem : ∀ a, OutsideSpill s a → readByte u.mem a = readByte s.mem a
  uncorr : ∀ w ∈ u.cpu.uncorr, w ∈ s.cpu.uncorr
  place : ∀ t q, (u.queue t q).spill = (s.queue t q).spill ∧ (u.queue t q).depth = (s.queue t q).depth

end Sys2Proof.Machine
end

