-- ==== Sys2Proof/Certificates/Slice0/Obligations.lean ====
section
/-!
DEFINITION. The statements for the provers: the whole-machine claims first, then, chapter by chapter, what every command
and event does.
-/

open Sys2Proof Sys2Proof.Machine

/-- A step runs the command at the front of the queue. For every command c and queue q, a step of a state whose queue
is c before q is exec of c on that state with the queue q; on an empty queue a step changes nothing (that the module
idles then is the model's choice, log entry 1). -/
def Obligations.FrontCommandRuns : Prop :=
  (∀ (c : Instr) (q : List Instr) (s : State), step { s with pending := c :: q } = exec c { s with pending := q }) ∧
  (∀ s : State, s.pending = [] → step s = .next s)

/-- What reset leaves. Memory is in its canonical form and empty queues hold nothing; the module and its islands and
ports run, partitions are power-gated; T0 is LIVE with the defaults of R111 and no other tenant exists; ageing limits,
hold times, threshold exponents, the PCP-to-TC map, EtherType, ageing time and the settings of Strongbox stand at the
values given for reset. That the state after reset is that of a module that has started without an image is the
model's choice (log entry 3), as are the states of islands, ports and partitions. -/
def Obligations.ResetLeavesThese : Prop :=
  Safe State.reset ∧ State.reset.pending = [] ∧ State.reset.inflight = [] ∧ State.reset.pow.mode = .run ∧
  (∀ n < 9, State.reset.running n = true) ∧ (∀ p < 16, (State.reset.gate (.port p)).st = .run) ∧
  (∀ p < 8, (State.reset.gate (.part p)).st = .powerGated) ∧
  ((State.reset.tenant 0).st = .live ∧ (State.reset.tenant 0).profile = 0 ∧ (State.reset.tenant 0).reqid = 0x100 ∧
    (State.reset.tenant 0).cmd = 16 ∧ (State.reset.tenant 0).vnic = 0 ∧ (State.reset.tenant 0).xfer = 0) ∧
  (∀ t < 32, t ≠ 0 → (State.reset.tenant t).st = .free) ∧
  (∀ q < 6, (State.reset.queue 0 q).depth = 6 ∧ (State.reset.queue 0 q).spill = 4090 + q) ∧
  (∀ p < 16, (State.reset.sp p).hold = 0 ∧
    ∀ tc < 8, (State.reset.sp p).ageOf tc = 50000000 ∧ (State.reset.sp p).kOf tc = 0) ∧
  (∀ p < 16, (State.reset.sp p).tcOf 0 = 1 ∧ (State.reset.sp p).tcOf 1 = 0 ∧
    ∀ c < 8, 2 ≤ c → (State.reset.sp p).tcOf c = c) ∧
  State.reset.net.etype = 0x88B5 ∧ State.reset.net.fdbAge = 300 ∧
  State.reset.sto.wlDelta = 200 ∧ State.reset.sto.patrol = 7 ∧ State.reset.sto.vhold = 360 ∧
  State.reset.sto.epage = 120 ∧ State.reset.sto.ejournal = 240

/-- Every step keeps byte memory in its canonical form. From every state whose memory lists addresses strictly rising
and no zero byte, whatever command stands at the front of the queue, a step that answers a next state leaves memory in
that form: equal memories stay equal data through SRAM writes, message RAM, rings, transfers, replies and power
states. That an unlisted byte reads as 0 is the model's choice (log entry 2). -/
def Obligations.EveryStepKeepsMemory : Prop :=
  ∀ s t : State, Safe s → step s = .next t → Safe t

/-- No step changes the identity fuses. Whatever the state, its life cycle included, and whatever command stands at
the front of the queue, a step leaves the identity fuses and their redundant copies as they are. -/
def Obligations.IdentityNeverChanges : Prop :=
  ∀ s t : State, step s = .next t → t.ident.primary = s.ident.primary ∧ t.ident.copy = s.ident.copy

/-- Every step answers a next state, takes at most one command and never turns the clock back. No command of the block
ends in a fault or a refusal, in any state: a step always answers a next state, in which the queue is the rest of what
it was and the module clock has not gone back. That time comes with the commands is the model's choice (log entry 1).
-/
def Obligations.EveryStepGoesOn : Prop :=
  ∀ s : State, ∃ t, step s = .next t ∧ t.pending = s.pending.tail ∧ s.clk ≤ t.clk

/-- Replies and notices change nothing but tenants, queues, commands, the Ledger and interrupts. The frame of every
final reply, interim reply and notice: every register and every service's state stay as they are, but for the tenants'
counts, the queues, the commands in execution, the Ledger and the interrupts pending at partitions; every byte of
memory outside the spill regions of the reply and notice queues, where the slots are stored, reads as before, no word
becomes uncorrectable and no queue moves; a notice leaves the commands in execution alone as well. -/
def Obligations.RepliesLeaveTheRest : Prop :=
  ∀ (id t n : Nat) (st : Status) (ws : List Word) (s : State),
    OnlyReplies s (finishCmd id st ws s) ∧ OnlyReplies s (interim id st s) ∧ OnlyReplies s (notice t n ws s) ∧
    (notice t n ws s).inflight = s.inflight

/-- A command has one final reply and no interim reply after it. Once a command has been given its final status,
giving it another, or an interim one, changes nothing; a final OK without result words leaves every queue as it is
when the command has NOTIFY = 0 and no chain waits for it. -/
def Obligations.OneFinalReply : Prop :=
  (∀ (id : Nat) (st st1 : Status) (ws ws1 : List Word) (s : State),
    finishCmd id st1 ws1 (finishCmd id st ws s) = finishCmd id st ws s ∧
    interim id st1 (finishCmd id st ws s) = finishCmd id st ws s) ∧
  (∀ (id : Nat) (c : Cmd) (s : State), s.cmd? id = some c → c.notify = false → c.chain = none →
    (finishCmd id .ok [] s).que = s.que)

/-- How Teller takes a packet. A packet of a tenant that is not LIVE, or while Teller does not serve, stays where it
is; at the command-slot share the stall is counted; otherwise the first failing check ends the command with its
status, NOTBEFORE = 0 begins it at once, a target in the future makes it wait, and a target that is not in the future
ends it with TOO_LATE, or begins it with LATE set under LATE_OK = 1. -/
def Obligations.PacketsAreTakenInOrder : Prop :=
  ∀ (o : OpSpec) (r : Req) (s : State),
    let t := r.tenant
    let c := cmdOf o r s
    let p := reqPkt r o.opcode
    let b := enterCmd c s
    let d := diff48 r.notBefore s.now
    (s.serves t = false → submit o r s = s) ∧
    (s.serves t = true → s.slotFree t = false →
      submit o r s = s.setTenant t { s.tenant t with stalls := satInc 0xFFFF (s.tenant t).stalls }) ∧
    (s.serves t = true → s.slotFree t = true →
      (∀ st, checks (some o) t p b = some st → submit o r s = finishCmd c.id st [] b) ∧
      (checks (some o) t p b = none → r.notBefore = 0 → submit o r s = begin o c b) ∧
      (checks (some o) t p b = none → r.notBefore ≠ 0 → 0 < d →
        submit o r s = setCmd { c with phase := .waiting, short := decide (d < 50000) } b) ∧
      (checks (some o) t p b = none → r.notBefore ≠ 0 → d ≤ 0 → submit o r s = begin o { c with late := true } b) ∧
      (checks (some o) t { p with notBefore := 0 } b = none → (s.tenant t).profile ≠ 1 → r.notBefore ≠ 0 → d ≤ 0 →
        r.lateOk = false → submit o r s = finishCmd c.id .tooLate [] b))

/-- SYS_ECHO answers its words, refuses 1020 of them and honours NOTBEFORE. SYS_ECHO that begins completes with OK and
its parameter words, and changes nothing else; with a PLEN of 1020 it completes with BAD_LENGTH; with a NOTBEFORE in
the future it waits; with one that is not, it completes with TOO_LATE, or begins with LATE set under LATE_OK = 1. -/
def Obligations.EchoAnswersItsWords : Prop :=
  Completes .sysEcho sysEchoSpec (fun _ _ => True) (fun r _ => r.params) (fun _ b => b) ∧
  (∀ (e : Stim) (r : Req) (s u b : State), u = s.advance e → b = enterCmd (cmdOf sysEchoSpec r u) u →
    u.serves r.tenant = true → u.slotFree r.tenant = true → r.version = 2 → (u.tenant r.tenant).profile ≠ 1 →
    (r.params.length = 1020 → exec (.sysEcho e r) s = .next (finishCmd u.nextId .badLength [] b)) ∧
    (r.params.length ≤ 1019 → r.notBefore ≠ 0 → 0 < diff48 r.notBefore u.now →
      exec (.sysEcho e r) s = .next (setCmd { cmdOf sysEchoSpec r u with
        phase := .waiting, short := decide (diff48 r.notBefore u.now < 50000) } b)) ∧
    (r.params.length ≤ 1019 → r.notBefore ≠ 0 → diff48 r.notBefore u.now ≤ 0 → r.lateOk = true →
      exec (.sysEcho e r) s = .next (begin sysEchoSpec { cmdOf sysEchoSpec r u with late := true } b)) ∧
    (r.params.length ≤ 1019 → r.notBefore ≠ 0 → diff48 r.notBefore u.now ≤ 0 → r.lateOk = false →
      exec (.sysEcho e r) s = .next (finishCmd u.nextId .tooLate [] b)))

/-- A full notice queue drops the notice and counts it. Posting a notice to a queue NQ without room leaves its slots
as they are and increments its lost count, which saturates at 0xFFFF; with room, one slot of 64 bytes whose LOST field
carries the count is appended and stored at the producer pointer's slot of the queue's spill region, and the count
returns to 0. The bytes stored read so wherever memory was in its canonical form. -/
def Obligations.FullNoticeQueueDrops : Prop :=
  ∀ (t n : Nat) (det : List Word) (s u : State), u = (noticeRaw t n det s).1 →
    ((s.queue t 5).room = 0 → u.queue t 5 = { s.queue t 5 with lost := satInc 0xFFFF (s.queue t 5).lost }) ∧
    ((s.queue t 5).room ≠ 0 → (u.queue t 5).lost = 0 ∧
      ∃ x : Slot, (u.queue t 5).slots = (s.queue t 5).slots ++ [x.tag] ∧ x.bytes.length = 64 ∧
        le x.bytes 6 2 = (s.queue t 5).lost % 2 ^ 16 ∧
        (Safe s → ∀ i < 64, readByte u.mem ((s.queue t 5).slotAddr ((s.queue t 5).idxFrom (s.queue t 5).prod 0) + i) =
          x.bytes.getD i 0))

/-- Only T0 creates, deletes, binds, reshares or grants rights to a tenant. TEN_CREATE, TEN_DELETE, TEN_BIND,
TEN_SHARE and TEN_RIGHTS of a served tenant other than T0 complete with DENIED and change nothing. -/
def Obligations.OnlyTheManagerChangesTenants : Prop :=
  ∀ (e : Stim) (r : Req) (s u : State), u = s.advance e → r.tenant ≠ 0 → u.serves r.tenant = true →
    u.slotFree r.tenant = true → r.version = 2 →
    let denied (o : OpSpec) : Host.Outcome State Fault Refusal :=
      .next (finishCmd u.nextId .denied [] (enterCmd (cmdOf o r u) u))
    (r.params.length = 16 → exec (.tenCreate e r) s = denied tenCreateSpec) ∧
    (r.params.length = 1 → exec (.tenDelete e r) s = denied tenDeleteSpec) ∧
    (r.params.length = (if bit (par r.params 0) 16 then 19 else 4) → exec (.tenBind e r) s = denied tenBindSpec) ∧
    (r.params.length = 2 → exec (.tenShare e r) s = denied tenShareSpec) ∧
    (r.params.length = 3 → exec (.tenRights e r) s = denied tenRightsSpec)

/-- Ring entries reach only the regions of the owner's partition. An entry of a virtual Ethernet interface, a CAN
endpoint or a transfer instance passes only when the memory it reads, or writes, lies wholly inside one region of the
partition bound to the instance's owner, with R for what is read and W for what is written; without a bound partition
no entry that names memory passes. -/
def Obligations.RingEntriesStayInOneRegion : Prop :=
  ∀ (v : Vi) (b : List Byte) (s : State),
    (vnicEntryOk v b s = true → le b 0 1 = 0 → Inside s v.owner (le b 8 5) (le b 4 2) 0) ∧
    (vnicEntryOk v b s = true → le b 0 1 = 1 → Inside s v.owner (le b 8 5) (le b 4 2) 1) ∧
    (vepEntryOk v b s = true → le b 12 1 = 0 → (hFmt b).testBit 3 = false → hLen b ≠ 0 →
      Inside s v.owner (le b 16 5) (hLen b) 0) ∧
    (vepEntryOk v b s = true → le b 12 1 = 1 → Inside s v.owner (le b 16 5) 2048 1) ∧
    (xferOk v.owner b s = true → Inside s v.owner (le b 16 5) (le b 4 4) 1) ∧
    (xferOk v.owner b s = true → le b 0 1 = 0 → Inside s v.owner (le b 8 5) (le b 4 4) 0) ∧
    (s.boundPart v.owner = none → vnicEntryOk v b s = false ∧ xferOk v.owner b s = false ∧
      (le b 12 1 = 1 ∨ (hFmt b).testBit 3 = false ∧ hLen b ≠ 0 → vepEntryOk v b s = false))

/-- A queue's pointers agree with its slots, through posting, taking and flushing. For a configured queue whose
pointers are in range, stand beside their inverted copies and differ by its occupancy, the same holds after an item
that fits is appended, after slots are taken and after a flush; such a queue is empty exactly when its pointers are
equal, and full exactly when their indices are equal and their wrap bits differ. -/
def Obligations.PointersMatchTheSlots : Prop :=
  ∀ x : Queue, 6 ≤ x.depth → x.depth ≤ 12 → PointersOk x →
    (∀ sl, sl.length ≤ x.room → PointersOk (x.append sl)) ∧ (∀ n, n ≤ x.occ → PointersOk (x.take n)) ∧
    PointersOk x.flushed ∧ (x.occ = 0 ↔ x.prod = x.cons) ∧
    (x.room = 0 ↔ x.prod.toNat % 4096 = x.cons.toNat % 4096 ∧ x.prod.toNat / 4096 ≠ x.cons.toNat / 4096)

/-- A store to memory changes its own bytes and no other. A register write that stores to system SRAM, and a write of
an aligned word of a CAN message RAM outside its buffers, answer a next state in which every byte outside the bytes
stored reads as before, and, where memory was in its canonical form, the bytes stored read as the value's bytes, least
significant first. -/
def Obligations.StoresTouchOnlyTheirBytes : Prop :=
  (∀ (e : Stim) (who addr width value p : Nat) (s u : State), u = s.advance e → 0x20000000 ≤ addr → addr < 0x21000000 →
    u.running 1 = true → partOfReq who = some p → storeOk width = true → u.spillAt addr = none →
    u.spillAt (addr + width / 8 - 1) = none → u.inRegion p addr (width / 8) 1 = true →
    u.vaultAddr addr = false → (u.writeMem addr (bytesOf (width / 8) value)).ctlHit addr (width / 8) = none →
    ∃ t, exec (.registerWrite e who addr width value) s = .next t ∧
      (∀ a, a < addr ∨ addr + width / 8 ≤ a → readByte t.mem a = readByte s.mem a) ∧
      (Safe s → ∀ i < width / 8, readByte t.mem (addr + i) = BitVec.ofNat 8 (value / 256 ^ i))) ∧
  (∀ (e : Stim) (who can off : Nat) (value : Word) (s u : State), u = s.advance e → can < 12 → u.running 5 = true →
    u.boundTo who (u.canc can).owner = true → 0x0C00 ≤ off → off < 0xC000 → off % 4 = 0 →
    ((u.canc can).bufAt off).bind (u.canc can).groupOf = none →
    ∃ t, exec (.messageRamWrite e who can off value) s = .next t ∧
      (∀ a, a < winBase can + off ∨ winBase can + off + 4 ≤ a → readByte t.mem a = readByte s.mem a) ∧
      (Safe s → ∀ i < 4, readByte t.mem (winBase can + off + i) = BitVec.ofNat 8 (value.toNat / 256 ^ i)))

/-- The SYS commands and IDREAD complete. sysEcho answers the words sent; sysIdentity the sixteen words of the
identity, or INTERNAL where its two copies disagree; sysLimits the slots and shares in use; sysIslandStatus nine
status words; sysCancel withdraws what waits; sysIslandCtl enables an island in RUN at once and takes a disable of one
in RUN; idread returns the primary fuses. -/
def Obligations.SysCommandsComplete : Prop :=
  Completes .sysEcho sysEchoSpec (fun _ _ => True) (fun r _ => r.params) (fun _ b => b) ∧
  Completes .sysCancel sysCancelSpec (fun _ _ => True)
    (fun r b => [wd (b.withdrawable r.tenant (fld (par r.params 0) 15 0)).length])
    (fun r b => (b.withdrawable r.tenant (fld (par r.params 0) 15 0)).foldl (withdrawCmd .flushed) b) ∧
  Completes .sysIdentity sysIdentitySpec (fun _ b => b.ident.bad = false) (fun _ b => wordsOf 16 b.ident.primary)
    (fun _ b => b) ∧
  Fails .sysIdentity sysIdentitySpec (fun _ b => b.ident.bad = true) .internal (fun _ b => b) ∧
  Completes .sysLimits sysLimitsSpec (fun _ _ => True)
    (fun r b => [wd ((b.inUse r.tenant - 1) * 2 ^ 16 + ((b.inflight.filter (fun x => !x.noSlot)).length - 1)),
      wd ((b.tenant r.tenant).stalls * 2 ^ 16 + (b.tenant r.tenant).cmd)]) (fun _ b => b) ∧
  Completes .sysIslandStatus sysIslandStatusSpec (fun _ _ => True) (fun _ b => (List.range 9).map b.islWord)
    (fun _ b => b) ∧
  Completes .sysIslandCtl sysIslandCtlSpec
    (fun r b => fld (par r.params 0) 1 0 = 0 ∧ (b.island (fld (par r.params 0) 15 8)).gate.st = .run ∧ (b.island
      (fld (par r.params 0) 15 8)).lossHold = false)
    (fun _ _ => [])
    (fun r b => b.setIsland (fld (par r.params 0) 15 8)
      { b.island (fld (par r.params 0) 15 8) with stuck := false }) ∧
  Accepts .sysIslandCtl sysIslandCtlSpec
    (fun r b => fld (par r.params 0) 1 0 = 1 ∧ (b.island (fld (par r.params 0) 15 8)).gate.st = .run ∧ fld (par
      r.params 0) 15 8 ≠ 0 ∧ b.claimed (fld (par r.params 0) 15 8) = false)
    (fun id r b => b.setGate (.island (fld (par r.params 0) 15 8)) { (b.island (fld (par r.params 0) 15 8)).gate with
      st := .quiescing, deep := false, disCmds := [id], since := b.clk }) ∧
  Happens .idread (fun _ => True) (fun u => { u with rdata := wordsOf 16 u.ident.primary })

/-- The PWR commands complete. pwrConfig stores a block of an idle channel; pwrReadConfig answers the stored block or
zeros; pwrAssign sets owner and readers; pwrSwitch off begins the turn-off of a channel in ON, and pwrSwitch on of a
channel in OFF that the Purse admits books it and leaves the turn-on pending; pwrDuty takes a decrease at the next
boundary; pwrClear frees a latched channel; pwrStatus answers four words. Where these form one reply, status word 0
goes with it. -/
def Obligations.ChannelCommandsComplete : Prop :=
  Completes .pwrConfig pwrConfigSpec
    (fun r b => b.dieBusy (chDie (parCh r.params)) = false ∧ (b.chn (parCh r.params)).st.idle = true ∧ bit (par
      r.params 0) 11 = false)
    (fun _ _ => []) (fun r b => storeBlock (parCh r.params) r.params b) ∧
  Completes .pwrReadConfig pwrReadConfigSpec (fun r b => (b.pdie (chDie (parCh r.params))).dead = false)
    (fun r b => ((b.chn (parCh r.params)).block).getD (List.replicate 8 0)) (fun _ b => b) ∧
  Completes .pwrAssign pwrAssignSpec
    (fun r b => b.dieBusy (chDie (parCh r.params)) = false ∧ (b.chn (parCh r.params)).st.idle = true)
    (fun _ _ => [])
    (fun r b => b.setChn (parCh r.params) { b.chn (parCh r.params) with
      owner := fld (par r.params 0) 12 8, readers := par r.params 1 }) ∧
  Completes .pwrSwitch pwrSwitchSpec
    (fun r b => fld (par r.params 0) 10 8 = 0 ∧ b.dieBusy (chDie (parCh r.params)) = false ∧
      (b.chn (parCh r.params)).limp = false ∧ (b.chn (parCh r.params)).st = .on ∧ (b.chn (parCh r.params)).pend =
        none ∧
      (b.chn (parCh r.params)).second = none ∧ b.req? (parCh r.params) = none)
    (fun r b => [(beginOff (parCh r.params) b).chWord0 (parCh r.params)])
    (fun r b => beginOff (parCh r.params) b) ∧
  Opens .pwrSwitch pwrSwitchSpec
    (fun r b => fld (par r.params 0) 10 8 = 1 ∧ chClass (parCh r.params) ≠ 3 ∧
      b.dieBusy (chDie (parCh r.params)) = false ∧ b.dutyBad (parCh r.params) (fld (par r.params 1) 9 0) = false ∧
      b.chOut (parCh r.params) = false ∧ b.pur.queue = [] ∧
      (let c := b.chn (parCh r.params)
       c.st = .off ∧ c.limp = false ∧ b.hot (parCh r.params) = false ∧ c.pend = none ∧ c.second = none ∧ c.storedBad
         = false) ∧
      fits { ch := parCh r.params, kind := .turnOn, at_ := b.clk, duty := fld (par r.params 1) 9 0, action := 1 } b
        = .yes)
    (fun id r b => admitReq
      { ch := parCh r.params, kind := .turnOn, at_ := b.clk, duty := fld (par r.params 1) 9 0, action := 1, cmd := some id }
        b) ∧
  Completes .pwrDuty pwrDutySpec
    (fun r b => b.dieBusy (chDie (parCh r.params)) = false ∧ b.dutyBad (parCh r.params) (fld (par r.params 1) 9 0) =
      false ∧
      b.req? (parCh r.params) = none ∧
      (let c := b.chn (parCh r.params)
       c.limp = false ∧ c.st.isOn = true ∧ c.pwmEn = true ∧ fld (par r.params 1) 9 0 ≤ c.bookedDuty))
    (fun r b => [(rephase (parCh r.params) (b.setChn (parCh r.params) { b.chn (parCh r.params) with
      dutyNext := some (fld (par r.params 1) 9 0), dutyDown := true })).chWord0 (parCh r.params)])
    (fun r b => rephase (parCh r.params) (b.setChn (parCh r.params) { b.chn (parCh r.params) with
      dutyNext := some (fld (par r.params 1) 9 0), dutyDown := true })) ∧
  Completes .pwrClear pwrClearSpec
    (fun r b => b.dieBusy (chDie (parCh r.params)) = false ∧ b.req? (parCh r.params) = none ∧
      (let c := b.chn (parCh r.params)
       c.limp = false ∧ c.st = .latched ∧ b.hot (parCh r.params) = false ∧ c.wireLatch = false ∧ c.pend = none ∧
         c.block.isSome = true))
    (fun r b => [(b.setChn (parCh r.params) { (b.chn (parCh r.params)).reload with
      st := .off, asked := false, clrAt := some b.clk }).chWord0 (parCh r.params)])
    (fun r b => b.setChn (parCh r.params) { (b.chn (parCh r.params)).reload with
      st := .off, asked := false, clrAt := some b.clk }) ∧
  Completes .pwrStatus pwrStatusSpec (fun r b => (b.pdie (chDie (parCh r.params))).dead = false)
    (fun r b => [b.chWord0 (parCh r.params), b.chWord1 (parCh r.params), b.chWord2 (parCh r.params), b.chWord3
      (parCh r.params)])
    (fun _ b => b)

/-- The events of a load channel take place. slewStart, turnOnSlewEnd, turnOffSlewEnd, inrushWindowEnd, retryDue,
onStableReload, openLoadCount, offStateCycle, pwmPeriodBoundary, thermalLatchRelease, wireLatchRelease: each in the
states in which its rule lets it occur, with its whole effect. -/
def Obligations.ChannelEventsHappen : Prop :=
  (∀ (ch : Nat), Happens (fun e => .slewStart e ch)
    (fun u => chValid ch = true ∧ u.hot ch = false ∧ (u.chn ch).pend.any (fun p => p.kind != .retry && p.cmd.isNone
      && u.deadOk ch p.action) = true)
    (fun u => slewStart ch (((u.chn ch).pend.map (·.duty)).getD 0) (((u.chn ch).pend.map (·.action)).getD 0) u)) ∧
  (∀ (ch : Nat), Happens (fun e => .turnOnSlewEnd e ch) (fun u => (u.chn ch).st = .slewOn)
    (fun u => u.setChn ch (if (u.chn ch).winOpen then { u.chn ch with st := .inrush }
      else { u.chn ch with st := .on, onSince := u.clk }))) ∧
  (∀ (ch : Nat), Happens (fun e => .turnOffSlewEnd e ch) (fun u => (u.chn ch).st = .slewOff)
    (fun u => limpPump (chDie ch) (clearAfter ch (goneOff ch u)))) ∧
  (∀ (ch : Nat), Happens (fun e => .inrushWindowEnd e ch)
    (fun u => (u.chn ch).winOpen = true ∧ (u.chn ch).winEnd ≤ u.clk ∧ (u.chn ch).st = .inrush ∧ (u.chn ch).pend =
      none)
    (fun u => limpPump (chDie ch) (u.setChn ch
      { u.chn ch with winOpen := false, iinr := 0, st := .on, onSince := u.clk }))) ∧
  (∀ (ch : Nat), Happens (fun e => .retryDue e ch)
    (fun u => (u.chn ch).st = .retryWait ∧ u.hot ch = false ∧ (u.chn ch).asked = false ∧ (u.chn ch).pend = none ∧
      (u.chn ch).tripAt + (u.chn ch).retryInt * 1000000 ≤ u.clk) (fun u => autoOn .retry ch u)) ∧
  (∀ (ch : Nat), Happens (fun e => .onStableReload e ch)
    (fun u => (u.chn ch).st = .on ∧ (u.chn ch).limp = false ∧ (u.chn ch).onSince + 1000000000 ≤ u.clk)
    (fun u => u.setChn ch (u.chn ch).reload)) ∧
  (∀ (ch : Nat) (below : Bool), Happens (fun e => .openLoadCount e ch below)
    (fun u => (u.chn ch).st = .on ∧ (u.chn ch).limp = false ∧ (u.chn ch).olth ≠ 0 ∧
      10000000 ≤ (if below then (u.chn ch).meter.low else (u.chn ch).meter.high))
    (fun u => withDiag ch (fun s => s.setChn ch { s.chn ch with olon := below }) u)) ∧
  (∀ (ch : Nat) (aboveIpu aboveNone : Bool), Happens (fun e => .offStateCycle e ch aboveIpu aboveNone)
    (fun u => u.offCycles ch (u.chn ch) = true ∧ 2000000 ≤ (u.chn ch).meter.off ∧
      (u.chn ch).meter.cyc + 10000000 ≤ u.clk)
    (fun u => withDiag ch (fun s => s.setChn ch { s.chn ch with
      stb := aboveIpu && aboveNone, oloff := aboveIpu && !aboveNone, meter := { (s.chn ch).meter with cyc := s.clk }
        }) u)) ∧
  (∀ (ch : Nat) (d : Nat), Happens (fun e => .pwmPeriodBoundary e ch)
    (fun u => (u.chn ch).st.isOn = true ∧ (u.chn ch).pwmEn = true ∧ (u.chn ch).limp = false ∧ (u.chn ch).atBoundary
      u.clk = true ∧
      (u.chn ch).shift u.clk = 0 ∧ (u.chn ch).dutyNext = some d ∧ (u.chn ch).dutyDown = true ∧ 0 < d ∧ 0 < (u.chn
        ch).duty)
    (fun u => u.setChn ch { u.chn ch with
      duty := d, dutyNext := none, dutyDown := false, pwmOff := (u.chn ch).pwmOffNext,
      icont := (u.chn ch).icontAt d, pdis := u.pdisAt ch d })) ∧
  (∀ (ch : Nat) (d : Nat), Happens (fun e => .pwmPeriodBoundary e ch)
    (fun u => (u.chn ch).st.isOn = true ∧ (u.chn ch).pwmEn = true ∧ (u.chn ch).limp = false ∧ (u.chn ch).atBoundary
      u.clk = true ∧
      (u.chn ch).shift u.clk = 0 ∧ (u.chn ch).dutyNext = some d ∧ (u.chn ch).dutyDown = false ∧ 0 < d ∧ 0 < (u.chn
        ch).duty)
    (fun u => u.setChn ch { u.chn ch with
      duty := d, dutyNext := none, pwmOff := (u.chn ch).pwmOffNext })) ∧
  (∀ (sw : SwitchRef), Happens (fun e => .thermalLatchRelease e sw)
    (fun u => switchOk sw.ch sw.low = true ∧ (u.chn sw.ch).latchOf sw.low = true)
    (fun u => limpPump (chDie sw.ch) (feedReturnOne (u.bridgeOf sw.ch) (withDiags (u.bridgeOf sw.ch) sw.ch
      (fun s => s.setChn sw.ch ((s.chn sw.ch).setLatch sw.low false)) u)))) ∧
  (∀ (ch : Nat), Happens (fun e => .wireLatchRelease e ch)
    (fun u => (u.chn ch).wireLatch = true ∧ (u.thetaNow ch).thetaHalf ch = true)
    (fun u => (u.thetaNow ch).setChn ch { (u.thetaNow ch).chn ch with wireLatch := false }))

/-- The trips and feed events of a load channel take place. overcurrentTrip, shortCircuitTrip, thermalLatchSet,
wireTrip, reverseCurrent, driverFault, blockCheck, feedLoss, feedReturn: each trips its channel with its own cause, or
sets its latch or flag, as its rule says. -/
def Obligations.ChannelTripsHappen : Prop :=
  (∀ (ch : Nat), Happens (fun e => .overcurrentTrip e ch)
    (fun u => chValid ch = true ∧ u.tripTakes ch = true ∧ (u.chn ch).ocDue = true) (fun u => trip 1 ch u)) ∧
  (∀ (ch : Nat), Happens (fun e => .shortCircuitTrip e ch)
    (fun u => chValid ch = true ∧ u.tripTakes (u.bridgeOf ch) = true) (fun u => trip 2 (u.bridgeOf ch) u)) ∧
  (∀ (sw : SwitchRef), Happens (fun e => .thermalLatchSet e sw)
    (fun u => switchOk sw.ch sw.low = true ∧ (u.chn sw.ch).latchOf sw.low = false ∧ u.tripTakes (u.bridgeOf sw.ch) =
      true)
    (fun u => withDiags (u.bridgeOf sw.ch) sw.ch (fun s => trip 4 (u.bridgeOf sw.ch) (s.setChn sw.ch ((s.chn
      sw.ch).setLatch sw.low true))) u)) ∧
  (∀ (ch : Nat), Happens (fun e => .wireTrip e ch)
    (fun u => chValid ch = true ∧ (u.chn ch).wireLatch = false ∧ (u.thetaNow ch).thetaMax ch = true)
    (fun u => trip 8 ch ((u.thetaNow ch).setChn ch { (u.thetaNow ch).chn ch with wireLatch := true }))) ∧

    (∀ (ch : Nat)
    (present : Bool), Happens (fun e => .reverseCurrent e ch present)
    (fun u => chValid ch = true ∧ (u.chn ch).st = .off ∧ (u.chn ch).wentOff u.clk = false ∧
      (if present then (u.chn ch).revDue u.clk = true else 10000000 ≤ (u.chn ch).meter.clear))
    (fun u => withDiag ch (fun s => s.setChn ch { s.chn ch with revcur := present }) u)) ∧
  (∀ (ch : Nat), Happens (fun e => .driverFault e ch) (fun _ => chValid ch = true)
    (fun u => latchFault 3 (trip 32 (u.bridgeOf ch) u))) ∧
  (∀ (ch : Nat) (wire : Bool) (found : List Word), Happens (fun e => .blockCheck e ch wire found)
    (fun u => chValid ch = true ∧ wire = false ∧ (u.chn ch).block.isSome = true ∧
      blockCheckOk (wordsOf 8 (wordBytes found)) = false ∧ (u.chn ch).st = .off)
    (fun u => trip 64 ch (u.setChn ch { u.chn ch with block := some (wordsOf 8 (wordBytes found)) }))) ∧
  (∀ (die : Nat), Happens (fun e => .feedLoss e die)
    (fun u => die < 2 ∧ (u.pdie die).feedLoss = false ∧ 20000 ≤ (u.pdie die).feedLow)
    (fun u => limpPump die (diagDie die (setFlost die true ((dieChans die).foldl (fun s c => feedLossOne c s)
      (u.setPdie die { u.pdie die with feedLoss := true })))))) ∧
  (∀ (die : Nat), Happens (fun e => .feedReturn e die)
    (fun u => die < 2 ∧ (u.pdie die).feedLoss = true ∧ 1000000 ≤ (u.pdie die).feedHigh)
    (fun u => (dieChans die).foldl (fun s c => feedReturnOne c s)
      (diagDie die (setFlost die false (u.setPdie die { u.pdie die with feedLoss := false })))))

/-- The PUR commands and the events of the Purse take place. purWire stores a wire block of an idle channel;
purReadWire answers the wire block in force; purStatus six words; purChannel three words under the wire model run to
the present sample; purLimits sets the seven capacities; purseEvaluation evaluates the queue; feedBlocked sets BLOCK
of the die whose request has waited 50 ms; overdrawWindowEnd posts PUR_OVERDRAW once above the limit of R188 and
re-arms at or below ICONT, and evaluates as many ended windows as it names, the oldest first. -/
def Obligations.PurseCommandsComplete : Prop :=
  Completes .purWire purWireSpec
    (fun r b => b.dieBusy (chDie (parCh r.params)) = false ∧ (b.chn (parCh r.params)).st.idle = true)
    (fun _ _ => []) (fun r b => storeWire (parCh r.params) r.params b) ∧
  Completes .purReadWire purReadWireSpec (fun r b => (b.pdie (chDie (parCh r.params))).dead = false)
    (fun r b => b.wireBlk (parCh r.params)) (fun _ b => b) ∧
  Completes .purStatus purStatusSpec (fun _ _ => True) (fun _ b => b.purWords) (fun _ b => b) ∧
  Completes .purChannel purChannelSpec (fun r b => (b.pdie (chDie (parCh r.params))).dead = false)
    (fun r b => (b.thetaNow (parCh r.params)).purChWords (parCh r.params))
    (fun r b => b.thetaNow (parCh r.params)) ∧
  Completes .purLimits purLimitsSpec (fun _ _ => True) (fun _ _ => [])
    (fun r b => { b with pur := { b.pur with
      capFeedA := fld (par r.params 0) 15 0, capFeedB := fld (par r.params 0) 31 16, capMod := fld (par r.params 1)
        15 0,
      capDisA := fld (par r.params 2) 15 0, capDisB := fld (par r.params 2) 31 16,
      capInrA := fld (par r.params 3) 15 0, capInrB := fld (par r.params 3) 31 16 } }) ∧
  Happens .purseEvaluation (fun _ => True) (fun u => purseEval u) ∧
  (∀ (die : Nat), Happens (fun e => .feedBlocked e die)
    (fun u => die < 2 ∧ u.pur.queue.any (fun r => chDie r.ch == die && decide (50000000 ≤ u.clk - r.at_) && fits r u
      == .wait) = true)
    (fun u => { u with pur := if die = 0 then { u.pur with blockA := true } else { u.pur with blockB := true } })) ∧
  (∀ (ch n : Nat) (w : Int × Nat) (ws : List (Int × Nat)), Happens (fun e => .overdrawWindowEnd e ch n)
    (fun u => n = 1 ∧ chValid ch = true ∧ (u.chn ch).meter.done = w :: ws ∧ (u.chn ch).drawn = false ∧
      ((u.chn ch).icont * 50 + 400) * (w.2 : Int) < 4 * w.1)
    (fun u => noticeAll (u.chAudience ch) 0x1101
      [wd ch, wd (cap16 ((w.1 * 2 + 10 * w.2) / (20 * w.2)).toNat * 2 ^ 16 + cap16 (u.chn ch).icont)]
      (u.setChn ch { u.chn ch with drawn := true, meter := { (u.chn ch).meter with done := ws } }))) ∧
  (∀ (ch n : Nat) (w : Int × Nat) (ws : List (Int × Nat)), Happens (fun e => .overdrawWindowEnd e ch n)
    (fun u => n = 1 ∧ chValid ch = true ∧ (u.chn ch).meter.done = w :: ws ∧ w.1 ≤ (u.chn ch).icont * 10 * (w.2 : Int))
    (fun u => u.setChn ch { u.chn ch with drawn := false, meter := { (u.chn ch).meter with done := ws } }))

/-- The LMP commands complete. lmpPolicy stores a policy block; lmpReadPolicy answers it or zeros; lmpReclaim of dies
that are not in Yarrow mode completes at once with the channels on, and is taken for dies whose heartbeats have been
valid for 1 ms; lmpStatus answers four words; lmpEnter brings the named dies into Yarrow mode with the COMMAND cause.
-/
def Obligations.YarrowCommandsComplete : Prop :=
  Completes .lmpPolicy lmpPolicySpec (fun r b => b.dieBusy (chDie (parCh r.params)) = false) (fun _ _ => [])
    (fun r b => b.setChn (parCh r.params) { b.chn (parCh r.params) with policy := some r.params }) ∧
  Completes .lmpReclaim lmpReclaimSpec
    (fun r b => b.limpLow = false ∧ b.safeLow = false ∧ (parDies r.params).filter (fun d => (b.pdie d).yarrow) = [])
    (fun _ b => [b.onCounts]) (fun _ b => foReleaseAll b) ∧
  Accepts .lmpReclaim lmpReclaimSpec
    (fun r b => b.limpLow = false ∧ b.safeLow = false ∧ b.yar.reclaims = [] ∧
      (parDies r.params).filter (fun d => (b.pdie d).yarrow) ≠ [] ∧
      ((parDies r.params).filter (fun d => (b.pdie d).yarrow)).all (fun d => b.beats1ms d) = true)
    (fun id r b => { b with yar := { b.yar with reclaims := b.yar.reclaims ++
      [{ cmd := id, dies := (parDies r.params).filter (fun d => (b.pdie d).yarrow),
         named := (parDies r.params).filter (fun d => (b.pdie d).yarrow), since := b.clk }] } }) ∧
  Completes .lmpStatus lmpStatusSpec (fun _ _ => True) (fun _ b => b.dieWords 0 ++ b.dieWords 1) (fun _ b => b) ∧
  Completes .lmpReadPolicy lmpReadPolicySpec (fun r b => (b.pdie (chDie (parCh r.params))).dead = false)
    (fun r b => ((b.chn (parCh r.params)).policy).getD [0, 0, 0]) (fun _ b => b) ∧
  Completes .lmpEnter lmpEnterSpec (fun _ _ => True) (fun _ _ => [])
    (fun r b => (parDies r.params).foldl (fun s d => enterDie d 4 s) b)

/-- The events of Yarrow mode take place. yarrowEntry, heartbeatLoss, logicResetIndication, limpNLow and safeNLow
bring one die or both into Yarrow mode with the cause bit of R207 (0 heartbeat, 1 logic reset, 2 LIMP_N, 3 SAFE_N);
linkLostDeclared, holdExpiry, lhPinChange, reclaimComplete, vetchFrameError, safeNHigh and heartbeatRestored have the
effects of R210, R212, R215, R219, R208, R588 and R223. -/
def Obligations.YarrowEventsHappen : Prop :=
  (∀ (die cause : Nat), Happens (fun e => .yarrowEntry e die cause)
    (fun u => die < 2 ∧ cause = 4 ∧ (u.pdie die).yarrow = true ∧ (u.pdie die).causes.testBit 4 = true ∧ u.pow.mode =
      .run)
    (fun u => enterDie die 4 u)) ∧
  (∀ (die cause : Nat), Happens (fun e => .yarrowEntry e die cause)
    (fun u => die < 2 ∧ cause = 0 ∧ (u.pdie die).beating = false ∧ (u.pdie die).beatFrom + 2000000 ≤ u.clk ∧
      u.pow.mode = .run)
    (fun u => enterDie die 0 (u.setPdie die { u.pdie die with beating := false }))) ∧
  (∀ (die cause : Nat), Happens (fun e => .yarrowEntry e die cause)
    (fun u => die < 2 ∧ 1 ≤ cause ∧ cause ≤ 3 ∧ u.causeHolds die cause = true ∧ u.pow.mode = .run)
    (fun u => foForce (enterDie die cause u))) ∧
  (∀ (die : Nat), Happens (fun e => .heartbeatLoss e die)
    (fun u => die < 2 ∧ u.pow.mode = .run ∧ (u.pdie die).beatFrom + 2000000 ≤ u.clk)
    (fun u =>
      let v := if (u.pdie die).beating then lastReport die u else u
      enterDie die 0 (v.setPdie die { v.pdie die with beating := false }))) ∧
  Happens .logicResetIndication (fun u => u.pow.mode = .run)
    (fun u => foForce (enterDie 1 1 (enterDie 0 1 { u with yar := { u.yar with logicReset := true } }))) ∧
  Happens .limpNLow (fun u => u.pow.mode = .run)
    (fun u => foForce (enterDie 1 2 (enterDie 0 2 (setProbe .limpN 0 u)))) ∧
  Happens .safeNLow (fun u => u.pow.mode = .run)
    (fun u => logObj 0x60 0xFF 0 0 0 (foForce (enterDie 1 3 (enterDie 0 3
      (setProbe .safeN 0 { u with yar := { u.yar with safeN := true } }))))) ∧
  Happens .safeNHigh (fun u => u.yar.safeN = true)
    (fun u => setProbe .safeN 1 { u with yar := { u.yar with safeN := false } }) ∧
  (∀ (die : Nat), Happens (fun e => .linkLostDeclared e die)
    (fun u => die < 2 ∧ (u.pdie die).dead = false ∧ u.pow.mode = .run ∧ (u.pdie die).yarrow = false)
    (fun u => declareLost die u)) ∧
  (∀ (die : Nat), Happens (fun e => .linkLostDeclared e die)
    (fun u => die < 2 ∧ (u.pdie die).dead = false ∧ u.pow.mode = .run ∧ (u.pdie die).yarrow = true ∧
      (u.pdie die).known = false ∧ (u.pdie die).beating = true) (fun u => learnEntry die u)) ∧
  (∀ (ch : Nat) (blk : List Word), Happens (fun e => .holdExpiry e ch)
    (fun u => chValid ch = true ∧ (u.chn ch).limp = true ∧ (u.chn ch).pol = 2 ∧ (u.chn ch).holdEnd ≤ u.clk ∧
      u.yar.reclaims = [] ∧ (u.chn ch).polBlock = some blk)
    (fun u => limpPump (chDie ch) (applyPol ch (polAfter blk) blk u))) ∧
  (∀ (die pin : Nat) (level : Bool), Happens (fun e => .lhPinChange e die pin level)
    (fun u => die < 2 ∧ pin < 6 ∧ u.pow.mode = .run ∧ (u.pdie die).lh.testBit pin ≠ level)
    (fun u => lhChange die pin level u)) ∧
  (∀ (r : Reclaim) (rs : List Reclaim), Happens .reclaimComplete (fun u => u.yar.reclaims = r :: rs)
    (fun u =>
      let s1 := r.dies.foldl (fun s d => reclaimDie d s) { u with yar := { u.yar with reclaims := rs } }
      let s3 := if (s1.cmd? r.cmd).isSome then foReleaseAll s1 else s1
      finishCmd r.cmd .ok [s3.onCounts] s3)) ∧
  (∀ (die : Nat), Happens (fun e => .vetchFrameError e die) (fun _ => die < 2)
    (fun u => u.setPdie die { u.pdie die with frameErrors := (u.pdie die).frameErrors + 1 })) ∧
  (∀ (die : Nat), Happens (fun e => .heartbeatRestored e die) (fun u => die < 2 ∧ (u.pdie die).dead = true)
    (fun u => u.setPdie die { u.pdie die with beating := true, beatFrom := u.clk, dead := false })) ∧
  (∀ (ch n : Nat), Happens (fun e => .overdrawWindowEnd e ch n)
    (fun u => chValid ch = true ∧ 0 < n ∧ n ≤ (u.chn ch).meter.done.length) (overdrawRun ch n))

/-- The FIO commands complete. fioInConfig stores an input block and discards the candidate, a raw level other than
the confirmed one opening a new one; fioReadConfig, fioInState, fioEdges and fioOutStatus answer what R254 to R259
say, fioEdges emptying the queue it reads; fioAssign sets owner and readers; fioOutConfig makes an unconfigured output
OFF; fioOut switches off an output that is on and leaves a switch-on of one that is off pending; fioOutClear makes a
latched output OFF. -/
def Obligations.FieldCommandsComplete : Prop :=
  Completes .fioInConfig fioInConfigSpec
    (fun r b => fiWB r.params = fiWB (fiBlk (b.fin (ioIdx (parIo r.params)))) ∧
      fiPeriod r.params = fiPeriod (fiBlk (b.fin (ioIdx (parIo r.params))))) (fun _ _ => [])
    (fun r b => b.setFin (ioIdx (parIo r.params)) (fiReopen b
      { b.fin (ioIdx (parIo r.params)) with block := some r.params })) ∧
  Completes .fioReadConfig fioReadConfigSpec (fun r _ => ioKind (parIo r.params) = 0)
    (fun r b => ((b.fin (ioIdx (parIo r.params))).block).getD [0, 0, 0]) (fun _ b => b) ∧
  Completes .fioReadConfig fioReadConfigSpec
    (fun r b => ioKind (parIo r.params) = 1 ∧ (b.fout (ioIdx (parIo r.params))).block = none)
    (fun _ _ => [0, 0, 0]) (fun _ b => b) ∧
  Completes .fioAssign fioAssignSpec
    (fun r b => ioKind (parIo r.params) ≠ 1 ∨ (b.fout (ioIdx (parIo r.params))).st ≠ .on) (fun _ _ => [])
    (fun r b => setIoOwner (parIo r.params) (fld (par r.params 0) 12 8) (par r.params 1) b) ∧
  Completes .fioInState fioInStateSpec (fun _ _ => True) (fun r b => b.fioWords r.tenant) (fun _ b => b) ∧
  Completes .fioEdges fioEdgesSpec (fun r _ => bit (par r.params 0) 8 = false)
    (fun r b => padWords 36 ([wd ((b.fin (parIo r.params)).lost * 2 ^ 16 + b2n (b.fin (parIo r.params)).ovf * 2 ^ 8 +
        (b.fin (parIo r.params)).edges.length),
      wd ((b.fin (parIo r.params)).late * 2 ^ 16 + (b.fin (parIo r.params)).pubCount),
      wd ((b.fin (parIo r.params)).pubStart % 2 ^ 32),
      wd ((b.fin (parIo r.params)).glitch * 2 ^ 16 + (b.fin (parIo r.params)).pubStart / 2 ^ 32 % 2 ^ 16)] ++
      (b.fin (parIo r.params)).edges.flatMap Edge.words))
    (fun r b => b.setFin (parIo r.params) { b.fin (parIo r.params) with edges := [] }) ∧
  Completes .fioOutConfig fioOutConfigSpec
    (fun r b => (b.fout (ioIdx (parIo r.params))).st = .unconf ∧ (b.fout (ioIdx (parIo r.params))).olon = false)
    (fun _ _ => [])
    (fun r b => b.setFout (ioIdx (parIo r.params))
      { b.fout (ioIdx (parIo r.params)) with block := some r.params, st := .off }) ∧
  Completes .fioOut fioOutSpec
    (fun r b => bit (par r.params 0) 8 = false ∧ (b.fout (ioIdx (parIo r.params))).st = .on ∧
      (b.fout (ioIdx (parIo r.params))).next = none)
    (fun r b => [(b.setFout (ioIdx (parIo r.params)) { b.fout (ioIdx (parIo r.params)) with
      st := .off, next := none }).foWord (ioIdx (parIo r.params))])
    (fun r b => b.setFout (ioIdx (parIo r.params)) { b.fout (ioIdx (parIo r.params)) with
      st := .off, next := none }) ∧
  Opens .fioOut fioOutSpec
    (fun r b => bit (par r.params 0) 8 = true ∧ (b.fout (ioIdx (parIo r.params))).st = .off ∧
      (b.fout (ioIdx (parIo r.params))).tlatch = false ∧ (b.fout (ioIdx (parIo r.params))).pend = none ∧
      (b.fout (ioIdx (parIo r.params))).next = none ∧
      foDutyBad (b.fout (ioIdx (parIo r.params))) (fld (par r.params 1) 9 0) = false)
    (fun id r b => b.setFout (ioIdx (parIo r.params)) { b.fout (ioIdx (parIo r.params)) with
      pend := some (fld (par r.params 1) 9 0, [id]) }) ∧
  Completes .fioOutClear fioOutClearSpec
    (fun r b => (b.fout (ioIdx (parIo r.params))).st = .latched ∧ (b.fout (ioIdx (parIo r.params))).tlatch = false)
    (fun r b => [(b.setFout (ioIdx (parIo r.params)) { b.fout (ioIdx (parIo r.params)) with
      st := .off }).foWord (ioIdx (parIo r.params))])
    (fun r b => b.setFout (ioIdx (parIo r.params)) { b.fout (ioIdx (parIo r.params)) with st := .off }) ∧
  Completes .fioOutStatus fioOutStatusSpec (fun _ _ => True) (fun r b => [b.foWord (ioIdx (parIo r.params))])
    (fun _ b => b)

/-- The events of field inputs and outputs take place. fieldOutputSwitch, fieldOutputLimit, fieldOutputThermal,
fieldOutputThermalRelease, fieldOutputDriverFault, fieldOutputOpenLoad, rawTransition, debounceExpiry,
countWindowPublish: each in the states in which its rule lets it occur. -/
def Obligations.FieldEventsHappen : Prop :=
  (∀ (fo : Nat) (duty : Nat) (cmds : List Nat), Happens (fun e => .fieldOutputSwitch e fo)
    (fun u => fo < 16 ∧ (u.fout fo).st = .off ∧ (u.fout fo).pend = some (duty, cmds) ∧ u.bsx = true)
    (fun u => cmds.foldl (fun s id => endCmd id .ok s) (u.setFout fo { u.fout fo with
      st := .on, duty := duty, next := none, pwmFrom := u.bsxClk, pend := none, lim := 0, low := 0, high := 0 }))) ∧
  (∀ (fo : Nat), Happens (fun e => .fieldOutputLimit e fo)
    (fun u => fo < 16 ∧ (u.fout fo).st = .on ∧ (u.fout fo).next = none ∧ u.bsx = true ∧
      foLimBlank (u.fout fo) * 10000 ≤ (u.fout fo).lim)
    (fun u =>
      let s1 := u.setFout fo { u.fout fo with st := .latched, cause := 1, next := none }
      noticeAll (s1.ioAudience (0x40 + fo)) 0x1803 [s1.foWord fo] s1)) ∧
  (∀ (fo : Nat), Happens (fun e => .fieldOutputThermal e fo)
    (fun u => fo < 16 ∧ (u.fout fo).tlatch = false ∧ (u.fout fo).st = .on ∧ u.bsx = true)
    (fun u => foLatch 2 fo (u.setFout fo { u.fout fo with tlatch := true }))) ∧
  (∀ (fo : Nat), Happens (fun e => .fieldOutputThermalRelease e fo)
    (fun u => fo < 16 ∧ (u.fout fo).tlatch = true ∧ u.bsx = true)
    (fun u => u.setFout fo { u.fout fo with tlatch := false })) ∧
  (∀ (fo : Nat), Happens (fun e => .fieldOutputDriverFault e fo)
    (fun u => fo < 16 ∧ (u.fout fo).st = .on ∧ (u.fout fo).next = none ∧ (u.fout fo).pend = none ∧ u.bsx = true)
    (fun u =>
      let s2 := latchFault 3 (u.setFout fo { u.fout fo with st := .latched, cause := 3, next := none })
      logNotice (s2.ioAudience (0x40 + fo)) (s2.fout fo).owner 0x1803 [s2.foWord fo] s2)) ∧
  (∀ (fo : Nat) (below : Bool), Happens (fun e => .fieldOutputOpenLoad e fo below)
    (fun u => fo < 16 ∧ (u.fout fo).st = .on ∧ foOlEn (u.fout fo) = true ∧ u.bsx = true ∧
      10000000 ≤ (if below then (u.fout fo).low else (u.fout fo).high))
    (fun u => u.setFout fo { u.fout fo with olon := below })) ∧
  (∀ (fi v : Nat), Happens (fun e => .rawTransition e fi v)
    (fun u => fi < 48 ∧ v ≠ (u.fin fi).raw ∧ u.fiTakes fi v = true ∧ u.bsx = true ∧
      (u.fin fi).cand = false ∧ v ≠ (u.fin fi).level)
    (fun u => u.setFin fi
      { u.fin fi with raw := v, since := u.tim.full, cand := true, stamp := u.tim.full, stampGen := u.tim.gen })) ∧
  (∀ (fi : Nat), Happens (fun e => .debounceExpiry e fi)
    (fun u => fi < 48 ∧ u.running 5 = true ∧ (u.fin fi).cand = true ∧
      (u.fin fi).since + fiDebounce (fiBlk (u.fin fi)) * 1000 ≤ u.tim.full ∧ (u.fin fi).raw = (u.fin fi).level)
    (fun u => u.setFin fi { u.fin fi with cand := false, glitch := satInc 0xFFFF (u.fin fi).glitch })) ∧
  (∀ (fi : Nat), Happens (fun e => .debounceExpiry e fi)
    (fun u => (16 ≤ fi ∧ fi < 32) ∧ u.running 5 = true ∧ (u.fin fi).cand = true ∧ fiWB (fiBlk (u.fin fi)) = false ∧
      (u.fin fi).since + fiDebounce (fiBlk (u.fin fi)) * 1000 ≤ u.tim.full ∧ (u.fin fi).raw = 1 ∧ (u.fin fi).level =
        0)
    (fun u => queueEdge fi (countEdge u { u.fin fi with level := 1, cand := false, lvl := 1 } true) u)) ∧
  (∀ (fi : Nat), Happens (fun e => .countWindowPublish e fi)
    (fun u => 16 ≤ fi ∧ fi < 32 ∧ u.running 5 = true ∧ fiPeriod (fiBlk (u.fin fi)) ≠ 0 ∧
      ((u.fin fi).nextWin + 1) * (fiPeriod (fiBlk (u.fin fi)) * 1000000) + fiDebounce (fiBlk (u.fin fi)) * 1000 ≤
        u.tim.full)
    (fun u => u.setFin fi (publishWin (u.fin fi))))

/-- The MEA commands and the measurement events take place. meaAiConfig sets an input that serves no other as
reference; meaSeqAssign and meaSeqConfig set owner and words of a sequence that is not armed; meaRun arms it, starting
a software run at once; meaResults answers its table; meaConvert converts on a free converter; sequenceTrigger starts
a run whose converter is free; sequenceRunEnd ends one. -/
def Obligations.MeasurementRowsComplete : Prop :=
  Completes .meaAiConfig meaAiConfigSpec (fun r b => b.servesRef (ioIdx (parIo r.params)) = false) (fun _ _ => [])
    (fun r b => b.setAin (ioIdx (parIo r.params)) { (b.ain (ioIdx (parIo r.params))).leaveMode b.clk with
      mode := fld (par r.params 0) 9 8, ref := fld (par r.params 0) 20 16 }) ∧
  Completes .meaSeqAssign meaSeqAssignSpec (fun r b => (b.seqn (parSeq r.params)).armed = false) (fun _ _ => [])
    (fun r b => b.setSeqn (parSeq r.params) { b.seqn (parSeq r.params) with owner := fld (par r.params 0) 12 8 }) ∧
  Completes .meaSeqConfig meaSeqConfigSpec (fun r b => (b.seqn (parSeq r.params)).armed = false) (fun _ _ => [])
    (fun r b => b.setSeqn (parSeq r.params) { b.seqn (parSeq r.params) with
      conf := some r.params, valid := false, results := [], time := 0, waiting := false, fired := false,
      stale := (b.seqn (parSeq r.params)).running }) ∧
  (∀ (seq : List Word), Completes .meaRun meaRunSpec
    (fun r b => (b.seqn (parSeq r.params)).conf = some seq ∧ b.adcOut (sqAdc seq) = false ∧ bit (par r.params 0) 8 =
      true ∧ sqTsrc seq = 0)
    (fun _ _ => [])
    (fun r b => trigSeq (parSeq r.params) (b.setSeqn (parSeq r.params)
      { b.seqn (parSeq r.params) with armed := true }))) ∧
  (∀ (seq : List Word), Completes .meaRun meaRunSpec
    (fun r b => (b.seqn (parSeq r.params)).conf = some seq ∧ b.adcOut (sqAdc seq) = false ∧ bit (par r.params 0) 8 =
      false ∧ sqTsrc seq = 1)
    (fun _ _ => [])
    (fun r b => b.setSeqn (parSeq r.params)
      { b.seqn (parSeq r.params) with armed := false, waiting := false, fired := false })) ∧
  Completes .meaResults meaResultsSpec (fun r _ => bit (par r.params 0) 8 = true)
    (fun r b => [wd ((b.seqn (parSeq r.params)).time % 2 ^ 32),
      wd (b2n (b.seqn (parSeq r.params)).valid * 2 ^ 24 + (b.seqn (parSeq r.params)).overrun * 2 ^ 16 +
        (b.seqn (parSeq r.params)).time / 2 ^ 32)] ++
      (List.range 16).map (fun k =>
        wd ((((b.seqn (parSeq r.params)).results.map MeaRes.half).getD (2 * k + 1) 0) * 2 ^ 16 +
          ((b.seqn (parSeq r.params)).results.map MeaRes.half).getD (2 * k) 0)))
    (fun r b => b.setSeqn (parSeq r.params) { b.seqn (parSeq r.params) with overrun := 0 }) ∧
  Completes .meaConvert meaConvertSpec
    (fun _ b => (List.range 4).all b.adcOut = false ∧ b.freeAdc.isSome = true ∧ b.mea.converts = [])
    (fun r b => [b.convertWord (fld (par r.params 0) 7 0) (fld (par r.params 0) 10 8)]) (fun _ b => b) ∧
  (∀ (seq : Nat) (b : List Word), Happens (fun e => .sequenceTrigger e seq)
    (fun u => seq < 16 ∧ (u.seqn seq).armed = true ∧ (u.seqn seq).fired = true ∧ (u.seqn seq).conf = some b ∧
      (u.seqn seq).running = false ∧ (u.seqn seq).waiting = false ∧ u.running 5 = true ∧ u.adcBusy (sqAdc b) = false)
    (fun u => u.setSeqn seq { u.seqn seq with
      running := true, fired := false, startTime := u.now, run := b, runAt := u.clk, stale := false })) ∧
  (∀ (seq : Nat) (codes : List Sample), Happens (fun e => .sequenceRunEnd e seq codes)
    (fun u => seq < 16 ∧ (u.seqn seq).running = true ∧ u.bsx = true ∧
      u.runTill (u.seqn seq) ≤ u.clk) (fun u => runEnd seq codes u))

/-- The TIM commands on Tally time, PPS and CAN references complete. timNow and timStatus answer Tally time and the
working domain; timDomain sets an instance; timSet steps Tally time in UNSYNC, FREERUN or GRANDMASTER; timPortlat,
timPps and timCanref set what they name; timPpsin answers the stamps; timAlarm sets an alarm that lies ahead and
clears one. -/
def Obligations.TimeCommandsComplete : Prop :=
  Completes .timNow timNowSpec (fun _ _ => True)
    (fun _ b => [wd b.now, wd (b.now / 2 ^ 32 + b.tfr * 2 ^ 16), wd b.epoch]) (fun _ b => b) ∧
  Completes .timStatus timStatusSpec (fun _ _ => True) (fun _ b => b.timWords) (fun _ b => b) ∧
  Completes .timDomain timDomainSpec (fun r _ => bit (par r.params 0) 18 = false) (fun _ _ => [])
    (fun r b => withWork (setDomain r.params) b) ∧
  Completes .timSet timSetSpec (fun _ b => b.workState ≠ .locked ∧ b.workState ≠ .holdover) (fun _ _ => [])
    (fun r b => (fun (t : State) => { t with tim := { t.tim with sub := 0 } })
      (tallyStep ((par r.params 0).toNat + (par r.params 1).toNat * 2 ^ 32 + (par r.params 2).toNat * 2 ^ 48) b)) ∧
  Completes .timPortlat timPortlatSpec (fun r _ => par r.params 0 = 1) (fun _ _ => [])
    (fun r b => { b with tim := { b.tim with lat1 := (fld (par r.params 1) 15 0, fld (par r.params 1) 31 16) } }) ∧
  Completes .timPps timPpsSpec (fun r _ => bit (par r.params 0) 0 = false) (fun _ _ => [])
    (fun r b => { b with tim := { b.tim with
      ppsOut := false, ppsIn := bit (par r.params 0) 1, ppsWidth := fld (par r.params 0) 24 16, ppsLevel := false
        } }) ∧
  Completes .timPpsin timPpsinSpec (fun _ _ => True)
    (fun _ b => wd b.tim.ppsStamps.length ::
      padWords 8 (b.tim.ppsStamps.flatMap (fun p => [wd p.1, wd (p.1 / 2 ^ 32 + p.2 * 2 ^ 16)]))) (fun _ b => b) ∧
  Completes .timAlarm timAlarmSpec
    (fun r b => par r.params 0 = 1 ∧ 0 < diff48 ((par r.params 1).toNat + (par r.params 2).toNat * 2 ^ 32) b.now)
    (fun _ _ => [])
    (fun r b =>
      { b with tim := { b.tim with alarm := some ((par r.params 1).toNat + (par r.params 2).toNat * 2 ^ 32), alarmDue := false } })
      ∧
  Completes .timAlarm timAlarmSpec (fun r _ => par r.params 0 = 0) (fun _ _ => [])
    (fun _ b => { b with tim := { b.tim with alarm := none, alarmDue := false } }) ∧
  Completes .timCanref timCanrefSpec
    (fun r b => bit (par r.params 0) 8 = true ∧ (b.canc (fld (par r.params 0) 3 0)).legacy = false) (fun _ _ => [])
    (fun r b => b.setRef (fld (par r.params 0) 3 0) { look {} b.tim.canRef (fld (par r.params 0) 3 0) with
      en := true, ide := bit (par r.params 0) 9, fd := bit (par r.params 0) 10, ident := (par r.params 1).toNat })

/-- The TIM commands on triggers and transmit stamps complete. timTrigAssign and timTrigConfig set owner and block of
a trigger that is not armed; timTrigArm arms one whose first firing lies at least 50 µs ahead, and disarms;
timTrigStatus answers four words; timTxqAssign sets the reader of a queue; timTxstamps empties the queue it answers.
-/
def Obligations.TriggerCommandsComplete : Prop :=
  Completes .timTrigAssign timTrigAssignSpec (fun r b => (b.trg (parTt r.params)).armed = false) (fun _ _ => [])
    (fun r b => b.setTrg (parTt r.params) { b.trg (parTt r.params) with owner := fld (par r.params 0) 12 8 }) ∧
  Completes .timTrigConfig timTrigConfigSpec (fun r b => (b.trg (parTt r.params)).armed = false) (fun _ _ => [])
    (fun r b => b.setTrg (parTt r.params) { b.trg (parTt r.params) with block := some r.params }) ∧
  (∀ (blk : List Word), Completes .timTrigArm timTrigArmSpec
    (fun r b => bit (par r.params 0) 8 = true ∧ (b.trg (parTt r.params)).block = some blk ∧
      (b.trg (parTt r.params)).armed = false ∧ lateFirings blk b.now = 0) (fun _ _ => [])
    (fun r b => b.setTrg (parTt r.params) { b.trg (parTt r.params) with
      done := false, made := 0, k := 0, due := false, folded := 0, armed := true })) ∧
  Completes .timTrigArm timTrigArmSpec (fun r _ => bit (par r.params 0) 8 = false) (fun _ _ => [])
    (fun r b => b.setTrg (parTt r.params) { b.trg (parTt r.params) with armed := false, due := false, folded := 0 }) ∧
  Completes .timTrigStatus timTrigStatusSpec (fun _ _ => True) (fun r b => b.trgWords (parTt r.params))
    (fun _ b => b) ∧
  Completes .timTxqAssign timTxqAssignSpec (fun _ _ => True) (fun _ _ => [])
    (fun r b => { b with tim := { b.tim with
      txq := put b.tim.txq (fld (par r.params 0) 3 0)
        { b.txQueue (fld (par r.params 0) 3 0) with reader := fld (par r.params 0) 12 8 } } }) ∧
  Completes .timTxstamps timTxstampsSpec (fun r _ => bit (par r.params 0) 8 = false)
    (fun r b => [wd ((b.txQueue (fld (par r.params 0) 3 0)).lost * 2 ^ 16 + b2n (b.txQueue (fld (par r.params 0) 3
      0)).ovf * 2 ^ 8 +
        (b.txQueue (fld (par r.params 0) 3 0)).entries.length), wd (b.txQueue (fld (par r.params 0) 3 0)).ign] ++
      padWords 32 ((b.txQueue (fld (par r.params 0) 3 0)).entries.flatMap (fun q => [wd q.1, wd (q.1 / 2 ^ 32 + q.2
        * 2 ^ 16)])))
    (fun r b => { b with tim := { b.tim with
      txq := put b.tim.txq (fld (par r.params 0) 3 0) { b.txQueue (fld (par r.params 0) 3 0) with entries := [] } } })

/-- The events of Tally time take place. syncReceived, syncTimeout, holdoverExpiry, tnsWrap, secondWindowEnd,
triggerFiring, ppsOutPulse, ppsInEdge, canrefFup, becomesGrandmaster, ppsOutFall; EPOCH counts the wraps of TNS, and a
count of a past 1 s window reads 0. -/
def Obligations.TimeEventsHappen : Prop :=
  (∀ (inst : Nat) (offset : Int) (gm port : Nat), Happens (fun e => .syncReceived e inst offset gm port)
    (fun u => inst < 2 ∧ u.running 3 = true ∧ u.linked port = true ∧ (u.inst inst).takesSync port u.clk = true)
    (fun u => withWork (syncIn inst (offset - (u.portLat port).2) gm port) u)) ∧
  Happens .syncTimeout
    (fun u => (u.inst 0).st ≠ .locked ∧ (u.inst 1).st = .locked ∧ (u.inst 1).lastSync + 3 * (u.inst 1).interval ≤
      u.clk)
    (fun u => withWork (fun s => instTo 1 .holdover s) u) ∧
  Happens .holdoverExpiry
    (fun u => (u.inst 0).st = .holdover ∧ (u.inst 0).since + 2000000000 ≤ u.clk ∧ (u.inst 1).st = .unsync)
    (fun u => withWork (fun s => instTo 0 .freerun s) u) ∧
  (∀ (e : Stim) (s : State), exec (.tnsWrap e) s = .next (s.advance e) ∧
    (s.advance e).epoch = (s.advance e).tim.full / 2 ^ 48 % 2 ^ 32 ∧ (s.advance e).now = (s.advance e).tim.full % 2 ^ 48) ∧
  (∀ (e : Stim) (s : State) (w : WinCount), exec (.secondWindowEnd e) s = .next (s.advance e) ∧
    ((w.gen, w.sec) ≠ (s.advance e).window → w.now (s.advance e) = 0)) ∧
  (∀ (tt : Nat), Happens (fun e => .triggerFiring e tt)
    (fun u => tt < 32 ∧ (u.trg tt).armed = true ∧ (u.trg tt).due = true ∧
      u.nextFiring (u.trg tt).aim = some tt) (fun u => fire tt u)) ∧
  Happens .ppsOutPulse (fun u => u.tim.ppsOut = true ∧ u.tim.ppsSec ≠ u.ppsNow)
    (fun u => { u with tim := { u.tim with ppsLevel := true, ppsRise := u.clk, ppsSec := u.ppsNow } }) ∧
  Happens .ppsOutFall (fun u => u.tim.ppsLevel = true ∧ u.tim.ppsRise + u.tim.ppsWidth * 1000000 ≤ u.clk)
    (fun u => { u with tim := { u.tim with ppsLevel := false } }) ∧
  Happens .ppsInEdge (fun u => u.tim.ppsIn = true ∧ u.tim.ppsStamps.length < 4 ∧ u.workState ≠ .grandmaster)
    (fun u => { u with tim := { u.tim with ppsStamps := u.tim.ppsStamps ++ [(u.now, u.tfr)] } }) ∧
  (∀ (can : Nat) (seq t : Nat), Happens (fun e => .canrefFup e can)
    (fun u => can < 12 ∧ u.running 5 = true ∧ u.refOn can = true ∧ (look {} u.tim.canRef can).fup = some (seq, t))
    (fun u => refFrame can 31 ([0x18] ++ bytesOf 1 seq ++ bytesOf 6 t)
      (u.setRef can { look {} u.tim.canRef can with fup := none }))) ∧
  Happens .becomesGrandmaster
    (fun u => u.running 3 = true ∧ (u.inst u.tim.wdom).gmCap = true ∧ (u.inst u.tim.wdom).mayLead u.clk = true)
    (fun u => withWork becomeGm u)

/-- The NET configuration commands complete. netPortConfig stores the four words of a clock-gated port; netPortCtl
disables a port in RUN and enables one in RUN at once; netQueueConfig, netVlan, netEtype, netFdbAdd, netFdbDel,
netFdbFlush and netFdbAge write the tables they name. -/
def Obligations.SwitchConfigRowsComplete : Prop :=
  Completes .netPortConfig netPortConfigSpec (fun r b => b.portState (parPort r.params) = .clockGated)
    (fun _ _ => []) (fun r b => b.setSp (parPort r.params) { b.sp (parPort r.params) with conf := r.params }) ∧
  Accepts .netPortCtl netPortCtlSpec
    (fun r b => fld (par r.params 0) 9 8 = 1 ∧ b.ringOn 12 = false ∧ b.ringOn 13 = false ∧
      (b.gate (.port (parPort r.params))).st = .run)
    (fun id r b => b.setGate (.port (parPort r.params)) { b.gate (.port (parPort r.params)) with
      st := .quiescing, deep := false, disCmds := [id], since := b.clk }) ∧
  Completes .netPortCtl netPortCtlSpec
    (fun r b => fld (par r.params 0) 9 8 = 0 ∧ b.ringOn 12 = false ∧ b.ringOn 13 = false ∧
      (b.gate (.port (parPort r.params))).st = .run ∧ b.blkFail (39 + parPort r.params) = false) (fun _ _ => [])
    (fun _ b => b) ∧
  Completes .netQueueConfig netQueueConfigSpec (fun _ _ => True) (fun _ _ => [])
    (fun r b => b.setSp (parPort r.params) { b.sp (parPort r.params) with
      k := put (b.sp (parPort r.params)).k (fld (par r.params 0) 10 8) (signed 4 (fld (par r.params 0) 19 16)),
      age := put (b.sp (parPort r.params)).age (fld (par r.params 0) 10 8) (fld (par r.params 1) 12 0) }) ∧
  Completes .netVlan netVlanSpec (fun r _ => bit (par r.params 0) 16 = true) (fun _ _ => [])
    (fun r b => { b with net := { b.net with
      vlan := put b.net.vlan (fld (par r.params 0) 11 0) (fld (par r.params 1) 15 0, fld (par r.params 1) 31 16)
        } }) ∧
  Completes .netEtype netEtypeSpec (fun _ _ => True) (fun _ _ => [])
    (fun r b => { b with net := { b.net with etype := fld (par r.params 0) 15 0 } }) ∧
  Completes .netFdbAdd netFdbAddSpec
    (fun r b => ((fdbDrop (parMac r.params) (parVid r.params) b).bucket (bucketOf (parMac r.params) (parVid
      r.params))).length < 4)
    (fun _ _ => [])
    (fun r b => (fun (s1 : State) => { s1 with net := { s1.net with fdb := s1.net.fdb ++
      [fdbOf r.params b.clk ((b.fdb? (parMac r.params) (parVid r.params)).any (·.vi))] } })
      (fdbDrop (parMac r.params) (parVid r.params) b)) ∧
  Completes .netFdbDel netFdbDelSpec (fun r b => (b.fdb? (parMac r.params) (parVid r.params)).any (·.vi) = false)
    (fun _ _ => []) (fun r b => fdbDrop (parMac r.params) (parVid r.params) b) ∧
  Completes .netFdbFlush netFdbFlushSpec (fun _ _ => True)
    (fun r b => [wd ((b.net.fdb.filter (fun x => !b.fdbOld x)).length -
      ((b.net.fdb.filter (fun x => !b.fdbOld x)).filter (fun x => !flushHit (par r.params 0) x)).length)])
    (fun r b => { b with net := { b.net with
      fdb := (b.net.fdb.filter (fun x => !b.fdbOld x)).filter (fun x => !flushHit (par r.params 0) x) } }) ∧
  Completes .netFdbAge netFdbAgeSpec (fun _ _ => True) (fun _ _ => [])
    (fun r b => { b with net := { b.net with fdbAge := (par r.params 0).toNat } })

/-- The NET reads complete and the link and ageing events take place. netFdbLookup, netPortStatus, netCounters and
netBuffer answer the words of R326, R325, R322 and R323; linkDown opens the hold window of its port, linkUp ends it,
holdExpire flushes the port, fdbAgeing drops a dynamic entry that has not been refreshed for the ageing time. -/
def Obligations.SwitchReadsAndLinksComplete : Prop :=
  Completes .netFdbLookup netFdbLookupSpec (fun _ _ => True)
    (fun r b => fdbWords (b.fdb? (parMac r.params) (parVid r.params)) b.clk) (fun _ b => b) ∧
  Completes .netPortStatus netPortStatusSpec (fun _ _ => True)
    (fun r b => b.portWord (parPort r.params) :: (List.range 4).map (fun w =>
      wd (cap16 (b.occShared (parPort r.params) (2 * w)) + cap16 (b.occShared (parPort r.params) (2 * w + 1)) * 2 ^
        16)))
    (fun _ b => b) ∧
  Completes .netCounters netCountersSpec (fun r _ => bit (par r.params 0) 8 = true)
    (fun r b => (List.range 17).flatMap (fun j =>
      [wd (look 0 (b.sp (parPort r.params)).cnt j), wd (look 0 (b.sp (parPort r.params)).cnt j / 2 ^ 32)]))
    (fun r b => b.setSp (parPort r.params) { b.sp (parPort r.params) with cnt := [] }) ∧
  Completes .netBuffer netBufferSpec (fun _ _ => True)
    (fun _ b => [wd ((b.sharedSize - b.sharedUsed) + b.sharedSize * 2 ^ 16),
      wd (b.resAll + ((List.range 32).map b.resUsed).sum * 2 ^ 16),
      wd ((List.range 16).foldl (fun m l => min m (2048 - b.laneUsed l)) 2048)]) (fun _ b => b) ∧
  (∀ (port : Nat), Happens (fun e => .linkDown e port) (fun u => port < 14 ∧ (u.sp port).link = true)
    (fun u =>
      let s1 := cutSending port u
      let s2 := netLink port 2 0 (s1.setSp port
        { s1.sp port with link := false, holding := true, expired := false, downAt := s1.clk })
      if (s2.sp port).hold = 0 then holdEnds port s2 else s2)) ∧
  (∀ (port : Nat), Happens (fun e => .linkUp e port)
    (fun u => port < 14 ∧ u.portOn port = true ∧ (u.sp port).link = false ∧ u.holdDue port = false)
    (fun u => netLink port 1 0 (u.setSp port { u.sp port with link := true, holding := false, expired := false }))) ∧
  (∀ (port : Nat), Happens (fun e => .holdExpire e port)
    (fun u => port < 14 ∧ (u.sp port).holding = true ∧ (u.sp port).downAt + (u.sp port).hold * 1000000 ≤ u.clk)
    (fun u => holdEnds port u)) ∧
  (∀ (mac vid : Nat) (x : FdbEntry), Happens (fun e => .fdbAgeing e mac vid)
    (fun u => x ∈ u.net.fdb ∧ x.mac = mac ∧ x.vid = vid ∧ x.static = false ∧ x.at_ + u.net.fdbAge * 1000000000 ≤
      u.clk)
    (fun u => fdbDrop mac vid u))

/-- The TSN commands on change sets, streams, gate lists and shapers complete. tsnCsOpen opens a set that copies the
active tables; tsnCsCommit takes an open set for a time at least 100 µs ahead; tsnCsAbort discards it; tsnStream,
tsnGcl, tsnCbs and tsnTxsaSelect stage into it; tsnStreamRead, tsnStreamStatus and tsnPortStatus answer;
tsnStreamClear restarts a stream. -/
def Obligations.StreamRowsComplete : Prop :=
  Completes .tsnCsOpen tsnCsOpenSpec (fun _ b => b.tsn.set = none) (fun _ b => [wd ((b.tsn.cepoch + 1) % 256)])
    (fun _ b => setSet (some { e := (b.tsn.cepoch + 1) % 256, tab := b.tsn.act }) b) ∧
  (∀ (cs : ChangeSet), Accepts .tsnCsCommit tsnCsCommitSpec
    (fun r b => b.named (par r.params 0).toNat = some cs ∧ cs.t = none ∧ crossOk cs.tab b = true ∧
      (par r.params 1).toNat + (par r.params 2).toNat * 2 ^ 32 ≠ 0 ∧
      100000 ≤ diff48 ((par r.params 1).toNat + (par r.params 2).toNat * 2 ^ 32) b.now)
    (fun id r b => setSet (some { cs with
      t := some (b.nearest ((par r.params 1).toNat + (par r.params 2).toNat * 2 ^ 32)), cmd := id,
      lists := cs.lists.map (fun p => (p.1, { p.2 with base := b.nearest p.2.base })),
      waiting := (cs.lists.map (fun p => (p.1, { p.2 with base := b.nearest p.2.base }))).map (·.1) }) b)) ∧
  (∀ (cs : ChangeSet), Completes .tsnCsAbort tsnCsAbortSpec
    (fun r b => b.named (par r.params 0).toNat = some cs ∧ cs.t = none) (fun _ _ => [])
    (fun _ b => setSet none b)) ∧
  (∀ (cs : ChangeSet), Completes .tsnStream tsnStreamSpec (fun _ b => b.tsn.set = some cs ∧ cs.t = none)
    (fun _ _ => [])
    (fun r b => setSet (some { cs with tab := { cs.tab with
      stream := put cs.tab.stream (fld (par r.params 0) 8 0) r.params } }) b)) ∧
  Completes .tsnStreamRead tsnStreamReadSpec (fun r _ => bit (par r.params 0) 16 = false)
    (fun r b => ctxWords b.tsn.act (fld (par r.params 0) 8 0)) (fun _ b => b) ∧
  Completes .tsnStreamStatus tsnStreamStatusSpec (fun _ _ => True)
    (fun r b => [wd (fld (par r.params 0) 8 0 + b2n (b.strm (fld (par r.params 0) 8 0)).blocked * 2 ^ 16 +
        b2n (b.strm (fld (par r.params 0) 8 0)).takeAny * 2 ^ 17),
      wd ((b.strm (fld (par r.params 0) 8 0)).recov + (b.strm (fld (par r.params 0) 8 0)).resets * 2 ^ 16)] ++
      (List.range 10).map (fun j => wd (look 0 (b.strm (fld (par r.params 0) 8 0)).cnt j))) (fun _ b => b) ∧
  Completes .tsnStreamClear tsnStreamClearSpec (fun _ _ => True) (fun _ _ => [])
    (fun r b => b.setStrm (fld (par r.params 0) 8 0) { b.strm (fld (par r.params 0) 8 0) with
      cnt := [], resets := 0, blocked := false, takeAny := true, lastAcc := none }) ∧
  (∀ (cs : ChangeSet), Completes .tsnGcl tsnGclSpec
    (fun r b => b.tsn.set = some cs ∧ cs.t = none ∧ bit (par r.params 0) 8 = false) (fun _ _ => [])
    (fun r b =>
      let g : GateStage :=
        { entries := gclEntries r.params, cycle := (par r.params 1).toNat, base := (par r.params 2).toNat + (par r.params 3).toNat * 2 ^ 32 }
      setSet (some { cs with lists := put cs.lists (parPort r.params) g }) b)) ∧
  (∀ (cs : ChangeSet), Completes .tsnCbs tsnCbsSpec
    (fun r b => b.tsn.set = some cs ∧ cs.t = none ∧ bit (par r.params 0) 16 = true) (fun _ _ => [])
    (fun r b => setSet (some { cs with tab := { cs.tab with
      cbs := put cs.tab.cbs (parPort r.params * 8 + fld (par r.params 0) 10 8) (par r.params 1).toNat } }) b)) ∧
  (∀ (cs : ChangeSet), Completes .tsnTxsaSelect tsnTxsaSelectSpec (fun _ b => b.tsn.set = some cs ∧ cs.t = none)
    (fun _ _ => [])
    (fun r b => setSet (some { cs with tab := { cs.tab with
      txan := put cs.tab.txan (parPort r.params) (fld (par r.params 0) 9 8) } }) b)) ∧
  Completes .tsnPortStatus tsnPortStatusSpec (fun _ _ => True) (fun r b => b.tsnPortWords (parPort r.params))
    (fun _ b => b)

/-- The MACsec commands complete and the events of gates and change sets take place. tsnMacsecPort, tsnSa and tsnRxsc
write the records they name and tsnMacsecStatus answers twelve words; changeSetSwitch, gateListSwitch,
changeSetComplete, gateEntryChange and recoveryReset take place at their instants. -/
def Obligations.MacsecRowsAndTsnEventsComplete : Prop :=
  Completes .tsnMacsecPort tsnMacsecPortSpec (fun r b => b.portState (parPort r.params) = .clockGated)
    (fun _ _ => [])
    (fun r b => b.setMacp (parPort r.params)
      { b.macp (parPort r.params) with w0 := par r.params 0, replay := par r.params 1 }) ∧
  Completes .tsnSa tsnSaSpec (fun r _ => bit (par r.params 0) 0 = false) (fun _ _ => [])
    (fun r b => { b with tsn := { b.tsn with
      txsa := put b.tsn.txsa (fld (par r.params 0) 11 8 * 4 + fld (par r.params 0) 2 1)
        { valid := bit (par r.params 0) 24, pn := (par r.params 1).toNat + (par r.params 2).toNat * 2 ^ 32,
          ssci := par r.params 3, salt := (r.params.drop 4).take 3, key := (r.params.drop 7).take 8, sci :=
            (r.params.drop 15).take 2 } } }) ∧
  Completes .tsnRxsc tsnRxscSpec (fun _ _ => True) (fun _ _ => [])
    (fun r b => { b with tsn := { b.tsn with
      rxsc := put b.tsn.rxsc (fld (par r.params 0) 5 0)
        { port := fld (par r.params 0) 11 8, valid := bit (par r.params 0) 16,
                                                          sci := (par r.params 1).toNat + (par r.params 2).toNat * 2
                                                            ^ 32 } } }) ∧
  Completes .tsnMacsecStatus tsnMacsecStatusSpec (fun _ _ => True) (fun r b => b.macWords (parPort r.params))
    (fun _ b => b) ∧
  (∀ (cs : ChangeSet) (t : Nat), Happens .changeSetSwitch
    (fun u => u.tsn.set = some cs ∧ cs.switched = false ∧ cs.t = some t ∧ t ≤ u.tim.full)
    (fun u => switchSet cs u)) ∧
  (∀ (gk : GateRef) (cs : ChangeSet) (g : GateStage) (at_ : Nat), Happens (fun e => .gateListSwitch e gk)
    (fun u => gateRefOk gk = true ∧ u.tsn.set = some cs ∧ u.listDue (gateKey gk) = some (g, at_) ∧ at_ ≤ u.tim.full
      ∧ g.entries ≠ [] ∧ cs.lastSwitch = none)
    (fun u => foldKey (gateKey gk) (let s1 := foldKey (gateKey gk) u
      { s1 with tsn := { s1.tsn with
        gate := put s1.tsn.gate (gateKey gk) (g.become at_)
        set := some { cs with waiting := cs.waiting.filter (· != gateKey gk), lastSwitch := some at_ } } }))) ∧
  (∀ (cs : ChangeSet), Happens .changeSetComplete
    (fun u => u.tsn.set = some cs ∧ cs.switched = true ∧ cs.waiting = [])
    (fun u => finishCmd cs.cmd .ok (wd cs.e :: timeWords (cs.lastSwitch.getD (cs.t.getD 0))) (setSet none u))) ∧
  (∀ (gk : GateRef), Happens (fun e => .gateEntryChange e gk)
    (fun u => gateRefOk gk = true ∧ (u.gcl (gateKey gk)).isSome = true) (fun u => foldKey (gateKey gk) u)) ∧
  (∀ (sid : Nat) (a : Nat), Happens (fun e => .recoveryReset e sid)
    (fun u => sid < 512 ∧ stRec (u.ctx sid) = true ∧ (u.strm sid).takeAny = false ∧ (u.strm sid).lastAcc = some a ∧
      a + stReset (u.ctx sid) * 1000000 ≤ u.clk)
    (fun u => u.setStrm sid
      { u.strm sid with takeAny := true, lastAcc := none, resets := satInc 0xFFFF (u.strm sid).resets }))

/-- The BUS commands of the CAN kind complete. busAssign and busCanConfig write a gated controller; busCtl enables one
that is gated and disables one in RUN; busCanFilter writes filter elements; busCanTx fills and requests a buffer;
busCanRx consumes an unread buffer that is not locked; busCanTxe empties the transmit event list; busCanStatus answers
six words. -/
def Obligations.CanCommandsComplete : Prop :=
  Completes .busAssign busAssignSpec
    (fun r b => isCan r.params = true ∧ (b.gate (.can (busIx r.params))).st = .clockGated) (fun _ _ => [])
    (fun r b => b.setCan (busIx r.params) { b.canc (busIx r.params) with
      owner := fld (par r.params 0) 12 8, readers := par r.params 1 }) ∧
  Accepts .busCtl busCtlSpec
    (fun r b => isCan r.params = true ∧ b.ringed (busIx r.params) = false ∧ fld (par r.params 0) 9 8 = 0 ∧
      b.busFail r.params = false ∧ (b.gate (.can (busIx r.params))).st = .clockGated)
    (fun id r b =>
      let s1 := b.setCan (busIx r.params) { b.canc (busIx r.params) with mode := fld (par r.params 0) 13 12 }
      s1.setGate (.can (busIx r.params)) { b.gate (.can (busIx r.params)) with
        st := .starting, cold := false, enCmds := [id], since := b.clk }) ∧
  Accepts .busCtl busCtlSpec
    (fun r b => isCan r.params = true ∧ b.ringed (busIx r.params) = false ∧ fld (par r.params 0) 9 8 = 1 ∧
      (b.gate (.can (busIx r.params))).st = .run)
    (fun id r b => b.setGate (.can (busIx r.params)) { b.gate (.can (busIx r.params)) with
        st := .quiescing, deep := false, disCmds := [id], since := b.clk }) ∧
  Completes .busCanConfig busCanConfigSpec
    (fun r b => b.canState (busIx r.params) = .clockGated ∧ b.refOn (busIx r.params) = false ∧ b.ringed (busIx
      r.params) = false ∧
      layout ((par r.params 0 &&& 0xFF00) :: r.params.tail) ≠ layout (b.canc (busIx r.params)).conf)
    (fun _ _ => [])
    (fun r b => b.setCan (busIx r.params) { (b.canc (busIx r.params)).emptied with
      conf := (par r.params 0 &&& 0xFF00) :: r.params.tail }) ∧
  Completes .busCanFilter busCanFilterSpec (fun _ _ => True) (fun _ _ => [])
    (fun r b => b.setCan (busIx r.params) { b.canc (busIx r.params) with
      filt := ((elems 3 (fld (par r.params 0) 22 16) r.params.tail).zipIdx (fld (par r.params 0) 14 8)).foldl
        (fun t p => put t p.2 p.1) (b.canc (busIx r.params)).filt }) ∧
  Completes .busCanStatus busCanStatusSpec (fun _ _ => True)
    (fun r b => (lockExpire (busIx r.params) b).canStatus (busIx r.params))
    (fun r b => lockExpire (busIx r.params) b) ∧
  Completes .busCanTx busCanTxSpec
    (fun r b => (b.canc (busIx r.params)).mode ≠ 1 ∧ fld (par r.params 0) 14 8 = 0x7F ∧
      (b.canc (busIx r.params)).txFill < (b.canc (busIx r.params)).count 2)
    (fun r b => [wd (b.canc (busIx r.params)).putNo])
    (fun r b => fifoPut (busIx r.params) (txFill (busIx r.params) (b.canc (busIx r.params)).putNo 2 r.params b)) ∧
  Completes .busCanTx busCanTxSpec
    (fun r b => (b.canc (busIx r.params)).mode ≠ 1 ∧ fld (par r.params 0) 14 8 ≠ 0x7F ∧
      b.reserved (busIx r.params) (fld (par r.params 0) 14 8) = false ∧
      (b.canc (busIx r.params)).pend.testBit (fld (par r.params 0) 14 8) = false)
    (fun r b => [wd ((b.canc (busIx r.params)).bufNo 3 (fld (par r.params 0) 14 8))])
    (fun r b => priRequest (busIx r.params) (fld (par r.params 0) 14 8)
      (txFill (busIx r.params) ((b.canc (busIx r.params)).bufNo 3 (fld (par r.params 0) 14 8)) 3 r.params b)) ∧
  (∀ (buf : Nat), Completes .busCanRx busCanRxSpec
    (fun r b => fld (par r.params 0) 14 8 = 0x7F ∧ (b.canc (busIx r.params)).lock = none ∧
      (b.canc (busIx r.params)).rxfHead = some buf) (fun r b => b.canElem (busIx r.params) buf)
    (fun r b => (consume (busIx r.params) buf b).setCan (busIx r.params)
      { (consume (busIx r.params) buf b).canc (busIx r.params) with lock := none })) ∧
  Completes .busCanTxe busCanTxeSpec (fun r _ => bit (par r.params 0) 8 = false)
    (fun r b => wd ((b.canc (busIx r.params)).txe.length + b2n ((b.canc (busIx r.params)).flags.testBit 4) * 2 ^ 8 +
        (b.canc (busIx r.params)).txeLost * 2 ^ 16) ::
      ((b.canc (busIx r.params)).txe.flatMap (fun t => [t.w0, t.w1, t.w2]) ++
        List.replicate (48 - ((b.canc (busIx r.params)).txe.flatMap (fun t => [t.w0, t.w1, t.w2])).length) 0))
    (fun r b => b.setCan (busIx r.params) { b.canc (busIx r.params) with txe := [] })

/-- The accesses to a CAN window take place. For a requester bound to the controller's owner: txfPut commits the
buffer at the put position, txbReq and txbCancel act on each bit that is set, txbDoneClear and flagsClear clear bits,
messageRamWrite writes an aligned word, txeHeadRead removes the oldest event, headerWord0Read locks an unread buffer
and lastWordRead consumes a locked one; lockExpiry releases a lock after 100 µs. -/
def Obligations.CanWindowRowsHappen : Prop :=
  (∀ (who can : Nat) (value : Word), Happens (fun e => .txfPut e who can value)
    (fun u => can < 12 ∧ u.running 5 = true ∧ u.boundTo who (u.canc can).owner = true ∧
      bit value 0 = true) (fun u => fifoPut can u)) ∧
  (∀ (who can : Nat) (value : Word), Happens (fun e => .txbReq e who can value)
    (fun u => can < 12 ∧ u.running 5 = true ∧ u.boundTo who (u.canc can).owner = true)
    (fun u => (setBits 32 value.toNat).foldl (fun s p => priRequest can p s) u)) ∧
  (∀ (who can : Nat) (value : Word), Happens (fun e => .txbCancel e who can value)
    (fun u => can < 12 ∧ u.running 5 = true ∧ u.boundTo who (u.canc can).owner = true)
    (fun u => (setBits 32 value.toNat).foldl (fun s p => priCancel can p s) u)) ∧
  (∀ (who can : Nat) (value : Word), Happens (fun e => .txbDoneClear e who can value)
    (fun u => can < 12 ∧ u.running 5 = true ∧ u.boundTo who (u.canc can).owner = true)
    (fun u => u.setCan can { u.canc can with done := (u.canc can).done &&& (2 ^ 32 - 1 - value.toNat) })) ∧
  (∀ (who can : Nat) (value : Word), Happens (fun e => .flagsClear e who can value)
    (fun u => can < 12 ∧ u.running 5 = true ∧ u.boundTo who (u.canc can).owner = true ∧
      bit value 4 = false)
    (fun u => u.setCan can { u.canc can with flags := (u.canc can).flags &&& (2 ^ 32 - 1 - value.toNat) })) ∧
  (∀ (who can off : Nat) (value : Word), Happens (fun e => .messageRamWrite e who can off value)
    (fun u => can < 12 ∧ u.running 5 = true ∧ u.boundTo who (u.canc can).owner = true ∧
      off < 0xC000 ∧ 0x0C00 ≤ off ∧ off % 4 = 0 ∧ ((u.canc can).bufAt off).bind (u.canc can).groupOf = none)
    (fun u => u.writeMem (winBase can + off) (bytesOf 4 value.toNat))) ∧
  (∀ (who can : Nat) (t : TxEvent) (ts : List TxEvent), Happens (fun e => .txeHeadRead e who can)
    (fun u => can < 12 ∧ u.running 5 = true ∧ u.boundTo who (u.canc can).owner = true ∧
      (u.canc can).txe = t :: ts)
    (fun u => { u.setCan can { u.canc can with txe := ts } with rdata := [t.w0, t.w1, t.w2] })) ∧
  (∀ (who can buf : Nat), Happens (fun e => .headerWord0Read e who can buf)
    (fun u => can < 12 ∧ u.running 5 = true ∧ u.boundTo who (u.canc can).owner = true ∧
      buf < 128 ∧ (u.canc can).lock = none ∧ (u.canc can).unread buf = true)
    (fun u =>
      let s2 := u.setCan can { u.canc can with lock := some (buf, u.clk) }
      { s2 with rdata := [s2.canRead can (24 * buf)] })) ∧
  (∀ (who can buf : Nat) (at_ : Nat), Happens (fun e => .lastWordRead e who can buf)
    (fun u => can < 12 ∧ u.running 5 = true ∧ u.boundTo who (u.canc can).owner = true ∧
      ((u.canc can).groupOf buf).isSome = true ∧ (u.canc can).lock = some (buf, at_) ∧ u.clk < at_ + 100000)
    (fun u =>
      { consume can buf u with rdata := [u.canRead can (u.lastWord can buf)] })) ∧
  (∀ (can : Nat) (b at_ : Nat), Happens (fun e => .lockExpiry e can)
    (fun u => can < 12 ∧ (u.canc can).lock = some (b, at_) ∧ at_ + 100000 ≤ u.clk)
    (fun u => canNotice can 0x3003 [wd (b * 2 ^ 16 + can)] (u.setCan can { u.canc can with
      lock := none, flags := (u.canc can).flags ||| 2, lockExp := satInc 0xFFFF (u.canc can).lockExp })))

/-- The events on a CAN bus take place. canFrameReceived receives a frame of a controller on the bus; canArbitration
selects before an arbitration; canTransmitOutcome ends the attempt in progress; canError sets LEC and the counters;
busOffRecovery returns to error-active with counters 0; lonePauseEnd ends the pause after 100 ms. -/
def Obligations.CanBusEventsHappen : Prop :=
  (∀ (can : Nat) (f : CanFrame) (ago : Nat), Happens (fun e => .canFrameReceived e can f ago)
    (fun u => frameOk f = true ∧ u.canTakes can = true) (fun u => decFrame can f (canHeard can ago f u))) ∧
  (∀ (can : Nat), Happens (fun e => .canArbitration e can)
    (fun u => can < 12 ∧ (prepareOver can u).canIdle can = true)
    (fun u =>
      let v := prepareOver can u
      arbitrate can (v.setCan can { v.canc can with lonePause := none }))) ∧
  (∀ (can tdcv : Nat) (t : CanTx), Happens (fun e => .canTransmitOutcome e can .success tdcv)
      (fun u => can < 12 ∧ u.canUp can = true ∧ (u.canc can).sending = some t ∧ fastPhase t.frame = false)
      (fun u => txSuccess can t u)) ∧
  (∀ (can lec : Nat) (tx alt : Bool), Happens (fun e => .canError e can lec tx alt)
    (fun u => can < 12 ∧ u.canUp can = true ∧ 1 ≤ lec ∧ lec ≤ 7 ∧ lec ≠ 3 ∧ (u.canc can).estate ≠ 2 ∧ (u.canc
      can).mode ≠ 1 ∧
      ((u.canc can).errStep lec tx alt).1 ≤ 255)
    (fun u =>
      let k := (u.canc can).errStep lec tx alt
      decError can (setErr can k.1 k.2 (stateFor k.1 k.2) (u.setCan can { u.canc can with lec := lec })))) ∧
  (∀ (can : Nat), Happens (fun e => .busOffRecovery e can)
    (fun u => can < 12 ∧ u.canUp can = true ∧ (u.canc can).estate = 2 ∧ u.offOver can = true)
    (fun u => setErr can 0 0 0 u)) ∧
  (∀ (can : Nat) (t : Nat), Happens (fun e => .lonePauseEnd e can)
    (fun u => can < 12 ∧ (u.canc can).lonePause = some t ∧ t + 100000000 ≤ u.clk)
    (fun u => u.setCan can { u.canc can with lonePause := none }))

/-- The BUS commands of the LIN kind complete. busLinConfig writes a gated channel; busLinFrames writes frame entries
while no schedule runs; busLinSchedule writes a table that does not run; busLinRun selects a table at once between
slots and at the slot's end within one; busLinData stores the data of a frame and marks it updated; busLinRead answers
a response and clears its NEW mark; busLinStatus answers two words; busLinSleep sends the go-to-sleep frame with no
schedule running, else asks for it; busLinWake wakes a sleeping bus. Each leaves every other part of the unit as it
was but for the reply. -/
def Obligations.LinCommandsComplete : Prop :=
  Completes .busLinConfig busLinConfigSpec (fun r b => (b.gate (.lin (busIx r.params))).st = .clockGated)
    (fun _ _ => [])
    (fun r b => b.setLin (busIx r.params)
      { b.lin (busIx r.params) with conf := [par r.params 0 &&& 0x700, par r.params 1] }) ∧
  Completes .busLinFrames busLinFramesSpec
    (fun r b => ((linSettle (busIx r.params) b).lin (busIx r.params)).table = 15) (fun _ _ => [])
    (fun r b =>
      let x := (linSettle (busIx r.params) b).lin (busIx r.params)
      b.setLin (busIx r.params)
        { x with frames := (r.params.tail.zipIdx (parId r.params)).foldl (fun t p => put t p.2 p.1) x.frames }) ∧
  Completes .busLinSchedule busLinScheduleSpec
    (fun r b =>
      let x := (linSettle (busIx r.params) b).lin (busIx r.params)
      let t := fld (par r.params 0) 11 8
      (x.table ≠ t ∨ t = 15) ∧ x.resume.any (fun y => y.1 == t) = false) (fun _ _ => [])
    (fun r b =>
      let x := (linSettle (busIx r.params) b).lin (busIx r.params)
      b.setLin (busIx r.params) { x with sched := put x.sched (fld (par r.params 0) 11 8) r.params.tail }) ∧
  Completes .busLinRun busLinRunSpec (fun r b => (b.lin (busIx r.params)).slotEnd = none) (fun _ _ => [])
    (fun r b => select (busIx r.params) (fld (par r.params 0) 11 8) b) ∧
  (∀ (z : Nat), Completes .busLinRun busLinRunSpec
    (fun r b => (b.lin (busIx r.params)).slotEnd = some z ∧ b.clk < z) (fun _ _ => [])
    (fun r b => b.setLin (busIx r.params)
      { b.lin (busIx r.params) with next := some (fld (par r.params 0) 11 8), resume := none })) ∧
  Completes .busLinData busLinDataSpec (fun _ _ => True) (fun _ _ => [])
    (fun r b => b.setLin (busIx r.params) { b.lin (busIx r.params) with
      data := put (b.lin (busIx r.params)).data (parId r.params) (wordBytes [par r.params 1, par r.params 2])
      updated := if (b.lin (busIx r.params)).updated.contains (parId r.params) then (b.lin (busIx r.params)).updated
        else (b.lin (busIx r.params)).updated ++ [parId r.params] }) ∧
  Completes .busLinRead busLinReadSpec (fun _ _ => True)
    (fun r b =>
      let x := look {} (b.lin (busIx r.params)).rx (parId r.params)
      wd (x.status + x.len * 2 ^ 8 + b2n x.new * 2 ^ 16) :: wordsOf 2 x.data ++ timeWords x.stamp)
    (fun r b =>
      b.setLin (busIx r.params) { b.lin (busIx r.params) with
        rx := put (b.lin (busIx r.params)).rx (parId r.params)
          { look {} (b.lin (busIx r.params)).rx (parId r.params) with new := false } }) ∧
  Completes .busLinStatus busLinStatusSpec (fun r b => (b.lin (busIx r.params)).slotEnd = none)
    (fun r b => [wd ((b.gate (.lin (busIx r.params))).st.code +
        (b.lin (busIx r.params)).table * 2 ^ 8 + (b.lin (busIx r.params)).slot * 2 ^ 16 +
        b2n (b.lin (busIx r.params)).sleep * 2 ^ 24), wd (b.lin (busIx r.params)).errs]) (fun _ b => b) ∧
  Completes .busLinSleep busLinSleepSpec
    (fun r b => (b.lin (busIx r.params)).slotEnd = none ∧ (b.lin (busIx r.params)).table = 15 ∧
      (b.lin (busIx r.params)).header = none ∧ b.linStarts (busIx r.params) = true) (fun _ _ => [])
    (fun r b => sleepNow (busIx r.params) b) ∧
  Completes .busLinSleep busLinSleepSpec
    (fun r b => (b.lin (busIx r.params)).slotEnd = none ∧ (b.lin (busIx r.params)).table ≠ 15) (fun _ _ => [])
    (fun r b =>
      b.setLin (busIx r.params) { b.lin (busIx r.params) with sleepAsk := true }) ∧
  Completes .busLinWake busLinWakeSpec (fun r b => (b.lin (busIx r.params)).sleep = true) (fun _ _ => [])
    (fun r b => b.setLin (busIx r.params)
      { b.lin (busIx r.params) with sleep := false, pulse := some b.clk, lastAct := b.clk })

/-- The events on a LIN bus take place. linSlotStart starts the next slot of a running schedule; linHeaderReceived
takes up a header, or counts a faulty one; linResponseEnd ends the response to the header on the bus;
linResponderSleep sends a responder to sleep after 4 s without activity; linWakeDetect wakes the bus and posts
LIN_WAKE. -/
def Obligations.LinEventsHappen : Prop :=
  (∀ (lin : Nat), Happens (fun e => .linSlotStart e lin)
    (fun u => lin < 8 ∧ u.linStarts lin = true ∧ (u.lin lin).commander = true ∧
      (u.lin lin).table ≠ 15 ∧ (u.lin lin).slotEnd = none ∧ (u.lin lin).sleep = false)
    (fun u => slotStart lin u)) ∧
  (∀ (lin id : Nat) (ok : Bool) (ago : Nat), Happens (fun e => .linHeaderReceived e lin id ok ago)
    (fun u => lin < 8 ∧ id < 64 ∧ ok = true ∧ u.linUp lin = true ∧
      (u.lin lin).commander = false ∧ (u.lin lin).sleep = false)
    (fun u => u.setLin lin
      { u.lin lin with lastAct := u.clk, hdrEnd := u.clk, header := some (id, u.tim.full - ago, false) })) ∧
  (∀ (lin id : Nat) (ok : Bool) (ago : Nat), Happens (fun e => .linHeaderReceived e lin id ok ago)
    (fun u => lin < 8 ∧ id < 64 ∧ ok = false ∧ u.linUp lin = true ∧
      (u.lin lin).commander = false ∧ (u.lin lin).sleep = false)
    (fun u => linErr lin id 5 (u.setLin lin
      { u.lin lin with lastAct := u.clk, hdrEnd := u.clk, header := none }))) ∧
  (∀ (lin status : Nat) (data : List Byte) (id stamp : Nat), Happens (fun e => .linResponseEnd e lin status data)
    (fun u => lin < 8 ∧ u.linUp lin = true ∧ status = 2 ∧ data.length ≤ 8 ∧
      (u.lin lin).header = some (id, stamp, false) ∧ (u.lin lin).publishes id = false ∧ frDir ((u.lin lin).frame id)
        = 2 ∧ u.linLate lin id = false)
    (fun u =>
      sleepDue lin <| linErr lin id 2 (u.setLin lin { u.lin lin with
        header := none, lastAct := u.clk
        rx := put (u.lin lin).rx id { status := 2, len := data.length, new := true, data := data, stamp := stamp }
          }))) ∧
  (∀ (lin : Nat), Happens (fun e => .linResponderSleep e lin)
    (fun u => lin < 8 ∧ u.linUp lin = true ∧ (u.lin lin).commander = false ∧ (u.lin lin).sleep = false ∧
      (u.lin lin).lastAct + 4000000000 ≤ u.clk) (fun u => linSleep lin u)) ∧
  (∀ (lin : Nat), Happens (fun e => .linWakeDetect e lin) (fun u => lin < 8 ∧ (u.lin lin).sleep = true)
    (fun u =>
      linNotice lin 0x3012 [wd (16 + lin)] (u.setLin lin { u.lin lin with sleep := false, lastAct := u.clk })))

/-- The rows of the gateway service complete. gatewayLookup takes the frame whose turn it is and routes it; acfPduSend
sends the PDU being packed after MAXWAIT; acfPduReceived accepts a PDU of a listener; gwyRoute writes entries with
HITS kept, gwyRouteRead answers one; gwyAcf writes a context, gwyAcfStatus answers four words; gwyQueue sets GAGE;
gwyStatus answers three words, of a CAN controller or a LIN channel. -/
def Obligations.GatewayRowsComplete : Prop :=
  (∀ (i : GwItem) (rest : List GwItem), Happens .gatewayLookup
    (fun u => u.alive 5 = true ∧ u.alive 3 = true ∧ takeItem u.gwy.items = some (i, rest))
    (fun u => routeItem i { u with gwy := { u.gwy with items := rest } })) ∧
  (∀ (ctx : Nat), Happens (fun e => .acfPduSend e ctx)
    (fun u => ctx < 64 ∧ u.running 3 = true ∧ (u.acf ctx).msgs ≠ [] ∧
      (u.acf ctx).firstAt + acfWait (u.acf ctx).words ≤ u.clk) (fun u => acfSend ctx u)) ∧
  (∀ (pdu : AcfPdu) (c : Nat), Happens (fun e => .acfPduReceived e pdu)
    (fun u => u.running 3 = true ∧ u.listener? pdu.streamId = some c ∧
      (pdu.subtype = 0x82 ∨ pdu.subtype = 0x04))
    (fun u =>
      pdu.msgs.foldl (fun s m => acfMsgIn c m s) (u.setAcf c { u.acf c with
        pdus := ((u.acf c).pdus + 1) % 2 ^ 32, seq := pdu.seqNum % 256, seen := true
        seqErr := if (u.acf c).seen ∧ pdu.seqNum ≠ ((u.acf c).seq + 1) % 256 then satInc 0xFFFF (u.acf c).seqErr
          else (u.acf c).seqErr }))) ∧
  Completes .gwyRoute gwyRouteSpec (fun _ b => b.gwy.items = []) (fun _ _ => [])
    (fun r b => { b with gwy := { b.gwy with
      route := ((elems 6 (fld (par r.params 0) 21 16) r.params.tail).zipIdx (fld (par r.params 0) 11 0)).foldl
        (fun t p => put t p.2 { look {} t p.2 with words := p.1 }) b.gwy.route } }) ∧
  Completes .gwyRouteRead gwyRouteReadSpec (fun _ _ => True)
    (fun r b => (look {} b.gwy.route (fld (par r.params 0) 11 0)).words ++
      [wd (look {} b.gwy.route (fld (par r.params 0) 11 0)).hits]) (fun _ b => b) ∧
  Completes .gwyAcf gwyAcfSpec
    (fun r b => (b.acf (fld (par r.params 0) 5 0)).msgs = [] ∧ (acfListener r.params = true →
        ∀ p ∈ b.gwy.acf, p.1 ≠ fld (par r.params 0) 5 0 → acfListener p.2.words = true →
          acfStream p.2.words ≠ acfStream r.params)) (fun _ _ => [])
    (fun r b =>
      let k := fld (par r.params 0) 5 0
      b.setAcf k { b.acf k with
        words := r.params, msgs := []
        seen := (b.acf k).seen && acfStream (b.acf k).words == acfStream r.params &&
          bit (par (b.acf k).words 0) 8 == bit (par r.params 0) 8 }) ∧
  Completes .gwyAcfStatus gwyAcfStatusSpec (fun _ _ => True)
    (fun r b =>
      let x := b.acf (fld (par r.params 0) 5 0)
      [wd x.pdus, wd x.count, wd (x.seqErr + x.drops * 2 ^ 16), wd x.seq]) (fun _ b => b) ∧
  Completes .gwyQueue gwyQueueSpec (fun _ _ => True) (fun _ _ => [])
    (fun r b => b.setCan (busIx r.params) { b.canc (busIx r.params) with gage := fld (par r.params 0) 25 16 }) ∧
  Completes .gwyStatus gwyStatusSpec (fun r _ => isCan r.params = true)
    (fun r b =>
      let x := b.canc (busIx r.params)
      [wd (x.gwCount + x.gqDrop * 2 ^ 16), wd (x.fmtDrop + x.aged * 2 ^ 16), wd (x.miss + x.dstDown * 2 ^ 16)])
    (fun _ b => b) ∧
  Completes .gwyStatus gwyStatusSpec (fun r _ => isCan r.params = false)
    (fun r b => [0, 0, wd (b.lin (busIx r.params)).miss]) (fun _ b => b)

/-- The NMG commands complete. nmgRingConfig starts a disabled ring with its defaults, or stores the words of a ring
that stays disabled; nmgCluster sets a cluster; nmgRequest replaces the tenant's request; nmgWakeConfig stores its two
words, each followed at once by what the change means for the rings; nmgStatus answers four words, nmgWakeCause three.
-/
def Obligations.NmgCommandsComplete : Prop :=
  Completes .nmgRingConfig nmgRingConfigSpec
    (fun r b => (b.ring (fld (par r.params 0) 3 0)).st = .disabled ∧ bit (par r.params 0) 8 = true ∧
      fld (par r.params 0) 3 0 < 12 ∧ (b.canc (fld (par r.params 0) 3 0)).legacy = false ∧ b.ringFail (fld (par
        r.params 0) 3 0) = false ∧
      b.canState (fld (par r.params 0) 3 0) = .run) (fun _ _ => [])
    (fun r b => nmgSettle true (startRing (fld (par r.params 0) 3 0)
      (b.setRing (fld (par r.params 0) 3 0) { ringReset (fld (par r.params 0) 3 0) with words := r.params }))) ∧
  Completes .nmgRingConfig nmgRingConfigSpec
    (fun r b => (b.ring (fld (par r.params 0) 3 0)).st = .disabled ∧ bit (par r.params 0) 8 = false)
    (fun _ _ => [])
    (fun r b =>
      nmgSettle true (b.setRing (fld (par r.params 0) 3 0)
        { b.ring (fld (par r.params 0) 3 0) with words := r.params })) ∧
  Completes .nmgCluster nmgClusterSpec (fun r _ => bit (par r.params 0) 8 = true) (fun _ _ => [])
    (fun r b => nmgSettle true { b with nmg := { b.nmg with
      cluster := put b.nmg.cluster (fld (par r.params 0) 4 0)
        { valid := true, member := bit (par r.params 0) 9, rings := fld (par r.params 0) 23 16 } } }) ∧
  Completes .nmgRequest nmgRequestSpec (fun _ _ => True) (fun _ _ => [])
    (fun r b => nmgSettle true { b with nmg := { b.nmg with
      req := put b.nmg.req r.tenant ((par r.params 0).toNat, (par r.params 1).toNat) } }) ∧
  Completes .nmgStatus nmgStatusSpec (fun _ _ => True)
    (fun r b =>
      let n := fld (par r.params 0) 3 0
      let x := b.ring n
      [wd (x.round * 2 ^ 24 + x.leader * 2 ^ 16 + x.node * 2 ^ 8 + b2n (b.consent n && x.st != .disabled) * 2 ^ 4 +
        x.st.code),
       wd x.members, wd (b.received n), wd (x.vetoes + x.badind * 2 ^ 16)]) (fun _ b => b) ∧
  Completes .nmgWakeConfig nmgWakeConfigSpec (fun _ _ => True) (fun _ _ => [])
    (fun r b => nmgSettle true { b with nmg := { b.nmg with
      wake0 := par r.params 0, wake1 := par r.params 1 } }) ∧
  Completes .nmgWakeCause nmgWakeCauseSpec (fun _ _ => True) (fun _ b => b.wakeWord :: timeWords b.nmg.causeAt)
    (fun _ b => b)

/-- The events of a Poppy ring take place. ringMessageReceived takes a message of another node; ringSend sends TTYP
after the module was addressed; ringSilence removes a member silent for TMAX; aliveSend sends the first ALIVE of a
starting ring; veto sends a RING when consent was withdrawn; prepareEnd begins the release after TPREP;
releaseComplete puts the ring to sleep; pnSleepEntry sends LEAVE; clusterFrameReceived records a request,
clusterFrameSend sends the module's own, pntoExpiry removes old ones; decoderSilence stops a decoder. -/
def Obligations.RingEventsHappen : Prop :=
  (∀ (ring : Nat) (m : RingMsg), Happens (fun e => .ringMessageReceived e ring m)
    (fun u => ring < 12 ∧ u.ringHears ring = true ∧ ringMsgOk m = true ∧ u.ringAwake ring = true ∧ u.canTakes ring =
      true)
    (fun u =>
      canHeard ring m.ago ((u.ring ring).canFrame (u.ring ring).base m.src
        (bytesOf 1 (m.kind + b2n m.pn * 4) ++ bytesOf 1 m.dst ++ bytesOf 1 m.round ++ [0] ++ bytesOf 4 m.consent))
          u)) ∧
  (∀ (ring : Nat) (m : RingMsg), Happens (fun e => .ringMessageReceived e ring m)
    (fun u => 12 ≤ ring ∧ ring < 14 ∧ u.ringHears ring = true ∧ ringMsgOk m = true ∧ (u.ring ring).st = .starting)
    (fun u =>
      let x := (u.ring ring).pruned u.clk
      u.setRing ring { x with
        members := memberStep x m, round := m.round, consent := m.consent
        heard := x.heard || m.kind == 0, last := lastStep u.clk x m
        turn := if m.dst = x.node ∧ (m.kind = 0 ∨ m.kind = 3) then some ⟨u.clk, m.round, m.consent⟩ else x.turn })) ∧
  (∀ (ring : Nat) (m : RingMsg), Happens (fun e => .ringMessageReceived e ring m)
    (fun u => 12 ≤ ring ∧ ring < 14 ∧ u.ringHears ring = true ∧ ringMsgOk m = true ∧ m.kind < 2 ∧
      (u.ring ring).st = .prepare ∧ u.clk < (u.ring ring).enteredAt + (u.ring ring).tprep)
    (fun u => pnNote (ringTo ring .ring (u.setRing ring { u.ring ring with
      members := memberStep (u.ring ring) m, round := m.round, consent := m.consent
      heard := (u.ring ring).heard || m.kind == 0, last := lastStep u.clk (u.ring ring) m
      turn := if m.dst = (u.ring ring).node ∧ (m.kind = 0 ∨ m.kind = 3) then some ⟨u.clk, m.round, m.consent⟩
        else (u.ring ring).turn
      vetoes := satInc 0xFFFF (u.ring ring).vetoes })) ring)) ∧
  (∀ (ring : Nat) (t : Turn), Happens (fun e => .ringSend e ring)
    (fun u => ring < 14 ∧ u.ringUp ring = true ∧ (u.ring ring).st = .ring ∧ (u.ring ring).out = none ∧
      (u.ring ring).turn = some t ∧ t.at_ + (u.ring ring).ttyp ≤ u.clk)
    (fun u => ringSend ring
      (if (u.ring ring).leader = (u.ring ring).node ∧ t.consent &&& (u.ring ring).members = (u.ring ring).members ∧
          u.consent ring then { u.ownRing ring with kind := 2, round := t.round } else u.ownRing ring) u)) ∧
  (∀ (ring : Nat) (a d t : Nat), Happens (fun e => .ringSilence e ring)
    (fun u => ring < 14 ∧ u.ringUp ring = true ∧ (u.ring ring).st = .ring ∧
      (u.ring ring).last = some (a, d, t) ∧ a ≠ d ∧ d ≠ (u.ring ring).node ∧ t + (u.ring ring).tmax ≤ u.clk)
    (fun u => silent ring d u)) ∧
  (∀ (ring : Nat), Happens (fun e => .aliveSend e ring)
    (fun u => ring < 14 ∧ u.ringUp ring = true ∧ (u.ring ring).st = .starting ∧ (u.ring ring).out = none ∧
      u.nmg.wakeBus = none ∧ (u.ring ring).aliveAt = none)
    (fun u => ringSend ring { u.ownRing ring with
      kind := 1, dst := (u.ring ring).node, round := (u.ring ring).round } u)) ∧
  (∀ (ring : Nat), Happens (fun e => .veto e ring)
    (fun u => ring < 14 ∧ u.consent ring = true ∧ u.ringUp ring = true ∧ (u.ring ring).st = .ring ∧
      (u.ring ring).vetoDue ≠ none ∧ (u.ring ring).out = none)
    (fun u => ringSend ring { u.ownRing ring with
      consent := delBit (addBit (u.ring ring).members (u.ring ring).node) (u.ring ring).node } u)) ∧
  (∀ (ring : Nat), Happens (fun e => .prepareEnd e ring)
    (fun u => ring < 14 ∧ (u.ring ring).st = .prepare ∧
      (u.ring ring).enteredAt + (u.ring ring).tprep ≤ u.clk)
    (fun u => nmgSettle true (gateStop (ringFn ring)
      ((ringTo ring .disengage u).setRing ring { (ringTo ring .disengage u).ring ring with
        enteredAt := (u.ring ring).enteredAt + (u.ring ring).tprep })))) ∧
  (∀ (ring : Nat), Happens (fun e => .releaseComplete e ring)
    (fun u => ring < 14 ∧ (u.ring ring).st = .disengage ∧ (u.gate (ringFn ring)).st = .clockGated ∧
      (u.ring ring).wake = none)
    (fun u => nmgSettle true (ringTo ring (if (u.ring ring).toPn then .pnSleep else .busSleep) u))) ∧
  (∀ (ring : Nat) (t : Nat), Happens (fun e => .pnSleepEntry e ring)
    (fun u => ring < 8 ∧ u.ringUp ring = true ∧ (u.ring ring).out = none ∧ u.pnReady ring = true ∧
      (u.ring ring).pnSince = some t ∧ t + (u.ring ring).ttyp ≤ u.clk)
    (fun u => ringSend ring { u.ownRing ring with
      kind := 3, round := (u.ring ring).round } u)) ∧
  (∀ (ring node : Nat) (m : ClMsg), Happens (fun e => .clusterFrameReceived e ring node m)
    (fun u => ring < 12 ∧ u.ringHears ring = true ∧ node < 32 ∧ (u.ring ring).st ≠ .disabled ∧ (u.ring ring).pnEn =
      true ∧
      u.canTakes ring = true)
    (fun u => canHeard ring m.ago
      ((u.ring ring).canFrame (u.ring ring).clBase node (bytesOf 4 m.clreq.toNat)) u)) ∧
  (∀ (ring node : Nat) (m : ClMsg), Happens (fun e => .clusterFrameReceived e ring node m)
    (fun u => 12 ≤ ring ∧ ring < 14 ∧ u.ringHears ring = true ∧ node < 32 ∧ (u.ring ring).st ≠ .disabled ∧
      (u.ring ring).st ≠ .prepare)
    (fun u =>
      let x := u.ring ring
      let now := x.clreq.filter (fun p => decide (u.clk ≤ p.2.1 + x.pnto))
      if u.needs ring m.clreq.toNat = true then
        u.setRing ring { x with clreq := now ++ [(node, u.clk, m.clreq.toNat)], pnSince := none }
      else pnNote (u.setRing ring { x with clreq := now ++ [(node, u.clk, m.clreq.toNat)] }) ring)) ∧
  (∀ (ring : Nat), Happens (fun e => .clusterFrameSend e ring)
    (fun u => ring < 12 ∧ u.ringUp ring = true ∧ (u.ring ring).pnEn = true ∧ (u.ring ring).clOut = none ∧
      (u.ring ring).st = .ring ∧ (u.ring ring).clSent = none)
    (fun u => ownFrame ring 29 ((u.ring ring).clBase + (u.ring ring).node)
      (u.ring ring).xtd (bytesOf 4 u.clReq) (u.setRing ring { u.ring ring with clOut := some u.clReq }))) ∧
  (∀ (ring : Nat), Happens (fun e => .clusterFrameSend e ring)
    (fun u => 12 ≤ ring ∧ ring < 14 ∧ u.ringUp ring = true ∧ (u.ring ring).clOut = none ∧
      (u.ring ring).st = .starting ∧ (u.ring ring).aliveAt ≠ none ∧ (u.ring ring).clSent = none)
    (fun u => clusterSent ring
      (tellerSend { port := ring, plain := true } 7 (u.ringFrame ring 1 (bytesOf 4 u.clReq))
        (settleNet (u.setRing ring { u.ring ring with clOut := some u.clReq }))))) ∧
  (∀ (ring : Nat), Happens (fun e => .pntoExpiry e ring)
    (fun u => ring < 14 ∧ (find? u.nmg.ring ring).isSome = true)
    (fun u => pnNote (u.setRing ring { u.ring ring with
      clreq := (u.ring ring).clreq.filter (fun p => decide (u.clk ≤ p.2.1 + (u.ring ring).pnto)) }) ring)) ∧
  (∀ (can : Nat), Happens (fun e => .decoderSilence e can)
    (fun u => can < 8 ∧ (u.ring can).decRun = true ∧ (u.ring can).decAt + 600000000 ≤ u.clk)
    (fun u => u.setRing can { u.ring can with decRun := false }))

/-- The CPU commands complete. cpuPartConfig stores the block; cpuPartCtl enables a power-gated partition, disables
one in RUN to either gate, and answers OK for a disable of one that is at the clock gate; cpuDebug splits or joins a
pair; cpuResync opens the resync of a stopped pair; cpuInject trips a pair with INJECT; the three reads answer their
words, cpuMemStatus clearing its counts when asked. -/
def Obligations.CpuCommandsComplete : Prop :=
  Completes .cpuPartConfig cpuPartConfigSpec
    (fun r b => b.partOff (fld (par r.params 0) 2 0) = true ∧ partRangeOk r.params = true ∧ entryOk r.params = true ∧
      (blockRegions r.params).all regionOk = true ∧ (blockRegions r.params).all (fun g => b.clearOfVault g.1 g.2.1)
        = true ∧
      b.seatTaken r.params = false) (fun _ _ => [])
    (fun r b =>
      let s1 := leaveSeat (fld (par r.params 0) 2 0) r.params b
      s1.setPart (fld (par r.params 0) 2 0) { s1.part (fld (par r.params 0) 2 0) with block := some r.params }) ∧
  Accepts .cpuPartCtl cpuPartCtlSpec
    (fun r b => fld (par r.params 0) 9 8 = 0 ∧ b.seatOk (b.blk (partIx r.params)) = true ∧
      b.partState (partIx r.params) = .powerGated)
    (fun id r b => (b.setPart (partIx r.params) { b.part (partIx r.params) with keep := false }).setGate
      (.part (partIx r.params)) { b.gate (.part (partIx r.params)) with
        st := .starting, cold := true, enCmds := [id], since := b.clk }) ∧
  Accepts .cpuPartCtl cpuPartCtlSpec
    (fun r b => (fld (par r.params 0) 9 8 = 1 ∨ fld (par r.params 0) 9 8 = 2) ∧ b.partState (partIx r.params) = .run ∧
      ∀ q ∈ seatPairs (b.blk (partIx r.params)), (b.pair q).role ≠ .resync)
    (fun id r b => (holdHarts (partIx r.params) b).setGate
      (.part (partIx r.params)) { b.gate (.part (partIx r.params)) with
        st := .quiescing, deep := fld (par r.params 0) 9 8 == 2, disCmds := [id], since := (holdHarts (partIx
          r.params) b).clk }) ∧
  Completes .cpuPartCtl cpuPartCtlSpec
    (fun r b => fld (par r.params 0) 9 8 = 1 ∧ b.partState (partIx r.params) = .clockGated) (fun _ _ => [])
    (fun _ b => b) ∧
  Completes .cpuDebug cpuDebugSpec (fun r b => bit (par r.params 0) 8 = false ∧ b.splits (pairIx r.params) = true)
    (fun _ _ => []) (fun r b => pairSplit (pairIx r.params) b) ∧
  Completes .cpuDebug cpuDebugSpec
    (fun r b => bit (par r.params 0) 8 = true ∧ (b.pair (pairIx r.params)).role = .split ∧
      (b.pair (pairIx r.params)).halted = true) (fun _ _ => []) (fun r b => pairJoin (pairIx r.params) b) ∧
  Accepts .cpuResync cpuResyncSpec
    (fun r b => (b.pair (pairIx r.params)).role = .stopped ∧ (b.pair (partner (pairIx r.params))).role = .alone ∧
      (b.pair (partner (pairIx r.params))).part = (b.pair (pairIx r.params)).part)
    (fun id r b => b.setPair (pairIx r.params)
      { b.pair (pairIx r.params) with role := .resync, tripAt := b.clk, cmd := some id }) ∧
  Completes .cpuInject cpuInjectSpec
    (fun r b => (b.pair (pairIx r.params)).role ≠ .idle ∧ (b.pair (pairIx r.params)).role ≠ .split ∧
      (b.pair (pairIx r.params)).role ≠ .stopped) (fun _ _ => []) (fun r b => pairTrip (pairIx r.params) 6 b) ∧
  Completes .cpuPartStatus cpuPartStatusSpec (fun _ _ => True) (fun r b => b.partWords (partIx r.params))
    (fun _ b => b) ∧
  Completes .cpuPairStatus cpuPairStatusSpec (fun _ _ => True) (fun _ b => (List.range 4).map b.pairWord)
    (fun _ b => b) ∧
  Completes .cpuMemStatus cpuMemStatusSpec (fun _ _ => True)
    (fun _ b => (List.range 22).map (fun m =>
      wd (b.spareRows m * 2 ^ 28 + (b.memCnt m).unc * 2 ^ 16 + (b.memCnt m).corr)))
    (fun r b => if bit (par r.params 0) 8 then
      (List.range 22).foldl (fun s m => s.setMemCnt m { s.memCnt m with unc := 0, corr := 0 }) b else b)

/-- The events of partitions and lockstep pairs take place. partitionStart brings a starting partition to RUN;
comparatorTrip stops the partition of a pair without a spare and hands over to the spare of a quad;
injectedMismatchTest and stateSignatureSweep trip a pair that fails and change nothing for one that passes;
resyncHandover joins the pair as SPARE with the running pair's tile; coreStorageError stops the partition;
debugHaltRequest splits a pair or holds a performance core. -/
def Obligations.PairEventsHappen : Prop :=
  (∀ (p : Nat), Happens (fun e => .partitionStart e p)
    (fun u => p < 8 ∧ u.confd p = true ∧ u.running 0 = true ∧ u.partState p = .starting ∧
      u.seatOk (u.blk p) = true ∧ u.seatTested (u.blk p) = false) (fun u => partStart p u)) ∧
  (∀ (trip : TripRef) (cause : Nat), Happens (fun e => .comparatorTrip e trip cause)
    (fun u => trip.pair < 4 ∧ u.running 0 = true ∧ (cause = 1 ∨ cause = 2 ∨ cause = 3) ∧ trip.both = false ∧
      (u.pair trip.pair).role = .single ∧ u.partState (u.pair trip.pair).part = .run)
    (fun u => partStop (u.pair trip.pair).part cause (tripNote trip.pair cause 1 (u.setPair trip.pair
      { u.pair trip.pair with diverges := satInc 255 (u.pair trip.pair).diverges, cause := cause })))) ∧
  (∀ (trip : TripRef) (cause : Nat), Happens (fun e => .comparatorTrip e trip cause)
    (fun u => trip.pair < 4 ∧ u.running 0 = true ∧ (cause = 1 ∨ cause = 2 ∨ cause = 3) ∧ trip.both = false ∧
      (u.pair trip.pair).role = .primary ∧ u.partState (u.pair trip.pair).part = .run ∧
      (u.pair (partner trip.pair)).role = .spare ∧ (u.pair (partner trip.pair)).part = (u.pair trip.pair).part)
    (fun u =>
      let p := (u.pair trip.pair).part
      let s2 := pairOut trip.pair (tripNote trip.pair cause 2 (u.setPair trip.pair
        { u.pair trip.pair with diverges := satInc 255 (u.pair trip.pair).diverges, cause := cause }))
      s2.setPart p { s2.part p with switchovers := satInc 0xFFFF (s2.part p).switchovers })) ∧
  (∀ (trip : TripRef) (cause : Nat), Happens (fun e => .comparatorTrip e trip cause)
    (fun u => trip.pair < 4 ∧ u.running 0 = true ∧ (cause = 1 ∨ cause = 2 ∨ cause = 3) ∧ trip.both = true ∧
      (u.pair trip.pair).role = .primary ∧ u.partState (u.pair trip.pair).part = .run ∧
      (u.pair (partner trip.pair)).role = .spare) (fun u => quadTrip trip.pair cause u)) ∧
  (∀ (pair : Nat) (pass : Bool), Happens (fun e => .injectedMismatchTest e pair pass)
    (fun u => u.tested pair = true) (fun u => if pass then u else pairTrip pair 3 u)) ∧
  (∀ (pair : Nat) (equal : Bool), Happens (fun e => .stateSignatureSweep e pair equal)
    (fun u => u.tested pair = true) (fun u => if equal then u else pairTrip pair 4 u)) ∧
  (∀ (pair cause : Nat), Happens (fun e => .resyncHandover e pair cause)
    (fun u => pair < 4 ∧ u.running 0 = true ∧ (u.pair pair).role = .resync ∧ cause = 0)
    (fun u => handover pair 0 (tileCopy (partner pair) pair u))) ∧
  (∀ (pair cause : Nat), Happens (fun e => .resyncHandover e pair cause)
    (fun u => pair < 4 ∧ u.running 0 = true ∧ (u.pair pair).role = .resync ∧ 1 ≤ cause ∧ cause ≤ 4)
    (fun u => resyncAbandon pair .stopped (u.setPair pair
      { u.pair pair with diverges := satInc 255 (u.pair pair).diverges, cause := cause }))) ∧
  (∀ (pc : Nat) (p : Nat), Happens (fun e => .coreStorageError e pc)
    (fun u => pc < 4 ∧ u.partOfHart (4 + pc) = some p ∧ u.partState p = .run) (fun u => partStop p 7 u)) ∧
  (∀ (req : DebugReq) (sc : Nat), Happens (fun e => .debugHaltRequest e req)
    (fun u => 4 ≤ req.hart ∧ req.hart < 8 ∧ req.go = false ∧ u.running 0 = true ∧ u.vlt.session = some sc ∧
      sc.testBit 0 = true ∧
      (u.hart req.hart).gate = none) (fun u => u.setHart req.hart { u.hart req.hart with run := false })) ∧
  (∀ (req : DebugReq) (sc : Nat), Happens (fun e => .debugHaltRequest e req)
    (fun u => req.hart < 4 ∧ req.go = false ∧ u.running 0 = true ∧ u.vlt.session = some sc ∧ sc.testBit 0 = true ∧
      (u.hart (u.debugHart req.hart)).gate = none ∧ u.splits req.hart = true) (fun u => pairSplit req.hart u))

/-- The events at harts and memories take place. patrolRead corrects or counts; uncorrectableRead counts and raises
the access fault of the hart that read; tallyRead latches TALLY and TALLYEP; csrWriteTrap and accessRefused raise
their exceptions, but for an access that a window or a spill region ignores, which is recorded and reads 0, a fetch of
which is an illegal instruction (DEDUCED, log 42); ecall sets a0 to BAD_OPCODE and goes on at the next instruction. -/
def Obligations.HartAndMemoryEventsHappen : Prop :=
  (∀ (addr kind : Nat) (m : Nat), Happens (fun e => .patrolRead e addr kind)
    (fun u => u.running 1 = true ∧ memIndex addr = some m ∧ m < 16 ∧ kind = 1) (fun u => patrolFix m addr u)) ∧
  (∀ (addr kind : Nat) (m : Nat), Happens (fun e => .patrolRead e addr kind)
    (fun u => u.running 1 = true ∧ memIndex addr = some m ∧ m < 16 ∧ kind = 2) (fun u => uncorrectable m addr u)) ∧
  (∀ (who addr : Nat) (m : Nat), Happens (fun e => .uncorrectableRead e who addr)
    (fun u => who < 8 ∧ memIndex (aliasAddr who addr) = some m ∧ u.hartRuns who = true)
    (fun u => takeExc who 5 addr (uncorrectable m (aliasAddr who addr) u))) ∧
  (∀ (who addr : Nat) (m : Nat), Happens (fun e => .uncorrectableRead e who addr)
    (fun u => 8 ≤ who ∧ who < 16 ∧ memIndex (aliasAddr (who - 8) addr) = some m ∧ u.hartRuns (who - 8) = true)
    (fun u => takeExc (who - 8) 1 addr (uncorrectable m (aliasAddr (who - 8) addr) u))) ∧
  (∀ (who addr : Nat) (m : Nat), Happens (fun e => .uncorrectableRead e who addr)
    (fun _ => who = 16 ∧ memIndex addr = some m) (fun u => uncorrectable m addr u)) ∧
  (∀ (rd : CsrRead), Happens (fun e => .tallyRead e rd)
    (fun u => rd.hart < 8 ∧ rd.csr = 0xCC0 ∧ u.running 0 = true ∧ u.hartRuns rd.hart = true)
    (fun u =>
      let s1 := u.setHart rd.hart { u.hart rd.hart with
        tally := BitVec.ofNat 64 (u.now + u.tfr * 2 ^ 48), tallyEp := BitVec.ofNat 64 (u.epoch + u.tim.steps * 2 ^
          32) }
      { s1 with rdata := [wd (u.now + u.tfr * 2 ^ 48), wd ((u.now + u.tfr * 2 ^ 48) / 2 ^ 32)] })) ∧
  (∀ (rd : CsrRead) (v : Nat), Happens (fun e => .tallyRead e rd)
    (fun u => rd.hart < 8 ∧ rd.csr ≠ 0xCC0 ∧ u.csrRead rd.hart rd.csr = some v ∧ u.running 0 = true ∧ u.hartRuns
      rd.hart = true)
    (fun u => { u with rdata := [wd v, wd (v / 2 ^ 32)] })) ∧
  (∀ (hart csr : Nat), Happens (fun e => .csrWriteTrap e hart csr)
    (fun u => hart < 8 ∧ u.running 0 = true ∧ u.hartRuns hart = true ∧ 0xCC0 ≤ csr ∧ csr ≤ 0xCC2)
    (fun u => takeExc hart 2 csr u)) ∧
  (∀ (who addr : Nat) (acc : Access), Happens (fun e => .accessRefused e who addr acc)
    (fun u => who < 8 ∧ u.running 0 = true ∧ u.hartRuns who = true ∧ acc.kind < 3 ∧ u.quiet who addr acc = none ∧
      u.hartMay who addr acc.kind = false)
    (fun u =>
      takeExc who (if acc.kind = 0 then 5 else if acc.kind = 1 then 7 else 1) addr
        (logFirst 3 0x40 (((u.partOfHart who).bind u.boundTen).getD 0xFF) addr u))) ∧
  (∀ (who addr : Nat) (acc : Access) (mark group t : Nat), Happens (fun e => .accessRefused e who addr acc)
    (fun u => who < 8 ∧ u.running 0 = true ∧ u.hartRuns who = true ∧ acc.kind < 3 ∧
      u.quiet who addr acc = some (mark, group, t))
    (fun u =>
      let v := logFirst mark group t addr u
      if acc.kind = 0 then { v with rdata := [0] } else if acc.kind = 1 then v else takeExc who 2 0 v)) ∧
  (∀ (who addr : Nat) (acc : Access), Happens (fun e => .accessRefused e who addr acc)
    (fun u => who < 8 ∧ u.running 0 = true ∧ u.hartRuns who = true ∧ (acc.kind = 3 ∨ acc.kind = 4) ∧
      (acc.width = 32 ∨ acc.width = 64) ∧ addr % (acc.width / 8) ≠ 0)
    (fun u => takeExc who (if acc.kind = 3 then 4 else 6) addr u)) ∧
  (∀ (hart : Nat), Happens (fun e => .ecall e hart)
    (fun u => hart < 8 ∧ u.running 0 = true ∧ u.hartRuns hart = true ∧ (u.hart hart).gate = none)
    (fun u =>
      u.setHart hart { (u.hart hart).setReg 10 0x100 with pc := (u.hart hart).pc + 4 }))

/-- The VLT commands complete, and calls over Hiast enter the mailbox. A call command, with the Vault in RUNNING,
BOOTING or RESTARTING, stands last among those that wait for Teller's slots 48 to 63, and the first that waits takes
the first free one; vltStatus answers four words and vltMeasure twelve; vltConfig sets home pair and VBUDGET;
vltMboxAssign assigns a FREE slot; vltRestart restarts a RUNNING Vault that has begun fewer than three restarts in the
60 s before, and is accepted; of a Vault that boots or restarts it waits for the end; BUSY while the Vault is
SUSPENDED, INTERNAL once it has FAILED, LIFECYCLE once it is RETIRED. -/
def Obligations.VaultCommandsComplete : Prop :=
  Opens .vltRandom vltRandomSpec
    (fun _ b => b.vlt.mode = .running ∨ b.vlt.mode = .booting ∨ b.vlt.mode = .restarting)
    (fun id _ b => vltFill { b with vlt := { b.vlt with waiting := b.vlt.waiting ++ [id] } }) ∧
  Opens .vltHash vltHashSpec (fun _ b => b.vlt.mode = .running ∨ b.vlt.mode = .booting ∨ b.vlt.mode = .restarting)
    (fun id _ b => vltFill { b with vlt := { b.vlt with waiting := b.vlt.waiting ++ [id] } }) ∧
  Opens .vltMac vltMacSpec (fun _ b => b.vlt.mode = .running ∨ b.vlt.mode = .booting ∨ b.vlt.mode = .restarting)
    (fun id _ b => vltFill { b with vlt := { b.vlt with waiting := b.vlt.waiting ++ [id] } }) ∧
  Opens .vltCipher vltCipherSpec
    (fun _ b => b.vlt.mode = .running ∨ b.vlt.mode = .booting ∨ b.vlt.mode = .restarting)
    (fun id _ b => vltFill { b with vlt := { b.vlt with waiting := b.vlt.waiting ++ [id] } }) ∧
  Opens .vltAead vltAeadSpec (fun _ b => b.vlt.mode = .running ∨ b.vlt.mode = .booting ∨ b.vlt.mode = .restarting)
    (fun id _ b => vltFill { b with vlt := { b.vlt with waiting := b.vlt.waiting ++ [id] } }) ∧
  Opens .vltSign vltSignSpec (fun _ b => b.vlt.mode = .running ∨ b.vlt.mode = .booting ∨ b.vlt.mode = .restarting)
    (fun id _ b => vltFill { b with vlt := { b.vlt with waiting := b.vlt.waiting ++ [id] } }) ∧
  Opens .vltVerify vltVerifySpec
    (fun _ b => b.vlt.mode = .running ∨ b.vlt.mode = .booting ∨ b.vlt.mode = .restarting)
    (fun id _ b => vltFill { b with vlt := { b.vlt with waiting := b.vlt.waiting ++ [id] } }) ∧
  Opens .vltKex vltKexSpec (fun _ b => b.vlt.mode = .running ∨ b.vlt.mode = .booting ∨ b.vlt.mode = .restarting)
    (fun id _ b => vltFill { b with vlt := { b.vlt with waiting := b.vlt.waiting ++ [id] } }) ∧
  Opens .vltKeyGen vltKeyGenSpec
    (fun _ b => b.vlt.mode = .running ∨ b.vlt.mode = .booting ∨ b.vlt.mode = .restarting)
    (fun id _ b => vltFill { b with vlt := { b.vlt with waiting := b.vlt.waiting ++ [id] } }) ∧
  Opens .vltKeyImport vltKeyImportSpec
    (fun _ b => b.vlt.mode = .running ∨ b.vlt.mode = .booting ∨ b.vlt.mode = .restarting)
    (fun id _ b => vltFill { b with vlt := { b.vlt with waiting := b.vlt.waiting ++ [id] } }) ∧
  Opens .vltKeyPublic vltKeyPublicSpec
    (fun _ b => b.vlt.mode = .running ∨ b.vlt.mode = .booting ∨ b.vlt.mode = .restarting)
    (fun id _ b => vltFill { b with vlt := { b.vlt with waiting := b.vlt.waiting ++ [id] } }) ∧
  Opens .vltKeyDelete vltKeyDeleteSpec
    (fun _ b => b.vlt.mode = .running ∨ b.vlt.mode = .booting ∨ b.vlt.mode = .restarting)
    (fun id _ b => vltFill { b with vlt := { b.vlt with waiting := b.vlt.waiting ++ [id] } }) ∧
  Opens .vltKeyInfo vltKeyInfoSpec
    (fun _ b => b.vlt.mode = .running ∨ b.vlt.mode = .booting ∨ b.vlt.mode = .restarting)
    (fun id _ b => vltFill { b with vlt := { b.vlt with waiting := b.vlt.waiting ++ [id] } }) ∧
  Opens .vltCert vltCertSpec (fun _ b => b.vlt.mode = .running ∨ b.vlt.mode = .booting ∨ b.vlt.mode = .restarting)
    (fun id _ b => vltFill { b with vlt := { b.vlt with waiting := b.vlt.waiting ++ [id] } }) ∧
  Opens .vltLcNonce vltLcNonceSpec
    (fun _ b => b.vlt.mode = .running ∨ b.vlt.mode = .booting ∨ b.vlt.mode = .restarting)
    (fun id _ b => vltFill { b with vlt := { b.vlt with waiting := b.vlt.waiting ++ [id] } }) ∧
  Opens .vltLcAdvance vltLcAdvanceSpec
    (fun _ b => b.vlt.mode = .running ∨ b.vlt.mode = .booting ∨ b.vlt.mode = .restarting)
    (fun id _ b => vltFill { b with vlt := { b.vlt with waiting := b.vlt.waiting ++ [id] } }) ∧
  Completes .vltStatus vltStatusSpec (fun _ _ => True)
    (fun _ b => [b.vstate, wd ((b.wm 0).level + (b.wm 1).level * 2 ^ 16), wd (b.wm 2).level,
      wd ((b.wm 3).level + (b.wm 4).level * 2 ^ 8 + (b.wm 5).level * 2 ^ 16 + (b.wm 6).level * 2 ^ 24)])
    (fun _ b => b) ∧
  Completes .vltConfig vltConfigSpec (fun _ _ => True) (fun _ _ => [])
    (fun r b => { b with vlt := { b.vlt with
      home := fld (par r.params 0) 1 0, budget := fld (par r.params 0) 29 16, used := b.served, win := b.clk /
        10000000 } }) ∧
  Completes .vltMboxAssign vltMboxAssignSpec (fun r b => (b.slot (fld (par r.params 0) 5 0)).st = .free)
    (fun _ _ => [])
    (fun r b => b.setSlot (fld (par r.params 0) 5 0)
      { b.slot (fld (par r.params 0) 5 0) with
        part := if bit (par r.params 0) 8 then some (fld (par r.params 0) 18 16) else none }) ∧
  Accepts .vltRestart vltRestartSpec (fun _ b => b.vlt.mode = .booting ∨ b.vlt.mode = .restarting)
    (fun id _ b => { b with vlt := { b.vlt with
      restartCmds := b.vlt.restartCmds ++ [id] } }) ∧
  Accepts .vltRestart vltRestartSpec (fun _ b => b.vlt.mode = .running ∧ b.recentStarts < 3)
    (fun id _ b => { vaultRestart 3 b with vlt := { (vaultRestart 3 b).vlt with
      restartCmds := (vaultRestart 3 b).vlt.restartCmds ++ [id] } }) ∧
  Fails .vltRestart vltRestartSpec (fun _ b => b.vlt.mode = .suspended) .busy (fun _ b => b) ∧
  Fails .vltRestart vltRestartSpec (fun _ b => b.vlt.mode = .failed) .internal (fun _ b => b) ∧
  Fails .vltRestart vltRestartSpec (fun _ b => b.vlt.mode = .retired) .lifecycle (fun _ b => b) ∧
  Completes .vltMeasure vltMeasureSpec (fun _ _ => True) (fun _ b => wordsOf 12 b.vlt.meas) (fun _ b => b)

/-- The writes to watermark registers take place. wmRaise and wmLower write a higher or lower LEVEL into every
register to which the write applies, wmRefusedClear clears REFUSED; zeroiseComplete zeroes the released range and
gives LEVEL its TARGET. The first three are stated for a register that stands alone. -/
def Obligations.WatermarkEventsHappen : Prop :=
  (∀ (idx : Nat) (value : Word), Happens (fun e => .wmRaise e idx value)
    (fun u => u.vaultUp = true ∧ idx < 7 ∧ (u.wm idx).level < wmLevel idx value ∧ u.wmTargets idx = [idx] ∧
      (u.wm idx).busy = false ∧ bit value 30 = false ∧ idx ≠ 0)
    (fun u => u.setWm idx { u.wm idx with
      level := wmLevel idx value, target := wmLevel idx value })) ∧
  (∀ (idx : Nat) (value : Word), Happens (fun e => .wmLower e idx value)
    (fun u => u.vaultUp = true ∧ idx < 7 ∧ wmLevel idx value < (u.wm idx).level ∧ u.wmTargets idx = [idx] ∧
      (u.wm idx).busy = false ∧ bit value 30 = false)
    (fun u => u.setWm idx { u.wm idx with
      busy := true, target := wmLevel idx value })) ∧
  (∀ (idx : Nat) (value : Word), Happens (fun e => .wmRefusedClear e idx value)
    (fun u => u.vaultUp = true ∧ idx < 7 ∧ bit value 30 = true ∧ u.wmTargets idx = [idx] ∧
      wmLevel idx value = (u.wm idx).level ∧ (u.wm idx).busy = false)
    (fun u => u.setWm idx { u.wm idx with refused := false })) ∧
  (∀ (idx : Nat), Happens (fun e => .zeroiseComplete e idx) (fun u => idx < 7 ∧ (u.wm idx).busy = true)
    (fun u =>
      (u.clearMem (wmBase idx + (u.wm idx).target * 0x10000) (((u.wm idx).level - (u.wm idx).target) *
        0x10000)).setWm idx
        { u.wm idx with level := (u.wm idx).target, busy := false }))

/-- The events of the Vault take place. vgateStore enters a call, or raises an access fault for a store that is none;
gateReturn and mailboxDone end a call, shown for one whose right fails and for HASH; mbPost and mbRelease change a
slot of the requester's; mailboxServe takes the next slot; vaultRestart and vaultHang begin a restart; vaultRunning
ends one; drbgReseed, fuseWriteComplete, vaultClaimRelease, dbgnonce, dbgauth and dbgend have the effects of their
rules. -/
def Obligations.VaultEventsHappen : Prop :=
  (∀ (hart width value : Nat) (x : List Nat), Happens (fun e => .vgateStore e hart width value x)
    (fun u => hart < 4 ∧ width = 64 ∧ value < 256 ∧ u.running 0 = true ∧ u.hartRuns hart = true ∧
      (u.hart hart).gate = none ∧ (u.partOfHart hart).isSome = true ∧ u.vlt.mode = .running)
    (fun u =>
      let regs := (List.range 31).foldl (fun r i => put r (i + 1) (BitVec.ofNat 64 (x.getD (i + 1) 0))) (u.hart
        hart).x
      let y : Hart := { u.hart hart with x := regs, pc := BitVec.ofNat 64 (x.getD 0 0) }
      let g : Shadow := { x := y.x, f := y.f, fcsr := y.fcsr, pc := y.pc, func := value
                          tenant := (u.partOfHart hart).bind u.boundTen, since := u.clk }
      u.setHart hart { y with gate := some g })) ∧
  (∀ (hart width value : Nat) (x : List Nat), Happens (fun e => .vgateStore e hart width value x)
    (fun u => hart < 8 ∧ (4 ≤ hart ∨ width ≠ 64 ∨ 256 ≤ value) ∧ u.running 0 = true ∧ u.hartRuns hart = true ∧
      (u.hart hart).gate = none ∧ (u.partOfHart hart).isSome = true) (fun u => takeExc hart 7 0x50000000 u)) ∧
  (∀ (hart : Nat) (g : Shadow) (st : Status), Happens (fun e => .gateReturn e hart)
    (fun u => u.running 0 = true ∧ u.vlt.mode = .running ∧ u.mayEnd (.hart hart) = true ∧ (u.hart hart).gate = some
      g ∧
      callRight g.func g.tenant u = some st) (fun u => gateEnd hart { st := st } u)) ∧
  (∀ (hart : Nat) (g : Shadow), Happens (fun e => .gateReturn e hart)
    (fun u => u.running 0 = true ∧ u.vlt.mode = .running ∧ u.mayEnd (.hart hart) = true ∧ (u.hart hart).gate = some
      g ∧
      callRight g.func g.tenant u = none ∧ g.func = 0x11 ∧ blockOk 0x11 (gateBlock g) = true ∧
      u.buffersOk ((u.partOfHart hart).getD 0) 0x11 (gateBlock g) = true ∧ cAlg (gateBlock g) ≠ 0 ∧ cAlg (gateBlock
        g) ≤ 6 ∧
      hashLen (cAlg (gateBlock g)) ≤ (cBuf (gateBlock g) 2).2)
    (fun u =>
      let d := Config.hash (cAlg (gateBlock g)) (u.readMem (cBuf (gateBlock g) 0).1 (cBuf (gateBlock g) 0).2)
      gateEnd hart { out := fit (hashLen (cAlg (gateBlock g))) d } u)) ∧
  (∀ (who slot : Nat) (p : Nat), Happens (fun e => .mbPost e who slot)
    (fun u => slot < 64 ∧ (u.slot slot).part = some p ∧ who = 0x100 + p ∧ (u.slot slot).st = .free ∧
      u.vlt.mode = .running)
    (fun u =>
      let s1 := u.setSlot slot { u.slot slot with st := .posted, at_ := u.vlt.nextPost }
      { s1 with vlt := { s1.vlt with nextPost := u.vlt.nextPost + 1 } })) ∧
  (∀ (who slot : Nat) (p : Nat), Happens (fun e => .mbRelease e who slot)
    (fun u => slot < 64 ∧ (u.slot slot).part = some p ∧ who = 0x100 + p ∧
      ((u.slot slot).st = .done ∨ (u.slot slot).st = .posted))
    (fun u => u.setSlot slot { u.slot slot with st := .free })) ∧
  (∀ (n : Nat), Happens .mailboxServe
    (fun u => u.homeUp = true ∧ u.vlt.serving = none ∧ u.vlt.fuse = none ∧ u.nextSlot = some n ∧
      u.served < u.vlt.budget * 1000)
    (fun u =>
      let s1 := u.setSlot n { u.slot n with st := .running }
      { s1 with vlt := { s1.vlt with serving := some (n, u.clk), used := u.served, win := u.clk / 10000000 } })) ∧
  (∀ (n at_ p : Nat) (st : Status), Happens .mailboxDone
    (fun u => u.homeUp = true ∧ u.vlt.serving = some (n, at_) ∧ u.mayEnd (.slot n) = true ∧ (u.slot n).cmd = none ∧
      (u.slot n).part = some p ∧ callRight (u.slot n).func (u.boundTen p) u = some st)
    (fun u => slotEnd n { st := st } u)) ∧
  (∀ (n at_ : Nat) (c : Cmd), Happens .mailboxDone
    (fun u => u.homeUp = true ∧ u.vlt.serving = some (n, at_) ∧ u.mayEnd (.slot n) = true ∧
      (u.slot n).cmd.bind u.cmd? = some c ∧ blockOk (u.slot n).func (u.slot n).call = true ∧ hiastOk c.params = true ∧
      (u.slot n).func = 0x11 ∧ cAlg (c.params.take 16) ≠ 0 ∧ cAlg (c.params.take 16) ≤ 6 ∧
      hashLen (cAlg (c.params.take 16)) ≤ (cBuf c.params 2).2)
    (fun u =>
      let d := Config.hash (cAlg (c.params.take 16)) (hiastCall c.tenant c.params).inp
      slotEnd n { out := fit (hashLen (cAlg (c.params.take 16))) d } u)) ∧
  (∀ (cause : Nat), Happens (fun e => .vaultRestart e cause) (fun u => u.vlt.mode = .running ∧ cause = 1)
    (fun u => vaultRestart 1 u)) ∧
  Happens .vaultHang
    (fun u => u.vlt.mode = .running ∧ (u.calls.any (·.hung u.clk) = true ∨ u.vlt.runAt + 5000000 ≤ u.clk))
    (fun u => vaultRestart 2 u) ∧
  (∀ (digest : List Byte), Happens (fun e => .vaultRunning e digest)
    (fun u => u.running 0 = true ∧ u.vlt.mode = .booting ∧ u.ident.lc = .field)
    (fun u =>
      finishAll u.vlt.restartCmds .ok { u with vlt := { u.vlt with
        mode := .running, drbgOk := true, reseedAt := u.clk, runAt := u.clk, requests := 0, newImage := false,
          released := false
        restartCmds := [], meas := fit 48 digest } })) ∧
  (∀ (failed : Bool), Happens (fun e => .drbgReseed e failed) (fun u => u.vlt.mode = .running ∧ failed = false)
    (fun u => { u with vlt := { u.vlt with reseedAt := u.clk, requests := 0 } })) ∧
  (∀ (failed : Bool), Happens (fun e => .drbgReseed e failed) (fun u => u.vlt.mode = .running ∧ failed = true)
    (fun u => logObj 0x48 0xFF 0 0 0 { u with vlt := { u.vlt with drbgOk := false } })) ∧
  (∀ (f : FuseWrite), Happens .fuseWriteComplete (fun u => u.vlt.fuse = some f) (fun u => fuseDone f u)) ∧
  Happens .vaultClaimRelease (fun u => u.pow.mode ≠ .run)
    (fun u => { u with vlt := { u.vlt with released := true } }) ∧
  Happens .dbgnonce (fun _ => True)
    (fun u =>
      let r := u.drawBytes 16
      { r.2 with vlt := { r.2.vlt with debugNonce := some (r.1, r.2.clk) }, rdata := wordsOf 4 r.1 }) ∧
  (∀ (token : List Byte), Happens (fun e => .dbgauth e token)
    (fun u => debugAuth u.ident.lc = none ∧ nonceUsed u.vlt.debugNonce token = true)
    (fun u => { u with vlt := { u.vlt with debugNonce := none } })) ∧
  (∀ (token : List Byte) (a : Auth), Happens (fun e => .dbgauth e token)
    (fun u => debugAuth u.ident.lc = some a ∧ tokenOk token u.ident.lc.code u = true ∧
      nonceOk u.vlt.debugNonce token u = true ∧ nonceUsed u.vlt.debugNonce token = true ∧ sigsOk a token u = true)
    (fun u =>
      let scope := le token 2 2 &&& debugScopes u.ident.lc
      logNotice [0] 0xFF 0x4803 [wd (scope + 2 ^ 16)] { u with vlt := { u.vlt with
        debugNonce := none, session := some ((u.vlt.session.getD 0) ||| scope) } })) ∧
  (∀ (sc : Nat), Happens .dbgend (fun u => u.vlt.session = some sc)
    (fun u => logNotice [0] 0xFF 0x4803 [wd sc] { u with vlt := { u.vlt with session := none } }))

/-- The STO commands on settings and volumes complete. With a device, its map built and no format running: stoFormat
begins a format while nothing runs; stoVolConfig leaves a volume that already has its size and encryption;
stoGroupOpen opens one free group; stoGroupAbort drops a group that is not at work; stoEscrowConfig and stoPatrol
store their settings; stoEscrowMeasure begins a measurement; stoEscrowStatus and stoStatus answer four words. -/
def Obligations.StoCommandsComplete : Prop :=
  Accepts .stoFormat stoFormatSpec
    (fun _ b => b.sto.started = true ∧ b.sto.absent = false ∧ b.sto.rebuild = false ∧ b.sto.format = none ∧
      b.sto.jobs = [] ∧ b.sto.waiting = [])
    (fun id _ b => b.setSto { b.sto with format := some id }) ∧
  Completes .stoVolConfig stoVolConfigSpec
    (fun r b => b.sto.started = true ∧ b.sto.absent = false ∧ b.sto.rebuild = false ∧ b.sto.format = none ∧
      (((List.range 16).filter (· != stoVol r.params)).map (fun u => (b.vol u).size)).sum + (par r.params 1).toNat ≤
        b.stoCap ∧
      b.volBusy (b.nextId - 1) (stoVol r.params) = false ∧ (b.vol (stoVol r.params)).size = (par r.params 1).toNat ∧
      (b.vol (stoVol r.params)).enc = bit (par r.params 0) 8) (fun _ _ => []) (fun _ b => b) ∧
  Completes .stoVolConfig stoVolConfigSpec
    (fun r b => b.sto.started = true ∧ b.sto.absent = false ∧ b.sto.rebuild = false ∧ b.sto.format = none ∧
      (((List.range 16).filter (· != stoVol r.params)).map (fun u => (b.vol u).size)).sum + (par r.params 1).toNat ≤
        b.stoCap ∧
      b.volBusy (b.nextId - 1) (stoVol r.params) = false ∧ (b.vol (stoVol r.params)).size ≠ (par r.params 1).toNat ∧
      stoVol r.params ≠ 15 ∧ bit (par r.params 0) 8 = false ∧ b.img.staging ≠ some (stoVol r.params))
    (fun _ _ => [])
    (fun r b =>
      let s1 := volKey (stoVol r.params) [] (b.setVol (stoVol r.params)
        { size := (par r.params 1).toNat, enc := false })
      ledgerSettle (s1.setSto { s1.sto with groups := s1.sto.groups.map (fun p => (p.1, p.2.map (fun g =>
        if g.vol = stoVol r.params then { g with pages := [], at_ := [] } else g))) })) ∧
  (∀ (g : Nat), Completes .stoGroupOpen stoGroupOpenSpec
    (fun r b => b.sto.started = true ∧ b.sto.absent = false ∧ b.sto.rebuild = false ∧ b.sto.format = none ∧ (b.vol
      (stoVol r.params)).size ≠ 0 ∧
      (List.range 16).filter (fun g => (b.grp g).isNone) = [g]) (fun _ _ => [wd g])
    (fun r b => b.drawNat.2.setGrp g
      (some { opener := r.tenant, vol := stoVol r.params }))) ∧
  Completes .stoGroupAbort stoGroupAbortSpec
    (fun r b => b.sto.started = true ∧ b.sto.absent = false ∧ b.sto.rebuild = false ∧ b.sto.format = none ∧
      openerRight r.tenant r.params b = true ∧ b.grpStaging (stoGroup r.params) = false ∧
      b.grpCommits (stoGroup r.params) = false) (fun _ _ => []) (fun r b => b.setGrp (stoGroup r.params) none) ∧
  Completes .stoEscrowConfig stoEscrowConfigSpec
    (fun _ b => b.sto.started = true ∧ b.sto.absent = false ∧ b.sto.rebuild = false ∧ b.sto.format = none)
    (fun _ _ => [])
    (fun r b => b.setSto { b.sto with
      vhold := fld (par r.params 0) 8 0, ebase := fld (par r.params 0) 28 16
      epage := fld (par r.params 1) 12 0, ejournal := fld (par r.params 1) 28 16 }) ∧
  Completes .stoPatrol stoPatrolSpec
    (fun _ b => b.sto.started = true ∧ b.sto.absent = false ∧ b.sto.rebuild = false ∧ b.sto.format = none)
    (fun _ _ => [])
    (fun r b => b.setSto { b.sto with
      patrol := fld (par r.params 0) 6 0, refresh := fld (par r.params 0) 13 8, wlDelta := fld (par r.params 0) 25 16
      readLim := (par r.params 1).toNat }) ∧
  Accepts .stoEscrowMeasure stoEscrowMeasureSpec
    (fun _ b => b.sto.started = true ∧ b.sto.absent = false ∧ b.sto.rebuild = false ∧ b.sto.format = none)
    (fun id _ b => b.setSto { b.sto with
      measuring := true, measCmds := b.sto.measCmds ++ [id] }) ∧
  Completes .stoEscrowStatus stoEscrowStatusSpec
    (fun _ b => b.sto.started = true ∧ b.sto.absent = false ∧ b.sto.rebuild = false ∧ b.sto.format = none)
    (fun _ b => [wd (b.sto.c * 2 ^ 16 + b.sto.v / 10),
      wd (min 0xFFFFFFFF (b.bankEnergy / 1000000000)),
      wd (min 0xFF b.sto.waiting.length * 2 ^ 24 + (b.sto.jobs.filter StoJob.commits).length % 256 * 2 ^ 16 +
        min 0xFFFF (b.escrowHeld / 10)),
      wd (b.sto.noEnergy * 2 ^ 16 + b2n b.sto.charged * 4 + b2n b.sto.measuring * 2 + b2n b.sto.fault)])
    (fun _ b => b) ∧
  Completes .stoStatus stoStatusSpec (fun _ _ => True)
    (fun _ b =>
      let x := b.sto
      let groups := (List.range 16).foldl (fun n g => if (b.grp g).isSome then n + 2 ^ g else n) 0
      [wd (groups * 2 ^ 16 + b2n x.rebuild * 2 ^ 11 + b2n x.readonly * 2 ^ 10 + b2n x.formatted * 2 ^ 9 +
          b2n x.absent * 2 ^ 8 + min 64 x.jobs.length), wd (x.grown * 2 ^ 16 + min 0xFFFF x.spare),
        wd (min 0xFFFF b.eraseHi * 2 ^ 16 + min 0xFFFF b.eraseLo), wd (x.uncorr * 2 ^ 16 + x.refreshes)])
    (fun _ b => b)

/-- The STO commands on data begin. stoRead takes its data from the map and starts a read; stoWrite without a group,
stoTrim and stoGroupCommit become commits whose reservation the escrow grants at once; stoWrite into a group is
staged; a commit with a TIMEOUT of 0 that the escrow does not grant ends with NO_ENERGY and is counted. -/
def Obligations.StoCommitsBegin : Prop :=
  Opens .stoRead stoReadSpec
    (fun r b => b.sto.started = true ∧ b.sto.absent = false ∧ b.sto.rebuild = false ∧ b.sto.format = none ∧ stoDma
      r.params = false ∧ stoPage r.params + 1 ≤ (b.vol (stoVol r.params)).size)
    (fun id r b =>
      let d := b.volPage (stoVol r.params) (stoPage r.params)
      let j : StoJob := { cmd := some id, vol := stoVol r.params
                          kind := .read (stoPage r.params) ((d.drop (stoSec0 r.params * 512)).take (stoNsec r.params
                            * 512)) none }
      b.setSto { b.sto with jobs := b.sto.jobs ++ [j] }) ∧
  Opens .stoRead stoReadSpec
    (fun r b => b.sto.started = true ∧ b.sto.absent = false ∧ b.sto.rebuild = false ∧ b.sto.format = none ∧ stoDma
      r.params = true ∧ stoPage r.params + stoPages r.params ≤ (b.vol (stoVol r.params)).size ∧
      b.dmaOk r.tenant (stoAddr r.params) (stoPages r.params * 4096) 1 = true)
    (fun id r b =>
      let d := (List.range (stoPages r.params)).flatMap (fun i => b.volPage (stoVol r.params) (stoPage r.params + i))
      let j : StoJob :=
        { cmd := some id, vol := stoVol r.params, kind := .read (stoPage r.params) d (some (stoAddr r.params)) }
      b.setSto { b.sto with jobs := b.sto.jobs ++ [j] }) ∧
  Opens .stoWrite stoWriteSpec
    (fun r b => b.sto.started = true ∧ b.sto.absent = false ∧ b.sto.rebuild = false ∧ b.sto.format = none ∧ stoDma
      r.params = false ∧ stoInGrp r.params = false ∧
      stoPage r.params + 1 ≤ (b.vol (stoVol r.params)).size ∧ b.sto.readonly = false ∧ b.sto.waiting = [] ∧
        b.escrowFits (b.commitW 1) = true)
    (fun id r b =>
      let ws := (writePages r.params (b.volPage (stoVol r.params)) b).map (fun p => (p.1, some p.2))
      let j : StoJob := { cmd := some id, vol := stoVol r.params, kind := .commit ws 1 (b.commitW 1) none }
      b.setSto { b.sto with jobs := b.sto.jobs ++ [j] }) ∧
  (∀ (x : StoGroup), Opens .stoWrite stoWriteSpec
    (fun r b => b.sto.started = true ∧ b.sto.absent = false ∧ b.sto.rebuild = false ∧ b.sto.format = none ∧ stoDma
      r.params = false ∧ stoInGrp r.params = true ∧
      stoPage r.params + 1 ≤ (b.vol (stoVol r.params)).size ∧ b.grp (stoGroup r.params) = some x ∧ x.opener =
        r.tenant ∧ x.vol = stoVol r.params ∧
      b.sto.readonly = false ∧ b.grpCommits (stoGroup r.params) = false ∧
      ((b.grpPages (stoGroup r.params)) ++ [stoPage r.params]).eraseDups.length ≤ 64)
    (fun id r b =>
      let ws := writePages r.params (fun p => (find? x.pages p).getD (b.volPage (stoVol r.params) p)) b
      let j : StoJob := { cmd := some id, vol := stoVol r.params, kind := .stage (stoGroup r.params) ws 1 }
      b.setSto { b.sto with jobs := b.sto.jobs ++ [j] })) ∧
  Fails .stoWrite stoWriteSpec
    (fun r b => b.sto.started = true ∧ b.sto.absent = false ∧ b.sto.rebuild = false ∧ b.sto.format = none ∧ stoDma
      r.params = false ∧ stoInGrp r.params = false ∧
      stoPage r.params + 1 ≤ (b.vol (stoVol r.params)).size ∧ b.sto.readonly = false ∧ b.escrowFits (b.commitW 1) =
        false ∧
      stoTimeout r.params = 0) .noEnergy
    (fun _ b => b.setSto { b.sto with noEnergy := satInc 0xFFFF b.sto.noEnergy }) ∧
  Opens .stoTrim stoTrimSpec
    (fun r b => b.sto.started = true ∧ b.sto.absent = false ∧ b.sto.rebuild = false ∧ b.sto.format = none ∧ stoPage
      r.params + (par r.params 2).toNat ≤ (b.vol (stoVol r.params)).size ∧ b.sto.readonly = false ∧ b.sto.waiting =
      [] ∧ b.escrowFits (b.commitW 0) = true)
    (fun id r b =>
      let ws := (List.range (par r.params 2).toNat).map (fun i => (stoPage r.params + i, (none : Option (List Byte))))
      let j : StoJob := { cmd := some id, vol := stoVol r.params, kind := .commit ws 0 (b.commitW 0) none }
      b.setSto { b.sto with jobs := b.sto.jobs ++ [j] }) ∧
  (∀ (x : StoGroup), Opens .stoGroupCommit stoGroupCommitSpec
    (fun r b => b.sto.started = true ∧ b.sto.absent = false ∧ b.sto.rebuild = false ∧ b.sto.format = none ∧ b.grp
      (stoGroup r.params) = some x ∧ x.opener = r.tenant ∧ b.volOf r.tenant x.vol = true ∧ b.grpStaging (stoGroup
      r.params) = false ∧
      b.grpCommits (stoGroup r.params) = false ∧ b.sto.readonly = false ∧ b.sto.waiting = [] ∧ b.escrowFits
        (b.commitW 0) = true)
    (fun id r b =>
      let ws := x.pages.map (fun p => (p.1, some p.2))
      let j : StoJob := { cmd := some id, vol := x.vol, kind := .commit ws 0 (b.commitW 0) (some (stoGroup r.params))
                          phys := x.pages.map (fun p => look (b.sto.total * b.sto.perBlock) x.at_ p.1) }
      b.setSto { b.sto with jobs := b.sto.jobs ++ [j] }))

/-- The events of Strongbox take place. formatComplete leaves an empty format; escrowEvaluation tests the commits that
wait; commitTimeout ends one with NO_ENERGY; bankSample takes a sample and evaluates; escrowMeasureEnd sets C;
pageProgramEnd lets a page's reservation go; journalRecordEnd switches the map; mediaReadEnd answers the data or
MEDIA_ERROR; programFailure, nandPatrol and wearLevelMove count; stxStart finds the device; translationRebuildEnd
releases the commands that wait. -/
def Obligations.StoEventsHappen : Prop :=
  (∀ (id : Nat), Happens .formatComplete (fun u => u.alive 4 = true ∧ u.sto.format = some id)
    (fun u => finishAll [id] .ok (ledgerSettle (stagingLost { u with
      led := { u.led with pages := [] }, vlt := { u.vlt with volKeys := [] }, sto := formatted u.sto })))) ∧
  Happens .escrowEvaluation (fun u => u.running 4 = true) (fun u => escrowEval u) ∧
  (∀ (cmd : Nat) (w : StoWait) (id : Nat), Happens (fun e => .commitTimeout e cmd)
    (fun u => u.sto.waiting[cmd]? = some w ∧ w.job.cmd = some id ∧ w.at_ + w.timeout * 1000000 ≤ u.clk)
    (fun u => finishAll [id] .noEnergy
      (u.setSto { u.sto with waiting := u.sto.waiting.eraseIdx cmd, noEnergy := satInc 0xFFFF u.sto.noEnergy }))) ∧
  (∀ (mv : Nat), Happens (fun e => .bankSample e mv) (fun u => u.alive 4 = true ∧ u.sto.charged = true)
    (fun u => escrowEval (u.setSto { u.sto with v := mv, vAt := u.clk }))) ∧
  (∀ (mv : Nat), Happens (fun e => .bankSample e mv)
    (fun u => u.alive 4 = true ∧ u.sto.charged = false ∧ u.sto.vhold * 100 ≤ mv + 1000)
    (fun u => escrowEval (u.setSto { u.sto with v := mv, vAt := u.clk, measuring := true }))) ∧
  (∀ (drop : Nat), Happens (fun e => .escrowMeasureEnd e drop)
    (fun u => u.alive 4 = true ∧ u.sto.measuring = true ∧ u.sto.fault = false ∧ 400 ≤ (drop + 10) / 20 ∧
      (drop + 10) / 20 ≤ 5500)
    (fun u => u.sto.measCmds.foldl (fun s id => finishCmd id .ok [wd ((drop + 10) / 20)] s) (u.setSto { u.sto with
      c := (drop + 10) / 20, charged := true, measuring := false, fault := false, measCmds := [] }))) ∧
  (∀ (cmd : Nat) (i j : StoJob) (ws : Tbl (Option (List Byte))) (left res : Nat) (g : Option Nat), Happens (fun e =>
    .pageProgramEnd e cmd)
    (fun u => u.alive 4 = true ∧ cmd < 64 ∧ u.sto.jobs[cmd]? = some i ∧ i.left ≠ 0 ∧ (takePage u).2.sto.jobs[cmd]? =
      some j ∧
      j.kind = .commit ws left res g)
    (fun u =>
      escrowEval ((takePage u).2.setJob cmd (some { j with
        kind := .commit ws (left - 1) (res - u.sto.epage) g, phys := j.phys ++ [(takePage u).1] })))) ∧
  (∀ (cmd : Nat) (j : StoJob) (id res : Nat) (ws : Tbl (Option (List Byte))), Happens (fun e => .journalRecordEnd e
    cmd)
    (fun u => u.alive 4 = true ∧ cmd < 64 ∧ u.sto.jobs[cmd]? = some j ∧ j.cmd = some id ∧ j.kind = .commit ws 0 res
      none ∧
      u.inBrownout = false)
    (fun u => escrowEval (finishAll [id] .ok (mapPages j.vol ws j.phys (u.setJob cmd none))))) ∧
  (∀ (cmd : Nat) (bits : List (List Nat)) (j : StoJob) (id page : Nat) (d : List Byte), Happens (fun e =>
    .mediaReadEnd e cmd bits)
    (fun u => u.alive 4 = true ∧ cmd < 64 ∧ u.sto.jobs[cmd]? = some j ∧ j.cmd = some id ∧ j.kind = .read page d none ∧
      (bits.take 1).findIdx? (fun l => !readable l) = none)
    (fun u =>
      finishCmd id .ok (wordsPad d) (readCount j.vol page (u.setJob cmd none)))) ∧
  (∀ (cmd : Nat) (bits : List (List Nat)) (j : StoJob) (id page a : Nat) (d : List Byte), Happens (fun e =>
    .mediaReadEnd e cmd bits)
    (fun u => u.alive 4 = true ∧ cmd < 64 ∧ u.sto.jobs[cmd]? = some j ∧ j.cmd = some id ∧ j.kind = .read page d
      (some a) ∧
      (bits.take (d.length / 4096)).findIdx? (fun l => !readable l) = none ∧
      u.mayAccess (((u.cmd? id).map (·.tenant)).getD 0) a d.length 1 = true)
    (fun u =>
      finishAll [id] .ok (((List.range (d.length / 4096)).foldl (fun s k => readCount j.vol (page + k) s)
        (u.setJob cmd none)).writeMem a d))) ∧
  (∀ (cmd : Nat) (bits : List (List Nat)) (j : StoJob) (id page k : Nat) (d : List Byte) (dma : Option Nat), Happens
    (fun e => .mediaReadEnd e cmd bits)
    (fun u => u.alive 4 = true ∧ cmd < 64 ∧ u.sto.jobs[cmd]? = some j ∧ j.cmd = some id ∧ j.kind = .read page d dma ∧
      (bits.take (if dma.isSome then d.length / 4096 else 1)).findIdx? (fun l => !readable l) = some k)
    (fun u =>
      finishAll [id] .mediaError (mediaLost j.vol (page + k)
        ((List.range (if dma.isSome then d.length / 4096 else 1)).foldl (fun s k => readCount j.vol (page + k) s)
          (u.setJob cmd none))))) ∧
  (∀ (vol page : Nat), Happens (fun e => .programFailure e vol page)
    (fun u => u.alive 4 = true ∧ u.sto.absent = false ∧ u.sto.formatted = true ∧ vol < 16)
    (fun u => programFailed vol page u)) ∧
  (∀ (vol page result : Nat), Happens (fun e => .nandPatrol e vol page result)
    (fun u => u.running 4 = true ∧ u.sto.absent = false ∧ u.sto.formatted = true ∧ vol < 16 ∧ u.pow.mode = .run ∧
      (find? (u.vol vol).pages page).isSome = true ∧ result ≤ 40 ∧ result < u.sto.refresh)
    (fun u =>
      (u.setSto { u.sto with due := (u.sto.due.filter
        (· != look 0 (u.vol vol).at_ page / u.sto.perBlock)) }))) ∧
  (∀ (vol page result : Nat), Happens (fun e => .nandPatrol e vol page result)
    (fun u => u.running 4 = true ∧ u.sto.absent = false ∧ u.sto.formatted = true ∧ vol < 16 ∧ u.pow.mode = .run ∧
      (find? (u.vol vol).pages page).isSome = true ∧ result ≤ 40 ∧ u.sto.refresh ≤ result)
    (fun u =>
      refreshBlk (look 0 (u.vol vol).at_ page / u.sto.perBlock) (u.setSto { u.sto with due := (u.sto.due.filter
        (· != look 0 (u.vol vol).at_ page / u.sto.perBlock)) }))) ∧
  (∀ (vol page result : Nat), Happens (fun e => .nandPatrol e vol page result)
    (fun u => u.running 4 = true ∧ u.sto.absent = false ∧ u.sto.formatted = true ∧ vol < 16 ∧ u.pow.mode = .run ∧
      (find? (u.vol vol).pages page).isSome = true ∧ 40 < result)
    (fun u =>
      mediaLost vol page (u.setSto { u.sto with due := (u.sto.due.filter
        (· != look 0 (u.vol vol).at_ page / u.sto.perBlock)) }))) ∧
  Happens .wearLevelMove
    (fun u => u.running 4 = true ∧ u.sto.formatted = true ∧ u.eraseLo + u.sto.wlDelta < u.eraseHi)
    (fun u => wearMove u) ∧
  (∀ (ce0 ce1 : List NandLun) (marks : List Nat), Happens (fun e => .stxStart e ce0 ce1 marks)
    (fun u => u.running 4 = true ∧ u.sto.started = false ∧ (stxFound ce0 ce1 marks u).sto.rebuild = true)
    (fun u => stxFound ce0 ce1 marks u)) ∧
  (∀ (ce0 ce1 : List NandLun) (marks : List Nat), Happens (fun e => .stxStart e ce0 ce1 marks)
    (fun u => u.running 4 = true ∧ u.sto.started = false ∧ (stxFound ce0 ce1 marks u).sto.rebuild = false)
    (fun u => resumeOps (imgDataSpec :: stoTable) (stxFound ce0 ce1 marks u))) ∧
  Happens .translationRebuildEnd (fun u => u.running 4 = true ∧ u.sto.rebuild = true)
    (fun u => resumeOps (imgDataSpec :: stoTable) (u.setSto { u.sto with rebuild := false }))

/-- The rows of the Ledger complete. logStatus answers six words; logRead the records retained in a range;
logCheckpoint a checkpoint block, or BAD_PARAM without one; logWrite records its three words with severity 0 and
answers the RSEQ; ledgerPersist makes a commit of the oldest 64 records; checkpointSign signs the checkpoint that is
due and posts it. -/
def Obligations.LedgerRowsComplete : Prop :=
  Completes .logStatus logStatusSpec (fun _ _ => True)
    (fun _ b => [wd b.led.next, wd (b.led.next / 2 ^ 32), wd b.oldest, wd (b.oldest / 2 ^ 32),
      wd b.led.lost, wd b.led.lastCp]) (fun _ b => b) ∧
  Completes .logRead logReadSpec (fun _ _ => True)
    (fun r b => wordsPad ((b.retained.filter (fun x =>
      decide (par64 r.params 0 ≤ x.rseq) && decide (x.rseq < par64 r.params 0 + (par r.params 2).toNat))).flatMap
        LedRec.bytes))
    (fun _ b => b) ∧
  (∀ (d : List Byte), Completes .logCheckpoint logCheckpointSpec
    (fun r b => find? b.led.cps (par64 r.params 0) = some d) (fun _ _ => wordsPad d) (fun _ b => b)) ∧
  Fails .logCheckpoint logCheckpointSpec (fun r b => find? b.led.cps (par64 r.params 0) = none) .badParam
    (fun _ b => b) ∧
  Completes .logWrite logWriteSpec (fun r b => (look {} b.led.writes r.tenant).now b < 100)
    (fun _ b => [wd b.led.next, wd (b.led.next / 2 ^ 32)])
    (fun r b =>
      logSev 0 0x51F0 r.tenant r.params { b with led := { b.led with
        writes := put b.led.writes r.tenant ((look {} b.led.writes r.tenant).inc b) } }) ∧
  Fails .logWrite logWriteSpec (fun r b => 100 ≤ (look {} b.led.writes r.tenant).now b) .busy (fun _ b => b) ∧
  Happens .ledgerPersist
    (fun u => u.running 4 = true ∧ u.persisting = true ∧ u.sto.rebuild = false ∧ 64 ≤ u.led.unpers ∧ u.ledgerJob =
      false)
    (fun u =>
      let j : StoJob := { cmd := none, vol := 15, kind := .ledger 1 (u.commitW 1) }
      escrowEval (u.setSto { u.sto with waiting := u.sto.waiting ++ [{ job := j, at_ := u.clk, timeout := 0 }] })) ∧
  (∀ (x : LedRec) (rest : List LedRec), Happens .checkpointSign
    (fun u => u.vlt.mode = .running ∧ u.led.cpDue = x :: rest)
    (fun u =>
      let s1 := { u with led := { u.led with cpDue := rest } }
      let d := s1.drawBytes 32
      ledgerSettle (notice 0 0x5101 [wd x.rseq, wd (x.rseq / 2 ^ 32)]
        { d.2 with led := { d.2.led with cps := put d.2.led.cps x.rseq (checkpoint x d.1 s1), lastCp := x.rseq } })))

/-- The IMG commands complete. imgOffer opens the one free transfer; imgData goes over bytes received before without
effect and appends new ones under escrow; imgClose accepts and runs its checks; imgAbort drops the transfer;
imgActivate and imgRevert accept and begin; imgConfirm ends a trial; imgStatus answers seven words; imgData, imgClose,
imgAbort, imgStatus, imgOffer and imgConfig see a transfer that has been silent for 60 s as abandoned; imgPeer sets or
removes a peer; imgConfig names the staging volume. -/
def Obligations.ImgCommandsComplete : Prop :=
  (∀ (n : Nat), Completes .imgOffer imgOfferSpec
    (fun r b => b.img.staging ≠ none ∧ b.sto.absent = false ∧ (settleXfers b).img.staging ≠ none ∧
      (settleXfers b).sto.absent = false ∧ (settleXfers b).stagingRoom (par r.params 1).toNat = true ∧
      (((settleXfers b).icomp (imgComp r.params)).st = .idle ∨ ((settleXfers b).icomp (imgComp r.params)).st =
        .ready) ∧
      (List.range 4).filter (fun n => ((settleXfers b).xfr n).isNone) = [n]) (fun _ _ => [wd n])
    (fun r b =>
      compTo (imgComp r.params) .receiving ((settleXfers b).drawNat.2.setXfr n (some
        { comp := imgComp r.params, tenant := r.tenant, pklen := (par r.params 1).toNat, mlen := (par r.params 2).toNat
          at_ := (settleXfers b).clk })))) ∧
  (∀ (x : ImgXfer), Completes .imgData imgDataSpec
    (fun r b => b.sto.started = true ∧ b.sto.absent = false ∧ b.sto.rebuild = false ∧ b.sto.format = none ∧
      (settleXfers b).xfr (imgXfr r.params) = some x ∧
      x.tenant = r.tenant ∧ (settleXfers b).img.staging ≠ none ∧ x.close = none ∧
      (par r.params 1).toNat + imgCount r.params ≤ x.data.length) (fun _ _ => [])
    (fun r b =>
      (settleXfers b).setXfr (imgXfr r.params) (some { x with at_ := (settleXfers b).clk }))) ∧
  (∀ (x : ImgXfer) (v pages : Nat), Opens .imgData imgDataSpec
    (fun r b => b.sto.started = true ∧ b.sto.absent = false ∧ b.sto.rebuild = false ∧ b.sto.format = none ∧
      (settleXfers b).xfr (imgXfr r.params) = some x ∧
      x.tenant = r.tenant ∧ (settleXfers b).img.staging = some v ∧ x.close = none ∧
      (par r.params 1).toNat = x.data.length ∧ 0 < imgCount r.params ∧ x.data.length + imgCount r.params ≤ x.pklen ∧
      pages = (x.data.length + ((wordBytes (r.params.drop 2)).take (imgCount r.params)).length - 1) / 4096 -
        x.data.length / 4096 + 1 ∧
      (settleXfers b).sto.readonly = false ∧ (settleXfers b).sto.waiting = [] ∧
      (settleXfers b).escrowFits ((settleXfers b).commitW pages) = true)
    (fun id r b =>
      let d := (wordBytes (r.params.drop 2)).take (imgCount r.params)
      let u := settleXfers b
      let j : StoJob := { cmd := some id, vol := v, kind := .commit [] pages (u.commitW pages) none }
      (u.setSto { u.sto with jobs := u.sto.jobs ++ [j] }).setXfr (imgXfr r.params)
        (some { x with data := x.data ++ d, at_ := u.clk }))) ∧
  (∀ (x : ImgXfer), Opens .imgClose imgCloseSpec
    (fun r b => (settleXfers b).xfr (imgXfr r.params) = some x ∧ x.tenant = r.tenant ∧ x.close = none)
    (fun id r b => closeChecks (imgXfr r.params) (compTo x.comp .verifying
      (interim id .accepted ((settleXfers b).setXfr (imgXfr r.params) (some
        { x with close := some id, at_ := (settleXfers b).clk })))))) ∧
  (∀ (x : ImgXfer), Completes .imgAbort imgAbortSpec
    (fun r b => (settleXfers b).xfr (imgXfr r.params) = some x ∧ (x.tenant = r.tenant ∨ r.tenant = 0))
    (fun _ _ => []) (fun r b => abandonXfr (imgXfr r.params) .flushed (settleXfers b))) ∧
  Completes .imgConfirm imgConfirmSpec
    (fun r b => (b.icomp (imgComp r.params)).st = .trial ∧ (b.icomp (imgComp r.params)).run < (b.icomp (imgComp
      r.params)).window)
    (fun _ _ => [])
    (fun r b =>
      let x := b.icomp (imgComp r.params)
      compTo (imgComp r.params) .idle (b.setIcomp (imgComp r.params)
        { x with run := 0, window := 0, resets := 0, otpSvn := max x.otpSvn x.active.svn })) ∧
  Opens .imgActivate imgActivateSpec
    (fun r b => (b.icomp (imgComp r.params)).st = .ready ∧ imgComp r.params / 16 ≠ 2)
    (fun id r b => activate (imgComp r.params) id (interim id .accepted b)) ∧
  Opens .imgRevert imgRevertSpec
    (fun r b => (b.icomp (imgComp r.params)).st = .trial ∨ (b.icomp (imgComp r.params)).st = .activating)
    (fun id r b =>
      let s1 := interim id .accepted b
      revertAsk (imgComp r.params) 2 (s1.setIcomp (imgComp r.params) { s1.icomp (imgComp r.params) with
        revCmds := (b.icomp (imgComp r.params)).revCmds ++ [id] })) ∧
  Completes .imgStatus imgStatusSpec (fun _ _ => True) (fun r b => (settleXfers b).imgWords (imgComp r.params))
    (fun _ b => settleXfers b) ∧
  Completes .imgPeer imgPeerSpec (fun _ _ => True) (fun _ _ => [])
    (fun r b => { b with img := { b.img with
      peer := if bit (par r.params 0) 8 then put b.img.peer (fld (par r.params 0) 3 0)
        { words := r.params, assoc := peerAssoc r.params }
        else erase b.img.peer (fld (par r.params 0) 3 0) } }) ∧
  Completes .imgConfig imgConfigSpec
    (fun _ b => (∀ n < 4, (settleXfers b).xfr n = none) ∧ (settleXfers b).stagedBusy = false) (fun _ _ => [])
    (fun r b =>
      { settleXfers b with img := { (settleXfers b).img with
        staging := if bit (par r.params 0) 8 then some (fld (par r.params 0) 3 0) else none } })

/-- The events of image relay and update take place. relayStart begins with the first valid peer; relayOutcome ends a
relay that succeeded; relayRetry tries again after 10 s; installComplete installs; transferAbandon drops a transfer
silent for 60 s; activationComplete opens the trial; healthWindowEnd begins the revert; revertComplete ends one;
phyFirmwareWatchdog is a fault of the trial of its component. -/
def Obligations.ImgEventsHappen : Prop :=
  (∀ (comp : Nat) (x : ImgRelay), Happens (fun e => .relayStart e comp)
    (fun u => u.relay? comp = some x ∧ x.entry = 0x3F) (fun u => relayGo comp (relayNext x u))) ∧
  (∀ (comp status : Nat) (x : ImgRelay), Happens (fun e => .relayOutcome e comp status)
    (fun u => u.relay? comp = some x ∧ x.active = true ∧ status = 0)
    (fun u =>
      let s1 := notice 0 0x5802 [wd (comp + x.entry * 2 ^ 8 + x.attempt * 2 ^ 16), wd 0] u
      { s1 with img := { s1.img with relay := s1.img.relay.filter (fun y => y.comp != comp) } })) ∧
  (∀ (comp status : Nat) (x : ImgRelay), Happens (fun e => .relayOutcome e comp status)
    (fun u => u.relay? comp = some x ∧ x.active = true ∧ attemptFails status = true ∧ x.attempt < 6)
    (fun u =>
      relayGo comp (setRelay { x with active := false, failedAt := u.clk, step := .idle }
        (notice 0 0x5802 [wd (comp + x.entry * 2 ^ 8 + x.attempt * 2 ^ 16), wd (status % 2 ^ 16)] u)))) ∧
  (∀ (comp : Nat) (x : ImgRelay), Happens (fun e => .relayRetry e comp)
    (fun u => u.relay? comp = some x ∧ x.active = false ∧ x.entry ≠ 0x3F ∧ x.failedAt + 10000000000 ≤ u.clk)
    (fun u =>
      relayGo comp (setRelay { x with active := true, attempt := x.attempt + 1, step := .idle } u))) ∧
  (∀ (xfr : Nat), Happens (fun e => .installComplete e xfr) (fun u => (u.xfr xfr).any (fun x => x.passed) = true)
    (fun u => installed xfr u)) ∧
  (∀ (xfr : Nat) (x : ImgXfer), Happens (fun e => .transferAbandon e xfr)
    (fun u => u.xfr xfr = some x ∧ x.close = none ∧ x.at_ + 60000000000 ≤ u.clk)
    (fun u => abandonXfr xfr .timeout u)) ∧
  (∀ (comp : Nat), Happens (fun e => .activationComplete e comp)
    (fun u => (u.icomp comp).st = .activating ∧ (u.icomp comp).atStart = false ∧ comp = 0x10)
    (fun u => openTrial comp (u.setIcomp comp { u.icomp comp with todo := [] }))) ∧
  (∀ (comp : Nat), Happens (fun e => .healthWindowEnd e comp)
    (fun u => (u.icomp comp).st = .trial ∧ (u.icomp comp).window ≤ (u.icomp comp).run)
    (fun u => revertBegin comp 1 u)) ∧
  (∀ (comp : Nat), Happens (fun e => .revertComplete e comp) (fun u => (u.icomp comp).st = .fallback ∧ comp = 0x10)
    (fun u =>
      finishAll (u.icomp comp).revCmds .ok (compTo comp .idle (u.setIcomp comp
        { u.icomp comp with todo := [], revCmds := [] })))) ∧
  (∀ (port : Nat), Happens (fun e => .phyFirmwareWatchdog e port) (fun _ => 2 ≤ port ∧ port ≤ 13)
    (fun u => trialFault (0x30 + port) u))

/-- The rows of audits, Teller pairs and FAULT_N complete. tstAuditRun begins an audit of the named blocks;
tstSummary, tstDetail and tstFaultStatus answer their words; tstFaultClear clears the latched causes it names,
tstFaultMask stores the mask; auditBlockTest tests the next block once it is isolated and the conditions have been
checked within 100 µs; auditConditionCheck ends an audit with a breach, and keeps what it found; tellerPairTrip takes
a pair out of service, tellerPairRejoin takes it back. -/
def Obligations.AuditRowsComplete : Prop :=
  Accepts .tstAuditRun tstAuditRunSpec
    (fun r b => b.aud.run = none ∧ (namedBlocks r.params).all b.blockIdle = true ∧
      ((namedBlocks r.params).filter (fun k => decide (22 ≤ k) && decide (k < 26))).length ≤ 1 ∧ lifeAudit
        b.ident.lc = true ∧ b.aud.condOk = true)
    (fun id r b => auditStart 3 (namedBlocks r.params) (some id) b) ∧
  Completes .tstSummary tstSummarySpec (fun _ _ => True) (fun r b => (b.summary (par r.params 0)).words b.clk)
    (fun _ b => b) ∧
  Completes .tstDetail tstDetailSpec (fun _ _ => True)
    (fun r b =>
      let ds := ((b.summary (par r.params 0)).details.drop (fld (par r.params 0) 13 8)).take 16
      padWords 65 (wd ds.length :: ds.flatten)) (fun _ b => b) ∧
  Completes .tstFaultStatus tstFaultStatusSpec (fun _ _ => True)
    (fun _ b => [wd b.faults, wd (b.flt.latched &&& 0x58), wd b.flt.mask]) (fun _ b => b) ∧
  Completes .tstFaultClear tstFaultClearSpec (fun _ _ => True) (fun _ _ => [])
    (fun r b => { b with flt := { b.flt with
      latched := b.flt.latched &&& (0x7FF ^^^ ((par r.params 0).toNat &&& 0x58)) } }) ∧
  Completes .tstFaultMask tstFaultMaskSpec (fun _ _ => True) (fun _ _ => [])
    (fun r b => { b with flt := { b.flt with mask := (par r.params 0).toNat } }) ∧
  (∀ (fails : List AuditFail) (rom : Bool) (x : AuditRun) (k : Nat) (ks : List Nat), Happens (fun e =>
    .auditBlockTest e fails rom)
    (fun u => u.aud.run = some x ∧ x.left = k :: ks ∧ u.isolated x.kind k = true ∧
      u.condFresh x.kind = true) (fun u => testBlock k fails (rom && x.kind != 2) x u)) ∧
  (∀ (supplyMv refKhz : Nat) (x : AuditRun), Happens (fun e => .auditConditionCheck e supplyMv refKhz)
    (fun u => u.alive 3 = true ∧ u.aud.run = some x ∧ x.kind ≠ 2 ∧ (condHolds supplyMv refKhz && lifeAudit
      u.ident.lc) = false)
    (fun u =>
      auditStop 3 { u with aud := { u.aud with condOk := condHolds supplyMv refKhz, condAt := u.clk } })) ∧
  (∀ (supplyMv refKhz : Nat), Happens (fun e => .auditConditionCheck e supplyMv refKhz)
    (fun u => u.alive 3 = true ∧ u.aud.run = none)
    (fun u =>
      { u with aud := { u.aud with condOk := condHolds supplyMv refKhz, condAt := u.clk } })) ∧
  (∀ (tp : Nat) (cmds : List Nat), Happens (fun e => .tellerPairTrip e tp cmds)
    (fun u => tp < 4 ∧ (look {} u.aud.teller tp).inService = true) (fun u => tellerTrip tp cmds u)) ∧
  (∀ (tp : Nat), Happens (fun e => .tellerPairRejoin e tp)
    (fun u => tp < 4 ∧ (look {} u.aud.teller tp).inService = false ∧ (look {} u.aud.teller tp).barred = false ∧
      u.blkFail (22 + tp) = false)
    (fun u => { u with aud := { u.aud with
      teller := put u.aud.teller tp { look {} u.aud.teller tp with inService := true } } }))

/-- The TEN commands on tenants complete. tenCreate makes the tenant and its queues; tenQuery answers a descriptor;
tenShare sets a share and answers the old one; tenRights sets groups and islands; tenIslandEnable of an island in RUN
is done; tenReset accepts and begins the reset, tenDelete the deletion; tenResume makes a FAULTED tenant LIVE; tenBind
installs an association. -/
def Obligations.TenantCommandsComplete : Prop :=
  Completes .tenCreate tenCreateSpec
    (fun r b => dTaken (descBytes r.params) b = false ∧ dOk (descBytes r.params) b = true ∧
      dShares (descBytes r.params) b = true) (fun _ _ => []) (fun r b => tenMake (descBytes r.params) b) ∧
  Fails .tenCreate tenCreateSpec (fun r b => dTaken (descBytes r.params) b = true) .busy (fun _ b => b) ∧
  Completes .tenQuery tenQuerySpec (fun _ _ => True) (fun r b => wordsOf 16 (b.descOf (parTen r.params)))
    (fun _ b => b) ∧
  Completes .tenShare tenShareSpec
    (fun r b => b.covers (parTen r.params) (fld (par r.params 0) 11 8)
        (shareVal (fld (par r.params 0) 11 8) (par r.params 1).toNat) = true ∧ fld (par r.params 0) 11 8 ≠ 1 ∧
      fld (par r.params 0) 11 8 ≠ 2 ∧ fld (par r.params 0) 11 8 ≠ 3)
    (fun r b =>
      [wd ((b.tenant (parTen r.params)).share (fld (par r.params 0) 11 8))])
    (fun r b => b.setTenant (parTen r.params)
      ((b.tenant (parTen r.params)).setShare (fld (par r.params 0) 11 8)
        (shareVal (fld (par r.params 0) 11 8) (par r.params 1).toNat))) ∧
  Completes .tenShare tenShareSpec
    (fun r b => fld (par r.params 0) 11 8 = 1 ∧ b.covers (parTen r.params) 1 (par r.params 1).toNat = true)
    (fun r b =>
      [wd (b.tenant (parTen r.params)).xfer])
    (fun r b => serveTenant (parTen r.params) (b.setTenant (parTen r.params)
      { b.tenant (parTen r.params) with xfer := (par r.params 1).toNat })) ∧
  Completes .tenRights tenRightsSpec (fun _ _ => True) (fun _ _ => [])
    (fun r b => b.setTenant (parTen r.params) { b.tenant (parTen r.params) with
      groups := (par r.params 1).toNat ||| 7, islen := (par r.params 2).toNat }) ∧
  Completes .tenIslandEnable tenIslandEnableSpec
    (fun r b => (b.island (fld (par r.params 0) 7 0)).gate.st = .run ∧ (b.island (fld (par r.params 0) 7
      0)).lossHold = false)
    (fun _ _ => [])
    (fun r b =>
      b.setIsland (fld (par r.params 0) 7 0) { b.island (fld (par r.params 0) 7 0) with stuck := false }) ∧
  Opens .tenReset tenResetSpec
    (fun r b => ((checkAll (parTen r.params) b).tenant (parTen r.params)).st = .live ∨
      ((checkAll (parTen r.params) b).tenant (parTen r.params)).st = .faulted)
    (fun id r b =>
      tenResetBegin (parTen r.params) .resetting [id] (interim id .accepted (checkAll (parTen r.params) b))) ∧
  Accepts .tenReset tenResetSpec
    (fun r b => ((checkAll (parTen r.params) b).tenant (parTen r.params)).st = .resetting)
    (fun id r b =>
      let c := checkAll (parTen r.params) b
      c.setTenant (parTen r.params)
        { c.tenant (parTen r.params) with resetCmds := (c.tenant (parTen r.params)).resetCmds ++ [id] }) ∧
  Opens .tenDelete tenDeleteSpec
    (fun r b =>
      let c := checkAll (parTen r.params) b
      c.ownsChan (parTen r.params) = false ∧ c.visOf (parTen r.params) = [] ∧ (c.tenant (parTen r.params)).st = .live)
    (fun id r b =>
      tenResetBegin (parTen r.params) .deleting [id] (interim id .accepted (checkAll (parTen r.params) b))) ∧
  Completes .tenResume tenResumeSpec (fun r b => (b.tenant (parTen r.params)).st = .faulted) (fun _ _ => [])
    (fun r b => b.setTenant (parTen r.params) { b.tenant (parTen r.params) with st := .live }) ∧
  Completes .tenBind tenBindSpec
    (fun r b => (((b.tenant (parTen r.params)).assoc.map (·.outs)).getD []).filter (fun o => !o.acked) = [])
    (fun _ _ => [])
    (fun r b =>
      b.setAssoc (parTen r.params) (bindOf r.params))

/-- The rows on virtual instances and resets complete. tenViCreate makes an instance whose epoch is 1; tenViReset and
tenViDelete accept and begin the reset of an instance; tenViQuery answers its state; viResetComplete ends the reset;
tenResetDone ends a tenant's reset or deletion. -/
def Obligations.InstanceRowsComplete : Prop :=
  Completes .tenViCreate tenViCreateSpec
    (fun r b => viKind r.params = 1 ∧ b.viOf r.params = none ∧ b.viShare r.params = true) (fun _ _ => [1])
    (fun r b =>
      let v : Vi :=
        { owner := parTen r.params, sqBase := fld (par r.params 1) 11 0, sqLog := fld (par r.params 1) 19 16,
                      cqBase := fld (par r.params 2) 11 0, cqLog := fld (par r.params 2) 19 16, kindWords :=
                        r.params.drop 3 }
      freshCtl 1 v (b.setVi 1 (viIdx r.params) (some v))) ∧
  Completes .tenViCreate tenViCreateSpec
    (fun r b =>
      let v : Vi :=
        { owner := parTen r.params, sqBase := fld (par r.params 1) 11 0, sqLog := fld (par r.params 1) 19 16,
                      cqBase := fld (par r.params 2) 11 0, cqLog := fld (par r.params 2) 19 16, kindWords :=
                        r.params.drop 3 }
      let vid := fld (par (r.params.drop 3) 1) 27 16
      let entry : FdbEntry := { mac := viMac (r.params.drop 3), vid := vid, static := true, port := 14,
                                vnic := viIdx r.params, at_ := b.clk, vi := true }
      viKind r.params = 0 ∧ b.viOf r.params = none ∧ b.viShare r.params = true ∧
        b.net.fdb.any (fun x => x.static && (x.mac == viMac (r.params.drop 3) || x.vid == vid)) = false ∧
        (fdbPut entry (freshCtl 0 v (b.setVi 0 (viIdx r.params) (some v)))).isSome = true) (fun _ _ => [1])
    (fun r b =>
      let v : Vi :=
        { owner := parTen r.params, sqBase := fld (par r.params 1) 11 0, sqLog := fld (par r.params 1) 19 16,
                      cqBase := fld (par r.params 2) 11 0, cqLog := fld (par r.params 2) 19 16, kindWords :=
                        r.params.drop 3 }
      let vid := fld (par (r.params.drop 3) 1) 27 16
      let entry : FdbEntry := { mac := viMac (r.params.drop 3), vid := vid, static := true, port := 14,
                                vnic := viIdx r.params, at_ := b.clk, vi := true }
      (fdbPut entry (freshCtl 0 v (b.setVi 0 (viIdx r.params) (some v)))).getD b) ∧
  Opens .tenViDelete tenViDeleteSpec (fun r b => b.viOf r.params ≠ none)
    (fun id r b =>
      let s1 := viResetBegin (viKind r.params * 256 + viIdx r.params) (some id) (interim id .accepted b)
      match s1.vi (viKind r.params) (viIdx r.params) with
      | some v => s1.setVi (viKind r.params) (viIdx r.params) (some { v with deleting := true })
      | none => s1) ∧
  Opens .tenViReset tenViResetSpec (fun r b => b.viOf r.params ≠ none)
    (fun id r b =>
      let s1 := viResetBegin (viKind r.params * 256 + viIdx r.params) (some id) (interim id .accepted b)
      match s1.vi (viKind r.params) (viIdx r.params) with
      | some v => s1.setVi (viKind r.params) (viIdx r.params) (some v)
      | none => s1) ∧
  (∀ (v : Vi), Completes .tenViQuery tenViQuerySpec (fun r b => b.viOf r.params = some v)
    (fun _ _ => [wd (v.owner + (if v.off then 0 else if v.resetting then 4 else 3) * 2 ^ 8 + v.epoch * 2 ^ 16),
      wd v.fetched.length]) (fun _ b => b)) ∧
  (∀ (kind idx : Nat) (v : Vi), Happens (fun e => .viResetComplete e kind idx)
    (fun u => u.vi kind idx = some v ∧ v.resetting = true ∧ v.fetched.all (fun d => !d.live) = true)
    (fun u => viResetEnd kind idx u)) ∧
  (∀ (t : Nat), Happens (fun e => .tenResetDone e t) (fun u => (u.tenant t).st = .resetting ∧ u.tenIdle t = true)
    (fun u =>
      let x := u.tenant t
      notice t 0x0102 [wd t, wd (x.flushedN + x.resetN * 2 ^ 16)]
        (finishAll x.resetCmds .ok (u.setTenant t { x with st := .live, resetCmds := [] })))) ∧
  (∀ (t : Nat), Happens (fun e => .tenResetDone e t) (fun u => (u.tenant t).st = .deleting ∧ u.tenIdle t = true)
    (fun u => tenGone t u))

/-- The QUE commands complete. queConfig configures an empty queue, keeping its GEN, window and chain; queFlush
flushes, queLevel sets the level and queClear clears the flags of a configured queue; queStatus answers its four
registers. -/
def Obligations.QueueCommandsComplete : Prop :=
  Completes .queConfig queConfigSpec
    (fun r b => (b.queue (parTen r.params) (parQ r.params)).occ = 0 ∧ (b.queue (parTen r.params) (parQ
      r.params)).held = [])
    (fun _ _ => [])
    (fun r b =>
      let x := b.queue (parTen r.params) (parQ r.params)
      b.setQueue (parTen r.params) (parQ r.params)
        { depth := fld (par r.params 0) 19 16, spill := fld (par r.params 1) 11 0,
                                                     gen := x.gen, win := x.win, chain := x.chain }) ∧
  Completes .queFlush queFlushSpec (fun r b => (b.queue (parTen r.params) (parQ r.params)).depth ≠ 0)
    (fun _ _ => [])
    (fun r b => flushQueue (parTen r.params) (parQ r.params) (checkPtrs (parTen r.params) (parQ r.params) b)) ∧
  Completes .queStatus queStatusSpec (fun _ _ => True)
    (fun r b => (b.queue (parTen r.params) (parQ r.params)).regs (parQ r.params)) (fun _ b => b) ∧
  Completes .queLevel queLevelSpec (fun r b => (b.queue (parTen r.params) (parQ r.params)).depth ≠ 0)
    (fun _ _ => [])
    (fun r b => b.setQueue (parTen r.params) (parQ r.params)
      { b.queue (parTen r.params) (parQ r.params) with
        levelEn := bit (par r.params 1) 31
        level := min (fld (par r.params 1) 12 0) (2 ^ (b.queue (parTen r.params) (parQ r.params)).depth - 1) }) ∧
  Completes .queClear queClearSpec
    (fun r b => (b.queue (parTen r.params) (parQ r.params)).depth ≠ 0 ∧ b.crossedNow (b.queue (parTen r.params)
      (parQ r.params)) = none)
    (fun _ _ => [])
    (fun r b => b.setQueue (parTen r.params) (parQ r.params)
      { b.queue (parTen r.params) (parQ r.params) with
        latch := (b.queue (parTen r.params) (parQ r.params)).latch && !bit (par r.params 1) 30
        ovr := (b.queue (parTen r.params) (parQ r.params)).ovr && !bit (par r.params 1) 29
        ptrErr := (b.queue (parTen r.params) (parQ r.params)).ptrErr && !bit (par r.params 1) 28 })

/-- The accesses to doorbell pages and the rows of the queue engine take place. For the requester bound to the tenant:
doorbell advances the pointer of a reply or notice queue, commits slots to a submission queue, and is refused beyond
the slots there; flush flushes, qStatusClear clears flags, but on the cycle of an upward crossing LATCH stays set and
QUE_LEVEL is posted if the crossing posted none; heldReplyPosted posts the oldest held reply; pointerCheck resets a
queue of which one pointer disagrees with its copy, and changes nothing for a pair that agrees; registerWrite acts by
the address; dispatch takes the packet whose turn it is; notbeforeReached begins the commands that are due. -/
def Obligations.DoorbellRowsHappen : Prop :=
  (∀ (who t q : Nat) (value : Word) (n : Nat), Happens (fun e => .doorbell e who t q value)
    (fun u => u.running 1 = true ∧ q < 6 ∧ t < 32 ∧ u.boundTo who t = true ∧ (u.queue t q).ptrBad = none ∧
      (u.queue t q).depth ≠ 0 ∧ (u.queue t q).ptrErr = false ∧ value.toNat % 2 ^ 13 % 4096 < 2 ^ (u.queue t q).depth
        ∧ 4 ≤ q ∧
      n = (ptrLin (u.queue t q).depth (BitVec.ofNat 13 (value.toNat % 2 ^ 13)) + 2 * 2 ^ (u.queue t q).depth -
        ptrLin (u.queue t q).depth ((u.queue t q).own q)) % (2 * 2 ^ (u.queue t q).depth) ∧ n ≠ 0 ∧ n ≤ (u.queue t
          q).occ)
    (fun u => u.takeSlots t q n)) ∧
  (∀ (who t q : Nat) (value : Word) (n : Nat), Happens (fun e => .doorbell e who t q value)
    (fun u => u.running 1 = true ∧ q < 6 ∧ t < 32 ∧ u.boundTo who t = true ∧ (u.queue t q).ptrBad = none ∧
      (u.queue t q).depth ≠ 0 ∧ (u.queue t q).ptrErr = false ∧ value.toNat % 2 ^ 13 % 4096 < 2 ^ (u.queue t q).depth
        ∧ q < 4 ∧
      n = (ptrLin (u.queue t q).depth (BitVec.ofNat 13 (value.toNat % 2 ^ 13)) + 2 * 2 ^ (u.queue t q).depth -
        ptrLin (u.queue t q).depth ((u.queue t q).own q)) % (2 * 2 ^ (u.queue t q).depth) ∧ n ≠ 0 ∧ n ≤ (u.queue t
          q).window q)
    (fun u => commitSq t q ((u.queue t q).commitSlots n) u)) ∧
  (∀ (who t q : Nat) (value : Word), Happens (fun e => .doorbell e who t q value)
    (fun u => u.running 1 = true ∧ q < 6 ∧ t < 32 ∧ u.boundTo who t = true ∧ (u.queue t q).ptrBad = none ∧
      (u.queue t q).depth ≠ 0 ∧ 2 ^ (u.queue t q).depth ≤ value.toNat % 2 ^ 13 % 4096)
    (fun u =>
      notice t 0x0203 [queWord t q, wd (value.toNat % 2 ^ 13)] (u.setQueue t q { u.queue t q with ovr := true }))) ∧
  (∀ (who t q : Nat) (value : Word), Happens (fun e => .flush e who t q value)
    (fun u => u.running 1 = true ∧ q < 6 ∧ t < 32 ∧ u.boundTo who t = true ∧ (u.queue t q).ptrBad = none ∧
      bit value 0 = true) (fun u => flushQueue t q u)) ∧
  (∀ (who t q : Nat) (value : Word), Happens (fun e => .qStatusClear e who t q value)
    (fun u => u.running 1 = true ∧ q < 6 ∧ t < 32 ∧ u.boundTo who t = true ∧
      (u.queue t q).depth ≠ 0 ∧ u.crossedNow (u.queue t q) = none)
    (fun u => u.setQueue t q { u.queue t q with
      latch := (u.queue t q).latch && !bit value 30, ovr := (u.queue t q).ovr && !bit value 29
      ptrErr := (u.queue t q).ptrErr && !bit value 28 })) ∧
  (∀ (who t q : Nat) (value : Word), Happens (fun e => .qStatusClear e who t q value)
    (fun u => u.running 1 = true ∧ q < 6 ∧ t < 32 ∧ u.boundTo who t = true ∧
      (u.queue t q).depth ≠ 0 ∧ u.crossedNow (u.queue t q) = some false ∧ bit value 30 = true)
    (fun u =>
      notice t 0x0201 [queWord t q, wd (u.queue t q).occ] (u.setQueue t q { u.queue t q with
        ovr := (u.queue t q).ovr && !bit value 29, ptrErr := (u.queue t q).ptrErr && !bit value 28
        crossed := some (u.clk, true) }))) ∧
  (∀ (t : Nat) (x : HeldReply) (xs : List HeldReply), Happens (fun e => .heldReplyPosted e t)
    (fun u => u.exists t = true ∧ (u.queue t 4).ptrBad = none ∧ (u.queue t 4).held = x :: xs ∧ x.final = none ∧
      x.slots.length ≤ (u.queue t 4).room)
    (fun u =>
      postItem t 4 (mkSlots (u.queue t 4).gen x.slots) (u.setQueue t 4 { u.queue t 4 with held := xs }))) ∧
  (∀ (t q : Nat) (prod : Bool) (ptr inv : Nat), Happens (fun e => .pointerCheck e t q prod ptr inv)
    (fun u => q < 6 ∧ u.exists t = true ∧ (u.queue t q).depth ≠ 0 ∧ (u.queue t q).ptrBad = none ∧ ptr < 2 ^ 13 ∧ inv
      < 2 ^ 13 ∧
      ptr + inv ≠ 0x1FFF) (fun u => forcedReset t q ptr inv u)) ∧
  (∀ (t q : Nat) (prod : Bool) (ptr inv : Nat), Happens (fun e => .pointerCheck e t q prod ptr inv)
    (fun u => q < 6 ∧ u.exists t = true ∧ (u.queue t q).depth ≠ 0 ∧ (u.queue t q).ptrBad = none ∧ ptr < 2 ^ 13 ∧
      ptr + inv = 0x1FFF) (fun u => u)) ∧
  (∀ (who addr width value : Nat), Happens (fun e => .registerWrite e who addr width value)
    (fun u => 0x40000000 ≤ addr ∧ addr < 0x40020000 ∧ u.running 1 = true)
    (fun u => pageWrite who addr width value u)) ∧
  (∀ (who addr width value : Nat) (p : Nat), Happens (fun e => .registerWrite e who addr width value)
    (fun u => 0x20000000 ≤ addr ∧ addr < 0x21000000 ∧ u.running 1 = true ∧ partOfReq who = some p ∧ storeOk width =
      true ∧
      u.spillAt addr = none ∧ u.spillAt (addr + width / 8 - 1) = none ∧ u.inRegion p addr (width / 8) 1 = true ∧
        u.vaultAddr addr = false ∧
      (u.writeMem addr (bytesOf (width / 8) value)).ctlHit addr (width / 8) = none)
    (fun u => u.writeMem addr (bytesOf (width / 8) value))) ∧
  (∀ (q t : Nat) (hd : Hdr) (n : Nat) (cut : Bool), Happens .dispatch
    (fun u => (∀ t < 32, u.serves t = true → u.slotFree t = true) ∧
      (List.range 4).findSome? (fun q => (u.nextAt q).map (fun t => (q, t))) = some (q, t) ∧
      (u.queue t q).ptrBad = none ∧ u.headItem (u.queue t q) = .whole hd n cut)
    (fun u =>
      let p := pktOf hd ((u.slotsOf (u.queue t q)).take n)
      let s1 := { u with rr := put u.rr q t }
      launch (opFind hd.opcode) t p (some q) (trigsFirst p.opcode p.params u.tim.full (s1.takeSlots t q n)))) ∧
  Happens .notbeforeReached (fun u => u.teller = true) (fun u => u.dueCmds.foldl beginDue u)

/-- The carriage rows take place. carriageFrameReceived, of a frame of the association that is not a peer's: the
commands of a new frame that verify go into the submission queue it names, and the frame is acknowledged; an
acknowledge ends the frame that it names; a frame accepted before is acknowledged again; a replay is counted, and so
is a frame of a tenant without an association. carriageSend sends the replies that wait, else the notices, in a frame
that leaves P15 for the association's port. carriageRetransmit sends a frame again 1 ms after it was last sent, at
most eight times in all, then abandons it; above t = 31 it does so for peer t - 32 of the relay. -/
def Obligations.CarriageRowsHappen : Prop :=
  (∀ (f : Carriage) (head rest : List Byte) (a : Assoc) (kind : Nat) (items : List (List Byte × List Byte)) (x :
    List Byte) (xs : List (List Byte)) (v : State), Happens (fun e => .carriageFrameReceived e f)
    (fun u => u.alive 3 = true ∧ f.port < 14 ∧ u.peerFor f = none ∧ f.bytes = head ++ rest ∧ head.length = 20 ∧
      (u.tenant (le head 1 1)).assoc = some a ∧ le head 0 1 = 0x10 + kind ∧ f.port = a.port ∧ f.src = a.mac ∧
      (a.cmac = true ∨ f.rxsc = some a.rxsc) ∧
      kind = 0 ∧ a.seqCase (le head 4 4) = .fresh ∧ le head 3 1 ≠ 0 ∧ carItems a.cmac (le head 3 1) rest = some
        items ∧
      head.length + rest.length + 18 ≤ 9216 ∧ le head 2 1 ≤ 3 ∧
      carVerify (le head 1 1) a head items (checkPtrs (le head 1 1) (le head 2 1) u) = (x :: xs, v) ∧
      (v.queue (le head 1 1) (le head 2 1)).ptrErr = false ∧
      ((x :: xs).map (fun b => (itemSlots b).length)).sum ≤ (v.queue (le head 1 1) (le head 2 1)).room)
    (fun _ =>
      let t := le head 1 1
      let q := le head 2 1
      carAck t 0 (le head 4 4) ((x :: xs).foldl
        (fun s b => postItem t q (mkSlots (v.queue t q).gen (itemSlots b)) s) (v.setAssoc t (a.accept (le head 4
          4)))))) ∧
  (∀ (f : Carriage) (head rest : List Byte) (a : Assoc) (kind : Nat), Happens (fun e => .carriageFrameReceived e f)
    (fun u => u.alive 3 = true ∧ f.port < 14 ∧ u.peerFor f = none ∧ f.bytes = head ++ rest ∧ head.length = 20 ∧
      (u.tenant (le head 1 1)).assoc = some a ∧ le head 0 1 = 0x10 + kind ∧ f.port = a.port ∧ f.src = a.mac ∧
      (a.cmac = true ∨ f.rxsc = some a.rxsc) ∧
      kind = 3 ∧ a.seqCase (le head 4 4) = .fresh ∧ le head 3 1 = 0 ∧ carBare a head rest = true)
    (fun u =>
      doneOut (le head 1 1) (le head 16 4) (u.setAssoc (le head 1 1) (a.accept (le head 4 4))))) ∧
  (∀ (f : Carriage) (head rest : List Byte) (a : Assoc) (kind : Nat), Happens (fun e => .carriageFrameReceived e f)
    (fun u => u.alive 3 = true ∧ f.port < 14 ∧ u.peerFor f = none ∧ f.bytes = head ++ rest ∧ head.length = 20 ∧
      (u.tenant (le head 1 1)).assoc = some a ∧ le head 0 1 = 0x10 + kind ∧ f.port = a.port ∧ f.src = a.mac ∧
      (a.cmac = true ∨ f.rxsc = some a.rxsc) ∧
      kind = 0 ∧ a.seqCase (le head 4 4) = .seen) (fun u => carAck (le head 1 1) 0 (le head 4 4) u)) ∧
  (∀ (f : Carriage) (head rest : List Byte) (a : Assoc) (kind : Nat), Happens (fun e => .carriageFrameReceived e f)
    (fun u => u.alive 3 = true ∧ f.port < 14 ∧ u.peerFor f = none ∧ f.bytes = head ++ rest ∧ head.length = 20 ∧
      (u.tenant (le head 1 1)).assoc = some a ∧ le head 0 1 = 0x10 + kind ∧ f.port = a.port ∧ f.src = a.mac ∧
      (a.cmac = true ∨ f.rxsc = some a.rxsc) ∧
      (kind = 0 ∨ kind = 3) ∧ a.seqCase (le head 4 4) = .replay)
    (fun u =>
      let t := le head 1 1
      u.setTenant t { u.tenant t with dropReplay := satInc 0xFFFFFFFF (u.tenant t).dropReplay })) ∧
  (∀ (f : Carriage) (head rest : List Byte), Happens (fun e => .carriageFrameReceived e f)
    (fun u => u.alive 3 = true ∧ f.port < 14 ∧ u.peerFor f = none ∧ f.bytes = head ++ rest ∧ head.length = 20 ∧
      (u.tenant (le head 1 1)).assoc = none ∧ u.exists (le head 1 1) = true)
    (fun u => u.setTenant (le head 1 1) { u.tenant (le head 1 1) with
      dropForeign := satInc 0xFFFFFFFF (u.tenant (le head 1 1)).dropForeign })) ∧
  (∀ (t : Nat) (a : Assoc) (x : List Byte × Nat) (xs items : List (List Byte × Nat)), Happens (fun e =>
    .carriageSend e t)
    (fun u => u.alive 3 = true ∧ u.running 2 = true ∧ (u.tenant t).assoc = some a ∧ u.unsent t 4 a = x :: xs ∧
      items = (fitItems ((u.sp a.port).mtu - 42) (if a.cmac then 8 else 0) (x :: xs)).take 255)
    (fun u =>
      let bs := carBytes a (carHeader 1 t 0 items.length a.txSeq (u.sqRoom t) 0) (items.map (·.1))
      tellerSend { port := a.port } (u.sp 15).defPcp
        { dst := a.mac, src := u.image.gwAddr, etype := u.net.etype, payload := bs }
        (settleNet (u.setAssoc t { a with
          txSeq := (a.txSeq + 1) % 2 ^ 32
          outs := a.outs ++
            [{ fseq := a.txSeq, kind := 1, slots := (items.map (·.2)).sum, bytes := bs, sentAt := u.clk }] })))) ∧
  (∀ (t : Nat) (a : Assoc) (x : List Byte × Nat) (xs items : List (List Byte × Nat)), Happens (fun e =>
    .carriageSend e t)
    (fun u => u.alive 3 = true ∧ u.running 2 = true ∧ (u.tenant t).assoc = some a ∧ u.unsent t 4 a = [] ∧ u.unsent t
      5 a = x :: xs ∧
      items = (fitItems ((u.sp a.port).mtu - 42) (if a.cmac then 8 else 0) (x :: xs)).take 255)
    (fun u =>
      let bs := carBytes a (carHeader 2 t 0 items.length a.txSeq (u.sqRoom t) 0) (items.map (·.1))
      tellerSend { port := a.port } (u.sp 15).defPcp
        { dst := a.mac, src := u.image.gwAddr, etype := u.net.etype, payload := bs }
        (settleNet (u.setAssoc t { a with
          txSeq := (a.txSeq + 1) % 2 ^ 32
          outs := a.outs ++
            [{ fseq := a.txSeq, kind := 2, slots := (items.map (·.2)).sum, bytes := bs, sentAt := u.clk }] })))) ∧
  (∀ (t fseq : Nat) (a : Assoc) (o : OutFrame), Happens (fun e => .carriageRetransmit e t fseq)
    (fun u => u.alive 3 = true ∧ u.running 2 = true ∧ t < 32 ∧ (u.tenant t).assoc = some a ∧ a.dueOut fseq u.clk =
      some o ∧ o.sends < 8)
    (fun u =>
      tellerSend { port := a.port } (u.sp 15).defPcp
        { dst := a.mac, src := u.image.gwAddr, etype := u.net.etype, payload := o.bytes }
        (settleNet (u.setAssoc t (resent fseq u.clk a))))) ∧
  (∀ (t fseq : Nat) (a : Assoc) (o : OutFrame), Happens (fun e => .carriageRetransmit e t fseq)
    (fun u => u.alive 3 = true ∧ t < 32 ∧ (u.tenant t).assoc = some a ∧ a.dueOut fseq u.clk = some o ∧ 8 ≤ o.sends)
    (fun u =>
      tenFault t 2 (abandonOut t o u))) ∧
  (∀ (t fseq : Nat) (p : Nat) (x : ImgPeer) (o : OutFrame), Happens (fun e => .carriageRetransmit e t fseq)
    (fun u => u.alive 3 = true ∧ u.running 2 = true ∧ t = 32 + p ∧ u.peer? p = some x ∧ x.assoc.dueOut fseq u.clk =
      some o ∧ o.sends < 8)
    (fun u =>
      tellerSend { port := x.assoc.port } (u.sp 15).defPcp
        { dst := x.assoc.mac, src := u.image.gwAddr, etype := u.net.etype, payload := o.bytes }
        (settleNet (u.setPeer p { x with assoc := resent fseq u.clk x.assoc }))))

/-- Clock losses, shut-downs and starts of islands and functions take place. clockLoss resets an island in RUN, holds
it for its clock, ends its requests with INTERNAL, completes its disables and posts SYS_CLKLOSS; a second loss within
1 s of RUN leaves it off and ends its enables; clockReturn starts it; quiescenceReached applies the gate;
forcedShutdown resets the island, records and counts the shut-down and applies the gate; islandRunReached brings a
port, controller, channel or island to RUN; keyInactive releases KEY. -/
def Obligations.FunctionEventsHappen : Prop :=
  (∀ (isl : Nat), Happens (fun e => .clockLoss e isl)
    (fun u => isl < 9 ∧ (u.island isl).gate.st = .run ∧ (u.island isl).clkLoss = false)
    (fun u =>
      let x := u.island isl
      let s1 := u.setIsland isl
        { x with gate := { st := .powerGated, enCmds := x.gate.enCmds, since := u.clk }, clkLoss := true, lossHold := true, stuck := false, runAt := none }
      let s2 := finishAll x.gate.disCmds .ok (islLose isl (islAbort isl s1))
      noticeOnly 0 0x0002 [wd isl, 0] (logSev 2 0x0002 0xFF [wd isl, 0] (latchFault 4 s2)))) ∧
  (∀ (isl : Nat) (t : Nat), Happens (fun e => .clockLoss e isl)
    (fun u => isl < 9 ∧ (u.island isl).gate.st = .run ∧ (u.island isl).clkLoss = true ∧ (u.island isl).runAt = some
      t ∧ u.clk < t + 1000000000)
    (fun u =>
      let x := u.island isl
      let s1 := u.setIsland isl
        { x with gate := { st := .powerGated, since := u.clk }, clkLoss := true, lossHold := false, stuck := true, runAt := none }
      let s2 := finishAll x.gate.enCmds .internal (finishAll x.gate.disCmds .ok (islLose isl (islAbort isl s1)))
      noticeOnly 0 0x0002 [wd isl, 1] (logSev 2 0x0002 0xFF [wd isl, 1] (latchFault 4 s2)))) ∧
  (∀ (isl : Nat), Happens (fun e => .clockReturn e isl)
    (fun u => isl < 9 ∧ (u.island isl).lossHold = true ∧ (u.island isl).gate.since + 100000 ≤ u.clk)
    (fun u =>
      let x := u.island isl
      u.setIsland isl
        { x with lossHold := false, gate := { x.gate with st := .starting, cold := true, since := u.clk } })) ∧
  (∀ (fn : Func) (p : Nat), Happens (fun e => .quiescenceReached e fn)
    (fun u => fn = .port p ∧ p < 16 ∧ (u.gate fn).st = .quiescing ∧ (u.sp p).sending = none)
    (fun u =>
      gateApply fn (fun s => s) (portGated p u))) ∧
  (∀ (fn : Func) (n : Nat), Happens (fun e => .quiescenceReached e fn)
    (fun u => fn = .island n ∧ n < 9 ∧ (u.gate fn).st = .quiescing ∧ (u.gate fn).deep = false ∧ u.drained fn = true)
    (fun u =>
      let v := gateApply fn (fun s => s) (islGated n u)
      if n = 0 ∧ v.pow.mode = .entering 2 then entryCpx v else v)) ∧
  (∀ (fn : Func) (n : Nat), Happens (fun e => .quiescenceReached e fn)
    (fun u => fn = .island n ∧ n < 9 ∧ (u.gate fn).st = .quiescing ∧ (u.gate fn).deep = true ∧ u.drained fn = true)
    (fun u =>
      let v := gateApply fn (islLose n) u
      if n = 0 ∧ v.pow.mode = .entering 2 then entryCpx v else v)) ∧
  (∀ (fn : Func) (n : Nat), Happens (fun e => .quiescenceReached e fn)
    (fun u => fn = .can n ∧ n < 12 ∧ (u.gate fn).st = .quiescing ∧ (u.canc n).sending = none)
    (fun u =>
      gateApply fn (fun s => s) (canGated n u))) ∧
  (∀ (fn : Func) (n : Nat), Happens (fun e => .quiescenceReached e fn)
    (fun u => fn = .lin n ∧ n < 8 ∧ (u.gate fn).st = .quiescing ∧ (u.lin n).header = none)
    (fun u =>
      gateApply fn (fun s => s) (linGated n u))) ∧
  (∀ (fn : Func) (n : Nat), Happens (fun e => .forcedShutdown e fn)
    (fun u => fn = .island n ∧ n < 9 ∧ (u.gate fn).st = .quiescing ∧ (u.gate fn).since + quietBound fn ≤ u.clk)
    (fun u =>
      let s1 := logObj 0x00 0xFF 0 n 0 u
      let x := s1.island n
      let v := gateApply fn (fun s => s) (islLose n (islAbort n (s1.setIsland n
        { x with forced := satInc 255 x.forced })))
      if n = 0 ∧ v.pow.mode = .entering 2 then entryCpx v else v)) ∧
  (∀ (fn : Func) (p : Nat), Happens (fun e => .forcedShutdown e fn)
    (fun u => fn = .port p ∧ p < 16 ∧ (u.gate fn).st = .quiescing ∧ (u.gate fn).since + quietBound fn ≤ u.clk)
    (fun u =>
      gateApply fn (fun s => s) (portGated p (logObj 0x00 0xFF 0 (funcKey fn) 0 u)))) ∧
  (∀ (fn : Func) (p : Nat), Happens (fun e => .islandRunReached e fn)
    (fun u => fn = .port p ∧ p < 16 ∧ (u.gate fn).st = .starting ∧ u.alive 2 = true ∧ u.funcTested fn = false)
    (fun u =>
      let g := u.gate fn
      finishAll g.enCmds .ok (u.setGate fn { g with
        st := if g.disPend then GateState.quiescing else GateState.run, disPend := false, enCmds := [], cold :=
          false, since := u.clk }))) ∧
  (∀ (fn : Func) (n : Nat), Happens (fun e => .islandRunReached e fn)
    (fun u => fn = .can n ∧ n < 12 ∧ (u.gate fn).st = .starting ∧ u.alive 5 = true ∧ u.funcTested fn = false)
    (fun u => gateRun fn (canRun n u))) ∧
  (∀ (fn : Func) (n : Nat), Happens (fun e => .islandRunReached e fn)
    (fun u => fn = .lin n ∧ n < 8 ∧ (u.gate fn).st = .starting ∧ u.alive 5 = true ∧ u.funcTested fn = false)
    (fun u => gateRun fn (linRun n u))) ∧
  (∀ (fn : Func) (n : Nat), Happens (fun e => .islandRunReached e fn)
    (fun u => fn = .island n ∧ n < 9 ∧ (u.gate fn).st = .starting) (fun u => islStarted n u)) ∧
  Happens .keyInactive (fun u => u.probe .key = 1) (fun u => nmgSettle true (setProbe .key 0 u))

/-- The rows on wakes and power states take place. tallyAlarmFire disarms the alarm and posts TIM_ALARM; wake starts a
selective decoder, or latches a wake in SLEEP; auditEnd files the audit that has tested its blocks; sleepEntry posts
SYS_SHUTDOWN to every tenant; sleepEntryCheck goes on or ends the entry; sleepReached, dormantEntry and aonSupplyLoss
leave what AON and non-volatile memory keep; start starts the module, from each kind of mode; brownout runs to its
end. -/
def Obligations.PowerEventsHappen : Prop :=
  Happens .tallyAlarmFire (fun u => u.tim.alarmDue = true ∧ u.pow.mode = .run)
    (fun u =>
      notice 0 0x2005 (0 :: timeWords (u.tim.alarm.getD 0))
        { u with tim := { u.tim with alarm := none, alarmDue := false } }) ∧
  (∀ (cause : Nat) (src : WakeSrc), Happens (fun e => .wake e cause src)
    (fun u =>
      let v := wakeReady cause src.idx u
      cause = 1 ∧ v.wakeArmed cause src.idx = true ∧ (v.ring src.idx).swEn = true ∧ v.releaseWake 1 src.idx = false ∧
      (v.ring src.idx).decRun = false)
    (fun u =>
      let v := wakeReady cause src.idx u
      v.setRing src.idx { v.ring src.idx with decRun := true, decErr := 0, decAt := v.clk })) ∧
  (∀ (cause : Nat) (src : WakeSrc), Happens (fun e => .wake e cause src)
    (fun u => cause = 7 ∧ u.pow.mode = .sleep ∧ u.nmg.wakePend = false ∧ 40 ≤ src.idx ∧ src.idx < 48 ∧
      bit u.nmg.wake1 (src.idx - 40) = true ∧ u.fiTakes src.idx (1 - (u.fin src.idx).raw) = true)
    (fun u =>
      let s1 := u.setFin src.idx { u.fin src.idx with raw := 1 - (u.fin src.idx).raw }
      { s1 with nmg := { u.nmg with wakePend := true, cause := 7, causeIdx := src.idx, causeAt := aonTime u.tim.full, wakeBus := none } }))
        ∧
  (∀ (r : AuditRun), Happens .auditEnd (fun u => u.aud.run = some r ∧ r.left = [])
    (fun u =>
      if (auditFinish u).nmg.wakePend = true ∧ (auditFinish u).pow.mode = .entering 2 then endEntry (auditFinish u)
      else auditFinish u)) ∧
  (∀ (t : Nat), Happens .sleepEntry
    (fun u => u.pow.mode = .run ∧ u.parked = true ∧ u.pow.quietSince = some t ∧ t + u.image.tsleep * 1000000000 ≤
      u.clk)
    (fun u =>
      noticeAll (List.range 32) 0x0001 [2, 100]
        { u with pow := { u.pow with mode := .entering 1, since := u.clk }, nmg := { u.nmg with wakePend := false, wakeBus := none } }))
          ∧
  Happens .sleepEntryCheck
    (fun u => u.pow.mode = .entering 1 ∧ u.pow.since + 100000000 ≤ u.clk ∧ u.nmg.wakePend = false ∧
      u.parked = true) (fun u => entryGo u) ∧
  Happens .sleepEntryCheck
    (fun u => u.pow.mode = .entering 1 ∧ u.pow.since + 100000000 ≤ u.clk ∧ (u.nmg.wakePend = true ∨ u.parked = false))
    (fun u => endEntry u) ∧
  Happens .sleepReached
    (fun u => u.pow.mode = .entering 2 ∧ u.aud.run = none ∧ u.nmg.wakePend = false ∧ u.alive 0 = false ∧
      u.inflight.all (fun c => c.phase == .held || c.phase == .crossing || ((opFind c.opcode).bind (·.isl)).any
        u.quietLate) = true ∧
      u.islandsQuiet = true)
    (fun u =>
      let v := sleepOrder.foldl (fun s n => if s.quietLate n then islForced n s else s) u
      let s1 := allChans.foldl (fun s ch => s.thetaNow ch) v
      keptState true { s1 with
        sto := { s1.sto with ckpt := !s1.sto.absent }, pow := { s1.pow with mode := .sleep, orderly := true }
        flt := { s1.flt with held := v.faultLow } }) ∧
  Happens .dormantEntry
    (fun u => u.pow.mode = .sleep ∧ u.nmg.wakePend = false ∧ u.image.tdorm ≠ 0 ∧
      u.pow.since + u.image.tdorm * 3600000000000 ≤ u.clk)
    (fun u => keptState false (sessionEnd { u with pow := { u.pow with mode := .dormant } })) ∧
  Happens .aonSupplyLoss (fun u => (u.pow.mode = .sleep ∨ u.pow.mode = .dormant) ∧ u.vhfDown = true)
    (fun u => keptState false (sessionEnd { u with pow := { u.pow with mode := .off } })) ∧
  (∀ (kind : Nat), Happens (fun e => .start e kind) (fun u => kind = 0 ∧ u.pow.mode = .off ∧ 5700 ≤ u.probe .vhfMv)
    (fun u => startModule kind u)) ∧
  (∀ (kind : Nat), Happens (fun e => .start e kind)
    (fun u => kind = 1 ∧ u.pow.mode = .sleep ∧ u.nmg.wakePend = true) (fun u => startModule kind u)) ∧
  (∀ (kind : Nat), Happens (fun e => .start e kind)
    (fun u => kind = 2 ∧ u.pow.mode = .dormant ∧ u.nmg.wakePend = true) (fun u => startModule kind u)) ∧
  (∀ (kind : Nat), Happens (fun e => .start e kind) (fun u => kind = 3 ∧ u.diesUp = true ∧ u.yar.logicReset = true)
    (fun u => startModule kind u)) ∧
  Happens .brownout (fun u => u.diesUp = true ∧ 20000 ≤ u.pow.vhfLow) (fun u => brownout u)

/-- The rows of the switch and of the shared engines take place. What is due at the same cycle (a hold expiry, a
change set, a gate list) comes before a frame: frameReceived takes the frames of a cycle in the order of their ports,
counts a runt, an oversize and a wrong check sequence, and otherwise counts the frame and forwards it; frameQueued
queues a frame that has its last cell at its destinations; transmissionStart begins the head of the highest class that
may go, transmissionEnd counts and releases it; agedHeadCheck drops aged heads of a port without a link; sqpWrite
stores the pointer and serves the ring; transferComplete moves the bytes of a copy and completes it, with INTERNAL
after the bytes before a bad word, and drops and counts the completion of an instance that is being reset. -/
def Obligations.SwitchAndEngineEventsHappen : Prop :=
  (∀ (fs : List RxFrame), Happens (fun e => .frameReceived e fs) (fun u => u.running 2 = true)
    (fun u =>
      ((fs.foldl (fun l f => byPort f l) []).filter (fun f => decide (f.port < 14) && (settleNet u).linked
        f.port)).foldl
        (fun v f => receive f v) (settleNet u))) ∧
  (∀ (fs : List RxFrame) (f : RxFrame), Happens (fun e => .frameReceived e fs)
    (fun u => fs = [f] ∧ f.port < 14 ∧ u.running 2 = true ∧ (settleNet u).linked f.port = true ∧ f.sec = none ∧
      frameLen f.frame < 64)
    (fun u =>
      countPort f.port cRUNT 1 (settleNet u))) ∧
  (∀ (fs : List RxFrame) (f : RxFrame), Happens (fun e => .frameReceived e fs)
    (fun u => fs = [f] ∧ f.port < 14 ∧ u.running 2 = true ∧ (settleNet u).linked f.port = true ∧ f.sec = none ∧ 64 ≤
      frameLen f.frame ∧
      frameLen f.frame ≤ ((settleNet u).sp f.port).mtu ∧ f.fcsOk = true ∧ (settleNet u).macOn f.port = false)
    (fun u =>
      let w := settleNet u
      (forward f.port none none (w.sp f.port).pvid (w.sp f.port).defPcp f.frame (countIn f.port f.frame w)).1)) ∧
  (∀ (fs : List RxFrame) (f : RxFrame), Happens (fun e => .frameReceived e fs)
    (fun u => fs = [f] ∧ f.port < 14 ∧ u.running 2 = true ∧ (settleNet u).linked f.port = true ∧ f.sec = none ∧ 64 ≤
      frameLen f.frame ∧
      ((settleNet u).sp f.port).mtu < frameLen f.frame) (fun u => countPort f.port cOVERSIZE 1 (settleNet u))) ∧
  (∀ (fs : List RxFrame) (f : RxFrame), Happens (fun e => .frameReceived e fs)
    (fun u => fs = [f] ∧ f.port < 14 ∧ u.running 2 = true ∧ (settleNet u).linked f.port = true ∧ f.sec = none ∧ 64 ≤
      frameLen f.frame ∧
      frameLen f.frame ≤ ((settleNet u).sp f.port).mtu ∧ f.fcsOk = false)
    (fun u => countPort f.port cFCSERR 1 (settleNet u))) ∧
  (∀ (id : Nat) (f : Stored) (p tc : Nat), Happens (fun e => .frameQueued e id)
    (fun u => u.queueNext id = true ∧ (settleNet u).stored? id = some f ∧ f.dests = [(p, tc)] ∧ f.cut = [])
    (fun u =>
      let s0 := foldCredits p (setStored { f with dests := [] } (settleNet u))
      s0.setSp p ((s0.sp p).setQ tc ((s0.sp p).q tc ++ [id])))) ∧
  (∀ (port : Nat) (tc id : Nat) (f : Stored), Happens (fun e => .transmissionStart e port)
    (fun u => port < 16 ∧ u.running 2 = true ∧ u.linked port = true ∧ (u.sp port).sending = none ∧
      [7, 6, 5, 4, 3, 2, 1, 0].find? (fun c => pick port c (foldCredits port (settleNet u)) != .pass) = some tc ∧
      pick port tc (foldCredits port (settleNet u)) = .send id ∧ (foldCredits port (settleNet u)).stored? id = some f)
    (fun u =>
      let w := foldCredits port (settleNet u)
      let s1 := popHead port tc w
      let an := if w.protects port f then some (w.txan port) else none
      stampTx port f (s1.setSp port { s1.sp port with sending := some { id := id, tc := tc, an := an } }))) ∧
  (∀ (port : Nat) (t : Sending) (f : Stored), Happens (fun e => .transmissionEnd e port)
    (fun u => port < 16 ∧ (u.sp port).sending.isSome = true ∧ ((foldCredits port u).sp port).sending = some t ∧
      (foldCredits port u).stored? t.id = some f ∧ port ≠ 14 ∧ t.an = none)
    (fun u =>
      let s0 := foldCredits port u
      let g := s0.egress port f
      let s1 := s0.setSp port { s0.sp port with sending := none, out := some g, outSec := none }
      let s2 := countPort port cTXBYTES (frameLen g + s0.macOverhead port f) (countPort port cTXFRAMES 1 s1)
      let s3 := releaseCopy t.id (if port = 15 ∧ f.frame.etype = 0x88F7 then gptpIn f.iport f.frame.payload s2 else
        s2)
      if port = 15 then tellerFrame f.iport f.frame s3 else s3)) ∧
  (∀ (port : Nat) (t : Sending) (f : Stored) (an : Nat), Happens (fun e => .transmissionEnd e port)
    (fun u => port < 16 ∧ (u.sp port).sending.isSome = true ∧ ((foldCredits port u).sp port).sending = some t ∧
      (foldCredits port u).stored? t.id = some f ∧ port < 14 ∧ t.an = some an)
    (fun u =>
      let s0 := foldCredits port u
      let g := s0.egress port f
      let s1 := s0.setSp port { s0.sp port with sending := none, out := some g, outSec := some (s0.secTag port an g) }
      let s2 := countPort port cTXBYTES (frameLen g + s0.macOverhead port f) (countPort port cTXFRAMES 1 s1)
      releaseCopy t.id (nextPn port an (countMac port 8 s2)))) ∧
  (∀ (port : Nat), Happens (fun e => .agedHeadCheck e port) (fun u => port < 16 ∧ u.linked port = false)
    (fun u =>
      (List.range 8).foldl (fun s tc => match (s.sp port).q tc with
        | [] => s
        | id :: _ =>
          if (s.stored? id).any (fun f => decide (s.tim.full < f.stamp) || decide (f.stamp + (s.sp port).ageOf tc ≤
            s.tim.full)) then
            dropCopy port cAGED id (popHead port tc s)
          else s) u)) ∧
  (∀ (who kind idx sqp : Nat) (v : Vi) (p : Nat), Happens (fun e => .sqpWrite e who kind idx sqp)
    (fun u => u.running 1 = true ∧ u.vi kind idx = some v ∧ partOfReq who = some p ∧
      u.inRegion p (pageAddr (v.ctlPage kind)) 2 1 = true ∧ u.vaultAddr (pageAddr (v.ctlPage kind)) = false)
    (fun u =>
      serveKey ((u.setVi kind idx (some { v with sqp := sqp % 2 ^ 16 })).writeMem (pageAddr (v.ctlPage kind))
        (bytesOf 2 (sqp % 2 ^ 16)))
        (kind * 256 + idx))) ∧
  (∀ (who kind idx sqp : Nat) (v : Vi) (p : Nat), Happens (fun e => .sqpWrite e who kind idx sqp)
    (fun u => u.running 1 = true ∧ u.vi kind idx = some v ∧ partOfReq who = some p ∧
      u.inRegion p (pageAddr (v.ctlPage kind)) 2 1 = false)
    (fun u => storeRefused p (pageAddr (v.ctlPage kind)) 16 u)) ∧
  (∀ (x : RingRef) (badAt : Option Nat) (v : Vi) (d : Fetched), Happens (fun e => .transferComplete e x badAt)
    (fun u => x.kind = 2 ∧ u.xferReady 2 x.idx x.index = true ∧ u.vi 2 x.idx = some v ∧ v.resetting = false ∧
      v.flying x.index = some d ∧ xferOk v.owner (wordBytes d.entry) u = true ∧ u.xferBad (wordBytes d.entry) badAt
        = none)
    (fun u =>
      let b := wordBytes d.entry
      let s1 := complete 2 x.idx (xferDone b 0 (le b 4 4) d.epoch u.now) (xferMove b (le b 4 4) (dropFetched 2 x.idx
        v d u))
      serveAll (if le b 1 1 % 2 = 1 then deliver v.owner 240 s1 else s1))) ∧
  (∀ (x : RingRef) (badAt : Option Nat) (n : Nat) (v : Vi) (d : Fetched), Happens (fun e => .transferComplete e x
    badAt)
    (fun u => x.kind = 2 ∧ u.xferReady 2 x.idx x.index = true ∧ u.vi 2 x.idx = some v ∧ v.resetting = false ∧
      v.flying x.index = some d ∧ xferOk v.owner (wordBytes d.entry) u = true ∧ u.xferBad (wordBytes d.entry) badAt
        = some n)
    (fun u =>
      let b := wordBytes d.entry
      let k := min n (le b 4 4)
      let s1 := complete 2 x.idx (xferDone b 0xFFFF k d.epoch u.now)
        (badRead (le b 8 5 + k) (xferMove b k (dropFetched 2 x.idx v d u)))
      serveAll (if le b 1 1 % 2 = 1 then deliver v.owner 240 s1 else s1))) ∧
  (∀ (x : RingRef) (badAt : Option Nat) (v : Vi) (d : Fetched), Happens (fun e => .transferComplete e x badAt)
    (fun u => u.xferReady x.kind x.idx x.index = true ∧ u.vi x.kind x.idx = some v ∧ v.resetting = true ∧
      v.flying x.index = some d) (fun u => serveAll (xferDropped x.kind x.idx v d u)))
end

