-- ==== Sys2Proof/Laws/Advance.lean ====
section
/-!
SUPPORT. What the elapsed time and the samples of a command leave alone, and how far they move the module clock.
-/

namespace Sys2Proof.Machine

/-- The queue of commands, the memory and the identity are as before. -/
structure Aside (s t : State) : Prop where
  pending : t.pending = s.pending
  mem : t.mem = s.mem
  ident : t.ident = s.ident

theorem Aside.refl (s : State) : Aside s s := ⟨rfl, rfl, rfl⟩

theorem Aside.trans {s t u : State} (h : Aside s t) (k : Aside t u) : Aside s u :=
  ⟨k.pending.trans h.pending, k.mem.trans h.mem, k.ident.trans h.ident⟩

/-- A fold of steps that leave them alone. -/
theorem Aside.foldl {α : Type} {f : State → α → State} (hf : ∀ s a, Aside s (f s a)) (l : List α) :
    ∀ s, Aside s (l.foldl f s) := by
  induction l with
  | nil => exact Aside.refl
  | cons a l ih => exact fun s => (hf s a).trans (ih _)

/-- A slot of the switch's fabric writes cells. -/
theorem writeSlot_aside (t : Nat) (s : State) (i : Nat) : Aside s (writeSlot t s i) := by
  unfold writeSlot
  split
  · exact Aside.refl s
  · dsimp only
    split
    · exact Aside.refl s
    · split <;> exact ⟨rfl, rfl, rfl⟩

/-- A slot of the switch's fabric delivers cells. -/
theorem readSlot_aside (t : Nat) (s : State) (e : Nat) : Aside s (readSlot t s e) := by
  unfold readSlot
  dsimp only
  split
  · split <;> exact ⟨rfl, rfl, rfl⟩
  · exact ⟨rfl, rfl, rfl⟩

/-- The slots of the fabric. -/
theorem fabricSlots_aside (n : Nat) : ∀ t s, Aside s (fabricSlots n t s) := by
  induction n with
  | zero => exact fun _ s => Aside.refl s
  | succ n ih => exact fun t s => ((Aside.foldl (writeSlot_aside t) _ s).trans (Aside.foldl (readSlot_aside t) _ _)).trans (ih _ _)

/-- The fabric over a stretch of time. -/
theorem fabricRun_aside (clk : Nat) (s : State) : Aside s (fabricRun clk s) := by
  unfold fabricRun
  dsimp only
  split
  · exact (fabricSlots_aside _ _ s).trans ⟨rfl, rfl, rfl⟩
  · exact ⟨rfl, rfl, rfl⟩

/-- The counts of the power dies over a stretch of time. -/
theorem meterRun_aside (dt : Nat) (s : State) : Aside s (meterRun dt s) := by
  unfold meterRun
  split <;> exact ⟨rfl, rfl, rfl⟩

theorem feedRun_aside (dt : Nat) (s : State) : Aside s (feedRun dt s) := by
  unfold feedRun
  split <;> exact ⟨rfl, rfl, rfl⟩

/-- Folding the wire model of a channel leaves them alone, and the clock. -/
theorem foldTheta_keeps (u : State) (ch n : Nat) : Aside u (u.foldTheta ch n) ∧ (u.foldTheta ch n).clk = u.clk := by
  unfold State.foldTheta
  dsimp only
  split <;> exact ⟨⟨rfl, rfl, rfl⟩, rfl⟩

/-- One sample leaves them alone, and the clock. -/
theorem showSample_keeps (u : State) (x : Probe × Int) : Aside u (showSample u x) ∧ (showSample u x).clk = u.clk := by
  unfold showSample
  cases x.1 <;> first
    | exact ⟨⟨(foldTheta_keeps u _ _).1.pending, (foldTheta_keeps u _ _).1.mem, (foldTheta_keeps u _ _).1.ident⟩,
        (foldTheta_keeps u _ _).2⟩
    | exact ⟨⟨rfl, rfl, rfl⟩, rfl⟩

/-- Nor do several change them. -/
theorem samples_keep (l : List (Probe × Int)) : ∀ u : State,
    Aside u (l.foldl showSample u) ∧ (l.foldl showSample u).clk = u.clk := by
  induction l with
  | nil => exact fun u => ⟨Aside.refl u, rfl⟩
  | cons x l ih =>
    intro u
    have k := showSample_keeps u x
    have j := ih (showSample u x)
    exact ⟨k.1.trans j.1, j.2.trans k.2⟩

/-- Elapsed time and samples leave them alone. -/
theorem advance_aside (s : State) (e : Stim) : Aside s (s.advance e) := by
  have h1 := (meterRun_aside e.dt s).trans (feedRun_aside e.dt _)
  have h2 : Aside s (trialRun e.dt (parkNote (feedRun e.dt (meterRun e.dt s)))) := h1.trans ⟨rfl, rfl, rfl⟩
  have h3 := h2.trans (fabricRun_aside (s.clk + e.dt) _)
  have h4 : Aside s (tallyRun e.dt { fabricRun (s.clk + e.dt) (trialRun e.dt (parkNote (feedRun e.dt (meterRun e.dt s))))
      with clk := s.clk + e.dt }) := ⟨h3.pending, h3.mem, h3.ident⟩
  exact h4.trans (samples_keep e.samples _).1

theorem advance_pending (s : State) (e : Stim) : (s.advance e).pending = s.pending := (advance_aside s e).pending
theorem advance_clk (s : State) (e : Stim) : (s.advance e).clk = s.clk + e.dt := (samples_keep e.samples _).2
theorem advance_mem (s : State) (e : Stim) : (s.advance e).mem = s.mem := (advance_aside s e).mem
theorem advance_ident (s : State) (e : Stim) : (s.advance e).ident = s.ident := (advance_aside s e).ident

end Sys2Proof.Machine
end

