-- ==== Sys2Proof/Laws/Tables.lean ====
section
/-!
SUPPORT. Reading a table after setting a key of it.
-/

namespace Sys2Proof.Machine

@[simp] theorem look_put_self {α : Type} (d : α) (t : Tbl α) (i : Nat) (v : α) : look d (put t i v) i = v := by
  induction t with
  | nil => simp [put, look]
  | cons p t ih =>
    obtain ⟨k, w⟩ := p
    simp only [put]
    split
    · simp [look]
    · split
      · simp [look]
      · next h _ => simp [look, h, ih]

@[simp] theorem find?_put_self {α : Type} (t : Tbl α) (i : Nat) (v : α) : find? (put t i v) i = some v := by
  induction t with
  | nil => simp [put, find?]
  | cons p t ih =>
    obtain ⟨k, w⟩ := p
    simp only [put]
    split
    · simp [find?]
    · split
      · simp [find?]
      · next h _ => simp [find?, h, ih]

theorem look_put_ne {α : Type} (d : α) (t : Tbl α) {i j : Nat} (v : α) (h : j ≠ i) :
    look d (put t i v) j = look d t j := by
  induction t with
  | nil => simp [put, look, h]
  | cons p t ih =>
    obtain ⟨k, w⟩ := p
    simp only [put]
    split
    · next hk => subst hk; simp [look, h]
    · split
      · simp [look, h]
      · simp only [look, ih]

theorem look_put {α : Type} (d : α) (t : Tbl α) (i j : Nat) (v : α) :
    look d (put t i v) j = if j = i then v else look d t j := by
  split
  · next h => subst h; simp
  · next h => exact look_put_ne d t v h

/-- The second of two values set at one key stands. -/
theorem put_put {α : Type} (t : Tbl α) (i : Nat) (v w : α) : put (put t i v) i w = put t i w := by
  induction t with
  | nil => simp [put]
  | cons p t ih =>
    obtain ⟨k, u⟩ := p
    by_cases h1 : i = k
    · simp [put, h1]
    · by_cases h2 : i < k
      · simp [put, h1, h2]
      · simp [put, h1, h2, ih]

@[simp] theorem look_nil {α : Type} (d : α) (i : Nat) : look d ([] : Tbl α) i = d := rfl

end Sys2Proof.Machine
end

