-- ==== Sys2Proof/Laws/Gate.lean ====
section
/-!
SUPPORT. What the shared enable and disable of a gated function answer, by the state of its gate (01 R28); and updates
that replace one another.
-/

namespace Sys2Proof.Machine

/-- An enable of a clock-gated function starts it, keeping its contents. -/
theorem gateEnable_clockGated {f : Func} {id : Nat} {s : State} (h : (s.gate f).st = .clockGated) :
    gateEnable f id s = .accept (s.setGate f
      { s.gate f with st := .starting, cold := false, enCmds := [id], since := s.clk }) := by
  simp [gateEnable, h]

/-- An enable of a power-gated function starts it cold. -/
theorem gateEnable_powerGated {f : Func} {id : Nat} {s : State} (h : (s.gate f).st = .powerGated) :
    gateEnable f id s = .accept (s.setGate f
      { s.gate f with st := .starting, cold := true, enCmds := [id], since := s.clk }) := by
  simp [gateEnable, h]
  rfl

/-- An enable of a running function is done. -/
theorem gateEnable_run {f : Func} {id : Nat} {s : State} (h : (s.gate f).st = .run) :
    gateEnable f id s = .okay s := by
  simp [gateEnable, h]

/-- A disable of a running function begins its shut-down. -/
theorem gateDisable_run {f : Func} {deep : Bool} {id : Nat} {lose : State → State} {s : State}
    (h : (s.gate f).st = .run) : gateDisable f deep id lose s = .accept (s.setGate f
      { s.gate f with st := .quiescing, deep := deep, disCmds := [id], since := s.clk }) := by
  simp [gateDisable, h]

/-- A controller's own fields are not its gate. -/
theorem gate_setCan {n : Nat} {x : CanCtl} {f : Func} {s : State} : (s.setCan n x).gate f = s.gate f := by
  cases f <;> rfl

/-- A channel's own fields are not its gate. -/
theorem gate_setLin {n : Nat} {x : LinCh} {f : Func} {s : State} : (s.setLin n x).gate f = s.gate f := by
  cases f <;> rfl

/-- A partition's own fields are not its gate. -/
theorem gate_setPart {p : Nat} {x : Part} {f : Func} {s : State} : (s.setPart p x).gate f = s.gate f := by
  cases f <;> rfl

/-- A hart's own fields are not a gate. -/
theorem gate_setHart {h : Nat} {x : Hart} {f : Func} {s : State} : (s.setHart h x).gate f = s.gate f := by
  cases f <;> rfl

/-- Fitted bytes have their length. -/
theorem length_fit (n : Nat) (b : List Byte) : (fit n b).length = n := by
  simp [fit]
  try omega

/-- A fold whose every step leaves the state leaves it. -/
theorem foldl_same {α β : Type} {f : β → α → β} {l : List α} {s : β} (h : ∀ a ∈ l, f s a = s) : l.foldl f s = s := by
  induction l with
  | nil => rfl
  | cons a t ih =>
    rw [List.foldl_cons, h a (by simp)]
    exact ih (fun b hb => h b (by simp [hb]))

/-- So does abandoning the call behind a fuse write. -/
theorem gate_fuseAlone {g : Caller → Bool} {f : Func} {s : State} : (fuseAlone g s).gate f = s.gate f := by
  cases f <;> rfl

/-- Holding a partition's harts leaves every gate. -/
theorem gate_holdHarts {p : Nat} {f : Func} {s : State} : (holdHarts p s).gate f = s.gate f := by
  unfold holdHarts
  generalize seatHarts (s.blk p) = l
  induction l generalizing s with
  | nil => rfl
  | cons h t ih => rw [List.foldl_cons, ih, gate_setHart, gate_fuseAlone]

/-- The later of two updates of a ring stands. -/
theorem setRing_setRing (s : State) (r : Nat) (x y : Ring) : (s.setRing r x).setRing r y = s.setRing r y := by
  simp [State.setRing, put_put]

/-- The later of two updates of a LIN channel stands. -/
theorem setLin_setLin (s : State) (n : Nat) (x y : LinCh) : (s.setLin n x).setLin n y = s.setLin n y := by
  simp [State.setLin, put_put]

/-- The later of two updates of a lockstep pair stands. -/
theorem setPair_setPair (s : State) (q : Nat) (x y : Pair) : (s.setPair q x).setPair q y = s.setPair q y := by
  simp [State.setPair, put_put]

/-- The later of two updates of a tenant stands. -/
theorem setTenant_setTenant (s : State) (t : Nat) (x y : Tenant) : (s.setTenant t x).setTenant t y = s.setTenant t y := by
  simp [State.setTenant, put_put]

end Sys2Proof.Machine
end

