-- ==== Sys2Proof/Laws/Hiast.lean ====
section
/-!
SUPPORT. What a Hiast row does once its packet begins (02 R56, R61), and what an event row does.
-/

namespace Sys2Proof.Machine

/-- What a command does whose packet begins at once. -/
theorem submit_begins {o : OpSpec} {r : Req} {s : State} (h : Begins o r s = true) :
    submit o r s = settle s.nextId (o.exec (cmdOf o r s) (begun o r s)) := by
  simp only [Begins, Bool.and_eq_true, beq_iff_eq, Bool.not_eq_true'] at h
  obtain ⟨⟨⟨⟨h1, h2⟩, h3⟩, h4⟩, h5⟩ := h
  have hp : o.parked (enterCmd (cmdOf o r s) s) = false := h5
  have hl : (cmdOf o r s).notBefore = 0 := h4
  have e1 : submit o r s = launch (some o) r.tenant (reqPkt r o.opcode) none s := by simp [submit, h1, h2]
  have e2 : launch (some o) r.tenant (reqPkt r o.opcode) none s =
      waitOrBegin o (cmdOf o r s) (enterCmd (cmdOf o r s) s) := by
    have e3 : newCmd r.tenant (reqPkt r o.opcode) none s = cmdOf o r s := rfl
    have e4 : (reqPkt r o.opcode).bad = false := rfl
    simp only [launch, chainOpen, Option.bind_none, Option.any_none, Bool.false_eq_true, if_false, e3, e4, h3]
  rw [e1, e2]
  simp only [waitOrBegin, hl, ne_eq, not_true_eq_false, false_and, if_false, begin, hp, Bool.false_eq_true,
    bne_self_eq_false, begun]
  simp only [cmdOf, newCmd, reqPkt, h4]
  rfl

/-- What a Hiast row answers whose packet begins at once, from what its opcode's execution answers. -/
theorem row_begins {c : Stim → Req → Instr} {o : OpSpec}
    (hc : ∀ e r s, exec (c e r) s = .next (submit o r (arrived o r e s))) {e : Stim} {r : Req} {s : State} {x : Ans}
    (hb : Begins o r (arrived o r e s) = true)
    (hx : ∀ k : Cmd, k.params = r.params → k.tenant = r.tenant → k.opcode = o.opcode → k.id = (arrived o r e s).nextId →
      o.exec k (begun o r (arrived o r e s)) = x) :
    exec (c e r) s = .next (settle (arrived o r e s).nextId x) := by
  rw [hc, submit_begins hb, hx _ rfl rfl rfl rfl]

/-- A row completes when its opcode's execution ends with OK. -/
theorem completes {c : Stim → Req → Instr} {o : OpSpec} {cond : Req → State → Prop} {res : Req → State → List Word}
    {f : Req → State → State} (hc : ∀ e r s, exec (c e r) s = .next (submit o r (arrived o r e s)))
    (hx : ∀ (k : Cmd) (r : Req) (b : State), k.params = r.params → k.tenant = r.tenant → k.opcode = o.opcode →
      cond r b → o.exec k b = .done .ok (res r b) (f r b)) : Completes c o cond res f := by
  rintro e r s _ b rfl hb rfl h
  exact row_begins hc hb fun k h1 h2 h3 _ => hx k r _ h1 h2 h3 h

/-- A row completes when its opcode's execution ends with OK, the command being the last one numbered. -/
theorem completes_last {c : Stim → Req → Instr} {o : OpSpec} {cond : Req → State → Prop} {res : Req → State → List Word}
    {f : Req → State → State} (hc : ∀ e r s, exec (c e r) s = .next (submit o r (arrived o r e s)))
    (hx : ∀ (k : Cmd) (r : Req) (b : State), k.params = r.params → k.tenant = r.tenant → k.id = b.nextId - 1 →
      cond r b → o.exec k b = .done .ok (res r b) (f r b)) : Completes c o cond res f := by
  rintro e r s _ b rfl hb rfl h
  exact row_begins hc hb fun k h1 h2 _ h4 => hx k r _ h1 h2 h4 h

/-- A row fails when its opcode's execution ends with a status and no words. -/
theorem fails {c : Stim → Req → Instr} {o : OpSpec} {cond : Req → State → Prop} {st : Status}
    {f : Req → State → State} (hc : ∀ e r s, exec (c e r) s = .next (submit o r (arrived o r e s)))
    (hx : ∀ (k : Cmd) (r : Req) (b : State), k.params = r.params → k.tenant = r.tenant → k.opcode = o.opcode →
      cond r b → o.exec k b = .done st [] (f r b)) : Fails c o cond st f := by
  rintro e r s _ b rfl hb rfl h
  exact row_begins hc hb fun k h1 h2 h3 _ => hx k r _ h1 h2 h3 h

/-- A row accepts when its opcode's execution is taken for an end that comes later. -/
theorem accepts {c : Stim → Req → Instr} {o : OpSpec} {cond : Req → State → Prop} {f : Nat → Req → State → State}
    (hc : ∀ e r s, exec (c e r) s = .next (submit o r (arrived o r e s)))
    (hx : ∀ (k : Cmd) (r : Req) (b : State), k.params = r.params → k.tenant = r.tenant → k.opcode = o.opcode →
      cond r b → o.exec k b = .accept (f k.id r b)) : Accepts c o cond f := by
  rintro e r s _ b rfl hb rfl h
  exact row_begins hc hb fun k h1 h2 h3 h4 => h4 ▸ hx k r _ h1 h2 h3 h

/-- A row opens when its opcode's execution goes on without an interim reply. -/
theorem opens {c : Stim → Req → Instr} {o : OpSpec} {cond : Req → State → Prop} {f : Nat → Req → State → State}
    (hc : ∀ e r s, exec (c e r) s = .next (submit o r (arrived o r e s)))
    (hx : ∀ (k : Cmd) (r : Req) (b : State), k.params = r.params → k.tenant = r.tenant → k.opcode = o.opcode →
      cond r b → o.exec k b = .ongoing (f k.id r b)) : Opens c o cond f := by
  rintro e r s _ b rfl hb rfl h
  exact row_begins hc hb fun k h1 h2 h3 h4 => h4 ▸ hx k r _ h1 h2 h3 h

/-- A bound on what an option holds. -/
theorem any_le {o : Option Nat} {a c : Nat} {f : Nat → Nat} (h : o = some a) (hf : f a ≤ c) :
    o.any (fun a => decide (f a ≤ c)) = true := by
  rw [h, Option.any_some]
  exact decide_eq_true hf

/-- An event row whose condition holds. -/
theorem event_true {e : Stim} {s : State} {c : State → Bool} {f : State → State} (h : c (s.advance e) = true) :
    event e s c f = .next (f (s.advance e)) := by
  simp [event, h]

/-- An event row whose condition does not hold passes its time. -/
theorem event_false {e : Stim} {s : State} {c : State → Bool} {f : State → State} (h : c (s.advance e) = false) :
    event e s c f = .next (s.advance e) := by
  simp [event, h]

end Sys2Proof.Machine
end

