-- ==== Sys2Proof/Laws/Memory.lean ====
section
/-!
SUPPORT. Byte memory (log 2): a byte reads as written, other bytes as before, and every operation keeps the canonical
form.
-/

namespace Sys2Proof.Machine

/-- A number's bytes are as many as asked for. -/
@[simp] theorem bytesOf_length (k n : Nat) : (bytesOf k n).length = k := by
  induction k generalizing n <;> simp_all [bytesOf]

/-- The canonical form as a proposition. -/
theorem wf_iff (m : List Host.Cell) :
    Memory.wf m = true ↔ (m.map (·.1)).Pairwise (· < ·) ∧ ∀ c ∈ m, c.2 ≠ 0 := by
  simp [Memory.wf]

theorem wf_nil : Memory.wf [] = true := rfl

/-- The tail of a canonical memory is canonical, and lies above its head. -/
theorem wf_cons (a : Nat) (b : Byte) (m : List Host.Cell) :
    Memory.wf ((a, b) :: m) = true ↔ (∀ c ∈ m, a < c.1) ∧ b ≠ 0 ∧ Memory.wf m = true := by
  simp only [wf_iff, List.map_cons, List.pairwise_cons, List.mem_cons, List.mem_map]
  constructor
  · rintro ⟨⟨h1, h2⟩, h3⟩
    exact ⟨fun c hc => h1 c.1 ⟨c, hc, rfl⟩, h3 (a, b) (Or.inl rfl), h2, fun c hc => h3 c (Or.inr hc)⟩
  · rintro ⟨h1, h2, h3, h4⟩
    refine ⟨⟨?_, h3⟩, ?_⟩
    · rintro x ⟨c, hc, rfl⟩
      exact h1 c hc
    · rintro c (rfl | hc)
      · exact h2
      · exact h4 c hc

theorem mem_clearByte {m : List Host.Cell} {x : Nat} {c : Host.Cell} (h : c ∈ clearByte m x) : c ∈ m := by
  induction m with
  | nil => exact h
  | cons p m ih =>
    obtain ⟨a, b⟩ := p
    simp only [clearByte] at h
    split at h
    · exact List.mem_cons_of_mem _ h
    · rcases List.mem_cons.1 h with rfl | h
      · exact List.mem_cons_self
      · exact List.mem_cons_of_mem _ (ih h)

theorem mem_insertByte {m : List Host.Cell} {x : Nat} {v : Byte} {c : Host.Cell} (h : c ∈ insertByte m x v) :
    c = (x, v) ∨ c ∈ m := by
  induction m with
  | nil => exact Or.inl (List.mem_singleton.1 h)
  | cons p m ih =>
    obtain ⟨a, b⟩ := p
    simp only [insertByte] at h
    split at h
    · rcases List.mem_cons.1 h with h | h
      · exact Or.inl h
      · exact Or.inr (List.mem_cons_of_mem _ h)
    · split at h
      · rcases List.mem_cons.1 h with h | h
        · exact Or.inl h
        · exact Or.inr h
      · rcases List.mem_cons.1 h with h | h
        · exact Or.inr (h ▸ List.mem_cons_self)
        · rcases ih h with h | h
          · exact Or.inl h
          · exact Or.inr (List.mem_cons_of_mem _ h)

theorem clearByte_wf {m : List Host.Cell} (x : Nat) (h : Memory.wf m = true) : Memory.wf (clearByte m x) = true := by
  induction m with
  | nil => exact h
  | cons p m ih =>
    obtain ⟨a, b⟩ := p
    obtain ⟨h1, h2, h3⟩ := (wf_cons a b m).1 h
    simp only [clearByte]
    split
    · exact h3
    · exact (wf_cons _ _ _).2 ⟨fun c hc => h1 c (mem_clearByte hc), h2, ih h3⟩

theorem insertByte_wf {m : List Host.Cell} (x : Nat) {v : Byte} (hv : v ≠ 0) (h : Memory.wf m = true) :
    Memory.wf (insertByte m x v) = true := by
  induction m with
  | nil => exact (wf_cons _ _ _).2 ⟨fun c hc => absurd hc (List.not_mem_nil), hv, rfl⟩
  | cons p m ih =>
    obtain ⟨a, b⟩ := p
    obtain ⟨h1, h2, h3⟩ := (wf_cons a b m).1 h
    simp only [insertByte]
    split
    · next hx => exact (wf_cons _ _ _).2 ⟨fun c hc => hx ▸ h1 c hc, hv, h3⟩
    · split
      · next hlt =>
        refine (wf_cons _ _ _).2 ⟨fun c hc => ?_, hv, h⟩
        rcases List.mem_cons.1 hc with rfl | hc
        · exact hlt
        · exact Nat.lt_trans hlt (h1 c hc)
      · next hne hge =>
        refine (wf_cons _ _ _).2 ⟨fun c hc => ?_, h2, ih h3⟩
        rcases mem_insertByte hc with rfl | hc
        · exact Nat.lt_of_le_of_ne (Nat.le_of_not_lt hge) (Ne.symm hne)
        · exact h1 c hc

theorem writeByte_wf {m : List Host.Cell} (x : Nat) (v : Byte) (h : Memory.wf m = true) :
    Memory.wf (writeByte m x v) = true := by
  simp only [writeByte]
  split
  · exact clearByte_wf x h
  · next hv => exact insertByte_wf x hv h

theorem writeBytes_wf (bs : List Byte) : ∀ {m : List Host.Cell} (a : Nat), Memory.wf m = true →
    Memory.wf (writeBytes m a bs) = true := by
  induction bs with
  | nil => intro m a h; exact h
  | cons b bs ih => intro m a h; exact ih (a + 1) (writeByte_wf a b h)

/-- Memory with cells left out stays canonical. -/
theorem filter_wf {m : List Host.Cell} (p : Host.Cell → Bool) (h : Memory.wf m = true) :
    Memory.wf (m.filter p) = true := by
  rw [wf_iff] at h ⊢
  refine ⟨List.Pairwise.sublist ((List.filter_sublist (p := p)).map _) h.1, fun c hc => h.2 c (List.mem_of_mem_filter hc)⟩

/-- A byte below every cell reads as nothing written. -/
theorem readByte_below {m : List Host.Cell} {x : Nat} (h : ∀ c ∈ m, x < c.1) : readByte m x = 0 := by
  induction m with
  | nil => rfl
  | cons p m ih =>
    obtain ⟨a, b⟩ := p
    have ha : x ≠ a := Nat.ne_of_lt (h _ List.mem_cons_self)
    simp only [readByte, ha, if_false]
    exact ih fun c hc => h c (List.mem_cons_of_mem _ hc)

theorem readByte_clear_self {m : List Host.Cell} (x : Nat) (h : Memory.wf m = true) :
    readByte (clearByte m x) x = 0 := by
  induction m with
  | nil => rfl
  | cons p m ih =>
    obtain ⟨a, b⟩ := p
    obtain ⟨h1, h2, h3⟩ := (wf_cons a b m).1 h
    simp only [clearByte]
    split
    · next hx => exact readByte_below fun c hc => hx ▸ h1 c hc
    · next hx => simp only [readByte, hx, if_false]; exact ih h3

theorem readByte_clear_ne {m : List Host.Cell} {x y : Nat} (hy : y ≠ x) : readByte (clearByte m x) y = readByte m y := by
  induction m with
  | nil => rfl
  | cons p m ih =>
    obtain ⟨a, b⟩ := p
    simp only [clearByte]
    split
    · next hx => subst hx; simp [readByte, hy]
    · simp only [readByte, ih]

theorem readByte_insert (m : List Host.Cell) (x y : Nat) (v : Byte) :
    readByte (insertByte m x v) y = if y = x then v else readByte m y := by
  induction m with
  | nil => simp [insertByte, readByte]
  | cons p m ih =>
    obtain ⟨a, b⟩ := p
    simp only [insertByte]
    split
    · next hx => subst hx; by_cases h : y = x <;> simp [readByte, h]
    · split
      · simp [readByte]
      · next hx _ =>
        simp only [readByte, ih]
        by_cases h : y = x
        · subst h; simp [hx]
        · simp [h]

/-- The byte written reads as written. -/
theorem readByte_write_self {m : List Host.Cell} (x : Nat) (v : Byte) (h : Memory.wf m = true) :
    readByte (writeByte m x v) x = v := by
  simp only [writeByte]
  split
  · next hv => rw [readByte_clear_self x h, hv]
  · simp [readByte_insert]

/-- Every other byte reads as before. -/
theorem readByte_write_ne {m : List Host.Cell} {x y : Nat} (v : Byte) (hy : y ≠ x) :
    readByte (writeByte m x v) y = readByte m y := by
  simp only [writeByte]
  split
  · exact readByte_clear_ne hy
  · simp [readByte_insert, hy]

/-- A write of several bytes leaves every byte outside it. -/
theorem readByte_writeBytes_out (bs : List Byte) : ∀ (m : List Host.Cell) (a y : Nat), y < a ∨ a + bs.length ≤ y →
    readByte (writeBytes m a bs) y = readByte m y := by
  induction bs with
  | nil => intro m a y _; rfl
  | cons b bs ih =>
    intro m a y h
    simp only [writeBytes, List.length_cons] at *
    rw [ih _ _ _ (by omega), readByte_write_ne _ (by omega)]

/-- A byte of a write of several reads as written. -/
theorem readByte_writeBytes_in (bs : List Byte) : ∀ {m : List Host.Cell} (a i : Nat), Memory.wf m = true →
    i < bs.length → readByte (writeBytes m a bs) (a + i) = bs.getD i 0 := by
  induction bs with
  | nil => intro m a i _ h; exact absurd h (Nat.not_lt_zero i)
  | cons b bs ih =>
    intro m a i hm h
    simp only [writeBytes]
    cases i with
    | zero =>
      rw [readByte_writeBytes_out bs _ _ _ (by omega)]
      simpa using readByte_write_self a b hm
    | succ i =>
      have e : a + (i + 1) = (a + 1) + i := by omega
      rw [e, ih (a + 1) i (writeByte_wf a b hm) (by simpa using h)]
      simp

end Sys2Proof.Machine
end

