-- ==== Sys2Proof/Laws/Keep.lean ====
section
/-!
SUPPORT. What every operation of the module keeps (Keep): the queue of waiting commands, the module clock, the identity
fuses, and the canonical form of byte memory. One lemma per operation, in the order of the definitions; each says that
the operation keeps what has been kept since a state b0. This file: the notion itself, the shared operations and Hiast.
-/

set_option linter.unusedTactic false
set_option linter.unreachableTactic false

namespace Sys2Proof.Machine

/-- Between two states nothing has sent a command, passed time or changed the fuses, and memory is canonical if it
was. -/
structure Keep (b0 s : State) : Prop where
  pending : s.pending = b0.pending
  clk : s.clk = b0.clk
  primary : s.ident.primary = b0.ident.primary
  copy : s.ident.copy = b0.ident.copy
  mem : Memory.wf b0.mem = true → Memory.wf s.mem = true

theorem Keep.refl (s : State) : Keep s s := ⟨rfl, rfl, rfl, rfl, id⟩

theorem Keep.trans {s t u : State} (h : Keep s t) (h' : Keep t u) : Keep s u :=
  ⟨h'.pending.trans h.pending, h'.clk.trans h.clk, h'.primary.trans h.primary, h'.copy.trans h.copy,
   fun w => h'.mem (h.mem w)⟩

/-- An update of other parts. -/
theorem Keep.upd {b0 s : State}  {free : Nat} {nextId : Nat} {env : List (Probe × Int)} {rdata : List Word} {image : Image} {tim : TimSt} {isl : Tbl Island} {gates : Tbl Gate} {inflight : List Cmd} {rr : Tbl Nat} {ten : Tbl Tenant} {que : Tbl Queue} {vis : Tbl (Option Vi)} {marks : Tbl (Nat × Nat)} {led : LedgerSt} {pow : PowSt} {chan : Tbl Chan} {pur : PurseSt} {yar : YarrowSt} {flt : FaultSt} {fio : FioSt} {mea : MeaSt} {aud : AuditSt} {net : NetSt} {tsn : TsnSt} {bus : BusSt} {gwy : GwySt} {nmg : NmgSt} {cpu : CpuSt} {vlt : VaultSt} {sto : StoSt} {img : ImgSt} (h : Keep b0 s) :
    Keep b0 (State.mk s.pending s.clk free nextId env s.mem rdata s.ident image tim isl gates inflight rr ten que vis marks led pow chan pur yar flt fio mea aud net tsn bus gwy nmg cpu vlt sto img) :=
  ⟨h.pending, h.clk, h.primary, h.copy, h.mem⟩

/-- An update of the life cycle and other parts. -/
theorem Keep.updIdent {b0 s : State} {b : Bool} {l : LifeCycle} {o1 o2 : List Byte} {free : Nat} {nextId : Nat} {env : List (Probe × Int)} {rdata : List Word} {image : Image} {tim : TimSt} {isl : Tbl Island} {gates : Tbl Gate} {inflight : List Cmd} {rr : Tbl Nat} {ten : Tbl Tenant} {que : Tbl Queue} {vis : Tbl (Option Vi)} {marks : Tbl (Nat × Nat)} {led : LedgerSt} {pow : PowSt} {chan : Tbl Chan} {pur : PurseSt} {yar : YarrowSt} {flt : FaultSt} {fio : FioSt} {mea : MeaSt} {aud : AuditSt} {net : NetSt} {tsn : TsnSt} {bus : BusSt} {gwy : GwySt} {nmg : NmgSt} {cpu : CpuSt} {vlt : VaultSt} {sto : StoSt} {img : ImgSt} (h : Keep b0 s) :
    Keep b0 (State.mk s.pending s.clk free nextId env s.mem rdata ({ primary := s.ident.primary, copy := s.ident.copy, bad := b, lc := l, ownerHash := o1, ownerHash2 := o2 }) image tim isl gates inflight rr ten que vis marks led pow chan pur yar flt fio mea aud net tsn bus gwy nmg cpu vlt sto img) :=
  ⟨h.pending, h.clk, h.primary, h.copy, h.mem⟩

/-- An update of memory that keeps its form, and of other parts. -/
theorem Keep.updMem {b0 s : State} {m : List Host.Cell} {free : Nat} {nextId : Nat} {env : List (Probe × Int)} {rdata : List Word} {image : Image} {tim : TimSt} {isl : Tbl Island} {gates : Tbl Gate} {inflight : List Cmd} {rr : Tbl Nat} {ten : Tbl Tenant} {que : Tbl Queue} {vis : Tbl (Option Vi)} {marks : Tbl (Nat × Nat)} {led : LedgerSt} {pow : PowSt} {chan : Tbl Chan} {pur : PurseSt} {yar : YarrowSt} {flt : FaultSt} {fio : FioSt} {mea : MeaSt} {aud : AuditSt} {net : NetSt} {tsn : TsnSt} {bus : BusSt} {gwy : GwySt} {nmg : NmgSt} {cpu : CpuSt} {vlt : VaultSt} {sto : StoSt} {img : ImgSt} (h : Keep b0 s) (hm : Memory.wf s.mem = true → Memory.wf m = true) :
    Keep b0 (State.mk s.pending s.clk free nextId env m rdata s.ident image tim isl gates inflight rr ten que vis marks led pow chan pur yar flt fio mea aud net tsn bus gwy nmg cpu vlt sto img) :=
  ⟨h.pending, h.clk, h.primary, h.copy, fun w => hm (h.mem w)⟩

/-- A fold of an operation. -/
theorem Keep.foldl {α : Type} {b0 : State} {f : State → α → State} (l : List α) {s : State} (h : Keep b0 s)
    (hf : ∀ t a, Keep b0 t → Keep b0 (f t a)) : Keep b0 (l.foldl f s) := by
  induction l generalizing s with
  | nil => exact h
  | cons a l ih => exact ih (hf s a h)

/-- A fold that carries a value beside the state. -/
theorem Keep.foldlFst {α β : Type} {b0 : State} {f : State × β → α → State × β} (l : List α) {p : State × β}
    (h : Keep b0 p.1) (hf : ∀ q a, Keep b0 q.1 → Keep b0 (f q a).1) : Keep b0 (l.foldl f p).1 := by
  induction l generalizing p with
  | nil => exact h
  | cons a l ih => exact ih (hf p a h)

/-- A fold that carries a value before the state. -/
theorem Keep.foldlSnd {α β : Type} {b0 : State} {f : β × State → α → β × State} (l : List α) {p : β × State}
    (h : Keep b0 p.2) (hf : ∀ q a, Keep b0 q.2 → Keep b0 (f q a).2) : Keep b0 (l.foldl f p).2 := by
  induction l generalizing p with
  | nil => exact h
  | cons a l ih => exact ih (hf p a h)

/-- The state that an answer leaves. -/
def Ans.st : Ans → State
  | .done _ _ s => s
  | .accept s => s
  | .defer s => s
  | .ongoing s => s

/-- An answer whose state keeps what has been kept. -/
def KeepA (b0 : State) (x : Ans) : Prop := Keep b0 x.st

theorem KeepA.done {b0 s : State} (st : Status) (r : List Word) (h : Keep b0 s) : KeepA b0 (.done st r s) := h

theorem KeepA.accept {b0 s : State} (h : Keep b0 s) : KeepA b0 (.accept s) := h

theorem KeepA.defer {b0 s : State} (h : Keep b0 s) : KeepA b0 (.defer s) := h

theorem KeepA.ongoing {b0 s : State} (h : Keep b0 s) : KeepA b0 (.ongoing s) := h

theorem KeepA.ofDone {b0 s : State} {x : Ans} {st : Status} {r : List Word} (h : x = .done st r s) (k : KeepA b0 x) :
    Keep b0 s := by subst h; exact k

theorem KeepA.ofAccept {b0 s : State} {x : Ans} (h : x = .accept s) (k : KeepA b0 x) : Keep b0 s := by
  subst h; exact k

theorem KeepA.ofDefer {b0 s : State} {x : Ans} (h : x = .defer s) (k : KeepA b0 x) : Keep b0 s := by
  subst h; exact k

theorem KeepA.ofOngoing {b0 s : State} {x : Ans} (h : x = .ongoing s) (k : KeepA b0 x) : Keep b0 s := by
  subst h; exact k

theorem Keep.ofSnd {α : Type} {b0 s : State} {x : α × State} {a : α} (h : x = (a, s)) (k : Keep b0 x.2) :
    Keep b0 s := by subst h; exact k

theorem Keep.ofFst {α : Type} {b0 s : State} {x : State × α} {a : α} (h : x = (s, a)) (k : Keep b0 x.1) :
    Keep b0 s := by subst h; exact k

/-- An outcome that goes on keeps what has been kept. -/
def KeepO (b0 : State) (o : Host.Outcome State Fault Refusal) : Prop := ∃ t, o = .next t ∧ Keep b0 t

/-- An event row keeps what its step keeps. -/
theorem event_keep {e : Stim} {s : State} {c : State → Bool} {f : State → State}
    (hf : ∀ t, Keep (s.advance e) t → Keep (s.advance e) (f t)) : KeepO (s.advance e) (event e s c f) := by
  refine ⟨_, rfl, ?_⟩
  split
  · exact hf _ (Keep.refl _)
  · exact Keep.refl _

/-- A property of the members of two lists. -/
theorem mem_both {α : Type} {P : α → Prop} {l m : List α} (hl : ∀ z ∈ l, P z) (hm : ∀ z ∈ m, P z) : ∀ z ∈ l ++ m, P z :=
  fun z hz => (List.mem_append.1 hz).elim (hl z) (hm z)

/-! ### Ops -/

theorem State.setTenant_keep {b0 : State} (t : Nat) (x : Tenant) {s : State} (hs : Keep b0 s) :
    Keep b0 (State.setTenant s t x) := by
  unfold State.setTenant
  with_reducible
    repeat' first
      | assumption | intro _ | fail_if_no_progress apply Keep.upd | dsimp only | split

theorem State.setQueue_keep {b0 : State} (t : Nat) (q : Nat) (x : Queue) {s : State} (hs : Keep b0 s) :
    Keep b0 (State.setQueue s t q x) := by
  unfold State.setQueue
  with_reducible
    repeat' first
      | assumption | intro _ | fail_if_no_progress apply Keep.upd | dsimp only | split

theorem State.setIsland_keep {b0 : State} (n : Nat) (x : Island) {s : State} (hs : Keep b0 s) :
    Keep b0 (State.setIsland s n x) := by
  unfold State.setIsland
  with_reducible
    repeat' first
      | assumption | intro _ | fail_if_no_progress apply Keep.upd | dsimp only | split

theorem State.setVi_keep {b0 : State} (kind : Nat) (idx : Nat) (x : Option Vi) {s : State} (hs : Keep b0 s) :
    Keep b0 (State.setVi s kind idx x) := by
  unfold State.setVi
  with_reducible
    repeat' first
      | assumption | intro _ | fail_if_no_progress apply Keep.upd | dsimp only | split

theorem State.drawNat_keep {b0 : State} {s : State} (hs : Keep b0 s) : Keep b0 ((State.drawNat s).2) := by
  unfold State.drawNat
  with_reducible
    repeat' first
      | assumption | intro _ | fail_if_no_progress apply Keep.upd | dsimp only | split

theorem State.drawWord_keep {b0 : State} {s : State} (hs : Keep b0 s) : Keep b0 ((State.drawWord s).2) := by
  unfold State.drawWord
  with_reducible
    repeat' first
      | assumption | intro _ | fail_if_no_progress apply Keep.upd | dsimp only | split

theorem State.drawBytes_keep {b0 : State} (n : Nat) {s : State} (hs : Keep b0 s) :
    Keep b0 ((State.drawBytes s n).2) := by
  unfold State.drawBytes
  with_reducible
    repeat' first
      | assumption | intro _ | fail_if_no_progress apply Keep.upd | dsimp only | split

theorem State.writeMem_keep {b0 : State} (a : Nat) (bs : List Byte) {s : State} (hs : Keep b0 s) :
    Keep b0 (State.writeMem s a bs) :=
  Keep.updMem hs (writeBytes_wf bs a)

theorem State.clearMem_keep {b0 : State} (a n : Nat) {s : State} (hs : Keep b0 s) : Keep b0 (State.clearMem s a n) :=
  Keep.updMem hs (filter_wf _)

theorem appendRec_keep {b0 : State} (r : LedRec) {s : State} (hs : Keep b0 s) : Keep b0 (appendRec r s) := by
  unfold appendRec
  with_reducible
    repeat' first
      | assumption | intro _ | fail_if_no_progress apply Keep.upd | dsimp only | split

theorem logSev_keep {b0 : State} (sev : Nat) (rcode : Nat) (tenant : Nat) (d : List Word) {s : State} (hs : Keep b0 s) :
    Keep b0 (logSev sev rcode tenant d s) := by
  unfold logSev
  with_reducible
    repeat' first
      | assumption | intro _ | apply appendRec_keep | fail_if_no_progress apply Keep.upd | dsimp only | split

theorem logRec_keep {b0 : State} (rcode : Nat) (tenant : Nat) (d : List Word) {s : State} (hs : Keep b0 s) :
    Keep b0 (logRec rcode tenant d s) := by
  unfold logRec
  with_reducible
    repeat' first
      | assumption | intro _ | apply logSev_keep | fail_if_no_progress apply Keep.upd | dsimp only | split

theorem logObj_keep {b0 : State} (group : Nat) (tenant : Nat) (opcode : Nat) (a : Nat) (b : Nat) {s : State} (hs : Keep b0 s) :
    Keep b0 (logObj group tenant opcode a b s) := by
  unfold logObj
  with_reducible
    repeat' first
      | assumption | intro _ | apply logRec_keep | fail_if_no_progress apply Keep.upd | dsimp only | split

theorem logFirst_keep {b0 : State} (mark : Nat) (group : Nat) (tenant : Nat) (a : Nat) {s : State} (hs : Keep b0 s) :
    Keep b0 (logFirst mark group tenant a s) := by
  unfold logFirst
  with_reducible
    repeat' first
      | assumption | intro _ | apply logObj_keep | fail_if_no_progress apply Keep.upd | dsimp only | split

theorem State.storeSlots_keep {b0 : State} (x : Queue) (sl : List Slot) {s : State} (hs : Keep b0 s) :
    Keep b0 (State.storeSlots s x sl) := by
  unfold State.storeSlots
  with_reducible
    repeat' first
      | assumption | intro _ | apply State.writeMem_keep | fail_if_no_progress apply Keep.upd | apply Keep.foldl
      | dsimp only | split

theorem State.takeSlots_keep {b0 : State} (t : Nat) (q : Nat) (n : Nat) {s : State} (hs : Keep b0 s) :
    Keep b0 (State.takeSlots s t q n) := by
  unfold State.takeSlots
  with_reducible
    repeat' first
      | assumption | intro _ | apply State.setQueue_keep | fail_if_no_progress apply Keep.upd | dsimp only | split

theorem State.addSlots_keep {b0 : State} (t : Nat) (q : Nat) (sl : List Slot) {s : State} (hs : Keep b0 s) :
    Keep b0 (State.addSlots s t q sl) := by
  unfold State.addSlots
  with_reducible
    repeat' first
      | assumption | intro _ | apply State.setQueue_keep | apply State.storeSlots_keep
      | fail_if_no_progress apply Keep.upd | dsimp only | split

theorem deliverPart_keep {b0 : State} (p : Nat) (ident : Nat) {s : State} (hs : Keep b0 s) :
    Keep b0 (deliverPart p ident s) := by
  unfold deliverPart
  with_reducible
    repeat' first
      | assumption | intro _ | fail_if_no_progress apply Keep.upd | dsimp only | split

theorem deliver_keep {b0 : State} (t : Nat) (ident : Nat) {s : State} (hs : Keep b0 s) :
    Keep b0 (deliver t ident s) := by
  unfold deliver
  with_reducible
    repeat' first
      | assumption | intro _ | apply deliverPart_keep | fail_if_no_progress apply Keep.upd | dsimp only | split

theorem deliverFill_keep {b0 : State} (t : Nat) (q : Nat) (occ : Nat) {s : State} (hs : Keep b0 s) :
    Keep b0 (deliverFill t q occ s) := by
  unfold deliverFill
  with_reducible
    repeat' first
      | assumption | intro _ | apply deliver_keep | fail_if_no_progress apply Keep.upd | dsimp only | split

theorem noticeRaw_keep {b0 : State} (t : Nat) (ncode : Nat) (det : List Word) {s : State} (hs : Keep b0 s) :
    Keep b0 ((noticeRaw t ncode det s).1) := by
  unfold noticeRaw
  with_reducible
    repeat' first
      | assumption | intro _ | apply State.setTenant_keep | apply State.setQueue_keep | apply State.addSlots_keep
      | apply deliverFill_keep | fail_if_no_progress apply Keep.upd | dsimp only | split

theorem noticeOnly_keep {b0 : State} (t : Nat) (ncode : Nat) (det : List Word) {s : State} (hs : Keep b0 s) :
    Keep b0 (noticeOnly t ncode det s) := by
  unfold noticeOnly
  with_reducible
    repeat' first
      | assumption | intro _ | apply noticeRaw_keep | fail_if_no_progress apply Keep.upd | dsimp only | split

theorem notice_keep {b0 : State} (t : Nat) (ncode : Nat) (det : List Word) {s : State} (hs : Keep b0 s) :
    Keep b0 (notice t ncode det s) := by
  unfold notice
  with_reducible
    repeat' first
      | assumption | intro _ | apply logRec_keep | apply noticeOnly_keep | fail_if_no_progress apply Keep.upd
      | dsimp only | split

theorem noticeAll_keep {b0 : State} (ts : List Nat) (ncode : Nat) (det : List Word) {s : State} (hs : Keep b0 s) :
    Keep b0 (noticeAll ts ncode det s) := by
  unfold noticeAll
  with_reducible
    repeat' first
      | assumption | intro _ | apply notice_keep | fail_if_no_progress apply Keep.upd | apply Keep.foldl | dsimp only
      | split

theorem noticeAllOnly_keep {b0 : State} (ts : List Nat) (ncode : Nat) (det : List Word) {s : State} (hs : Keep b0 s) :
    Keep b0 (noticeAllOnly ts ncode det s) := by
  unfold noticeAllOnly
  with_reducible
    repeat' first
      | assumption | intro _ | apply noticeOnly_keep | fail_if_no_progress apply Keep.upd | apply Keep.foldl
      | dsimp only | split

theorem logNotice_keep {b0 : State} (ts : List Nat) (tenant : Nat) (ncode : Nat) (det : List Word) {s : State} (hs : Keep b0 s) :
    Keep b0 (logNotice ts tenant ncode det s) := by
  unfold logNotice
  with_reducible
    repeat' first
      | assumption | intro _ | apply logRec_keep | apply noticeAllOnly_keep | fail_if_no_progress apply Keep.upd
      | dsimp only | split

theorem postItem_keep {b0 : State} (t : Nat) (q : Nat) (sl : List Slot) {s : State} (hs : Keep b0 s) :
    Keep b0 (postItem t q sl s) := by
  unfold postItem
  with_reducible
    repeat' first
      | assumption | intro _ | apply State.addSlots_keep | apply deliverFill_keep | apply notice_keep
      | fail_if_no_progress apply Keep.upd | dsimp only | split

theorem dropCmd_keep {b0 : State} (id : Nat) {s : State} (hs : Keep b0 s) : Keep b0 (dropCmd id s) := by
  unfold dropCmd
  with_reducible
    repeat' first
      | assumption | intro _ | fail_if_no_progress apply Keep.upd | dsimp only | split

theorem postReply_keep {b0 : State} (t : Nat) (r : ReplyInfo) (final : Option Nat) {s : State} (hs : Keep b0 s) :
    Keep b0 (postReply t r final s) := by
  unfold postReply
  with_reducible
    repeat' first
      | assumption | intro _ | apply State.setQueue_keep | apply postItem_keep | apply dropCmd_keep
      | fail_if_no_progress apply Keep.upd | dsimp only | split

theorem setCmd_keep {b0 : State} (c : Cmd) {s : State} (hs : Keep b0 s) : Keep b0 (setCmd c s) := by
  unfold setCmd
  with_reducible
    repeat' first
      | assumption | intro _ | fail_if_no_progress apply Keep.upd | dsimp only | split

theorem countReset_keep {b0 : State} (t : Nat) (st : Status) {s : State} (hs : Keep b0 s) :
    Keep b0 (countReset t st s) := by
  unfold countReset
  with_reducible
    repeat' first
      | assumption | intro _ | apply State.setTenant_keep | fail_if_no_progress apply Keep.upd | dsimp only | split

theorem chainEnd_keep {b0 : State} (t : Nat) (q : Nat) (id : Nat) (st : Status) {s : State} (hs : Keep b0 s) :
    Keep b0 (chainEnd t q id st s) := by
  unfold chainEnd
  with_reducible
    repeat' first
      | assumption | intro _ | apply State.setQueue_keep | fail_if_no_progress apply Keep.upd | dsimp only | split

theorem finishCmd_keep {b0 : State} (id : Nat) (st : Status) (res : List Word) {s : State} (hs : Keep b0 s) :
    Keep b0 (finishCmd id st res s) := by
  unfold finishCmd
  with_reducible
    repeat' first
      | assumption | intro _ | apply dropCmd_keep | apply postReply_keep | apply countReset_keep | apply chainEnd_keep
      | fail_if_no_progress apply Keep.upd | dsimp only | split

theorem finishAll_keep {b0 : State} (ids : List Nat) (st : Status) {s : State} (hs : Keep b0 s) :
    Keep b0 (finishAll ids st s) := by
  unfold finishAll
  with_reducible
    repeat' first
      | assumption | intro _ | apply finishCmd_keep | fail_if_no_progress apply Keep.upd | apply Keep.foldl
      | dsimp only | split

theorem interim_keep {b0 : State} (id : Nat) (st : Status) {s : State} (hs : Keep b0 s) :
    Keep b0 (interim id st s) := by
  unfold interim
  with_reducible
    repeat' first
      | assumption | intro _ | apply postReply_keep | apply setCmd_keep | fail_if_no_progress apply Keep.upd
      | dsimp only | split

theorem forget_keep {b0 : State} (id : Nat) {s : State} (hs : Keep b0 s) : Keep b0 (forget id s) := by
  unfold forget
  with_reducible
    repeat' first
      | assumption | intro _ | fail_if_no_progress apply Keep.upd | dsimp only | split

/-! ### Swb -/

theorem State.setSp_keep {b0 : State} (p : Nat) (x : SwPort) {s : State} (hs : Keep b0 s) :
    Keep b0 (State.setSp s p x) := by
  unfold State.setSp
  with_reducible
    repeat' first
      | assumption | intro _ | fail_if_no_progress apply Keep.upd | dsimp only | split

theorem countPort_keep {b0 : State} (p : Nat) (j : Nat) (n : Nat) {s : State} (hs : Keep b0 s) :
    Keep b0 (countPort p j n s) := by
  unfold countPort
  with_reducible
    repeat' first
      | assumption | intro _ | apply State.setSp_keep | fail_if_no_progress apply Keep.upd | dsimp only | split

theorem setStored_keep {b0 : State} (f : Stored) {s : State} (hs : Keep b0 s) : Keep b0 (setStored f s) := by
  unfold setStored
  with_reducible
    repeat' first
      | assumption | intro _ | fail_if_no_progress apply Keep.upd | dsimp only | split

theorem releaseCopy_keep {b0 : State} (id : Nat) {s : State} (hs : Keep b0 s) : Keep b0 (releaseCopy id s) := by
  unfold releaseCopy
  with_reducible
    repeat' first
      | assumption | intro _ | fail_if_no_progress apply Keep.upd | dsimp only | split

theorem dropCopy_keep {b0 : State} (p : Nat) (j : Nat) (id : Nat) {s : State} (hs : Keep b0 s) :
    Keep b0 (dropCopy p j id s) := by
  unfold dropCopy
  with_reducible
    repeat' first
      | assumption | intro _ | apply countPort_keep | apply releaseCopy_keep | fail_if_no_progress apply Keep.upd
      | dsimp only | split

theorem removeSent_keep {b0 : State} (vnic : Nat) {s : State} (hs : Keep b0 s) : Keep b0 ((removeSent vnic s).1) := by
  unfold removeSent
  with_reducible
    repeat' first
      | assumption | intro _
      | (extract_lets +onlyGivenNames x; first
        | (refine (fun hx : Keep b0 x => ?_) ?_; (on_goal 1 => clear_value x); on_goal 2 => (show Keep b0 _; subst x))
        | (refine (fun hx : Keep b0 x.2 => ?_) ?_; (on_goal 1 => clear_value x); on_goal 2 => (show Keep b0 (Prod.snd _); subst x))
        | (refine (fun hx : Keep b0 x.1 => ?_) ?_; (on_goal 1 => clear_value x); on_goal 2 => (show Keep b0 (Prod.fst _); subst x))
        | (refine (fun hx : KeepA b0 x => ?_) ?_; (on_goal 1 => clear_value x); on_goal 2 => (show KeepA b0 _; subst x))
        | (refine (fun hx : ∀ a, Keep b0 (x a) => ?_) ?_; (on_goal 1 => clear_value x); on_goal 2 => (subst x; intro _; dsimp -zeta only))
        | (refine (fun hx : ∀ t, Keep b0 t → Keep b0 (x t) => ?_) ?_; (on_goal 1 => clear_value x); on_goal 2 => (subst x; intro _ _; dsimp -zeta only))
        | (refine (fun hx : ∀ a t, Keep b0 t → Keep b0 (x a t) => ?_) ?_; (on_goal 1 => clear_value x); on_goal 2 => (subst x; intro _ _ _; dsimp -zeta only))
        | (refine (fun hx : ∀ a b t, Keep b0 t → Keep b0 (x a b t) => ?_) ?_; (on_goal 1 => clear_value x); on_goal 2 => (subst x; intro _ _ _ _; dsimp -zeta only))
        | clear_value x)
      | apply State.setSp_keep | apply setStored_keep | apply dropCopy_keep | fail_if_no_progress apply Keep.upd
      | apply Keep.foldl | apply Keep.foldlFst | apply Keep.foldlSnd | dsimp -zeta only | split
      | refine KeepA.ofDone (by assumption) ?_ | refine KeepA.ofAccept (by assumption) ?_
      | refine KeepA.ofDefer (by assumption) ?_ | refine KeepA.ofOngoing (by assumption) ?_
      | refine Keep.ofSnd (by assumption) ?_ | refine Keep.ofFst (by assumption) ?_ | dsimp only | simp only [id_eq]

theorem State.setCan_keep {b0 : State} (n : Nat) (x : CanCtl) {s : State} (hs : Keep b0 s) :
    Keep b0 (State.setCan s n x) := by
  unfold State.setCan
  with_reducible
    repeat' first
      | assumption | intro _ | fail_if_no_progress apply Keep.upd | dsimp only | split

theorem State.setAcf_keep {b0 : State} (c : Nat) (x : AcfCtx) {s : State} (hs : Keep b0 s) :
    Keep b0 (State.setAcf s c x) := by
  unfold State.setAcf
  with_reducible
    repeat' first
      | assumption | intro _ | fail_if_no_progress apply Keep.upd | dsimp only | split

theorem removeVep_keep {b0 : State} (e : Nat) {s : State} (hs : Keep b0 s) : Keep b0 ((removeVep e s).1) := by
  unfold removeVep
  with_reducible
    repeat' first
      | assumption | intro _
      | (extract_lets +onlyGivenNames x; first
        | (refine (fun hx : Keep b0 x => ?_) ?_; (on_goal 1 => clear_value x); on_goal 2 => (show Keep b0 _; subst x))
        | (refine (fun hx : Keep b0 x.2 => ?_) ?_; (on_goal 1 => clear_value x); on_goal 2 => (show Keep b0 (Prod.snd _); subst x))
        | (refine (fun hx : Keep b0 x.1 => ?_) ?_; (on_goal 1 => clear_value x); on_goal 2 => (show Keep b0 (Prod.fst _); subst x))
        | (refine (fun hx : KeepA b0 x => ?_) ?_; (on_goal 1 => clear_value x); on_goal 2 => (show KeepA b0 _; subst x))
        | (refine (fun hx : ∀ a, Keep b0 (x a) => ?_) ?_; (on_goal 1 => clear_value x); on_goal 2 => (subst x; intro _; dsimp -zeta only))
        | (refine (fun hx : ∀ t, Keep b0 t → Keep b0 (x t) => ?_) ?_; (on_goal 1 => clear_value x); on_goal 2 => (subst x; intro _ _; dsimp -zeta only))
        | (refine (fun hx : ∀ a t, Keep b0 t → Keep b0 (x a t) => ?_) ?_; (on_goal 1 => clear_value x); on_goal 2 => (subst x; intro _ _ _; dsimp -zeta only))
        | (refine (fun hx : ∀ a b t, Keep b0 t → Keep b0 (x a b t) => ?_) ?_; (on_goal 1 => clear_value x); on_goal 2 => (subst x; intro _ _ _ _; dsimp -zeta only))
        | clear_value x)
      | apply State.setCan_keep | apply State.setAcf_keep | fail_if_no_progress apply Keep.upd | apply Keep.foldl
      | apply Keep.foldlFst | apply Keep.foldlSnd | dsimp -zeta only | split | refine KeepA.ofDone (by assumption) ?_
      | refine KeepA.ofAccept (by assumption) ?_ | refine KeepA.ofDefer (by assumption) ?_
      | refine KeepA.ofOngoing (by assumption) ?_ | refine Keep.ofSnd (by assumption) ?_
      | refine Keep.ofFst (by assumption) ?_ | dsimp only | simp only [id_eq]

theorem writeCtl_keep {b0 : State} (kind : Nat) (v : Vi) {s : State} (hs : Keep b0 s) :
    Keep b0 (writeCtl kind v s) := by
  unfold writeCtl
  with_reducible
    repeat' first
      | assumption | intro _ | apply State.writeMem_keep | fail_if_no_progress apply Keep.upd | dsimp only | split

theorem complete_keep {b0 : State} (kind : Nat) (idx : Nat) (bs : List Byte) {s : State} (hs : Keep b0 s) :
    Keep b0 (complete kind idx bs s) := by
  unfold complete
  with_reducible
    repeat' first
      | assumption | intro _ | apply State.setVi_keep | apply State.writeMem_keep | apply deliver_keep
      | apply writeCtl_keep | fail_if_no_progress apply Keep.upd | dsimp only | split

theorem State.setSqc_keep {b0 : State} (kind : Nat) (idx : Nat) (n : Nat) {s : State} (hs : Keep b0 s) :
    Keep b0 (State.setSqc s kind idx n) := by
  unfold State.setSqc
  with_reducible
    repeat' first
      | assumption | intro _ | apply State.setVi_keep | fail_if_no_progress apply Keep.upd | dsimp only | split

theorem giveFrame_keep {b0 : State} (kind : Nat) (idx : Nat) (v : Vi) (d : Fetched) (w : Inbound) {s : State} (hs : Keep b0 s) :
    Keep b0 (giveFrame kind idx v d w s) := by
  unfold giveFrame
  with_reducible
    repeat' first
      | assumption | intro _ | apply State.setVi_keep | fail_if_no_progress apply Keep.upd | dsimp only | split

theorem viResetBegin_keep {b0 : State} (key : Nat) (cmd : Option Nat) {s : State} (hs : Keep b0 s) :
    Keep b0 (viResetBegin key cmd s) := by
  unfold viResetBegin
  with_reducible
    repeat' first
      | assumption | intro _ | apply finishAll_keep | apply removeSent_keep | apply removeVep_keep
      | fail_if_no_progress apply Keep.upd | dsimp only | split

theorem State.setPart_keep {b0 : State} (p : Nat) (x : Part) {s : State} (hs : Keep b0 s) :
    Keep b0 (State.setPart s p x) := by
  unfold State.setPart
  with_reducible
    repeat' first
      | assumption | intro _ | fail_if_no_progress apply Keep.upd | dsimp only | split

theorem vaultLog_keep {b0 : State} (owner : Nat) (addr : Nat) (len : Nat) {s : State} (hs : Keep b0 s) :
    Keep b0 (vaultLog owner addr len s) := by
  unfold vaultLog
  with_reducible
    repeat' first
      | assumption | intro _ | apply logFirst_keep | fail_if_no_progress apply Keep.upd | dsimp only | split

/-! ### Fabric -/

theorem writeSlot_keep {b0 : State} (t : Nat) (i : Nat) {s : State} (hs : Keep b0 s) : Keep b0 (writeSlot t s i) := by
  unfold writeSlot
  with_reducible
    repeat' first
      | assumption | intro _ | apply countPort_keep | apply setStored_keep | fail_if_no_progress apply Keep.upd
      | dsimp only | split

theorem readSlot_keep {b0 : State} (t : Nat) (e : Nat) {s : State} (hs : Keep b0 s) : Keep b0 (readSlot t s e) := by
  unfold readSlot
  with_reducible
    repeat' first
      | assumption | intro _ | apply State.setSp_keep | fail_if_no_progress apply Keep.upd | dsimp only | split

theorem fabricSlots_keep {b0 : State} (x0 : Nat) (x1 : Nat) {x2 : State} (hx2 : Keep b0 x2) :
    Keep b0 (fabricSlots x0 x1 x2) := by
  induction x0 generalizing x2 x1 with
  | zero =>
    unfold fabricSlots
    with_reducible
      repeat' first
        | assumption | intro _ | apply writeSlot_keep | apply readSlot_keep | fail_if_no_progress apply Keep.upd
        | apply Keep.foldl | dsimp only | split
  | succ n ih =>
    unfold fabricSlots
    with_reducible
      repeat' first
        | assumption | intro _ | apply ih | apply writeSlot_keep | apply readSlot_keep
        | fail_if_no_progress apply Keep.upd | apply Keep.foldl | dsimp only | split

theorem fabricRun_keep {b0 : State} (clk : Nat) {s : State} (hs : Keep b0 s) : Keep b0 (fabricRun clk s) := by
  unfold fabricRun
  with_reducible
    repeat' first
      | assumption | intro _ | apply fabricSlots_keep | fail_if_no_progress apply Keep.upd | dsimp only | split

/-! ### Chan -/

theorem State.setChn_keep {b0 : State} (ch : Nat) (c : Chan) {s : State} (hs : Keep b0 s) :
    Keep b0 (State.setChn s ch c) := by
  unfold State.setChn
  with_reducible
    repeat' first
      | assumption | intro _ | fail_if_no_progress apply Keep.upd | dsimp only | split

theorem State.setPdie_keep {b0 : State} (d : Nat) (x : Die) {s : State} (hs : Keep b0 s) :
    Keep b0 (State.setPdie s d x) := by
  unfold State.setPdie
  with_reducible
    repeat' first
      | assumption | intro _ | fail_if_no_progress apply Keep.upd | dsimp only | split

theorem State.foldTheta_keep {b0 : State} (ch : Nat) (n : Nat) {s : State} (hs : Keep b0 s) :
    Keep b0 (State.foldTheta s ch n) := by
  unfold State.foldTheta
  with_reducible
    repeat' first
      | assumption | intro _ | apply State.setChn_keep | fail_if_no_progress apply Keep.upd | dsimp only | split

theorem State.thetaNow_keep {b0 : State} (ch : Nat) {s : State} (hs : Keep b0 s) : Keep b0 (State.thetaNow s ch) := by
  unfold State.thetaNow
  with_reducible
    repeat' first
      | assumption | intro _ | apply State.foldTheta_keep | fail_if_no_progress apply Keep.upd | dsimp only | split

theorem State.thetaBefore_keep {b0 : State} (ch : Nat) {s : State} (hs : Keep b0 s) :
    Keep b0 (State.thetaBefore s ch) := by
  unfold State.thetaBefore
  with_reducible
    repeat' first
      | assumption | intro _ | apply State.foldTheta_keep | fail_if_no_progress apply Keep.upd | dsimp only | split

theorem withDiag_keep {b0 : State} (ch : Nat) (f : State → State) {s : State} (hs : Keep b0 s) (hff : ∀ s, Keep b0 s → Keep b0 (f s)) :
    Keep b0 (withDiag ch f s) := by
  unfold withDiag
  with_reducible
    repeat' first
      | assumption | intro _ | apply hff | apply noticeAll_keep | fail_if_no_progress apply Keep.upd | dsimp only
      | split

theorem State.setFout_keep {b0 : State} (i : Nat) (x : FieldOut) {s : State} (hs : Keep b0 s) :
    Keep b0 (State.setFout s i x) := by
  unfold State.setFout
  with_reducible
    repeat' first
      | assumption | intro _ | fail_if_no_progress apply Keep.upd | dsimp only | split

theorem endCmd_keep {b0 : State} (id : Nat) (st : Status) {s : State} (hs : Keep b0 s) :
    Keep b0 (endCmd id st s) := by
  unfold endCmd
  with_reducible
    repeat' first
      | assumption | intro _ | apply finishCmd_keep | fail_if_no_progress apply Keep.upd | dsimp only | split

theorem endOpt_keep {b0 : State} (id : Option Nat) (st : Status) {s : State} (hs : Keep b0 s) :
    Keep b0 (endOpt id st s) := by
  unfold endOpt
  with_reducible
    repeat' first
      | assumption | intro _ | apply endCmd_keep | fail_if_no_progress apply Keep.upd | dsimp only | split

theorem resumeCmd_keep {b0 : State} (id : Option Nat) {s : State} (hs : Keep b0 s) : Keep b0 (resumeCmd id s) := by
  unfold resumeCmd
  with_reducible
    repeat' first
      | assumption | intro _ | apply setCmd_keep | fail_if_no_progress apply Keep.upd | dsimp only | split

theorem deferCmd_keep {b0 : State} (id : Nat) {s : State} (hs : Keep b0 s) : Keep b0 (deferCmd id s) := by
  unfold deferCmd
  with_reducible
    repeat' first
      | assumption | intro _ | apply finishCmd_keep | apply interim_keep | apply forget_keep
      | fail_if_no_progress apply Keep.upd | dsimp only | split

/-! ### Advance -/

theorem markDue_keep {b0 : State} (step : Bool) (delta : Nat) {s : State} (hs : Keep b0 s) :
    Keep b0 (markDue step delta s) := by
  unfold markDue
  with_reducible
    repeat' first
      | assumption | intro _ | fail_if_no_progress apply Keep.upd | dsimp only | split

theorem tallyRun_keep {b0 : State} (dt : Nat) {s : State} (hs : Keep b0 s) : Keep b0 (tallyRun dt s) := by
  unfold tallyRun
  with_reducible
    repeat' first
      | assumption | intro _ | apply markDue_keep | fail_if_no_progress apply Keep.upd | dsimp only | split

theorem showSample_keep {b0 : State} (x : Probe × Int) {s : State} (hs : Keep b0 s) : Keep b0 (showSample s x) := by
  unfold showSample
  with_reducible
    repeat' first
      | assumption | intro _ | apply State.thetaBefore_keep | fail_if_no_progress apply Keep.upd | dsimp only | split

theorem feedRun_keep {b0 : State} (dt : Nat) {s : State} (hs : Keep b0 s) : Keep b0 (feedRun dt s) := by
  unfold feedRun
  with_reducible
    repeat' first
      | assumption | intro _ | fail_if_no_progress apply Keep.upd | dsimp only | split

theorem meterRun_keep {b0 : State} (dt : Nat) {s : State} (hs : Keep b0 s) : Keep b0 (meterRun dt s) := by
  unfold meterRun
  with_reducible
    repeat' first
      | assumption | intro _ | fail_if_no_progress apply Keep.upd | dsimp only | split

theorem trialRun_keep {b0 : State} (dt : Nat) {s : State} (hs : Keep b0 s) : Keep b0 (trialRun dt s) := by
  unfold trialRun
  with_reducible
    repeat' first
      | assumption | intro _ | fail_if_no_progress apply Keep.upd | dsimp only | split

theorem parkNote_keep {b0 : State} {s : State} (hs : Keep b0 s) : Keep b0 (parkNote s) := by
  unfold parkNote
  with_reducible
    repeat' first
      | assumption | intro _ | fail_if_no_progress apply Keep.upd | dsimp only | split

/-! ### ImgBase -/

theorem State.setIcomp_keep {b0 : State} (c : Nat) (x : ImgComp) {s : State} (hs : Keep b0 s) :
    Keep b0 (State.setIcomp s c x) := by
  unfold State.setIcomp
  with_reducible
    repeat' first
      | assumption | intro _ | fail_if_no_progress apply Keep.upd | dsimp only | split

theorem State.setXfr_keep {b0 : State} (x : Nat) (v : Option ImgXfer) {s : State} (hs : Keep b0 s) :
    Keep b0 (State.setXfr s x v) := by
  unfold State.setXfr
  with_reducible
    repeat' first
      | assumption | intro _ | fail_if_no_progress apply Keep.upd | dsimp only | split

theorem abandonXfr_keep {b0 : State} (n : Nat) (st : Status) {s : State} (hs : Keep b0 s) :
    Keep b0 (abandonXfr n st s) := by
  unfold abandonXfr
  with_reducible
    repeat' first
      | assumption | intro _ | apply notice_keep | apply finishAll_keep | apply State.setIcomp_keep
      | apply State.setXfr_keep | fail_if_no_progress apply Keep.upd | dsimp only | split

theorem dropXfers_keep {b0 : State} (t : Nat) {s : State} (hs : Keep b0 s) : Keep b0 (dropXfers t s) := by
  unfold dropXfers
  with_reducible
    repeat' first
      | assumption | intro _ | apply abandonXfr_keep | fail_if_no_progress apply Keep.upd | apply Keep.foldl
      | dsimp only | split

theorem State.setGrp_keep {b0 : State} (g : Nat) (x : Option StoGroup) {s : State} (hs : Keep b0 s) :
    Keep b0 (State.setGrp s g x) := by
  unfold State.setGrp
  with_reducible
    repeat' first
      | assumption | intro _ | fail_if_no_progress apply Keep.upd | dsimp only | split

theorem State.setSto_keep {b0 : State} (x : StoSt) {s : State} (hs : Keep b0 s) : Keep b0 (State.setSto s x) := by
  unfold State.setSto
  with_reducible
    repeat' first
      | assumption | intro _ | fail_if_no_progress apply Keep.upd | dsimp only | split

theorem dropGroups_keep {b0 : State} (t : Nat) {s : State} (hs : Keep b0 s) : Keep b0 (dropGroups t s) := by
  unfold dropGroups
  with_reducible
    repeat' first
      | assumption | intro _ | apply State.setSto_keep | fail_if_no_progress apply Keep.upd | apply Keep.foldl
      | dsimp only | split

/-! ### Hiast -/

theorem Ans.okay_keep {b0 : State} {s : State} (hs : Keep b0 s) : KeepA b0 (Ans.okay s) := by
  unfold Ans.okay
  with_reducible
    repeat' first
      | assumption | intro _ | fail_if_no_progress apply Keep.upd | apply KeepA.done | apply KeepA.accept
      | apply KeepA.defer | apply KeepA.ongoing | dsimp only | split

theorem Ans.fail_keep {b0 : State} (st : Status) {s : State} (hs : Keep b0 s) : KeepA b0 (Ans.fail st s) := by
  unfold Ans.fail
  with_reducible
    repeat' first
      | assumption | intro _ | fail_if_no_progress apply Keep.upd | apply KeepA.done | apply KeepA.accept
      | apply KeepA.defer | apply KeepA.ongoing | dsimp only | split

theorem settle_keep {b0 : State} (id : Nat) (x0 : Ans) (hx0 : KeepA b0 x0) : Keep b0 (settle id x0) := by
  cases x0 with
  | done st r s => exact finishCmd_keep id st r hx0
  | accept s => exact interim_keep id .accepted hx0
  | defer s => exact deferCmd_keep id hx0
  | ongoing s => exact hx0

theorem begin_keep {b0 : State} (o : OpSpec) (c : Cmd) {s : State} (hs : Keep b0 s) (hfo : ∀ c s, Keep b0 s → KeepA b0 (o.exec c s)) :
    Keep b0 (begin o c s) := by
  unfold begin
  with_reducible
    repeat' first
      | assumption | intro _ | apply hfo | apply setCmd_keep | apply endCmd_keep | apply settle_keep
      | fail_if_no_progress apply Keep.upd | dsimp only | split

theorem chainOpen_keep {b0 : State} (t : Nat) (q : Option Nat) (chained : Bool) (id : Nat) {s : State} (hs : Keep b0 s) :
    Keep b0 ((chainOpen t q chained id s).1) := by
  unfold chainOpen
  with_reducible
    repeat' first
      | assumption | intro _ | apply State.setQueue_keep | fail_if_no_progress apply Keep.upd | dsimp only | split

theorem enterCmd_keep {b0 : State} (c : Cmd) {s : State} (hs : Keep b0 s) : Keep b0 (enterCmd c s) := by
  unfold enterCmd
  with_reducible
    repeat' first
      | assumption | intro _ | fail_if_no_progress apply Keep.upd | dsimp only | split

theorem waitOrBegin_keep {b0 : State} (o : OpSpec) (c : Cmd) {s : State} (hs : Keep b0 s) (hfo : ∀ c s, Keep b0 s → KeepA b0 (o.exec c s)) :
    Keep b0 (waitOrBegin o c s) := by
  unfold waitOrBegin
  with_reducible
    repeat' first
      | assumption | intro _ | apply hfo | apply setCmd_keep | apply begin_keep | fail_if_no_progress apply Keep.upd
      | dsimp only | split

theorem refuse_keep {b0 : State} (t : Nat) (p : Pkt) (id : Nat) (st : Status) {s : State} (hs : Keep b0 s) :
    Keep b0 (refuse t p id st s) := by
  unfold refuse
  with_reducible
    repeat' first
      | assumption | intro _ | apply logObj_keep | apply finishCmd_keep | fail_if_no_progress apply Keep.upd
      | dsimp only | split

theorem launch_keep {b0 : State} (o : Option OpSpec) (t : Nat) (p : Pkt) (q : Option Nat) {s : State} (hs : Keep b0 s) (hfo : ∀ z, o = some z → ∀ c s, Keep b0 s → KeepA b0 (z.exec c s)) :
    Keep b0 (launch o t p q s) := by
  unfold launch
  with_reducible
    repeat' first
      | assumption | intro _ | apply hfo | apply finishCmd_keep | apply chainOpen_keep | apply enterCmd_keep
      | apply waitOrBegin_keep | apply refuse_keep | fail_if_no_progress apply Keep.upd | dsimp only | split

theorem submit_keep {b0 : State} (o : OpSpec) (r : Req) {s : State} (hs : Keep b0 s)
    (hfo : ∀ c s, Keep b0 s → KeepA b0 (o.exec c s)) : Keep b0 (submit o r s) := by
  unfold submit
  dsimp only
  split
  · exact hs
  · split
    · exact State.setTenant_keep _ _ hs
    · exact launch_keep _ _ _ _ hs fun z hz => Option.some.inj hz ▸ hfo

/-- A Hiast row keeps what its command keeps. -/
theorem submit_row {e : Stim} {s : State} {o : OpSpec} {r : Req}
    (hf : ∀ c s', Keep (s.advance e) s' → KeepA (s.advance e) (o.exec c s')) :
    KeepO (s.advance e) (.next (submit o r (s.advance e))) :=
  ⟨_, rfl, submit_keep o r (Keep.refl _) hf⟩

end Sys2Proof.Machine
end

