-- ==== Sys2Proof/Laws/KeepField.lean ====
section
/-!
SUPPORT. Keep for the Purse and the field side: power channels, pursuit, field I/O, measurement, Yarrow, gating.
-/

set_option linter.unusedTactic false
set_option linter.unreachableTactic false

namespace Sys2Proof.Machine

/-! ### Purse -/

theorem phaseOffsets_keep {b0 : State} (freq : Nat) (ref : Nat) (x0 : Nat) (x1 : List Nat) {x2 : State} (hx2 : Keep b0 x2) :
    Keep b0 (phaseOffsets freq ref x0 x1 x2) := by
  induction x1 generalizing x2 x0 with
  | nil =>
    unfold phaseOffsets
    with_reducible
      repeat' first
        | assumption | intro _ | apply State.setChn_keep | fail_if_no_progress apply Keep.upd | dsimp only | split
  | cons a l ih =>
    unfold phaseOffsets
    with_reducible
      repeat' first
        | assumption | intro _ | apply ih | apply State.setChn_keep | fail_if_no_progress apply Keep.upd | dsimp only
        | split

theorem rephase_keep {b0 : State} (ch : Nat) {s : State} (hs : Keep b0 s) : Keep b0 (rephase ch s) := by
  unfold rephase
  with_reducible
    repeat' first
      | assumption | intro _ | apply phaseOffsets_keep | fail_if_no_progress apply Keep.upd | dsimp only | split

theorem release_keep {b0 : State} (ch : Nat) {s : State} (hs : Keep b0 s) : Keep b0 (release ch s) := by
  unfold release
  with_reducible
    repeat' first
      | assumption | intro _ | apply State.setChn_keep | fail_if_no_progress apply Keep.upd | dsimp only | split

theorem bookOn_keep {b0 : State} (ch : Nat) {s : State} (hs : Keep b0 s) : Keep b0 (bookOn ch s) := by
  unfold bookOn
  with_reducible
    repeat' first
      | assumption | intro _ | apply State.setChn_keep | fail_if_no_progress apply Keep.upd | dsimp only | split

theorem reblock_keep {b0 : State} {s : State} (hs : Keep b0 s) : Keep b0 (reblock s) := by
  unfold reblock
  with_reducible
    repeat' first
      | assumption | intro _ | fail_if_no_progress apply Keep.upd | dsimp only | split

theorem unqueue_keep {b0 : State} (ch : Nat) {s : State} (hs : Keep b0 s) : Keep b0 (unqueue ch s) := by
  unfold unqueue
  with_reducible
    repeat' first
      | assumption | intro _ | apply reblock_keep | fail_if_no_progress apply Keep.upd | dsimp only | split

theorem withdraw_keep {b0 : State} (ch : Nat) (st : Status) {s : State} (hs : Keep b0 s) :
    Keep b0 (withdraw ch st s) := by
  unfold withdraw
  with_reducible
    repeat' first
      | assumption | intro _ | apply State.setChn_keep | apply endOpt_keep | apply unqueue_keep
      | fail_if_no_progress apply Keep.upd | dsimp only | split

theorem dropPend_keep {b0 : State} (ch : Nat) (st : Status) {s : State} (hs : Keep b0 s) :
    Keep b0 (dropPend ch st s) := by
  unfold dropPend
  with_reducible
    repeat' first
      | assumption | intro _ | apply State.setChn_keep | apply endOpt_keep | fail_if_no_progress apply Keep.upd
      | dsimp only | split

theorem dropSecond_keep {b0 : State} (ch : Nat) (st : Status) {s : State} (hs : Keep b0 s) :
    Keep b0 (dropSecond ch st s) := by
  unfold dropSecond
  with_reducible
    repeat' first
      | assumption | intro _ | apply State.setChn_keep | apply endOpt_keep | fail_if_no_progress apply Keep.upd
      | dsimp only | split

theorem dropOn_keep {b0 : State} (ch : Nat) (st : Status) (f : State → State) {s : State} (hs : Keep b0 s) (hff : ∀ s, Keep b0 s → Keep b0 (f s)) :
    Keep b0 (dropOn ch st f s) := by
  unfold dropOn
  with_reducible
    repeat' first
      | assumption | intro _ | apply hff | apply State.setChn_keep | apply endOpt_keep | apply dropPend_keep
      | apply dropSecond_keep | fail_if_no_progress apply Keep.upd | dsimp only | split

theorem admitReq_keep {b0 : State} (r : PReq) {s0 : State} (hs0 : Keep b0 s0) : Keep b0 (admitReq r s0) := by
  unfold admitReq
  with_reducible
    repeat' first
      | assumption | intro _ | apply State.setChn_keep | apply endOpt_keep | apply resumeCmd_keep | apply rephase_keep
      | fail_if_no_progress apply Keep.upd | dsimp only | split

theorem queueReq_keep {b0 : State} (r : PReq) {s : State} (hs : Keep b0 s) : Keep b0 (queueReq r s) := by
  unfold queueReq
  with_reducible
    repeat' first
      | assumption | intro _ | fail_if_no_progress apply Keep.upd | dsimp only | split

theorem ask_keep {b0 : State} (r : PReq) {s : State} (hs : Keep b0 s) : Keep b0 ((ask r s).2) := by
  unfold ask
  with_reducible
    repeat' first
      | assumption | intro _ | apply endOpt_keep | apply refuse_keep | apply unqueue_keep | apply admitReq_keep
      | apply queueReq_keep | fail_if_no_progress apply Keep.upd | dsimp only | split

theorem slewStart_keep {b0 : State} (ch : Nat) (duty : Nat) (action : Nat) {s : State} (hs : Keep b0 s) :
    Keep b0 (slewStart ch duty action s) := by
  unfold slewStart
  with_reducible
    repeat' first
      | assumption | intro _ | apply State.setChn_keep | apply rephase_keep | fail_if_no_progress apply Keep.upd
      | dsimp only | split

theorem latchFault_keep {b0 : State} (bitNo : Nat) {s : State} (hs : Keep b0 s) : Keep b0 (latchFault bitNo s) := by
  unfold latchFault
  with_reducible
    repeat' first
      | assumption | intro _ | fail_if_no_progress apply Keep.upd | dsimp only | split

theorem clearAfter_keep {b0 : State} (ch : Nat) {s : State} (hs : Keep b0 s) : Keep b0 (clearAfter ch s) := by
  unfold clearAfter
  with_reducible
    repeat' first
      | assumption | intro _ | apply State.setChn_keep | fail_if_no_progress apply Keep.upd | dsimp only | split

theorem tripSet_keep {b0 : State} (next : ChState) (causes : Nat) (trips : Nat) (ch : Nat) {s : State} (hs : Keep b0 s) :
    Keep b0 (tripSet next causes trips ch s) := by
  unfold tripSet
  with_reducible
    repeat' first
      | assumption | intro _ | apply State.setChn_keep | apply rephase_keep | apply withdraw_keep
      | fail_if_no_progress apply Keep.upd | dsimp only | split

theorem tripPost_keep {b0 : State} (limp : Bool) (causes : Nat) (ch : Nat) (det : List Word) {s : State} (hs : Keep b0 s) :
    Keep b0 (tripPost limp causes ch det s) := by
  unfold tripPost
  with_reducible
    repeat' first
      | assumption | intro _ | apply logRec_keep | apply noticeAll_keep | apply noticeAllOnly_keep
      | fail_if_no_progress apply Keep.upd | dsimp only | split

theorem autoOn_keep {b0 : State} (kind : ReqKind) (ch : Nat) {s : State} (hs : Keep b0 s) :
    Keep b0 (autoOn kind ch s) := by
  unfold autoOn
  with_reducible
    repeat' first
      | assumption | intro _ | apply State.setChn_keep | apply ask_keep | fail_if_no_progress apply Keep.upd
      | dsimp only | split

theorem limpWant_keep {b0 : State} (ch : Nat) {s : State} (hs : Keep b0 s) : Keep b0 (limpWant ch s) := by
  unfold limpWant
  with_reducible
    repeat' first
      | assumption | intro _ | apply State.setChn_keep | apply autoOn_keep | fail_if_no_progress apply Keep.upd
      | dsimp only | split

theorem limpPump_keep {b0 : State} (d : Nat) {s : State} (hs : Keep b0 s) : Keep b0 (limpPump d s) := by
  unfold limpPump
  with_reducible
    repeat' first
      | assumption | intro _ | apply limpWant_keep | fail_if_no_progress apply Keep.upd | apply Keep.foldl
      | dsimp only | split

theorem trip_keep {b0 : State} (cause : Nat) (ch : Nat) {s : State} (hs : Keep b0 s) : Keep b0 (trip cause ch s) := by
  unfold trip
  with_reducible
    repeat' first
      | assumption | intro _ | apply dropOn_keep | apply clearAfter_keep | apply tripSet_keep | apply tripPost_keep
      | apply limpPump_keep | fail_if_no_progress apply Keep.upd | dsimp only | split

theorem goneOff_keep {b0 : State} (ch : Nat) {s : State} (hs : Keep b0 s) : Keep b0 (goneOff ch s) := by
  unfold goneOff
  with_reducible
    repeat' first
      | assumption | intro _ | apply State.setChn_keep | apply rephase_keep | fail_if_no_progress apply Keep.upd
      | dsimp only | split

theorem evalList_keep {b0 : State} (x0 : List PReq) (x1 : List (Nat × Nat)) {x2 : State} (hx2 : Keep b0 x2) :
    Keep b0 (evalList x0 x1 x2) := by
  induction x0 generalizing x2 x1 with
  | nil =>
    unfold evalList
    with_reducible
      repeat' first
        | assumption | intro _ | apply refuse_keep | apply unqueue_keep | apply withdraw_keep | apply admitReq_keep
        | fail_if_no_progress apply Keep.upd | dsimp only | split
  | cons a l ih =>
    unfold evalList
    with_reducible
      repeat' first
        | assumption | intro _ | apply ih | apply refuse_keep | apply unqueue_keep | apply withdraw_keep
        | apply admitReq_keep | fail_if_no_progress apply Keep.upd | dsimp only | split

theorem askSecond_keep {b0 : State} (ch : Nat) {s : State} (hs : Keep b0 s) : Keep b0 (askSecond ch s) := by
  unfold askSecond
  with_reducible
    repeat' first
      | assumption | intro _
      | (extract_lets +onlyGivenNames x; first
        | (refine (fun hx : Keep b0 x => ?_) ?_; (on_goal 1 => clear_value x); on_goal 2 => (show Keep b0 _; subst x))
        | (refine (fun hx : Keep b0 x.2 => ?_) ?_; (on_goal 1 => clear_value x); on_goal 2 => (show Keep b0 (Prod.snd _); subst x))
        | (refine (fun hx : Keep b0 x.1 => ?_) ?_; (on_goal 1 => clear_value x); on_goal 2 => (show Keep b0 (Prod.fst _); subst x))
        | (refine (fun hx : KeepA b0 x => ?_) ?_; (on_goal 1 => clear_value x); on_goal 2 => (show KeepA b0 _; subst x))
        | (refine (fun hx : ∀ a, Keep b0 (x a) => ?_) ?_; (on_goal 1 => clear_value x); on_goal 2 => (subst x; intro _; dsimp -zeta only))
        | (refine (fun hx : ∀ t, Keep b0 t → Keep b0 (x t) => ?_) ?_; (on_goal 1 => clear_value x); on_goal 2 => (subst x; intro _ _; dsimp -zeta only))
        | (refine (fun hx : ∀ a t, Keep b0 t → Keep b0 (x a t) => ?_) ?_; (on_goal 1 => clear_value x); on_goal 2 => (subst x; intro _ _ _; dsimp -zeta only))
        | (refine (fun hx : ∀ a b t, Keep b0 t → Keep b0 (x a b t) => ?_) ?_; (on_goal 1 => clear_value x); on_goal 2 => (subst x; intro _ _ _ _; dsimp -zeta only))
        | clear_value x)
      | apply State.setChn_keep | apply endOpt_keep | apply deferCmd_keep | apply dropSecond_keep | apply ask_keep
      | fail_if_no_progress apply Keep.upd | dsimp -zeta only | split | refine KeepA.ofDone (by assumption) ?_
      | refine KeepA.ofAccept (by assumption) ?_ | refine KeepA.ofDefer (by assumption) ?_
      | refine KeepA.ofOngoing (by assumption) ?_ | refine Keep.ofSnd (by assumption) ?_
      | refine Keep.ofFst (by assumption) ?_ | dsimp only | simp only [id_eq]

theorem askSeconds_keep {b0 : State} {s : State} (hs : Keep b0 s) : Keep b0 (askSeconds s) := by
  unfold askSeconds
  with_reducible
    repeat' first
      | assumption | intro _ | apply askSecond_keep | fail_if_no_progress apply Keep.upd | apply Keep.foldl
      | dsimp only | split

theorem purseEval_keep {b0 : State} {s0 : State} (hs0 : Keep b0 s0) : Keep b0 (purseEval s0) := by
  unfold purseEval
  with_reducible
    repeat' first
      | assumption | intro _ | apply evalList_keep | apply askSeconds_keep | fail_if_no_progress apply Keep.upd
      | dsimp only | split

/-! ### Pwr -/

theorem closeDuty_keep {b0 : State} (ch : Nat) {s : State} (hs : Keep b0 s) : Keep b0 (closeDuty ch s) := by
  unfold closeDuty
  with_reducible
    repeat' first
      | assumption | intro _ | apply withdraw_keep | fail_if_no_progress apply Keep.upd | dsimp only | split

theorem storeBlock_keep {b0 : State} (ch : Nat) (ps : List Word) {s : State} (hs : Keep b0 s) :
    Keep b0 (storeBlock ch ps s) := by
  unfold storeBlock
  with_reducible
    repeat' first
      | assumption | intro _ | apply State.setChn_keep | apply State.thetaNow_keep | apply withDiag_keep
      | apply closeDuty_keep | fail_if_no_progress apply Keep.upd | dsimp only | split

theorem pwrConfigExec_keep {b0 : State} (c : Cmd) {s : State} (hs : Keep b0 s) : KeepA b0 (pwrConfigExec c s) := by
  unfold pwrConfigExec
  with_reducible
    repeat' first
      | assumption | intro _ | apply Ans.okay_keep | apply Ans.fail_keep | apply storeBlock_keep
      | fail_if_no_progress apply Keep.upd | apply KeepA.done | apply KeepA.accept | apply KeepA.defer
      | apply KeepA.ongoing | dsimp only | split

theorem pwrConfigSpec_keep {b0 : State} (c : Cmd) {s : State} (hs : Keep b0 s) :
    KeepA b0 (pwrConfigSpec.exec c s) := by
  unfold pwrConfigSpec
  with_reducible
    repeat' first
      | assumption | intro _ | apply pwrConfigExec_keep | fail_if_no_progress apply Keep.upd | apply KeepA.done
      | apply KeepA.accept | apply KeepA.defer | apply KeepA.ongoing | dsimp only | split

theorem pwrReadConfigSpec_keep {b0 : State} (c : Cmd) {s : State} (hs : Keep b0 s) :
    KeepA b0 (pwrReadConfigSpec.exec c s) := by
  unfold pwrReadConfigSpec
  with_reducible
    repeat' first
      | assumption | intro _ | apply Ans.fail_keep | fail_if_no_progress apply Keep.upd | apply KeepA.done
      | apply KeepA.accept | apply KeepA.defer | apply KeepA.ongoing | dsimp only | split

theorem pwrAssignSpec_keep {b0 : State} (c : Cmd) {s : State} (hs : Keep b0 s) :
    KeepA b0 (pwrAssignSpec.exec c s) := by
  unfold pwrAssignSpec
  with_reducible
    repeat' first
      | assumption | intro _ | apply State.setChn_keep | apply Ans.okay_keep | apply Ans.fail_keep
      | fail_if_no_progress apply Keep.upd | apply KeepA.done | apply KeepA.accept | apply KeepA.defer
      | apply KeepA.ongoing | dsimp only | split

theorem pwrStatusSpec_keep {b0 : State} (c : Cmd) {s : State} (hs : Keep b0 s) :
    KeepA b0 (pwrStatusSpec.exec c s) := by
  unfold pwrStatusSpec
  with_reducible
    repeat' first
      | assumption | intro _ | apply Ans.fail_keep | fail_if_no_progress apply Keep.upd | apply KeepA.done
      | apply KeepA.accept | apply KeepA.defer | apply KeepA.ongoing | dsimp only | split

theorem askFor_keep {b0 : State} (r : PReq) {s : State} (hs : Keep b0 s) : Keep b0 ((askFor r s).2) := by
  unfold askFor
  with_reducible
    repeat' first
      | assumption | intro _
      | (extract_lets +onlyGivenNames x; first
        | (refine (fun hx : Keep b0 x => ?_) ?_; (on_goal 1 => clear_value x); on_goal 2 => (show Keep b0 _; subst x))
        | (refine (fun hx : Keep b0 x.2 => ?_) ?_; (on_goal 1 => clear_value x); on_goal 2 => (show Keep b0 (Prod.snd _); subst x))
        | (refine (fun hx : Keep b0 x.1 => ?_) ?_; (on_goal 1 => clear_value x); on_goal 2 => (show Keep b0 (Prod.fst _); subst x))
        | (refine (fun hx : KeepA b0 x => ?_) ?_; (on_goal 1 => clear_value x); on_goal 2 => (show KeepA b0 _; subst x))
        | (refine (fun hx : ∀ a, Keep b0 (x a) => ?_) ?_; (on_goal 1 => clear_value x); on_goal 2 => (subst x; intro _; dsimp -zeta only))
        | (refine (fun hx : ∀ t, Keep b0 t → Keep b0 (x t) => ?_) ?_; (on_goal 1 => clear_value x); on_goal 2 => (subst x; intro _ _; dsimp -zeta only))
        | (refine (fun hx : ∀ a t, Keep b0 t → Keep b0 (x a t) => ?_) ?_; (on_goal 1 => clear_value x); on_goal 2 => (subst x; intro _ _ _; dsimp -zeta only))
        | (refine (fun hx : ∀ a b t, Keep b0 t → Keep b0 (x a b t) => ?_) ?_; (on_goal 1 => clear_value x); on_goal 2 => (subst x; intro _ _ _ _; dsimp -zeta only))
        | clear_value x)
      | apply ask_keep | fail_if_no_progress apply Keep.upd | dsimp -zeta only | split
      | refine KeepA.ofDone (by assumption) ?_ | refine KeepA.ofAccept (by assumption) ?_
      | refine KeepA.ofDefer (by assumption) ?_ | refine KeepA.ofOngoing (by assumption) ?_
      | refine Keep.ofSnd (by assumption) ?_ | refine Keep.ofFst (by assumption) ?_ | dsimp only | simp only [id_eq]

theorem beginOff_keep {b0 : State} (ch : Nat) {s : State} (hs : Keep b0 s) : Keep b0 (beginOff ch s) := by
  unfold beginOff
  with_reducible
    repeat' first
      | assumption | intro _ | apply State.setChn_keep | apply rephase_keep | fail_if_no_progress apply Keep.upd
      | dsimp only | split

theorem switchOff_keep {b0 : State} (ch : Nat) {s : State} (hs : Keep b0 s) : Keep b0 ((switchOff ch s).2) := by
  unfold switchOff
  with_reducible
    repeat' first
      | assumption | intro _ | apply State.setChn_keep | apply withdraw_keep | apply dropPend_keep
      | apply dropSecond_keep | apply beginOff_keep | fail_if_no_progress apply Keep.upd | dsimp only | split

theorem changeDuty_keep {b0 : State} (ch : Nat) (duty : Nat) (cmd : Option Nat) (trig : Option Nat) {s : State} (hs : Keep b0 s) :
    Keep b0 ((changeDuty ch duty cmd trig s).2) := by
  unfold changeDuty
  with_reducible
    repeat' first
      | assumption | intro _ | apply State.setChn_keep | apply rephase_keep | apply withdraw_keep | apply askFor_keep
      | fail_if_no_progress apply Keep.upd | dsimp only | split

theorem askOn_keep {b0 : State} (r : PReq) {s0 s : State} (hs0 : Keep b0 s0) (hs : Keep b0 s) :
    Keep b0 ((askOn r s0 s).2) := by
  unfold askOn
  with_reducible
    repeat' first
      | assumption | intro _ | apply closeDuty_keep | apply askFor_keep | fail_if_no_progress apply Keep.upd
      | dsimp only | split

theorem switchOn_keep {b0 : State} (ch : Nat) (action : Nat) (duty : Nat) (cmd : Option Nat) (trig : Option Nat) {s : State} (hs : Keep b0 s) :
    Keep b0 ((switchOn ch action duty cmd trig s).2) := by
  unfold switchOn
  with_reducible
    repeat' first
      | assumption | intro _ | apply State.setChn_keep | apply withdraw_keep | apply dropPend_keep
      | apply dropSecond_keep | apply askFor_keep | apply beginOff_keep | apply changeDuty_keep | apply askOn_keep
      | fail_if_no_progress apply Keep.upd | dsimp only | split

theorem switchCh_keep {b0 : State} (ch : Nat) (action : Nat) (duty : Nat) (cmd : Option Nat) (trig : Option Nat) {s : State} (hs : Keep b0 s) :
    Keep b0 ((switchCh ch action duty cmd trig s).2) := by
  unfold switchCh
  with_reducible
    repeat' first
      | assumption | intro _ | apply switchOff_keep | apply switchOn_keep | fail_if_no_progress apply Keep.upd
      | dsimp only | split

theorem switchAns_keep {b0 : State} (t : Nat) (ch : Nat) (x : Switched × State) {s : State} (hs : Keep b0 s) (hx : Keep b0 x.2) :
    KeepA b0 (switchAns t ch s x) := by
  unfold switchAns
  with_reducible
    repeat' first
      | assumption | intro _ | fail_if_no_progress apply Keep.upd | apply KeepA.done | apply KeepA.accept
      | apply KeepA.defer | apply KeepA.ongoing | dsimp only | split

theorem pwrSwitchSpec_keep {b0 : State} (c : Cmd) {s : State} (hs : Keep b0 s) :
    KeepA b0 (pwrSwitchSpec.exec c s) := by
  unfold pwrSwitchSpec
  with_reducible
    repeat' first
      | assumption | intro _ | apply switchCh_keep | apply switchAns_keep | fail_if_no_progress apply Keep.upd
      | apply KeepA.done | apply KeepA.accept | apply KeepA.defer | apply KeepA.ongoing | dsimp only | split

theorem pwrDutySpec_keep {b0 : State} (c : Cmd) {s : State} (hs : Keep b0 s) : KeepA b0 (pwrDutySpec.exec c s) := by
  unfold pwrDutySpec
  with_reducible
    repeat' first
      | assumption | intro _ | apply changeDuty_keep | apply switchAns_keep | fail_if_no_progress apply Keep.upd
      | apply KeepA.done | apply KeepA.accept | apply KeepA.defer | apply KeepA.ongoing | dsimp only | split

theorem clearCh_keep {b0 : State} (ch : Nat) {s : State} (hs : Keep b0 s) : Keep b0 ((clearCh ch s).2) := by
  unfold clearCh
  with_reducible
    repeat' first
      | assumption | intro _ | apply State.setChn_keep | apply withdraw_keep | apply dropPend_keep
      | apply closeDuty_keep | fail_if_no_progress apply Keep.upd | dsimp only | split

theorem pwrClearSpec_keep {b0 : State} (c : Cmd) {s : State} (hs : Keep b0 s) : KeepA b0 (pwrClearSpec.exec c s) := by
  unfold pwrClearSpec
  with_reducible
    repeat' first
      | assumption | intro _ | apply clearCh_keep | fail_if_no_progress apply Keep.upd | apply KeepA.done
      | apply KeepA.accept | apply KeepA.defer | apply KeepA.ongoing | dsimp only | split


theorem slewStartStep_keep {b0 : State} (ch : Nat) {s : State} (hs : Keep b0 s) : Keep b0 (slewStartStep ch s) := by
  unfold slewStartStep
  with_reducible
    repeat' first
      | assumption | intro _ | apply noticeAll_keep | apply State.setChn_keep | apply endOpt_keep
      | apply slewStart_keep | fail_if_no_progress apply Keep.upd | dsimp only | split

theorem execSlewStart_keep (e : Stim) (ch : Nat) (s : State) : KeepO (s.advance e) (execSlewStart e ch s) := by
  unfold execSlewStart
  apply event_keep
  generalize s.advance e = b0
  intro t ht
  with_reducible
    repeat' first
      | assumption | intro _ | apply slewStartStep_keep | fail_if_no_progress apply Keep.upd | dsimp only | split

theorem execTurnOnSlewEnd_keep (e : Stim) (ch : Nat) (s : State) :
    KeepO (s.advance e) (execTurnOnSlewEnd e ch s) := by
  unfold execTurnOnSlewEnd
  apply event_keep
  generalize s.advance e = b0
  intro t ht
  with_reducible
    repeat' first
      | assumption | intro _ | apply State.setChn_keep | fail_if_no_progress apply Keep.upd | dsimp only | split

theorem execTurnOffSlewEnd_keep (e : Stim) (ch : Nat) (s : State) :
    KeepO (s.advance e) (execTurnOffSlewEnd e ch s) := by
  unfold execTurnOffSlewEnd
  apply event_keep
  generalize s.advance e = b0
  intro t ht
  with_reducible
    repeat' first
      | assumption | intro _ | apply clearAfter_keep | apply limpPump_keep | apply goneOff_keep
      | fail_if_no_progress apply Keep.upd | dsimp only | split

theorem execInrushWindowEnd_keep (e : Stim) (ch : Nat) (s : State) :
    KeepO (s.advance e) (execInrushWindowEnd e ch s) := by
  unfold execInrushWindowEnd
  apply event_keep
  generalize s.advance e = b0
  intro t ht
  with_reducible
    repeat' first
      | assumption | intro _ | apply State.setChn_keep | apply limpPump_keep | fail_if_no_progress apply Keep.upd
      | dsimp only | split

theorem execOvercurrentTrip_keep (e : Stim) (ch : Nat) (s : State) :
    KeepO (s.advance e) (execOvercurrentTrip e ch s) := by
  unfold execOvercurrentTrip
  apply event_keep
  generalize s.advance e = b0
  intro t ht
  with_reducible
    repeat' first
      | assumption | intro _ | apply trip_keep | fail_if_no_progress apply Keep.upd | dsimp only | split

theorem execShortCircuitTrip_keep (e : Stim) (ch : Nat) (s : State) :
    KeepO (s.advance e) (execShortCircuitTrip e ch s) := by
  unfold execShortCircuitTrip
  apply event_keep
  generalize s.advance e = b0
  intro t ht
  with_reducible
    repeat' first
      | assumption | intro _ | apply trip_keep | fail_if_no_progress apply Keep.upd | dsimp only | split

theorem withDiags_keep {b0 : State} (m : Nat) (ch : Nat) (f : State → State) {x0 : State} (hx0 : Keep b0 x0) (hff : ∀ s, Keep b0 s → Keep b0 (f s)) :
    Keep b0 (withDiags m ch f x0) := by
  unfold withDiags
  with_reducible
    repeat' first
      | assumption | intro _ | apply hff | apply withDiag_keep | fail_if_no_progress apply Keep.upd | dsimp only
      | split

theorem thermalSet_keep {b0 : State} (ch : Nat) (low : Bool) {s : State} (hs : Keep b0 s) :
    Keep b0 (thermalSet ch low s) := by
  unfold thermalSet
  with_reducible
    repeat' first
      | assumption | intro _ | apply State.setChn_keep | apply withdraw_keep | apply dropPend_keep
      | apply dropSecond_keep | apply limpPump_keep | apply trip_keep | apply withDiags_keep
      | fail_if_no_progress apply Keep.upd | dsimp only | split

theorem execThermalLatchSet_keep (e : Stim) (sw : SwitchRef) (s : State) :
    KeepO (s.advance e) (execThermalLatchSet e sw s) := by
  unfold execThermalLatchSet
  apply event_keep
  generalize s.advance e = b0
  intro t ht
  with_reducible
    repeat' first
      | assumption | intro _ | apply thermalSet_keep | fail_if_no_progress apply Keep.upd | dsimp only | split

theorem feedReturnOne_keep {b0 : State} (ch : Nat) {s : State} (hs : Keep b0 s) : Keep b0 (feedReturnOne ch s) := by
  unfold feedReturnOne
  with_reducible
    repeat' first
      | assumption | intro _ | apply State.setChn_keep | apply autoOn_keep | fail_if_no_progress apply Keep.upd
      | dsimp only | split

theorem thermalRelease_keep {b0 : State} (ch : Nat) (low : Bool) {s : State} (hs : Keep b0 s) :
    Keep b0 (thermalRelease ch low s) := by
  unfold thermalRelease
  with_reducible
    repeat' first
      | assumption | intro _ | apply State.setChn_keep | apply limpPump_keep | apply withDiags_keep
      | apply feedReturnOne_keep | fail_if_no_progress apply Keep.upd | dsimp only | split

theorem execThermalLatchRelease_keep (e : Stim) (sw : SwitchRef) (s : State) :
    KeepO (s.advance e) (execThermalLatchRelease e sw s) := by
  unfold execThermalLatchRelease
  apply event_keep
  generalize s.advance e = b0
  intro t ht
  with_reducible
    repeat' first
      | assumption | intro _ | apply thermalRelease_keep | fail_if_no_progress apply Keep.upd | dsimp only | split

theorem execWireTrip_keep (e : Stim) (ch : Nat) (s : State) : KeepO (s.advance e) (execWireTrip e ch s) := by
  unfold execWireTrip
  apply event_keep
  generalize s.advance e = b0
  intro t ht
  with_reducible
    repeat' first
      | assumption | intro _ | apply State.setChn_keep | apply State.thetaNow_keep | apply trip_keep
      | fail_if_no_progress apply Keep.upd | dsimp only | split

theorem execWireLatchRelease_keep (e : Stim) (ch : Nat) (s : State) :
    KeepO (s.advance e) (execWireLatchRelease e ch s) := by
  unfold execWireLatchRelease
  apply event_keep
  generalize s.advance e = b0
  intro t ht
  with_reducible
    repeat' first
      | assumption | intro _ | apply State.setChn_keep | apply State.thetaNow_keep
      | fail_if_no_progress apply Keep.upd | dsimp only | split

theorem execReverseCurrent_keep (e : Stim) (ch : Nat) (present : Bool) (s : State) :
    KeepO (s.advance e) (execReverseCurrent e ch present s) := by
  unfold execReverseCurrent
  apply event_keep
  generalize s.advance e = b0
  intro t ht
  with_reducible
    repeat' first
      | assumption | intro _ | apply State.setChn_keep | apply withDiag_keep | apply trip_keep
      | fail_if_no_progress apply Keep.upd | dsimp only | split

theorem execDriverFault_keep (e : Stim) (ch : Nat) (s : State) : KeepO (s.advance e) (execDriverFault e ch s) := by
  unfold execDriverFault
  apply event_keep
  generalize s.advance e = b0
  intro t ht
  with_reducible
    repeat' first
      | assumption | intro _ | apply latchFault_keep | apply trip_keep | fail_if_no_progress apply Keep.upd
      | dsimp only | split

theorem execBlockCheck_keep (e : Stim) (ch : Nat) (wire : Bool) (found : List Word) (s : State) :
    KeepO (s.advance e) (execBlockCheck e ch wire found s) := by
  unfold execBlockCheck
  apply event_keep
  generalize s.advance e = b0
  intro t ht
  with_reducible
    repeat' first
      | assumption | intro _ | apply State.setChn_keep | apply trip_keep | fail_if_no_progress apply Keep.upd
      | dsimp only | split

theorem execRetryDue_keep (e : Stim) (ch : Nat) (s : State) : KeepO (s.advance e) (execRetryDue e ch s) := by
  unfold execRetryDue
  apply event_keep
  generalize s.advance e = b0
  intro t ht
  with_reducible
    repeat' first
      | assumption | intro _ | apply autoOn_keep | fail_if_no_progress apply Keep.upd | dsimp only | split

theorem execOnStableReload_keep (e : Stim) (ch : Nat) (s : State) :
    KeepO (s.advance e) (execOnStableReload e ch s) := by
  unfold execOnStableReload
  apply event_keep
  generalize s.advance e = b0
  intro t ht
  with_reducible
    repeat' first
      | assumption | intro _ | apply State.setChn_keep | fail_if_no_progress apply Keep.upd | dsimp only | split

theorem execOpenLoadCount_keep (e : Stim) (ch : Nat) (below : Bool) (s : State) :
    KeepO (s.advance e) (execOpenLoadCount e ch below s) := by
  unfold execOpenLoadCount
  apply event_keep
  generalize s.advance e = b0
  intro t ht
  with_reducible
    repeat' first
      | assumption | intro _ | apply State.setChn_keep | apply withDiag_keep | fail_if_no_progress apply Keep.upd
      | dsimp only | split

theorem execOffStateCycle_keep (e : Stim) (ch : Nat) (aboveIpu : Bool) (aboveNone : Bool) (s : State) :
    KeepO (s.advance e) (execOffStateCycle e ch aboveIpu aboveNone s) := by
  unfold execOffStateCycle
  apply event_keep
  generalize s.advance e = b0
  intro t ht
  with_reducible
    repeat' first
      | assumption | intro _ | apply State.setChn_keep | apply withDiag_keep | fail_if_no_progress apply Keep.upd
      | dsimp only | split

theorem pwmBoundary_keep {b0 : State} (ch : Nat) {s : State} (hs : Keep b0 s) : Keep b0 (pwmBoundary ch s) := by
  unfold pwmBoundary
  with_reducible
    repeat' first
      | assumption | intro _ | apply State.setChn_keep | fail_if_no_progress apply Keep.upd | dsimp only | split

theorem execPwmPeriodBoundary_keep (e : Stim) (ch : Nat) (s : State) :
    KeepO (s.advance e) (execPwmPeriodBoundary e ch s) := by
  unfold execPwmPeriodBoundary
  apply event_keep
  generalize s.advance e = b0
  intro t ht
  with_reducible
    repeat' first
      | assumption | intro _ | apply pwmBoundary_keep | fail_if_no_progress apply Keep.upd | dsimp only | split

theorem setFlost_keep {b0 : State} (d : Nat) (b : Bool) {s : State} (hs : Keep b0 s) : Keep b0 (setFlost d b s) := by
  unfold setFlost
  with_reducible
    repeat' first
      | assumption | intro _ | apply noticeAll_keep | fail_if_no_progress apply Keep.upd | dsimp only | split

theorem requeueOn_keep {b0 : State} (ch : Nat) {s : State} (hs : Keep b0 s) : Keep b0 (requeueOn ch s) := by
  unfold requeueOn
  with_reducible
    repeat' first
      | assumption | intro _ | apply State.setChn_keep | apply deferCmd_keep | apply queueReq_keep
      | fail_if_no_progress apply Keep.upd | dsimp only | split

theorem feedLossOne_keep {b0 : State} (ch : Nat) {s0 : State} (hs0 : Keep b0 s0) : Keep b0 (feedLossOne ch s0) := by
  unfold feedLossOne
  with_reducible
    repeat' first
      | assumption | intro _ | apply State.setChn_keep | apply rephase_keep | apply dropOn_keep | apply requeueOn_keep
      | fail_if_no_progress apply Keep.upd | dsimp only | split

theorem diagDie_keep {b0 : State} (d : Nat) {s : State} (hs : Keep b0 s) : Keep b0 (diagDie d s) := by
  unfold diagDie
  with_reducible
    repeat' first
      | assumption | intro _ | apply noticeAll_keep | fail_if_no_progress apply Keep.upd | apply Keep.foldl
      | dsimp only | split

theorem execFeedLoss_keep (e : Stim) (die : Nat) (s : State) : KeepO (s.advance e) (execFeedLoss e die s) := by
  unfold execFeedLoss
  apply event_keep
  generalize s.advance e = b0
  intro t ht
  with_reducible
    repeat' first
      | assumption | intro _ | apply State.setPdie_keep | apply limpPump_keep | apply setFlost_keep
      | apply feedLossOne_keep | apply diagDie_keep | fail_if_no_progress apply Keep.upd | apply Keep.foldl
      | dsimp only | split

theorem execFeedReturn_keep (e : Stim) (die : Nat) (s : State) : KeepO (s.advance e) (execFeedReturn e die s) := by
  unfold execFeedReturn
  apply event_keep
  generalize s.advance e = b0
  intro t ht
  with_reducible
    repeat' first
      | assumption | intro _ | apply State.setPdie_keep | apply feedReturnOne_keep | apply setFlost_keep
      | apply diagDie_keep | fail_if_no_progress apply Keep.upd | apply Keep.foldl | dsimp only | split

/-! ### Pur -/

theorem storeWire_keep {b0 : State} (ch : Nat) (ps : List Word) {s : State} (hs : Keep b0 s) :
    Keep b0 (storeWire ch ps s) := by
  unfold storeWire
  with_reducible
    repeat' first
      | assumption | intro _ | apply State.setChn_keep | apply State.thetaNow_keep
      | fail_if_no_progress apply Keep.upd | dsimp only | split

theorem purWireSpec_keep {b0 : State} (c : Cmd) {s : State} (hs : Keep b0 s) : KeepA b0 (purWireSpec.exec c s) := by
  unfold purWireSpec
  with_reducible
    repeat' first
      | assumption | intro _ | apply Ans.okay_keep | apply Ans.fail_keep | apply storeWire_keep
      | fail_if_no_progress apply Keep.upd | apply KeepA.done | apply KeepA.accept | apply KeepA.defer
      | apply KeepA.ongoing | dsimp only | split

theorem purReadWireSpec_keep {b0 : State} (c : Cmd) {s : State} (hs : Keep b0 s) :
    KeepA b0 (purReadWireSpec.exec c s) := by
  unfold purReadWireSpec
  with_reducible
    repeat' first
      | assumption | intro _ | apply Ans.fail_keep | fail_if_no_progress apply Keep.upd | apply KeepA.done
      | apply KeepA.accept | apply KeepA.defer | apply KeepA.ongoing | dsimp only | split

theorem purStatusSpec_keep {b0 : State} (c : Cmd) {s : State} (hs : Keep b0 s) :
    KeepA b0 (purStatusSpec.exec c s) := by
  unfold purStatusSpec
  with_reducible
    repeat' first
      | assumption | intro _ | fail_if_no_progress apply Keep.upd | apply KeepA.done | apply KeepA.accept
      | apply KeepA.defer | apply KeepA.ongoing | dsimp only | split

theorem execPurStatus_keep (e : Stim) (r : Req) (s : State) : KeepO (s.advance e) (execPurStatus e r s) := 
  submit_row fun c _ hs => purStatusSpec_keep c hs

theorem purChannelSpec_keep {b0 : State} (c : Cmd) {s : State} (hs : Keep b0 s) :
    KeepA b0 (purChannelSpec.exec c s) := by
  unfold purChannelSpec
  with_reducible
    repeat' first
      | assumption | intro _ | apply State.thetaNow_keep | apply Ans.fail_keep | fail_if_no_progress apply Keep.upd
      | apply KeepA.done | apply KeepA.accept | apply KeepA.defer | apply KeepA.ongoing | dsimp only | split

theorem purLimitsSpec_keep {b0 : State} (c : Cmd) {s : State} (hs : Keep b0 s) :
    KeepA b0 (purLimitsSpec.exec c s) := by
  unfold purLimitsSpec
  with_reducible
    repeat' first
      | assumption | intro _ | apply Ans.okay_keep | fail_if_no_progress apply Keep.upd | apply KeepA.done
      | apply KeepA.accept | apply KeepA.defer | apply KeepA.ongoing | dsimp only | split

theorem execPurLimits_keep (e : Stim) (r : Req) (s : State) : KeepO (s.advance e) (execPurLimits e r s) := 
  submit_row fun c _ hs => purLimitsSpec_keep c hs

theorem execPurseEvaluation_keep (e : Stim) (s : State) : KeepO (s.advance e) (execPurseEvaluation e s) := by
  unfold execPurseEvaluation
  have hs := Keep.refl (s.advance e)
  revert hs
  generalize s.advance e = b0
  intro hs
  refine ⟨_, rfl, ?_⟩
  with_reducible
    repeat' first
      | assumption | intro _ | apply purseEval_keep | fail_if_no_progress apply Keep.upd | dsimp only | split

theorem execFeedBlocked_keep (e : Stim) (die : Nat) (s : State) : KeepO (s.advance e) (execFeedBlocked e die s) := by
  unfold execFeedBlocked
  apply event_keep
  generalize s.advance e = b0
  intro t ht
  with_reducible
    repeat' first
      | assumption | intro _ | fail_if_no_progress apply Keep.upd | dsimp only | split

theorem overdraw_keep {b0 : State} (ch : Nat) (w : Int × Nat) {s : State} (hs : Keep b0 s) :
    Keep b0 (overdraw ch w s) := by
  unfold overdraw
  with_reducible
    repeat' first
      | assumption | intro _ | apply noticeAll_keep | apply State.setChn_keep | fail_if_no_progress apply Keep.upd
      | dsimp only | split

theorem overdrawNext_keep {b0 : State} (ch : Nat) {s : State} (hs : Keep b0 s) : Keep b0 (overdrawNext ch s) := by
  unfold overdrawNext
  with_reducible
    repeat' first
      | assumption | intro _ | apply State.setChn_keep | apply overdraw_keep | fail_if_no_progress apply Keep.upd
      | dsimp only | split

theorem overdrawRun_keep {b0 : State} (ch : Nat) (x0 : Nat) {x1 : State} (hx1 : Keep b0 x1) :
    Keep b0 (overdrawRun ch x0 x1) := by
  induction x0 generalizing x1 with
  | zero =>
    unfold overdrawRun
    with_reducible
      repeat' first
        | assumption | intro _ | apply overdrawNext_keep | fail_if_no_progress apply Keep.upd | dsimp only | split
  | succ n ih =>
    unfold overdrawRun
    with_reducible
      repeat' first
        | assumption | intro _ | apply ih | apply overdrawNext_keep | fail_if_no_progress apply Keep.upd | dsimp only
        | split

theorem execOverdrawWindowEnd_keep (e : Stim) (ch : Nat) (n : Nat) (s : State) :
    KeepO (s.advance e) (execOverdrawWindowEnd e ch n s) := by
  unfold execOverdrawWindowEnd
  apply event_keep
  generalize s.advance e = b0
  intro t ht
  with_reducible
    repeat' first
      | assumption | intro _ | apply overdrawRun_keep | fail_if_no_progress apply Keep.upd | dsimp only | split

/-! ### Fio -/

theorem State.setFin_keep {b0 : State} (i : Nat) (x : FieldIn) {s : State} (hs : Keep b0 s) :
    Keep b0 (State.setFin s i x) := by
  unfold State.setFin
  with_reducible
    repeat' first
      | assumption | intro _ | fail_if_no_progress apply Keep.upd | dsimp only | split

theorem State.setAin_keep {b0 : State} (i : Nat) (x : AnaIn) {s : State} (hs : Keep b0 s) :
    Keep b0 (State.setAin s i x) := by
  unfold State.setAin
  with_reducible
    repeat' first
      | assumption | intro _ | fail_if_no_progress apply Keep.upd | dsimp only | split

theorem fioInConfigSpec_keep {b0 : State} (c : Cmd) {s : State} (hs : Keep b0 s) :
    KeepA b0 (fioInConfigSpec.exec c s) := by
  unfold fioInConfigSpec
  with_reducible
    repeat' first
      | assumption | intro _ | apply Ans.okay_keep | apply State.setFin_keep | fail_if_no_progress apply Keep.upd
      | apply KeepA.done | apply KeepA.accept | apply KeepA.defer | apply KeepA.ongoing | dsimp only | split

theorem execFioInConfig_keep (e : Stim) (r : Req) (s : State) : KeepO (s.advance e) (execFioInConfig e r s) := 
  submit_row fun c _ hs => fioInConfigSpec_keep c hs

theorem fioReadConfigSpec_keep {b0 : State} (c : Cmd) {s : State} (hs : Keep b0 s) :
    KeepA b0 (fioReadConfigSpec.exec c s) := by
  unfold fioReadConfigSpec
  with_reducible
    repeat' first
      | assumption | intro _ | fail_if_no_progress apply Keep.upd | apply KeepA.done | apply KeepA.accept
      | apply KeepA.defer | apply KeepA.ongoing | dsimp only | split

theorem setIoOwner_keep {b0 : State} (io : Nat) (owner : Nat) (readers : Word) {s : State} (hs : Keep b0 s) :
    Keep b0 (setIoOwner io owner readers s) := by
  unfold setIoOwner
  with_reducible
    repeat' first
      | assumption | intro _ | apply State.setFout_keep | apply State.setFin_keep | apply State.setAin_keep
      | fail_if_no_progress apply Keep.upd | dsimp only | split

theorem fioAssignSpec_keep {b0 : State} (c : Cmd) {s : State} (hs : Keep b0 s) :
    KeepA b0 (fioAssignSpec.exec c s) := by
  unfold fioAssignSpec
  with_reducible
    repeat' first
      | assumption | intro _ | apply Ans.okay_keep | apply Ans.fail_keep | apply setIoOwner_keep
      | fail_if_no_progress apply Keep.upd | apply KeepA.done | apply KeepA.accept | apply KeepA.defer
      | apply KeepA.ongoing | dsimp only | split

theorem fioInStateSpec_keep {b0 : State} (c : Cmd) {s : State} (hs : Keep b0 s) :
    KeepA b0 (fioInStateSpec.exec c s) := by
  unfold fioInStateSpec
  with_reducible
    repeat' first
      | assumption | intro _ | fail_if_no_progress apply Keep.upd | apply KeepA.done | apply KeepA.accept
      | apply KeepA.defer | apply KeepA.ongoing | dsimp only | split

theorem execFioInState_keep (e : Stim) (r : Req) (s : State) : KeepO (s.advance e) (execFioInState e r s) := 
  submit_row fun c _ hs => fioInStateSpec_keep c hs

theorem fioEdgesSpec_keep {b0 : State} (c : Cmd) {s : State} (hs : Keep b0 s) : KeepA b0 (fioEdgesSpec.exec c s) := by
  unfold fioEdgesSpec
  with_reducible
    repeat' first
      | assumption | intro _ | apply State.setFin_keep | fail_if_no_progress apply Keep.upd | apply KeepA.done
      | apply KeepA.accept | apply KeepA.defer | apply KeepA.ongoing | dsimp only | split

theorem execFioEdges_keep (e : Stim) (r : Req) (s : State) : KeepO (s.advance e) (execFioEdges e r s) := 
  submit_row fun c _ hs => fioEdgesSpec_keep c hs

theorem queueEdge_keep {b0 : State} (i : Nat) (x : FieldIn) {s : State} (hs : Keep b0 s) :
    Keep b0 (queueEdge i x s) := by
  unfold queueEdge
  with_reducible
    repeat' first
      | assumption | intro _ | apply noticeAll_keep | apply State.setFin_keep | fail_if_no_progress apply Keep.upd
      | dsimp only | split

theorem debounceEnd_keep {b0 : State} (i : Nat) {s : State} (hs : Keep b0 s) : Keep b0 (debounceEnd i s) := by
  unfold debounceEnd
  with_reducible
    repeat' first
      | assumption | intro _ | apply noticeAll_keep | apply State.setFin_keep | apply queueEdge_keep
      | fail_if_no_progress apply Keep.upd | dsimp only | split

theorem execDebounceExpiry_keep (e : Stim) (fi : Nat) (s : State) :
    KeepO (s.advance e) (execDebounceExpiry e fi s) := by
  unfold execDebounceExpiry
  apply event_keep
  generalize s.advance e = b0
  intro t ht
  with_reducible
    repeat' first
      | assumption | intro _ | apply debounceEnd_keep | fail_if_no_progress apply Keep.upd | dsimp only | split

theorem rawTransition_keep {b0 : State} (i : Nat) (v : Nat) {s : State} (hs : Keep b0 s) :
    Keep b0 (rawTransition i v s) := by
  unfold rawTransition
  with_reducible
    repeat' first
      | assumption | intro _ | apply State.setFin_keep | apply debounceEnd_keep | fail_if_no_progress apply Keep.upd
      | dsimp only | split

theorem execRawTransition_keep (e : Stim) (fi : Nat) (v : Nat) (s : State) :
    KeepO (s.advance e) (execRawTransition e fi v s) := by
  unfold execRawTransition
  apply event_keep
  generalize s.advance e = b0
  intro t ht
  with_reducible
    repeat' first
      | assumption | intro _ | apply State.setFin_keep | apply rawTransition_keep | fail_if_no_progress apply Keep.upd
      | dsimp only | split

theorem execCountWindowPublish_keep (e : Stim) (fi : Nat) (s : State) :
    KeepO (s.advance e) (execCountWindowPublish e fi s) := by
  unfold execCountWindowPublish
  apply event_keep
  generalize s.advance e = b0
  intro t ht
  with_reducible
    repeat' first
      | assumption | intro _ | apply State.setFin_keep | fail_if_no_progress apply Keep.upd | dsimp only | split

theorem stepWindows_keep {b0 : State} (old : Nat) (new : Nat) {s : State} (hs : Keep b0 s) :
    Keep b0 (stepWindows old new s) := by
  unfold stepWindows
  with_reducible
    repeat' first
      | assumption | intro _ | fail_if_no_progress apply Keep.upd | dsimp only | split

theorem fioOutConfigSpec_keep {b0 : State} (c : Cmd) {s : State} (hs : Keep b0 s) :
    KeepA b0 (fioOutConfigSpec.exec c s) := by
  unfold fioOutConfigSpec
  with_reducible
    repeat' first
      | assumption | intro _ | apply State.setFout_keep | apply Ans.okay_keep | apply Ans.fail_keep
      | fail_if_no_progress apply Keep.upd | apply KeepA.done | apply KeepA.accept | apply KeepA.defer
      | apply KeepA.ongoing | dsimp only | split

theorem foDrop_keep {b0 : State} (i : Nat) (st : Status) {s : State} (hs : Keep b0 s) : Keep b0 (foDrop i st s) := by
  unfold foDrop
  with_reducible
    repeat' first
      | assumption | intro _ | apply State.setFout_keep | apply endCmd_keep | fail_if_no_progress apply Keep.upd
      | apply Keep.foldl | dsimp only | split

theorem switchFo_keep {b0 : State} (i : Nat) (on : Bool) (duty : Nat) (cmd : Option Nat) {s : State} (hs : Keep b0 s) :
    Keep b0 ((switchFo i on duty cmd s).2) := by
  unfold switchFo
  with_reducible
    repeat' first
      | assumption | intro _ | apply State.setFout_keep | apply settle_keep | apply foDrop_keep
      | fail_if_no_progress apply Keep.upd | dsimp only | split

theorem foAns_keep {b0 : State} (i : Nat) (x : Switched × State) (hx : Keep b0 x.2) : KeepA b0 (foAns i x) := by
  unfold foAns
  with_reducible
    repeat' first
      | assumption | intro _ | fail_if_no_progress apply Keep.upd | apply KeepA.done | apply KeepA.accept
      | apply KeepA.defer | apply KeepA.ongoing | dsimp only | split

theorem fioOutSpec_keep {b0 : State} (c : Cmd) {s : State} (hs : Keep b0 s) : KeepA b0 (fioOutSpec.exec c s) := by
  unfold fioOutSpec
  with_reducible
    repeat' first
      | assumption | intro _ | apply switchFo_keep | apply foAns_keep | fail_if_no_progress apply Keep.upd
      | apply KeepA.done | apply KeepA.accept | apply KeepA.defer | apply KeepA.ongoing | dsimp only | split

theorem fioOutClearSpec_keep {b0 : State} (c : Cmd) {s : State} (hs : Keep b0 s) :
    KeepA b0 (fioOutClearSpec.exec c s) := by
  unfold fioOutClearSpec
  with_reducible
    repeat' first
      | assumption | intro _ | apply State.setFout_keep | fail_if_no_progress apply Keep.upd | apply KeepA.done
      | apply KeepA.accept | apply KeepA.defer | apply KeepA.ongoing | dsimp only | split

theorem fioOutStatusSpec_keep {b0 : State} (c : Cmd) {s : State} (hs : Keep b0 s) :
    KeepA b0 (fioOutStatusSpec.exec c s) := by
  unfold fioOutStatusSpec
  with_reducible
    repeat' first
      | assumption | intro _ | fail_if_no_progress apply Keep.upd | apply KeepA.done | apply KeepA.accept
      | apply KeepA.defer | apply KeepA.ongoing | dsimp only | split

theorem execFieldOutputSwitch_keep (e : Stim) (fo : Nat) (s : State) :
    KeepO (s.advance e) (execFieldOutputSwitch e fo s) := by
  unfold execFieldOutputSwitch
  apply event_keep
  generalize s.advance e = b0
  intro t ht
  with_reducible
    repeat' first
      | assumption | intro _ | apply State.setFout_keep | apply endCmd_keep | fail_if_no_progress apply Keep.upd
      | apply Keep.foldl | dsimp only | split

theorem foLatch_keep {b0 : State} (cause : Nat) (fo : Nat) {s : State} (hs : Keep b0 s) :
    Keep b0 (foLatch cause fo s) := by
  unfold foLatch
  with_reducible
    repeat' first
      | assumption | intro _ | apply noticeAll_keep | apply State.setFout_keep | apply settle_keep
      | fail_if_no_progress apply Keep.upd | dsimp only | split

theorem execFieldOutputLimit_keep (e : Stim) (fo : Nat) (s : State) :
    KeepO (s.advance e) (execFieldOutputLimit e fo s) := by
  unfold execFieldOutputLimit
  apply event_keep
  generalize s.advance e = b0
  intro t ht
  with_reducible
    repeat' first
      | assumption | intro _ | apply foLatch_keep | fail_if_no_progress apply Keep.upd | dsimp only | split

theorem execFieldOutputThermal_keep (e : Stim) (fo : Nat) (s : State) :
    KeepO (s.advance e) (execFieldOutputThermal e fo s) := by
  unfold execFieldOutputThermal
  apply event_keep
  generalize s.advance e = b0
  intro t ht
  with_reducible
    repeat' first
      | assumption | intro _ | apply State.setFout_keep | apply foDrop_keep | apply foLatch_keep
      | fail_if_no_progress apply Keep.upd | dsimp only | split

theorem execFieldOutputThermalRelease_keep (e : Stim) (fo : Nat) (s : State) :
    KeepO (s.advance e) (execFieldOutputThermalRelease e fo s) := by
  unfold execFieldOutputThermalRelease
  apply event_keep
  generalize s.advance e = b0
  intro t ht
  with_reducible
    repeat' first
      | assumption | intro _ | apply State.setFout_keep | fail_if_no_progress apply Keep.upd | dsimp only | split

theorem execFieldOutputDriverFault_keep (e : Stim) (fo : Nat) (s : State) :
    KeepO (s.advance e) (execFieldOutputDriverFault e fo s) := by
  unfold execFieldOutputDriverFault
  apply event_keep
  generalize s.advance e = b0
  intro t ht
  with_reducible
    repeat' first
      | assumption | intro _ | apply logNotice_keep | apply State.setFout_keep | apply settle_keep
      | apply latchFault_keep | apply foDrop_keep | fail_if_no_progress apply Keep.upd | dsimp only | split

theorem execFieldOutputOpenLoad_keep (e : Stim) (fo : Nat) (below : Bool) (s : State) :
    KeepO (s.advance e) (execFieldOutputOpenLoad e fo below s) := by
  unfold execFieldOutputOpenLoad
  apply event_keep
  generalize s.advance e = b0
  intro t ht
  with_reducible
    repeat' first
      | assumption | intro _ | apply State.setFout_keep | fail_if_no_progress apply Keep.upd | dsimp only | split

theorem foForceOne_keep {b0 : State} (fo : Nat) {s : State} (hs : Keep b0 s) : Keep b0 (foForceOne fo s) := by
  unfold foForceOne
  with_reducible
    repeat' first
      | assumption | intro _ | apply State.setFout_keep | apply settle_keep | apply foDrop_keep
      | fail_if_no_progress apply Keep.upd | dsimp only | split

theorem foForce_keep {b0 : State} {s : State} (hs : Keep b0 s) : Keep b0 (foForce s) := by
  unfold foForce
  with_reducible
    repeat' first
      | assumption | intro _ | apply foForceOne_keep | fail_if_no_progress apply Keep.upd | apply Keep.foldl
      | dsimp only | split

theorem foRelease_keep {b0 : State} (fo : Nat) {s : State} (hs : Keep b0 s) : Keep b0 (foRelease fo s) := by
  unfold foRelease
  with_reducible
    repeat' first
      | assumption | intro _ | apply State.setFout_keep | fail_if_no_progress apply Keep.upd | dsimp only | split

/-! ### Mea -/

theorem State.setSeqn_keep {b0 : State} (i : Nat) (x : MeaSeq) {s : State} (hs : Keep b0 s) :
    Keep b0 (State.setSeqn s i x) := by
  unfold State.setSeqn
  with_reducible
    repeat' first
      | assumption | intro _ | fail_if_no_progress apply Keep.upd | dsimp only | split

theorem meaAiConfigSpec_keep {b0 : State} (c : Cmd) {s : State} (hs : Keep b0 s) :
    KeepA b0 (meaAiConfigSpec.exec c s) := by
  unfold meaAiConfigSpec
  with_reducible
    repeat' first
      | assumption | intro _ | apply Ans.okay_keep | apply Ans.fail_keep | apply State.setAin_keep
      | fail_if_no_progress apply Keep.upd | apply KeepA.done | apply KeepA.accept | apply KeepA.defer
      | apply KeepA.ongoing | dsimp only | split

theorem execMeaAiConfig_keep (e : Stim) (r : Req) (s : State) : KeepO (s.advance e) (execMeaAiConfig e r s) := 
  submit_row fun c _ hs => meaAiConfigSpec_keep c hs

theorem meaSeqAssignSpec_keep {b0 : State} (c : Cmd) {s : State} (hs : Keep b0 s) :
    KeepA b0 (meaSeqAssignSpec.exec c s) := by
  unfold meaSeqAssignSpec
  with_reducible
    repeat' first
      | assumption | intro _ | apply Ans.okay_keep | apply Ans.fail_keep | apply State.setSeqn_keep
      | fail_if_no_progress apply Keep.upd | apply KeepA.done | apply KeepA.accept | apply KeepA.defer
      | apply KeepA.ongoing | dsimp only | split

theorem execMeaSeqAssign_keep (e : Stim) (r : Req) (s : State) : KeepO (s.advance e) (execMeaSeqAssign e r s) := 
  submit_row fun c _ hs => meaSeqAssignSpec_keep c hs

theorem meaSeqConfigSpec_keep {b0 : State} (c : Cmd) {s : State} (hs : Keep b0 s) :
    KeepA b0 (meaSeqConfigSpec.exec c s) := by
  unfold meaSeqConfigSpec
  with_reducible
    repeat' first
      | assumption | intro _ | apply Ans.okay_keep | apply Ans.fail_keep | apply State.setSeqn_keep
      | fail_if_no_progress apply Keep.upd | apply KeepA.done | apply KeepA.accept | apply KeepA.defer
      | apply KeepA.ongoing | dsimp only | split

theorem execMeaSeqConfig_keep (e : Stim) (r : Req) (s : State) : KeepO (s.advance e) (execMeaSeqConfig e r s) := 
  submit_row fun c _ hs => meaSeqConfigSpec_keep c hs

theorem startRun_keep {b0 : State} (i : Nat) {s : State} (hs : Keep b0 s) : Keep b0 (startRun i s) := by
  unfold startRun
  with_reducible
    repeat' first
      | assumption | intro _ | apply State.setSeqn_keep | fail_if_no_progress apply Keep.upd | dsimp only | split

theorem overrun_keep {b0 : State} (i : Nat) {s : State} (hs : Keep b0 s) : Keep b0 (overrun i s) := by
  unfold overrun
  with_reducible
    repeat' first
      | assumption | intro _ | apply notice_keep | apply State.setSeqn_keep | fail_if_no_progress apply Keep.upd
      | dsimp only | split

theorem trigSeq_keep {b0 : State} (i : Nat) {s : State} (hs : Keep b0 s) : Keep b0 (trigSeq i s) := by
  unfold trigSeq
  with_reducible
    repeat' first
      | assumption | intro _ | apply State.setSeqn_keep | apply startRun_keep | apply overrun_keep
      | fail_if_no_progress apply Keep.upd | dsimp only | split

theorem trigSeqsOf_keep {b0 : State} (tt : Nat) {s : State} (hs : Keep b0 s) : Keep b0 (trigSeqsOf tt s) := by
  unfold trigSeqsOf
  with_reducible
    repeat' first
      | assumption | intro _ | apply State.setSeqn_keep | apply overrun_keep | fail_if_no_progress apply Keep.upd
      | apply Keep.foldl | dsimp only | split

theorem meaRunSpec_keep {b0 : State} (c : Cmd) {s : State} (hs : Keep b0 s) : KeepA b0 (meaRunSpec.exec c s) := by
  unfold meaRunSpec
  with_reducible
    repeat' first
      | assumption | intro _ | apply Ans.okay_keep | apply Ans.fail_keep | apply State.setSeqn_keep
      | apply trigSeq_keep | fail_if_no_progress apply Keep.upd | apply KeepA.done | apply KeepA.accept
      | apply KeepA.defer | apply KeepA.ongoing | dsimp only | split

theorem execMeaRun_keep (e : Stim) (r : Req) (s : State) : KeepO (s.advance e) (execMeaRun e r s) := 
  submit_row fun c _ hs => meaRunSpec_keep c hs

theorem meaResultsSpec_keep {b0 : State} (c : Cmd) {s : State} (hs : Keep b0 s) :
    KeepA b0 (meaResultsSpec.exec c s) := by
  unfold meaResultsSpec
  with_reducible
    repeat' first
      | assumption | intro _ | apply State.setSeqn_keep | apply overrun_keep | fail_if_no_progress apply Keep.upd
      | apply KeepA.done | apply KeepA.accept | apply KeepA.defer | apply KeepA.ongoing | dsimp only | split

theorem execMeaResults_keep (e : Stim) (r : Req) (s : State) : KeepO (s.advance e) (execMeaResults e r s) := 
  submit_row fun c _ hs => meaResultsSpec_keep c hs

theorem runConverts_keep {b0 : State} {s : State} (hs : Keep b0 s) : Keep b0 (runConverts s) := by
  unfold runConverts
  with_reducible
    repeat' first
      | assumption | intro _ | apply finishCmd_keep | fail_if_no_progress apply Keep.upd | apply Keep.foldl
      | dsimp only | split

theorem meaConvertSpec_keep {b0 : State} (c : Cmd) {s : State} (hs : Keep b0 s) :
    KeepA b0 (meaConvertSpec.exec c s) := by
  unfold meaConvertSpec
  with_reducible
    repeat' first
      | assumption | intro _ | apply Ans.fail_keep | fail_if_no_progress apply Keep.upd | apply KeepA.done
      | apply KeepA.accept | apply KeepA.defer | apply KeepA.ongoing | dsimp only | split

theorem execMeaConvert_keep (e : Stim) (r : Req) (s : State) : KeepO (s.advance e) (execMeaConvert e r s) := 
  submit_row fun c _ hs => meaConvertSpec_keep c hs

theorem execSequenceTrigger_keep (e : Stim) (seq : Nat) (s : State) :
    KeepO (s.advance e) (execSequenceTrigger e seq s) := by
  unfold execSequenceTrigger
  apply event_keep
  generalize s.advance e = b0
  intro t ht
  with_reducible
    repeat' first
      | assumption | intro _ | apply State.setSeqn_keep | apply trigSeq_keep | fail_if_no_progress apply Keep.upd
      | dsimp only | split

theorem limitNotices_keep {b0 : State} (seq : Nat) (owner : Nat) (old : List MeaRes) (new : List MeaRes) {s : State} (hs : Keep b0 s) :
    Keep b0 (limitNotices seq owner old new s) := by
  unfold limitNotices
  with_reducible
    repeat' first
      | assumption | intro _ | apply notice_keep | fail_if_no_progress apply Keep.upd | apply Keep.foldl | dsimp only
      | split

theorem startWaiting_keep {b0 : State} (adc : Nat) {s : State} (hs : Keep b0 s) : Keep b0 (startWaiting adc s) := by
  unfold startWaiting
  with_reducible
    repeat' first
      | assumption | intro _ | apply startRun_keep | fail_if_no_progress apply Keep.upd | dsimp only | split

theorem runEnd_keep {b0 : State} (seq : Nat) (codes : List Sample) {s : State} (hs : Keep b0 s) :
    Keep b0 (runEnd seq codes s) := by
  unfold runEnd
  with_reducible
    repeat' first
      | assumption | intro _ | apply State.setSeqn_keep | apply trigSeq_keep | apply runConverts_keep
      | apply limitNotices_keep | apply startWaiting_keep | fail_if_no_progress apply Keep.upd | apply Keep.foldl
      | dsimp only | split

theorem resumeRuns_keep {b0 : State} {s : State} (hs : Keep b0 s) : Keep b0 (resumeRuns s) := by
  unfold resumeRuns
  with_reducible
    repeat' first
      | assumption | intro _ | apply trigSeq_keep | fail_if_no_progress apply Keep.upd | apply Keep.foldl | dsimp only
      | split

theorem execSequenceRunEnd_keep (e : Stim) (seq : Nat) (codes : List Sample) (s : State) :
    KeepO (s.advance e) (execSequenceRunEnd e seq codes s) := by
  unfold execSequenceRunEnd
  apply event_keep
  generalize s.advance e = b0
  intro t ht
  with_reducible
    repeat' first
      | assumption | intro _ | apply runEnd_keep | fail_if_no_progress apply Keep.upd | dsimp only | split

/-! ### Yarrow -/

theorem limpOff_keep {b0 : State} (ch : Nat) {s : State} (hs : Keep b0 s) : Keep b0 (limpOff ch s) := by
  unfold limpOff
  with_reducible
    repeat' first
      | assumption | intro _ | apply State.setChn_keep | apply dropPend_keep | apply beginOff_keep
      | fail_if_no_progress apply Keep.upd | dsimp only | split

theorem limpOn_keep {b0 : State} (ch : Nat) (act : Nat) (duty : Nat) {s : State} (hs : Keep b0 s) :
    Keep b0 (limpOn ch act duty s) := by
  unfold limpOn
  with_reducible
    repeat' first
      | assumption | intro _ | apply State.setChn_keep | apply autoOn_keep | apply limpWant_keep | apply beginOff_keep
      | fail_if_no_progress apply Keep.upd | dsimp only | split

theorem limpHold_keep {b0 : State} (ch : Nat) (b : List Word) {s : State} (hs : Keep b0 s) :
    Keep b0 (limpHold ch b s) := by
  unfold limpHold
  with_reducible
    repeat' first
      | assumption | intro _ | apply State.setChn_keep | fail_if_no_progress apply Keep.upd | dsimp only | split

theorem applyPol_keep {b0 : State} (ch : Nat) (pol : Nat) (b : List Word) {s : State} (hs : Keep b0 s) :
    Keep b0 (applyPol ch pol b s) := by
  unfold applyPol
  with_reducible
    repeat' first
      | assumption | intro _ | apply State.setChn_keep | apply limpOff_keep | apply limpOn_keep | apply limpHold_keep
      | fail_if_no_progress apply Keep.upd | dsimp only | split

theorem enterLimp_keep {b0 : State} (ch : Nat) {s : State} (hs : Keep b0 s) : Keep b0 (enterLimp ch s) := by
  unfold enterLimp
  with_reducible
    repeat' first
      | assumption | intro _ | apply State.setChn_keep | apply dropOn_keep | fail_if_no_progress apply Keep.upd
      | dsimp only | split

theorem startPol_keep {b0 : State} (ch : Nat) {s : State} (hs : Keep b0 s) : Keep b0 (startPol ch s) := by
  unfold startPol
  with_reducible
    repeat' first
      | assumption | intro _ | apply State.setChn_keep | apply State.setPdie_keep | apply limpOff_keep
      | apply applyPol_keep | fail_if_no_progress apply Keep.upd | dsimp only | split

theorem stopReclaim_keep {b0 : State} (d : Nat) {s : State} (hs : Keep b0 s) : Keep b0 (stopReclaim d s) := by
  unfold stopReclaim
  with_reducible
    repeat' first
      | assumption | intro _ | apply finishCmd_keep | fail_if_no_progress apply Keep.upd | dsimp only | split

theorem enterDie_keep {b0 : State} (d : Nat) (cause : Nat) {s : State} (hs : Keep b0 s) :
    Keep b0 (enterDie d cause s) := by
  unfold enterDie
  with_reducible
    repeat' first
      | assumption | intro _ | apply logObj_keep | apply State.setPdie_keep | apply limpPump_keep
      | apply enterLimp_keep | apply startPol_keep | apply stopReclaim_keep | fail_if_no_progress apply Keep.upd
      | apply Keep.foldl | dsimp only | split

theorem yarrowNotice_keep {b0 : State} (d : Nat) {s : State} (hs : Keep b0 s) : Keep b0 (yarrowNotice d s) := by
  unfold yarrowNotice
  with_reducible
    repeat' first
      | assumption | intro _ | apply logNotice_keep | fail_if_no_progress apply Keep.upd | dsimp only | split

theorem learnEntry_keep {b0 : State} (d : Nat) {s : State} (hs : Keep b0 s) : Keep b0 (learnEntry d s) := by
  unfold learnEntry
  with_reducible
    repeat' first
      | assumption | intro _ | apply State.setPdie_keep | apply release_keep | apply withdraw_keep
      | apply yarrowNotice_keep | fail_if_no_progress apply Keep.upd | apply Keep.foldl | dsimp only | split

theorem bothDies_keep {b0 : State} (f : Nat → State → State) {s : State} (hs : Keep b0 s) (hff : ∀ a0 s, Keep b0 s → Keep b0 (f a0 s)) :
    Keep b0 (bothDies f s) := by
  unfold bothDies
  with_reducible
    repeat' first
      | assumption | intro _ | apply hff | fail_if_no_progress apply Keep.upd | dsimp only | split

theorem lastReport_keep {b0 : State} (d : Nat) {s : State} (hs : Keep b0 s) : Keep b0 (lastReport d s) := by
  unfold lastReport
  with_reducible
    repeat' first
      | assumption | intro _ | apply State.setPdie_keep | fail_if_no_progress apply Keep.upd | dsimp only | split

theorem declareLost_keep {b0 : State} (d : Nat) {s : State} (hs : Keep b0 s) : Keep b0 (declareLost d s) := by
  unfold declareLost
  with_reducible
    repeat' first
      | assumption | intro _ | apply State.setPdie_keep | apply foForce_keep | apply stopReclaim_keep
      | apply learnEntry_keep | apply lastReport_keep | fail_if_no_progress apply Keep.upd | dsimp only | split

theorem lmpPolicySpec_keep {b0 : State} (c : Cmd) {s : State} (hs : Keep b0 s) :
    KeepA b0 (lmpPolicySpec.exec c s) := by
  unfold lmpPolicySpec
  with_reducible
    repeat' first
      | assumption | intro _ | apply State.setChn_keep | apply Ans.okay_keep | apply Ans.fail_keep
      | fail_if_no_progress apply Keep.upd | apply KeepA.done | apply KeepA.accept | apply KeepA.defer
      | apply KeepA.ongoing | dsimp only | split

theorem foReleaseAll_keep {b0 : State} {s : State} (hs : Keep b0 s) : Keep b0 (foReleaseAll s) := by
  unfold foReleaseAll
  with_reducible
    repeat' first
      | assumption | intro _ | apply foRelease_keep | fail_if_no_progress apply Keep.upd | apply Keep.foldl
      | dsimp only | split

theorem lmpReclaimSpec_keep {b0 : State} (c : Cmd) {s : State} (hs : Keep b0 s) :
    KeepA b0 (lmpReclaimSpec.exec c s) := by
  unfold lmpReclaimSpec
  with_reducible
    repeat' first
      | assumption | intro _ | apply Ans.fail_keep | apply foReleaseAll_keep | fail_if_no_progress apply Keep.upd
      | apply KeepA.done | apply KeepA.accept | apply KeepA.defer | apply KeepA.ongoing | dsimp only | split

theorem execLmpReclaim_keep (e : Stim) (r : Req) (s : State) : KeepO (s.advance e) (execLmpReclaim e r s) := 
  submit_row fun c _ hs => lmpReclaimSpec_keep c hs

theorem lmpStatusSpec_keep {b0 : State} (c : Cmd) {s : State} (hs : Keep b0 s) :
    KeepA b0 (lmpStatusSpec.exec c s) := by
  unfold lmpStatusSpec
  with_reducible
    repeat' first
      | assumption | intro _ | fail_if_no_progress apply Keep.upd | apply KeepA.done | apply KeepA.accept
      | apply KeepA.defer | apply KeepA.ongoing | dsimp only | split

theorem execLmpStatus_keep (e : Stim) (r : Req) (s : State) : KeepO (s.advance e) (execLmpStatus e r s) := 
  submit_row fun c _ hs => lmpStatusSpec_keep c hs

theorem lmpReadPolicySpec_keep {b0 : State} (c : Cmd) {s : State} (hs : Keep b0 s) :
    KeepA b0 (lmpReadPolicySpec.exec c s) := by
  unfold lmpReadPolicySpec
  with_reducible
    repeat' first
      | assumption | intro _ | apply Ans.fail_keep | fail_if_no_progress apply Keep.upd | apply KeepA.done
      | apply KeepA.accept | apply KeepA.defer | apply KeepA.ongoing | dsimp only | split

theorem lmpEnterSpec_keep {b0 : State} (c : Cmd) {s : State} (hs : Keep b0 s) : KeepA b0 (lmpEnterSpec.exec c s) := by
  unfold lmpEnterSpec
  with_reducible
    repeat' first
      | assumption | intro _ | apply Ans.okay_keep | apply enterDie_keep | fail_if_no_progress apply Keep.upd
      | apply Keep.foldl | apply KeepA.done | apply KeepA.accept | apply KeepA.defer | apply KeepA.ongoing
      | dsimp only | split

theorem execLmpEnter_keep (e : Stim) (r : Req) (s : State) : KeepO (s.advance e) (execLmpEnter e r s) := 
  submit_row fun c _ hs => lmpEnterSpec_keep c hs

theorem enterSilent_keep {b0 : State} (die : Nat) {s : State} (hs : Keep b0 s) : Keep b0 (enterSilent die s) := by
  unfold enterSilent
  with_reducible
    repeat' first
      | assumption | intro _ | apply State.setPdie_keep | apply enterDie_keep | apply lastReport_keep
      | fail_if_no_progress apply Keep.upd | dsimp only | split

theorem execYarrowEntry_keep (e : Stim) (die : Nat) (cause : Nat) (s : State) :
    KeepO (s.advance e) (execYarrowEntry e die cause s) := by
  unfold execYarrowEntry
  apply event_keep
  generalize s.advance e = b0
  intro t ht
  with_reducible
    repeat' first
      | assumption | intro _ | apply foForce_keep | apply enterDie_keep | apply enterSilent_keep
      | fail_if_no_progress apply Keep.upd | dsimp only | split

theorem execHeartbeatLoss_keep (e : Stim) (die : Nat) (s : State) :
    KeepO (s.advance e) (execHeartbeatLoss e die s) := by
  unfold execHeartbeatLoss
  apply event_keep
  generalize s.advance e = b0
  intro t ht
  with_reducible
    repeat' first
      | assumption | intro _ | apply enterSilent_keep | fail_if_no_progress apply Keep.upd | dsimp only | split

theorem execLogicResetIndication_keep (e : Stim) (s : State) :
    KeepO (s.advance e) (execLogicResetIndication e s) := by
  unfold execLogicResetIndication
  apply event_keep
  generalize s.advance e = b0
  intro t ht
  with_reducible
    repeat' first
      | assumption | intro _ | apply foForce_keep | apply enterDie_keep | apply bothDies_keep
      | fail_if_no_progress apply Keep.upd | dsimp only | split

theorem setProbe_keep {b0 : State} (p : Probe) (v : Int) {s : State} (hs : Keep b0 s) : Keep b0 (setProbe p v s) := by
  unfold setProbe
  with_reducible
    repeat' first
      | assumption | intro _ | apply showSample_keep | fail_if_no_progress apply Keep.upd | dsimp only | split

theorem execLimpNLow_keep (e : Stim) (s : State) : KeepO (s.advance e) (execLimpNLow e s) := by
  unfold execLimpNLow
  apply event_keep
  generalize s.advance e = b0
  intro t ht
  with_reducible
    repeat' first
      | assumption | intro _ | apply foForce_keep | apply enterDie_keep | apply bothDies_keep | apply setProbe_keep
      | fail_if_no_progress apply Keep.upd | dsimp only | split

theorem execSafeNLow_keep (e : Stim) (s : State) : KeepO (s.advance e) (execSafeNLow e s) := by
  unfold execSafeNLow
  apply event_keep
  generalize s.advance e = b0
  intro t ht
  with_reducible
    repeat' first
      | assumption | intro _ | apply logObj_keep | apply foForce_keep | apply enterDie_keep | apply bothDies_keep
      | apply setProbe_keep | fail_if_no_progress apply Keep.upd | dsimp only | split

theorem execSafeNHigh_keep (e : Stim) (s : State) : KeepO (s.advance e) (execSafeNHigh e s) := by
  unfold execSafeNHigh
  apply event_keep
  generalize s.advance e = b0
  intro t ht
  with_reducible
    repeat' first
      | assumption | intro _ | apply setProbe_keep | fail_if_no_progress apply Keep.upd | dsimp only | split

theorem execLinkLostDeclared_keep (e : Stim) (die : Nat) (s : State) :
    KeepO (s.advance e) (execLinkLostDeclared e die s) := by
  unfold execLinkLostDeclared
  apply event_keep
  generalize s.advance e = b0
  intro t ht
  with_reducible
    repeat' first
      | assumption | intro _ | apply learnEntry_keep | apply declareLost_keep | fail_if_no_progress apply Keep.upd
      | dsimp only | split

theorem execHoldExpiry_keep (e : Stim) (ch : Nat) (s : State) : KeepO (s.advance e) (execHoldExpiry e ch s) := by
  unfold execHoldExpiry
  apply event_keep
  generalize s.advance e = b0
  intro t ht
  with_reducible
    repeat' first
      | assumption | intro _ | apply limpPump_keep | apply limpOff_keep | apply applyPol_keep
      | fail_if_no_progress apply Keep.upd | dsimp only | split

theorem followPin_keep {b0 : State} (die : Nat) (pin : Nat) (act : Bool) {s : State} (hs : Keep b0 s) :
    Keep b0 (followPin die pin act s) := by
  unfold followPin
  with_reducible
    repeat' first
      | assumption | intro _ | apply applyPol_keep | fail_if_no_progress apply Keep.upd | apply Keep.foldl
      | dsimp only | split

theorem lhChange_keep {b0 : State} (die : Nat) (pin : Nat) (level : Bool) {s : State} (hs : Keep b0 s) :
    Keep b0 (lhChange die pin level s) := by
  unfold lhChange
  with_reducible
    repeat' first
      | assumption | intro _ | apply State.setPdie_keep | apply limpPump_keep | apply followPin_keep
      | fail_if_no_progress apply Keep.upd | dsimp only | split

theorem execLhPinChange_keep (e : Stim) (die : Nat) (pin : Nat) (level : Bool) (s : State) :
    KeepO (s.advance e) (execLhPinChange e die pin level s) := by
  unfold execLhPinChange
  apply event_keep
  generalize s.advance e = b0
  intro t ht
  with_reducible
    repeat' first
      | assumption | intro _ | apply lhChange_keep | fail_if_no_progress apply Keep.upd | dsimp only | split

theorem leaveLimp_keep {b0 : State} (ch : Nat) {s : State} (hs : Keep b0 s) : Keep b0 (leaveLimp ch s) := by
  unfold leaveLimp
  with_reducible
    repeat' first
      | assumption | intro _ | apply State.setChn_keep | apply bookOn_keep | fail_if_no_progress apply Keep.upd
      | dsimp only | split

theorem reclaimDie_keep {b0 : State} (d : Nat) {s : State} (hs : Keep b0 s) : Keep b0 (reclaimDie d s) := by
  unfold reclaimDie
  with_reducible
    repeat' first
      | assumption | intro _ | apply logObj_keep | apply State.setPdie_keep | apply feedReturnOne_keep
      | apply leaveLimp_keep | fail_if_no_progress apply Keep.upd | apply Keep.foldl | dsimp only | split

theorem execReclaimComplete_keep (e : Stim) (s : State) : KeepO (s.advance e) (execReclaimComplete e s) := by
  unfold execReclaimComplete
  apply event_keep
  generalize s.advance e = b0
  intro t ht
  with_reducible
    repeat' first
      | assumption | intro _ | apply finishCmd_keep | apply foReleaseAll_keep | apply reclaimDie_keep
      | fail_if_no_progress apply Keep.upd | apply Keep.foldl | dsimp only | split

theorem execVetchFrameError_keep (e : Stim) (die : Nat) (s : State) :
    KeepO (s.advance e) (execVetchFrameError e die s) := by
  unfold execVetchFrameError
  apply event_keep
  generalize s.advance e = b0
  intro t ht
  with_reducible
    repeat' first
      | assumption | intro _ | apply State.setPdie_keep | fail_if_no_progress apply Keep.upd | dsimp only | split

theorem execHeartbeatRestored_keep (e : Stim) (die : Nat) (s : State) :
    KeepO (s.advance e) (execHeartbeatRestored e die s) := by
  unfold execHeartbeatRestored
  apply event_keep
  generalize s.advance e = b0
  intro t ht
  with_reducible
    repeat' first
      | assumption | intro _ | apply State.setPdie_keep | fail_if_no_progress apply Keep.upd | dsimp only | split

/-! ### Gate -/

theorem State.setGate_keep {b0 : State} (f : Func) (g : Gate) {s : State} (hs : Keep b0 s) :
    Keep b0 (State.setGate s f g) := by
  unfold State.setGate
  with_reducible
    repeat' first
      | assumption | intro _ | apply State.setIsland_keep | fail_if_no_progress apply Keep.upd | dsimp only | split

theorem gateEnable_keep {b0 : State} (f : Func) (id : Nat) {s : State} (hs : Keep b0 s) :
    KeepA b0 (gateEnable f id s) := by
  unfold gateEnable
  with_reducible
    repeat' first
      | assumption | intro _ | apply finishAll_keep | apply Ans.okay_keep | apply State.setGate_keep
      | fail_if_no_progress apply Keep.upd | apply KeepA.done | apply KeepA.accept | apply KeepA.defer
      | apply KeepA.ongoing | dsimp only | split

theorem gateDisable_keep {b0 : State} (f : Func) (deep : Bool) (id : Nat) (lose : State → State) {s : State} (hs : Keep b0 s) (hflose : ∀ s, Keep b0 s → Keep b0 (lose s)) :
    KeepA b0 (gateDisable f deep id lose s) := by
  unfold gateDisable
  with_reducible
    repeat' first
      | assumption | intro _ | apply hflose | apply finishCmd_keep | apply finishAll_keep | apply interim_keep
      | apply Ans.okay_keep | apply State.setGate_keep | fail_if_no_progress apply Keep.upd | apply KeepA.done
      | apply KeepA.accept | apply KeepA.defer | apply KeepA.ongoing | dsimp only | split

theorem gateStart_keep {b0 : State} (f : Func) {s : State} (hs : Keep b0 s) : Keep b0 (gateStart f s) := by
  unfold gateStart
  with_reducible
    repeat' first
      | assumption | intro _ | apply finishAll_keep | apply State.setGate_keep | fail_if_no_progress apply Keep.upd
      | dsimp only | split

theorem gateStop_keep {b0 : State} (f : Func) {s : State} (hs : Keep b0 s) : Keep b0 (gateStop f s) := by
  unfold gateStop
  with_reducible
    repeat' first
      | assumption | intro _ | apply finishAll_keep | apply State.setGate_keep | fail_if_no_progress apply Keep.upd
      | dsimp only | split

theorem gateApply_keep {b0 : State} (f : Func) (lose : State → State) {s : State} (hs : Keep b0 s) (hflose : ∀ s, Keep b0 s → Keep b0 (lose s)) :
    Keep b0 (gateApply f lose s) := by
  unfold gateApply
  with_reducible
    repeat' first
      | assumption | intro _ | apply hflose | apply finishAll_keep | apply State.setGate_keep
      | fail_if_no_progress apply Keep.upd | dsimp only | split

theorem gateRun_keep {b0 : State} (f : Func) {s : State} (hs : Keep b0 s) : Keep b0 (gateRun f s) := by
  unfold gateRun
  with_reducible
    repeat' first
      | assumption | intro _ | apply finishAll_keep | apply State.setGate_keep | fail_if_no_progress apply Keep.upd
      | dsimp only | split

end Sys2Proof.Machine
end

