-- ==== Sys2Proof/Laws/KeepSwitch.lean ====
section
/-!
SUPPORT. Keep for the queues and the switch.
-/

set_option linter.unusedTactic false
set_option linter.unreachableTactic false

namespace Sys2Proof.Machine

/-! ### Sys -/

theorem sysEchoSpec_keep {b0 : State} (c : Cmd) {s : State} (hs : Keep b0 s) : KeepA b0 (sysEchoSpec.exec c s) := by
  unfold sysEchoSpec
  with_reducible
    repeat' first
      | assumption | intro _ | fail_if_no_progress apply Keep.upd | apply KeepA.done | apply KeepA.accept
      | apply KeepA.defer | apply KeepA.ongoing | dsimp only | split

theorem execSysEcho_keep (e : Stim) (r : Req) (s : State) : KeepO (s.advance e) (execSysEcho e r s) := 
  submit_row fun c _ hs => sysEchoSpec_keep c hs

theorem withdrawCmd_keep {b0 : State} (st : Status) (id : Nat) {s : State} (hs : Keep b0 s) :
    Keep b0 (withdrawCmd st s id) := by
  unfold withdrawCmd
  with_reducible
    repeat' first
      | assumption | intro _ | apply forget_keep | apply endCmd_keep | apply reblock_keep
      | fail_if_no_progress apply Keep.upd | dsimp only | split

theorem sysCancelSpec_keep {b0 : State} (c : Cmd) {s : State} (hs : Keep b0 s) :
    KeepA b0 (sysCancelSpec.exec c s) := by
  unfold sysCancelSpec
  with_reducible
    repeat' first
      | assumption | intro _ | apply withdrawCmd_keep | fail_if_no_progress apply Keep.upd | apply Keep.foldl
      | apply KeepA.done | apply KeepA.accept | apply KeepA.defer | apply KeepA.ongoing | dsimp only | split

theorem execSysCancel_keep (e : Stim) (r : Req) (s : State) : KeepO (s.advance e) (execSysCancel e r s) := 
  submit_row fun c _ hs => sysCancelSpec_keep c hs

theorem sysIdentitySpec_keep {b0 : State} (c : Cmd) {s : State} (hs : Keep b0 s) :
    KeepA b0 (sysIdentitySpec.exec c s) := by
  unfold sysIdentitySpec
  with_reducible
    repeat' first
      | assumption | intro _ | apply Ans.fail_keep | fail_if_no_progress apply Keep.upd | apply KeepA.done
      | apply KeepA.accept | apply KeepA.defer | apply KeepA.ongoing | dsimp only | split

theorem execSysIdentity_keep (e : Stim) (r : Req) (s : State) : KeepO (s.advance e) (execSysIdentity e r s) := 
  submit_row fun c _ hs => sysIdentitySpec_keep c hs

theorem sysLimitsSpec_keep {b0 : State} (c : Cmd) {s : State} (hs : Keep b0 s) :
    KeepA b0 (sysLimitsSpec.exec c s) := by
  unfold sysLimitsSpec
  with_reducible
    repeat' first
      | assumption | intro _ | fail_if_no_progress apply Keep.upd | apply KeepA.done | apply KeepA.accept
      | apply KeepA.defer | apply KeepA.ongoing | dsimp only | split

theorem execSysLimits_keep (e : Stim) (r : Req) (s : State) : KeepO (s.advance e) (execSysLimits e r s) := 
  submit_row fun c _ hs => sysLimitsSpec_keep c hs

theorem sysIslandStatusSpec_keep {b0 : State} (c : Cmd) {s : State} (hs : Keep b0 s) :
    KeepA b0 (sysIslandStatusSpec.exec c s) := by
  unfold sysIslandStatusSpec
  with_reducible
    repeat' first
      | assumption | intro _ | fail_if_no_progress apply Keep.upd | apply KeepA.done | apply KeepA.accept
      | apply KeepA.defer | apply KeepA.ongoing | dsimp only | split

theorem execSysIslandStatus_keep (e : Stim) (r : Req) (s : State) :
    KeepO (s.advance e) (execSysIslandStatus e r s) := 
  submit_row fun c _ hs => sysIslandStatusSpec_keep c hs

theorem execIdread_keep (e : Stim) (s : State) : KeepO (s.advance e) (execIdread e s) := by
  unfold execIdread
  have hs := Keep.refl (s.advance e)
  revert hs
  generalize s.advance e = b0
  intro hs
  refine ⟨_, rfl, ?_⟩
  with_reducible
    repeat' first
      | assumption | intro _ | fail_if_no_progress apply Keep.upd | dsimp only | split

/-! ### Que -/

theorem State.setMemCnt_keep {b0 : State} (m : Nat) (x : MemCnt) {s : State} (hs : Keep b0 s) :
    Keep b0 (State.setMemCnt s m x) := by
  unfold State.setMemCnt
  with_reducible
    repeat' first
      | assumption | intro _ | fail_if_no_progress apply Keep.upd | dsimp only | split

theorem uncorrectable_keep {b0 : State} (m : Nat) (a : Nat) {s : State} (hs : Keep b0 s) :
    Keep b0 (uncorrectable m a s) := by
  unfold uncorrectable
  with_reducible
    repeat' first
      | assumption | intro _ | apply logNotice_keep | apply latchFault_keep | apply State.setMemCnt_keep
      | fail_if_no_progress apply Keep.upd | dsimp only | split

theorem badRead_keep {b0 : State} (a : Nat) {s : State} (hs : Keep b0 s) : Keep b0 (badRead a s) := by
  unfold badRead
  with_reducible
    repeat' first
      | assumption | intro _ | apply uncorrectable_keep | fail_if_no_progress apply Keep.upd | dsimp only | split

theorem replyRaw_keep {b0 : State} (t : Nat) (h : Hdr) (st : Status) (res : List Word) {s : State} (hs : Keep b0 s) :
    Keep b0 (replyRaw t h st res s) := by
  unfold replyRaw
  with_reducible
    repeat' first
      | assumption | intro _ | apply postReply_keep | apply countReset_keep | fail_if_no_progress apply Keep.upd
      | dsimp only | split

theorem clearOuts_keep {b0 : State} (t : Nat) (q : Nat) {s : State} (hs : Keep b0 s) : Keep b0 (clearOuts t q s) := by
  unfold clearOuts
  with_reducible
    repeat' first
      | assumption | intro _ | apply State.setTenant_keep | fail_if_no_progress apply Keep.upd | dsimp only | split

theorem countBad_keep {b0 : State} (t : Nat) {s : State} (hs : Keep b0 s) : Keep b0 (countBad t s) := by
  unfold countBad
  with_reducible
    repeat' first
      | assumption | intro _ | apply State.setTenant_keep | fail_if_no_progress apply Keep.upd | dsimp only | split

theorem badReply_keep {b0 : State} (t : Nat) (h : Hdr) (n : Nat) {s : State} (hs : Keep b0 s) :
    Keep b0 (badReply t h n s) := by
  unfold badReply
  with_reducible
    repeat' first
      | assumption | intro _ | apply logObj_keep | apply replyRaw_keep | apply countBad_keep
      | fail_if_no_progress apply Keep.upd | dsimp only | split

theorem flushReplies_keep {b0 : State} (t : Nat) (x0 : List Flushed) {x1 : State} (hx1 : Keep b0 x1) :
    Keep b0 (flushReplies t x0 x1) := by
  induction x0 generalizing x1 with
  | nil => exact hx1
  | cons a l ih =>
    cases a with
    | gone h => exact ih (replyRaw_keep t h _ _ hx1)
    | bad h n => exact ih (badReply_keep t h n hx1)

theorem flushPlain_keep {b0 : State} (t : Nat) (q : Nat) {s : State} (hs : Keep b0 s) :
    Keep b0 (flushPlain t q s) := by
  unfold flushPlain
  with_reducible
    repeat' first
      | assumption | intro _ | apply State.setQueue_keep | apply clearOuts_keep | apply flushReplies_keep
      | fail_if_no_progress apply Keep.upd | dsimp only | split

theorem tenResetBegin_keep {b0 : State} (t : Nat) (st : TenState) (cmds : List Nat) {s : State} (hs : Keep b0 s) :
    Keep b0 (tenResetBegin t st cmds s) := by
  unfold tenResetBegin
  with_reducible
    repeat' first
      | assumption | intro _ | apply State.setTenant_keep | apply viResetBegin_keep | apply dropXfers_keep
      | apply dropGroups_keep | apply withdrawCmd_keep | apply flushPlain_keep | fail_if_no_progress apply Keep.upd
      | apply Keep.foldl | dsimp only | split

theorem tenFault_keep {b0 : State} (t : Nat) (cause : Nat) {s : State} (hs : Keep b0 s) :
    Keep b0 (tenFault t cause s) := by
  unfold tenFault
  with_reducible
    repeat' first
      | assumption | intro _ | apply State.setTenant_keep | apply logNotice_keep | apply tenResetBegin_keep
      | fail_if_no_progress apply Keep.upd | dsimp only | split

theorem badFault_keep {b0 : State} (t : Nat) {s : State} (hs : Keep b0 s) : Keep b0 (badFault t s) := by
  unfold badFault
  with_reducible
    repeat' first
      | assumption | intro _ | apply tenFault_keep | fail_if_no_progress apply Keep.upd | dsimp only | split

theorem flushQueue_keep {b0 : State} (t : Nat) (q : Nat) {s : State} (hs : Keep b0 s) :
    Keep b0 (flushQueue t q s) := by
  unfold flushQueue
  with_reducible
    repeat' first
      | assumption | intro _ | apply flushPlain_keep | apply badFault_keep | fail_if_no_progress apply Keep.upd
      | dsimp only | split

theorem commitSq_keep {b0 : State} (t : Nat) (q : Nat) (sl : List (List Byte)) {s : State} (hs : Keep b0 s) :
    Keep b0 (commitSq t q sl s) := by
  unfold commitSq
  with_reducible
    repeat' first
      | assumption | intro _ | apply State.setQueue_keep | apply postItem_keep | apply replyRaw_keep
      | fail_if_no_progress apply Keep.upd | dsimp only | split

theorem doorRefused_keep {b0 : State} (t : Nat) (q : Nat) (ptr : Nat) {s : State} (hs : Keep b0 s) :
    Keep b0 (doorRefused t q ptr s) := by
  unfold doorRefused
  with_reducible
    repeat' first
      | assumption | intro _ | apply State.setQueue_keep | apply notice_keep | fail_if_no_progress apply Keep.upd
      | dsimp only | split

theorem ring_keep {b0 : State} (t : Nat) (q : Nat) (value : Word) {s : State} (hs : Keep b0 s) :
    Keep b0 (ring t q value s) := by
  unfold ring
  with_reducible
    repeat' first
      | assumption | intro _ | apply State.takeSlots_keep | apply commitSq_keep | apply doorRefused_keep
      | fail_if_no_progress apply Keep.upd | dsimp only | split

theorem pageOp_keep {b0 : State} (who : Nat) (t : Nat) (q : Nat) (off : Nat) (f : State → State) {s : State} (hs : Keep b0 s) (hff : ∀ s, Keep b0 s → Keep b0 (f s)) :
    Keep b0 (pageOp who t q off f s) := by
  unfold pageOp
  with_reducible
    repeat' first
      | assumption | intro _ | apply hff | apply logFirst_keep | fail_if_no_progress apply Keep.upd | dsimp only
      | split

theorem forcedReset_keep {b0 : State} (t : Nat) (q : Nat) (ptr : Nat) (inv : Nat) {s : State} (hs : Keep b0 s) :
    Keep b0 (forcedReset t q ptr inv s) := by
  unfold forcedReset
  with_reducible
    repeat' first
      | assumption | intro _ | apply State.setQueue_keep | apply logNotice_keep | apply clearOuts_keep
      | apply tenFault_keep | fail_if_no_progress apply Keep.upd | dsimp only | split

theorem checkPtrs_keep {b0 : State} (t : Nat) (q : Nat) {s : State} (hs : Keep b0 s) : Keep b0 (checkPtrs t q s) := by
  unfold checkPtrs
  with_reducible
    repeat' first
      | assumption | intro _ | apply forcedReset_keep | fail_if_no_progress apply Keep.upd | dsimp only | split

theorem checkAll_keep {b0 : State} (t : Nat) {s : State} (hs : Keep b0 s) : Keep b0 (checkAll t s) := by
  unfold checkAll
  with_reducible
    repeat' first
      | assumption | intro _ | apply checkPtrs_keep | fail_if_no_progress apply Keep.upd | apply Keep.foldl
      | dsimp only | split

theorem execDoorbell_keep (e : Stim) (who : Nat) (t : Nat) (q : Nat) (value : Word) (s : State) :
    KeepO (s.advance e) (execDoorbell e who t q value s) := by
  unfold execDoorbell
  apply event_keep
  generalize s.advance e = b0
  intro t ht
  with_reducible
    repeat' first
      | assumption | intro _ | apply ring_keep | apply pageOp_keep | apply checkPtrs_keep
      | fail_if_no_progress apply Keep.upd | dsimp only | split

theorem execFlush_keep (e : Stim) (who : Nat) (t : Nat) (q : Nat) (value : Word) (s : State) :
    KeepO (s.advance e) (execFlush e who t q value s) := by
  unfold execFlush
  apply event_keep
  generalize s.advance e = b0
  intro t ht
  with_reducible
    repeat' first
      | assumption | intro _ | apply flushQueue_keep | apply pageOp_keep | apply checkPtrs_keep
      | fail_if_no_progress apply Keep.upd | dsimp only | split

theorem clearStatus_keep {b0 : State} (t : Nat) (q : Nat) (v : Word) {s : State} (hs : Keep b0 s) :
    Keep b0 (clearStatus t q v s) := by
  unfold clearStatus
  with_reducible
    repeat' first
      | assumption | intro _ | apply State.setQueue_keep | apply notice_keep | fail_if_no_progress apply Keep.upd
      | dsimp only | split

theorem execQStatusClear_keep (e : Stim) (who : Nat) (t : Nat) (q : Nat) (value : Word) (s : State) :
    KeepO (s.advance e) (execQStatusClear e who t q value s) := by
  unfold execQStatusClear
  apply event_keep
  generalize s.advance e = b0
  intro t ht
  with_reducible
    repeat' first
      | assumption | intro _ | apply pageOp_keep | apply clearStatus_keep | fail_if_no_progress apply Keep.upd
      | dsimp only | split

theorem setLevel_keep {b0 : State} (t : Nat) (q : Nat) (v : Word) {s : State} (hs : Keep b0 s) :
    Keep b0 (setLevel t q v s) := by
  unfold setLevel
  with_reducible
    repeat' first
      | assumption | intro _ | apply State.setQueue_keep | fail_if_no_progress apply Keep.upd | dsimp only | split

theorem pageWord_keep {b0 : State} (who : Nat) (t : Nat) (off : Nat) (v : Word) {s : State} (hs : Keep b0 s) :
    Keep b0 (pageWord who t off v s) := by
  unfold pageWord
  with_reducible
    repeat' first
      | assumption | intro _ | apply State.setQueue_keep | apply flushQueue_keep | apply ring_keep | apply pageOp_keep
      | apply checkPtrs_keep | apply clearStatus_keep | apply setLevel_keep | fail_if_no_progress apply Keep.upd
      | apply Keep.foldl | dsimp only | split

theorem pageWrite_keep {b0 : State} (who : Nat) (addr : Nat) (width : Nat) (value : Nat) {s : State} (hs : Keep b0 s) :
    Keep b0 (pageWrite who addr width value s) := by
  unfold pageWrite
  with_reducible
    repeat' first
      | assumption | intro _ | apply pageOp_keep | apply pageWord_keep | fail_if_no_progress apply Keep.upd
      | dsimp only | split

theorem heldPost_keep {b0 : State} (t : Nat) {s : State} (hs : Keep b0 s) : Keep b0 (heldPost t s) := by
  unfold heldPost
  with_reducible
    repeat' first
      | assumption | intro _ | apply State.setQueue_keep | apply postItem_keep | apply dropCmd_keep
      | fail_if_no_progress apply Keep.upd | dsimp only | split

theorem execHeldReplyPosted_keep (e : Stim) (t : Nat) (s : State) :
    KeepO (s.advance e) (execHeldReplyPosted e t s) := by
  unfold execHeldReplyPosted
  apply event_keep
  generalize s.advance e = b0
  intro t ht
  with_reducible
    repeat' first
      | assumption | intro _ | apply checkPtrs_keep | apply heldPost_keep | fail_if_no_progress apply Keep.upd
      | dsimp only | split

theorem upset_keep {b0 : State} (t : Nat) (q : Nat) (prod : Bool) (ptr : Nat) (inv : Nat) {s : State} (hs : Keep b0 s) :
    Keep b0 (upset t q prod ptr inv s) := by
  unfold upset
  with_reducible
    repeat' first
      | assumption | intro _ | apply State.setQueue_keep | fail_if_no_progress apply Keep.upd | dsimp only | split

theorem execPointerCheck_keep (e : Stim) (t : Nat) (q : Nat) (prod : Bool) (ptr : Nat) (inv : Nat) (s : State) :
    KeepO (s.advance e) (execPointerCheck e t q prod ptr inv s) := by
  unfold execPointerCheck
  apply event_keep
  generalize s.advance e = b0
  intro t ht
  with_reducible
    repeat' first
      | assumption | intro _ | apply checkPtrs_keep | apply upset_keep | fail_if_no_progress apply Keep.upd
      | dsimp only | split

/-! ### Shaper -/

theorem foldCredits_keep {b0 : State} (p : Nat) {s : State} (hs : Keep b0 s) : Keep b0 (foldCredits p s) := by
  unfold foldCredits
  with_reducible
    repeat' first
      | assumption | intro _ | apply State.setSp_keep | fail_if_no_progress apply Keep.upd | apply Keep.foldl
      | dsimp only | split

/-! ### Bmca -/

theorem State.setInst_keep {b0 : State} (i : Nat) (x : GptpInst) {s : State} (hs : Keep b0 s) :
    Keep b0 (State.setInst s i x) := by
  unfold State.setInst
  with_reducible
    repeat' first
      | assumption | intro _ | fail_if_no_progress apply Keep.upd | dsimp only | split

theorem gptpIn_keep {b0 : State} (port : Nat) (p : List Byte) {s : State} (hs : Keep b0 s) :
    Keep b0 (gptpIn port p s) := by
  unfold gptpIn
  with_reducible
    repeat' first
      | assumption | intro _ | apply State.setInst_keep | fail_if_no_progress apply Keep.upd | dsimp only | split

/-! ### Net -/

theorem netPortConfigSpec_keep {b0 : State} (c : Cmd) {s : State} (hs : Keep b0 s) :
    KeepA b0 (netPortConfigSpec.exec c s) := by
  unfold netPortConfigSpec
  with_reducible
    repeat' first
      | assumption | intro _ | apply State.setSp_keep | apply Ans.okay_keep | apply Ans.fail_keep
      | fail_if_no_progress apply Keep.upd | apply KeepA.done | apply KeepA.accept | apply KeepA.defer
      | apply KeepA.ongoing | dsimp only | split

theorem execNetPortConfig_keep (e : Stim) (r : Req) (s : State) : KeepO (s.advance e) (execNetPortConfig e r s) := 
  submit_row fun c _ hs => netPortConfigSpec_keep c hs

theorem netPortCtlSpec_keep {b0 : State} (c : Cmd) {s : State} (hs : Keep b0 s) :
    KeepA b0 (netPortCtlSpec.exec c s) := by
  unfold netPortCtlSpec
  with_reducible
    repeat' first
      | assumption | intro _
      | (extract_lets +onlyGivenNames x; first
        | (refine (fun hx : Keep b0 x => ?_) ?_; (on_goal 1 => clear_value x); on_goal 2 => (show Keep b0 _; subst x))
        | (refine (fun hx : Keep b0 x.2 => ?_) ?_; (on_goal 1 => clear_value x); on_goal 2 => (show Keep b0 (Prod.snd _); subst x))
        | (refine (fun hx : Keep b0 x.1 => ?_) ?_; (on_goal 1 => clear_value x); on_goal 2 => (show Keep b0 (Prod.fst _); subst x))
        | (refine (fun hx : KeepA b0 x => ?_) ?_; (on_goal 1 => clear_value x); on_goal 2 => (show KeepA b0 _; subst x))
        | (refine (fun hx : ∀ a, Keep b0 (x a) => ?_) ?_; (on_goal 1 => clear_value x); on_goal 2 => (subst x; intro _; dsimp -zeta only))
        | (refine (fun hx : ∀ t, Keep b0 t → Keep b0 (x t) => ?_) ?_; (on_goal 1 => clear_value x); on_goal 2 => (subst x; intro _ _; dsimp -zeta only))
        | (refine (fun hx : ∀ a t, Keep b0 t → Keep b0 (x a t) => ?_) ?_; (on_goal 1 => clear_value x); on_goal 2 => (subst x; intro _ _ _; dsimp -zeta only))
        | (refine (fun hx : ∀ a b t, Keep b0 t → Keep b0 (x a b t) => ?_) ?_; (on_goal 1 => clear_value x); on_goal 2 => (subst x; intro _ _ _ _; dsimp -zeta only))
        | clear_value x)
      | apply Ans.fail_keep | apply gateEnable_keep | apply gateDisable_keep | fail_if_no_progress apply Keep.upd
      | apply KeepA.done | apply KeepA.accept | apply KeepA.defer | apply KeepA.ongoing | dsimp -zeta only | split
      | refine KeepA.ofDone (by assumption) ?_ | refine KeepA.ofAccept (by assumption) ?_
      | refine KeepA.ofDefer (by assumption) ?_ | refine KeepA.ofOngoing (by assumption) ?_
      | refine Keep.ofSnd (by assumption) ?_ | refine Keep.ofFst (by assumption) ?_ | dsimp only | simp only [id_eq]

theorem execNetPortCtl_keep (e : Stim) (r : Req) (s : State) : KeepO (s.advance e) (execNetPortCtl e r s) := 
  submit_row fun c _ hs => netPortCtlSpec_keep c hs

theorem netQueueConfigSpec_keep {b0 : State} (c : Cmd) {s : State} (hs : Keep b0 s) :
    KeepA b0 (netQueueConfigSpec.exec c s) := by
  unfold netQueueConfigSpec
  with_reducible
    repeat' first
      | assumption | intro _ | apply State.setSp_keep | apply Ans.okay_keep | fail_if_no_progress apply Keep.upd
      | apply KeepA.done | apply KeepA.accept | apply KeepA.defer | apply KeepA.ongoing | dsimp only | split

theorem execNetQueueConfig_keep (e : Stim) (r : Req) (s : State) :
    KeepO (s.advance e) (execNetQueueConfig e r s) := 
  submit_row fun c _ hs => netQueueConfigSpec_keep c hs

theorem netVlanSpec_keep {b0 : State} (c : Cmd) {s : State} (hs : Keep b0 s) : KeepA b0 (netVlanSpec.exec c s) := by
  unfold netVlanSpec
  with_reducible
    repeat' first
      | assumption | intro _ | apply Ans.okay_keep | fail_if_no_progress apply Keep.upd | apply KeepA.done
      | apply KeepA.accept | apply KeepA.defer | apply KeepA.ongoing | dsimp only | split

theorem execNetVlan_keep (e : Stim) (r : Req) (s : State) : KeepO (s.advance e) (execNetVlan e r s) := 
  submit_row fun c _ hs => netVlanSpec_keep c hs

theorem netEtypeSpec_keep {b0 : State} (c : Cmd) {s : State} (hs : Keep b0 s) : KeepA b0 (netEtypeSpec.exec c s) := by
  unfold netEtypeSpec
  with_reducible
    repeat' first
      | assumption | intro _ | apply Ans.okay_keep | fail_if_no_progress apply Keep.upd | apply KeepA.done
      | apply KeepA.accept | apply KeepA.defer | apply KeepA.ongoing | dsimp only | split

theorem execNetEtype_keep (e : Stim) (r : Req) (s : State) : KeepO (s.advance e) (execNetEtype e r s) := 
  submit_row fun c _ hs => netEtypeSpec_keep c hs

theorem fdbDrop_keep {b0 : State} (mac : Nat) (vid : Nat) {s : State} (hs : Keep b0 s) :
    Keep b0 (fdbDrop mac vid s) := by
  unfold fdbDrop
  with_reducible
    repeat' first
      | assumption | intro _ | fail_if_no_progress apply Keep.upd | dsimp only | split

theorem fdbPut_keep {b0 : State} (x : FdbEntry) {s t : State} (hs : Keep b0 s) (ht : fdbPut x s = some t) : Keep b0 t := by
  have h1 := fdbDrop_keep x.mac x.vid hs
  unfold fdbPut at ht
  dsimp only at ht
  split at ht
  · cases ht
    exact Keep.upd h1
  · split at ht
    · cases ht
      exact Keep.upd (fdbDrop_keep _ _ h1)
    · cases ht

theorem netFdbAddSpec_keep {b0 : State} (c : Cmd) {s : State} (hs : Keep b0 s) :
    KeepA b0 (netFdbAddSpec.exec c s) := by
  unfold netFdbAddSpec
  with_reducible
    repeat' first
      | assumption | intro _ | apply Ans.okay_keep | apply Ans.fail_keep
      | exact fdbPut_keep _ (by assumption) (by assumption) | fail_if_no_progress apply Keep.upd | apply KeepA.done
      | apply KeepA.accept | apply KeepA.defer | apply KeepA.ongoing | dsimp only | split

theorem execNetFdbAdd_keep (e : Stim) (r : Req) (s : State) : KeepO (s.advance e) (execNetFdbAdd e r s) := 
  submit_row fun c _ hs => netFdbAddSpec_keep c hs

theorem netFdbDelSpec_keep {b0 : State} (c : Cmd) {s : State} (hs : Keep b0 s) :
    KeepA b0 (netFdbDelSpec.exec c s) := by
  unfold netFdbDelSpec
  with_reducible
    repeat' first
      | assumption | intro _ | apply Ans.okay_keep | apply Ans.fail_keep | apply fdbDrop_keep
      | fail_if_no_progress apply Keep.upd | apply KeepA.done | apply KeepA.accept | apply KeepA.defer
      | apply KeepA.ongoing | dsimp only | split

theorem execNetFdbDel_keep (e : Stim) (r : Req) (s : State) : KeepO (s.advance e) (execNetFdbDel e r s) := 
  submit_row fun c _ hs => netFdbDelSpec_keep c hs

theorem netFdbFlushSpec_keep {b0 : State} (c : Cmd) {s : State} (hs : Keep b0 s) :
    KeepA b0 (netFdbFlushSpec.exec c s) := by
  unfold netFdbFlushSpec
  with_reducible
    repeat' first
      | assumption | intro _ | fail_if_no_progress apply Keep.upd | apply KeepA.done | apply KeepA.accept
      | apply KeepA.defer | apply KeepA.ongoing | dsimp only | split

theorem execNetFdbFlush_keep (e : Stim) (r : Req) (s : State) : KeepO (s.advance e) (execNetFdbFlush e r s) := 
  submit_row fun c _ hs => netFdbFlushSpec_keep c hs

theorem netFdbLookupSpec_keep {b0 : State} (c : Cmd) {s : State} (hs : Keep b0 s) :
    KeepA b0 (netFdbLookupSpec.exec c s) := by
  unfold netFdbLookupSpec
  with_reducible
    repeat' first
      | assumption | intro _ | fail_if_no_progress apply Keep.upd | apply KeepA.done | apply KeepA.accept
      | apply KeepA.defer | apply KeepA.ongoing | dsimp only | split

theorem execNetFdbLookup_keep (e : Stim) (r : Req) (s : State) : KeepO (s.advance e) (execNetFdbLookup e r s) := 
  submit_row fun c _ hs => netFdbLookupSpec_keep c hs

theorem netFdbAgeSpec_keep {b0 : State} (c : Cmd) {s : State} (hs : Keep b0 s) :
    KeepA b0 (netFdbAgeSpec.exec c s) := by
  unfold netFdbAgeSpec
  with_reducible
    repeat' first
      | assumption | intro _ | apply Ans.okay_keep | fail_if_no_progress apply Keep.upd | apply KeepA.done
      | apply KeepA.accept | apply KeepA.defer | apply KeepA.ongoing | dsimp only | split

theorem execNetFdbAge_keep (e : Stim) (r : Req) (s : State) : KeepO (s.advance e) (execNetFdbAge e r s) := 
  submit_row fun c _ hs => netFdbAgeSpec_keep c hs

theorem execFdbAgeing_keep (e : Stim) (mac : Nat) (vid : Nat) (s : State) :
    KeepO (s.advance e) (execFdbAgeing e mac vid s) := by
  unfold execFdbAgeing
  apply event_keep
  generalize s.advance e = b0
  intro t ht
  with_reducible
    repeat' first
      | assumption | intro _ | apply fdbDrop_keep | fail_if_no_progress apply Keep.upd | dsimp only | split

theorem netPortStatusSpec_keep {b0 : State} (c : Cmd) {s : State} (hs : Keep b0 s) :
    KeepA b0 (netPortStatusSpec.exec c s) := by
  unfold netPortStatusSpec
  with_reducible
    repeat' first
      | assumption | intro _ | fail_if_no_progress apply Keep.upd | apply KeepA.done | apply KeepA.accept
      | apply KeepA.defer | apply KeepA.ongoing | dsimp only | split

theorem execNetPortStatus_keep (e : Stim) (r : Req) (s : State) : KeepO (s.advance e) (execNetPortStatus e r s) := 
  submit_row fun c _ hs => netPortStatusSpec_keep c hs

theorem netCountersSpec_keep {b0 : State} (c : Cmd) {s : State} (hs : Keep b0 s) :
    KeepA b0 (netCountersSpec.exec c s) := by
  unfold netCountersSpec
  with_reducible
    repeat' first
      | assumption | intro _ | apply State.setSp_keep | fail_if_no_progress apply Keep.upd | apply KeepA.done
      | apply KeepA.accept | apply KeepA.defer | apply KeepA.ongoing | dsimp only | split

theorem execNetCounters_keep (e : Stim) (r : Req) (s : State) : KeepO (s.advance e) (execNetCounters e r s) := 
  submit_row fun c _ hs => netCountersSpec_keep c hs

theorem netBufferSpec_keep {b0 : State} (c : Cmd) {s : State} (hs : Keep b0 s) :
    KeepA b0 (netBufferSpec.exec c s) := by
  unfold netBufferSpec
  with_reducible
    repeat' first
      | assumption | intro _ | fail_if_no_progress apply Keep.upd | apply Keep.foldl | apply KeepA.done
      | apply KeepA.accept | apply KeepA.defer | apply KeepA.ongoing | dsimp only | split

theorem execNetBuffer_keep (e : Stim) (r : Req) (s : State) : KeepO (s.advance e) (execNetBuffer e r s) := 
  submit_row fun c _ hs => netBufferSpec_keep c hs

theorem netLink_keep {b0 : State} (p : Nat) (ev : Nat) (flushed : Nat) {s : State} (hs : Keep b0 s) :
    Keep b0 (netLink p ev flushed s) := by
  unfold netLink
  with_reducible
    repeat' first
      | assumption | intro _ | apply noticeAll_keep | fail_if_no_progress apply Keep.upd | dsimp only | split

theorem flushPort_keep {b0 : State} (p : Nat) {s : State} (hs : Keep b0 s) : Keep b0 ((flushPort p s).1) := by
  unfold flushPort
  with_reducible
    repeat' first
      | assumption | intro _ | apply State.setSp_keep | apply dropCopy_keep | apply foldCredits_keep
      | fail_if_no_progress apply Keep.upd | apply Keep.foldl | dsimp only | split

theorem holdEnds_keep {b0 : State} (p : Nat) {s : State} (hs : Keep b0 s) : Keep b0 (holdEnds p s) := by
  unfold holdEnds
  with_reducible
    repeat' first
      | assumption | intro _ | apply State.setSp_keep | apply netLink_keep | apply flushPort_keep
      | fail_if_no_progress apply Keep.upd | dsimp only | split

theorem cutSending_keep {b0 : State} (p : Nat) {s : State} (hs : Keep b0 s) : Keep b0 (cutSending p s) := by
  unfold cutSending
  with_reducible
    repeat' first
      | assumption | intro _ | apply State.setSp_keep | apply dropCopy_keep | apply foldCredits_keep
      | fail_if_no_progress apply Keep.upd | dsimp only | split

theorem execLinkDown_keep (e : Stim) (port : Nat) (s : State) : KeepO (s.advance e) (execLinkDown e port s) := by
  unfold execLinkDown
  apply event_keep
  generalize s.advance e = b0
  intro t ht
  with_reducible
    repeat' first
      | assumption | intro _ | apply State.setSp_keep | apply netLink_keep | apply holdEnds_keep
      | apply cutSending_keep | fail_if_no_progress apply Keep.upd | dsimp only | split

theorem execLinkUp_keep (e : Stim) (port : Nat) (s : State) : KeepO (s.advance e) (execLinkUp e port s) := by
  unfold execLinkUp
  apply event_keep
  generalize s.advance e = b0
  intro t ht
  with_reducible
    repeat' first
      | assumption | intro _ | apply State.setSp_keep | apply netLink_keep | apply holdEnds_keep
      | fail_if_no_progress apply Keep.upd | dsimp only | split

theorem settleHolds_keep {b0 : State} {s : State} (hs : Keep b0 s) : Keep b0 (settleHolds s) := by
  unfold settleHolds
  with_reducible
    repeat' first
      | assumption | intro _ | apply holdEnds_keep | fail_if_no_progress apply Keep.upd | apply Keep.foldl
      | dsimp only | split

theorem execHoldExpire_keep (e : Stim) (port : Nat) (s : State) : KeepO (s.advance e) (execHoldExpire e port s) := by
  unfold execHoldExpire
  apply event_keep
  generalize s.advance e = b0
  intro t ht
  with_reducible
    repeat' first
      | assumption | intro _ | apply holdEnds_keep | fail_if_no_progress apply Keep.upd | dsimp only | split

theorem portGated_keep {b0 : State} (p : Nat) {s : State} (hs : Keep b0 s) : Keep b0 (portGated p s) := by
  unfold portGated
  with_reducible
    repeat' first
      | assumption | intro _ | apply State.setSp_keep | apply flushPort_keep | apply cutSending_keep
      | fail_if_no_progress apply Keep.upd | dsimp only | split

/-! ### Switch -/

theorem State.setMacp_keep {b0 : State} (p : Nat) (x : MacPort) {s : State} (hs : Keep b0 s) :
    Keep b0 (State.setMacp s p x) := by
  unfold State.setMacp
  with_reducible
    repeat' first
      | assumption | intro _ | fail_if_no_progress apply Keep.upd | dsimp only | split

theorem countMac_keep {b0 : State} (p : Nat) (j : Nat) {s : State} (hs : Keep b0 s) : Keep b0 (countMac p j s) := by
  unfold countMac
  with_reducible
    repeat' first
      | assumption | intro _ | apply State.setMacp_keep | fail_if_no_progress apply Keep.upd | dsimp only | split

theorem macIn_keep {b0 : State} (rx : RxFrame) {s : State} (hs : Keep b0 s) : Keep b0 ((macIn rx s).2) := by
  unfold macIn
  with_reducible
    repeat' first
      | assumption | intro _ | apply countMac_keep | fail_if_no_progress apply Keep.upd | dsimp only | split

theorem State.setStrm_keep {b0 : State} (sid : Nat) (x : Stream) {s : State} (hs : Keep b0 s) :
    Keep b0 (State.setStrm s sid x) := by
  unfold State.setStrm
  with_reducible
    repeat' first
      | assumption | intro _ | fail_if_no_progress apply Keep.upd | dsimp only | split

theorem recoveryReset_keep {b0 : State} (sid : Nat) {s : State} (hs : Keep b0 s) : Keep b0 (recoveryReset sid s) := by
  unfold recoveryReset
  with_reducible
    repeat' first
      | assumption | intro _ | apply State.setStrm_keep | fail_if_no_progress apply Keep.upd | dsimp only | split

theorem stageFrer_keep {b0 : State} (sid : Nat) (b : List Word) (p : Passed) {s0 : State} (hs0 : Keep b0 s0) :
    Keep b0 ((stageFrer sid b p s0).2) := by
  unfold stageFrer
  with_reducible
    repeat' first
      | assumption | intro _ | apply State.setStrm_keep | apply recoveryReset_keep
      | fail_if_no_progress apply Keep.upd | dsimp only | split

theorem stageMeter_keep {b0 : State} (sid : Nat) (b : List Word) (len : Nat) (p : Passed) {s : State} (hs : Keep b0 s) :
    Keep b0 ((stageMeter sid b len p s).2) := by
  cases h1 : stFlag b 1 with
  | false => simpa [stageMeter, h1] using stageFrer_keep sid b p hs
  | true =>
    rcases hm : meter b len s.clk (s.strm sid) with ⟨n, y⟩
    have hy : ∀ y, Keep b0 (s.setStrm sid y) := fun y => State.setStrm_keep sid y hs
    match n, hm with
    | 0, hm => simpa [stageMeter, h1, hm] using stageFrer_keep sid b p (hy y)
    | 1, hm =>
      cases h3 : stFlag b 3 with
      | true => simpa [stageMeter, h1, hm, h3] using hy _
      | false => simpa [stageMeter, h1, hm, h3] using stageFrer_keep sid b _ (hy _)
    | n + 2, hm => simpa [stageMeter, h1, hm] using hy _

theorem stages_keep {b0 : State} (iport : Nat) (vid : Nat) (tc : Nat) (f : EthFrame) {s : State} (hs : Keep b0 s) :
    Keep b0 ((stages iport vid tc f s).2) := by
  unfold stages
  with_reducible
    repeat' first
      | assumption | intro _ | apply notice_keep | apply State.setStrm_keep | apply stageMeter_keep
      | fail_if_no_progress apply Keep.upd | dsimp only | split

theorem admitFrame_keep {b0 : State} (f : Stored) (dests : List (Nat × Nat)) {s : State} (hs : Keep b0 s) :
    Keep b0 ((admitFrame f dests s).1) := by
  unfold admitFrame
  with_reducible
    repeat' first
      | assumption | intro _ | apply countPort_keep | apply refuse_keep | fail_if_no_progress apply Keep.upd
      | apply Keep.foldl | dsimp only | split

theorem learn_keep {b0 : State} (p vid mac : Nat) {s : State} (hs : Keep b0 s) : Keep b0 (learn p vid mac s) := by
  have hd : ∀ x : FdbEntry, Keep b0 ((fdbPut x s).getD s) := fun x => by
    cases h : fdbPut x s with
    | none => exact hs
    | some t => exact fdbPut_keep x hs h
  unfold learn
  split
  · exact hs
  · split
    · split
      · exact hs
      · exact hd _
    · split
      · next h => exact fdbPut_keep _ hs h
      · exact countPort_keep _ _ _ hs

theorem countIn_keep {b0 : State} (p : Nat) (f : EthFrame) {s : State} (hs : Keep b0 s) :
    Keep b0 (countIn p f s) := by
  unfold countIn
  with_reducible
    repeat' first
      | assumption | intro _ | apply countPort_keep | fail_if_no_progress apply Keep.upd | dsimp only | split

theorem forwardTo_keep {b0 : State} (aim : Option Aim) (iport : Nat) (src : Option Nat) (tsid : Option Nat) (vid0 : Nat) (pcp0 : Nat) (f : EthFrame) {s : State} (hs : Keep b0 s) :
    Keep b0 ((forwardTo aim iport src tsid vid0 pcp0 f s).1) := by
  unfold forwardTo
  with_reducible
    repeat' first
      | assumption | intro _
      | (extract_lets +onlyGivenNames x; first
        | (refine (fun hx : Keep b0 x => ?_) ?_; (on_goal 1 => clear_value x); on_goal 2 => (show Keep b0 _; subst x))
        | (refine (fun hx : Keep b0 x.2 => ?_) ?_; (on_goal 1 => clear_value x); on_goal 2 => (show Keep b0 (Prod.snd _); subst x))
        | (refine (fun hx : Keep b0 x.1 => ?_) ?_; (on_goal 1 => clear_value x); on_goal 2 => (show Keep b0 (Prod.fst _); subst x))
        | (refine (fun hx : KeepA b0 x => ?_) ?_; (on_goal 1 => clear_value x); on_goal 2 => (show KeepA b0 _; subst x))
        | (refine (fun hx : ∀ a, Keep b0 (x a) => ?_) ?_; (on_goal 1 => clear_value x); on_goal 2 => (subst x; intro _; dsimp -zeta only))
        | (refine (fun hx : ∀ t, Keep b0 t → Keep b0 (x t) => ?_) ?_; (on_goal 1 => clear_value x); on_goal 2 => (subst x; intro _ _; dsimp -zeta only))
        | (refine (fun hx : ∀ a t, Keep b0 t → Keep b0 (x a t) => ?_) ?_; (on_goal 1 => clear_value x); on_goal 2 => (subst x; intro _ _ _; dsimp -zeta only))
        | (refine (fun hx : ∀ a b t, Keep b0 t → Keep b0 (x a b t) => ?_) ?_; (on_goal 1 => clear_value x); on_goal 2 => (subst x; intro _ _ _ _; dsimp -zeta only))
        | clear_value x)
      | apply countPort_keep | apply State.setStrm_keep | apply stages_keep | apply admitFrame_keep | apply learn_keep
      | fail_if_no_progress apply Keep.upd | dsimp -zeta only | split | refine KeepA.ofDone (by assumption) ?_
      | refine KeepA.ofAccept (by assumption) ?_ | refine KeepA.ofDefer (by assumption) ?_
      | refine KeepA.ofOngoing (by assumption) ?_ | refine Keep.ofSnd (by assumption) ?_
      | refine Keep.ofFst (by assumption) ?_ | dsimp only | simp only [id_eq]

theorem forward_keep {b0 : State} (iport : Nat) (src : Option Nat) (tsid : Option Nat) (vid0 : Nat) (pcp0 : Nat) (f : EthFrame) {s : State} (hs : Keep b0 s) :
    Keep b0 ((forward iport src tsid vid0 pcp0 f s).1) := by
  unfold forward
  with_reducible
    repeat' first
      | assumption | intro _ | apply forwardTo_keep | fail_if_no_progress apply Keep.upd | dsimp only | split

theorem tellerSend_keep {b0 : State} (aim : Aim) (pcp : Nat) (f : EthFrame) {s : State} (hs : Keep b0 s) :
    Keep b0 (tellerSend aim pcp f s) := by
  unfold tellerSend
  with_reducible
    repeat' first
      | assumption | intro _ | apply countIn_keep | apply forwardTo_keep | fail_if_no_progress apply Keep.upd
      | dsimp only | split

theorem receive_keep {b0 : State} (rx : RxFrame) {s : State} (hs : Keep b0 s) : Keep b0 (receive rx s) := by
  unfold receive
  with_reducible
    repeat' first
      | assumption | intro _
      | (extract_lets +onlyGivenNames x; first
        | (refine (fun hx : Keep b0 x => ?_) ?_; (on_goal 1 => clear_value x); on_goal 2 => (show Keep b0 _; subst x))
        | (refine (fun hx : Keep b0 x.2 => ?_) ?_; (on_goal 1 => clear_value x); on_goal 2 => (show Keep b0 (Prod.snd _); subst x))
        | (refine (fun hx : Keep b0 x.1 => ?_) ?_; (on_goal 1 => clear_value x); on_goal 2 => (show Keep b0 (Prod.fst _); subst x))
        | (refine (fun hx : KeepA b0 x => ?_) ?_; (on_goal 1 => clear_value x); on_goal 2 => (show KeepA b0 _; subst x))
        | (refine (fun hx : ∀ a, Keep b0 (x a) => ?_) ?_; (on_goal 1 => clear_value x); on_goal 2 => (subst x; intro _; dsimp -zeta only))
        | (refine (fun hx : ∀ t, Keep b0 t → Keep b0 (x t) => ?_) ?_; (on_goal 1 => clear_value x); on_goal 2 => (subst x; intro _ _; dsimp -zeta only))
        | (refine (fun hx : ∀ a t, Keep b0 t → Keep b0 (x a t) => ?_) ?_; (on_goal 1 => clear_value x); on_goal 2 => (subst x; intro _ _ _; dsimp -zeta only))
        | (refine (fun hx : ∀ a b t, Keep b0 t → Keep b0 (x a b t) => ?_) ?_; (on_goal 1 => clear_value x); on_goal 2 => (subst x; intro _ _ _ _; dsimp -zeta only))
        | clear_value x)
      | apply countPort_keep | apply macIn_keep | apply countIn_keep | apply forward_keep
      | fail_if_no_progress apply Keep.upd | dsimp -zeta only | split | refine KeepA.ofDone (by assumption) ?_
      | refine KeepA.ofAccept (by assumption) ?_ | refine KeepA.ofDefer (by assumption) ?_
      | refine KeepA.ofOngoing (by assumption) ?_ | refine Keep.ofSnd (by assumption) ?_
      | refine Keep.ofFst (by assumption) ?_ | dsimp only | simp only [id_eq]

theorem receiveAll_keep {b0 : State} (fs : List RxFrame) {s : State} (hs : Keep b0 s) :
    Keep b0 (receiveAll fs s) := by
  unfold receiveAll
  with_reducible
    repeat' first
      | assumption | intro _ | apply receive_keep | fail_if_no_progress apply Keep.upd | apply Keep.foldl | dsimp only
      | split

theorem queueFrame_keep {b0 : State} (id : Nat) {s : State} (hs : Keep b0 s) : Keep b0 (queueFrame id s) := by
  unfold queueFrame
  with_reducible
    repeat' first
      | assumption | intro _ | apply State.setSp_keep | apply setStored_keep | apply dropCopy_keep
      | apply foldCredits_keep | fail_if_no_progress apply Keep.upd | apply Keep.foldl | dsimp only | split

theorem stampTx_keep {b0 : State} (p : Nat) (f : Stored) {s : State} (hs : Keep b0 s) : Keep b0 (stampTx p f s) := by
  unfold stampTx
  with_reducible
    repeat' first
      | assumption | intro _ | apply notice_keep | fail_if_no_progress apply Keep.upd | dsimp only | split

theorem popHead_keep {b0 : State} (p : Nat) (tc : Nat) {s : State} (hs : Keep b0 s) : Keep b0 (popHead p tc s) := by
  unfold popHead
  with_reducible
    repeat' first
      | assumption | intro _ | apply State.setSp_keep | fail_if_no_progress apply Keep.upd | dsimp only | split

theorem selectNext_keep {b0 : State} (p : Nat) (x0 : Nat) {x1 : State} (hx1 : Keep b0 x1) :
    Keep b0 (selectNext p x0 x1) := by
  induction x0 generalizing x1 with
  | zero =>
    unfold selectNext
    with_reducible
      repeat' first
        | assumption | intro _ | apply State.setSp_keep | apply releaseCopy_keep | apply dropCopy_keep
        | apply countMac_keep | apply stampTx_keep | apply popHead_keep | fail_if_no_progress apply Keep.upd
        | dsimp only | split
  | succ n ih =>
    unfold selectNext
    with_reducible
      repeat' first
        | assumption | intro _ | apply ih | apply State.setSp_keep | apply releaseCopy_keep | apply dropCopy_keep
        | apply countMac_keep | apply stampTx_keep | apply popHead_keep | fail_if_no_progress apply Keep.upd
        | dsimp only | split

theorem deliverVnic_keep {b0 : State} (vnic : Nat) (stamp : Nat) (bs : List Byte) {s : State} (hs : Keep b0 s) :
    Keep b0 ((deliverVnic vnic stamp bs s).1) := by
  unfold deliverVnic
  with_reducible
    repeat' first
      | assumption | intro _ | apply countPort_keep | apply complete_keep | apply giveFrame_keep
      | fail_if_no_progress apply Keep.upd | apply Keep.foldl | dsimp only | split

theorem nextPn_keep {b0 : State} (p : Nat) (an : Nat) {s : State} (hs : Keep b0 s) : Keep b0 (nextPn p an s) := by
  unfold nextPn
  with_reducible
    repeat' first
      | assumption | intro _ | apply notice_keep | fail_if_no_progress apply Keep.upd | dsimp only | split

theorem deliverAll_keep {b0 : State} (f : Stored) (g : EthFrame) {s : State} (hs : Keep b0 s) :
    Keep b0 ((deliverAll f g s).1) := by
  unfold deliverAll
  with_reducible
    repeat' first
      | assumption | intro _
      | (extract_lets +onlyGivenNames x; first
        | (refine (fun hx : Keep b0 x => ?_) ?_; (on_goal 1 => clear_value x); on_goal 2 => (show Keep b0 _; subst x))
        | (refine (fun hx : Keep b0 x.2 => ?_) ?_; (on_goal 1 => clear_value x); on_goal 2 => (show Keep b0 (Prod.snd _); subst x))
        | (refine (fun hx : Keep b0 x.1 => ?_) ?_; (on_goal 1 => clear_value x); on_goal 2 => (show Keep b0 (Prod.fst _); subst x))
        | (refine (fun hx : KeepA b0 x => ?_) ?_; (on_goal 1 => clear_value x); on_goal 2 => (show KeepA b0 _; subst x))
        | (refine (fun hx : ∀ a, Keep b0 (x a) => ?_) ?_; (on_goal 1 => clear_value x); on_goal 2 => (subst x; intro _; dsimp -zeta only))
        | (refine (fun hx : ∀ t, Keep b0 t → Keep b0 (x t) => ?_) ?_; (on_goal 1 => clear_value x); on_goal 2 => (subst x; intro _ _; dsimp -zeta only))
        | (refine (fun hx : ∀ a t, Keep b0 t → Keep b0 (x a t) => ?_) ?_; (on_goal 1 => clear_value x); on_goal 2 => (subst x; intro _ _ _; dsimp -zeta only))
        | (refine (fun hx : ∀ a b t, Keep b0 t → Keep b0 (x a b t) => ?_) ?_; (on_goal 1 => clear_value x); on_goal 2 => (subst x; intro _ _ _ _; dsimp -zeta only))
        | clear_value x)
      | apply countPort_keep | apply deliverVnic_keep | fail_if_no_progress apply Keep.upd | apply Keep.foldl
      | apply Keep.foldlFst | apply Keep.foldlSnd | dsimp -zeta only | split | refine KeepA.ofDone (by assumption) ?_
      | refine KeepA.ofAccept (by assumption) ?_ | refine KeepA.ofDefer (by assumption) ?_
      | refine KeepA.ofOngoing (by assumption) ?_ | refine Keep.ofSnd (by assumption) ?_
      | refine Keep.ofFst (by assumption) ?_ | dsimp only | simp only [id_eq]

theorem endSend_keep {b0 : State} (p : Nat) (t : Sending) (f : Stored) {s : State} (hs : Keep b0 s) :
    Keep b0 (endSend p t f s) := by
  unfold endSend
  with_reducible
    repeat' first
      | assumption | intro _ | apply State.setSp_keep | apply countPort_keep | apply releaseCopy_keep
      | apply gptpIn_keep | apply countMac_keep | apply nextPn_keep | apply deliverAll_keep
      | fail_if_no_progress apply Keep.upd | dsimp only | split

theorem execAgedHeadCheck_keep (e : Stim) (port : Nat) (s : State) :
    KeepO (s.advance e) (execAgedHeadCheck e port s) := by
  unfold execAgedHeadCheck
  apply event_keep
  generalize s.advance e = b0
  intro t ht
  with_reducible
    repeat' first
      | assumption | intro _ | apply dropCopy_keep | apply popHead_keep | fail_if_no_progress apply Keep.upd
      | apply Keep.foldl | dsimp only | split

/-! ### Tsn -/

theorem setSet_keep {b0 : State} (o : Option ChangeSet) {s : State} (hs : Keep b0 s) : Keep b0 (setSet o s) := by
  unfold setSet
  with_reducible
    repeat' first
      | assumption | intro _ | fail_if_no_progress apply Keep.upd | dsimp only | split

theorem tsnCsOpenSpec_keep {b0 : State} (c : Cmd) {s : State} (hs : Keep b0 s) :
    KeepA b0 (tsnCsOpenSpec.exec c s) := by
  unfold tsnCsOpenSpec
  with_reducible
    repeat' first
      | assumption | intro _ | apply Ans.fail_keep | apply setSet_keep | fail_if_no_progress apply Keep.upd
      | apply KeepA.done | apply KeepA.accept | apply KeepA.defer | apply KeepA.ongoing | dsimp only | split

theorem execTsnCsOpen_keep (e : Stim) (r : Req) (s : State) : KeepO (s.advance e) (execTsnCsOpen e r s) := 
  submit_row fun c _ hs => tsnCsOpenSpec_keep c hs

theorem tsnCsCommitSpec_keep {b0 : State} (c : Cmd) {s : State} (hs : Keep b0 s) :
    KeepA b0 (tsnCsCommitSpec.exec c s) := by
  unfold tsnCsCommitSpec
  with_reducible
    repeat' first
      | assumption | intro _ | apply Ans.fail_keep | apply setSet_keep | fail_if_no_progress apply Keep.upd
      | apply KeepA.done | apply KeepA.accept | apply KeepA.defer | apply KeepA.ongoing | dsimp only | split

theorem execTsnCsCommit_keep (e : Stim) (r : Req) (s : State) : KeepO (s.advance e) (execTsnCsCommit e r s) := 
  submit_row fun c _ hs => tsnCsCommitSpec_keep c hs

theorem tsnCsAbortSpec_keep {b0 : State} (c : Cmd) {s : State} (hs : Keep b0 s) :
    KeepA b0 (tsnCsAbortSpec.exec c s) := by
  unfold tsnCsAbortSpec
  with_reducible
    repeat' first
      | assumption | intro _ | apply Ans.okay_keep | apply Ans.fail_keep | apply setSet_keep
      | fail_if_no_progress apply Keep.upd | apply KeepA.done | apply KeepA.accept | apply KeepA.defer
      | apply KeepA.ongoing | dsimp only | split

theorem execTsnCsAbort_keep (e : Stim) (r : Req) (s : State) : KeepO (s.advance e) (execTsnCsAbort e r s) := 
  submit_row fun c _ hs => tsnCsAbortSpec_keep c hs

theorem stage_keep {b0 : State} (f : ChangeSet → ChangeSet) {s : State} (hs : Keep b0 s) : KeepA b0 (stage f s) := by
  unfold stage
  with_reducible
    repeat' first
      | assumption | intro _ | apply Ans.okay_keep | apply Ans.fail_keep | apply setSet_keep
      | fail_if_no_progress apply Keep.upd | apply KeepA.done | apply KeepA.accept | apply KeepA.defer
      | apply KeepA.ongoing | dsimp only | split

theorem startCredits_keep {b0 : State} (p : Nat) (t : TsnTab) {s : State} (hs : Keep b0 s) :
    Keep b0 (startCredits p t s) := by
  unfold startCredits
  with_reducible
    repeat' first
      | assumption | intro _ | apply State.setSp_keep | fail_if_no_progress apply Keep.upd | apply Keep.foldl
      | dsimp only | split

theorem switchSet_keep {b0 : State} (cs : ChangeSet) {s : State} (hs : Keep b0 s) : Keep b0 (switchSet cs s) := by
  unfold switchSet
  with_reducible
    repeat' first
      | assumption | intro _ | apply foldCredits_keep | apply State.setStrm_keep | apply startCredits_keep
      | fail_if_no_progress apply Keep.upd | apply Keep.foldl | dsimp only | split

theorem setSwitch_keep {b0 : State} {s : State} (hs : Keep b0 s) : Keep b0 (setSwitch s) := by
  unfold setSwitch
  with_reducible
    repeat' first
      | assumption | intro _ | apply switchSet_keep | fail_if_no_progress apply Keep.upd | dsimp only | split

theorem execChangeSetSwitch_keep (e : Stim) (s : State) : KeepO (s.advance e) (execChangeSetSwitch e s) := by
  unfold execChangeSetSwitch
  apply event_keep
  generalize s.advance e = b0
  intro t ht
  with_reducible
    repeat' first
      | assumption | intro _ | apply setSwitch_keep | fail_if_no_progress apply Keep.upd | dsimp only | split

theorem foldKey_keep {b0 : State} (k : Nat) {s : State} (hs : Keep b0 s) : Keep b0 (foldKey k s) := by
  unfold foldKey
  with_reducible
    repeat' first
      | assumption | intro _ | apply foldCredits_keep | fail_if_no_progress apply Keep.upd | dsimp only | split

theorem gateSwitch_keep {b0 : State} (k : Nat) {s : State} (hs : Keep b0 s) : Keep b0 (gateSwitch k s) := by
  unfold gateSwitch
  with_reducible
    repeat' first
      | assumption | intro _ | apply foldKey_keep | fail_if_no_progress apply Keep.upd | dsimp only | split

theorem execGateListSwitch_keep (e : Stim) (gk : GateRef) (s : State) :
    KeepO (s.advance e) (execGateListSwitch e gk s) := by
  unfold execGateListSwitch
  apply event_keep
  generalize s.advance e = b0
  intro t ht
  with_reducible
    repeat' first
      | assumption | intro _ | apply gateSwitch_keep | fail_if_no_progress apply Keep.upd | dsimp only | split

theorem settleNet_keep {b0 : State} {s : State} (hs : Keep b0 s) : Keep b0 (settleNet s) := by
  unfold settleNet
  with_reducible
    repeat' first
      | assumption | intro _ | apply settleHolds_keep | apply setSwitch_keep | apply gateSwitch_keep
      | fail_if_no_progress apply Keep.upd | apply Keep.foldl | dsimp only | split

theorem execFrameReceived_keep (e : Stim) (fs : List RxFrame) (s : State) :
    KeepO (s.advance e) (execFrameReceived e fs s) := by
  unfold execFrameReceived
  apply event_keep
  generalize s.advance e = b0
  intro t ht
  with_reducible
    repeat' first
      | assumption | intro _ | apply receiveAll_keep | apply settleNet_keep | fail_if_no_progress apply Keep.upd
      | dsimp only | split

theorem execFrameQueued_keep (e : Stim) (id : Nat) (s : State) : KeepO (s.advance e) (execFrameQueued e id s) := by
  unfold execFrameQueued
  apply event_keep
  generalize s.advance e = b0
  intro t ht
  with_reducible
    repeat' first
      | assumption | intro _ | apply queueFrame_keep | apply settleNet_keep | fail_if_no_progress apply Keep.upd
      | dsimp only | split

theorem execTransmissionStart_keep (e : Stim) (port : Nat) (s : State) :
    KeepO (s.advance e) (execTransmissionStart e port s) := by
  unfold execTransmissionStart
  apply event_keep
  generalize s.advance e = b0
  intro t ht
  with_reducible
    repeat' first
      | assumption | intro _ | apply foldCredits_keep | apply selectNext_keep | apply settleNet_keep
      | fail_if_no_progress apply Keep.upd | dsimp only | split

theorem execChangeSetComplete_keep (e : Stim) (s : State) : KeepO (s.advance e) (execChangeSetComplete e s) := by
  unfold execChangeSetComplete
  apply event_keep
  generalize s.advance e = b0
  intro t ht
  with_reducible
    repeat' first
      | assumption | intro _ | apply finishCmd_keep | apply setSet_keep | fail_if_no_progress apply Keep.upd
      | dsimp only | split

theorem execGateEntryChange_keep (e : Stim) (gk : GateRef) (s : State) :
    KeepO (s.advance e) (execGateEntryChange e gk s) := by
  unfold execGateEntryChange
  apply event_keep
  generalize s.advance e = b0
  intro t ht
  with_reducible
    repeat' first
      | assumption | intro _ | apply foldKey_keep | fail_if_no_progress apply Keep.upd | dsimp only | split

theorem tsnStreamSpec_keep {b0 : State} (c : Cmd) {s : State} (hs : Keep b0 s) :
    KeepA b0 (tsnStreamSpec.exec c s) := by
  unfold tsnStreamSpec
  with_reducible
    repeat' first
      | assumption | intro _ | apply stage_keep | fail_if_no_progress apply Keep.upd | apply KeepA.done
      | apply KeepA.accept | apply KeepA.defer | apply KeepA.ongoing | dsimp only | split

theorem execTsnStream_keep (e : Stim) (r : Req) (s : State) : KeepO (s.advance e) (execTsnStream e r s) := 
  submit_row fun c _ hs => tsnStreamSpec_keep c hs

theorem tsnStreamReadSpec_keep {b0 : State} (c : Cmd) {s : State} (hs : Keep b0 s) :
    KeepA b0 (tsnStreamReadSpec.exec c s) := by
  unfold tsnStreamReadSpec
  with_reducible
    repeat' first
      | assumption | intro _ | fail_if_no_progress apply Keep.upd | apply KeepA.done | apply KeepA.accept
      | apply KeepA.defer | apply KeepA.ongoing | dsimp only | split

theorem execTsnStreamRead_keep (e : Stim) (r : Req) (s : State) : KeepO (s.advance e) (execTsnStreamRead e r s) := 
  submit_row fun c _ hs => tsnStreamReadSpec_keep c hs

theorem tsnStreamStatusSpec_keep {b0 : State} (c : Cmd) {s : State} (hs : Keep b0 s) :
    KeepA b0 (tsnStreamStatusSpec.exec c s) := by
  unfold tsnStreamStatusSpec
  with_reducible
    repeat' first
      | assumption | intro _ | fail_if_no_progress apply Keep.upd | apply KeepA.done | apply KeepA.accept
      | apply KeepA.defer | apply KeepA.ongoing | dsimp only | split

theorem execTsnStreamStatus_keep (e : Stim) (r : Req) (s : State) :
    KeepO (s.advance e) (execTsnStreamStatus e r s) := 
  submit_row fun c _ hs => tsnStreamStatusSpec_keep c hs

theorem tsnStreamClearSpec_keep {b0 : State} (c : Cmd) {s : State} (hs : Keep b0 s) :
    KeepA b0 (tsnStreamClearSpec.exec c s) := by
  unfold tsnStreamClearSpec
  with_reducible
    repeat' first
      | assumption | intro _ | apply Ans.okay_keep | apply State.setStrm_keep | fail_if_no_progress apply Keep.upd
      | apply KeepA.done | apply KeepA.accept | apply KeepA.defer | apply KeepA.ongoing | dsimp only | split

theorem execTsnStreamClear_keep (e : Stim) (r : Req) (s : State) :
    KeepO (s.advance e) (execTsnStreamClear e r s) := 
  submit_row fun c _ hs => tsnStreamClearSpec_keep c hs

theorem execRecoveryReset_keep (e : Stim) (sid : Nat) (s : State) :
    KeepO (s.advance e) (execRecoveryReset e sid s) := by
  unfold execRecoveryReset
  apply event_keep
  generalize s.advance e = b0
  intro t ht
  with_reducible
    repeat' first
      | assumption | intro _ | apply recoveryReset_keep | fail_if_no_progress apply Keep.upd | dsimp only | split

theorem tsnGclSpec_keep {b0 : State} (c : Cmd) {s : State} (hs : Keep b0 s) : KeepA b0 (tsnGclSpec.exec c s) := by
  unfold tsnGclSpec
  with_reducible
    repeat' first
      | assumption | intro _ | apply stage_keep | fail_if_no_progress apply Keep.upd | apply KeepA.done
      | apply KeepA.accept | apply KeepA.defer | apply KeepA.ongoing | dsimp only | split

theorem execTsnGcl_keep (e : Stim) (r : Req) (s : State) : KeepO (s.advance e) (execTsnGcl e r s) := 
  submit_row fun c _ hs => tsnGclSpec_keep c hs

theorem tsnCbsSpec_keep {b0 : State} (c : Cmd) {s : State} (hs : Keep b0 s) : KeepA b0 (tsnCbsSpec.exec c s) := by
  unfold tsnCbsSpec
  with_reducible
    repeat' first
      | assumption | intro _ | apply stage_keep | fail_if_no_progress apply Keep.upd | apply KeepA.done
      | apply KeepA.accept | apply KeepA.defer | apply KeepA.ongoing | dsimp only | split

theorem execTsnCbs_keep (e : Stim) (r : Req) (s : State) : KeepO (s.advance e) (execTsnCbs e r s) := 
  submit_row fun c _ hs => tsnCbsSpec_keep c hs

theorem tsnPortStatusSpec_keep {b0 : State} (c : Cmd) {s : State} (hs : Keep b0 s) :
    KeepA b0 (tsnPortStatusSpec.exec c s) := by
  unfold tsnPortStatusSpec
  with_reducible
    repeat' first
      | assumption | intro _ | fail_if_no_progress apply Keep.upd | apply KeepA.done | apply KeepA.accept
      | apply KeepA.defer | apply KeepA.ongoing | dsimp only | split

theorem execTsnPortStatus_keep (e : Stim) (r : Req) (s : State) : KeepO (s.advance e) (execTsnPortStatus e r s) := 
  submit_row fun c _ hs => tsnPortStatusSpec_keep c hs

theorem tsnMacsecPortSpec_keep {b0 : State} (c : Cmd) {s : State} (hs : Keep b0 s) :
    KeepA b0 (tsnMacsecPortSpec.exec c s) := by
  unfold tsnMacsecPortSpec
  with_reducible
    repeat' first
      | assumption | intro _ | apply Ans.okay_keep | apply Ans.fail_keep | apply State.setMacp_keep
      | fail_if_no_progress apply Keep.upd | apply KeepA.done | apply KeepA.accept | apply KeepA.defer
      | apply KeepA.ongoing | dsimp only | split

theorem execTsnMacsecPort_keep (e : Stim) (r : Req) (s : State) : KeepO (s.advance e) (execTsnMacsecPort e r s) := 
  submit_row fun c _ hs => tsnMacsecPortSpec_keep c hs

theorem tsnRxscSpec_keep {b0 : State} (c : Cmd) {s : State} (hs : Keep b0 s) : KeepA b0 (tsnRxscSpec.exec c s) := by
  unfold tsnRxscSpec
  with_reducible
    repeat' first
      | assumption | intro _ | apply Ans.okay_keep | fail_if_no_progress apply Keep.upd | apply KeepA.done
      | apply KeepA.accept | apply KeepA.defer | apply KeepA.ongoing | dsimp only | split

theorem execTsnRxsc_keep (e : Stim) (r : Req) (s : State) : KeepO (s.advance e) (execTsnRxsc e r s) := 
  submit_row fun c _ hs => tsnRxscSpec_keep c hs

theorem tsnSaSpec_keep {b0 : State} (c : Cmd) {s : State} (hs : Keep b0 s) : KeepA b0 (tsnSaSpec.exec c s) := by
  unfold tsnSaSpec
  with_reducible
    repeat' first
      | assumption | intro _ | apply Ans.okay_keep | fail_if_no_progress apply Keep.upd | apply KeepA.done
      | apply KeepA.accept | apply KeepA.defer | apply KeepA.ongoing | dsimp only | split

theorem execTsnSa_keep (e : Stim) (r : Req) (s : State) : KeepO (s.advance e) (execTsnSa e r s) := 
  submit_row fun c _ hs => tsnSaSpec_keep c hs

theorem tsnTxsaSelectSpec_keep {b0 : State} (c : Cmd) {s : State} (hs : Keep b0 s) :
    KeepA b0 (tsnTxsaSelectSpec.exec c s) := by
  unfold tsnTxsaSelectSpec
  with_reducible
    repeat' first
      | assumption | intro _ | apply stage_keep | fail_if_no_progress apply Keep.upd | apply KeepA.done
      | apply KeepA.accept | apply KeepA.defer | apply KeepA.ongoing | dsimp only | split

theorem execTsnTxsaSelect_keep (e : Stim) (r : Req) (s : State) : KeepO (s.advance e) (execTsnTxsaSelect e r s) := 
  submit_row fun c _ hs => tsnTxsaSelectSpec_keep c hs

theorem tsnMacsecStatusSpec_keep {b0 : State} (c : Cmd) {s : State} (hs : Keep b0 s) :
    KeepA b0 (tsnMacsecStatusSpec.exec c s) := by
  unfold tsnMacsecStatusSpec
  with_reducible
    repeat' first
      | assumption | intro _ | fail_if_no_progress apply Keep.upd | apply KeepA.done | apply KeepA.accept
      | apply KeepA.defer | apply KeepA.ongoing | dsimp only | split

theorem execTsnMacsecStatus_keep (e : Stim) (r : Req) (s : State) :
    KeepO (s.advance e) (execTsnMacsecStatus e r s) := 
  submit_row fun c _ hs => tsnMacsecStatusSpec_keep c hs

end Sys2Proof.Machine
end

