-- ==== Sys2Proof/Laws/KeepBus.lean ====
section
/-!
SUPPORT. Keep for the buses: CAN, LIN, the gateway, network management.
-/

set_option linter.unusedTactic false
set_option linter.unreachableTactic false

namespace Sys2Proof.Machine

/-! ### Can -/

theorem storeRx_keep {b0 : State} (n : Nat) (b : Nat) (f : CanFrame) (nm : Bool) (filter : Nat) (stamp : Nat) {s : State} (hs : Keep b0 s) :
    Keep b0 (storeRx n b f nm filter stamp s) := by
  unfold storeRx
  with_reducible
    repeat' first
      | assumption | intro _ | apply State.writeMem_keep | fail_if_no_progress apply Keep.upd | dsimp only | split

theorem canNotice_keep {b0 : State} (n : Nat) (ncode : Nat) (det : List Word) {s : State} (hs : Keep b0 s) :
    Keep b0 (canNotice n ncode det s) := by
  unfold canNotice
  with_reducible
    repeat' first
      | assumption | intro _ | apply noticeAll_keep | fail_if_no_progress apply Keep.upd | dsimp only | split

theorem setFlag_keep {b0 : State} (n : Nat) (i : Nat) {s : State} (hs : Keep b0 s) : Keep b0 (setFlag n i s) := by
  unfold setFlag
  with_reducible
    repeat' first
      | assumption | intro _ | apply State.setCan_keep | fail_if_no_progress apply Keep.upd | dsimp only | split

theorem canIrq_keep {b0 : State} (n : Nat) {s : State} (hs : Keep b0 s) : Keep b0 (canIrq n s) := by
  unfold canIrq
  with_reducible
    repeat' first
      | assumption | intro _ | apply deliver_keep | fail_if_no_progress apply Keep.upd | dsimp only | split

theorem txEvent_keep {b0 : State} (n : Nat) (b : Nat) (status : Nat) (stamp : Nat) {s : State} (hs : Keep b0 s) :
    Keep b0 (txEvent n b status stamp s) := by
  unfold txEvent
  with_reducible
    repeat' first
      | assumption | intro _ | apply State.setCan_keep | apply canIrq_keep | fail_if_no_progress apply Keep.upd
      | dsimp only | split

theorem priDone_keep {b0 : State} (n : Nat) (p : Nat) {s : State} (hs : Keep b0 s) : Keep b0 (priDone n p s) := by
  unfold priDone
  with_reducible
    repeat' first
      | assumption | intro _ | apply State.setCan_keep | apply canIrq_keep | fail_if_no_progress apply Keep.upd
      | dsimp only | split

theorem fifoNext_keep {b0 : State} (n : Nat) {s : State} (hs : Keep b0 s) : Keep b0 (fifoNext n s) := by
  unfold fifoNext
  with_reducible
    repeat' first
      | assumption | intro _ | apply State.setCan_keep | fail_if_no_progress apply Keep.upd | dsimp only | split

theorem lockExpire_keep {b0 : State} (n : Nat) {s : State} (hs : Keep b0 s) : Keep b0 (lockExpire n s) := by
  unfold lockExpire
  with_reducible
    repeat' first
      | assumption | intro _ | apply State.setCan_keep | apply canNotice_keep | fail_if_no_progress apply Keep.upd
      | dsimp only | split

theorem priRequest_keep {b0 : State} (n : Nat) (p : Nat) {s : State} (hs : Keep b0 s) :
    Keep b0 (priRequest n p s) := by
  unfold priRequest
  with_reducible
    repeat' first
      | assumption | intro _ | apply State.setCan_keep | fail_if_no_progress apply Keep.upd | dsimp only | split

theorem fifoPut_keep {b0 : State} (n : Nat) {s : State} (hs : Keep b0 s) : Keep b0 (fifoPut n s) := by
  unfold fifoPut
  with_reducible
    repeat' first
      | assumption | intro _ | apply State.setCan_keep | apply setFlag_keep | fail_if_no_progress apply Keep.upd
      | dsimp only | split

theorem priCancel_keep {b0 : State} (n : Nat) (p : Nat) {s : State} (hs : Keep b0 s) : Keep b0 (priCancel n p s) := by
  unfold priCancel
  with_reducible
    repeat' first
      | assumption | intro _ | apply State.setCan_keep | apply txEvent_keep | apply priDone_keep
      | fail_if_no_progress apply Keep.upd | dsimp only | split

theorem eachBit_keep {b0 : State} (v : Word) (f : Nat → State → State) {s : State} (hs : Keep b0 s) (hff : ∀ a0 s, Keep b0 s → Keep b0 (f a0 s)) :
    Keep b0 (eachBit v f s) := by
  unfold eachBit
  with_reducible
    repeat' first
      | assumption | intro _ | apply hff | fail_if_no_progress apply Keep.upd | apply Keep.foldl | dsimp only | split

theorem canWin_keep {b0 : State} (who : Nat) (n : Nat) (f : State → State) {s : State} (hs : Keep b0 s) (hff : ∀ s, Keep b0 s → Keep b0 (f s)) :
    Keep b0 (canWin who n f s) := by
  unfold canWin
  with_reducible
    repeat' first
      | assumption | intro _ | apply hff | apply logFirst_keep | fail_if_no_progress apply Keep.upd | dsimp only
      | split

theorem canEvent_keep {e : Stim} {s : State} {who n : Nat} {f : State → State}
    (hf : ∀ t, Keep (s.advance e) t → Keep (s.advance e) (f t)) : KeepO (s.advance e) (canEvent e s who n f) :=
  event_keep fun _ ht => canWin_keep who n f ht hf

theorem execTxfPut_keep (e : Stim) (who : Nat) (can : Nat) (value : Word) (s : State) :
    KeepO (s.advance e) (execTxfPut e who can value s) := by
  unfold execTxfPut
  apply canEvent_keep
  generalize s.advance e = b0
  intro t ht
  with_reducible
    repeat' first
      | assumption | intro _ | apply fifoPut_keep | fail_if_no_progress apply Keep.upd | dsimp only | split

theorem execTxbReq_keep (e : Stim) (who : Nat) (can : Nat) (value : Word) (s : State) :
    KeepO (s.advance e) (execTxbReq e who can value s) := by
  unfold execTxbReq
  apply canEvent_keep
  generalize s.advance e = b0
  intro t ht
  with_reducible
    repeat' first
      | assumption | intro _ | apply priRequest_keep | apply eachBit_keep | fail_if_no_progress apply Keep.upd
      | dsimp only | split

theorem execTxbCancel_keep (e : Stim) (who : Nat) (can : Nat) (value : Word) (s : State) :
    KeepO (s.advance e) (execTxbCancel e who can value s) := by
  unfold execTxbCancel
  apply canEvent_keep
  generalize s.advance e = b0
  intro t ht
  with_reducible
    repeat' first
      | assumption | intro _ | apply priCancel_keep | apply eachBit_keep | fail_if_no_progress apply Keep.upd
      | dsimp only | split

theorem doneClear_keep {b0 : State} (n : Nat) (v : Word) {s : State} (hs : Keep b0 s) :
    Keep b0 (doneClear n v s) := by
  unfold doneClear
  with_reducible
    repeat' first
      | assumption | intro _ | apply State.setCan_keep | fail_if_no_progress apply Keep.upd | dsimp only | split

theorem execTxbDoneClear_keep (e : Stim) (who : Nat) (can : Nat) (value : Word) (s : State) :
    KeepO (s.advance e) (execTxbDoneClear e who can value s) := by
  unfold execTxbDoneClear
  apply canEvent_keep
  generalize s.advance e = b0
  intro t ht
  with_reducible
    repeat' first
      | assumption | intro _ | apply doneClear_keep | fail_if_no_progress apply Keep.upd | dsimp only | split

theorem flagsClear_keep {b0 : State} (n : Nat) (v : Word) {s : State} (hs : Keep b0 s) :
    Keep b0 (flagsClear n v s) := by
  unfold flagsClear
  with_reducible
    repeat' first
      | assumption | intro _ | apply State.setCan_keep | fail_if_no_progress apply Keep.upd | dsimp only | split

theorem execFlagsClear_keep (e : Stim) (who : Nat) (can : Nat) (value : Word) (s : State) :
    KeepO (s.advance e) (execFlagsClear e who can value s) := by
  unfold execFlagsClear
  apply canEvent_keep
  generalize s.advance e = b0
  intro t ht
  with_reducible
    repeat' first
      | assumption | intro _ | apply flagsClear_keep | fail_if_no_progress apply Keep.upd | dsimp only | split

theorem ramWrite_keep {b0 : State} (n : Nat) (off : Nat) (v : Word) {s : State} (hs : Keep b0 s) :
    Keep b0 (ramWrite n off v s) := by
  unfold ramWrite
  with_reducible
    repeat' first
      | assumption | intro _ | apply State.writeMem_keep | apply setFlag_keep | fail_if_no_progress apply Keep.upd
      | dsimp only | split

theorem execMessageRamWrite_keep (e : Stim) (who : Nat) (can : Nat) (off : Nat) (value : Word) (s : State) :
    KeepO (s.advance e) (execMessageRamWrite e who can off value s) := by
  unfold execMessageRamWrite
  apply event_keep
  generalize s.advance e = b0
  intro t ht
  with_reducible
    repeat' first
      | assumption | intro _ | apply logFirst_keep | apply canWin_keep | apply ramWrite_keep
      | fail_if_no_progress apply Keep.upd | dsimp only | split

theorem txeRead_keep {b0 : State} (n : Nat) {s : State} (hs : Keep b0 s) : Keep b0 (txeRead n s) := by
  unfold txeRead
  with_reducible
    repeat' first
      | assumption | intro _ | apply State.setCan_keep | fail_if_no_progress apply Keep.upd | dsimp only | split

theorem execTxeHeadRead_keep (e : Stim) (who : Nat) (can : Nat) (s : State) :
    KeepO (s.advance e) (execTxeHeadRead e who can s) := by
  unfold execTxeHeadRead
  apply canEvent_keep
  generalize s.advance e = b0
  intro t ht
  with_reducible
    repeat' first
      | assumption | intro _ | apply txeRead_keep | fail_if_no_progress apply Keep.upd | dsimp only | split

theorem word0Read_keep {b0 : State} (n : Nat) (b : Nat) {s : State} (hs : Keep b0 s) : Keep b0 (word0Read n b s) := by
  unfold word0Read
  with_reducible
    repeat' first
      | assumption | intro _ | apply State.setCan_keep | apply lockExpire_keep | fail_if_no_progress apply Keep.upd
      | dsimp only | split

theorem execHeaderWord0Read_keep (e : Stim) (who : Nat) (can : Nat) (buf : Nat) (s : State) :
    KeepO (s.advance e) (execHeaderWord0Read e who can buf s) := by
  unfold execHeaderWord0Read
  apply event_keep
  generalize s.advance e = b0
  intro t ht
  with_reducible
    repeat' first
      | assumption | intro _ | apply canWin_keep | apply word0Read_keep | fail_if_no_progress apply Keep.upd
      | dsimp only | split

theorem consume_keep {b0 : State} (n : Nat) (b : Nat) {s : State} (hs : Keep b0 s) : Keep b0 (consume n b s) := by
  unfold consume
  with_reducible
    repeat' first
      | assumption | intro _ | apply State.setCan_keep | fail_if_no_progress apply Keep.upd | dsimp only | split

theorem lastRead_keep {b0 : State} (n : Nat) (b : Nat) {s : State} (hs : Keep b0 s) : Keep b0 (lastRead n b s) := by
  unfold lastRead
  with_reducible
    repeat' first
      | assumption | intro _ | apply lockExpire_keep | apply consume_keep | fail_if_no_progress apply Keep.upd
      | dsimp only | split

theorem execLastWordRead_keep (e : Stim) (who : Nat) (can : Nat) (buf : Nat) (s : State) :
    KeepO (s.advance e) (execLastWordRead e who can buf s) := by
  unfold execLastWordRead
  apply event_keep
  generalize s.advance e = b0
  intro t ht
  with_reducible
    repeat' first
      | assumption | intro _ | apply canWin_keep | apply lastRead_keep | fail_if_no_progress apply Keep.upd
      | dsimp only | split

theorem execLockExpiry_keep (e : Stim) (can : Nat) (s : State) : KeepO (s.advance e) (execLockExpiry e can s) := by
  unfold execLockExpiry
  apply event_keep
  generalize s.advance e = b0
  intro t ht
  with_reducible
    repeat' first
      | assumption | intro _ | apply lockExpire_keep | fail_if_no_progress apply Keep.upd | dsimp only | split

theorem rxFilled_keep {b0 : State} (n : Nat) (b : Nat) {s : State} (hs : Keep b0 s) : Keep b0 (rxFilled n b s) := by
  unfold rxFilled
  with_reducible
    repeat' first
      | assumption | intro _ | apply canNotice_keep | apply canIrq_keep | fail_if_no_progress apply Keep.upd
      | dsimp only | split

theorem rxLost_keep {b0 : State} (n : Nat) (i : Nat) {s : State} (hs : Keep b0 s) : Keep b0 (rxLost n i s) := by
  unfold rxLost
  with_reducible
    repeat' first
      | assumption | intro _ | apply State.setCan_keep | fail_if_no_progress apply Keep.upd | dsimp only | split

theorem rxAccept_keep {b0 : State} (n : Nat) (stamp : Nat) (f : CanFrame) {s : State} (hs : Keep b0 s) :
    Keep b0 (rxAccept n stamp f s) := by
  unfold rxAccept
  with_reducible
    repeat' first
      | assumption | intro _ | apply State.setCan_keep | apply storeRx_keep | apply rxFilled_keep | apply rxLost_keep
      | fail_if_no_progress apply Keep.upd | dsimp only | split

theorem setErr_keep {b0 : State} (n : Nat) (tec : Nat) (recv : Nat) (estate : Nat) {s : State} (hs : Keep b0 s) :
    Keep b0 (setErr n tec recv estate s) := by
  unfold setErr
  with_reducible
    repeat' first
      | assumption | intro _ | apply State.setCan_keep | apply canNotice_keep | fail_if_no_progress apply Keep.upd
      | dsimp only | split

theorem recAfter_keep {b0 : State} (n : Nat) {s : State} (hs : Keep b0 s) : Keep b0 (recAfter n s) := by
  unfold recAfter
  with_reducible
    repeat' first
      | assumption | intro _ | apply State.drawNat_keep | apply setErr_keep | fail_if_no_progress apply Keep.upd
      | dsimp only | split

theorem aloneEnds_keep {b0 : State} (n : Nat) {s : State} (hs : Keep b0 s) : Keep b0 (aloneEnds n s) := by
  unfold aloneEnds
  with_reducible
    repeat' first
      | assumption | intro _ | apply State.setCan_keep | fail_if_no_progress apply Keep.upd | dsimp only | split

theorem countMiss_keep {b0 : State} (kind : Nat) (idx : Nat) {s : State} (hs : Keep b0 s) :
    Keep b0 (countMiss kind idx s) := by
  unfold countMiss
  with_reducible
    repeat' first
      | assumption | intro _ | apply State.setCan_keep | apply State.setAcf_keep | fail_if_no_progress apply Keep.upd
      | dsimp only | split

theorem toEngine_keep {b0 : State} (kind : Nat) (idx : Nat) (stamp : Nat) (f : CanFrame) (lin : Bool) {s : State} (hs : Keep b0 s) :
    Keep b0 (toEngine kind idx stamp f s lin) := by
  unfold toEngine
  with_reducible
    repeat' first
      | assumption | intro _ | apply countMiss_keep | fail_if_no_progress apply Keep.upd | dsimp only | split

theorem canReceive_keep {b0 : State} (n : Nat) (stamp : Nat) (g : CanFrame) {s : State} (hs : Keep b0 s) :
    Keep b0 (canReceive n stamp g s) := by
  unfold canReceive
  with_reducible
    repeat' first
      | assumption | intro _ | apply State.setCan_keep | apply lockExpire_keep | apply rxAccept_keep
      | apply recAfter_keep | apply aloneEnds_keep | apply toEngine_keep | fail_if_no_progress apply Keep.upd
      | dsimp only | split

theorem State.setLin_keep {b0 : State} (n : Nat) (x : LinCh) {s : State} (hs : Keep b0 s) :
    Keep b0 (State.setLin s n x) := by
  unfold State.setLin
  with_reducible
    repeat' first
      | assumption | intro _ | fail_if_no_progress apply Keep.upd | dsimp only | split

theorem busAssignSpec_keep {b0 : State} (c : Cmd) {s : State} (hs : Keep b0 s) :
    KeepA b0 (busAssignSpec.exec c s) := by
  unfold busAssignSpec
  with_reducible
    repeat' first
      | assumption | intro _ | apply State.setCan_keep | apply Ans.okay_keep | apply Ans.fail_keep
      | apply State.setLin_keep | fail_if_no_progress apply Keep.upd | apply KeepA.done | apply KeepA.accept
      | apply KeepA.defer | apply KeepA.ongoing | dsimp only | split

theorem busEnable_keep {b0 : State} (c : Cmd) {s : State} (hs : Keep b0 s) : KeepA b0 (busEnable c s) := by
  unfold busEnable
  with_reducible
    repeat' first
      | assumption | intro _ | apply State.setCan_keep | apply Ans.fail_keep | apply gateEnable_keep
      | fail_if_no_progress apply Keep.upd | apply KeepA.done | apply KeepA.accept | apply KeepA.defer
      | apply KeepA.ongoing | dsimp only | split

theorem busCtlSpec_keep {b0 : State} (c : Cmd) {s : State} (hs : Keep b0 s) : KeepA b0 (busCtlSpec.exec c s) := by
  unfold busCtlSpec
  with_reducible
    repeat' first
      | assumption | intro _
      | (extract_lets +onlyGivenNames x; first
        | (refine (fun hx : Keep b0 x => ?_) ?_; (on_goal 1 => clear_value x); on_goal 2 => (show Keep b0 _; subst x))
        | (refine (fun hx : Keep b0 x.2 => ?_) ?_; (on_goal 1 => clear_value x); on_goal 2 => (show Keep b0 (Prod.snd _); subst x))
        | (refine (fun hx : Keep b0 x.1 => ?_) ?_; (on_goal 1 => clear_value x); on_goal 2 => (show Keep b0 (Prod.fst _); subst x))
        | (refine (fun hx : KeepA b0 x => ?_) ?_; (on_goal 1 => clear_value x); on_goal 2 => (show KeepA b0 _; subst x))
        | (refine (fun hx : ∀ a, Keep b0 (x a) => ?_) ?_; (on_goal 1 => clear_value x); on_goal 2 => (subst x; intro _; dsimp -zeta only))
        | (refine (fun hx : ∀ t, Keep b0 t → Keep b0 (x t) => ?_) ?_; (on_goal 1 => clear_value x); on_goal 2 => (subst x; intro _ _; dsimp -zeta only))
        | (refine (fun hx : ∀ a t, Keep b0 t → Keep b0 (x a t) => ?_) ?_; (on_goal 1 => clear_value x); on_goal 2 => (subst x; intro _ _ _; dsimp -zeta only))
        | (refine (fun hx : ∀ a b t, Keep b0 t → Keep b0 (x a b t) => ?_) ?_; (on_goal 1 => clear_value x); on_goal 2 => (subst x; intro _ _ _ _; dsimp -zeta only))
        | clear_value x)
      | apply Ans.fail_keep | apply gateDisable_keep | apply busEnable_keep | fail_if_no_progress apply Keep.upd
      | apply KeepA.done | apply KeepA.accept | apply KeepA.defer | apply KeepA.ongoing | dsimp -zeta only | split
      | refine KeepA.ofDone (by assumption) ?_ | refine KeepA.ofAccept (by assumption) ?_
      | refine KeepA.ofDefer (by assumption) ?_ | refine KeepA.ofOngoing (by assumption) ?_
      | refine Keep.ofSnd (by assumption) ?_ | refine Keep.ofFst (by assumption) ?_ | dsimp only | simp only [id_eq]

theorem busCanConfigSpec_keep {b0 : State} (c : Cmd) {s : State} (hs : Keep b0 s) :
    KeepA b0 (busCanConfigSpec.exec c s) := by
  unfold busCanConfigSpec
  with_reducible
    repeat' first
      | assumption | intro _ | apply State.setCan_keep | apply Ans.okay_keep | apply Ans.fail_keep
      | fail_if_no_progress apply Keep.upd | apply KeepA.done | apply KeepA.accept | apply KeepA.defer
      | apply KeepA.ongoing | dsimp only | split

theorem busCanFilterSpec_keep {b0 : State} (c : Cmd) {s : State} (hs : Keep b0 s) :
    KeepA b0 (busCanFilterSpec.exec c s) := by
  unfold busCanFilterSpec
  with_reducible
    repeat' first
      | assumption | intro _ | apply State.setCan_keep | apply Ans.okay_keep | fail_if_no_progress apply Keep.upd
      | apply Keep.foldl | apply KeepA.done | apply KeepA.accept | apply KeepA.defer | apply KeepA.ongoing
      | dsimp only | split

theorem busCanStatusSpec_keep {b0 : State} (c : Cmd) {s : State} (hs : Keep b0 s) :
    KeepA b0 (busCanStatusSpec.exec c s) := by
  unfold busCanStatusSpec
  with_reducible
    repeat' first
      | assumption | intro _ | apply lockExpire_keep | fail_if_no_progress apply Keep.upd | apply KeepA.done
      | apply KeepA.accept | apply KeepA.defer | apply KeepA.ongoing | dsimp only | split

theorem txFill_keep {b0 : State} (n : Nat) (b : Nat) (g : Nat) (ps : List Word) {s : State} (hs : Keep b0 s) :
    Keep b0 (txFill n b g ps s) := by
  unfold txFill
  with_reducible
    repeat' first
      | assumption | intro _ | apply State.writeMem_keep | fail_if_no_progress apply Keep.upd | dsimp only | split

theorem busCanTxSpec_keep {b0 : State} (c : Cmd) {s : State} (hs : Keep b0 s) : KeepA b0 (busCanTxSpec.exec c s) := by
  unfold busCanTxSpec
  with_reducible
    repeat' first
      | assumption | intro _ | apply Ans.fail_keep | apply priRequest_keep | apply fifoPut_keep | apply txFill_keep
      | fail_if_no_progress apply Keep.upd | apply KeepA.done | apply KeepA.accept | apply KeepA.defer
      | apply KeepA.ongoing | dsimp only | split

theorem busCanRxSpec_keep {b0 : State} (c : Cmd) {s : State} (hs : Keep b0 s) : KeepA b0 (busCanRxSpec.exec c s) := by
  unfold busCanRxSpec
  with_reducible
    repeat' first
      | assumption | intro _ | apply State.setCan_keep | apply Ans.okay_keep | apply Ans.fail_keep
      | apply lockExpire_keep | apply consume_keep | fail_if_no_progress apply Keep.upd | apply KeepA.done
      | apply KeepA.accept | apply KeepA.defer | apply KeepA.ongoing | dsimp only | split

theorem busCanTxeSpec_keep {b0 : State} (c : Cmd) {s : State} (hs : Keep b0 s) :
    KeepA b0 (busCanTxeSpec.exec c s) := by
  unfold busCanTxeSpec
  with_reducible
    repeat' first
      | assumption | intro _ | apply State.setCan_keep | fail_if_no_progress apply Keep.upd | apply KeepA.done
      | apply KeepA.accept | apply KeepA.defer | apply KeepA.ongoing | dsimp only | split

/-! ### Lin -/

theorem sleepNow_keep {b0 : State} (n : Nat) {s : State} (hs : Keep b0 s) : Keep b0 (sleepNow n s) := by
  unfold sleepNow
  with_reducible
    repeat' first
      | assumption | intro _ | apply State.setLin_keep | fail_if_no_progress apply Keep.upd | dsimp only | split

theorem select_keep {b0 : State} (n : Nat) (t : Nat) {s : State} (hs : Keep b0 s) : Keep b0 (select n t s) := by
  unfold select
  with_reducible
    repeat' first
      | assumption | intro _ | apply State.setLin_keep | apply sleepNow_keep | fail_if_no_progress apply Keep.upd
      | dsimp only | split

theorem linSettle_keep {b0 : State} (n : Nat) {s : State} (hs : Keep b0 s) : Keep b0 (linSettle n s) := by
  unfold linSettle
  with_reducible
    repeat' first
      | assumption | intro _ | apply State.setLin_keep | apply select_keep | fail_if_no_progress apply Keep.upd
      | dsimp only | split

theorem busLinConfigSpec_keep {b0 : State} (c : Cmd) {s : State} (hs : Keep b0 s) :
    KeepA b0 (busLinConfigSpec.exec c s) := by
  unfold busLinConfigSpec
  with_reducible
    repeat' first
      | assumption | intro _ | apply Ans.okay_keep | apply Ans.fail_keep | apply State.setLin_keep
      | fail_if_no_progress apply Keep.upd | apply KeepA.done | apply KeepA.accept | apply KeepA.defer
      | apply KeepA.ongoing | dsimp only | split

theorem execBusLinConfig_keep (e : Stim) (r : Req) (s : State) : KeepO (s.advance e) (execBusLinConfig e r s) := 
  submit_row fun c _ hs => busLinConfigSpec_keep c hs

theorem busLinFramesSpec_keep {b0 : State} (c : Cmd) {s : State} (hs : Keep b0 s) :
    KeepA b0 (busLinFramesSpec.exec c s) := by
  unfold busLinFramesSpec
  with_reducible
    repeat' first
      | assumption | intro _ | apply Ans.okay_keep | apply Ans.fail_keep | apply State.setLin_keep
      | apply linSettle_keep | fail_if_no_progress apply Keep.upd | apply Keep.foldl | apply KeepA.done
      | apply KeepA.accept | apply KeepA.defer | apply KeepA.ongoing | dsimp only | split

theorem execBusLinFrames_keep (e : Stim) (r : Req) (s : State) : KeepO (s.advance e) (execBusLinFrames e r s) := 
  submit_row fun c _ hs => busLinFramesSpec_keep c hs

theorem busLinScheduleSpec_keep {b0 : State} (c : Cmd) {s : State} (hs : Keep b0 s) :
    KeepA b0 (busLinScheduleSpec.exec c s) := by
  unfold busLinScheduleSpec
  with_reducible
    repeat' first
      | assumption | intro _ | apply Ans.okay_keep | apply Ans.fail_keep | apply State.setLin_keep
      | apply linSettle_keep | fail_if_no_progress apply Keep.upd | apply KeepA.done | apply KeepA.accept
      | apply KeepA.defer | apply KeepA.ongoing | dsimp only | split

theorem execBusLinSchedule_keep (e : Stim) (r : Req) (s : State) :
    KeepO (s.advance e) (execBusLinSchedule e r s) := 
  submit_row fun c _ hs => busLinScheduleSpec_keep c hs

theorem busLinRunSpec_keep {b0 : State} (c : Cmd) {s : State} (hs : Keep b0 s) :
    KeepA b0 (busLinRunSpec.exec c s) := by
  unfold busLinRunSpec
  with_reducible
    repeat' first
      | assumption | intro _ | apply Ans.okay_keep | apply State.setLin_keep | apply select_keep
      | apply linSettle_keep | fail_if_no_progress apply Keep.upd | apply KeepA.done | apply KeepA.accept
      | apply KeepA.defer | apply KeepA.ongoing | dsimp only | split

theorem execBusLinRun_keep (e : Stim) (r : Req) (s : State) : KeepO (s.advance e) (execBusLinRun e r s) := 
  submit_row fun c _ hs => busLinRunSpec_keep c hs

theorem slotStart_keep {b0 : State} (n : Nat) {s : State} (hs : Keep b0 s) : Keep b0 (slotStart n s) := by
  unfold slotStart
  with_reducible
    repeat' first
      | assumption | intro _ | apply State.setLin_keep | fail_if_no_progress apply Keep.upd | dsimp only | split

theorem execLinSlotStart_keep (e : Stim) (lin : Nat) (s : State) :
    KeepO (s.advance e) (execLinSlotStart e lin s) := by
  unfold execLinSlotStart
  apply event_keep
  generalize s.advance e = b0
  intro t ht
  with_reducible
    repeat' first
      | assumption | intro _ | apply linSettle_keep | apply slotStart_keep | fail_if_no_progress apply Keep.upd
      | dsimp only | split

theorem linNotice_keep {b0 : State} (n : Nat) (ncode : Nat) (det : List Word) {s : State} (hs : Keep b0 s) :
    Keep b0 (linNotice n ncode det s) := by
  unfold linNotice
  with_reducible
    repeat' first
      | assumption | intro _ | apply noticeAll_keep | fail_if_no_progress apply Keep.upd | dsimp only | split

theorem linErr_keep {b0 : State} (n : Nat) (id : Nat) (status : Nat) {s : State} (hs : Keep b0 s) :
    Keep b0 (linErr n id status s) := by
  unfold linErr
  with_reducible
    repeat' first
      | assumption | intro _ | apply State.setLin_keep | apply linNotice_keep | fail_if_no_progress apply Keep.upd
      | dsimp only | split

theorem linRoute_keep {b0 : State} (n : Nat) (id : Nat) (stamp : Nat) (d : List Byte) {s : State} (hs : Keep b0 s) :
    Keep b0 (linRoute n id stamp d s) := by
  unfold linRoute
  with_reducible
    repeat' first
      | assumption | intro _ | apply toEngine_keep | fail_if_no_progress apply Keep.upd | dsimp only | split

theorem linSleep_keep {b0 : State} (n : Nat) {s : State} (hs : Keep b0 s) : Keep b0 (linSleep n s) := by
  unfold linSleep
  with_reducible
    repeat' first
      | assumption | intro _ | apply State.setLin_keep | fail_if_no_progress apply Keep.upd | dsimp only | split

theorem sleepDue_keep {b0 : State} (n : Nat) {s : State} (hs : Keep b0 s) : Keep b0 (sleepDue n s) := by
  unfold sleepDue
  with_reducible
    repeat' first
      | assumption | intro _ | apply sleepNow_keep | fail_if_no_progress apply Keep.upd | dsimp only | split

theorem responseDone_keep {b0 : State} (n : Nat) (status : Nat) (data : List Byte) {s : State} (hs : Keep b0 s) :
    Keep b0 (responseDone n status data s) := by
  unfold responseDone
  with_reducible
    repeat' first
      | assumption | intro _ | apply State.setLin_keep | apply linNotice_keep | apply linErr_keep
      | apply linRoute_keep | apply linSleep_keep | fail_if_no_progress apply Keep.upd | dsimp only | split

theorem responseEnd_keep {b0 : State} (n : Nat) (status : Nat) (data : List Byte) {s : State} (hs : Keep b0 s) :
    Keep b0 (responseEnd n status data s) := by
  unfold responseEnd
  with_reducible
    repeat' first
      | assumption | intro _ | apply sleepDue_keep | apply responseDone_keep | fail_if_no_progress apply Keep.upd
      | dsimp only | split

theorem execLinResponseEnd_keep (e : Stim) (lin : Nat) (status : Nat) (data : List Byte) (s : State) :
    KeepO (s.advance e) (execLinResponseEnd e lin status data s) := by
  unfold execLinResponseEnd
  apply event_keep
  generalize s.advance e = b0
  intro t ht
  with_reducible
    repeat' first
      | assumption | intro _ | apply responseEnd_keep | fail_if_no_progress apply Keep.upd | dsimp only | split

theorem headerIn_keep {b0 : State} (n : Nat) (id : Nat) (ok : Bool) (ago : Nat) {s : State} (hs : Keep b0 s) :
    Keep b0 (headerIn n id ok ago s) := by
  unfold headerIn
  with_reducible
    repeat' first
      | assumption | intro _ | apply State.setLin_keep | apply linErr_keep | fail_if_no_progress apply Keep.upd
      | dsimp only | split

theorem execLinHeaderReceived_keep (e : Stim) (lin : Nat) (id : Nat) (ok : Bool) (ago : Nat) (s : State) :
    KeepO (s.advance e) (execLinHeaderReceived e lin id ok ago s) := by
  unfold execLinHeaderReceived
  apply event_keep
  generalize s.advance e = b0
  intro t ht
  with_reducible
    repeat' first
      | assumption | intro _ | apply headerIn_keep | fail_if_no_progress apply Keep.upd | dsimp only | split

theorem busLinDataSpec_keep {b0 : State} (c : Cmd) {s : State} (hs : Keep b0 s) :
    KeepA b0 (busLinDataSpec.exec c s) := by
  unfold busLinDataSpec
  with_reducible
    repeat' first
      | assumption | intro _ | apply Ans.okay_keep | apply State.setLin_keep | fail_if_no_progress apply Keep.upd
      | apply KeepA.done | apply KeepA.accept | apply KeepA.defer | apply KeepA.ongoing | dsimp only | split

theorem execBusLinData_keep (e : Stim) (r : Req) (s : State) : KeepO (s.advance e) (execBusLinData e r s) := 
  submit_row fun c _ hs => busLinDataSpec_keep c hs

theorem busLinReadSpec_keep {b0 : State} (c : Cmd) {s : State} (hs : Keep b0 s) :
    KeepA b0 (busLinReadSpec.exec c s) := by
  unfold busLinReadSpec
  with_reducible
    repeat' first
      | assumption | intro _ | apply State.setLin_keep | fail_if_no_progress apply Keep.upd | apply KeepA.done
      | apply KeepA.accept | apply KeepA.defer | apply KeepA.ongoing | dsimp only | split

theorem execBusLinRead_keep (e : Stim) (r : Req) (s : State) : KeepO (s.advance e) (execBusLinRead e r s) := 
  submit_row fun c _ hs => busLinReadSpec_keep c hs

theorem busLinStatusSpec_keep {b0 : State} (c : Cmd) {s : State} (hs : Keep b0 s) :
    KeepA b0 (busLinStatusSpec.exec c s) := by
  unfold busLinStatusSpec
  with_reducible
    repeat' first
      | assumption | intro _ | apply linSettle_keep | fail_if_no_progress apply Keep.upd | apply KeepA.done
      | apply KeepA.accept | apply KeepA.defer | apply KeepA.ongoing | dsimp only | split

theorem execBusLinStatus_keep (e : Stim) (r : Req) (s : State) : KeepO (s.advance e) (execBusLinStatus e r s) := 
  submit_row fun c _ hs => busLinStatusSpec_keep c hs

theorem busLinSleepSpec_keep {b0 : State} (c : Cmd) {s : State} (hs : Keep b0 s) :
    KeepA b0 (busLinSleepSpec.exec c s) := by
  unfold busLinSleepSpec
  with_reducible
    repeat' first
      | assumption | intro _ | apply Ans.okay_keep | apply State.setLin_keep | apply sleepNow_keep
      | apply linSettle_keep | fail_if_no_progress apply Keep.upd | apply KeepA.done | apply KeepA.accept
      | apply KeepA.defer | apply KeepA.ongoing | dsimp only | split

theorem execBusLinSleep_keep (e : Stim) (r : Req) (s : State) : KeepO (s.advance e) (execBusLinSleep e r s) := 
  submit_row fun c _ hs => busLinSleepSpec_keep c hs

theorem busLinWakeSpec_keep {b0 : State} (c : Cmd) {s : State} (hs : Keep b0 s) :
    KeepA b0 (busLinWakeSpec.exec c s) := by
  unfold busLinWakeSpec
  with_reducible
    repeat' first
      | assumption | intro _ | apply Ans.okay_keep | apply Ans.fail_keep | apply State.setLin_keep
      | fail_if_no_progress apply Keep.upd | apply KeepA.done | apply KeepA.accept | apply KeepA.defer
      | apply KeepA.ongoing | dsimp only | split

theorem execBusLinWake_keep (e : Stim) (r : Req) (s : State) : KeepO (s.advance e) (execBusLinWake e r s) := 
  submit_row fun c _ hs => busLinWakeSpec_keep c hs

theorem execLinResponderSleep_keep (e : Stim) (lin : Nat) (s : State) :
    KeepO (s.advance e) (execLinResponderSleep e lin s) := by
  unfold execLinResponderSleep
  apply event_keep
  generalize s.advance e = b0
  intro t ht
  with_reducible
    repeat' first
      | assumption | intro _ | apply linSleep_keep | fail_if_no_progress apply Keep.upd | dsimp only | split

theorem linWaken_keep {b0 : State} (n : Nat) {s : State} (hs : Keep b0 s) : Keep b0 (linWaken n s) := by
  unfold linWaken
  with_reducible
    repeat' first
      | assumption | intro _ | apply State.setLin_keep | apply linNotice_keep | fail_if_no_progress apply Keep.upd
      | dsimp only | split

theorem execLinWakeDetect_keep (e : Stim) (lin : Nat) (s : State) :
    KeepO (s.advance e) (execLinWakeDetect e lin s) := by
  unfold execLinWakeDetect
  apply event_keep
  generalize s.advance e = b0
  intro t ht
  with_reducible
    repeat' first
      | assumption | intro _ | apply linWaken_keep | fail_if_no_progress apply Keep.upd | dsimp only | split

/-! ### Gwy -/

theorem copyCan_keep {b0 : State} (w : List Word) (i : GwItem) (n : Nat) {s : State} (hs : Keep b0 s) :
    Keep b0 ((copyCan w i n s).1) := by
  unfold copyCan
  with_reducible
    repeat' first
      | assumption | intro _ | apply State.setCan_keep | fail_if_no_progress apply Keep.upd | dsimp only | split

theorem acfSend_keep {b0 : State} (c : Nat) {s : State} (hs : Keep b0 s) : Keep b0 (acfSend c s) := by
  unfold acfSend
  with_reducible
    repeat' first
      | assumption | intro _ | apply State.setAcf_keep | apply countIn_keep | apply forward_keep
      | apply settleNet_keep | fail_if_no_progress apply Keep.upd | dsimp only | split

theorem copyAcf_keep {b0 : State} (w : List Word) (i : GwItem) {s : State} (hs : Keep b0 s) :
    Keep b0 ((copyAcf w i s).1) := by
  unfold copyAcf
  with_reducible
    repeat' first
      | assumption | intro _ | apply State.setAcf_keep | apply acfSend_keep | fail_if_no_progress apply Keep.upd
      | dsimp only | split

theorem copyVep_keep {b0 : State} (v : Nat) (i : GwItem) {s : State} (hs : Keep b0 s) :
    Keep b0 ((copyVep v i s).1) := by
  unfold copyVep
  with_reducible
    repeat' first
      | assumption | intro _ | apply giveFrame_keep | fail_if_no_progress apply Keep.upd | dsimp only | split

theorem routeCopies_keep {b0 : State} (w : List Word) (i : GwItem) {s : State} (hs : Keep b0 s) :
    Keep b0 ((routeCopies w i s).1) := by
  unfold routeCopies
  with_reducible
    repeat' first
      | assumption | intro _
      | (extract_lets +onlyGivenNames x; first
        | (refine (fun hx : Keep b0 x => ?_) ?_; (on_goal 1 => clear_value x); on_goal 2 => (show Keep b0 _; subst x))
        | (refine (fun hx : Keep b0 x.2 => ?_) ?_; (on_goal 1 => clear_value x); on_goal 2 => (show Keep b0 (Prod.snd _); subst x))
        | (refine (fun hx : Keep b0 x.1 => ?_) ?_; (on_goal 1 => clear_value x); on_goal 2 => (show Keep b0 (Prod.fst _); subst x))
        | (refine (fun hx : KeepA b0 x => ?_) ?_; (on_goal 1 => clear_value x); on_goal 2 => (show KeepA b0 _; subst x))
        | (refine (fun hx : ∀ a, Keep b0 (x a) => ?_) ?_; (on_goal 1 => clear_value x); on_goal 2 => (subst x; intro _; dsimp -zeta only))
        | (refine (fun hx : ∀ t, Keep b0 t → Keep b0 (x t) => ?_) ?_; (on_goal 1 => clear_value x); on_goal 2 => (subst x; intro _ _; dsimp -zeta only))
        | (refine (fun hx : ∀ a t, Keep b0 t → Keep b0 (x a t) => ?_) ?_; (on_goal 1 => clear_value x); on_goal 2 => (subst x; intro _ _ _; dsimp -zeta only))
        | (refine (fun hx : ∀ a b t, Keep b0 t → Keep b0 (x a b t) => ?_) ?_; (on_goal 1 => clear_value x); on_goal 2 => (subst x; intro _ _ _ _; dsimp -zeta only))
        | clear_value x)
      | apply copyCan_keep | apply copyAcf_keep | apply copyVep_keep | fail_if_no_progress apply Keep.upd
      | apply Keep.foldl | apply Keep.foldlFst | apply Keep.foldlSnd | dsimp -zeta only | split
      | refine KeepA.ofDone (by assumption) ?_ | refine KeepA.ofAccept (by assumption) ?_
      | refine KeepA.ofDefer (by assumption) ?_ | refine KeepA.ofOngoing (by assumption) ?_
      | refine Keep.ofSnd (by assumption) ?_ | refine Keep.ofFst (by assumption) ?_ | dsimp only | simp only [id_eq]

theorem vepSent_keep {b0 : State} (i : GwItem) (ok : Bool) {s : State} (hs : Keep b0 s) :
    Keep b0 (vepSent i ok s) := by
  unfold vepSent
  with_reducible
    repeat' first
      | assumption | intro _ | apply State.setVi_keep | apply complete_keep | fail_if_no_progress apply Keep.upd
      | dsimp only | split

theorem routeItem_keep {b0 : State} (i : GwItem) {s : State} (hs : Keep b0 s) : Keep b0 (routeItem i s) := by
  unfold routeItem
  with_reducible
    repeat' first
      | assumption | intro _ | apply countMiss_keep | apply routeCopies_keep | apply vepSent_keep
      | fail_if_no_progress apply Keep.upd | dsimp only | split

theorem lookupOne_keep {b0 : State} {s : State} (hs : Keep b0 s) : Keep b0 (lookupOne s) := by
  unfold lookupOne
  with_reducible
    repeat' first
      | assumption | intro _ | apply routeItem_keep | fail_if_no_progress apply Keep.upd | dsimp only | split

theorem execGatewayLookup_keep (e : Stim) (s : State) : KeepO (s.advance e) (execGatewayLookup e s) := by
  unfold execGatewayLookup
  apply event_keep
  generalize s.advance e = b0
  intro t ht
  with_reducible
    repeat' first
      | assumption | intro _ | apply lookupOne_keep | fail_if_no_progress apply Keep.upd | dsimp only | split

theorem dropItems_keep {b0 : State} {s : State} (hs : Keep b0 s) : Keep b0 (dropItems s) := by
  unfold dropItems
  with_reducible
    repeat' first
      | assumption | intro _ | apply countMiss_keep | apply vepSent_keep | fail_if_no_progress apply Keep.upd
      | apply Keep.foldl | dsimp only | split

theorem execAcfPduSend_keep (e : Stim) (ctx : Nat) (s : State) : KeepO (s.advance e) (execAcfPduSend e ctx s) := by
  unfold execAcfPduSend
  apply event_keep
  generalize s.advance e = b0
  intro t ht
  with_reducible
    repeat' first
      | assumption | intro _ | apply acfSend_keep | fail_if_no_progress apply Keep.upd | dsimp only | split

theorem acfMsgIn_keep {b0 : State} (c : Nat) (m : List Byte) {s : State} (hs : Keep b0 s) :
    Keep b0 (acfMsgIn c m s) := by
  unfold acfMsgIn
  with_reducible
    repeat' first
      | assumption | intro _ | apply State.setAcf_keep | apply toEngine_keep | fail_if_no_progress apply Keep.upd
      | dsimp only | split

theorem acfReceive_keep {b0 : State} (c : Nat) (p : AcfPdu) {s : State} (hs : Keep b0 s) :
    Keep b0 (acfReceive c p s) := by
  unfold acfReceive
  with_reducible
    repeat' first
      | assumption | intro _ | apply State.setAcf_keep | apply acfMsgIn_keep | fail_if_no_progress apply Keep.upd
      | apply Keep.foldl | dsimp only | split

theorem execAcfPduReceived_keep (e : Stim) (pdu : AcfPdu) (s : State) :
    KeepO (s.advance e) (execAcfPduReceived e pdu s) := by
  unfold execAcfPduReceived
  apply event_keep
  generalize s.advance e = b0
  intro t ht
  with_reducible
    repeat' first
      | assumption | intro _ | apply acfReceive_keep | fail_if_no_progress apply Keep.upd | dsimp only | split

theorem gwyRouteSpec_keep {b0 : State} (c : Cmd) {s : State} (hs : Keep b0 s) : KeepA b0 (gwyRouteSpec.exec c s) := by
  unfold gwyRouteSpec
  with_reducible
    repeat' first
      | assumption | intro _ | apply Ans.okay_keep | apply lookupOne_keep | fail_if_no_progress apply Keep.upd
      | apply Keep.foldl | apply KeepA.done | apply KeepA.accept | apply KeepA.defer | apply KeepA.ongoing
      | dsimp only | split

theorem execGwyRoute_keep (e : Stim) (r : Req) (s : State) : KeepO (s.advance e) (execGwyRoute e r s) := 
  submit_row fun c _ hs => gwyRouteSpec_keep c hs

theorem gwyRouteReadSpec_keep {b0 : State} (c : Cmd) {s : State} (hs : Keep b0 s) :
    KeepA b0 (gwyRouteReadSpec.exec c s) := by
  unfold gwyRouteReadSpec
  with_reducible
    repeat' first
      | assumption | intro _ | fail_if_no_progress apply Keep.upd | apply KeepA.done | apply KeepA.accept
      | apply KeepA.defer | apply KeepA.ongoing | dsimp only | split

theorem execGwyRouteRead_keep (e : Stim) (r : Req) (s : State) : KeepO (s.advance e) (execGwyRouteRead e r s) := 
  submit_row fun c _ hs => gwyRouteReadSpec_keep c hs

theorem gwyAcfSpec_keep {b0 : State} (c : Cmd) {s : State} (hs : Keep b0 s) : KeepA b0 (gwyAcfSpec.exec c s) := by
  unfold gwyAcfSpec
  with_reducible
    repeat' first
      | assumption | intro _ | apply State.setAcf_keep | apply Ans.okay_keep | apply Ans.fail_keep
      | apply acfSend_keep | fail_if_no_progress apply Keep.upd | apply KeepA.done | apply KeepA.accept
      | apply KeepA.defer | apply KeepA.ongoing | dsimp only | split

theorem execGwyAcf_keep (e : Stim) (r : Req) (s : State) : KeepO (s.advance e) (execGwyAcf e r s) := 
  submit_row fun c _ hs => gwyAcfSpec_keep c hs

theorem gwyAcfStatusSpec_keep {b0 : State} (c : Cmd) {s : State} (hs : Keep b0 s) :
    KeepA b0 (gwyAcfStatusSpec.exec c s) := by
  unfold gwyAcfStatusSpec
  with_reducible
    repeat' first
      | assumption | intro _ | fail_if_no_progress apply Keep.upd | apply KeepA.done | apply KeepA.accept
      | apply KeepA.defer | apply KeepA.ongoing | dsimp only | split

theorem execGwyAcfStatus_keep (e : Stim) (r : Req) (s : State) : KeepO (s.advance e) (execGwyAcfStatus e r s) := 
  submit_row fun c _ hs => gwyAcfStatusSpec_keep c hs

theorem gwyQueueSpec_keep {b0 : State} (c : Cmd) {s : State} (hs : Keep b0 s) : KeepA b0 (gwyQueueSpec.exec c s) := by
  unfold gwyQueueSpec
  with_reducible
    repeat' first
      | assumption | intro _ | apply State.setCan_keep | apply Ans.okay_keep | fail_if_no_progress apply Keep.upd
      | apply KeepA.done | apply KeepA.accept | apply KeepA.defer | apply KeepA.ongoing | dsimp only | split

theorem execGwyQueue_keep (e : Stim) (r : Req) (s : State) : KeepO (s.advance e) (execGwyQueue e r s) := 
  submit_row fun c _ hs => gwyQueueSpec_keep c hs

theorem gwyStatusSpec_keep {b0 : State} (c : Cmd) {s : State} (hs : Keep b0 s) :
    KeepA b0 (gwyStatusSpec.exec c s) := by
  unfold gwyStatusSpec
  with_reducible
    repeat' first
      | assumption | intro _ | fail_if_no_progress apply Keep.upd | apply KeepA.done | apply KeepA.accept
      | apply KeepA.defer | apply KeepA.ongoing | dsimp only | split

theorem execGwyStatus_keep (e : Stim) (r : Req) (s : State) : KeepO (s.advance e) (execGwyStatus e r s) := 
  submit_row fun c _ hs => gwyStatusSpec_keep c hs

/-! ### Nmg -/

theorem State.setRing_keep {b0 : State} (r : Nat) (x : Ring) {s : State} (hs : Keep b0 s) :
    Keep b0 (State.setRing s r x) := by
  unfold State.setRing
  with_reducible
    repeat' first
      | assumption | intro _ | apply ring_keep | fail_if_no_progress apply Keep.upd | dsimp only | split

theorem ringTo_keep {b0 : State} (r : Nat) (st : RState) {s : State} (hs : Keep b0 s) : Keep b0 (ringTo r st s) := by
  unfold ringTo
  with_reducible
    repeat' first
      | assumption | intro _ | apply noticeAll_keep | apply ring_keep | apply State.setRing_keep
      | fail_if_no_progress apply Keep.upd | dsimp only | split

theorem startRing_keep {b0 : State} (r : Nat) {s : State} (hs : Keep b0 s) : Keep b0 (startRing r s) := by
  unfold startRing
  with_reducible
    repeat' first
      | assumption | intro _ | apply gateStart_keep | apply ring_keep | apply State.setRing_keep | apply ringTo_keep
      | fail_if_no_progress apply Keep.upd | dsimp only | split

theorem wakeRecord_keep {b0 : State} (cause : Nat) (idx : Nat) {s : State} (hs : Keep b0 s) :
    Keep b0 (wakeRecord cause idx s) := by
  unfold wakeRecord
  with_reducible
    repeat' first
      | assumption | intro _ | apply logNotice_keep | fail_if_no_progress apply Keep.upd | dsimp only | split

theorem ringWake_keep {b0 : State} (r : Nat) (cause : Nat) (record : Bool) {s : State} (hs : Keep b0 s) :
    Keep b0 (ringWake r cause record s) := by
  unfold ringWake
  with_reducible
    repeat' first
      | assumption | intro _ | apply ring_keep | apply State.setRing_keep | apply startRing_keep
      | apply wakeRecord_keep | fail_if_no_progress apply Keep.upd | dsimp only | split

theorem prepareOver_keep {b0 : State} (r : Nat) {s : State} (hs : Keep b0 s) : Keep b0 (prepareOver r s) := by
  unfold prepareOver
  with_reducible
    repeat' first
      | assumption | intro _ | apply gateStop_keep | apply ring_keep | apply State.setRing_keep | apply ringTo_keep
      | fail_if_no_progress apply Keep.upd | dsimp only | split

theorem consentGone_keep {b0 : State} (record : Bool) (r : Nat) {s0 : State} (hs0 : Keep b0 s0) :
    Keep b0 (consentGone record s0 r) := by
  unfold consentGone
  with_reducible
    repeat' first
      | assumption | intro _ | apply ring_keep | apply State.setRing_keep | apply ringTo_keep | apply ringWake_keep
      | apply prepareOver_keep | fail_if_no_progress apply Keep.upd | dsimp only | split

theorem pnNote_keep {b0 : State} (r : Nat) {s : State} (hs : Keep b0 s) : Keep b0 (pnNote s r) := by
  unfold pnNote
  with_reducible
    repeat' first
      | assumption | intro _ | apply ring_keep | apply State.setRing_keep | fail_if_no_progress apply Keep.upd
      | dsimp only | split

theorem allSleepNote_keep {b0 : State} {s : State} (hs : Keep b0 s) : Keep b0 (allSleepNote s) := by
  unfold allSleepNote
  with_reducible
    repeat' first
      | assumption | intro _ | apply noticeAll_keep | fail_if_no_progress apply Keep.upd | dsimp only | split

theorem nmgSettle_keep {b0 : State} (record : Bool) {s : State} (hs : Keep b0 s) : Keep b0 (nmgSettle record s) := by
  unfold nmgSettle
  with_reducible
    repeat' first
      | assumption | intro _ | apply ring_keep | apply consentGone_keep | apply pnNote_keep | apply allSleepNote_keep
      | fail_if_no_progress apply Keep.upd | apply Keep.foldl | dsimp only | split

theorem ownFrame_keep {b0 : State} (n : Nat) (p : Nat) (ident : Nat) (ext : Bool) (d : List Byte) {s : State} (hs : Keep b0 s) :
    Keep b0 (ownFrame n p ident ext d s) := by
  unfold ownFrame
  with_reducible
    repeat' first
      | assumption | intro _ | apply State.writeMem_keep | apply State.setCan_keep
      | fail_if_no_progress apply Keep.upd | dsimp only | split

theorem ownDrop_keep {b0 : State} (n : Nat) (p : Nat) {s : State} (hs : Keep b0 s) : Keep b0 (ownDrop n p s) := by
  unfold ownDrop
  with_reducible
    repeat' first
      | assumption | intro _ | apply State.setCan_keep | fail_if_no_progress apply Keep.upd | dsimp only | split

theorem ringSent_keep {b0 : State} (r : Nat) {s : State} (hs : Keep b0 s) : Keep b0 (ringSent r s) := by
  unfold ringSent
  with_reducible
    repeat' first
      | assumption | intro _ | apply gateStop_keep | apply ring_keep | apply State.setRing_keep | apply ringTo_keep
      | apply pnNote_keep | apply nmgSettle_keep | fail_if_no_progress apply Keep.upd | dsimp only | split

theorem ringSend_keep {b0 : State} (r : Nat) (m : RMsg) {s : State} (hs : Keep b0 s) : Keep b0 (ringSend r m s) := by
  unfold ringSend
  with_reducible
    repeat' first
      | assumption | intro _ | apply ring_keep | apply tellerSend_keep | apply settleNet_keep
      | apply State.setRing_keep | apply ownFrame_keep | apply ringSent_keep | fail_if_no_progress apply Keep.upd
      | dsimp only | split

theorem ringHeard_keep {b0 : State} (r : Nat) (m : RingMsg) {s0 : State} (hs0 : Keep b0 s0) :
    Keep b0 (ringHeard r m s0) := by
  unfold ringHeard
  with_reducible
    repeat' first
      | assumption | intro _ | apply ring_keep | apply State.setRing_keep | apply ringTo_keep | apply prepareOver_keep
      | apply pnNote_keep | apply nmgSettle_keep | fail_if_no_progress apply Keep.upd | dsimp only | split

theorem execRingSend_keep (e : Stim) (ring : Nat) (s : State) : KeepO (s.advance e) (execRingSend e ring s) := by
  unfold execRingSend
  apply event_keep
  generalize s.advance e = b0
  intro t ht
  with_reducible
    repeat' first
      | assumption | intro _ | apply ring_keep | apply ringSend_keep | fail_if_no_progress apply Keep.upd | dsimp only
      | split

theorem silent_keep {b0 : State} (r : Nat) (d : Nat) {s : State} (hs : Keep b0 s) : Keep b0 (silent r d s) := by
  unfold silent
  with_reducible
    repeat' first
      | assumption | intro _ | apply ring_keep | apply State.setRing_keep | apply pnNote_keep | apply ringSend_keep
      | fail_if_no_progress apply Keep.upd | dsimp only | split

theorem execRingSilence_keep (e : Stim) (ring : Nat) (s : State) :
    KeepO (s.advance e) (execRingSilence e ring s) := by
  unfold execRingSilence
  apply event_keep
  generalize s.advance e = b0
  intro t ht
  with_reducible
    repeat' first
      | assumption | intro _ | apply ring_keep | apply silent_keep | fail_if_no_progress apply Keep.upd | dsimp only
      | split

theorem aliveStep_keep {b0 : State} (r : Nat) {s : State} (hs : Keep b0 s) : Keep b0 (aliveStep r s) := by
  unfold aliveStep
  with_reducible
    repeat' first
      | assumption | intro _ | apply ring_keep | apply ringTo_keep | apply pnNote_keep | apply ringSend_keep
      | fail_if_no_progress apply Keep.upd | dsimp only | split

theorem execAliveSend_keep (e : Stim) (ring : Nat) (s : State) : KeepO (s.advance e) (execAliveSend e ring s) := by
  unfold execAliveSend
  apply event_keep
  generalize s.advance e = b0
  intro t ht
  with_reducible
    repeat' first
      | assumption | intro _ | apply ring_keep | apply aliveStep_keep | fail_if_no_progress apply Keep.upd
      | dsimp only | split

theorem execVeto_keep (e : Stim) (ring : Nat) (s : State) : KeepO (s.advance e) (execVeto e ring s) := by
  unfold execVeto
  have hs := Keep.refl (s.advance e)
  revert hs
  generalize s.advance e = b0
  intro hs
  refine ⟨_, rfl, ?_⟩
  with_reducible
    repeat' first
      | assumption | intro _ | apply ring_keep | apply consentGone_keep | apply ringSend_keep
      | fail_if_no_progress apply Keep.upd | dsimp only | split

theorem execPrepareEnd_keep (e : Stim) (ring : Nat) (s : State) : KeepO (s.advance e) (execPrepareEnd e ring s) := by
  unfold execPrepareEnd
  apply event_keep
  generalize s.advance e = b0
  intro t ht
  with_reducible
    repeat' first
      | assumption | intro _ | apply ring_keep | apply prepareOver_keep | apply nmgSettle_keep
      | fail_if_no_progress apply Keep.upd | dsimp only | split

theorem released_keep {b0 : State} (r : Nat) {s : State} (hs : Keep b0 s) : Keep b0 (released r s) := by
  unfold released
  with_reducible
    repeat' first
      | assumption | intro _ | apply ring_keep | apply ringTo_keep | apply startRing_keep | apply wakeRecord_keep
      | apply nmgSettle_keep | fail_if_no_progress apply Keep.upd | dsimp only | split

theorem execReleaseComplete_keep (e : Stim) (ring : Nat) (s : State) :
    KeepO (s.advance e) (execReleaseComplete e ring s) := by
  unfold execReleaseComplete
  apply event_keep
  generalize s.advance e = b0
  intro t ht
  with_reducible
    repeat' first
      | assumption | intro _ | apply ring_keep | apply released_keep | fail_if_no_progress apply Keep.upd | dsimp only
      | split

theorem execPnSleepEntry_keep (e : Stim) (ring : Nat) (s : State) :
    KeepO (s.advance e) (execPnSleepEntry e ring s) := by
  unfold execPnSleepEntry
  apply event_keep
  generalize s.advance e = b0
  intro t ht
  with_reducible
    repeat' first
      | assumption | intro _ | apply ring_keep | apply pnNote_keep | apply ringSend_keep
      | fail_if_no_progress apply Keep.upd | dsimp only | split

theorem clusterHeard_keep {b0 : State} (r : Nat) (node : Nat) (clreq : Nat) {s0 : State} (hs0 : Keep b0 s0) :
    Keep b0 (clusterHeard r node clreq s0) := by
  unfold clusterHeard
  with_reducible
    repeat' first
      | assumption | intro _ | apply ring_keep | apply State.setRing_keep | apply prepareOver_keep | apply pnNote_keep
      | fail_if_no_progress apply Keep.upd | dsimp only | split

theorem clusterSent_keep {b0 : State} (r : Nat) {s : State} (hs : Keep b0 s) : Keep b0 (clusterSent r s) := by
  unfold clusterSent
  with_reducible
    repeat' first
      | assumption | intro _ | apply ring_keep | apply State.setRing_keep | fail_if_no_progress apply Keep.upd
      | dsimp only | split

theorem execClusterFrameSend_keep (e : Stim) (ring : Nat) (s : State) :
    KeepO (s.advance e) (execClusterFrameSend e ring s) := by
  unfold execClusterFrameSend
  apply event_keep
  generalize s.advance e = b0
  intro t ht
  with_reducible
    repeat' first
      | assumption | intro _ | apply ring_keep | apply tellerSend_keep | apply settleNet_keep
      | apply State.setRing_keep | apply ownFrame_keep | apply clusterSent_keep | fail_if_no_progress apply Keep.upd
      | dsimp only | split

theorem tellerTakes_keep {b0 : State} (r : Nat) (cl : Bool) (src : Nat) (d : List Byte) {s : State} (hs : Keep b0 s) :
    Keep b0 (tellerTakes r cl src d s) := by
  unfold tellerTakes
  with_reducible
    repeat' first
      | assumption | intro _ | apply ring_keep | apply ringHeard_keep | apply clusterHeard_keep
      | fail_if_no_progress apply Keep.upd | dsimp only | split

theorem tellerSees_keep {b0 : State} (n : Nat) (f : CanFrame) {s : State} (hs : Keep b0 s) :
    Keep b0 (tellerSees n f s) := by
  unfold tellerSees
  with_reducible
    repeat' first
      | assumption | intro _ | apply ring_keep | apply tellerTakes_keep | fail_if_no_progress apply Keep.upd
      | dsimp only | split

theorem releaseFrame_keep {b0 : State} (n : Nat) (ago : Nat) {s : State} (hs : Keep b0 s) :
    Keep b0 (releaseFrame n ago s) := by
  unfold releaseFrame
  with_reducible
    repeat' first
      | assumption | intro _ | apply ring_keep | apply ringWake_keep | fail_if_no_progress apply Keep.upd | dsimp only
      | split

theorem canHeard_keep {b0 : State} (n : Nat) (ago : Nat) (f : CanFrame) {s0 : State} (hs0 : Keep b0 s0) :
    Keep b0 (canHeard n ago f s0) := by
  unfold canHeard
  with_reducible
    repeat' first
      | assumption | intro _ | apply canReceive_keep | apply prepareOver_keep | apply tellerSees_keep
      | apply releaseFrame_keep | fail_if_no_progress apply Keep.upd | dsimp only | split

theorem execRingMessageReceived_keep (e : Stim) (ring : Nat) (m : RingMsg) (s : State) :
    KeepO (s.advance e) (execRingMessageReceived e ring m s) := by
  unfold execRingMessageReceived
  apply event_keep
  generalize s.advance e = b0
  intro t ht
  with_reducible
    repeat' first
      | assumption | intro _ | apply ring_keep | apply ringHeard_keep | apply canHeard_keep
      | fail_if_no_progress apply Keep.upd | dsimp only | split

theorem execClusterFrameReceived_keep (e : Stim) (ring : Nat) (node : Nat) (m : ClMsg) (s : State) :
    KeepO (s.advance e) (execClusterFrameReceived e ring node m s) := by
  unfold execClusterFrameReceived
  apply event_keep
  generalize s.advance e = b0
  intro t ht
  with_reducible
    repeat' first
      | assumption | intro _ | apply ring_keep | apply clusterHeard_keep | apply canHeard_keep
      | fail_if_no_progress apply Keep.upd | dsimp only | split

theorem tellerFrame_keep {b0 : State} (p : Nat) (f : EthFrame) {s : State} (hs : Keep b0 s) :
    Keep b0 (tellerFrame p f s) := by
  unfold tellerFrame
  with_reducible
    repeat' first
      | assumption | intro _ | apply tellerTakes_keep | fail_if_no_progress apply Keep.upd | dsimp only | split

theorem execTransmissionEnd_keep (e : Stim) (port : Nat) (s : State) :
    KeepO (s.advance e) (execTransmissionEnd e port s) := by
  unfold execTransmissionEnd
  apply event_keep
  generalize s.advance e = b0
  intro t ht
  with_reducible
    repeat' first
      | assumption | intro _ | apply State.setSp_keep | apply foldCredits_keep | apply endSend_keep
      | apply tellerFrame_keep | fail_if_no_progress apply Keep.upd | dsimp only | split

theorem execPntoExpiry_keep (e : Stim) (ring : Nat) (s : State) : KeepO (s.advance e) (execPntoExpiry e ring s) := by
  unfold execPntoExpiry
  apply event_keep
  generalize s.advance e = b0
  intro t ht
  with_reducible
    repeat' first
      | assumption | intro _ | apply ring_keep | apply State.setRing_keep | apply pnNote_keep
      | fail_if_no_progress apply Keep.upd | dsimp only | split

theorem execDecoderSilence_keep (e : Stim) (can : Nat) (s : State) :
    KeepO (s.advance e) (execDecoderSilence e can s) := by
  unfold execDecoderSilence
  apply event_keep
  generalize s.advance e = b0
  intro t ht
  with_reducible
    repeat' first
      | assumption | intro _ | apply ring_keep | apply State.setRing_keep | fail_if_no_progress apply Keep.upd
      | dsimp only | split

theorem ringOff_keep {b0 : State} (r : Nat) {s : State} (hs : Keep b0 s) : Keep b0 (ringOff r s) := by
  unfold ringOff
  with_reducible
    repeat' first
      | assumption | intro _ | apply ring_keep | apply State.setRing_keep | apply ringTo_keep | apply ownDrop_keep
      | fail_if_no_progress apply Keep.upd | dsimp only | split

theorem nmgRingConfigSpec_keep {b0 : State} (c : Cmd) {s : State} (hs : Keep b0 s) :
    KeepA b0 (nmgRingConfigSpec.exec c s) := by
  unfold nmgRingConfigSpec
  with_reducible
    repeat' first
      | assumption | intro _ | apply State.setCan_keep | apply Ans.okay_keep | apply Ans.fail_keep | apply ring_keep
      | apply State.setRing_keep | apply startRing_keep | apply nmgSettle_keep | apply ringOff_keep
      | fail_if_no_progress apply Keep.upd | apply KeepA.done | apply KeepA.accept | apply KeepA.defer
      | apply KeepA.ongoing | dsimp only | split

theorem execNmgRingConfig_keep (e : Stim) (r : Req) (s : State) : KeepO (s.advance e) (execNmgRingConfig e r s) := 
  submit_row fun c _ hs => nmgRingConfigSpec_keep c hs

theorem nmgClusterSpec_keep {b0 : State} (c : Cmd) {s : State} (hs : Keep b0 s) :
    KeepA b0 (nmgClusterSpec.exec c s) := by
  unfold nmgClusterSpec
  with_reducible
    repeat' first
      | assumption | intro _ | apply Ans.okay_keep | apply Ans.fail_keep | apply nmgSettle_keep
      | fail_if_no_progress apply Keep.upd | apply KeepA.done | apply KeepA.accept | apply KeepA.defer
      | apply KeepA.ongoing | dsimp only | split

theorem execNmgCluster_keep (e : Stim) (r : Req) (s : State) : KeepO (s.advance e) (execNmgCluster e r s) := 
  submit_row fun c _ hs => nmgClusterSpec_keep c hs

theorem nmgRequestSpec_keep {b0 : State} (c : Cmd) {s : State} (hs : Keep b0 s) :
    KeepA b0 (nmgRequestSpec.exec c s) := by
  unfold nmgRequestSpec
  with_reducible
    repeat' first
      | assumption | intro _ | apply Ans.okay_keep | apply nmgSettle_keep | fail_if_no_progress apply Keep.upd
      | apply KeepA.done | apply KeepA.accept | apply KeepA.defer | apply KeepA.ongoing | dsimp only | split

theorem execNmgRequest_keep (e : Stim) (r : Req) (s : State) : KeepO (s.advance e) (execNmgRequest e r s) := 
  submit_row fun c _ hs => nmgRequestSpec_keep c hs

theorem nmgStatusSpec_keep {b0 : State} (c : Cmd) {s : State} (hs : Keep b0 s) :
    KeepA b0 (nmgStatusSpec.exec c s) := by
  unfold nmgStatusSpec
  with_reducible
    repeat' first
      | assumption | intro _ | apply ring_keep | fail_if_no_progress apply Keep.upd | apply KeepA.done
      | apply KeepA.accept | apply KeepA.defer | apply KeepA.ongoing | dsimp only | split

theorem execNmgStatus_keep (e : Stim) (r : Req) (s : State) : KeepO (s.advance e) (execNmgStatus e r s) := 
  submit_row fun c _ hs => nmgStatusSpec_keep c hs

theorem nmgWakeConfigSpec_keep {b0 : State} (c : Cmd) {s : State} (hs : Keep b0 s) :
    KeepA b0 (nmgWakeConfigSpec.exec c s) := by
  unfold nmgWakeConfigSpec
  with_reducible
    repeat' first
      | assumption | intro _ | apply Ans.okay_keep | apply nmgSettle_keep | fail_if_no_progress apply Keep.upd
      | apply KeepA.done | apply KeepA.accept | apply KeepA.defer | apply KeepA.ongoing | dsimp only | split

theorem execNmgWakeConfig_keep (e : Stim) (r : Req) (s : State) : KeepO (s.advance e) (execNmgWakeConfig e r s) := 
  submit_row fun c _ hs => nmgWakeConfigSpec_keep c hs

theorem nmgWakeCauseSpec_keep {b0 : State} (c : Cmd) {s : State} (hs : Keep b0 s) :
    KeepA b0 (nmgWakeCauseSpec.exec c s) := by
  unfold nmgWakeCauseSpec
  with_reducible
    repeat' first
      | assumption | intro _ | fail_if_no_progress apply Keep.upd | apply KeepA.done | apply KeepA.accept
      | apply KeepA.defer | apply KeepA.ongoing | dsimp only | split

theorem execNmgWakeCause_keep (e : Stim) (r : Req) (s : State) : KeepO (s.advance e) (execNmgWakeCause e r s) := 
  submit_row fun c _ hs => nmgWakeCauseSpec_keep c hs

end Sys2Proof.Machine
end

