-- ==== Sys2Proof/Laws/KeepCore.lean ====
section
/-!
SUPPORT. Keep for images, partitions, the Vault and storage.
-/

set_option linter.unusedTactic false
set_option linter.unreachableTactic false

namespace Sys2Proof.Machine

/-! ### VaultCore -/

theorem State.setHart_keep {b0 : State} (h : Nat) (x : Hart) {s : State} (hs : Keep b0 s) :
    Keep b0 (State.setHart s h x) := by
  unfold State.setHart
  with_reducible
    repeat' first
      | assumption | intro _ | fail_if_no_progress apply Keep.upd | dsimp only | split

theorem State.setPair_keep {b0 : State} (p : Nat) (x : Pair) {s : State} (hs : Keep b0 s) :
    Keep b0 (State.setPair s p x) := by
  unfold State.setPair
  with_reducible
    repeat' first
      | assumption | intro _ | fail_if_no_progress apply Keep.upd | dsimp only | split

theorem takeExc_keep {b0 : State} (h : Nat) (cause : Nat) (v : Nat) {s : State} (hs : Keep b0 s) :
    Keep b0 (takeExc h cause v s) := by
  unfold takeExc
  with_reducible
    repeat' first
      | assumption | intro _ | apply State.setHart_keep | fail_if_no_progress apply Keep.upd | dsimp only | split

theorem resyncCmd_keep {b0 : State} (p : Nat) (st : Status) {s : State} (hs : Keep b0 s) :
    Keep b0 (resyncCmd p st s) := by
  unfold resyncCmd
  with_reducible
    repeat' first
      | assumption | intro _ | apply finishCmd_keep | apply State.setPair_keep | fail_if_no_progress apply Keep.upd
      | dsimp only | split

theorem resyncNote_keep {b0 : State} (p : Nat) (ok : Bool) {s : State} (hs : Keep b0 s) :
    Keep b0 (resyncNote p ok s) := by
  unfold resyncNote
  with_reducible
    repeat' first
      | assumption | intro _ | apply noticeAll_keep | fail_if_no_progress apply Keep.upd | dsimp only | split

theorem resyncAbandon_keep {b0 : State} (p : Nat) (role : Role) {s : State} (hs : Keep b0 s) :
    Keep b0 (resyncAbandon p role s) := by
  unfold resyncAbandon
  with_reducible
    repeat' first
      | assumption | intro _ | apply State.setPair_keep | apply resyncCmd_keep | apply resyncNote_keep
      | fail_if_no_progress apply Keep.upd | dsimp only | split

theorem pairSplit_keep {b0 : State} (q : Nat) {s : State} (hs : Keep b0 s) : Keep b0 (pairSplit q s) := by
  unfold pairSplit
  with_reducible
    repeat' first
      | assumption | intro _ | apply logNotice_keep | apply State.setHart_keep | apply State.setPair_keep
      | apply resyncAbandon_keep | fail_if_no_progress apply Keep.upd | dsimp only | split

theorem debugHalt_keep {b0 : State} (h : Nat) {s : State} (hs : Keep b0 s) : Keep b0 (debugHalt h s) := by
  unfold debugHalt
  with_reducible
    repeat' first
      | assumption | intro _ | apply State.setHart_keep | apply State.setPair_keep | apply pairSplit_keep
      | fail_if_no_progress apply Keep.upd | dsimp only | split

theorem gateReturn_keep {b0 : State} (h : Nat) (status : Nat) (w0 : Nat) (w1 : Nat) (w2 : Nat) {s : State} (hs : Keep b0 s) :
    Keep b0 (gateReturn h status w0 w1 w2 s) := by
  unfold gateReturn
  with_reducible
    repeat' first
      | assumption | intro _ | apply State.setHart_keep | apply debugHalt_keep | fail_if_no_progress apply Keep.upd
      | dsimp only | split

theorem gatesOut_keep {b0 : State} (status : Nat) {s : State} (hs : Keep b0 s) : Keep b0 (gatesOut status s) := by
  unfold gatesOut
  with_reducible
    repeat' first
      | assumption | intro _ | apply gateReturn_keep | fail_if_no_progress apply Keep.upd | apply Keep.foldl
      | dsimp only | split

theorem State.setSlot_keep {b0 : State} (n : Nat) (x : MbSlot) {s : State} (hs : Keep b0 s) :
    Keep b0 (State.setSlot s n x) := by
  unfold State.setSlot
  with_reducible
    repeat' first
      | assumption | intro _ | fail_if_no_progress apply Keep.upd | dsimp only | split

theorem slotDone_keep {b0 : State} (n : Nat) (status : Nat) (res : List Word) (out : List Byte) {s : State} (hs : Keep b0 s) :
    Keep b0 (slotDone n status res out s) := by
  unfold slotDone
  with_reducible
    repeat' first
      | assumption | intro _ | apply deliverPart_keep | apply finishCmd_keep | apply State.setSlot_keep
      | fail_if_no_progress apply Keep.upd | dsimp only | split

theorem serviceEnd_keep {b0 : State} {s : State} (hs : Keep b0 s) : Keep b0 (serviceEnd s) := by
  unfold serviceEnd
  with_reducible
    repeat' first
      | assumption | intro _ | fail_if_no_progress apply Keep.upd | dsimp only | split

theorem slotsOut_keep {b0 : State} (status : Nat) {s0 : State} (hs0 : Keep b0 s0) : Keep b0 (slotsOut status s0) := by
  unfold slotsOut
  with_reducible
    repeat' first
      | assumption | intro _ | apply finishAll_keep | apply slotDone_keep | apply serviceEnd_keep
      | fail_if_no_progress apply Keep.upd | apply Keep.foldl | dsimp only | split

theorem vaultZero_keep {b0 : State} {s : State} (hs : Keep b0 s) : Keep b0 (vaultZero s) := by
  unfold vaultZero
  with_reducible
    repeat' first
      | assumption | intro _ | apply State.clearMem_keep | fail_if_no_progress apply Keep.upd | apply Keep.foldl
      | dsimp only | split

theorem dropVolatile_keep {b0 : State} {s : State} (hs : Keep b0 s) : Keep b0 (dropVolatile s) := by
  unfold dropVolatile
  with_reducible
    repeat' first
      | assumption | intro _ | fail_if_no_progress apply Keep.upd | dsimp only | split

theorem fuseAlone_keep {b0 : State} (gone : Caller → Bool) {s : State} (hs : Keep b0 s) :
    Keep b0 (fuseAlone gone s) := by
  unfold fuseAlone
  with_reducible
    repeat' first
      | assumption | intro _ | fail_if_no_progress apply Keep.upd | dsimp only | split

theorem vaultRestartBegin_keep {b0 : State} (cause : Nat) {s : State} (hs : Keep b0 s) :
    Keep b0 (vaultRestartBegin cause s) := by
  unfold vaultRestartBegin
  with_reducible
    repeat' first
      | assumption | intro _ | apply logObj_keep | apply gatesOut_keep | apply slotsOut_keep | apply vaultZero_keep
      | apply dropVolatile_keep | apply fuseAlone_keep | fail_if_no_progress apply Keep.upd | dsimp only | split

theorem refuseAccess_keep {b0 : State} (h : Nat) (a : Nat) (acc : Access) {s : State} (hs : Keep b0 s) :
    Keep b0 (refuseAccess h a acc s) := by
  unfold refuseAccess
  with_reducible
    repeat' first
      | assumption | intro _ | apply logFirst_keep | apply takeExc_keep | fail_if_no_progress apply Keep.upd
      | dsimp only | split

theorem storeRefused_keep {b0 : State} (p : Nat) (addr : Nat) (width : Nat) {s : State} (hs : Keep b0 s) :
    Keep b0 (storeRefused p addr width s) := by
  unfold storeRefused
  with_reducible
    repeat' first
      | assumption | intro _ | apply refuseAccess_keep | fail_if_no_progress apply Keep.upd | dsimp only | split

/-! ### ImgCore -/

theorem compTo_keep {b0 : State} (c : Nat) (st : ImgState) {s : State} (hs : Keep b0 s) :
    Keep b0 (compTo c st s) := by
  unfold compTo
  with_reducible
    repeat' first
      | assumption | intro _ | apply notice_keep | apply State.setIcomp_keep | fail_if_no_progress apply Keep.upd
      | dsimp only | split

theorem switchSlot_keep {b0 : State} (c : Nat) {s : State} (hs : Keep b0 s) : Keep b0 (switchSlot c s) := by
  unfold switchSlot
  with_reducible
    repeat' first
      | assumption | intro _ | apply State.setPart_keep | apply State.setIcomp_keep
      | fail_if_no_progress apply Keep.upd | dsimp only | split

theorem changeOver_keep {b0 : State} (c : Nat) {s : State} (hs : Keep b0 s) : Keep b0 (changeOver c s) := by
  unfold changeOver
  with_reducible
    repeat' first
      | assumption | intro _ | apply State.setPart_keep | apply State.setIcomp_keep | apply State.setGate_keep
      | apply gateStart_keep | apply gateStop_keep | apply vaultRestartBegin_keep | apply switchSlot_keep
      | fail_if_no_progress apply Keep.upd | dsimp only | split

theorem revertBegin_keep {b0 : State} (c : Nat) (trigger : Nat) {s : State} (hs : Keep b0 s) :
    Keep b0 (revertBegin c trigger s) := by
  unfold revertBegin
  with_reducible
    repeat' first
      | assumption | intro _ | apply logNotice_keep | apply State.setIcomp_keep | apply compTo_keep
      | apply changeOver_keep | fail_if_no_progress apply Keep.upd | dsimp only | split

theorem revertAsk_keep {b0 : State} (c : Nat) (trigger : Nat) {s : State} (hs : Keep b0 s) :
    Keep b0 (revertAsk c trigger s) := by
  unfold revertAsk
  with_reducible
    repeat' first
      | assumption | intro _ | apply State.setIcomp_keep | apply revertBegin_keep | fail_if_no_progress apply Keep.upd
      | dsimp only | split

theorem openTrial_keep {b0 : State} (c : Nat) {s : State} (hs : Keep b0 s) : Keep b0 (openTrial c s) := by
  unfold openTrial
  with_reducible
    repeat' first
      | assumption | intro _ | apply finishAll_keep | apply State.setIcomp_keep | apply compTo_keep
      | apply revertBegin_keep | fail_if_no_progress apply Keep.upd | dsimp only | split

theorem trialFault_keep {b0 : State} (c : Nat) {s : State} (hs : Keep b0 s) : Keep b0 (trialFault c s) := by
  unfold trialFault
  with_reducible
    repeat' first
      | assumption | intro _ | apply logObj_keep | apply revertBegin_keep | fail_if_no_progress apply Keep.upd
      | dsimp only | split

theorem vaultRestart_keep {b0 : State} (cause : Nat) {s : State} (hs : Keep b0 s) :
    Keep b0 (vaultRestart cause s) := by
  unfold vaultRestart
  with_reducible
    repeat' first
      | assumption | intro _ | apply vaultRestartBegin_keep | apply trialFault_keep
      | fail_if_no_progress apply Keep.upd | dsimp only | split

/-! ### Cpu -/

theorem leaveSeat_keep {b0 : State} (p : Nat) (b : List Word) {s : State} (hs : Keep b0 s) :
    Keep b0 (leaveSeat p b s) := by
  unfold leaveSeat
  with_reducible
    repeat' first
      | assumption | intro _ | apply State.setPart_keep | apply State.setPair_keep
      | fail_if_no_progress apply Keep.upd | apply Keep.foldl | dsimp only | split

theorem cpuPartConfigSpec_keep {b0 : State} (c : Cmd) {s : State} (hs : Keep b0 s) :
    KeepA b0 (cpuPartConfigSpec.exec c s) := by
  unfold cpuPartConfigSpec
  with_reducible
    repeat' first
      | assumption | intro _ | apply State.setPart_keep | apply Ans.okay_keep | apply Ans.fail_keep
      | apply leaveSeat_keep | fail_if_no_progress apply Keep.upd | apply KeepA.done | apply KeepA.accept
      | apply KeepA.defer | apply KeepA.ongoing | dsimp only | split

theorem holdHarts_keep {b0 : State} (p : Nat) {s : State} (hs : Keep b0 s) : Keep b0 (holdHarts p s) := by
  unfold holdHarts
  with_reducible
    repeat' first
      | assumption | intro _ | apply State.setHart_keep | apply fuseAlone_keep | fail_if_no_progress apply Keep.upd
      | apply Keep.foldl | dsimp only | split

theorem partLose_keep {b0 : State} (p : Nat) {s : State} (hs : Keep b0 s) : Keep b0 (partLose p s) := by
  unfold partLose
  with_reducible
    repeat' first
      | assumption | intro _ | apply State.setHart_keep | apply State.setPair_keep
      | fail_if_no_progress apply Keep.upd | apply Keep.foldl | dsimp only | split

theorem partForced_keep {b0 : State} (p : Nat) {s : State} (hs : Keep b0 s) : Keep b0 (partForced p s) := by
  unfold partForced
  with_reducible
    repeat' first
      | assumption | intro _ | apply State.setPart_keep | apply partLose_keep | fail_if_no_progress apply Keep.upd
      | dsimp only | split

theorem partGated_keep {b0 : State} (p : Nat) {s : State} (hs : Keep b0 s) : Keep b0 (partGated p s) := by
  unfold partGated
  with_reducible
    repeat' first
      | assumption | intro _ | apply gateApply_keep | apply holdHarts_keep | apply partLose_keep
      | fail_if_no_progress apply Keep.upd | dsimp only | split

theorem partDisable_keep {b0 : State} (p : Nat) (deep : Bool) (id : Nat) {s : State} (hs : Keep b0 s) :
    KeepA b0 (partDisable p deep id s) := by
  unfold partDisable
  with_reducible
    repeat' first
      | assumption | intro _ | apply gateDisable_keep | apply resyncAbandon_keep | apply holdHarts_keep
      | apply partLose_keep | fail_if_no_progress apply Keep.upd | apply Keep.foldl | apply KeepA.done
      | apply KeepA.accept | apply KeepA.defer | apply KeepA.ongoing | dsimp only | split

theorem cpuPartCtlSpec_keep {b0 : State} (c : Cmd) {s : State} (hs : Keep b0 s) :
    KeepA b0 (cpuPartCtlSpec.exec c s) := by
  unfold cpuPartCtlSpec
  with_reducible
    repeat' first
      | assumption | intro _ | apply State.setPart_keep | apply Ans.fail_keep | apply gateEnable_keep
      | apply partDisable_keep | fail_if_no_progress apply Keep.upd | apply KeepA.done | apply KeepA.accept
      | apply KeepA.defer | apply KeepA.ongoing | dsimp only | split

theorem tileCopy_keep {b0 : State} (src : Nat) (dst : Nat) {s : State} (hs : Keep b0 s) :
    Keep b0 (tileCopy src dst s) := by
  unfold tileCopy
  with_reducible
    repeat' first
      | assumption | intro _ | apply State.writeMem_keep | apply State.clearMem_keep
      | fail_if_no_progress apply Keep.upd | apply Keep.foldl | dsimp only | split

theorem startRoles_keep {b0 : State} (p : Nat) (cold : Bool) {s : State} (hs : Keep b0 s) :
    Keep b0 (startRoles p cold s) := by
  unfold startRoles
  with_reducible
    repeat' first
      | assumption | intro _ | apply State.setPair_keep | apply tileCopy_keep | fail_if_no_progress apply Keep.upd
      | dsimp only | split

theorem startTiles_keep {b0 : State} (p : Nat) {s : State} (hs : Keep b0 s) : Keep b0 (startTiles p s) := by
  unfold startTiles
  with_reducible
    repeat' first
      | assumption | intro _ | apply State.clearMem_keep | apply tileCopy_keep | fail_if_no_progress apply Keep.upd
      | dsimp only | split

theorem startHart_keep {b0 : State} (p : Nat) (h : Nat) {s : State} (hs : Keep b0 s) : Keep b0 (startHart p h s) := by
  unfold startHart
  with_reducible
    repeat' first
      | assumption | intro _ | apply State.setHart_keep | fail_if_no_progress apply Keep.upd | dsimp only | split

theorem partStart_keep {b0 : State} (p : Nat) {s : State} (hs : Keep b0 s) : Keep b0 (partStart p s) := by
  unfold partStart
  with_reducible
    repeat' first
      | assumption | intro _ | apply State.setPart_keep | apply gateRun_keep | apply State.setHart_keep
      | apply openTrial_keep | apply holdHarts_keep | apply startRoles_keep | apply startTiles_keep
      | apply startHart_keep | fail_if_no_progress apply Keep.upd | apply Keep.foldl | dsimp only | split

theorem execPartitionStart_keep (e : Stim) (p : Nat) (s : State) :
    KeepO (s.advance e) (execPartitionStart e p s) := by
  unfold execPartitionStart
  apply event_keep
  generalize s.advance e = b0
  intro t ht
  with_reducible
    repeat' first
      | assumption | intro _ | apply partStart_keep | fail_if_no_progress apply Keep.upd | dsimp only | split

theorem partStop_keep {b0 : State} (p : Nat) (cause : Nat) {s : State} (hs : Keep b0 s) :
    Keep b0 (partStop p cause s) := by
  unfold partStop
  with_reducible
    repeat' first
      | assumption | intro _ | apply noticeAll_keep | apply finishAll_keep | apply State.setPart_keep
      | apply State.setGate_keep | apply tenFault_keep | apply State.setPair_keep | apply resyncAbandon_keep
      | apply trialFault_keep | apply holdHarts_keep | fail_if_no_progress apply Keep.upd | apply Keep.foldl
      | dsimp only | split

theorem tripNote_keep {b0 : State} (q : Nat) (cause : Nat) (outcome : Nat) {s : State} (hs : Keep b0 s) :
    Keep b0 (tripNote q cause outcome s) := by
  unfold tripNote
  with_reducible
    repeat' first
      | assumption | intro _ | apply logNotice_keep | fail_if_no_progress apply Keep.upd | dsimp only | split

theorem pairOut_keep {b0 : State} (q : Nat) {s : State} (hs : Keep b0 s) : Keep b0 (pairOut q s) := by
  unfold pairOut
  with_reducible
    repeat' first
      | assumption | intro _ | apply State.setPair_keep | fail_if_no_progress apply Keep.upd | dsimp only | split

theorem pairTrip_keep {b0 : State} (q : Nat) (cause : Nat) {s : State} (hs : Keep b0 s) :
    Keep b0 (pairTrip q cause s) := by
  unfold pairTrip
  with_reducible
    repeat' first
      | assumption | intro _ | apply State.setPart_keep | apply State.setPair_keep | apply resyncAbandon_keep
      | apply partStop_keep | apply tripNote_keep | apply pairOut_keep | fail_if_no_progress apply Keep.upd
      | dsimp only | split

theorem quadTrip_keep {b0 : State} (q : Nat) (cause : Nat) {s : State} (hs : Keep b0 s) :
    Keep b0 (quadTrip q cause s) := by
  unfold quadTrip
  with_reducible
    repeat' first
      | assumption | intro _ | apply State.setPair_keep | apply partStop_keep | apply tripNote_keep
      | fail_if_no_progress apply Keep.upd | dsimp only | split

theorem execComparatorTrip_keep (e : Stim) (trip : TripRef) (cause : Nat) (s : State) :
    KeepO (s.advance e) (execComparatorTrip e trip cause s) := by
  unfold execComparatorTrip
  apply event_keep
  generalize s.advance e = b0
  intro t ht
  with_reducible
    repeat' first
      | assumption | intro _ | apply trip_keep | apply pairTrip_keep | apply quadTrip_keep
      | fail_if_no_progress apply Keep.upd | dsimp only | split

theorem execInjectedMismatchTest_keep (e : Stim) (pair : Nat) (pass : Bool) (s : State) :
    KeepO (s.advance e) (execInjectedMismatchTest e pair pass s) := by
  unfold execInjectedMismatchTest
  apply event_keep
  generalize s.advance e = b0
  intro t ht
  with_reducible
    repeat' first
      | assumption | intro _ | apply pairTrip_keep | fail_if_no_progress apply Keep.upd | dsimp only | split

theorem execStateSignatureSweep_keep (e : Stim) (pair : Nat) (equal : Bool) (s : State) :
    KeepO (s.advance e) (execStateSignatureSweep e pair equal s) := by
  unfold execStateSignatureSweep
  apply event_keep
  generalize s.advance e = b0
  intro t ht
  with_reducible
    repeat' first
      | assumption | intro _ | apply pairTrip_keep | fail_if_no_progress apply Keep.upd | dsimp only | split

theorem handover_keep {b0 : State} (q : Nat) (cause : Nat) {s : State} (hs : Keep b0 s) :
    Keep b0 (handover q cause s) := by
  unfold handover
  with_reducible
    repeat' first
      | assumption | intro _ | apply State.setPair_keep | apply resyncCmd_keep | apply resyncNote_keep
      | apply resyncAbandon_keep | fail_if_no_progress apply Keep.upd | dsimp only | split

theorem execResyncHandover_keep (e : Stim) (pair : Nat) (cause : Nat) (s : State) :
    KeepO (s.advance e) (execResyncHandover e pair cause s) := by
  unfold execResyncHandover
  apply event_keep
  generalize s.advance e = b0
  intro t ht
  with_reducible
    repeat' first
      | assumption | intro _ | apply tileCopy_keep | apply handover_keep | fail_if_no_progress apply Keep.upd
      | dsimp only | split

theorem execCoreStorageError_keep (e : Stim) (pc : Nat) (s : State) :
    KeepO (s.advance e) (execCoreStorageError e pc s) := by
  unfold execCoreStorageError
  apply event_keep
  generalize s.advance e = b0
  intro t ht
  with_reducible
    repeat' first
      | assumption | intro _ | apply partStop_keep | fail_if_no_progress apply Keep.upd | dsimp only | split

theorem pairJoin_keep {b0 : State} (q : Nat) {s : State} (hs : Keep b0 s) : Keep b0 (pairJoin q s) := by
  unfold pairJoin
  with_reducible
    repeat' first
      | assumption | intro _ | apply notice_keep | apply State.setHart_keep | apply State.setPair_keep
      | fail_if_no_progress apply Keep.upd | dsimp only | split

theorem cpuDebugSpec_keep {b0 : State} (c : Cmd) {s : State} (hs : Keep b0 s) : KeepA b0 (cpuDebugSpec.exec c s) := by
  unfold cpuDebugSpec
  with_reducible
    repeat' first
      | assumption | intro _ | apply Ans.okay_keep | apply Ans.fail_keep | apply pairSplit_keep | apply pairJoin_keep
      | fail_if_no_progress apply Keep.upd | apply KeepA.done | apply KeepA.accept | apply KeepA.defer
      | apply KeepA.ongoing | dsimp only | split

theorem execCpuDebug_keep (e : Stim) (r : Req) (s : State) : KeepO (s.advance e) (execCpuDebug e r s) := 
  submit_row fun c _ hs => cpuDebugSpec_keep c hs

theorem debugGo_keep {b0 : State} (h : Nat) {s : State} (hs : Keep b0 s) : Keep b0 (debugGo h s) := by
  unfold debugGo
  with_reducible
    repeat' first
      | assumption | intro _ | apply State.setHart_keep | apply State.setPair_keep
      | fail_if_no_progress apply Keep.upd | dsimp only | split

theorem execDebugHaltRequest_keep (e : Stim) (req : DebugReq) (s : State) :
    KeepO (s.advance e) (execDebugHaltRequest e req s) := by
  unfold execDebugHaltRequest
  apply event_keep
  generalize s.advance e = b0
  intro t ht
  with_reducible
    repeat' first
      | assumption | intro _ | apply State.setHart_keep | apply debugHalt_keep | apply debugGo_keep
      | fail_if_no_progress apply Keep.upd | dsimp only | split

theorem cpuResyncSpec_keep {b0 : State} (c : Cmd) {s : State} (hs : Keep b0 s) :
    KeepA b0 (cpuResyncSpec.exec c s) := by
  unfold cpuResyncSpec
  with_reducible
    repeat' first
      | assumption | intro _ | apply Ans.fail_keep | apply State.setPair_keep | fail_if_no_progress apply Keep.upd
      | apply KeepA.done | apply KeepA.accept | apply KeepA.defer | apply KeepA.ongoing | dsimp only | split

theorem execCpuResync_keep (e : Stim) (r : Req) (s : State) : KeepO (s.advance e) (execCpuResync e r s) := 
  submit_row fun c _ hs => cpuResyncSpec_keep c hs

theorem cpuInjectSpec_keep {b0 : State} (c : Cmd) {s : State} (hs : Keep b0 s) :
    KeepA b0 (cpuInjectSpec.exec c s) := by
  unfold cpuInjectSpec
  with_reducible
    repeat' first
      | assumption | intro _ | apply Ans.okay_keep | apply Ans.fail_keep | apply pairTrip_keep
      | fail_if_no_progress apply Keep.upd | apply KeepA.done | apply KeepA.accept | apply KeepA.defer
      | apply KeepA.ongoing | dsimp only | split

theorem execCpuInject_keep (e : Stim) (r : Req) (s : State) : KeepO (s.advance e) (execCpuInject e r s) := 
  submit_row fun c _ hs => cpuInjectSpec_keep c hs

theorem cpuPartStatusSpec_keep {b0 : State} (c : Cmd) {s : State} (hs : Keep b0 s) :
    KeepA b0 (cpuPartStatusSpec.exec c s) := by
  unfold cpuPartStatusSpec
  with_reducible
    repeat' first
      | assumption | intro _ | fail_if_no_progress apply Keep.upd | apply KeepA.done | apply KeepA.accept
      | apply KeepA.defer | apply KeepA.ongoing | dsimp only | split

theorem cpuPairStatusSpec_keep {b0 : State} (c : Cmd) {s : State} (hs : Keep b0 s) :
    KeepA b0 (cpuPairStatusSpec.exec c s) := by
  unfold cpuPairStatusSpec
  with_reducible
    repeat' first
      | assumption | intro _ | fail_if_no_progress apply Keep.upd | apply KeepA.done | apply KeepA.accept
      | apply KeepA.defer | apply KeepA.ongoing | dsimp only | split

theorem execCpuPairStatus_keep (e : Stim) (r : Req) (s : State) : KeepO (s.advance e) (execCpuPairStatus e r s) := 
  submit_row fun c _ hs => cpuPairStatusSpec_keep c hs

theorem cpuMemStatusSpec_keep {b0 : State} (c : Cmd) {s : State} (hs : Keep b0 s) :
    KeepA b0 (cpuMemStatusSpec.exec c s) := by
  unfold cpuMemStatusSpec
  with_reducible
    repeat' first
      | assumption | intro _ | apply State.setMemCnt_keep | fail_if_no_progress apply Keep.upd | apply Keep.foldl
      | apply KeepA.done | apply KeepA.accept | apply KeepA.defer | apply KeepA.ongoing | dsimp only | split

theorem execCpuMemStatus_keep (e : Stim) (r : Req) (s : State) : KeepO (s.advance e) (execCpuMemStatus e r s) := 
  submit_row fun c _ hs => cpuMemStatusSpec_keep c hs

theorem eccNote_keep {b0 : State} (m : Nat) (flags : Nat) (a : Nat) {s : State} (hs : Keep b0 s) :
    Keep b0 (eccNote m flags a s) := by
  unfold eccNote
  with_reducible
    repeat' first
      | assumption | intro _ | apply noticeAll_keep | fail_if_no_progress apply Keep.upd | dsimp only | split

theorem patrolFix_keep {b0 : State} (m : Nat) (a : Nat) {s : State} (hs : Keep b0 s) : Keep b0 (patrolFix m a s) := by
  unfold patrolFix
  with_reducible
    repeat' first
      | assumption | intro _ | apply State.setMemCnt_keep | apply eccNote_keep | fail_if_no_progress apply Keep.upd
      | dsimp only | split

theorem execPatrolRead_keep (e : Stim) (addr : Nat) (kind : Nat) (s : State) :
    KeepO (s.advance e) (execPatrolRead e addr kind s) := by
  unfold execPatrolRead
  apply event_keep
  generalize s.advance e = b0
  intro t ht
  with_reducible
    repeat' first
      | assumption | intro _ | apply uncorrectable_keep | apply patrolFix_keep | fail_if_no_progress apply Keep.upd
      | dsimp only | split

theorem execUncorrectableRead_keep (e : Stim) (who : Nat) (addr : Nat) (s : State) :
    KeepO (s.advance e) (execUncorrectableRead e who addr s) := by
  unfold execUncorrectableRead
  apply event_keep
  generalize s.advance e = b0
  intro t ht
  with_reducible
    repeat' first
      | assumption | intro _ | apply uncorrectable_keep | apply takeExc_keep | fail_if_no_progress apply Keep.upd
      | dsimp only | split

theorem execTallyRead_keep (e : Stim) (rd : CsrRead) (s : State) : KeepO (s.advance e) (execTallyRead e rd s) := by
  unfold execTallyRead
  apply event_keep
  generalize s.advance e = b0
  intro t ht
  with_reducible
    repeat' first
      | assumption | intro _ | apply State.setHart_keep | fail_if_no_progress apply Keep.upd | dsimp only | split

theorem execCsrWriteTrap_keep (e : Stim) (hart : Nat) (csr : Nat) (s : State) :
    KeepO (s.advance e) (execCsrWriteTrap e hart csr s) := by
  unfold execCsrWriteTrap
  apply event_keep
  generalize s.advance e = b0
  intro t ht
  with_reducible
    repeat' first
      | assumption | intro _ | apply takeExc_keep | fail_if_no_progress apply Keep.upd | dsimp only | split

theorem execAccessRefused_keep (e : Stim) (who : Nat) (addr : Nat) (acc : Access) (s : State) :
    KeepO (s.advance e) (execAccessRefused e who addr acc s) := by
  unfold execAccessRefused
  apply event_keep
  generalize s.advance e = b0
  intro t ht
  with_reducible
    repeat' first
      | assumption | intro _ | apply refuseAccess_keep | fail_if_no_progress apply Keep.upd | dsimp only | split

theorem execEcall_keep (e : Stim) (hart : Nat) (s : State) : KeepO (s.advance e) (execEcall e hart s) := by
  unfold execEcall
  apply event_keep
  generalize s.advance e = b0
  intro t ht
  with_reducible
    repeat' first
      | assumption | intro _ | apply State.setHart_keep | fail_if_no_progress apply Keep.upd | dsimp only | split

/-! ### CanTx -/

theorem reportPri_keep {b0 : State} (n : Nat) {s : State} (hs : Keep b0 s) : Keep b0 (reportPri n s) := by
  unfold reportPri
  with_reducible
    repeat' first
      | assumption | intro _ | apply txEvent_keep | apply priDone_keep | fail_if_no_progress apply Keep.upd
      | apply Keep.foldl | dsimp only | split

theorem reportFifo_keep {b0 : State} (n : Nat) (x0 : Nat) {x1 : State} (hx1 : Keep b0 x1) :
    Keep b0 (reportFifo n x0 x1) := by
  induction x0 generalizing x1 with
  | zero =>
    unfold reportFifo
    with_reducible
      repeat' first
        | assumption | intro _ | apply txEvent_keep | apply fifoNext_keep | apply txFill_keep
        | fail_if_no_progress apply Keep.upd | dsimp only | split
  | succ n ih =>
    unfold reportFifo
    with_reducible
      repeat' first
        | assumption | intro _ | apply ih | apply txEvent_keep | apply fifoNext_keep | apply txFill_keep
        | fail_if_no_progress apply Keep.upd | dsimp only | split

theorem ageQueue_keep {b0 : State} (n : Nat) {s : State} (hs : Keep b0 s) : Keep b0 (ageQueue n s) := by
  unfold ageQueue
  with_reducible
    repeat' first
      | assumption | intro _ | apply State.setCan_keep | fail_if_no_progress apply Keep.upd | dsimp only | split

theorem syncFresh_keep {b0 : State} (n : Nat) {s : State} (hs : Keep b0 s) : Keep b0 (syncFresh n s) := by
  unfold syncFresh
  with_reducible
    repeat' first
      | assumption | intro _ | apply State.writeMem_keep | fail_if_no_progress apply Keep.upd | dsimp only | split

theorem enterArb_keep {b0 : State} (n : Nat) (t : CanTx) {s : State} (hs : Keep b0 s) : Keep b0 (enterArb n t s) := by
  unfold enterArb
  with_reducible
    repeat' first
      | assumption | intro _ | apply State.setCan_keep | fail_if_no_progress apply Keep.upd | dsimp only | split

theorem arbitrate_keep {b0 : State} (n : Nat) {s : State} (hs : Keep b0 s) : Keep b0 (arbitrate n s) := by
  unfold arbitrate
  with_reducible
    repeat' first
      | assumption | intro _ | apply txFill_keep | apply reportPri_keep | apply reportFifo_keep | apply ageQueue_keep
      | apply syncFresh_keep | apply enterArb_keep | fail_if_no_progress apply Keep.upd | dsimp only | split

theorem execCanArbitration_keep (e : Stim) (can : Nat) (s : State) :
    KeepO (s.advance e) (execCanArbitration e can s) := by
  unfold execCanArbitration
  apply event_keep
  generalize s.advance e = b0
  intro t ht
  with_reducible
    repeat' first
      | assumption | intro _ | apply State.setCan_keep | apply prepareOver_keep | apply arbitrate_keep
      | fail_if_no_progress apply Keep.upd | dsimp only | split

theorem syncSkip_keep {b0 : State} (tt : Nat) {s : State} (hs : Keep b0 s) : Keep b0 (syncSkip tt s) := by
  unfold syncSkip
  with_reducible
    repeat' first
      | assumption | intro _ | fail_if_no_progress apply Keep.upd | dsimp only | split

theorem State.setRef_keep {b0 : State} (n : Nat) (r : CanRef) {s : State} (hs : Keep b0 s) :
    Keep b0 (State.setRef s n r) := by
  unfold State.setRef
  with_reducible
    repeat' first
      | assumption | intro _ | fail_if_no_progress apply Keep.upd | dsimp only | split

theorem syncEnd_keep {b0 : State} (n : Nat) (ok : Bool) {s : State} (hs : Keep b0 s) : Keep b0 (syncEnd n ok s) := by
  unfold syncEnd
  with_reducible
    repeat' first
      | assumption | intro _ | apply syncSkip_keep | apply State.setRef_keep | fail_if_no_progress apply Keep.upd
      | dsimp only | split

theorem syncLost_keep {b0 : State} (n : Nat) {s : State} (hs : Keep b0 s) : Keep b0 (syncLost n s) := by
  unfold syncLost
  with_reducible
    repeat' first
      | assumption | intro _ | apply syncSkip_keep | apply State.setRef_keep | fail_if_no_progress apply Keep.upd
      | dsimp only | split

theorem priEnd_keep {b0 : State} (n : Nat) (p : Nat) {s : State} (hs : Keep b0 s) : Keep b0 (priEnd n p s) := by
  unfold priEnd
  with_reducible
    repeat' first
      | assumption | intro _ | apply priDone_keep | fail_if_no_progress apply Keep.upd | dsimp only | split

theorem ownSent_keep {b0 : State} (n : Nat) (p : Nat) {s : State} (hs : Keep b0 s) : Keep b0 (ownSent n p s) := by
  unfold ownSent
  with_reducible
    repeat' first
      | assumption | intro _ | apply ringSent_keep | apply clusterSent_keep | apply syncEnd_keep
      | fail_if_no_progress apply Keep.upd | dsimp only | split

theorem tecDown_keep {b0 : State} (n : Nat) {s : State} (hs : Keep b0 s) : Keep b0 (tecDown n s) := by
  unfold tecDown
  with_reducible
    repeat' first
      | assumption | intro _ | apply setErr_keep | fail_if_no_progress apply Keep.upd | dsimp only | split

theorem txSuccess_keep {b0 : State} (n : Nat) (t : CanTx) {s0 : State} (hs0 : Keep b0 s0) :
    Keep b0 (txSuccess n t s0) := by
  unfold txSuccess
  with_reducible
    repeat' first
      | assumption | intro _ | apply State.setCan_keep | apply canIrq_keep | apply txEvent_keep | apply fifoNext_keep
      | apply rxAccept_keep | apply aloneEnds_keep | apply priEnd_keep | apply ownSent_keep | apply tecDown_keep
      | fail_if_no_progress apply Keep.upd | dsimp only | split

theorem gwBack_keep {b0 : State} (n : Nat) (g : GwFrame) {s : State} (hs : Keep b0 s) : Keep b0 (gwBack n g s) := by
  unfold gwBack
  with_reducible
    repeat' first
      | assumption | intro _ | apply State.setCan_keep | fail_if_no_progress apply Keep.upd | dsimp only | split

theorem txFail_keep {b0 : State} (n : Nat) (lost : Bool) (t : CanTx) {s0 : State} (hs0 : Keep b0 s0) :
    Keep b0 (txFail n lost t s0) := by
  unfold txFail
  with_reducible
    repeat' first
      | assumption | intro _ | apply State.setCan_keep | apply txEvent_keep | apply priDone_keep | apply fifoNext_keep
      | apply syncEnd_keep | apply syncLost_keep | apply gwBack_keep | fail_if_no_progress apply Keep.upd | dsimp only
      | split

theorem takeTdcv_keep {b0 : State} (n : Nat) (tdcv : Nat) (f : CanFrame) {s : State} (hs : Keep b0 s) :
    Keep b0 ((takeTdcv n tdcv f s).1) := by
  unfold takeTdcv
  with_reducible
    repeat' first
      | assumption | intro _ | apply State.setCan_keep | apply setFlag_keep | fail_if_no_progress apply Keep.upd
      | dsimp only | split

theorem txOutcome_keep {b0 : State} (n : Nat) (o : TxOutcome) (tdcv : Nat) {s : State} (hs : Keep b0 s) :
    Keep b0 (txOutcome n o tdcv s) := by
  unfold txOutcome
  with_reducible
    repeat' first
      | assumption | intro _ | apply txSuccess_keep | apply txFail_keep | apply takeTdcv_keep
      | fail_if_no_progress apply Keep.upd | dsimp only | split

theorem execCanTransmitOutcome_keep (e : Stim) (can : Nat) (outcome : TxOutcome) (tdcv : Nat) (s : State) :
    KeepO (s.advance e) (execCanTransmitOutcome e can outcome tdcv s) := by
  unfold execCanTransmitOutcome
  apply event_keep
  generalize s.advance e = b0
  intro t ht
  with_reducible
    repeat' first
      | assumption | intro _ | apply txOutcome_keep | fail_if_no_progress apply Keep.upd | dsimp only | split

theorem loneNote_keep {b0 : State} (n : Nat) {s : State} (hs : Keep b0 s) : Keep b0 (loneNote n s) := by
  unfold loneNote
  with_reducible
    repeat' first
      | assumption | intro _ | apply canNotice_keep | apply setFlag_keep | fail_if_no_progress apply Keep.upd
      | dsimp only | split

theorem ackCount_keep {b0 : State} (n : Nat) {s : State} (hs : Keep b0 s) : Keep b0 (ackCount n s) := by
  unfold ackCount
  with_reducible
    repeat' first
      | assumption | intro _ | apply State.setCan_keep | apply loneNote_keep | fail_if_no_progress apply Keep.upd
      | dsimp only | split

theorem busOff_keep {b0 : State} (n : Nat) (recv : Nat) {s : State} (hs : Keep b0 s) : Keep b0 (busOff n recv s) := by
  unfold busOff
  with_reducible
    repeat' first
      | assumption | intro _ | apply State.setCan_keep | apply setErr_keep | apply txFail_keep
      | fail_if_no_progress apply Keep.upd | dsimp only | split

theorem canError_keep {b0 : State} (n : Nat) (lec : Nat) (tx : Bool) (alt : Bool) {s0 : State} (hs0 : Keep b0 s0) :
    Keep b0 (canError n lec tx alt s0) := by
  unfold canError
  with_reducible
    repeat' first
      | assumption | intro _ | apply State.setCan_keep | apply setErr_keep | apply ackCount_keep | apply busOff_keep
      | fail_if_no_progress apply Keep.upd | dsimp only | split

theorem execBusOffRecovery_keep (e : Stim) (can : Nat) (s : State) :
    KeepO (s.advance e) (execBusOffRecovery e can s) := by
  unfold execBusOffRecovery
  apply event_keep
  generalize s.advance e = b0
  intro t ht
  with_reducible
    repeat' first
      | assumption | intro _ | apply setErr_keep | fail_if_no_progress apply Keep.upd | dsimp only | split

theorem execLonePauseEnd_keep (e : Stim) (can : Nat) (s : State) :
    KeepO (s.advance e) (execLonePauseEnd e can s) := by
  unfold execLonePauseEnd
  apply event_keep
  generalize s.advance e = b0
  intro t ht
  with_reducible
    repeat' first
      | assumption | intro _ | apply State.setCan_keep | fail_if_no_progress apply Keep.upd | dsimp only | split

theorem shutPri_keep {b0 : State} (n : Nat) {s : State} (hs : Keep b0 s) : Keep b0 (shutPri n s) := by
  unfold shutPri
  with_reducible
    repeat' first
      | assumption | intro _ | apply txEvent_keep | apply priDone_keep | fail_if_no_progress apply Keep.upd
      | apply Keep.foldl | dsimp only | split

theorem shutFifo_keep {b0 : State} (n : Nat) (x0 : Nat) {x1 : State} (hx1 : Keep b0 x1) :
    Keep b0 (shutFifo n x0 x1) := by
  induction x0 generalizing x1 with
  | zero =>
    unfold shutFifo
    with_reducible
      repeat' first
        | assumption | intro _ | apply txEvent_keep | apply fifoNext_keep | apply txFill_keep
        | fail_if_no_progress apply Keep.upd | dsimp only | split
  | succ n ih =>
    unfold shutFifo
    with_reducible
      repeat' first
        | assumption | intro _ | apply ih | apply txEvent_keep | apply fifoNext_keep | apply txFill_keep
        | fail_if_no_progress apply Keep.upd | dsimp only | split

theorem syncDrop_keep {b0 : State} (n : Nat) {s : State} (hs : Keep b0 s) : Keep b0 (syncDrop n s) := by
  unfold syncDrop
  with_reducible
    repeat' first
      | assumption | intro _ | apply syncSkip_keep | apply State.setRef_keep | fail_if_no_progress apply Keep.upd
      | dsimp only | split

theorem syncFree_keep {b0 : State} (n : Nat) {s : State} (hs : Keep b0 s) : Keep b0 (syncFree n s) := by
  unfold syncFree
  with_reducible
    repeat' first
      | assumption | intro _ | apply State.setRef_keep | fail_if_no_progress apply Keep.upd | dsimp only | split

theorem syncCut_keep {b0 : State} (n : Nat) {s : State} (hs : Keep b0 s) : Keep b0 (syncCut n s) := by
  unfold syncCut
  with_reducible
    repeat' first
      | assumption | intro _ | apply syncEnd_keep | apply syncDrop_keep | fail_if_no_progress apply Keep.upd
      | dsimp only | split

theorem canGated_keep {b0 : State} (n : Nat) {s : State} (hs : Keep b0 s) : Keep b0 (canGated n s) := by
  unfold canGated
  with_reducible
    repeat' first
      | assumption | intro _ | apply State.setCan_keep | apply txFill_keep | apply shutPri_keep | apply shutFifo_keep
      | apply syncCut_keep | fail_if_no_progress apply Keep.upd | dsimp only | split

theorem canRun_keep {b0 : State} (n : Nat) {s : State} (hs : Keep b0 s) : Keep b0 (canRun n s) := by
  unfold canRun
  with_reducible
    repeat' first
      | assumption | intro _ | apply State.setCan_keep | apply setErr_keep | fail_if_no_progress apply Keep.upd
      | dsimp only | split

theorem linGated_keep {b0 : State} (n : Nat) {s : State} (hs : Keep b0 s) : Keep b0 (linGated n s) := by
  unfold linGated
  with_reducible
    repeat' first
      | assumption | intro _ | apply State.setLin_keep | fail_if_no_progress apply Keep.upd | dsimp only | split

theorem linRun_keep {b0 : State} (n : Nat) {s : State} (hs : Keep b0 s) : Keep b0 (linRun n s) := by
  unfold linRun
  with_reducible
    repeat' first
      | assumption | intro _ | apply State.setLin_keep | fail_if_no_progress apply Keep.upd | dsimp only | split

/-! ### Tim -/

theorem withWork_keep {b0 : State} (f : State → State) {s : State} (hs : Keep b0 s) (hff : ∀ s, Keep b0 s → Keep b0 (f s)) :
    Keep b0 (withWork f s) := by
  unfold withWork
  with_reducible
    repeat' first
      | assumption | intro _ | apply hff | apply noticeAll_keep | fail_if_no_progress apply Keep.upd | dsimp only
      | split

theorem instTo_keep {b0 : State} (i : Nat) (st : TimState) {s : State} (hs : Keep b0 s) :
    Keep b0 (instTo i st s) := by
  unfold instTo
  with_reducible
    repeat' first
      | assumption | intro _ | apply State.setInst_keep | fail_if_no_progress apply Keep.upd | dsimp only | split

theorem foldFirings_keep {b0 : State} (old : Nat) (delta : Nat) {s : State} (hs : Keep b0 s) :
    Keep b0 (foldFirings old delta s) := by
  unfold foldFirings
  with_reducible
    repeat' first
      | assumption | intro _ | fail_if_no_progress apply Keep.upd | dsimp only | split

theorem overdrawAll_keep {b0 : State} (ch : Nat) {s : State} (hs : Keep b0 s) : Keep b0 (overdrawAll s ch) := by
  unfold overdrawAll
  with_reducible
    repeat' first
      | assumption | intro _ | apply overdrawRun_keep | fail_if_no_progress apply Keep.upd | dsimp only | split

theorem stepMeters_keep {b0 : State} {s : State} (hs : Keep b0 s) : Keep b0 (stepMeters s) := by
  unfold stepMeters
  with_reducible
    repeat' first
      | assumption | intro _ | apply overdrawAll_keep | fail_if_no_progress apply Keep.upd | apply Keep.foldl
      | dsimp only | split

theorem tallyStep_keep {b0 : State} (new : Nat) {s0 : State} (hs0 : Keep b0 s0) : Keep b0 (tallyStep new s0) := by
  unfold tallyStep
  with_reducible
    repeat' first
      | assumption | intro _ | apply logNotice_keep | apply markDue_keep | apply stepWindows_keep
      | apply foldFirings_keep | apply stepMeters_keep | fail_if_no_progress apply Keep.upd | dsimp only | split

theorem discipline_keep {b0 : State} (o : Int) {s : State} (hs : Keep b0 s) : Keep b0 (discipline o s) := by
  unfold discipline
  with_reducible
    repeat' first
      | assumption | intro _ | apply State.drawNat_keep | apply tallyStep_keep | fail_if_no_progress apply Keep.upd
      | dsimp only | split

theorem syncAccepted_keep {b0 : State} (i : Nat) (o : Int) (port : Nat) {s : State} (hs : Keep b0 s) :
    Keep b0 (syncAccepted i o port s) := by
  unfold syncAccepted
  with_reducible
    repeat' first
      | assumption | intro _ | apply State.setInst_keep | apply instTo_keep | apply discipline_keep
      | fail_if_no_progress apply Keep.upd | dsimp only | split

theorem syncIn_keep {b0 : State} (i : Nat) (o : Int) (gm : Nat) (port : Nat) {s : State} (hs : Keep b0 s) :
    Keep b0 (syncIn i o gm port s) := by
  unfold syncIn
  with_reducible
    repeat' first
      | assumption | intro _ | apply State.setInst_keep | apply instTo_keep | apply syncAccepted_keep
      | fail_if_no_progress apply Keep.upd | dsimp only | split

theorem execSyncReceived_keep (e : Stim) (inst : Nat) (offset : Int) (gm : Nat) (port : Nat) (s : State) :
    KeepO (s.advance e) (execSyncReceived e inst offset gm port s) := by
  unfold execSyncReceived
  apply event_keep
  generalize s.advance e = b0
  intro t ht
  with_reducible
    repeat' first
      | assumption | intro _ | apply withWork_keep | apply syncIn_keep | fail_if_no_progress apply Keep.upd
      | dsimp only | split

theorem syncTimeout_keep {b0 : State} (i : Nat) {s : State} (hs : Keep b0 s) : Keep b0 (syncTimeout i s) := by
  unfold syncTimeout
  with_reducible
    repeat' first
      | assumption | intro _ | apply instTo_keep | fail_if_no_progress apply Keep.upd | dsimp only | split

theorem execSyncTimeout_keep (e : Stim) (s : State) : KeepO (s.advance e) (execSyncTimeout e s) := by
  unfold execSyncTimeout
  apply event_keep
  generalize s.advance e = b0
  intro t ht
  with_reducible
    repeat' first
      | assumption | intro _ | apply withWork_keep | apply syncTimeout_keep | fail_if_no_progress apply Keep.upd
      | dsimp only | split

theorem holdoverEnd_keep {b0 : State} (i : Nat) {s : State} (hs : Keep b0 s) : Keep b0 (holdoverEnd i s) := by
  unfold holdoverEnd
  with_reducible
    repeat' first
      | assumption | intro _ | apply instTo_keep | fail_if_no_progress apply Keep.upd | dsimp only | split

theorem execHoldoverExpiry_keep (e : Stim) (s : State) : KeepO (s.advance e) (execHoldoverExpiry e s) := by
  unfold execHoldoverExpiry
  apply event_keep
  generalize s.advance e = b0
  intro t ht
  with_reducible
    repeat' first
      | assumption | intro _ | apply withWork_keep | apply holdoverEnd_keep | fail_if_no_progress apply Keep.upd
      | dsimp only | split

theorem becomeGm_keep {b0 : State} {s : State} (hs : Keep b0 s) : Keep b0 (becomeGm s) := by
  unfold becomeGm
  with_reducible
    repeat' first
      | assumption | intro _ | apply State.setInst_keep | apply instTo_keep | fail_if_no_progress apply Keep.upd
      | dsimp only | split

theorem execBecomesGrandmaster_keep (e : Stim) (s : State) : KeepO (s.advance e) (execBecomesGrandmaster e s) := by
  unfold execBecomesGrandmaster
  apply event_keep
  generalize s.advance e = b0
  intro t ht
  with_reducible
    repeat' first
      | assumption | intro _ | apply withWork_keep | apply becomeGm_keep | fail_if_no_progress apply Keep.upd
      | dsimp only | split

theorem execTnsWrap_keep (e : Stim) (s : State) : KeepO (s.advance e) (execTnsWrap e s) := by
  unfold execTnsWrap
  have hs := Keep.refl (s.advance e)
  revert hs
  generalize s.advance e = b0
  intro hs
  refine ⟨_, rfl, ?_⟩
  with_reducible
    repeat' first
      | assumption | intro _ | fail_if_no_progress apply Keep.upd | dsimp only | split

theorem execSecondWindowEnd_keep (e : Stim) (s : State) : KeepO (s.advance e) (execSecondWindowEnd e s) := by
  unfold execSecondWindowEnd
  have hs := Keep.refl (s.advance e)
  revert hs
  generalize s.advance e = b0
  intro hs
  refine ⟨_, rfl, ?_⟩
  with_reducible
    repeat' first
      | assumption | intro _ | fail_if_no_progress apply Keep.upd | dsimp only | split

theorem timNowSpec_keep {b0 : State} (c : Cmd) {s : State} (hs : Keep b0 s) : KeepA b0 (timNowSpec.exec c s) := by
  unfold timNowSpec
  with_reducible
    repeat' first
      | assumption | intro _ | fail_if_no_progress apply Keep.upd | apply KeepA.done | apply KeepA.accept
      | apply KeepA.defer | apply KeepA.ongoing | dsimp only | split

theorem execTimNow_keep (e : Stim) (r : Req) (s : State) : KeepO (s.advance e) (execTimNow e r s) := 
  submit_row fun c _ hs => timNowSpec_keep c hs

theorem timStatusSpec_keep {b0 : State} (c : Cmd) {s : State} (hs : Keep b0 s) :
    KeepA b0 (timStatusSpec.exec c s) := by
  unfold timStatusSpec
  with_reducible
    repeat' first
      | assumption | intro _ | fail_if_no_progress apply Keep.upd | apply KeepA.done | apply KeepA.accept
      | apply KeepA.defer | apply KeepA.ongoing | dsimp only | split

theorem execTimStatus_keep (e : Stim) (r : Req) (s : State) : KeepO (s.advance e) (execTimStatus e r s) := 
  submit_row fun c _ hs => timStatusSpec_keep c hs

theorem setDomain_keep {b0 : State} (ps : List Word) {s0 : State} (hs0 : Keep b0 s0) : Keep b0 (setDomain ps s0) := by
  unfold setDomain
  with_reducible
    repeat' first
      | assumption | intro _ | apply State.setInst_keep | fail_if_no_progress apply Keep.upd | dsimp only | split

theorem setWork_keep {b0 : State} (i : Nat) {s : State} (hs : Keep b0 s) : Keep b0 (setWork i s) := by
  unfold setWork
  with_reducible
    repeat' first
      | assumption | intro _ | apply discipline_keep | fail_if_no_progress apply Keep.upd | dsimp only | split

theorem timDomainSpec_keep {b0 : State} (c : Cmd) {s : State} (hs : Keep b0 s) :
    KeepA b0 (timDomainSpec.exec c s) := by
  unfold timDomainSpec
  with_reducible
    repeat' first
      | assumption | intro _ | apply Ans.okay_keep | apply withWork_keep | apply setDomain_keep | apply setWork_keep
      | fail_if_no_progress apply Keep.upd | apply KeepA.done | apply KeepA.accept | apply KeepA.defer
      | apply KeepA.ongoing | dsimp only | split

theorem execTimDomain_keep (e : Stim) (r : Req) (s : State) : KeepO (s.advance e) (execTimDomain e r s) := 
  submit_row fun c _ hs => timDomainSpec_keep c hs

theorem timSetSpec_keep {b0 : State} (c : Cmd) {s : State} (hs : Keep b0 s) : KeepA b0 (timSetSpec.exec c s) := by
  unfold timSetSpec
  with_reducible
    repeat' first
      | assumption | intro _ | apply Ans.okay_keep | apply Ans.fail_keep | apply tallyStep_keep
      | fail_if_no_progress apply Keep.upd | apply KeepA.done | apply KeepA.accept | apply KeepA.defer
      | apply KeepA.ongoing | dsimp only | split

theorem execTimSet_keep (e : Stim) (r : Req) (s : State) : KeepO (s.advance e) (execTimSet e r s) := 
  submit_row fun c _ hs => timSetSpec_keep c hs

theorem timPortlatSpec_keep {b0 : State} (c : Cmd) {s : State} (hs : Keep b0 s) :
    KeepA b0 (timPortlatSpec.exec c s) := by
  unfold timPortlatSpec
  with_reducible
    repeat' first
      | assumption | intro _ | apply Ans.okay_keep | fail_if_no_progress apply Keep.upd | apply KeepA.done
      | apply KeepA.accept | apply KeepA.defer | apply KeepA.ongoing | dsimp only | split

theorem execTimPortlat_keep (e : Stim) (r : Req) (s : State) : KeepO (s.advance e) (execTimPortlat e r s) := 
  submit_row fun c _ hs => timPortlatSpec_keep c hs

theorem timPpsSpec_keep {b0 : State} (c : Cmd) {s : State} (hs : Keep b0 s) : KeepA b0 (timPpsSpec.exec c s) := by
  unfold timPpsSpec
  with_reducible
    repeat' first
      | assumption | intro _ | apply Ans.okay_keep | fail_if_no_progress apply Keep.upd | apply KeepA.done
      | apply KeepA.accept | apply KeepA.defer | apply KeepA.ongoing | dsimp only | split

theorem execTimPps_keep (e : Stim) (r : Req) (s : State) : KeepO (s.advance e) (execTimPps e r s) := 
  submit_row fun c _ hs => timPpsSpec_keep c hs

theorem execPpsOutPulse_keep (e : Stim) (s : State) : KeepO (s.advance e) (execPpsOutPulse e s) := by
  unfold execPpsOutPulse
  apply event_keep
  generalize s.advance e = b0
  intro t ht
  with_reducible
    repeat' first
      | assumption | intro _ | fail_if_no_progress apply Keep.upd | dsimp only | split

theorem execPpsOutFall_keep (e : Stim) (s : State) : KeepO (s.advance e) (execPpsOutFall e s) := by
  unfold execPpsOutFall
  apply event_keep
  generalize s.advance e = b0
  intro t ht
  with_reducible
    repeat' first
      | assumption | intro _ | fail_if_no_progress apply Keep.upd | dsimp only | split

theorem ppsEdge_keep {b0 : State} {s : State} (hs : Keep b0 s) : Keep b0 (ppsEdge s) := by
  unfold ppsEdge
  with_reducible
    repeat' first
      | assumption | intro _ | apply discipline_keep | fail_if_no_progress apply Keep.upd | dsimp only | split

theorem execPpsInEdge_keep (e : Stim) (s : State) : KeepO (s.advance e) (execPpsInEdge e s) := by
  unfold execPpsInEdge
  apply event_keep
  generalize s.advance e = b0
  intro t ht
  with_reducible
    repeat' first
      | assumption | intro _ | apply ppsEdge_keep | fail_if_no_progress apply Keep.upd | dsimp only | split

theorem timPpsinSpec_keep {b0 : State} (c : Cmd) {s : State} (hs : Keep b0 s) : KeepA b0 (timPpsinSpec.exec c s) := by
  unfold timPpsinSpec
  with_reducible
    repeat' first
      | assumption | intro _ | fail_if_no_progress apply Keep.upd | apply KeepA.done | apply KeepA.accept
      | apply KeepA.defer | apply KeepA.ongoing | dsimp only | split

theorem execTimPpsin_keep (e : Stim) (r : Req) (s : State) : KeepO (s.advance e) (execTimPpsin e r s) := 
  submit_row fun c _ hs => timPpsinSpec_keep c hs

theorem State.setTrg_keep {b0 : State} (tt : Nat) (x : Trigger) {s : State} (hs : Keep b0 s) :
    Keep b0 (State.setTrg s tt x) := by
  unfold State.setTrg
  with_reducible
    repeat' first
      | assumption | intro _ | fail_if_no_progress apply Keep.upd | dsimp only | split

theorem timTrigAssignSpec_keep {b0 : State} (c : Cmd) {s : State} (hs : Keep b0 s) :
    KeepA b0 (timTrigAssignSpec.exec c s) := by
  unfold timTrigAssignSpec
  with_reducible
    repeat' first
      | assumption | intro _ | apply Ans.okay_keep | apply Ans.fail_keep | apply State.setTrg_keep
      | fail_if_no_progress apply Keep.upd | apply KeepA.done | apply KeepA.accept | apply KeepA.defer
      | apply KeepA.ongoing | dsimp only | split

theorem execTimTrigAssign_keep (e : Stim) (r : Req) (s : State) : KeepO (s.advance e) (execTimTrigAssign e r s) := 
  submit_row fun c _ hs => timTrigAssignSpec_keep c hs

theorem timTrigConfigSpec_keep {b0 : State} (c : Cmd) {s : State} (hs : Keep b0 s) :
    KeepA b0 (timTrigConfigSpec.exec c s) := by
  unfold timTrigConfigSpec
  with_reducible
    repeat' first
      | assumption | intro _ | apply Ans.okay_keep | apply Ans.fail_keep | apply State.setTrg_keep
      | fail_if_no_progress apply Keep.upd | apply KeepA.done | apply KeepA.accept | apply KeepA.defer
      | apply KeepA.ongoing | dsimp only | split

theorem execTimTrigConfig_keep (e : Stim) (r : Req) (s : State) : KeepO (s.advance e) (execTimTrigConfig e r s) := 
  submit_row fun c _ hs => timTrigConfigSpec_keep c hs

theorem armTrg_keep {b0 : State} (tt : Nat) (lateOk : Bool) {s : State} (hs : Keep b0 s) :
    KeepA b0 (armTrg tt lateOk s) := by
  unfold armTrg
  with_reducible
    repeat' first
      | assumption | intro _ | apply Ans.okay_keep | apply Ans.fail_keep | apply State.setTrg_keep
      | fail_if_no_progress apply Keep.upd | apply KeepA.done | apply KeepA.accept | apply KeepA.defer
      | apply KeepA.ongoing | dsimp only | split

theorem timTrigArmSpec_keep {b0 : State} (c : Cmd) {s : State} (hs : Keep b0 s) :
    KeepA b0 (timTrigArmSpec.exec c s) := by
  unfold timTrigArmSpec
  with_reducible
    repeat' first
      | assumption | intro _ | apply Ans.okay_keep | apply State.setTrg_keep | apply armTrg_keep
      | fail_if_no_progress apply Keep.upd | apply KeepA.done | apply KeepA.accept | apply KeepA.defer
      | apply KeepA.ongoing | dsimp only | split

theorem execTimTrigArm_keep (e : Stim) (r : Req) (s : State) : KeepO (s.advance e) (execTimTrigArm e r s) := 
  submit_row fun c _ hs => timTrigArmSpec_keep c hs

theorem timTrigStatusSpec_keep {b0 : State} (c : Cmd) {s : State} (hs : Keep b0 s) :
    KeepA b0 (timTrigStatusSpec.exec c s) := by
  unfold timTrigStatusSpec
  with_reducible
    repeat' first
      | assumption | intro _ | fail_if_no_progress apply Keep.upd | apply KeepA.done | apply KeepA.accept
      | apply KeepA.defer | apply KeepA.ongoing | dsimp only | split

theorem execTimTrigStatus_keep (e : Stim) (r : Req) (s : State) : KeepO (s.advance e) (execTimTrigStatus e r s) := 
  submit_row fun c _ hs => timTrigStatusSpec_keep c hs

theorem refFrame_keep {b0 : State} (n : Nat) (p : Nat) (d : List Byte) {s : State} (hs : Keep b0 s) :
    Keep b0 (refFrame n p d s) := by
  unfold refFrame
  with_reducible
    repeat' first
      | assumption | intro _ | apply State.writeMem_keep | apply State.setCan_keep
      | fail_if_no_progress apply Keep.upd | dsimp only | split

theorem queueSync_keep {b0 : State} (tt : Nat) (n : Nat) {s : State} (hs : Keep b0 s) :
    Keep b0 (queueSync tt n s) := by
  unfold queueSync
  with_reducible
    repeat' first
      | assumption | intro _ | apply syncSkip_keep | apply State.setRef_keep | apply refFrame_keep
      | fail_if_no_progress apply Keep.upd | dsimp only | split

theorem fireAction_keep {b0 : State} (tt : Nat) (owner : Nat) (b : List Word) {s : State} (hs : Keep b0 s) :
    Keep b0 ((fireAction tt owner b s).2) := by
  unfold fireAction
  with_reducible
    repeat' first
      | assumption | intro _ | apply deliverPart_keep | apply switchCh_keep | apply switchFo_keep
      | apply queueSync_keep | fail_if_no_progress apply Keep.upd | dsimp only | split

theorem trgNote_keep {b0 : State} (tt : Nat) (owner : Nat) (reason : Nat) (time : Nat) {s : State} (hs : Keep b0 s) :
    Keep b0 (trgNote tt owner reason time s) := by
  unfold trgNote
  with_reducible
    repeat' first
      | assumption | intro _ | apply notice_keep | fail_if_no_progress apply Keep.upd | dsimp only | split

theorem fire_keep {b0 : State} (tt : Nat) {s : State} (hs : Keep b0 s) : Keep b0 (fire tt s) := by
  unfold fire
  with_reducible
    repeat' first
      | assumption | intro _ | apply trigSeqsOf_keep | apply State.setTrg_keep | apply fireAction_keep
      | apply trgNote_keep | fail_if_no_progress apply Keep.upd | dsimp only | split

theorem execTriggerFiring_keep (e : Stim) (tt : Nat) (s : State) :
    KeepO (s.advance e) (execTriggerFiring e tt s) := by
  unfold execTriggerFiring
  apply event_keep
  generalize s.advance e = b0
  intro t ht
  with_reducible
    repeat' first
      | assumption | intro _ | apply fire_keep | fail_if_no_progress apply Keep.upd | dsimp only | split

theorem fireDue_keep {b0 : State} (aim : Nat × Nat) (till : Nat) (x0 : Nat) {x1 : State} (hx1 : Keep b0 x1) :
    Keep b0 (fireDue aim till x0 x1) := by
  induction x0 generalizing x1 with
  | zero =>
    unfold fireDue
    with_reducible
      repeat' first
        | assumption | intro _ | apply fire_keep | fail_if_no_progress apply Keep.upd | dsimp only | split
  | succ n ih =>
    unfold fireDue
    with_reducible
      repeat' first
        | assumption | intro _ | apply ih | apply fire_keep | fail_if_no_progress apply Keep.upd | dsimp only | split

theorem trigsFirst_keep {b0 : State} (opcode : Nat) (ps : List Word) (till : Nat) {s : State} (hs : Keep b0 s) :
    Keep b0 (trigsFirst opcode ps till s) := by
  unfold trigsFirst
  with_reducible
    repeat' first
      | assumption | intro _ | apply fireDue_keep | fail_if_no_progress apply Keep.upd | dsimp only | split

theorem submitAfter_keep {b0 : State} (o : OpSpec) (r : Req) {s : State} (hs : Keep b0 s) (hfo : ∀ c s, Keep b0 s → KeepA b0 (o.exec c s)) :
    Keep b0 (submitAfter o r s) := by
  unfold submitAfter
  with_reducible
    repeat' first
      | assumption | intro _ | apply hfo | apply submit_keep | apply trigsFirst_keep
      | fail_if_no_progress apply Keep.upd | dsimp only | split

theorem execPwrSwitch_keep (e : Stim) (r : Req) (s : State) : KeepO (s.advance e) (execPwrSwitch e r s) := by
  unfold execPwrSwitch
  have hs := Keep.refl (s.advance e)
  revert hs
  generalize s.advance e = b0
  intro hs
  refine ⟨_, rfl, ?_⟩
  with_reducible
    repeat' first
      | assumption | intro _ | apply pwrSwitchSpec_keep | apply submitAfter_keep | fail_if_no_progress apply Keep.upd
      | dsimp only | split

theorem execPwrDuty_keep (e : Stim) (r : Req) (s : State) : KeepO (s.advance e) (execPwrDuty e r s) := by
  unfold execPwrDuty
  have hs := Keep.refl (s.advance e)
  revert hs
  generalize s.advance e = b0
  intro hs
  refine ⟨_, rfl, ?_⟩
  with_reducible
    repeat' first
      | assumption | intro _ | apply pwrDutySpec_keep | apply submitAfter_keep | fail_if_no_progress apply Keep.upd
      | dsimp only | split

theorem execPwrClear_keep (e : Stim) (r : Req) (s : State) : KeepO (s.advance e) (execPwrClear e r s) := by
  unfold execPwrClear
  have hs := Keep.refl (s.advance e)
  revert hs
  generalize s.advance e = b0
  intro hs
  refine ⟨_, rfl, ?_⟩
  with_reducible
    repeat' first
      | assumption | intro _ | apply pwrClearSpec_keep | apply submitAfter_keep | fail_if_no_progress apply Keep.upd
      | dsimp only | split

theorem execPwrConfig_keep (e : Stim) (r : Req) (s : State) : KeepO (s.advance e) (execPwrConfig e r s) := by
  unfold execPwrConfig
  have hs := Keep.refl (s.advance e)
  revert hs
  generalize s.advance e = b0
  intro hs
  refine ⟨_, rfl, ?_⟩
  with_reducible
    repeat' first
      | assumption | intro _ | apply pwrConfigSpec_keep | apply submitAfter_keep | fail_if_no_progress apply Keep.upd
      | dsimp only | split

theorem execPwrAssign_keep (e : Stim) (r : Req) (s : State) : KeepO (s.advance e) (execPwrAssign e r s) := by
  unfold execPwrAssign
  have hs := Keep.refl (s.advance e)
  revert hs
  generalize s.advance e = b0
  intro hs
  refine ⟨_, rfl, ?_⟩
  with_reducible
    repeat' first
      | assumption | intro _ | apply pwrAssignSpec_keep | apply submitAfter_keep | fail_if_no_progress apply Keep.upd
      | dsimp only | split

theorem execPwrReadConfig_keep (e : Stim) (r : Req) (s : State) : KeepO (s.advance e) (execPwrReadConfig e r s) := by
  unfold execPwrReadConfig
  have hs := Keep.refl (s.advance e)
  revert hs
  generalize s.advance e = b0
  intro hs
  refine ⟨_, rfl, ?_⟩
  with_reducible
    repeat' first
      | assumption | intro _ | apply pwrReadConfigSpec_keep | apply submitAfter_keep
      | fail_if_no_progress apply Keep.upd | dsimp only | split

theorem execPwrStatus_keep (e : Stim) (r : Req) (s : State) : KeepO (s.advance e) (execPwrStatus e r s) := by
  unfold execPwrStatus
  have hs := Keep.refl (s.advance e)
  revert hs
  generalize s.advance e = b0
  intro hs
  refine ⟨_, rfl, ?_⟩
  with_reducible
    repeat' first
      | assumption | intro _ | apply pwrStatusSpec_keep | apply submitAfter_keep | fail_if_no_progress apply Keep.upd
      | dsimp only | split

theorem execFioOut_keep (e : Stim) (r : Req) (s : State) : KeepO (s.advance e) (execFioOut e r s) := by
  unfold execFioOut
  have hs := Keep.refl (s.advance e)
  revert hs
  generalize s.advance e = b0
  intro hs
  refine ⟨_, rfl, ?_⟩
  with_reducible
    repeat' first
      | assumption | intro _ | apply fioOutSpec_keep | apply submitAfter_keep | fail_if_no_progress apply Keep.upd
      | dsimp only | split

theorem execFioOutConfig_keep (e : Stim) (r : Req) (s : State) : KeepO (s.advance e) (execFioOutConfig e r s) := by
  unfold execFioOutConfig
  have hs := Keep.refl (s.advance e)
  revert hs
  generalize s.advance e = b0
  intro hs
  refine ⟨_, rfl, ?_⟩
  with_reducible
    repeat' first
      | assumption | intro _ | apply fioOutConfigSpec_keep | apply submitAfter_keep
      | fail_if_no_progress apply Keep.upd | dsimp only | split

theorem execFioOutClear_keep (e : Stim) (r : Req) (s : State) : KeepO (s.advance e) (execFioOutClear e r s) := by
  unfold execFioOutClear
  have hs := Keep.refl (s.advance e)
  revert hs
  generalize s.advance e = b0
  intro hs
  refine ⟨_, rfl, ?_⟩
  with_reducible
    repeat' first
      | assumption | intro _ | apply fioOutClearSpec_keep | apply submitAfter_keep
      | fail_if_no_progress apply Keep.upd | dsimp only | split

theorem timTxqAssignSpec_keep {b0 : State} (c : Cmd) {s : State} (hs : Keep b0 s) :
    KeepA b0 (timTxqAssignSpec.exec c s) := by
  unfold timTxqAssignSpec
  with_reducible
    repeat' first
      | assumption | intro _ | apply Ans.okay_keep | fail_if_no_progress apply Keep.upd | apply KeepA.done
      | apply KeepA.accept | apply KeepA.defer | apply KeepA.ongoing | dsimp only | split

theorem execTimTxqAssign_keep (e : Stim) (r : Req) (s : State) : KeepO (s.advance e) (execTimTxqAssign e r s) := 
  submit_row fun c _ hs => timTxqAssignSpec_keep c hs

theorem timTxstampsSpec_keep {b0 : State} (c : Cmd) {s : State} (hs : Keep b0 s) :
    KeepA b0 (timTxstampsSpec.exec c s) := by
  unfold timTxstampsSpec
  with_reducible
    repeat' first
      | assumption | intro _ | fail_if_no_progress apply Keep.upd | apply KeepA.done | apply KeepA.accept
      | apply KeepA.defer | apply KeepA.ongoing | dsimp only | split

theorem execTimTxstamps_keep (e : Stim) (r : Req) (s : State) : KeepO (s.advance e) (execTimTxstamps e r s) := 
  submit_row fun c _ hs => timTxstampsSpec_keep c hs

theorem alarmNote_keep {b0 : State} (t : Nat) {s : State} (hs : Keep b0 s) : Keep b0 (alarmNote t s) := by
  unfold alarmNote
  with_reducible
    repeat' first
      | assumption | intro _ | apply notice_keep | fail_if_no_progress apply Keep.upd | dsimp only | split

theorem timAlarmSpec_keep {b0 : State} (c : Cmd) {s : State} (hs : Keep b0 s) : KeepA b0 (timAlarmSpec.exec c s) := by
  unfold timAlarmSpec
  with_reducible
    repeat' first
      | assumption | intro _ | apply Ans.okay_keep | apply Ans.fail_keep | apply alarmNote_keep
      | fail_if_no_progress apply Keep.upd | apply KeepA.done | apply KeepA.accept | apply KeepA.defer
      | apply KeepA.ongoing | dsimp only | split

theorem execTimAlarm_keep (e : Stim) (r : Req) (s : State) : KeepO (s.advance e) (execTimAlarm e r s) := 
  submit_row fun c _ hs => timAlarmSpec_keep c hs

theorem timCanrefSpec_keep {b0 : State} (c : Cmd) {s : State} (hs : Keep b0 s) :
    KeepA b0 (timCanrefSpec.exec c s) := by
  unfold timCanrefSpec
  with_reducible
    repeat' first
      | assumption | intro _ | apply Ans.okay_keep | apply Ans.fail_keep | apply ownDrop_keep
      | apply State.setRef_keep | apply syncDrop_keep | apply syncFree_keep | fail_if_no_progress apply Keep.upd
      | apply KeepA.done | apply KeepA.accept | apply KeepA.defer | apply KeepA.ongoing | dsimp only | split

theorem execTimCanref_keep (e : Stim) (r : Req) (s : State) : KeepO (s.advance e) (execTimCanref e r s) := by
  unfold execTimCanref
  have hs := Keep.refl (s.advance e)
  revert hs
  generalize s.advance e = b0
  intro hs
  refine ⟨_, rfl, ?_⟩
  with_reducible
    repeat' first
      | assumption | intro _ | apply submitAfter_keep | apply timCanrefSpec_keep | fail_if_no_progress apply Keep.upd
      | dsimp only | split

theorem execCanrefFup_keep (e : Stim) (can : Nat) (s : State) : KeepO (s.advance e) (execCanrefFup e can s) := by
  unfold execCanrefFup
  apply event_keep
  generalize s.advance e = b0
  intro t ht
  with_reducible
    repeat' first
      | assumption | intro _ | apply State.setRef_keep | apply refFrame_keep | fail_if_no_progress apply Keep.upd
      | dsimp only | split

/-! ### Aimed -/

theorem execFioReadConfig_keep (e : Stim) (r : Req) (s : State) : KeepO (s.advance e) (execFioReadConfig e r s) := by
  unfold execFioReadConfig
  have hs := Keep.refl (s.advance e)
  revert hs
  generalize s.advance e = b0
  intro hs
  refine ⟨_, rfl, ?_⟩
  with_reducible
    repeat' first
      | assumption | intro _ | apply fioReadConfigSpec_keep | apply submitAfter_keep
      | fail_if_no_progress apply Keep.upd | dsimp only | split

theorem execFioAssign_keep (e : Stim) (r : Req) (s : State) : KeepO (s.advance e) (execFioAssign e r s) := by
  unfold execFioAssign
  have hs := Keep.refl (s.advance e)
  revert hs
  generalize s.advance e = b0
  intro hs
  refine ⟨_, rfl, ?_⟩
  with_reducible
    repeat' first
      | assumption | intro _ | apply fioAssignSpec_keep | apply submitAfter_keep | fail_if_no_progress apply Keep.upd
      | dsimp only | split

theorem execFioOutStatus_keep (e : Stim) (r : Req) (s : State) : KeepO (s.advance e) (execFioOutStatus e r s) := by
  unfold execFioOutStatus
  have hs := Keep.refl (s.advance e)
  revert hs
  generalize s.advance e = b0
  intro hs
  refine ⟨_, rfl, ?_⟩
  with_reducible
    repeat' first
      | assumption | intro _ | apply fioOutStatusSpec_keep | apply submitAfter_keep
      | fail_if_no_progress apply Keep.upd | dsimp only | split

theorem execPurWire_keep (e : Stim) (r : Req) (s : State) : KeepO (s.advance e) (execPurWire e r s) := by
  unfold execPurWire
  have hs := Keep.refl (s.advance e)
  revert hs
  generalize s.advance e = b0
  intro hs
  refine ⟨_, rfl, ?_⟩
  with_reducible
    repeat' first
      | assumption | intro _ | apply purWireSpec_keep | apply submitAfter_keep | fail_if_no_progress apply Keep.upd
      | dsimp only | split

theorem execPurReadWire_keep (e : Stim) (r : Req) (s : State) : KeepO (s.advance e) (execPurReadWire e r s) := by
  unfold execPurReadWire
  have hs := Keep.refl (s.advance e)
  revert hs
  generalize s.advance e = b0
  intro hs
  refine ⟨_, rfl, ?_⟩
  with_reducible
    repeat' first
      | assumption | intro _ | apply purReadWireSpec_keep | apply submitAfter_keep
      | fail_if_no_progress apply Keep.upd | dsimp only | split

theorem execPurChannel_keep (e : Stim) (r : Req) (s : State) : KeepO (s.advance e) (execPurChannel e r s) := by
  unfold execPurChannel
  have hs := Keep.refl (s.advance e)
  revert hs
  generalize s.advance e = b0
  intro hs
  refine ⟨_, rfl, ?_⟩
  with_reducible
    repeat' first
      | assumption | intro _ | apply purChannelSpec_keep | apply submitAfter_keep | fail_if_no_progress apply Keep.upd
      | dsimp only | split

theorem execLmpPolicy_keep (e : Stim) (r : Req) (s : State) : KeepO (s.advance e) (execLmpPolicy e r s) := by
  unfold execLmpPolicy
  have hs := Keep.refl (s.advance e)
  revert hs
  generalize s.advance e = b0
  intro hs
  refine ⟨_, rfl, ?_⟩
  with_reducible
    repeat' first
      | assumption | intro _ | apply lmpPolicySpec_keep | apply submitAfter_keep | fail_if_no_progress apply Keep.upd
      | dsimp only | split

theorem execLmpReadPolicy_keep (e : Stim) (r : Req) (s : State) : KeepO (s.advance e) (execLmpReadPolicy e r s) := by
  unfold execLmpReadPolicy
  have hs := Keep.refl (s.advance e)
  revert hs
  generalize s.advance e = b0
  intro hs
  refine ⟨_, rfl, ?_⟩
  with_reducible
    repeat' first
      | assumption | intro _ | apply lmpReadPolicySpec_keep | apply submitAfter_keep
      | fail_if_no_progress apply Keep.upd | dsimp only | split

theorem execBusAssign_keep (e : Stim) (r : Req) (s : State) : KeepO (s.advance e) (execBusAssign e r s) := by
  unfold execBusAssign
  have hs := Keep.refl (s.advance e)
  revert hs
  generalize s.advance e = b0
  intro hs
  refine ⟨_, rfl, ?_⟩
  with_reducible
    repeat' first
      | assumption | intro _ | apply busAssignSpec_keep | apply submitAfter_keep | fail_if_no_progress apply Keep.upd
      | dsimp only | split

theorem execBusCtl_keep (e : Stim) (r : Req) (s : State) : KeepO (s.advance e) (execBusCtl e r s) := by
  unfold execBusCtl
  have hs := Keep.refl (s.advance e)
  revert hs
  generalize s.advance e = b0
  intro hs
  refine ⟨_, rfl, ?_⟩
  with_reducible
    repeat' first
      | assumption | intro _ | apply busCtlSpec_keep | apply submitAfter_keep | fail_if_no_progress apply Keep.upd
      | dsimp only | split

theorem execBusCanConfig_keep (e : Stim) (r : Req) (s : State) : KeepO (s.advance e) (execBusCanConfig e r s) := by
  unfold execBusCanConfig
  have hs := Keep.refl (s.advance e)
  revert hs
  generalize s.advance e = b0
  intro hs
  refine ⟨_, rfl, ?_⟩
  with_reducible
    repeat' first
      | assumption | intro _ | apply busCanConfigSpec_keep | apply submitAfter_keep
      | fail_if_no_progress apply Keep.upd | dsimp only | split

theorem execBusCanFilter_keep (e : Stim) (r : Req) (s : State) : KeepO (s.advance e) (execBusCanFilter e r s) := by
  unfold execBusCanFilter
  have hs := Keep.refl (s.advance e)
  revert hs
  generalize s.advance e = b0
  intro hs
  refine ⟨_, rfl, ?_⟩
  with_reducible
    repeat' first
      | assumption | intro _ | apply busCanFilterSpec_keep | apply submitAfter_keep
      | fail_if_no_progress apply Keep.upd | dsimp only | split

theorem execBusCanStatus_keep (e : Stim) (r : Req) (s : State) : KeepO (s.advance e) (execBusCanStatus e r s) := by
  unfold execBusCanStatus
  have hs := Keep.refl (s.advance e)
  revert hs
  generalize s.advance e = b0
  intro hs
  refine ⟨_, rfl, ?_⟩
  with_reducible
    repeat' first
      | assumption | intro _ | apply busCanStatusSpec_keep | apply submitAfter_keep
      | fail_if_no_progress apply Keep.upd | dsimp only | split

theorem execBusCanTx_keep (e : Stim) (r : Req) (s : State) : KeepO (s.advance e) (execBusCanTx e r s) := by
  unfold execBusCanTx
  have hs := Keep.refl (s.advance e)
  revert hs
  generalize s.advance e = b0
  intro hs
  refine ⟨_, rfl, ?_⟩
  with_reducible
    repeat' first
      | assumption | intro _ | apply busCanTxSpec_keep | apply submitAfter_keep | fail_if_no_progress apply Keep.upd
      | dsimp only | split

theorem execBusCanRx_keep (e : Stim) (r : Req) (s : State) : KeepO (s.advance e) (execBusCanRx e r s) := by
  unfold execBusCanRx
  have hs := Keep.refl (s.advance e)
  revert hs
  generalize s.advance e = b0
  intro hs
  refine ⟨_, rfl, ?_⟩
  with_reducible
    repeat' first
      | assumption | intro _ | apply busCanRxSpec_keep | apply submitAfter_keep | fail_if_no_progress apply Keep.upd
      | dsimp only | split

theorem execBusCanTxe_keep (e : Stim) (r : Req) (s : State) : KeepO (s.advance e) (execBusCanTxe e r s) := by
  unfold execBusCanTxe
  have hs := Keep.refl (s.advance e)
  revert hs
  generalize s.advance e = b0
  intro hs
  refine ⟨_, rfl, ?_⟩
  with_reducible
    repeat' first
      | assumption | intro _ | apply busCanTxeSpec_keep | apply submitAfter_keep | fail_if_no_progress apply Keep.upd
      | dsimp only | split

theorem execCpuPartConfig_keep (e : Stim) (r : Req) (s : State) : KeepO (s.advance e) (execCpuPartConfig e r s) := by
  unfold execCpuPartConfig
  have hs := Keep.refl (s.advance e)
  revert hs
  generalize s.advance e = b0
  intro hs
  refine ⟨_, rfl, ?_⟩
  with_reducible
    repeat' first
      | assumption | intro _ | apply cpuPartConfigSpec_keep | apply submitAfter_keep
      | fail_if_no_progress apply Keep.upd | dsimp only | split

theorem execCpuPartCtl_keep (e : Stim) (r : Req) (s : State) : KeepO (s.advance e) (execCpuPartCtl e r s) := by
  unfold execCpuPartCtl
  have hs := Keep.refl (s.advance e)
  revert hs
  generalize s.advance e = b0
  intro hs
  refine ⟨_, rfl, ?_⟩
  with_reducible
    repeat' first
      | assumption | intro _ | apply cpuPartCtlSpec_keep | apply submitAfter_keep | fail_if_no_progress apply Keep.upd
      | dsimp only | split

theorem execCpuPartStatus_keep (e : Stim) (r : Req) (s : State) : KeepO (s.advance e) (execCpuPartStatus e r s) := by
  unfold execCpuPartStatus
  have hs := Keep.refl (s.advance e)
  revert hs
  generalize s.advance e = b0
  intro hs
  refine ⟨_, rfl, ?_⟩
  with_reducible
    repeat' first
      | assumption | intro _ | apply cpuPartStatusSpec_keep | apply submitAfter_keep
      | fail_if_no_progress apply Keep.upd | dsimp only | split

/-! ### Vault -/

theorem State.setWm_keep {b0 : State} (i : Nat) (x : Wm) {s : State} (hs : Keep b0 s) :
    Keep b0 (State.setWm s i x) := by
  unfold State.setWm
  with_reducible
    repeat' first
      | assumption | intro _ | fail_if_no_progress apply Keep.upd | dsimp only | split

theorem wmWrite_keep {b0 : State} (v : Word) (i : Nat) {s : State} (hs : Keep b0 s) : Keep b0 (wmWrite v s i) := by
  unfold wmWrite
  with_reducible
    repeat' first
      | assumption | intro _ | apply State.setWm_keep | fail_if_no_progress apply Keep.upd | dsimp only | split

theorem execWmRaise_keep (e : Stim) (idx : Nat) (value : Word) (s : State) :
    KeepO (s.advance e) (execWmRaise e idx value s) := by
  unfold execWmRaise
  apply event_keep
  generalize s.advance e = b0
  intro t ht
  with_reducible
    repeat' first
      | assumption | intro _ | apply wmWrite_keep | fail_if_no_progress apply Keep.upd | apply Keep.foldl | dsimp only
      | split

theorem execWmLower_keep (e : Stim) (idx : Nat) (value : Word) (s : State) :
    KeepO (s.advance e) (execWmLower e idx value s) := by
  unfold execWmLower
  apply event_keep
  generalize s.advance e = b0
  intro t ht
  with_reducible
    repeat' first
      | assumption | intro _ | apply wmWrite_keep | fail_if_no_progress apply Keep.upd | apply Keep.foldl | dsimp only
      | split

theorem execWmRefusedClear_keep (e : Stim) (idx : Nat) (value : Word) (s : State) :
    KeepO (s.advance e) (execWmRefusedClear e idx value s) := by
  unfold execWmRefusedClear
  apply event_keep
  generalize s.advance e = b0
  intro t ht
  with_reducible
    repeat' first
      | assumption | intro _ | apply wmWrite_keep | fail_if_no_progress apply Keep.upd | apply Keep.foldl | dsimp only
      | split

theorem execZeroiseComplete_keep (e : Stim) (idx : Nat) (s : State) :
    KeepO (s.advance e) (execZeroiseComplete e idx s) := by
  unfold execZeroiseComplete
  apply event_keep
  generalize s.advance e = b0
  intro t ht
  with_reducible
    repeat' first
      | assumption | intro _ | apply State.clearMem_keep | apply State.setWm_keep | fail_if_no_progress apply Keep.upd
      | dsimp only | split

theorem newKey_keep {b0 : State} (k : VKey) (out : CallOut) {s : State} (hs : Keep b0 s) :
    Keep b0 ((newKey k out s).2) := by
  unfold newKey
  with_reducible
    repeat' first
      | assumption | intro _ | apply State.drawNat_keep | fail_if_no_progress apply Keep.upd | dsimp only | split

theorem callFail_keep {b0 : State} (st : Status) {s : State} (hs : Keep b0 s) : Keep b0 ((callFail st s).2) := by
  unfold callFail
  with_reducible
    repeat' first
      | assumption | intro _ | fail_if_no_progress apply Keep.upd | dsimp only | split

theorem callOut_keep {b0 : State} (c : CallIn) (b : List Byte) {s : State} (hs : Keep b0 s) :
    Keep b0 ((callOut c b s).2) := by
  unfold callOut
  with_reducible
    repeat' first
      | assumption | intro _ | apply callFail_keep | fail_if_no_progress apply Keep.upd | dsimp only | split

theorem draw_keep {b0 : State} (n : Nat) {s : State} (hs : Keep b0 s) : Keep b0 ((draw n s).2) := by
  unfold draw
  with_reducible
    repeat' first
      | assumption | intro _ | apply State.drawBytes_keep | fail_if_no_progress apply Keep.upd | dsimp only | split

theorem callRandom_keep {b0 : State} (c : CallIn) {s : State} (hs : Keep b0 s) : Keep b0 ((callRandom c s).2) := by
  unfold callRandom
  with_reducible
    repeat' first
      | assumption | intro _ | apply callFail_keep | apply draw_keep | fail_if_no_progress apply Keep.upd | dsimp only
      | split

theorem callHash_keep {b0 : State} (c : CallIn) {s : State} (hs : Keep b0 s) : Keep b0 ((callHash c s).2) := by
  unfold callHash
  with_reducible
    repeat' first
      | assumption | intro _ | apply callFail_keep | apply callOut_keep | fail_if_no_progress apply Keep.upd
      | dsimp only | split

theorem callMac_keep {b0 : State} (t : Nat) (c : CallIn) {s : State} (hs : Keep b0 s) :
    Keep b0 ((callMac t c s).2) := by
  unfold callMac
  with_reducible
    repeat' first
      | assumption | intro _ | apply callFail_keep | apply callOut_keep | fail_if_no_progress apply Keep.upd
      | dsimp only | split

theorem callCipher_keep {b0 : State} (t : Nat) (c : CallIn) {s : State} (hs : Keep b0 s) :
    Keep b0 ((callCipher t c s).2) := by
  unfold callCipher
  with_reducible
    repeat' first
      | assumption | intro _ | apply callFail_keep | apply callOut_keep | fail_if_no_progress apply Keep.upd
      | dsimp only | split

theorem callAead_keep {b0 : State} (t : Nat) (c : CallIn) {s : State} (hs : Keep b0 s) :
    Keep b0 ((callAead t c s).2) := by
  unfold callAead
  with_reducible
    repeat' first
      | assumption | intro _ | apply callFail_keep | apply callOut_keep | fail_if_no_progress apply Keep.upd
      | dsimp only | split

theorem callSign_keep {b0 : State} (t : Nat) (c : CallIn) {s : State} (hs : Keep b0 s) :
    Keep b0 ((callSign t c s).2) := by
  unfold callSign
  with_reducible
    repeat' first
      | assumption | intro _ | apply State.drawBytes_keep | apply callFail_keep | apply callOut_keep
      | fail_if_no_progress apply Keep.upd | dsimp only | split

theorem callVerify_keep {b0 : State} (t : Nat) (c : CallIn) {s : State} (hs : Keep b0 s) :
    Keep b0 ((callVerify t c s).2) := by
  unfold callVerify
  with_reducible
    repeat' first
      | assumption | intro _ | apply callFail_keep | fail_if_no_progress apply Keep.upd | dsimp only | split

theorem kexKey_keep {b0 : State} (t : Nat) (c : CallIn) (secret : List Byte) (out : CallOut) {s : State} (hs : Keep b0 s) :
    Keep b0 ((kexKey t c secret out s).2) := by
  unfold kexKey
  with_reducible
    repeat' first
      | assumption | intro _ | apply State.drawNat_keep | apply newKey_keep | fail_if_no_progress apply Keep.upd
      | dsimp only | split

theorem callKex_keep {b0 : State} (t : Nat) (c : CallIn) {s : State} (hs : Keep b0 s) :
    Keep b0 ((callKex t c s).2) := by
  unfold callKex
  with_reducible
    repeat' first
      | assumption | intro _ | apply State.drawBytes_keep | apply callFail_keep | apply kexKey_keep
      | fail_if_no_progress apply Keep.upd | dsimp only | split

theorem callKeyGen_keep {b0 : State} (t : Nat) (c : CallIn) {s : State} (hs : Keep b0 s) :
    Keep b0 ((callKeyGen t c s).2) := by
  unfold callKeyGen
  with_reducible
    repeat' first
      | assumption | intro _ | apply newKey_keep | apply callFail_keep | apply draw_keep
      | fail_if_no_progress apply Keep.upd | dsimp only | split

theorem callKeyImport_keep {b0 : State} (t : Nat) (c : CallIn) {s : State} (hs : Keep b0 s) :
    Keep b0 ((callKeyImport t c s).2) := by
  unfold callKeyImport
  with_reducible
    repeat' first
      | assumption | intro _ | apply newKey_keep | apply callFail_keep | fail_if_no_progress apply Keep.upd
      | dsimp only | split

theorem callKeyPublic_keep {b0 : State} (t : Nat) (c : CallIn) {s : State} (hs : Keep b0 s) :
    Keep b0 ((callKeyPublic t c s).2) := by
  unfold callKeyPublic
  with_reducible
    repeat' first
      | assumption | intro _ | apply callFail_keep | apply callOut_keep | fail_if_no_progress apply Keep.upd
      | dsimp only | split

theorem callKeyDelete_keep {b0 : State} (t : Nat) (c : CallIn) {s : State} (hs : Keep b0 s) :
    Keep b0 ((callKeyDelete t c s).2) := by
  unfold callKeyDelete
  with_reducible
    repeat' first
      | assumption | intro _ | apply callFail_keep | fail_if_no_progress apply Keep.upd | dsimp only | split

theorem callKeyInfo_keep {b0 : State} (t : Nat) (c : CallIn) {s : State} (hs : Keep b0 s) :
    Keep b0 ((callKeyInfo t c s).2) := by
  unfold callKeyInfo
  with_reducible
    repeat' first
      | assumption | intro _ | apply callFail_keep | fail_if_no_progress apply Keep.upd | dsimp only | split

theorem callCert_keep {b0 : State} (c : CallIn) {s : State} (hs : Keep b0 s) : Keep b0 ((callCert c s).2) := by
  unfold callCert
  with_reducible
    repeat' first
      | assumption | intro _ | apply callFail_keep | fail_if_no_progress apply Keep.upd | dsimp only | split

theorem callLcNonce_keep {b0 : State} (c : CallIn) {s : State} (hs : Keep b0 s) : Keep b0 ((callLcNonce c s).2) := by
  unfold callLcNonce
  with_reducible
    repeat' first
      | assumption | intro _ | apply callFail_keep | apply draw_keep | fail_if_no_progress apply Keep.upd | dsimp only
      | split

theorem lcAdvance_keep {b0 : State} (c : CallIn) {s : State} (hs : Keep b0 s) : Keep b0 ((lcAdvance c s).2) := by
  unfold lcAdvance
  with_reducible
    repeat' first
      | assumption | intro _ | fail_if_no_progress apply Keep.upd | dsimp only | split

theorem callRun_keep {b0 : State} (f : Nat) (c : CallIn) (who : Caller) {s : State} (hs : Keep b0 s) :
    Keep b0 ((callRun f c who s).2) := by
  unfold callRun
  with_reducible
    repeat' first
      | assumption | intro _ | apply callRandom_keep | apply callHash_keep | apply callMac_keep
      | apply callCipher_keep | apply callAead_keep | apply callSign_keep | apply callVerify_keep | apply callKex_keep
      | apply callKeyGen_keep | apply callKeyImport_keep | apply callKeyPublic_keep | apply callKeyDelete_keep
      | apply callKeyInfo_keep | apply callCert_keep | apply callLcNonce_keep | apply lcAdvance_keep
      | fail_if_no_progress apply Keep.upd | dsimp only | split

theorem partRun_keep {b0 : State} (p : Nat) (f : Nat) (t : Option Nat) (w : List Word) (who : Caller) {s : State} (hs : Keep b0 s) :
    Keep b0 ((partRun p f t w who s).2) := by
  unfold partRun
  with_reducible
    repeat' first
      | assumption | intro _ | apply callRun_keep | fail_if_no_progress apply Keep.upd | dsimp only | split

theorem gateEnd_keep {b0 : State} (h : Nat) (o : CallOut) {s : State} (hs : Keep b0 s) : Keep b0 (gateEnd h o s) := by
  unfold gateEnd
  with_reducible
    repeat' first
      | assumption | intro _ | apply State.writeMem_keep | apply gateReturn_keep | fail_if_no_progress apply Keep.upd
      | dsimp only | split

theorem vltFill_keep {b0 : State} {s : State} (hs : Keep b0 s) : Keep b0 (vltFill s) := by
  unfold vltFill
  with_reducible
    repeat' first
      | assumption | intro _ | apply State.setSlot_keep | fail_if_no_progress apply Keep.upd | dsimp only | split

theorem slotEnd_keep {b0 : State} (n : Nat) (o : CallOut) {s : State} (hs : Keep b0 s) : Keep b0 (slotEnd n o s) := by
  unfold slotEnd
  with_reducible
    repeat' first
      | assumption | intro _ | apply State.writeMem_keep | apply slotDone_keep | apply serviceEnd_keep
      | apply vltFill_keep | fail_if_no_progress apply Keep.upd | dsimp only | split

theorem slotRun_keep {b0 : State} (n : Nat) {s : State} (hs : Keep b0 s) : Keep b0 ((slotRun n s).2) := by
  unfold slotRun
  with_reducible
    repeat' first
      | assumption | intro _ | apply callRun_keep | apply partRun_keep | fail_if_no_progress apply Keep.upd
      | dsimp only | split

theorem gateRefuse_keep {b0 : State} (h : Nat) (status : Nat) {s : State} (hs : Keep b0 s) :
    Keep b0 (gateRefuse h status s) := by
  unfold gateRefuse
  with_reducible
    repeat' first
      | assumption | intro _ | apply State.setHart_keep | fail_if_no_progress apply Keep.upd | dsimp only | split

theorem vgateStore_keep {b0 : State} (h : Nat) (width : Nat) (value : Nat) (x : List Nat) {s : State} (hs : Keep b0 s) :
    Keep b0 (vgateStore h width value x s) := by
  unfold vgateStore
  with_reducible
    repeat' first
      | assumption | intro _ | apply State.setHart_keep | apply takeExc_keep | apply gateRefuse_keep
      | fail_if_no_progress apply Keep.upd | apply Keep.foldl | dsimp only | split

theorem execVgateStore_keep (e : Stim) (hart : Nat) (width : Nat) (value : Nat) (x : List Nat) (s : State) :
    KeepO (s.advance e) (execVgateStore e hart width value x s) := by
  unfold execVgateStore
  apply event_keep
  generalize s.advance e = b0
  intro t ht
  with_reducible
    repeat' first
      | assumption | intro _ | apply vgateStore_keep | fail_if_no_progress apply Keep.upd | dsimp only | split

theorem execGateReturn_keep (e : Stim) (hart : Nat) (s : State) : KeepO (s.advance e) (execGateReturn e hart s) := by
  unfold execGateReturn
  apply event_keep
  generalize s.advance e = b0
  intro t ht
  with_reducible
    repeat' first
      | assumption | intro _ | apply partRun_keep | apply gateEnd_keep | fail_if_no_progress apply Keep.upd
      | dsimp only | split

theorem slotOp_keep {b0 : State} (who : Nat) (n : Nat) (f : State → State) {s : State} (hs : Keep b0 s) (hff : ∀ s, Keep b0 s → Keep b0 (f s)) :
    Keep b0 (slotOp who n f s) := by
  unfold slotOp
  with_reducible
    repeat' first
      | assumption | intro _ | apply hff | apply logFirst_keep | fail_if_no_progress apply Keep.upd | dsimp only
      | split

theorem slotPost_keep {b0 : State} (n : Nat) {s : State} (hs : Keep b0 s) : Keep b0 (slotPost n s) := by
  unfold slotPost
  with_reducible
    repeat' first
      | assumption | intro _ | apply State.setSlot_keep | apply slotDone_keep | fail_if_no_progress apply Keep.upd
      | dsimp only | split

theorem slotRelease_keep {b0 : State} (n : Nat) {s : State} (hs : Keep b0 s) : Keep b0 (slotRelease n s) := by
  unfold slotRelease
  with_reducible
    repeat' first
      | assumption | intro _ | apply State.setSlot_keep | fail_if_no_progress apply Keep.upd | dsimp only | split

theorem execMbPost_keep (e : Stim) (who : Nat) (slot : Nat) (s : State) :
    KeepO (s.advance e) (execMbPost e who slot s) := by
  unfold execMbPost
  apply event_keep
  generalize s.advance e = b0
  intro t ht
  with_reducible
    repeat' first
      | assumption | intro _ | apply slotOp_keep | apply slotPost_keep | fail_if_no_progress apply Keep.upd
      | dsimp only | split

theorem execMbRelease_keep (e : Stim) (who : Nat) (slot : Nat) (s : State) :
    KeepO (s.advance e) (execMbRelease e who slot s) := by
  unfold execMbRelease
  apply event_keep
  generalize s.advance e = b0
  intro t ht
  with_reducible
    repeat' first
      | assumption | intro _ | apply slotOp_keep | apply slotRelease_keep | fail_if_no_progress apply Keep.upd
      | dsimp only | split

theorem execMailboxServe_keep (e : Stim) (s : State) : KeepO (s.advance e) (execMailboxServe e s) := by
  unfold execMailboxServe
  apply event_keep
  generalize s.advance e = b0
  intro t ht
  with_reducible
    repeat' first
      | assumption | intro _ | apply State.setSlot_keep | fail_if_no_progress apply Keep.upd | dsimp only | split

theorem execMailboxDone_keep (e : Stim) (s : State) : KeepO (s.advance e) (execMailboxDone e s) := by
  unfold execMailboxDone
  apply event_keep
  generalize s.advance e = b0
  intro t ht
  with_reducible
    repeat' first
      | assumption | intro _ | apply slotEnd_keep | apply slotRun_keep | fail_if_no_progress apply Keep.upd
      | dsimp only | split

theorem execVaultRestart_keep (e : Stim) (cause : Nat) (s : State) :
    KeepO (s.advance e) (execVaultRestart e cause s) := by
  unfold execVaultRestart
  apply event_keep
  generalize s.advance e = b0
  intro t ht
  with_reducible
    repeat' first
      | assumption | intro _ | apply vaultRestart_keep | fail_if_no_progress apply Keep.upd | dsimp only | split

theorem execVaultHang_keep (e : Stim) (s : State) : KeepO (s.advance e) (execVaultHang e s) := by
  unfold execVaultHang
  apply event_keep
  generalize s.advance e = b0
  intro t ht
  with_reducible
    repeat' first
      | assumption | intro _ | apply vaultRestart_keep | fail_if_no_progress apply Keep.upd | dsimp only | split

theorem restartNote_keep {b0 : State} {s : State} (hs : Keep b0 s) : Keep b0 (restartNote s) := by
  unfold restartNote
  with_reducible
    repeat' first
      | assumption | intro _ | apply logNotice_keep | fail_if_no_progress apply Keep.upd | dsimp only | split

theorem vaultRunning_keep {b0 : State} (digest : List Byte) {s : State} (hs : Keep b0 s) :
    Keep b0 (vaultRunning digest s) := by
  unfold vaultRunning
  with_reducible
    repeat' first
      | assumption | intro _ | apply finishAll_keep | apply released_keep | apply slotsOut_keep
      | apply restartNote_keep | fail_if_no_progress apply Keep.upd | dsimp only | split

theorem execVaultRunning_keep (e : Stim) (digest : List Byte) (s : State) :
    KeepO (s.advance e) (execVaultRunning e digest s) := by
  unfold execVaultRunning
  apply event_keep
  generalize s.advance e = b0
  intro t ht
  with_reducible
    repeat' first
      | assumption | intro _ | apply vaultRunning_keep | fail_if_no_progress apply Keep.upd | dsimp only | split

theorem execDrbgReseed_keep (e : Stim) (failed : Bool) (s : State) :
    KeepO (s.advance e) (execDrbgReseed e failed s) := by
  unfold execDrbgReseed
  apply event_keep
  generalize s.advance e = b0
  intro t ht
  with_reducible
    repeat' first
      | assumption | intro _ | apply logObj_keep | fail_if_no_progress apply Keep.upd | dsimp only | split

theorem fuseDone_keep {b0 : State} (f : FuseWrite) {s : State} (hs : Keep b0 s) : Keep b0 (fuseDone f s) := by
  unfold fuseDone
  with_reducible
    repeat' first
      | assumption | intro _ | apply notice_keep | apply gatesOut_keep | apply slotsOut_keep | apply gateEnd_keep
      | apply slotEnd_keep | fail_if_no_progress apply Keep.upd | dsimp only | split
      | fail_if_no_progress apply Keep.updIdent

theorem execFuseWriteComplete_keep (e : Stim) (s : State) : KeepO (s.advance e) (execFuseWriteComplete e s) := by
  unfold execFuseWriteComplete
  apply event_keep
  generalize s.advance e = b0
  intro t ht
  with_reducible
    repeat' first
      | assumption | intro _ | apply fuseDone_keep | fail_if_no_progress apply Keep.upd | dsimp only | split

theorem execVaultClaimRelease_keep (e : Stim) (s : State) : KeepO (s.advance e) (execVaultClaimRelease e s) := by
  unfold execVaultClaimRelease
  apply event_keep
  generalize s.advance e = b0
  intro t ht
  with_reducible
    repeat' first
      | assumption | intro _ | apply released_keep | fail_if_no_progress apply Keep.upd | dsimp only | split

theorem execDbgnonce_keep (e : Stim) (s : State) : KeepO (s.advance e) (execDbgnonce e s) := by
  unfold execDbgnonce
  have hs := Keep.refl (s.advance e)
  revert hs
  generalize s.advance e = b0
  intro hs
  refine ⟨_, rfl, ?_⟩
  with_reducible
    repeat' first
      | assumption | intro _ | apply State.drawBytes_keep | fail_if_no_progress apply Keep.upd | dsimp only | split

theorem debugAuthorise_keep {b0 : State} (tok : List Byte) {s : State} (hs : Keep b0 s) :
    Keep b0 (debugAuthorise tok s) := by
  unfold debugAuthorise
  with_reducible
    repeat' first
      | assumption | intro _ | apply logNotice_keep | fail_if_no_progress apply Keep.upd | dsimp only | split

theorem execDbgauth_keep (e : Stim) (token : List Byte) (s : State) :
    KeepO (s.advance e) (execDbgauth e token s) := by
  unfold execDbgauth
  have hs := Keep.refl (s.advance e)
  revert hs
  generalize s.advance e = b0
  intro hs
  refine ⟨_, rfl, ?_⟩
  with_reducible
    repeat' first
      | assumption | intro _ | apply debugAuthorise_keep | fail_if_no_progress apply Keep.upd | dsimp only | split

theorem sessionEnd_keep {b0 : State} {s : State} (hs : Keep b0 s) : Keep b0 (sessionEnd s) := by
  unfold sessionEnd
  with_reducible
    repeat' first
      | assumption | intro _ | apply logNotice_keep | fail_if_no_progress apply Keep.upd | dsimp only | split

theorem execDbgend_keep (e : Stim) (s : State) : KeepO (s.advance e) (execDbgend e s) := by
  unfold execDbgend
  apply event_keep
  generalize s.advance e = b0
  intro t ht
  with_reducible
    repeat' first
      | assumption | intro _ | apply sessionEnd_keep | fail_if_no_progress apply Keep.upd | dsimp only | split

theorem vltStatusSpec_keep {b0 : State} (c : Cmd) {s : State} (hs : Keep b0 s) :
    KeepA b0 (vltStatusSpec.exec c s) := by
  unfold vltStatusSpec
  with_reducible
    repeat' first
      | assumption | intro _ | fail_if_no_progress apply Keep.upd | apply KeepA.done | apply KeepA.accept
      | apply KeepA.defer | apply KeepA.ongoing | dsimp only | split

theorem execVltStatus_keep (e : Stim) (r : Req) (s : State) : KeepO (s.advance e) (execVltStatus e r s) := 
  submit_row fun c _ hs => vltStatusSpec_keep c hs

theorem vltConfigSpec_keep {b0 : State} (c : Cmd) {s : State} (hs : Keep b0 s) :
    KeepA b0 (vltConfigSpec.exec c s) := by
  unfold vltConfigSpec
  with_reducible
    repeat' first
      | assumption | intro _ | apply Ans.okay_keep | fail_if_no_progress apply Keep.upd | apply KeepA.done
      | apply KeepA.accept | apply KeepA.defer | apply KeepA.ongoing | dsimp only | split

theorem execVltConfig_keep (e : Stim) (r : Req) (s : State) : KeepO (s.advance e) (execVltConfig e r s) := 
  submit_row fun c _ hs => vltConfigSpec_keep c hs

theorem vltMboxAssignSpec_keep {b0 : State} (c : Cmd) {s : State} (hs : Keep b0 s) :
    KeepA b0 (vltMboxAssignSpec.exec c s) := by
  unfold vltMboxAssignSpec
  with_reducible
    repeat' first
      | assumption | intro _ | apply Ans.okay_keep | apply Ans.fail_keep | apply State.setSlot_keep
      | fail_if_no_progress apply Keep.upd | apply KeepA.done | apply KeepA.accept | apply KeepA.defer
      | apply KeepA.ongoing | dsimp only | split

theorem execVltMboxAssign_keep (e : Stim) (r : Req) (s : State) : KeepO (s.advance e) (execVltMboxAssign e r s) := 
  submit_row fun c _ hs => vltMboxAssignSpec_keep c hs

theorem vltRestartSpec_keep {b0 : State} (c : Cmd) {s : State} (hs : Keep b0 s) :
    KeepA b0 (vltRestartSpec.exec c s) := by
  unfold vltRestartSpec
  with_reducible
    repeat' first
      | assumption | intro _ | apply Ans.fail_keep | apply vaultRestart_keep | fail_if_no_progress apply Keep.upd
      | apply KeepA.done | apply KeepA.accept | apply KeepA.defer | apply KeepA.ongoing | dsimp only | split

theorem execVltRestart_keep (e : Stim) (r : Req) (s : State) : KeepO (s.advance e) (execVltRestart e r s) := 
  submit_row fun c _ hs => vltRestartSpec_keep c hs

theorem vltMeasureSpec_keep {b0 : State} (c : Cmd) {s : State} (hs : Keep b0 s) :
    KeepA b0 (vltMeasureSpec.exec c s) := by
  unfold vltMeasureSpec
  with_reducible
    repeat' first
      | assumption | intro _ | fail_if_no_progress apply Keep.upd | apply KeepA.done | apply KeepA.accept
      | apply KeepA.defer | apply KeepA.ongoing | dsimp only | split

theorem execVltMeasure_keep (e : Stim) (r : Req) (s : State) : KeepO (s.advance e) (execVltMeasure e r s) := 
  submit_row fun c _ hs => vltMeasureSpec_keep c hs

theorem callExec_keep {b0 : State} (c : Cmd) {s : State} (hs : Keep b0 s) : KeepA b0 (callExec c s) := by
  unfold callExec
  with_reducible
    repeat' first
      | assumption | intro _ | apply Ans.fail_keep | apply vltFill_keep | fail_if_no_progress apply Keep.upd
      | apply KeepA.done | apply KeepA.accept | apply KeepA.defer | apply KeepA.ongoing | dsimp only | split

theorem callSpec_keep {b0 : State} (f : Nat) (data : Bool) (c : Cmd) {s : State} (hs : Keep b0 s) :
    KeepA b0 ((callSpec f data).exec c s) :=
  callExec_keep c hs

theorem vltRandomSpec_keep {b0 : State} (c : Cmd) {s : State} (hs : Keep b0 s) : KeepA b0 (vltRandomSpec.exec c s) :=
  callExec_keep c hs

theorem vltHashSpec_keep {b0 : State} (c : Cmd) {s : State} (hs : Keep b0 s) : KeepA b0 (vltHashSpec.exec c s) :=
  callExec_keep c hs

theorem vltMacSpec_keep {b0 : State} (c : Cmd) {s : State} (hs : Keep b0 s) : KeepA b0 (vltMacSpec.exec c s) :=
  callExec_keep c hs

theorem vltCipherSpec_keep {b0 : State} (c : Cmd) {s : State} (hs : Keep b0 s) : KeepA b0 (vltCipherSpec.exec c s) :=
  callExec_keep c hs

theorem vltAeadSpec_keep {b0 : State} (c : Cmd) {s : State} (hs : Keep b0 s) : KeepA b0 (vltAeadSpec.exec c s) :=
  callExec_keep c hs

theorem vltSignSpec_keep {b0 : State} (c : Cmd) {s : State} (hs : Keep b0 s) : KeepA b0 (vltSignSpec.exec c s) :=
  callExec_keep c hs

theorem vltVerifySpec_keep {b0 : State} (c : Cmd) {s : State} (hs : Keep b0 s) : KeepA b0 (vltVerifySpec.exec c s) :=
  callExec_keep c hs

theorem vltKexSpec_keep {b0 : State} (c : Cmd) {s : State} (hs : Keep b0 s) : KeepA b0 (vltKexSpec.exec c s) :=
  callExec_keep c hs

theorem vltKeyGenSpec_keep {b0 : State} (c : Cmd) {s : State} (hs : Keep b0 s) : KeepA b0 (vltKeyGenSpec.exec c s) :=
  callExec_keep c hs

theorem vltKeyImportSpec_keep {b0 : State} (c : Cmd) {s : State} (hs : Keep b0 s) : KeepA b0 (vltKeyImportSpec.exec c s) :=
  callExec_keep c hs

theorem vltKeyPublicSpec_keep {b0 : State} (c : Cmd) {s : State} (hs : Keep b0 s) : KeepA b0 (vltKeyPublicSpec.exec c s) :=
  callExec_keep c hs

theorem vltKeyDeleteSpec_keep {b0 : State} (c : Cmd) {s : State} (hs : Keep b0 s) : KeepA b0 (vltKeyDeleteSpec.exec c s) :=
  callExec_keep c hs

theorem vltKeyInfoSpec_keep {b0 : State} (c : Cmd) {s : State} (hs : Keep b0 s) : KeepA b0 (vltKeyInfoSpec.exec c s) :=
  callExec_keep c hs

theorem vltCertSpec_keep {b0 : State} (c : Cmd) {s : State} (hs : Keep b0 s) : KeepA b0 (vltCertSpec.exec c s) :=
  callExec_keep c hs

theorem vltLcNonceSpec_keep {b0 : State} (c : Cmd) {s : State} (hs : Keep b0 s) : KeepA b0 (vltLcNonceSpec.exec c s) :=
  callExec_keep c hs

theorem vltLcAdvanceSpec_keep {b0 : State} (c : Cmd) {s : State} (hs : Keep b0 s) : KeepA b0 (vltLcAdvanceSpec.exec c s) :=
  callExec_keep c hs

theorem execVltRandom_keep (e : Stim) (r : Req) (s : State) : KeepO (s.advance e) (execVltRandom e r s) := 
  submit_row fun c _ hs => vltRandomSpec_keep c hs

theorem execVltHash_keep (e : Stim) (r : Req) (s : State) : KeepO (s.advance e) (execVltHash e r s) := 
  submit_row fun c _ hs => vltHashSpec_keep c hs

theorem execVltMac_keep (e : Stim) (r : Req) (s : State) : KeepO (s.advance e) (execVltMac e r s) := 
  submit_row fun c _ hs => vltMacSpec_keep c hs

theorem execVltCipher_keep (e : Stim) (r : Req) (s : State) : KeepO (s.advance e) (execVltCipher e r s) := 
  submit_row fun c _ hs => vltCipherSpec_keep c hs

theorem execVltAead_keep (e : Stim) (r : Req) (s : State) : KeepO (s.advance e) (execVltAead e r s) := 
  submit_row fun c _ hs => vltAeadSpec_keep c hs

theorem execVltSign_keep (e : Stim) (r : Req) (s : State) : KeepO (s.advance e) (execVltSign e r s) := 
  submit_row fun c _ hs => vltSignSpec_keep c hs

theorem execVltVerify_keep (e : Stim) (r : Req) (s : State) : KeepO (s.advance e) (execVltVerify e r s) := 
  submit_row fun c _ hs => vltVerifySpec_keep c hs

theorem execVltKex_keep (e : Stim) (r : Req) (s : State) : KeepO (s.advance e) (execVltKex e r s) := 
  submit_row fun c _ hs => vltKexSpec_keep c hs

theorem execVltKeyGen_keep (e : Stim) (r : Req) (s : State) : KeepO (s.advance e) (execVltKeyGen e r s) := 
  submit_row fun c _ hs => vltKeyGenSpec_keep c hs

theorem execVltKeyImport_keep (e : Stim) (r : Req) (s : State) : KeepO (s.advance e) (execVltKeyImport e r s) := 
  submit_row fun c _ hs => vltKeyImportSpec_keep c hs

theorem execVltKeyPublic_keep (e : Stim) (r : Req) (s : State) : KeepO (s.advance e) (execVltKeyPublic e r s) := 
  submit_row fun c _ hs => vltKeyPublicSpec_keep c hs

theorem execVltKeyDelete_keep (e : Stim) (r : Req) (s : State) : KeepO (s.advance e) (execVltKeyDelete e r s) := 
  submit_row fun c _ hs => vltKeyDeleteSpec_keep c hs

theorem execVltKeyInfo_keep (e : Stim) (r : Req) (s : State) : KeepO (s.advance e) (execVltKeyInfo e r s) := 
  submit_row fun c _ hs => vltKeyInfoSpec_keep c hs

theorem execVltCert_keep (e : Stim) (r : Req) (s : State) : KeepO (s.advance e) (execVltCert e r s) := 
  submit_row fun c _ hs => vltCertSpec_keep c hs

theorem execVltLcNonce_keep (e : Stim) (r : Req) (s : State) : KeepO (s.advance e) (execVltLcNonce e r s) := 
  submit_row fun c _ hs => vltLcNonceSpec_keep c hs

theorem execVltLcAdvance_keep (e : Stim) (r : Req) (s : State) : KeepO (s.advance e) (execVltLcAdvance e r s) := 
  submit_row fun c _ hs => vltLcAdvanceSpec_keep c hs

/-! ### Sto -/

theorem State.setVol_keep {b0 : State} (v : Nat) (x : Vol) {s : State} (hs : Keep b0 s) :
    Keep b0 (State.setVol s v x) := by
  unfold State.setVol
  with_reducible
    repeat' first
      | assumption | intro _ | fail_if_no_progress apply Keep.upd | dsimp only | split

theorem State.setNb_keep {b0 : State} (b : Nat) (x : NandBlk) {s : State} (hs : Keep b0 s) :
    Keep b0 (State.setNb s b x) := by
  unfold State.setNb
  with_reducible
    repeat' first
      | assumption | intro _ | fail_if_no_progress apply Keep.upd | dsimp only | split

theorem replace_keep {b0 : State} (f : Nat → Nat) {s : State} (hs : Keep b0 s) : Keep b0 (replace f s) := by
  unfold replace
  with_reducible
    repeat' first
      | assumption | intro _ | apply State.setSto_keep | fail_if_no_progress apply Keep.upd | dsimp only | split

theorem moveBlk_keep {b0 : State} (src : Nat) (dst : Nat) {s : State} (hs : Keep b0 s) :
    Keep b0 (moveBlk src dst s) := by
  unfold moveBlk
  with_reducible
    repeat' first
      | assumption | intro _ | apply State.setNb_keep | apply replace_keep | fail_if_no_progress apply Keep.upd
      | dsimp only | split

theorem compact_keep {b0 : State} {s : State} (hs : Keep b0 s) : Keep b0 (compact s) := by
  unfold compact
  with_reducible
    repeat' first
      | assumption | intro _ | apply moveBlk_keep | fail_if_no_progress apply Keep.upd | apply Keep.foldl | dsimp only
      | split

theorem openBlk_keep {b0 : State} {s : State} (hs : Keep b0 s) : Keep b0 (openBlk s) := by
  unfold openBlk
  with_reducible
    repeat' first
      | assumption | intro _ | apply State.setSto_keep | apply State.setNb_keep | apply compact_keep
      | fail_if_no_progress apply Keep.upd | dsimp only | split

theorem takePage_keep {b0 : State} {s0 : State} (hs0 : Keep b0 s0) : Keep b0 ((takePage s0).2) := by
  unfold takePage
  with_reducible
    repeat' first
      | assumption | intro _ | apply State.setNb_keep | apply openBlk_keep | fail_if_no_progress apply Keep.upd
      | dsimp only | split

theorem readCount_keep {b0 : State} (v : Nat) (p : Nat) {s : State} (hs : Keep b0 s) : Keep b0 (readCount v p s) := by
  unfold readCount
  with_reducible
    repeat' first
      | assumption | intro _ | apply State.setSto_keep | apply State.setNb_keep | fail_if_no_progress apply Keep.upd
      | dsimp only | split

theorem noEnergy_keep {b0 : State} (w : StoWait) {s : State} (hs : Keep b0 s) : Keep b0 (noEnergy w s) := by
  unfold noEnergy
  with_reducible
    repeat' first
      | assumption | intro _ | apply finishAll_keep | apply State.setSto_keep | fail_if_no_progress apply Keep.upd
      | dsimp only | split

theorem admitList_keep {b0 : State} (x0 : List StoWait) {x1 : State} (hx1 : Keep b0 x1) :
    Keep b0 (admitList x0 x1) := by
  induction x0 generalizing x1 with
  | nil =>
    unfold admitList
    with_reducible
      repeat' first
        | assumption | intro _ | apply setCmd_keep | apply State.setSto_keep | apply noEnergy_keep
        | fail_if_no_progress apply Keep.upd | dsimp only | split
  | cons a l ih =>
    unfold admitList
    with_reducible
      repeat' first
        | assumption | intro _ | apply ih | apply setCmd_keep | apply State.setSto_keep | apply noEnergy_keep
        | fail_if_no_progress apply Keep.upd | dsimp only | split

theorem escrowEval_keep {b0 : State} {s : State} (hs : Keep b0 s) : Keep b0 (escrowEval s) := by
  unfold escrowEval
  with_reducible
    repeat' first
      | assumption | intro _ | apply admitList_keep | fail_if_no_progress apply Keep.upd | dsimp only | split

theorem commitAns_keep {b0 : State} (c : Cmd) (j : StoJob) (timeout : Nat) {s : State} (hs : Keep b0 s) :
    KeepA b0 (commitAns c j timeout s) := by
  unfold commitAns
  with_reducible
    repeat' first
      | assumption | intro _ | apply State.setSto_keep | apply Ans.fail_keep | apply noEnergy_keep
      | fail_if_no_progress apply Keep.upd | apply KeepA.done | apply KeepA.accept | apply KeepA.defer
      | apply KeepA.ongoing | dsimp only | split

theorem execEscrowEvaluation_keep (e : Stim) (s : State) : KeepO (s.advance e) (execEscrowEvaluation e s) := by
  unfold execEscrowEvaluation
  apply event_keep
  generalize s.advance e = b0
  intro t ht
  with_reducible
    repeat' first
      | assumption | intro _ | apply escrowEval_keep | fail_if_no_progress apply Keep.upd | dsimp only | split

theorem execCommitTimeout_keep (e : Stim) (cmd : Nat) (s : State) :
    KeepO (s.advance e) (execCommitTimeout e cmd s) := by
  unfold execCommitTimeout
  apply event_keep
  generalize s.advance e = b0
  intro t ht
  with_reducible
    repeat' first
      | assumption | intro _ | apply State.setSto_keep | apply noEnergy_keep | fail_if_no_progress apply Keep.upd
      | dsimp only | split

theorem execBankSample_keep (e : Stim) (mv : Nat) (s : State) : KeepO (s.advance e) (execBankSample e mv s) := by
  unfold execBankSample
  apply event_keep
  generalize s.advance e = b0
  intro t ht
  with_reducible
    repeat' first
      | assumption | intro _ | apply State.setSto_keep | apply escrowEval_keep | fail_if_no_progress apply Keep.upd
      | dsimp only | split

theorem escrowMeasured_keep {b0 : State} (drop : Nat) {s : State} (hs : Keep b0 s) :
    Keep b0 (escrowMeasured drop s) := by
  unfold escrowMeasured
  with_reducible
    repeat' first
      | assumption | intro _ | apply noticeAll_keep | apply finishCmd_keep | apply State.setSto_keep
      | fail_if_no_progress apply Keep.upd | apply Keep.foldl | dsimp only | split

theorem execEscrowMeasureEnd_keep (e : Stim) (drop : Nat) (s : State) :
    KeepO (s.advance e) (execEscrowMeasureEnd e drop s) := by
  unfold execEscrowMeasureEnd
  apply event_keep
  generalize s.advance e = b0
  intro t ht
  with_reducible
    repeat' first
      | assumption | intro _ | apply escrowMeasured_keep | fail_if_no_progress apply Keep.upd | dsimp only | split

theorem ledgerSettle_keep {b0 : State} {s : State} (hs : Keep b0 s) : Keep b0 (ledgerSettle s) := by
  unfold ledgerSettle
  with_reducible
    repeat' first
      | assumption | intro _ | fail_if_no_progress apply Keep.upd | dsimp only | split

theorem ledgerPage_keep {b0 : State} (phys : List Nat) {s : State} (hs : Keep b0 s) :
    Keep b0 (ledgerPage phys s) := by
  unfold ledgerPage
  with_reducible
    repeat' first
      | assumption | intro _ | apply ring_keep | apply State.setVol_keep | apply ledgerSettle_keep
      | fail_if_no_progress apply Keep.upd | apply Keep.foldl | dsimp only | split

theorem execLedgerPersist_keep (e : Stim) (s : State) : KeepO (s.advance e) (execLedgerPersist e s) := by
  unfold execLedgerPersist
  apply event_keep
  generalize s.advance e = b0
  intro t ht
  with_reducible
    repeat' first
      | assumption | intro _ | apply State.setSto_keep | apply escrowEval_keep | fail_if_no_progress apply Keep.upd
      | dsimp only | split

theorem execCheckpointSign_keep (e : Stim) (s : State) : KeepO (s.advance e) (execCheckpointSign e s) := by
  unfold execCheckpointSign
  apply event_keep
  generalize s.advance e = b0
  intro t ht
  with_reducible
    repeat' first
      | assumption | intro _ | apply State.drawBytes_keep | apply notice_keep | apply ledgerSettle_keep
      | fail_if_no_progress apply Keep.upd | dsimp only | split

theorem State.setJob_keep {b0 : State} (i : Nat) (j : Option StoJob) {s : State} (hs : Keep b0 s) :
    Keep b0 (State.setJob s i j) := by
  unfold State.setJob
  with_reducible
    repeat' first
      | assumption | intro _ | apply State.setSto_keep | fail_if_no_progress apply Keep.upd | dsimp only | split

theorem stagePages_keep {b0 : State} (g : Nat) (ws : Tbl (List Byte)) (phys : List Nat) {s : State} (hs : Keep b0 s) :
    Keep b0 (stagePages g ws phys s) := by
  unfold stagePages
  with_reducible
    repeat' first
      | assumption | intro _ | apply State.setGrp_keep | fail_if_no_progress apply Keep.upd | apply Keep.foldl
      | dsimp only | split

theorem pageProgrammed_keep {b0 : State} (i : Nat) {s : State} (hs : Keep b0 s) : Keep b0 (pageProgrammed i s) := by
  unfold pageProgrammed
  with_reducible
    repeat' first
      | assumption | intro _ | apply finishAll_keep | apply stage_keep | apply takePage_keep | apply escrowEval_keep
      | apply State.setJob_keep | apply stagePages_keep | fail_if_no_progress apply Keep.upd | dsimp only | split

theorem execPageProgramEnd_keep (e : Stim) (cmd : Nat) (s : State) :
    KeepO (s.advance e) (execPageProgramEnd e cmd s) := by
  unfold execPageProgramEnd
  apply event_keep
  generalize s.advance e = b0
  intro t ht
  with_reducible
    repeat' first
      | assumption | intro _ | apply pageProgrammed_keep | fail_if_no_progress apply Keep.upd | dsimp only | split

theorem mapPages_keep {b0 : State} (v : Nat) (w : Tbl (Option (List Byte))) (phys : List Nat) {s : State} (hs : Keep b0 s) :
    Keep b0 (mapPages v w phys s) := by
  unfold mapPages
  with_reducible
    repeat' first
      | assumption | intro _ | apply State.setVol_keep | fail_if_no_progress apply Keep.upd | apply Keep.foldl
      | dsimp only | split

theorem journalled_keep {b0 : State} (i : Nat) {s : State} (hs : Keep b0 s) : Keep b0 (journalled i s) := by
  unfold journalled
  with_reducible
    repeat' first
      | assumption | intro _ | apply finishAll_keep | apply State.setGrp_keep | apply State.setSto_keep
      | apply escrowEval_keep | apply ledgerPage_keep | apply State.setJob_keep | apply mapPages_keep
      | fail_if_no_progress apply Keep.upd | dsimp only | split

theorem execJournalRecordEnd_keep (e : Stim) (cmd : Nat) (s : State) :
    KeepO (s.advance e) (execJournalRecordEnd e cmd s) := by
  unfold execJournalRecordEnd
  apply event_keep
  generalize s.advance e = b0
  intro t ht
  with_reducible
    repeat' first
      | assumption | intro _ | apply journalled_keep | fail_if_no_progress apply Keep.upd | dsimp only | split

theorem mediaLost_keep {b0 : State} (v : Nat) (p : Nat) {s : State} (hs : Keep b0 s) : Keep b0 (mediaLost v p s) := by
  unfold mediaLost
  with_reducible
    repeat' first
      | assumption | intro _ | apply logNotice_keep | apply State.setSto_keep | fail_if_no_progress apply Keep.upd
      | dsimp only | split

theorem readEnd_keep {b0 : State} (i : Nat) (bits : List (List Nat)) {s : State} (hs : Keep b0 s) :
    Keep b0 (readEnd i bits s) := by
  unfold readEnd
  with_reducible
    repeat' first
      | assumption | intro _ | apply State.writeMem_keep | apply finishCmd_keep | apply finishAll_keep
      | apply vaultLog_keep | apply readCount_keep | apply State.setJob_keep | apply mediaLost_keep
      | fail_if_no_progress apply Keep.upd | apply Keep.foldl | dsimp only | split

theorem execMediaReadEnd_keep (e : Stim) (cmd : Nat) (bits : List (List Nat)) (s : State) :
    KeepO (s.advance e) (execMediaReadEnd e cmd bits s) := by
  unfold execMediaReadEnd
  apply event_keep
  generalize s.advance e = b0
  intro t ht
  with_reducible
    repeat' first
      | assumption | intro _ | apply readEnd_keep | fail_if_no_progress apply Keep.upd | dsimp only | split

theorem goReadonly_keep {b0 : State} (v : Nat) (p : Nat) {s : State} (hs : Keep b0 s) :
    Keep b0 (goReadonly v p s) := by
  unfold goReadonly
  with_reducible
    repeat' first
      | assumption | intro _ | apply noticeAll_keep | apply finishAll_keep | apply State.setSto_keep
      | apply ledgerSettle_keep | fail_if_no_progress apply Keep.upd | dsimp only | split

theorem programFailed_keep {b0 : State} (v : Nat) (p : Nat) {s : State} (hs : Keep b0 s) :
    Keep b0 (programFailed v p s) := by
  unfold programFailed
  with_reducible
    repeat' first
      | assumption | intro _ | apply noticeAll_keep | apply State.setSto_keep | apply State.setNb_keep
      | apply goReadonly_keep | fail_if_no_progress apply Keep.upd | dsimp only | split

theorem execProgramFailure_keep (e : Stim) (vol : Nat) (page : Nat) (s : State) :
    KeepO (s.advance e) (execProgramFailure e vol page s) := by
  unfold execProgramFailure
  apply event_keep
  generalize s.advance e = b0
  intro t ht
  with_reducible
    repeat' first
      | assumption | intro _ | apply programFailed_keep | fail_if_no_progress apply Keep.upd | dsimp only | split

theorem refreshBlk_keep {b0 : State} (b : Nat) {s : State} (hs : Keep b0 s) : Keep b0 (refreshBlk b s) := by
  unfold refreshBlk
  with_reducible
    repeat' first
      | assumption | intro _ | apply State.setSto_keep | apply moveBlk_keep | fail_if_no_progress apply Keep.upd
      | dsimp only | split

theorem patrolled_keep {b0 : State} (v : Nat) (p : Nat) (bits : Nat) {s : State} (hs : Keep b0 s) :
    Keep b0 (patrolled v p bits s) := by
  unfold patrolled
  with_reducible
    repeat' first
      | assumption | intro _ | apply State.setSto_keep | apply mediaLost_keep | apply refreshBlk_keep
      | fail_if_no_progress apply Keep.upd | dsimp only | split

theorem execNandPatrol_keep (e : Stim) (vol : Nat) (page : Nat) (result : Nat) (s : State) :
    KeepO (s.advance e) (execNandPatrol e vol page result s) := by
  unfold execNandPatrol
  apply event_keep
  generalize s.advance e = b0
  intro t ht
  with_reducible
    repeat' first
      | assumption | intro _ | apply patrolled_keep | fail_if_no_progress apply Keep.upd | dsimp only | split

theorem wearMove_keep {b0 : State} {s : State} (hs : Keep b0 s) : Keep b0 (wearMove s) := by
  unfold wearMove
  with_reducible
    repeat' first
      | assumption | intro _ | apply moveBlk_keep | fail_if_no_progress apply Keep.upd | apply Keep.foldl | dsimp only
      | split

theorem execWearLevelMove_keep (e : Stim) (s : State) : KeepO (s.advance e) (execWearLevelMove e s) := by
  unfold execWearLevelMove
  apply event_keep
  generalize s.advance e = b0
  intro t ht
  with_reducible
    repeat' first
      | assumption | intro _ | apply wearMove_keep | fail_if_no_progress apply Keep.upd | dsimp only | split

theorem stoGate_keep {b0 : State} (run : Cmd → State → Ans) (c : Cmd) {s : State} (hs : Keep b0 s) (hfrun : ∀ a0 s, Keep b0 s → KeepA b0 (run a0 s)) :
    KeepA b0 (stoGate run c s) := by
  unfold stoGate
  with_reducible
    repeat' first
      | assumption | intro _ | apply hfrun | apply setCmd_keep | apply Ans.fail_keep
      | fail_if_no_progress apply Keep.upd | apply KeepA.done | apply KeepA.accept | apply KeepA.defer
      | apply KeepA.ongoing | dsimp only | split

theorem State.dmaFail_keep {b0 : State} (t : Nat) (a : Nat) (n : Nat) {s : State} (hs : Keep b0 s) :
    KeepA b0 (State.dmaFail s t a n) := by
  unfold State.dmaFail
  with_reducible
    repeat' first
      | assumption | intro _ | apply vaultLog_keep | apply Ans.fail_keep | fail_if_no_progress apply Keep.upd
      | apply KeepA.done | apply KeepA.accept | apply KeepA.defer | apply KeepA.ongoing | dsimp only | split

theorem stoFormatSpec_keep {b0 : State} (c : Cmd) {s : State} (hs : Keep b0 s) :
    KeepA b0 (stoFormatSpec.exec c s) := by
  unfold stoFormatSpec
  with_reducible
    repeat' first
      | assumption | intro _ | apply State.setSto_keep | apply Ans.fail_keep | apply stoGate_keep
      | fail_if_no_progress apply Keep.upd | apply KeepA.done | apply KeepA.accept | apply KeepA.defer
      | apply KeepA.ongoing | dsimp only | split

theorem execStoFormat_keep (e : Stim) (r : Req) (s : State) : KeepO (s.advance e) (execStoFormat e r s) := 
  submit_row fun c _ hs => stoFormatSpec_keep c hs

theorem stagingLost_keep {b0 : State} {s : State} (hs : Keep b0 s) : Keep b0 (stagingLost s) := by
  unfold stagingLost
  with_reducible
    repeat' first
      | assumption | intro _ | fail_if_no_progress apply Keep.upd | dsimp only | split

theorem execFormatComplete_keep (e : Stim) (s : State) : KeepO (s.advance e) (execFormatComplete e s) := by
  unfold execFormatComplete
  apply event_keep
  generalize s.advance e = b0
  intro t ht
  with_reducible
    repeat' first
      | assumption | intro _ | apply finishAll_keep | apply ledgerSettle_keep | apply stagingLost_keep
      | fail_if_no_progress apply Keep.upd | dsimp only | split

theorem volKey_keep {b0 : State} (v : Nat) (k : List Byte) {s : State} (hs : Keep b0 s) : Keep b0 (volKey v k s) := by
  unfold volKey
  with_reducible
    repeat' first
      | assumption | intro _ | fail_if_no_progress apply Keep.upd | dsimp only | split

theorem stoVolConfigSpec_keep {b0 : State} (c : Cmd) {s : State} (hs : Keep b0 s) :
    KeepA b0 (stoVolConfigSpec.exec c s) := by
  unfold stoVolConfigSpec
  with_reducible
    repeat' first
      | assumption | intro _ | apply State.drawBytes_keep | apply State.setSto_keep | apply Ans.okay_keep
      | apply Ans.fail_keep | apply State.setVol_keep | apply ledgerSettle_keep | apply stoGate_keep
      | apply stagingLost_keep | apply volKey_keep | fail_if_no_progress apply Keep.upd | apply KeepA.done
      | apply KeepA.accept | apply KeepA.defer | apply KeepA.ongoing | dsimp only | split

theorem execStoVolConfig_keep (e : Stim) (r : Req) (s : State) : KeepO (s.advance e) (execStoVolConfig e r s) := 
  submit_row fun c _ hs => stoVolConfigSpec_keep c hs

theorem stoStatusSpec_keep {b0 : State} (c : Cmd) {s : State} (hs : Keep b0 s) :
    KeepA b0 (stoStatusSpec.exec c s) := by
  unfold stoStatusSpec
  with_reducible
    repeat' first
      | assumption | intro _ | fail_if_no_progress apply Keep.upd | apply Keep.foldl | apply KeepA.done
      | apply KeepA.accept | apply KeepA.defer | apply KeepA.ongoing | dsimp only | split

theorem execStoStatus_keep (e : Stim) (r : Req) (s : State) : KeepO (s.advance e) (execStoStatus e r s) := 
  submit_row fun c _ hs => stoStatusSpec_keep c hs

theorem stoReadSpec_keep {b0 : State} (c : Cmd) {s : State} (hs : Keep b0 s) : KeepA b0 (stoReadSpec.exec c s) := by
  unfold stoReadSpec
  with_reducible
    repeat' first
      | assumption | intro _ | apply State.setSto_keep | apply Ans.fail_keep | apply stoGate_keep
      | apply State.dmaFail_keep | fail_if_no_progress apply Keep.upd | apply KeepA.done | apply KeepA.accept
      | apply KeepA.defer | apply KeepA.ongoing | dsimp only | split

theorem execStoRead_keep (e : Stim) (r : Req) (s : State) : KeepO (s.advance e) (execStoRead e r s) := 
  submit_row fun c _ hs => stoReadSpec_keep c hs

theorem stageAns_keep {b0 : State} (c : Cmd) {s : State} (hs : Keep b0 s) : KeepA b0 (stageAns c s) := by
  unfold stageAns
  with_reducible
    repeat' first
      | assumption | intro _ | apply State.setSto_keep | apply Ans.fail_keep | apply stage_keep
      | fail_if_no_progress apply Keep.upd | apply KeepA.done | apply KeepA.accept | apply KeepA.defer
      | apply KeepA.ongoing | dsimp only | split

theorem stoWriteSpec_keep {b0 : State} (c : Cmd) {s : State} (hs : Keep b0 s) : KeepA b0 (stoWriteSpec.exec c s) := by
  unfold stoWriteSpec
  with_reducible
    repeat' first
      | assumption | intro _ | apply Ans.fail_keep | apply commitAns_keep | apply stoGate_keep
      | apply State.dmaFail_keep | apply stageAns_keep | fail_if_no_progress apply Keep.upd | apply KeepA.done
      | apply KeepA.accept | apply KeepA.defer | apply KeepA.ongoing | dsimp only | split

theorem execStoWrite_keep (e : Stim) (r : Req) (s : State) : KeepO (s.advance e) (execStoWrite e r s) := 
  submit_row fun c _ hs => stoWriteSpec_keep c hs

theorem stoTrimSpec_keep {b0 : State} (c : Cmd) {s : State} (hs : Keep b0 s) : KeepA b0 (stoTrimSpec.exec c s) := by
  unfold stoTrimSpec
  with_reducible
    repeat' first
      | assumption | intro _ | apply Ans.fail_keep | apply commitAns_keep | apply stoGate_keep
      | fail_if_no_progress apply Keep.upd | apply KeepA.done | apply KeepA.accept | apply KeepA.defer
      | apply KeepA.ongoing | dsimp only | split

theorem execStoTrim_keep (e : Stim) (r : Req) (s : State) : KeepO (s.advance e) (execStoTrim e r s) := 
  submit_row fun c _ hs => stoTrimSpec_keep c hs

theorem stoGroupOpenSpec_keep {b0 : State} (c : Cmd) {s : State} (hs : Keep b0 s) :
    KeepA b0 (stoGroupOpenSpec.exec c s) := by
  unfold stoGroupOpenSpec
  with_reducible
    repeat' first
      | assumption | intro _ | apply State.drawNat_keep | apply State.setGrp_keep | apply Ans.fail_keep
      | apply stoGate_keep | fail_if_no_progress apply Keep.upd | apply KeepA.done | apply KeepA.accept
      | apply KeepA.defer | apply KeepA.ongoing | dsimp only | split

theorem execStoGroupOpen_keep (e : Stim) (r : Req) (s : State) : KeepO (s.advance e) (execStoGroupOpen e r s) := 
  submit_row fun c _ hs => stoGroupOpenSpec_keep c hs

theorem stoGroupCommitSpec_keep {b0 : State} (c : Cmd) {s : State} (hs : Keep b0 s) :
    KeepA b0 (stoGroupCommitSpec.exec c s) := by
  unfold stoGroupCommitSpec
  with_reducible
    repeat' first
      | assumption | intro _ | apply Ans.fail_keep | apply commitAns_keep | apply stoGate_keep
      | fail_if_no_progress apply Keep.upd | apply KeepA.done | apply KeepA.accept | apply KeepA.defer
      | apply KeepA.ongoing | dsimp only | split

theorem execStoGroupCommit_keep (e : Stim) (r : Req) (s : State) :
    KeepO (s.advance e) (execStoGroupCommit e r s) := 
  submit_row fun c _ hs => stoGroupCommitSpec_keep c hs

theorem stoGroupAbortSpec_keep {b0 : State} (c : Cmd) {s : State} (hs : Keep b0 s) :
    KeepA b0 (stoGroupAbortSpec.exec c s) := by
  unfold stoGroupAbortSpec
  with_reducible
    repeat' first
      | assumption | intro _ | apply State.setGrp_keep | apply Ans.okay_keep | apply Ans.fail_keep
      | apply stoGate_keep | fail_if_no_progress apply Keep.upd | apply KeepA.done | apply KeepA.accept
      | apply KeepA.defer | apply KeepA.ongoing | dsimp only | split

theorem execStoGroupAbort_keep (e : Stim) (r : Req) (s : State) : KeepO (s.advance e) (execStoGroupAbort e r s) := 
  submit_row fun c _ hs => stoGroupAbortSpec_keep c hs

theorem stoEscrowConfigSpec_keep {b0 : State} (c : Cmd) {s : State} (hs : Keep b0 s) :
    KeepA b0 (stoEscrowConfigSpec.exec c s) := by
  unfold stoEscrowConfigSpec
  with_reducible
    repeat' first
      | assumption | intro _ | apply State.setSto_keep | apply Ans.okay_keep | apply stoGate_keep
      | fail_if_no_progress apply Keep.upd | apply KeepA.done | apply KeepA.accept | apply KeepA.defer
      | apply KeepA.ongoing | dsimp only | split

theorem execStoEscrowConfig_keep (e : Stim) (r : Req) (s : State) :
    KeepO (s.advance e) (execStoEscrowConfig e r s) := 
  submit_row fun c _ hs => stoEscrowConfigSpec_keep c hs

theorem stoEscrowStatusSpec_keep {b0 : State} (c : Cmd) {s : State} (hs : Keep b0 s) :
    KeepA b0 (stoEscrowStatusSpec.exec c s) := by
  unfold stoEscrowStatusSpec
  with_reducible
    repeat' first
      | assumption | intro _ | apply noEnergy_keep | apply stoGate_keep | fail_if_no_progress apply Keep.upd
      | apply KeepA.done | apply KeepA.accept | apply KeepA.defer | apply KeepA.ongoing | dsimp only | split

theorem execStoEscrowStatus_keep (e : Stim) (r : Req) (s : State) :
    KeepO (s.advance e) (execStoEscrowStatus e r s) := 
  submit_row fun c _ hs => stoEscrowStatusSpec_keep c hs

theorem stoEscrowMeasureSpec_keep {b0 : State} (c : Cmd) {s : State} (hs : Keep b0 s) :
    KeepA b0 (stoEscrowMeasureSpec.exec c s) := by
  unfold stoEscrowMeasureSpec
  with_reducible
    repeat' first
      | assumption | intro _ | apply State.setSto_keep | apply stoGate_keep | fail_if_no_progress apply Keep.upd
      | apply KeepA.done | apply KeepA.accept | apply KeepA.defer | apply KeepA.ongoing | dsimp only | split

theorem execStoEscrowMeasure_keep (e : Stim) (r : Req) (s : State) :
    KeepO (s.advance e) (execStoEscrowMeasure e r s) := 
  submit_row fun c _ hs => stoEscrowMeasureSpec_keep c hs

theorem stoPatrolSpec_keep {b0 : State} (c : Cmd) {s : State} (hs : Keep b0 s) :
    KeepA b0 (stoPatrolSpec.exec c s) := by
  unfold stoPatrolSpec
  with_reducible
    repeat' first
      | assumption | intro _ | apply State.setSto_keep | apply Ans.okay_keep | apply stoGate_keep
      | fail_if_no_progress apply Keep.upd | apply KeepA.done | apply KeepA.accept | apply KeepA.defer
      | apply KeepA.ongoing | dsimp only | split

theorem execStoPatrol_keep (e : Stim) (r : Req) (s : State) : KeepO (s.advance e) (execStoPatrol e r s) := 
  submit_row fun c _ hs => stoPatrolSpec_keep c hs

theorem stxFound_keep {b0 : State} (ce0 : List NandLun) (ce1 : List NandLun) (marks : List Nat) {s : State} (hs : Keep b0 s) :
    Keep b0 (stxFound ce0 ce1 marks s) := by
  unfold stxFound
  with_reducible
    repeat' first
      | assumption | intro _ | apply State.setSto_keep | apply ledgerSettle_keep | fail_if_no_progress apply Keep.upd
      | dsimp only | split

theorem resumeOps_keep {b0 : State} (ops : List OpSpec) {s : State} (hs : Keep b0 s)
    (hfops : ∀ z ∈ ops, ∀ c s, Keep b0 s → KeepA b0 (z.exec c s)) : Keep b0 (resumeOps ops s) := by
  unfold resumeOps
  apply Keep.foldl _ hs
  intro t c ht
  split
  · next h => exact begin_keep _ c ht (hfops _ (List.mem_of_find?_eq_some h))
  · exact ht

theorem stxLose_keep {b0 : State} {s : State} (hs : Keep b0 s) : Keep b0 (stxLose s) := by
  unfold stxLose
  with_reducible
    repeat' first
      | assumption | intro _ | apply finishAll_keep | apply State.setSto_keep | apply noEnergy_keep
      | apply ledgerSettle_keep | fail_if_no_progress apply Keep.upd | dsimp only | split

theorem logStatusSpec_keep {b0 : State} (c : Cmd) {s : State} (hs : Keep b0 s) :
    KeepA b0 (logStatusSpec.exec c s) := by
  unfold logStatusSpec
  with_reducible
    repeat' first
      | assumption | intro _ | fail_if_no_progress apply Keep.upd | apply KeepA.done | apply KeepA.accept
      | apply KeepA.defer | apply KeepA.ongoing | dsimp only | split

theorem execLogStatus_keep (e : Stim) (r : Req) (s : State) : KeepO (s.advance e) (execLogStatus e r s) := 
  submit_row fun c _ hs => logStatusSpec_keep c hs

theorem logReadSpec_keep {b0 : State} (c : Cmd) {s : State} (hs : Keep b0 s) : KeepA b0 (logReadSpec.exec c s) := by
  unfold logReadSpec
  with_reducible
    repeat' first
      | assumption | intro _ | fail_if_no_progress apply Keep.upd | apply KeepA.done | apply KeepA.accept
      | apply KeepA.defer | apply KeepA.ongoing | dsimp only | split

theorem execLogRead_keep (e : Stim) (r : Req) (s : State) : KeepO (s.advance e) (execLogRead e r s) := 
  submit_row fun c _ hs => logReadSpec_keep c hs

theorem logCheckpointSpec_keep {b0 : State} (c : Cmd) {s : State} (hs : Keep b0 s) :
    KeepA b0 (logCheckpointSpec.exec c s) := by
  unfold logCheckpointSpec
  with_reducible
    repeat' first
      | assumption | intro _ | apply Ans.fail_keep | fail_if_no_progress apply Keep.upd | apply KeepA.done
      | apply KeepA.accept | apply KeepA.defer | apply KeepA.ongoing | dsimp only | split

theorem execLogCheckpoint_keep (e : Stim) (r : Req) (s : State) : KeepO (s.advance e) (execLogCheckpoint e r s) := 
  submit_row fun c _ hs => logCheckpointSpec_keep c hs

theorem logWriteSpec_keep {b0 : State} (c : Cmd) {s : State} (hs : Keep b0 s) : KeepA b0 (logWriteSpec.exec c s) := by
  unfold logWriteSpec
  with_reducible
    repeat' first
      | assumption | intro _ | apply logSev_keep | apply Ans.fail_keep | fail_if_no_progress apply Keep.upd
      | apply KeepA.done | apply KeepA.accept | apply KeepA.defer | apply KeepA.ongoing | dsimp only | split

theorem execLogWrite_keep (e : Stim) (r : Req) (s : State) : KeepO (s.advance e) (execLogWrite e r s) := 
  submit_row fun c _ hs => logWriteSpec_keep c hs

end Sys2Proof.Machine
end

