-- ==== Sys2Proof/Laws/KeepRest.lean ====
section
/-!
SUPPORT. Keep for the Relay, audits, losses, tenants, time.
-/

set_option linter.unusedTactic false
set_option linter.unreachableTactic false

namespace Sys2Proof.Machine

/-! ### Relay -/

theorem closeXfr_keep {b0 : State} (n : Nat) {s : State} (hs : Keep b0 s) : Keep b0 (closeXfr n s) := by
  unfold closeXfr
  with_reducible
    repeat' first
      | assumption | intro _ | apply State.setXfr_keep | apply compTo_keep | fail_if_no_progress apply Keep.upd
      | dsimp only | split

theorem settleXfers_keep {b0 : State} {s : State} (hs : Keep b0 s) : Keep b0 (settleXfers s) := by
  unfold settleXfers
  with_reducible
    repeat' first
      | assumption | intro _ | apply abandonXfr_keep | fail_if_no_progress apply Keep.upd | apply Keep.foldl
      | dsimp only | split

theorem onXfr_keep {b0 : State} (free : Nat → Bool) (run : Nat → ImgXfer → Cmd → State → Ans) (c : Cmd) {s : State} (hs : Keep b0 s) (hfrun : ∀ a0 a1 a2 s, Keep b0 s → KeepA b0 (run a0 a1 a2 s)) :
    KeepA b0 (onXfr free run c s) := by
  unfold onXfr
  with_reducible
    repeat' first
      | assumption | intro _ | apply hfrun | apply Ans.fail_keep | apply settleXfers_keep
      | fail_if_no_progress apply Keep.upd | apply KeepA.done | apply KeepA.accept | apply KeepA.defer
      | apply KeepA.ongoing | dsimp only | split

theorem imgOfferSpec_keep {b0 : State} (c : Cmd) {s : State} (hs : Keep b0 s) : KeepA b0 (imgOfferSpec.exec c s) := by
  unfold imgOfferSpec
  with_reducible
    repeat' first
      | assumption | intro _ | apply State.drawNat_keep | apply State.setXfr_keep | apply Ans.fail_keep
      | apply compTo_keep | apply settleXfers_keep | fail_if_no_progress apply Keep.upd | apply KeepA.done
      | apply KeepA.accept | apply KeepA.defer | apply KeepA.ongoing | dsimp only | split

theorem execImgOffer_keep (e : Stim) (r : Req) (s : State) : KeepO (s.advance e) (execImgOffer e r s) := 
  submit_row fun c _ hs => imgOfferSpec_keep c hs

theorem dataAns_keep {b0 : State} (n : Nat) (x : ImgXfer) (c : Cmd) {s : State} (hs : Keep b0 s) :
    KeepA b0 (dataAns n x c s) := by
  unfold dataAns
  with_reducible
    repeat' first
      | assumption | intro _
      | (extract_lets +onlyGivenNames x; first
        | (refine (fun hx : Keep b0 x => ?_) ?_; (on_goal 1 => clear_value x); on_goal 2 => (show Keep b0 _; subst x))
        | (refine (fun hx : Keep b0 x.2 => ?_) ?_; (on_goal 1 => clear_value x); on_goal 2 => (show Keep b0 (Prod.snd _); subst x))
        | (refine (fun hx : Keep b0 x.1 => ?_) ?_; (on_goal 1 => clear_value x); on_goal 2 => (show Keep b0 (Prod.fst _); subst x))
        | (refine (fun hx : KeepA b0 x => ?_) ?_; (on_goal 1 => clear_value x); on_goal 2 => (show KeepA b0 _; subst x))
        | (refine (fun hx : ∀ a, Keep b0 (x a) => ?_) ?_; (on_goal 1 => clear_value x); on_goal 2 => (subst x; intro _; dsimp -zeta only))
        | (refine (fun hx : ∀ t, Keep b0 t → Keep b0 (x t) => ?_) ?_; (on_goal 1 => clear_value x); on_goal 2 => (subst x; intro _ _; dsimp -zeta only))
        | (refine (fun hx : ∀ a t, Keep b0 t → Keep b0 (x a t) => ?_) ?_; (on_goal 1 => clear_value x); on_goal 2 => (subst x; intro _ _ _; dsimp -zeta only))
        | (refine (fun hx : ∀ a b t, Keep b0 t → Keep b0 (x a b t) => ?_) ?_; (on_goal 1 => clear_value x); on_goal 2 => (subst x; intro _ _ _ _; dsimp -zeta only))
        | clear_value x)
      | apply State.setXfr_keep | apply Ans.okay_keep | apply Ans.fail_keep | apply commitAns_keep
      | fail_if_no_progress apply Keep.upd | apply KeepA.done | apply KeepA.accept | apply KeepA.defer
      | apply KeepA.ongoing | dsimp -zeta only | split | refine KeepA.ofDone (by assumption) ?_
      | refine KeepA.ofAccept (by assumption) ?_ | refine KeepA.ofDefer (by assumption) ?_
      | refine KeepA.ofOngoing (by assumption) ?_ | refine Keep.ofSnd (by assumption) ?_
      | refine Keep.ofFst (by assumption) ?_ | dsimp only | simp only [id_eq]

theorem imgDataSpec_keep {b0 : State} (c : Cmd) {s : State} (hs : Keep b0 s) : KeepA b0 (imgDataSpec.exec c s) := by
  unfold imgDataSpec
  with_reducible
    repeat' first
      | assumption | intro _ | apply stoGate_keep | apply onXfr_keep | apply dataAns_keep
      | fail_if_no_progress apply Keep.upd | apply KeepA.done | apply KeepA.accept | apply KeepA.defer
      | apply KeepA.ongoing | dsimp only | split

theorem execImgData_keep (e : Stim) (r : Req) (s : State) : KeepO (s.advance e) (execImgData e r s) := 
  submit_row fun c _ hs => imgDataSpec_keep c hs

/-- The commands that wait for the device or the map keep what has been kept. -/
theorem stoResume_keep {b0 : State} {s : State} (hs : Keep b0 s) : Keep b0 (resumeOps (imgDataSpec :: stoTable) s) := by
  refine resumeOps_keep _ hs fun z hz c s hs => ?_
  simp only [stoTable, List.mem_cons, List.not_mem_nil, or_false] at hz
  rcases hz with rfl | rfl | rfl | rfl | rfl | rfl | rfl | rfl | rfl | rfl | rfl | rfl | rfl
  · exact imgDataSpec_keep c hs
  · exact stoFormatSpec_keep c hs
  · exact stoVolConfigSpec_keep c hs
  · exact stoReadSpec_keep c hs
  · exact stoWriteSpec_keep c hs
  · exact stoTrimSpec_keep c hs
  · exact stoGroupOpenSpec_keep c hs
  · exact stoGroupCommitSpec_keep c hs
  · exact stoGroupAbortSpec_keep c hs
  · exact stoEscrowConfigSpec_keep c hs
  · exact stoEscrowStatusSpec_keep c hs
  · exact stoEscrowMeasureSpec_keep c hs
  · exact stoPatrolSpec_keep c hs

theorem execStxStart_keep (e : Stim) (ce0 ce1 : List NandLun) (marks : List Nat) (s : State) :
    KeepO (s.advance e) (execStxStart e ce0 ce1 marks s) := by
  unfold execStxStart
  apply event_keep
  intro t ht
  dsimp only
  split
  · exact stxFound_keep _ _ _ ht
  · exact stoResume_keep (stxFound_keep _ _ _ ht)

theorem execTranslationRebuildEnd_keep (e : Stim) (s : State) :
    KeepO (s.advance e) (execTranslationRebuildEnd e s) :=
  event_keep fun _ ht => stoResume_keep (Keep.upd ht)

theorem relayNext_keep {b0 : State} (r : ImgRelay) {s : State} (hs : Keep b0 s) : Keep b0 (relayNext r s) := by
  unfold relayNext
  with_reducible
    repeat' first
      | assumption | intro _ | fail_if_no_progress apply Keep.upd | dsimp only | split

theorem setRelay_keep {b0 : State} (r : ImgRelay) {s : State} (hs : Keep b0 s) : Keep b0 (setRelay r s) := by
  unfold setRelay
  with_reducible
    repeat' first
      | assumption | intro _ | fail_if_no_progress apply Keep.upd | dsimp only | split

theorem relayOutcome_keep {b0 : State} (comp : Nat) (status : Nat) {s : State} (hs : Keep b0 s) :
    Keep b0 (relayOutcome comp status s) := by
  unfold relayOutcome
  with_reducible
    repeat' first
      | assumption | intro _ | apply notice_keep | apply relayNext_keep | apply setRelay_keep
      | fail_if_no_progress apply Keep.upd | dsimp only | split

theorem closeFail_keep {b0 : State} (n : Nat) (st : Status) {s : State} (hs : Keep b0 s) :
    Keep b0 (closeFail n st s) := by
  unfold closeFail
  with_reducible
    repeat' first
      | assumption | intro _ | apply logObj_keep | apply finishAll_keep | apply closeXfr_keep
      | fail_if_no_progress apply Keep.upd | dsimp only | split

theorem closeChecks_keep {b0 : State} (n : Nat) {s : State} (hs : Keep b0 s) : Keep b0 (closeChecks n s) := by
  unfold closeChecks
  with_reducible
    repeat' first
      | assumption | intro _ | apply finishCmd_keep | apply State.setXfr_keep | apply compTo_keep
      | apply closeXfr_keep | apply closeFail_keep | fail_if_no_progress apply Keep.upd | apply Keep.foldl
      | dsimp only | split

theorem imgCloseSpec_keep {b0 : State} (c : Cmd) {s : State} (hs : Keep b0 s) : KeepA b0 (imgCloseSpec.exec c s) := by
  unfold imgCloseSpec
  with_reducible
    repeat' first
      | assumption | intro _ | apply interim_keep | apply State.setXfr_keep | apply Ans.fail_keep | apply compTo_keep
      | apply onXfr_keep | apply closeChecks_keep | fail_if_no_progress apply Keep.upd | apply KeepA.done
      | apply KeepA.accept | apply KeepA.defer | apply KeepA.ongoing | dsimp only | split

theorem execImgClose_keep (e : Stim) (r : Req) (s : State) : KeepO (s.advance e) (execImgClose e r s) := 
  submit_row fun c _ hs => imgCloseSpec_keep c hs

theorem installed_keep {b0 : State} (n : Nat) {s : State} (hs : Keep b0 s) : Keep b0 (installed n s) := by
  unfold installed
  with_reducible
    repeat' first
      | assumption | intro _ | apply State.writeMem_keep | apply finishCmd_keep | apply State.setIcomp_keep
      | apply State.setXfr_keep | apply compTo_keep | apply closeFail_keep | fail_if_no_progress apply Keep.upd
      | apply Keep.foldl | dsimp only | split

theorem execInstallComplete_keep (e : Stim) (xfr : Nat) (s : State) :
    KeepO (s.advance e) (execInstallComplete e xfr s) := by
  unfold execInstallComplete
  apply event_keep
  generalize s.advance e = b0
  intro t ht
  with_reducible
    repeat' first
      | assumption | intro _ | apply installed_keep | fail_if_no_progress apply Keep.upd | dsimp only | split

theorem execTransferAbandon_keep (e : Stim) (xfr : Nat) (s : State) :
    KeepO (s.advance e) (execTransferAbandon e xfr s) := by
  unfold execTransferAbandon
  apply event_keep
  generalize s.advance e = b0
  intro t ht
  with_reducible
    repeat' first
      | assumption | intro _ | apply abandonXfr_keep | fail_if_no_progress apply Keep.upd | dsimp only | split

theorem imgAbortSpec_keep {b0 : State} (c : Cmd) {s : State} (hs : Keep b0 s) : KeepA b0 (imgAbortSpec.exec c s) := by
  unfold imgAbortSpec
  with_reducible
    repeat' first
      | assumption | intro _ | apply abandonXfr_keep | apply Ans.okay_keep | apply onXfr_keep
      | fail_if_no_progress apply Keep.upd | apply KeepA.done | apply KeepA.accept | apply KeepA.defer
      | apply KeepA.ongoing | dsimp only | split

theorem execImgAbort_keep (e : Stim) (r : Req) (s : State) : KeepO (s.advance e) (execImgAbort e r s) := 
  submit_row fun c _ hs => imgAbortSpec_keep c hs

theorem imgConfirmSpec_keep {b0 : State} (c : Cmd) {s : State} (hs : Keep b0 s) :
    KeepA b0 (imgConfirmSpec.exec c s) := by
  unfold imgConfirmSpec
  with_reducible
    repeat' first
      | assumption | intro _ | apply State.setIcomp_keep | apply Ans.okay_keep | apply Ans.fail_keep
      | apply compTo_keep | fail_if_no_progress apply Keep.upd | apply KeepA.done | apply KeepA.accept
      | apply KeepA.defer | apply KeepA.ongoing | dsimp only | split

theorem execImgConfirm_keep (e : Stim) (r : Req) (s : State) : KeepO (s.advance e) (execImgConfirm e r s) := 
  submit_row fun c _ hs => imgConfirmSpec_keep c hs

theorem activate_keep {b0 : State} (k : Nat) (id : Nat) {s : State} (hs : Keep b0 s) : Keep b0 (activate k id s) := by
  unfold activate
  with_reducible
    repeat' first
      | assumption | intro _ | apply State.setIcomp_keep | apply compTo_keep | apply switchSlot_keep
      | apply changeOver_keep | fail_if_no_progress apply Keep.upd | dsimp only | split

theorem imgActivateSpec_keep {b0 : State} (c : Cmd) {s : State} (hs : Keep b0 s) :
    KeepA b0 (imgActivateSpec.exec c s) := by
  unfold imgActivateSpec
  with_reducible
    repeat' first
      | assumption | intro _ | apply interim_keep | apply Ans.fail_keep | apply activate_keep
      | fail_if_no_progress apply Keep.upd | apply KeepA.done | apply KeepA.accept | apply KeepA.defer
      | apply KeepA.ongoing | dsimp only | split

theorem execImgActivate_keep (e : Stim) (r : Req) (s : State) : KeepO (s.advance e) (execImgActivate e r s) := 
  submit_row fun c _ hs => imgActivateSpec_keep c hs

theorem imgRevertSpec_keep {b0 : State} (c : Cmd) {s : State} (hs : Keep b0 s) :
    KeepA b0 (imgRevertSpec.exec c s) := by
  unfold imgRevertSpec
  with_reducible
    repeat' first
      | assumption | intro _ | apply interim_keep | apply State.setIcomp_keep | apply Ans.fail_keep
      | apply revertAsk_keep | fail_if_no_progress apply Keep.upd | apply KeepA.done | apply KeepA.accept
      | apply KeepA.defer | apply KeepA.ongoing | dsimp only | split

theorem execImgRevert_keep (e : Stim) (r : Req) (s : State) : KeepO (s.advance e) (execImgRevert e r s) := 
  submit_row fun c _ hs => imgRevertSpec_keep c hs

theorem execActivationComplete_keep (e : Stim) (comp : Nat) (s : State) :
    KeepO (s.advance e) (execActivationComplete e comp s) := by
  unfold execActivationComplete
  apply event_keep
  generalize s.advance e = b0
  intro t ht
  with_reducible
    repeat' first
      | assumption | intro _ | apply State.setIcomp_keep | apply openTrial_keep | fail_if_no_progress apply Keep.upd
      | dsimp only | split

theorem execHealthWindowEnd_keep (e : Stim) (comp : Nat) (s : State) :
    KeepO (s.advance e) (execHealthWindowEnd e comp s) := by
  unfold execHealthWindowEnd
  apply event_keep
  generalize s.advance e = b0
  intro t ht
  with_reducible
    repeat' first
      | assumption | intro _ | apply revertBegin_keep | fail_if_no_progress apply Keep.upd | dsimp only | split

theorem execRevertComplete_keep (e : Stim) (comp : Nat) (s : State) :
    KeepO (s.advance e) (execRevertComplete e comp s) := by
  unfold execRevertComplete
  apply event_keep
  generalize s.advance e = b0
  intro t ht
  with_reducible
    repeat' first
      | assumption | intro _ | apply finishAll_keep | apply State.setIcomp_keep | apply compTo_keep
      | fail_if_no_progress apply Keep.upd | dsimp only | split

theorem execPhyFirmwareWatchdog_keep (e : Stim) (port : Nat) (s : State) :
    KeepO (s.advance e) (execPhyFirmwareWatchdog e port s) := by
  unfold execPhyFirmwareWatchdog
  apply event_keep
  generalize s.advance e = b0
  intro t ht
  with_reducible
    repeat' first
      | assumption | intro _ | apply trialFault_keep | fail_if_no_progress apply Keep.upd | dsimp only | split

theorem imgStatusSpec_keep {b0 : State} (c : Cmd) {s : State} (hs : Keep b0 s) :
    KeepA b0 (imgStatusSpec.exec c s) := by
  unfold imgStatusSpec
  with_reducible
    repeat' first
      | assumption | intro _ | apply settleXfers_keep | fail_if_no_progress apply Keep.upd | apply KeepA.done
      | apply KeepA.accept | apply KeepA.defer | apply KeepA.ongoing | dsimp only | split

theorem execImgStatus_keep (e : Stim) (r : Req) (s : State) : KeepO (s.advance e) (execImgStatus e r s) := 
  submit_row fun c _ hs => imgStatusSpec_keep c hs

theorem imgPeerSpec_keep {b0 : State} (c : Cmd) {s : State} (hs : Keep b0 s) : KeepA b0 (imgPeerSpec.exec c s) := by
  unfold imgPeerSpec
  with_reducible
    repeat' first
      | assumption | intro _ | apply Ans.okay_keep | fail_if_no_progress apply Keep.upd | apply KeepA.done
      | apply KeepA.accept | apply KeepA.defer | apply KeepA.ongoing | dsimp only | split

theorem execImgPeer_keep (e : Stim) (r : Req) (s : State) : KeepO (s.advance e) (execImgPeer e r s) := 
  submit_row fun c _ hs => imgPeerSpec_keep c hs

theorem imgConfigSpec_keep {b0 : State} (c : Cmd) {s : State} (hs : Keep b0 s) :
    KeepA b0 (imgConfigSpec.exec c s) := by
  unfold imgConfigSpec
  with_reducible
    repeat' first
      | assumption | intro _ | apply Ans.okay_keep | apply Ans.fail_keep | apply settleXfers_keep
      | fail_if_no_progress apply Keep.upd | apply KeepA.done | apply KeepA.accept | apply KeepA.defer
      | apply KeepA.ongoing | dsimp only | split

theorem execImgConfig_keep (e : Stim) (r : Req) (s : State) : KeepO (s.advance e) (execImgConfig e r s) := 
  submit_row fun c _ hs => imgConfigSpec_keep c hs

/-! ### Audit -/

theorem auditStart_keep {b0 : State} (kind : Nat) (blocks : List Nat) (cmd : Option Nat) {s : State} (hs : Keep b0 s) :
    Keep b0 (auditStart kind blocks cmd s) := by
  unfold auditStart
  with_reducible
    repeat' first
      | assumption | intro _ | fail_if_no_progress apply Keep.upd | dsimp only | split

theorem reinit_keep {b0 : State} (b : Nat) {s : State} (hs : Keep b0 s) : Keep b0 (reinit b s) := by
  unfold reinit
  with_reducible
    repeat' first
      | assumption | intro _ | apply State.clearMem_keep | fail_if_no_progress apply Keep.upd | dsimp only | split

theorem auditGate_keep {b0 : State} (kind : Nat) (left : List Nat) {s : State} (hs : Keep b0 s) :
    Keep b0 (auditGate kind left s) := by
  unfold auditGate
  with_reducible
    repeat' first
      | assumption | intro _ | apply gateStop_keep | fail_if_no_progress apply Keep.upd | dsimp only | split

theorem testBlock_keep {b0 : State} (b : Nat) (fails : List AuditFail) (rom : Bool) (r : AuditRun) {s : State} (hs : Keep b0 s) :
    Keep b0 (testBlock b fails rom r s) := by
  unfold testBlock
  with_reducible
    repeat' first
      | assumption | intro _ | apply trialFault_keep | apply reinit_keep | apply auditGate_keep
      | fail_if_no_progress apply Keep.upd | dsimp only | split

theorem execAuditBlockTest_keep (e : Stim) (fails : List AuditFail) (rom : Bool) (s : State) :
    KeepO (s.advance e) (execAuditBlockTest e fails rom s) := by
  unfold execAuditBlockTest
  apply event_keep
  generalize s.advance e = b0
  intro t ht
  with_reducible
    repeat' first
      | assumption | intro _ | apply testBlock_keep | fail_if_no_progress apply Keep.upd | dsimp only | split

theorem auditStop_keep {b0 : State} (status : Nat) {s : State} (hs : Keep b0 s) : Keep b0 (auditStop status s) := by
  unfold auditStop
  with_reducible
    repeat' first
      | assumption | intro _ | apply reinit_keep | fail_if_no_progress apply Keep.upd | dsimp only | split

theorem execAuditConditionCheck_keep (e : Stim) (supplyMv : Nat) (refKhz : Nat) (s : State) :
    KeepO (s.advance e) (execAuditConditionCheck e supplyMv refKhz s) := by
  unfold execAuditConditionCheck
  apply event_keep
  generalize s.advance e = b0
  intro t ht
  with_reducible
    repeat' first
      | assumption | intro _ | apply auditStop_keep | fail_if_no_progress apply Keep.upd | dsimp only | split

theorem tellerSettle_keep {b0 : State} {s : State} (hs : Keep b0 s) : Keep b0 (tellerSettle s) := by
  unfold tellerSettle
  with_reducible
    repeat' first
      | assumption | intro _ | fail_if_no_progress apply Keep.upd | apply Keep.foldl | dsimp only | split

theorem makePermanent_keep {b0 : State} {s : State} (hs : Keep b0 s) : Keep b0 (makePermanent s) := by
  unfold makePermanent
  with_reducible
    repeat' first
      | assumption | intro _ | apply State.setMemCnt_keep | fail_if_no_progress apply Keep.upd | apply Keep.foldl
      | dsimp only | split

theorem auditFinish_keep {b0 : State} {s : State} (hs : Keep b0 s) : Keep b0 (auditFinish s) := by
  unfold auditFinish
  with_reducible
    repeat' first
      | assumption | intro _ | apply logNotice_keep | apply finishCmd_keep | apply tellerSettle_keep
      | apply makePermanent_keep | fail_if_no_progress apply Keep.upd | dsimp only | split

theorem tellerTrip_keep {b0 : State} (tp : Nat) (cmds : List Nat) {s : State} (hs : Keep b0 s) :
    Keep b0 (tellerTrip tp cmds s) := by
  unfold tellerTrip
  with_reducible
    repeat' first
      | assumption | intro _ | apply finishAll_keep | apply forget_keep | apply endCmd_keep
      | apply State.setIcomp_keep | apply revertBegin_keep | apply trialFault_keep
      | fail_if_no_progress apply Keep.upd | apply Keep.foldl | dsimp only | split

theorem execTellerPairTrip_keep (e : Stim) (tp : Nat) (cmds : List Nat) (s : State) :
    KeepO (s.advance e) (execTellerPairTrip e tp cmds s) := by
  unfold execTellerPairTrip
  apply event_keep
  generalize s.advance e = b0
  intro t ht
  with_reducible
    repeat' first
      | assumption | intro _ | apply tellerTrip_keep | fail_if_no_progress apply Keep.upd | dsimp only | split

theorem execTellerPairRejoin_keep (e : Stim) (tp : Nat) (s : State) :
    KeepO (s.advance e) (execTellerPairRejoin e tp s) := by
  unfold execTellerPairRejoin
  apply event_keep
  generalize s.advance e = b0
  intro t ht
  with_reducible
    repeat' first
      | assumption | intro _ | fail_if_no_progress apply Keep.upd | dsimp only | split

theorem tstFaultStatusSpec_keep {b0 : State} (c : Cmd) {s : State} (hs : Keep b0 s) :
    KeepA b0 (tstFaultStatusSpec.exec c s) := by
  unfold tstFaultStatusSpec
  with_reducible
    repeat' first
      | assumption | intro _ | fail_if_no_progress apply Keep.upd | apply KeepA.done | apply KeepA.accept
      | apply KeepA.defer | apply KeepA.ongoing | dsimp only | split

theorem execTstFaultStatus_keep (e : Stim) (r : Req) (s : State) :
    KeepO (s.advance e) (execTstFaultStatus e r s) := 
  submit_row fun c _ hs => tstFaultStatusSpec_keep c hs

theorem tstFaultClearSpec_keep {b0 : State} (c : Cmd) {s : State} (hs : Keep b0 s) :
    KeepA b0 (tstFaultClearSpec.exec c s) := by
  unfold tstFaultClearSpec
  with_reducible
    repeat' first
      | assumption | intro _ | apply Ans.okay_keep | fail_if_no_progress apply Keep.upd | apply KeepA.done
      | apply KeepA.accept | apply KeepA.defer | apply KeepA.ongoing | dsimp only | split

theorem execTstFaultClear_keep (e : Stim) (r : Req) (s : State) : KeepO (s.advance e) (execTstFaultClear e r s) := 
  submit_row fun c _ hs => tstFaultClearSpec_keep c hs

theorem tstFaultMaskSpec_keep {b0 : State} (c : Cmd) {s : State} (hs : Keep b0 s) :
    KeepA b0 (tstFaultMaskSpec.exec c s) := by
  unfold tstFaultMaskSpec
  with_reducible
    repeat' first
      | assumption | intro _ | apply Ans.okay_keep | fail_if_no_progress apply Keep.upd | apply KeepA.done
      | apply KeepA.accept | apply KeepA.defer | apply KeepA.ongoing | dsimp only | split

theorem execTstFaultMask_keep (e : Stim) (r : Req) (s : State) : KeepO (s.advance e) (execTstFaultMask e r s) := 
  submit_row fun c _ hs => tstFaultMaskSpec_keep c hs

theorem tstAuditRunSpec_keep {b0 : State} (c : Cmd) {s : State} (hs : Keep b0 s) :
    KeepA b0 (tstAuditRunSpec.exec c s) := by
  unfold tstAuditRunSpec
  with_reducible
    repeat' first
      | assumption | intro _ | apply Ans.fail_keep | apply auditStart_keep | fail_if_no_progress apply Keep.upd
      | apply KeepA.done | apply KeepA.accept | apply KeepA.defer | apply KeepA.ongoing | dsimp only | split

theorem execTstAuditRun_keep (e : Stim) (r : Req) (s : State) : KeepO (s.advance e) (execTstAuditRun e r s) := 
  submit_row fun c _ hs => tstAuditRunSpec_keep c hs

theorem tstSummarySpec_keep {b0 : State} (c : Cmd) {s : State} (hs : Keep b0 s) :
    KeepA b0 (tstSummarySpec.exec c s) := by
  unfold tstSummarySpec
  with_reducible
    repeat' first
      | assumption | intro _ | fail_if_no_progress apply Keep.upd | apply KeepA.done | apply KeepA.accept
      | apply KeepA.defer | apply KeepA.ongoing | dsimp only | split

theorem execTstSummary_keep (e : Stim) (r : Req) (s : State) : KeepO (s.advance e) (execTstSummary e r s) := 
  submit_row fun c _ hs => tstSummarySpec_keep c hs

theorem tstDetailSpec_keep {b0 : State} (c : Cmd) {s : State} (hs : Keep b0 s) :
    KeepA b0 (tstDetailSpec.exec c s) := by
  unfold tstDetailSpec
  with_reducible
    repeat' first
      | assumption | intro _ | fail_if_no_progress apply Keep.upd | apply KeepA.done | apply KeepA.accept
      | apply KeepA.defer | apply KeepA.ongoing | dsimp only | split

theorem execTstDetail_keep (e : Stim) (r : Req) (s : State) : KeepO (s.advance e) (execTstDetail e r s) := 
  submit_row fun c _ hs => tstDetailSpec_keep c hs

/-! ### Carriage -/

theorem carOut_keep {b0 : State} (port : Nat) (mac : Nat) (bs : List Byte) {s : State} (hs : Keep b0 s) :
    Keep b0 (carOut port mac bs s) := by
  unfold carOut
  with_reducible
    repeat' first
      | assumption | intro _ | apply tellerSend_keep | apply settleNet_keep | fail_if_no_progress apply Keep.upd
      | dsimp only | split

theorem carResume_keep {b0 : State} {s : State} (hs : Keep b0 s) : Keep b0 (carResume s) := by
  unfold carResume
  with_reducible
    repeat' first
      | assumption | intro _ | apply carOut_keep | fail_if_no_progress apply Keep.upd | apply Keep.foldl | dsimp only
      | split

theorem carSend_keep {b0 : State} (a : Assoc) (bs : List Byte) {s : State} (hs : Keep b0 s) :
    Keep b0 (carSend a bs s) := by
  unfold carSend
  with_reducible
    repeat' first
      | assumption | intro _ | apply carOut_keep | fail_if_no_progress apply Keep.upd | dsimp only | split

theorem State.setAssoc_keep {b0 : State} (t : Nat) (a : Assoc) {s : State} (hs : Keep b0 s) :
    Keep b0 (State.setAssoc s t a) := by
  unfold State.setAssoc
  with_reducible
    repeat' first
      | assumption | intro _ | apply State.setTenant_keep | fail_if_no_progress apply Keep.upd | dsimp only | split

theorem carAck_keep {b0 : State} (t : Nat) (stat : Nat) (ackseq : Nat) {s : State} (hs : Keep b0 s) :
    Keep b0 (carAck t stat ackseq s) := by
  unfold carAck
  with_reducible
    repeat' first
      | assumption | intro _ | apply carSend_keep | apply State.setAssoc_keep | fail_if_no_progress apply Keep.upd
      | dsimp only | split

theorem freeOuts_keep {b0 : State} (t : Nat) {s : State} (hs : Keep b0 s) : Keep b0 (freeOuts t s) := by
  unfold freeOuts
  with_reducible
    repeat' first
      | assumption | intro _ | apply State.takeSlots_keep | apply checkPtrs_keep | apply State.setAssoc_keep
      | fail_if_no_progress apply Keep.upd | dsimp only | split

theorem doneOut_keep {b0 : State} (t : Nat) (fseq : Nat) {s : State} (hs : Keep b0 s) :
    Keep b0 (doneOut t fseq s) := by
  unfold doneOut
  with_reducible
    repeat' first
      | assumption | intro _ | apply State.setAssoc_keep | apply freeOuts_keep | fail_if_no_progress apply Keep.upd
      | dsimp only | split

theorem abandonOut_keep {b0 : State} (t : Nat) (o : OutFrame) {s : State} (hs : Keep b0 s) :
    Keep b0 (abandonOut t o s) := by
  unfold abandonOut
  with_reducible
    repeat' first
      | assumption | intro _ | apply logNotice_keep | apply doneOut_keep | fail_if_no_progress apply Keep.upd
      | dsimp only | split

theorem carVerify_keep {b0 : State} (t : Nat) (a : Assoc) (head : List Byte) (items : List (List Byte × List Byte)) {s : State} (hs : Keep b0 s) :
    Keep b0 ((carVerify t a head items s).2) := by
  unfold carVerify
  with_reducible
    repeat' first
      | assumption | intro _ | apply State.setTenant_keep | apply logObj_keep | fail_if_no_progress apply Keep.upd
      | apply Keep.foldl | dsimp only | split

theorem carCommand_keep {b0 : State} (t : Nat) (a : Assoc) (head : List Byte) (rest : List Byte) {s : State} (hs : Keep b0 s) :
    Keep b0 (carCommand t a head rest s) := by
  unfold carCommand
  with_reducible
    repeat' first
      | assumption | intro _ | apply State.setTenant_keep | apply logObj_keep | apply postItem_keep
      | apply checkPtrs_keep | apply State.setAssoc_keep | apply carAck_keep | apply carVerify_keep
      | fail_if_no_progress apply Keep.upd | apply Keep.foldl | dsimp only | split

theorem carForeign_keep {b0 : State} (t : Nat) {s : State} (hs : Keep b0 s) : Keep b0 (carForeign t s) := by
  unfold carForeign
  with_reducible
    repeat' first
      | assumption | intro _ | apply State.setTenant_keep | fail_if_no_progress apply Keep.upd | dsimp only | split

theorem carReceive_keep {b0 : State} (f : Carriage) {s : State} (hs : Keep b0 s) : Keep b0 (carReceive f s) := by
  unfold carReceive
  with_reducible
    repeat' first
      | assumption | intro _ | apply State.setTenant_keep | apply State.setAssoc_keep | apply carAck_keep
      | apply doneOut_keep | apply carCommand_keep | apply carForeign_keep | fail_if_no_progress apply Keep.upd
      | dsimp only | split

theorem carNext_keep {b0 : State} (t : Nat) {s : State} (hs : Keep b0 s) : Keep b0 (carNext t s) := by
  unfold carNext
  with_reducible
    repeat' first
      | assumption | intro _ | apply carSend_keep | apply State.setAssoc_keep | fail_if_no_progress apply Keep.upd
      | dsimp only | split

theorem execCarriageSend_keep (e : Stim) (t : Nat) (s : State) : KeepO (s.advance e) (execCarriageSend e t s) := by
  unfold execCarriageSend
  apply event_keep
  generalize s.advance e = b0
  intro t ht
  with_reducible
    repeat' first
      | assumption | intro _ | apply carNext_keep | fail_if_no_progress apply Keep.upd | dsimp only | split

/-! ### Loss -/

theorem gateCut_keep {b0 : State} (f : Func) (st : GateState) {s : State} (hs : Keep b0 s) :
    Keep b0 (gateCut f st s) := by
  unfold gateCut
  with_reducible
    repeat' first
      | assumption | intro _ | apply finishAll_keep | apply State.setGate_keep | fail_if_no_progress apply Keep.upd
      | dsimp only | split

theorem cpxLose_keep {b0 : State} {s : State} (hs : Keep b0 s) : Keep b0 (cpxLose s) := by
  unfold cpxLose
  with_reducible
    repeat' first
      | assumption | intro _ | apply State.clearMem_keep | apply resyncCmd_keep | apply gateCut_keep
      | fail_if_no_progress apply Keep.upd | apply Keep.foldl | dsimp only | split

theorem cpxGated_keep {b0 : State} {s : State} (hs : Keep b0 s) : Keep b0 (cpxGated s) := by
  unfold cpxGated
  with_reducible
    repeat' first
      | assumption | intro _ | fail_if_no_progress apply Keep.upd | dsimp only | split

theorem cpxRun_keep {b0 : State} (cold : Bool) {s : State} (hs : Keep b0 s) : Keep b0 (cpxRun cold s) := by
  unfold cpxRun
  with_reducible
    repeat' first
      | assumption | intro _ | apply vaultRestartBegin_keep | fail_if_no_progress apply Keep.upd | dsimp only | split

theorem fbxLose_keep {b0 : State} {s : State} (hs : Keep b0 s) : Keep b0 (fbxLose s) := by
  unfold fbxLose
  with_reducible
    repeat' first
      | assumption | intro _ | apply State.clearMem_keep | fail_if_no_progress apply Keep.upd | dsimp only | split

theorem swxLose_keep {b0 : State} {s : State} (hs : Keep b0 s) : Keep b0 (swxLose s) := by
  unfold swxLose
  with_reducible
    repeat' first
      | assumption | intro _ | apply finishCmd_keep | apply gateCut_keep | fail_if_no_progress apply Keep.upd
      | apply Keep.foldl | dsimp only | split

theorem svxLose_keep {b0 : State} {s : State} (hs : Keep b0 s) : Keep b0 (svxLose s) := by
  unfold svxLose
  with_reducible
    repeat' first
      | assumption | intro _ | apply forget_keep | apply endCmd_keep | apply dropItems_keep
      | fail_if_no_progress apply Keep.upd | apply Keep.foldl | dsimp only | split

theorem canWipe_keep {b0 : State} (on : Bool) (n : Nat) {s0 : State} (hs0 : Keep b0 s0) :
    Keep b0 (canWipe on n s0) := by
  unfold canWipe
  with_reducible
    repeat' first
      | assumption | intro _ | apply State.clearMem_keep | apply State.setCan_keep | apply syncCut_keep
      | fail_if_no_progress apply Keep.upd | dsimp only | split

theorem canLose_keep {b0 : State} (n : Nat) {s : State} (hs : Keep b0 s) : Keep b0 (canLose n s) := by
  unfold canLose
  with_reducible
    repeat' first
      | assumption | intro _ | apply gateCut_keep | apply canWipe_keep | fail_if_no_progress apply Keep.upd
      | dsimp only | split

theorem linWipe_keep {b0 : State} (on : Bool) (n : Nat) {s : State} (hs : Keep b0 s) : Keep b0 (linWipe on n s) := by
  unfold linWipe
  with_reducible
    repeat' first
      | assumption | intro _ | apply State.setLin_keep | fail_if_no_progress apply Keep.upd | dsimp only | split

theorem linLose_keep {b0 : State} (n : Nat) {s : State} (hs : Keep b0 s) : Keep b0 (linLose n s) := by
  unfold linLose
  with_reducible
    repeat' first
      | assumption | intro _ | apply gateCut_keep | apply linWipe_keep | fail_if_no_progress apply Keep.upd
      | dsimp only | split

theorem foLose_keep {b0 : State} (i : Nat) {s : State} (hs : Keep b0 s) : Keep b0 (foLose i s) := by
  unfold foLose
  with_reducible
    repeat' first
      | assumption | intro _ | apply State.setFout_keep | apply foDrop_keep | fail_if_no_progress apply Keep.upd
      | dsimp only | split

theorem bsxLose_keep {b0 : State} {s0 : State} (hs0 : Keep b0 s0) : Keep b0 (bsxLose s0) := by
  unfold bsxLose
  with_reducible
    repeat' first
      | assumption | intro _ | apply finishCmd_keep | apply ring_keep | apply dropItems_keep | apply canLose_keep
      | apply linLose_keep | apply foLose_keep | fail_if_no_progress apply Keep.upd | apply Keep.foldl | dsimp only
      | split

theorem bsxRun_keep {b0 : State} (cold : Bool) {s : State} (hs : Keep b0 s) : Keep b0 (bsxRun cold s) := by
  unfold bsxRun
  with_reducible
    repeat' first
      | assumption | intro _ | apply foForce_keep | apply resumeRuns_keep | apply gateStart_keep
      | fail_if_no_progress apply Keep.upd | apply Keep.foldl | dsimp only | split

theorem chLose_keep {b0 : State} (ch : Nat) {s : State} (hs : Keep b0 s) : Keep b0 (chLose ch s) := by
  unfold chLose
  with_reducible
    repeat' first
      | assumption | intro _ | apply State.setChn_keep | apply withdraw_keep | apply dropPend_keep
      | apply dropSecond_keep | fail_if_no_progress apply Keep.upd | dsimp only | split

theorem dieLose_keep {b0 : State} (d : Nat) {s : State} (hs : Keep b0 s) : Keep b0 (dieLose d s) := by
  unfold dieLose
  with_reducible
    repeat' first
      | assumption | intro _ | apply reblock_keep | apply chLose_keep | fail_if_no_progress apply Keep.upd
      | apply Keep.foldl | dsimp only | split

theorem aonLose_keep {b0 : State} {s : State} (hs : Keep b0 s) : Keep b0 (aonLose s) := by
  unfold aonLose
  with_reducible
    repeat' first
      | assumption | intro _ | fail_if_no_progress apply Keep.upd | dsimp only | split

theorem islLose_keep {b0 : State} (n : Nat) {s : State} (hs : Keep b0 s) : Keep b0 (islLose n s) := by
  unfold islLose
  with_reducible
    repeat' first
      | assumption | intro _ | apply stxLose_keep | apply cpxLose_keep | apply fbxLose_keep | apply swxLose_keep
      | apply svxLose_keep | apply bsxLose_keep | apply dieLose_keep | apply aonLose_keep
      | fail_if_no_progress apply Keep.upd | dsimp only | split

theorem islGated_keep {b0 : State} (n : Nat) {s : State} (hs : Keep b0 s) : Keep b0 (islGated n s) := by
  unfold islGated
  with_reducible
    repeat' first
      | assumption | intro _ | apply dropItems_keep | apply cpxGated_keep | fail_if_no_progress apply Keep.upd
      | dsimp only | split

theorem islRun_keep {b0 : State} (n : Nat) (cold : Bool) {s : State} (hs : Keep b0 s) :
    Keep b0 (islRun n cold s) := by
  unfold islRun
  with_reducible
    repeat' first
      | assumption | intro _ | apply cpxRun_keep | apply bsxRun_keep | fail_if_no_progress apply Keep.upd | dsimp only
      | split

/-! ### Island -/

theorem islDisable_keep {b0 : State} (n : Nat) (deep : Bool) (c : Cmd) {s : State} (hs : Keep b0 s) :
    KeepA b0 (islDisable n deep c s) := by
  unfold islDisable
  with_reducible
    repeat' first
      | assumption | intro _ | apply logObj_keep | apply Ans.okay_keep | apply Ans.fail_keep | apply gateDisable_keep
      | apply islLose_keep | fail_if_no_progress apply Keep.upd | apply KeepA.done | apply KeepA.accept
      | apply KeepA.defer | apply KeepA.ongoing | dsimp only | split

theorem islEnable_keep {b0 : State} (n : Nat) (c : Cmd) {s : State} (hs : Keep b0 s) :
    KeepA b0 (islEnable n c s) := by
  unfold islEnable
  with_reducible
    repeat' first
      | assumption | intro _ | apply State.setIsland_keep | apply gateEnable_keep | fail_if_no_progress apply Keep.upd
      | apply KeepA.done | apply KeepA.accept | apply KeepA.defer | apply KeepA.ongoing | dsimp only | split

theorem sysIslandCtlSpec_keep {b0 : State} (c : Cmd) {s : State} (hs : Keep b0 s) :
    KeepA b0 (sysIslandCtlSpec.exec c s) := by
  unfold sysIslandCtlSpec
  with_reducible
    repeat' first
      | assumption | intro _ | apply islDisable_keep | apply islEnable_keep | fail_if_no_progress apply Keep.upd
      | apply KeepA.done | apply KeepA.accept | apply KeepA.defer | apply KeepA.ongoing | dsimp only | split

theorem execSysIslandCtl_keep (e : Stim) (r : Req) (s : State) : KeepO (s.advance e) (execSysIslandCtl e r s) := 
  submit_row fun c _ hs => sysIslandCtlSpec_keep c hs

/-! ### Vnic -/

theorem vnicTx_keep {b0 : State} (idx : Nat) (v : Vi) (d : Fetched) {s0 : State} (hs0 : Keep b0 s0) :
    Keep b0 (vnicTx idx v d s0) := by
  unfold vnicTx
  with_reducible
    repeat' first
      | assumption | intro _ | apply complete_keep | apply countIn_keep | apply forward_keep | apply settleNet_keep
      | fail_if_no_progress apply Keep.upd | dsimp only | split

theorem fetch_keep {b0 : State} (kind : Nat) (idx : Nat) (v : Vi) (b : List Byte) {s : State} (hs : Keep b0 s) :
    Keep b0 (fetch kind idx v b s) := by
  unfold fetch
  with_reducible
    repeat' first
      | assumption | intro _ | apply State.setVi_keep | fail_if_no_progress apply Keep.upd | dsimp only | split

theorem vnicServe_keep {b0 : State} (idx : Nat) (v : Vi) (b : List Byte) {s : State} (hs : Keep b0 s) :
    Keep b0 (vnicServe idx v b s) := by
  unfold vnicServe
  with_reducible
    repeat' first
      | assumption | intro _ | apply complete_keep | apply vaultLog_keep | apply fetch_keep
      | fail_if_no_progress apply Keep.upd | dsimp only | split

theorem vepServe_keep {b0 : State} (idx : Nat) (v : Vi) (b : List Byte) {s : State} (hs : Keep b0 s) :
    Keep b0 (vepServe idx v b s) := by
  unfold vepServe
  with_reducible
    repeat' first
      | assumption | intro _ | apply complete_keep | apply vaultLog_keep | apply fetch_keep
      | fail_if_no_progress apply Keep.upd | dsimp only | split

theorem vepTx_keep {b0 : State} (idx : Nat) (d : Fetched) (bad : Bool) {s : State} (hs : Keep b0 s) :
    Keep b0 (vepTx idx d bad s) := by
  unfold vepTx
  with_reducible
    repeat' first
      | assumption | intro _ | apply vepSent_keep | fail_if_no_progress apply Keep.upd | dsimp only | split

theorem serve_keep {b0 : State} (kind : Nat) (idx : Nat) (x0 : Nat) {x1 : State} (hx1 : Keep b0 x1) :
    Keep b0 (serve kind idx x0 x1) := by
  induction x0 generalizing x1 with
  | zero =>
    unfold serve
    with_reducible
      repeat' first
        | assumption | intro _ | apply State.setVi_keep | apply writeCtl_keep | apply State.setSqc_keep
        | apply fetch_keep | apply vnicServe_keep | apply vepServe_keep | fail_if_no_progress apply Keep.upd
        | dsimp only | split
  | succ n ih =>
    unfold serve
    with_reducible
      repeat' first
        | assumption | intro _ | apply ih | apply State.setVi_keep | apply writeCtl_keep | apply State.setSqc_keep
        | apply fetch_keep | apply vnicServe_keep | apply vepServe_keep | fail_if_no_progress apply Keep.upd
        | dsimp only | split

theorem startOne_keep {b0 : State} (key : Nat) {s : State} (hs : Keep b0 s) : Keep b0 (startOne key s) := by
  unfold startOne
  with_reducible
    repeat' first
      | assumption | intro _ | fail_if_no_progress apply Keep.upd | dsimp only | split

theorem serveKey_keep {b0 : State} (key : Nat) {s : State} (hs : Keep b0 s) : Keep b0 (serveKey s key) := by
  unfold serveKey
  with_reducible
    repeat' first
      | assumption | intro _ | apply serve_keep | apply startOne_keep | fail_if_no_progress apply Keep.upd
      | apply Keep.foldl | dsimp only | split

theorem serveTenant_keep {b0 : State} (t : Nat) {s : State} (hs : Keep b0 s) : Keep b0 (serveTenant t s) := by
  unfold serveTenant
  with_reducible
    repeat' first
      | assumption | intro _ | apply serveKey_keep | fail_if_no_progress apply Keep.upd | apply Keep.foldl
      | dsimp only | split

theorem serveAll_keep {b0 : State} {s : State} (hs : Keep b0 s) : Keep b0 (serveAll s) := by
  unfold serveAll
  with_reducible
    repeat' first
      | assumption | intro _ | apply serveKey_keep | fail_if_no_progress apply Keep.upd | apply Keep.foldl
      | dsimp only | split

theorem sqpWrite_keep {b0 : State} (who : Nat) (kind : Nat) (idx : Nat) (sqp : Nat) {s : State} (hs : Keep b0 s) :
    Keep b0 (sqpWrite who kind idx sqp s) := by
  unfold sqpWrite
  with_reducible
    repeat' first
      | assumption | intro _ | apply State.setVi_keep | apply State.writeMem_keep | apply storeRefused_keep
      | apply serveKey_keep | fail_if_no_progress apply Keep.upd | dsimp only | split

theorem execSqpWrite_keep (e : Stim) (who : Nat) (kind : Nat) (idx : Nat) (sqp : Nat) (s : State) :
    KeepO (s.advance e) (execSqpWrite e who kind idx sqp s) := by
  unfold execSqpWrite
  apply event_keep
  generalize s.advance e = b0
  intro t ht
  with_reducible
    repeat' first
      | assumption | intro _ | apply sqpWrite_keep | fail_if_no_progress apply Keep.upd | dsimp only | split

theorem xferMove_keep {b0 : State} (b : List Byte) (n : Nat) {s : State} (hs : Keep b0 s) :
    Keep b0 (xferMove b n s) := by
  unfold xferMove
  with_reducible
    repeat' first
      | assumption | intro _ | apply State.writeMem_keep | fail_if_no_progress apply Keep.upd | dsimp only | split

theorem dropFetched_keep {b0 : State} (kind : Nat) (idx : Nat) (v : Vi) (d : Fetched) {s : State} (hs : Keep b0 s) :
    Keep b0 (dropFetched kind idx v d s) := by
  unfold dropFetched
  with_reducible
    repeat' first
      | assumption | intro _ | apply State.setVi_keep | fail_if_no_progress apply Keep.upd | dsimp only | split

theorem xferDropped_keep {b0 : State} (kind : Nat) (idx : Nat) (v : Vi) (d : Fetched) {s : State} (hs : Keep b0 s) :
    Keep b0 (xferDropped kind idx v d s) := by
  unfold xferDropped
  with_reducible
    repeat' first
      | assumption | intro _ | apply State.setVi_keep | apply State.drawNat_keep | apply State.writeMem_keep
      | apply xferMove_keep | fail_if_no_progress apply Keep.upd | dsimp only | split

theorem vnicEnd_keep {b0 : State} (idx : Nat) (v : Vi) (d : Fetched) (bad : Bool) {s : State} (hs : Keep b0 s) :
    Keep b0 (vnicEnd idx v d bad s) := by
  unfold vnicEnd
  with_reducible
    repeat' first
      | assumption | intro _ | apply State.writeMem_keep | apply complete_keep | apply vaultLog_keep
      | apply vnicTx_keep | apply dropFetched_keep | fail_if_no_progress apply Keep.upd | dsimp only | split

theorem vepEnd_keep {b0 : State} (idx : Nat) (v : Vi) (d : Fetched) (bad : Bool) {s : State} (hs : Keep b0 s) :
    Keep b0 (vepEnd idx v d bad s) := by
  unfold vepEnd
  with_reducible
    repeat' first
      | assumption | intro _ | apply State.setVi_keep | apply State.writeMem_keep | apply complete_keep
      | apply vaultLog_keep | apply vepTx_keep | apply dropFetched_keep | fail_if_no_progress apply Keep.upd
      | dsimp only | split

theorem plainEnd_keep {b0 : State} (idx : Nat) (v : Vi) (d : Fetched) (badAt : Option Nat) {s : State} (hs : Keep b0 s) :
    Keep b0 (plainEnd idx v d badAt s) := by
  unfold plainEnd
  with_reducible
    repeat' first
      | assumption | intro _ | apply deliver_keep | apply complete_keep | apply vaultLog_keep | apply badRead_keep
      | apply xferMove_keep | apply dropFetched_keep | fail_if_no_progress apply Keep.upd | dsimp only | split

theorem xferEnd_keep {b0 : State} (kind : Nat) (idx : Nat) (index : Nat) (badAt : Option Nat) {s : State} (hs : Keep b0 s) :
    Keep b0 (xferEnd kind idx index badAt s) := by
  unfold xferEnd
  with_reducible
    repeat' first
      | assumption | intro _ | apply serveAll_keep | apply xferDropped_keep | apply vnicEnd_keep | apply vepEnd_keep
      | apply plainEnd_keep | fail_if_no_progress apply Keep.upd | dsimp only | split

theorem execTransferComplete_keep (e : Stim) (d : RingRef) (badAt : Option Nat) (s : State) :
    KeepO (s.advance e) (execTransferComplete e d badAt s) := by
  unfold execTransferComplete
  apply event_keep
  generalize s.advance e = b0
  intro t ht
  with_reducible
    repeat' first
      | assumption | intro _ | apply xferEnd_keep | fail_if_no_progress apply Keep.upd | dsimp only | split

/-! ### Ten -/

theorem tenMake_keep {b0 : State} (b : List Byte) {s : State} (hs : Keep b0 s) : Keep b0 (tenMake b s) := by
  unfold tenMake
  with_reducible
    repeat' first
      | assumption | intro _ | apply State.setTenant_keep | apply State.setQueue_keep
      | fail_if_no_progress apply Keep.upd | apply Keep.foldl | dsimp only | split

theorem tenCreateSpec_keep {b0 : State} (c : Cmd) {s : State} (hs : Keep b0 s) :
    KeepA b0 (tenCreateSpec.exec c s) := by
  unfold tenCreateSpec
  with_reducible
    repeat' first
      | assumption | intro _ | apply Ans.okay_keep | apply Ans.fail_keep | apply tenMake_keep
      | fail_if_no_progress apply Keep.upd | apply KeepA.done | apply KeepA.accept | apply KeepA.defer
      | apply KeepA.ongoing | dsimp only | split

theorem execTenCreate_keep (e : Stim) (r : Req) (s : State) : KeepO (s.advance e) (execTenCreate e r s) := 
  submit_row fun c _ hs => tenCreateSpec_keep c hs

theorem tenQuerySpec_keep {b0 : State} (c : Cmd) {s : State} (hs : Keep b0 s) : KeepA b0 (tenQuerySpec.exec c s) := by
  unfold tenQuerySpec
  with_reducible
    repeat' first
      | assumption | intro _ | fail_if_no_progress apply Keep.upd | apply KeepA.done | apply KeepA.accept
      | apply KeepA.defer | apply KeepA.ongoing | dsimp only | split

theorem execTenQuery_keep (e : Stim) (r : Req) (s : State) : KeepO (s.advance e) (execTenQuery e r s) := 
  submit_row fun c _ hs => tenQuerySpec_keep c hs

theorem tenShareSpec_keep {b0 : State} (c : Cmd) {s : State} (hs : Keep b0 s) : KeepA b0 (tenShareSpec.exec c s) := by
  unfold tenShareSpec
  with_reducible
    repeat' first
      | assumption | intro _ | apply State.setTenant_keep | apply Ans.fail_keep | apply serveTenant_keep
      | fail_if_no_progress apply Keep.upd | apply KeepA.done | apply KeepA.accept | apply KeepA.defer
      | apply KeepA.ongoing | dsimp only | split

theorem execTenShare_keep (e : Stim) (r : Req) (s : State) : KeepO (s.advance e) (execTenShare e r s) := 
  submit_row fun c _ hs => tenShareSpec_keep c hs

theorem tenRightsSpec_keep {b0 : State} (c : Cmd) {s : State} (hs : Keep b0 s) :
    KeepA b0 (tenRightsSpec.exec c s) := by
  unfold tenRightsSpec
  with_reducible
    repeat' first
      | assumption | intro _ | apply State.setTenant_keep | apply Ans.okay_keep | fail_if_no_progress apply Keep.upd
      | apply KeepA.done | apply KeepA.accept | apply KeepA.defer | apply KeepA.ongoing | dsimp only | split

theorem execTenRights_keep (e : Stim) (r : Req) (s : State) : KeepO (s.advance e) (execTenRights e r s) := 
  submit_row fun c _ hs => tenRightsSpec_keep c hs

theorem tenIslandEnableSpec_keep {b0 : State} (c : Cmd) {s : State} (hs : Keep b0 s) :
    KeepA b0 (tenIslandEnableSpec.exec c s) := by
  unfold tenIslandEnableSpec
  with_reducible
    repeat' first
      | assumption | intro _ | apply islEnable_keep | fail_if_no_progress apply Keep.upd | apply KeepA.done
      | apply KeepA.accept | apply KeepA.defer | apply KeepA.ongoing | dsimp only | split

theorem execTenIslandEnable_keep (e : Stim) (r : Req) (s : State) :
    KeepO (s.advance e) (execTenIslandEnable e r s) := 
  submit_row fun c _ hs => tenIslandEnableSpec_keep c hs

theorem tenResetSpec_keep {b0 : State} (c : Cmd) {s : State} (hs : Keep b0 s) : KeepA b0 (tenResetSpec.exec c s) := by
  unfold tenResetSpec
  with_reducible
    repeat' first
      | assumption | intro _ | apply State.setTenant_keep | apply interim_keep | apply Ans.fail_keep
      | apply tenResetBegin_keep | apply checkAll_keep | fail_if_no_progress apply Keep.upd | apply KeepA.done
      | apply KeepA.accept | apply KeepA.defer | apply KeepA.ongoing | dsimp only | split

theorem execTenReset_keep (e : Stim) (r : Req) (s : State) : KeepO (s.advance e) (execTenReset e r s) := 
  submit_row fun c _ hs => tenResetSpec_keep c hs

theorem tenDeleteSpec_keep {b0 : State} (c : Cmd) {s : State} (hs : Keep b0 s) :
    KeepA b0 (tenDeleteSpec.exec c s) := by
  unfold tenDeleteSpec
  with_reducible
    repeat' first
      | assumption | intro _ | apply interim_keep | apply Ans.fail_keep | apply tenResetBegin_keep
      | apply checkAll_keep | fail_if_no_progress apply Keep.upd | apply KeepA.done | apply KeepA.accept
      | apply KeepA.defer | apply KeepA.ongoing | dsimp only | split

theorem execTenDelete_keep (e : Stim) (r : Req) (s : State) : KeepO (s.advance e) (execTenDelete e r s) := 
  submit_row fun c _ hs => tenDeleteSpec_keep c hs

theorem tenResumeSpec_keep {b0 : State} (c : Cmd) {s : State} (hs : Keep b0 s) :
    KeepA b0 (tenResumeSpec.exec c s) := by
  unfold tenResumeSpec
  with_reducible
    repeat' first
      | assumption | intro _ | apply State.setTenant_keep | apply Ans.okay_keep | apply Ans.fail_keep
      | fail_if_no_progress apply Keep.upd | apply KeepA.done | apply KeepA.accept | apply KeepA.defer
      | apply KeepA.ongoing | dsimp only | split

theorem execTenResume_keep (e : Stim) (r : Req) (s : State) : KeepO (s.advance e) (execTenResume e r s) := 
  submit_row fun c _ hs => tenResumeSpec_keep c hs

theorem releaseIo_keep {b0 : State} (t : Nat) {s : State} (hs : Keep b0 s) : Keep b0 (releaseIo t s) := by
  unfold releaseIo
  with_reducible
    repeat' first
      | assumption | intro _ | fail_if_no_progress apply Keep.upd | dsimp only | split

theorem releaseRest_keep {b0 : State} (t : Nat) {s : State} (hs : Keep b0 s) : Keep b0 (releaseRest t s) := by
  unfold releaseRest
  with_reducible
    repeat' first
      | assumption | intro _ | apply nmgSettle_keep | fail_if_no_progress apply Keep.upd | dsimp only | split

theorem viGone_keep {b0 : State} (kind : Nat) (idx : Nat) {s : State} (hs : Keep b0 s) :
    Keep b0 (viGone kind idx s) := by
  unfold viGone
  with_reducible
    repeat' first
      | assumption | intro _ | apply State.setVi_keep | apply fdbDrop_keep | fail_if_no_progress apply Keep.upd
      | dsimp only | split

theorem tenGone_keep {b0 : State} (t : Nat) {s : State} (hs : Keep b0 s) : Keep b0 (tenGone t s) := by
  unfold tenGone
  with_reducible
    repeat' first
      | assumption | intro _ | apply State.setTenant_keep | apply State.setQueue_keep | apply finishAll_keep
      | apply dropXfers_keep | apply dropGroups_keep | apply releaseIo_keep | apply releaseRest_keep
      | apply viGone_keep | fail_if_no_progress apply Keep.upd | apply Keep.foldl | dsimp only | split

theorem tenLive_keep {b0 : State} (t : Nat) {s : State} (hs : Keep b0 s) : Keep b0 (tenLive t s) := by
  unfold tenLive
  with_reducible
    repeat' first
      | assumption | intro _ | apply State.setTenant_keep | apply notice_keep | apply finishAll_keep
      | fail_if_no_progress apply Keep.upd | dsimp only | split

theorem execTenResetDone_keep (e : Stim) (t : Nat) (s : State) : KeepO (s.advance e) (execTenResetDone e t s) := by
  unfold execTenResetDone
  apply event_keep
  generalize s.advance e = b0
  intro t ht
  with_reducible
    repeat' first
      | assumption | intro _ | apply tenGone_keep | apply tenLive_keep | fail_if_no_progress apply Keep.upd
      | dsimp only | split

theorem tenBindSpec_keep {b0 : State} (c : Cmd) {s : State} (hs : Keep b0 s) : KeepA b0 (tenBindSpec.exec c s) := by
  unfold tenBindSpec
  with_reducible
    repeat' first
      | assumption | intro _ | apply Ans.okay_keep | apply State.setAssoc_keep | apply abandonOut_keep
      | fail_if_no_progress apply Keep.upd | apply Keep.foldl | apply KeepA.done | apply KeepA.accept
      | apply KeepA.defer | apply KeepA.ongoing | dsimp only | split

theorem execTenBind_keep (e : Stim) (r : Req) (s : State) : KeepO (s.advance e) (execTenBind e r s) := 
  submit_row fun c _ hs => tenBindSpec_keep c hs

theorem freshCtl_keep {b0 : State} (kind : Nat) (v : Vi) {s : State} (hs : Keep b0 s) :
    Keep b0 (freshCtl kind v s) := by
  unfold freshCtl
  with_reducible
    repeat' first
      | assumption | intro _ | apply State.writeMem_keep | fail_if_no_progress apply Keep.upd | dsimp only | split

theorem tenViCreateSpec_keep {b0 : State} (c : Cmd) {s : State} (hs : Keep b0 s) :
    KeepA b0 (tenViCreateSpec.exec c s) := by
  unfold tenViCreateSpec
  with_reducible
    repeat' first
      | assumption | intro _
      | (extract_lets +onlyGivenNames x; first
        | (refine (fun hx : Keep b0 x => ?_) ?_; (on_goal 1 => clear_value x); on_goal 2 => (show Keep b0 _; subst x))
        | (refine (fun hx : Keep b0 x.2 => ?_) ?_; (on_goal 1 => clear_value x); on_goal 2 => (show Keep b0 (Prod.snd _); subst x))
        | (refine (fun hx : Keep b0 x.1 => ?_) ?_; (on_goal 1 => clear_value x); on_goal 2 => (show Keep b0 (Prod.fst _); subst x))
        | (refine (fun hx : KeepA b0 x => ?_) ?_; (on_goal 1 => clear_value x); on_goal 2 => (show KeepA b0 _; subst x))
        | (refine (fun hx : ∀ a, Keep b0 (x a) => ?_) ?_; (on_goal 1 => clear_value x); on_goal 2 => (subst x; intro _; dsimp -zeta only))
        | (refine (fun hx : ∀ t, Keep b0 t → Keep b0 (x t) => ?_) ?_; (on_goal 1 => clear_value x); on_goal 2 => (subst x; intro _ _; dsimp -zeta only))
        | (refine (fun hx : ∀ a t, Keep b0 t → Keep b0 (x a t) => ?_) ?_; (on_goal 1 => clear_value x); on_goal 2 => (subst x; intro _ _ _; dsimp -zeta only))
        | (refine (fun hx : ∀ a b t, Keep b0 t → Keep b0 (x a b t) => ?_) ?_; (on_goal 1 => clear_value x); on_goal 2 => (subst x; intro _ _ _ _; dsimp -zeta only))
        | clear_value x)
      | apply State.setVi_keep | apply Ans.fail_keep | exact fdbPut_keep _ (by assumption) (by assumption)
      | apply freshCtl_keep | fail_if_no_progress apply Keep.upd | apply KeepA.done | apply KeepA.accept
      | apply KeepA.defer | apply KeepA.ongoing | dsimp -zeta only | split | refine KeepA.ofDone (by assumption) ?_
      | refine KeepA.ofAccept (by assumption) ?_ | refine KeepA.ofDefer (by assumption) ?_
      | refine KeepA.ofOngoing (by assumption) ?_ | refine Keep.ofSnd (by assumption) ?_
      | refine Keep.ofFst (by assumption) ?_ | dsimp only | simp only [id_eq]

theorem execTenViCreate_keep (e : Stim) (r : Req) (s : State) : KeepO (s.advance e) (execTenViCreate e r s) := 
  submit_row fun c _ hs => tenViCreateSpec_keep c hs

theorem viResetCmd_keep {b0 : State} (del : Bool) (c : Cmd) {s : State} (hs : Keep b0 s) :
    Keep b0 (viResetCmd del c s) := by
  unfold viResetCmd
  with_reducible
    repeat' first
      | assumption | intro _ | apply State.setVi_keep | apply interim_keep | apply viResetBegin_keep
      | fail_if_no_progress apply Keep.upd | dsimp only | split

theorem tenViDeleteSpec_keep {b0 : State} (c : Cmd) {s : State} (hs : Keep b0 s) :
    KeepA b0 (tenViDeleteSpec.exec c s) := by
  unfold tenViDeleteSpec
  with_reducible
    repeat' first
      | assumption | intro _ | apply Ans.fail_keep | apply viResetCmd_keep | fail_if_no_progress apply Keep.upd
      | apply KeepA.done | apply KeepA.accept | apply KeepA.defer | apply KeepA.ongoing | dsimp only | split

theorem execTenViDelete_keep (e : Stim) (r : Req) (s : State) : KeepO (s.advance e) (execTenViDelete e r s) := 
  submit_row fun c _ hs => tenViDeleteSpec_keep c hs

theorem tenViResetSpec_keep {b0 : State} (c : Cmd) {s : State} (hs : Keep b0 s) :
    KeepA b0 (tenViResetSpec.exec c s) := by
  unfold tenViResetSpec
  with_reducible
    repeat' first
      | assumption | intro _ | apply Ans.fail_keep | apply viResetCmd_keep | fail_if_no_progress apply Keep.upd
      | apply KeepA.done | apply KeepA.accept | apply KeepA.defer | apply KeepA.ongoing | dsimp only | split

theorem execTenViReset_keep (e : Stim) (r : Req) (s : State) : KeepO (s.advance e) (execTenViReset e r s) := 
  submit_row fun c _ hs => tenViResetSpec_keep c hs

theorem tenViQuerySpec_keep {b0 : State} (c : Cmd) {s : State} (hs : Keep b0 s) :
    KeepA b0 (tenViQuerySpec.exec c s) := by
  unfold tenViQuerySpec
  with_reducible
    repeat' first
      | assumption | intro _ | apply Ans.fail_keep | fail_if_no_progress apply Keep.upd | apply KeepA.done
      | apply KeepA.accept | apply KeepA.defer | apply KeepA.ongoing | dsimp only | split

theorem execTenViQuery_keep (e : Stim) (r : Req) (s : State) : KeepO (s.advance e) (execTenViQuery e r s) := 
  submit_row fun c _ hs => tenViQuerySpec_keep c hs

theorem viResetEnd_keep {b0 : State} (kind : Nat) (idx : Nat) {s : State} (hs : Keep b0 s) :
    Keep b0 (viResetEnd kind idx s) := by
  unfold viResetEnd
  with_reducible
    repeat' first
      | assumption | intro _ | apply State.setVi_keep | apply deliver_keep | apply notice_keep | apply finishCmd_keep
      | apply complete_keep | apply viGone_keep | apply freshCtl_keep | fail_if_no_progress apply Keep.upd
      | apply Keep.foldl | dsimp only | split

theorem execViResetComplete_keep (e : Stim) (kind : Nat) (idx : Nat) (s : State) :
    KeepO (s.advance e) (execViResetComplete e kind idx s) := by
  unfold execViResetComplete
  apply event_keep
  generalize s.advance e = b0
  intro t ht
  with_reducible
    repeat' first
      | assumption | intro _ | apply viResetEnd_keep | fail_if_no_progress apply Keep.upd | dsimp only | split

theorem queConfigSpec_keep {b0 : State} (c : Cmd) {s : State} (hs : Keep b0 s) :
    KeepA b0 (queConfigSpec.exec c s) := by
  unfold queConfigSpec
  with_reducible
    repeat' first
      | assumption | intro _ | apply State.setQueue_keep | apply Ans.okay_keep | apply Ans.fail_keep
      | fail_if_no_progress apply Keep.upd | apply KeepA.done | apply KeepA.accept | apply KeepA.defer
      | apply KeepA.ongoing | dsimp only | split

theorem execQueConfig_keep (e : Stim) (r : Req) (s : State) : KeepO (s.advance e) (execQueConfig e r s) := 
  submit_row fun c _ hs => queConfigSpec_keep c hs

theorem queFlushSpec_keep {b0 : State} (c : Cmd) {s : State} (hs : Keep b0 s) : KeepA b0 (queFlushSpec.exec c s) := by
  unfold queFlushSpec
  with_reducible
    repeat' first
      | assumption | intro _ | apply Ans.okay_keep | apply Ans.fail_keep | apply flushQueue_keep
      | apply checkPtrs_keep | fail_if_no_progress apply Keep.upd | apply KeepA.done | apply KeepA.accept
      | apply KeepA.defer | apply KeepA.ongoing | dsimp only | split

theorem execQueFlush_keep (e : Stim) (r : Req) (s : State) : KeepO (s.advance e) (execQueFlush e r s) := 
  submit_row fun c _ hs => queFlushSpec_keep c hs

theorem queStatusSpec_keep {b0 : State} (c : Cmd) {s : State} (hs : Keep b0 s) :
    KeepA b0 (queStatusSpec.exec c s) := by
  unfold queStatusSpec
  with_reducible
    repeat' first
      | assumption | intro _ | fail_if_no_progress apply Keep.upd | apply KeepA.done | apply KeepA.accept
      | apply KeepA.defer | apply KeepA.ongoing | dsimp only | split

theorem execQueStatus_keep (e : Stim) (r : Req) (s : State) : KeepO (s.advance e) (execQueStatus e r s) := 
  submit_row fun c _ hs => queStatusSpec_keep c hs

theorem queLevelSpec_keep {b0 : State} (c : Cmd) {s : State} (hs : Keep b0 s) : KeepA b0 (queLevelSpec.exec c s) := by
  unfold queLevelSpec
  with_reducible
    repeat' first
      | assumption | intro _ | apply Ans.okay_keep | apply Ans.fail_keep | apply setLevel_keep
      | fail_if_no_progress apply Keep.upd | apply KeepA.done | apply KeepA.accept | apply KeepA.defer
      | apply KeepA.ongoing | dsimp only | split

theorem execQueLevel_keep (e : Stim) (r : Req) (s : State) : KeepO (s.advance e) (execQueLevel e r s) := 
  submit_row fun c _ hs => queLevelSpec_keep c hs

theorem queClearSpec_keep {b0 : State} (c : Cmd) {s : State} (hs : Keep b0 s) : KeepA b0 (queClearSpec.exec c s) := by
  unfold queClearSpec
  with_reducible
    repeat' first
      | assumption | intro _ | apply Ans.okay_keep | apply Ans.fail_keep | apply clearStatus_keep
      | fail_if_no_progress apply Keep.upd | apply KeepA.done | apply KeepA.accept | apply KeepA.defer
      | apply KeepA.ongoing | dsimp only | split

theorem execQueClear_keep (e : Stim) (r : Req) (s : State) : KeepO (s.advance e) (execQueClear e r s) := 
  submit_row fun c _ hs => queClearSpec_keep c hs

end Sys2Proof.Machine
end

