-- ==== Sys2Proof/Laws/KeepRows.lean ====
section
/-!
SUPPORT. Keep for the opcode table as a whole, islands, power, dispatch and register writes.
-/

set_option linter.unusedTactic false
set_option linter.unreachableTactic false

namespace Sys2Proof.Machine

/-! ### OpTable -/

/-- An operation whose meaning keeps what has been kept. -/
def OpKeeps (b0 : State) (o : OpSpec) : Prop := ∀ c s, Keep b0 s → KeepA b0 (o.exec c s)

theorem opsSys_keep {b0 : State} : ∀ z ∈ opsSys, OpKeeps b0 z := by
  intro z hz
  simp only [opsSys, List.mem_cons, List.not_mem_nil, or_false] at hz
  rcases hz with rfl | rfl | rfl | rfl | rfl | rfl
  · exact fun c _ hs => sysEchoSpec_keep c hs
  · exact fun c _ hs => sysCancelSpec_keep c hs
  · exact fun c _ hs => sysIdentitySpec_keep c hs
  · exact fun c _ hs => sysLimitsSpec_keep c hs
  · exact fun c _ hs => sysIslandCtlSpec_keep c hs
  · exact fun c _ hs => sysIslandStatusSpec_keep c hs

theorem opsTen_keep {b0 : State} : ∀ z ∈ opsTen, OpKeeps b0 z := by
  intro z hz
  simp only [opsTen, List.mem_cons, List.not_mem_nil, or_false] at hz
  rcases hz with rfl | rfl | rfl | rfl | rfl | rfl | rfl | rfl | rfl | rfl | rfl | rfl | rfl
  · exact fun c _ hs => tenCreateSpec_keep c hs
  · exact fun c _ hs => tenDeleteSpec_keep c hs
  · exact fun c _ hs => tenQuerySpec_keep c hs
  · exact fun c _ hs => tenShareSpec_keep c hs
  · exact fun c _ hs => tenRightsSpec_keep c hs
  · exact fun c _ hs => tenResetSpec_keep c hs
  · exact fun c _ hs => tenBindSpec_keep c hs
  · exact fun c _ hs => tenResumeSpec_keep c hs
  · exact fun c _ hs => tenViCreateSpec_keep c hs
  · exact fun c _ hs => tenViDeleteSpec_keep c hs
  · exact fun c _ hs => tenViResetSpec_keep c hs
  · exact fun c _ hs => tenViQuerySpec_keep c hs
  · exact fun c _ hs => tenIslandEnableSpec_keep c hs

theorem opsQue_keep {b0 : State} : ∀ z ∈ opsQue, OpKeeps b0 z := by
  intro z hz
  simp only [opsQue, List.mem_cons, List.not_mem_nil, or_false] at hz
  rcases hz with rfl | rfl | rfl | rfl | rfl
  · exact fun c _ hs => queConfigSpec_keep c hs
  · exact fun c _ hs => queFlushSpec_keep c hs
  · exact fun c _ hs => queStatusSpec_keep c hs
  · exact fun c _ hs => queLevelSpec_keep c hs
  · exact fun c _ hs => queClearSpec_keep c hs

theorem opsPwr_keep {b0 : State} : ∀ z ∈ opsPwr, OpKeeps b0 z := by
  intro z hz
  simp only [opsPwr, List.mem_cons, List.not_mem_nil, or_false] at hz
  rcases hz with rfl | rfl | rfl | rfl | rfl | rfl | rfl
  · exact fun c _ hs => pwrConfigSpec_keep c hs
  · exact fun c _ hs => pwrReadConfigSpec_keep c hs
  · exact fun c _ hs => pwrAssignSpec_keep c hs
  · exact fun c _ hs => pwrSwitchSpec_keep c hs
  · exact fun c _ hs => pwrDutySpec_keep c hs
  · exact fun c _ hs => pwrClearSpec_keep c hs
  · exact fun c _ hs => pwrStatusSpec_keep c hs

theorem opsPur_keep {b0 : State} : ∀ z ∈ opsPur, OpKeeps b0 z := by
  intro z hz
  simp only [opsPur, List.mem_cons, List.not_mem_nil, or_false] at hz
  rcases hz with rfl | rfl | rfl | rfl | rfl
  · exact fun c _ hs => purWireSpec_keep c hs
  · exact fun c _ hs => purReadWireSpec_keep c hs
  · exact fun c _ hs => purStatusSpec_keep c hs
  · exact fun c _ hs => purChannelSpec_keep c hs
  · exact fun c _ hs => purLimitsSpec_keep c hs

theorem opsLmp_keep {b0 : State} : ∀ z ∈ opsLmp, OpKeeps b0 z := by
  intro z hz
  simp only [opsLmp, List.mem_cons, List.not_mem_nil, or_false] at hz
  rcases hz with rfl | rfl | rfl | rfl | rfl
  · exact fun c _ hs => lmpPolicySpec_keep c hs
  · exact fun c _ hs => lmpReclaimSpec_keep c hs
  · exact fun c _ hs => lmpStatusSpec_keep c hs
  · exact fun c _ hs => lmpReadPolicySpec_keep c hs
  · exact fun c _ hs => lmpEnterSpec_keep c hs

theorem opsFio_keep {b0 : State} : ∀ z ∈ opsFio, OpKeeps b0 z := by
  intro z hz
  simp only [opsFio, List.mem_cons, List.not_mem_nil, or_false] at hz
  rcases hz with rfl | rfl | rfl | rfl | rfl | rfl | rfl | rfl | rfl
  · exact fun c _ hs => fioInConfigSpec_keep c hs
  · exact fun c _ hs => fioReadConfigSpec_keep c hs
  · exact fun c _ hs => fioAssignSpec_keep c hs
  · exact fun c _ hs => fioOutConfigSpec_keep c hs
  · exact fun c _ hs => fioInStateSpec_keep c hs
  · exact fun c _ hs => fioEdgesSpec_keep c hs
  · exact fun c _ hs => fioOutSpec_keep c hs
  · exact fun c _ hs => fioOutClearSpec_keep c hs
  · exact fun c _ hs => fioOutStatusSpec_keep c hs

theorem opsMea_keep {b0 : State} : ∀ z ∈ opsMea, OpKeeps b0 z := by
  intro z hz
  simp only [opsMea, List.mem_cons, List.not_mem_nil, or_false] at hz
  rcases hz with rfl | rfl | rfl | rfl | rfl | rfl
  · exact fun c _ hs => meaAiConfigSpec_keep c hs
  · exact fun c _ hs => meaSeqAssignSpec_keep c hs
  · exact fun c _ hs => meaSeqConfigSpec_keep c hs
  · exact fun c _ hs => meaRunSpec_keep c hs
  · exact fun c _ hs => meaResultsSpec_keep c hs
  · exact fun c _ hs => meaConvertSpec_keep c hs

theorem opsTim_keep {b0 : State} : ∀ z ∈ opsTim, OpKeeps b0 z := by
  intro z hz
  simp only [opsTim, List.mem_cons, List.not_mem_nil, or_false] at hz
  rcases hz with rfl | rfl | rfl | rfl | rfl | rfl | rfl | rfl | rfl | rfl | rfl | rfl | rfl | rfl | rfl
  · exact fun c _ hs => timNowSpec_keep c hs
  · exact fun c _ hs => timStatusSpec_keep c hs
  · exact fun c _ hs => timDomainSpec_keep c hs
  · exact fun c _ hs => timSetSpec_keep c hs
  · exact fun c _ hs => timPortlatSpec_keep c hs
  · exact fun c _ hs => timPpsSpec_keep c hs
  · exact fun c _ hs => timPpsinSpec_keep c hs
  · exact fun c _ hs => timTrigAssignSpec_keep c hs
  · exact fun c _ hs => timTrigConfigSpec_keep c hs
  · exact fun c _ hs => timTrigArmSpec_keep c hs
  · exact fun c _ hs => timTrigStatusSpec_keep c hs
  · exact fun c _ hs => timTxqAssignSpec_keep c hs
  · exact fun c _ hs => timTxstampsSpec_keep c hs
  · exact fun c _ hs => timAlarmSpec_keep c hs
  · exact fun c _ hs => timCanrefSpec_keep c hs

theorem opsNet_keep {b0 : State} : ∀ z ∈ opsNet, OpKeeps b0 z := by
  intro z hz
  simp only [opsNet, List.mem_cons, List.not_mem_nil, or_false] at hz
  rcases hz with rfl | rfl | rfl | rfl | rfl | rfl | rfl | rfl | rfl | rfl | rfl | rfl | rfl
  · exact fun c _ hs => netPortConfigSpec_keep c hs
  · exact fun c _ hs => netPortCtlSpec_keep c hs
  · exact fun c _ hs => netQueueConfigSpec_keep c hs
  · exact fun c _ hs => netVlanSpec_keep c hs
  · exact fun c _ hs => netEtypeSpec_keep c hs
  · exact fun c _ hs => netFdbAddSpec_keep c hs
  · exact fun c _ hs => netFdbDelSpec_keep c hs
  · exact fun c _ hs => netFdbFlushSpec_keep c hs
  · exact fun c _ hs => netFdbLookupSpec_keep c hs
  · exact fun c _ hs => netFdbAgeSpec_keep c hs
  · exact fun c _ hs => netPortStatusSpec_keep c hs
  · exact fun c _ hs => netCountersSpec_keep c hs
  · exact fun c _ hs => netBufferSpec_keep c hs

theorem opsTsn_keep {b0 : State} : ∀ z ∈ opsTsn, OpKeeps b0 z := by
  intro z hz
  simp only [opsTsn, List.mem_cons, List.not_mem_nil, or_false] at hz
  rcases hz with rfl | rfl | rfl | rfl | rfl | rfl | rfl | rfl | rfl | rfl | rfl | rfl | rfl | rfl | rfl
  · exact fun c _ hs => tsnCsOpenSpec_keep c hs
  · exact fun c _ hs => tsnCsCommitSpec_keep c hs
  · exact fun c _ hs => tsnCsAbortSpec_keep c hs
  · exact fun c _ hs => tsnStreamSpec_keep c hs
  · exact fun c _ hs => tsnStreamReadSpec_keep c hs
  · exact fun c _ hs => tsnStreamStatusSpec_keep c hs
  · exact fun c _ hs => tsnStreamClearSpec_keep c hs
  · exact fun c _ hs => tsnGclSpec_keep c hs
  · exact fun c _ hs => tsnCbsSpec_keep c hs
  · exact fun c _ hs => tsnPortStatusSpec_keep c hs
  · exact fun c _ hs => tsnMacsecPortSpec_keep c hs
  · exact fun c _ hs => tsnSaSpec_keep c hs
  · exact fun c _ hs => tsnRxscSpec_keep c hs
  · exact fun c _ hs => tsnTxsaSelectSpec_keep c hs
  · exact fun c _ hs => tsnMacsecStatusSpec_keep c hs

theorem opsBus1_keep {b0 : State} : ∀ z ∈ opsBus1, OpKeeps b0 z := by
  intro z hz
  simp only [opsBus1, List.mem_cons, List.not_mem_nil, or_false] at hz
  rcases hz with rfl | rfl | rfl | rfl | rfl | rfl | rfl | rfl | rfl | rfl | rfl | rfl | rfl | rfl | rfl | rfl
  · exact fun c _ hs => busAssignSpec_keep c hs
  · exact fun c _ hs => busCtlSpec_keep c hs
  · exact fun c _ hs => busCanConfigSpec_keep c hs
  · exact fun c _ hs => busCanFilterSpec_keep c hs
  · exact fun c _ hs => busCanStatusSpec_keep c hs
  · exact fun c _ hs => busCanTxSpec_keep c hs
  · exact fun c _ hs => busCanRxSpec_keep c hs
  · exact fun c _ hs => busCanTxeSpec_keep c hs
  · exact fun c _ hs => busLinConfigSpec_keep c hs
  · exact fun c _ hs => busLinFramesSpec_keep c hs
  · exact fun c _ hs => busLinScheduleSpec_keep c hs
  · exact fun c _ hs => busLinRunSpec_keep c hs
  · exact fun c _ hs => busLinDataSpec_keep c hs
  · exact fun c _ hs => busLinReadSpec_keep c hs
  · exact fun c _ hs => busLinStatusSpec_keep c hs
  · exact fun c _ hs => busLinSleepSpec_keep c hs

theorem opsBus2_keep {b0 : State} : ∀ z ∈ opsBus2, OpKeeps b0 z := by
  intro z hz
  simp only [opsBus2, List.mem_cons, List.not_mem_nil, or_false] at hz
  subst hz
  exact fun c _ hs => busLinWakeSpec_keep c hs

theorem opsGwy_keep {b0 : State} : ∀ z ∈ opsGwy, OpKeeps b0 z := by
  intro z hz
  simp only [opsGwy, List.mem_cons, List.not_mem_nil, or_false] at hz
  rcases hz with rfl | rfl | rfl | rfl | rfl | rfl
  · exact fun c _ hs => gwyRouteSpec_keep c hs
  · exact fun c _ hs => gwyRouteReadSpec_keep c hs
  · exact fun c _ hs => gwyAcfSpec_keep c hs
  · exact fun c _ hs => gwyAcfStatusSpec_keep c hs
  · exact fun c _ hs => gwyQueueSpec_keep c hs
  · exact fun c _ hs => gwyStatusSpec_keep c hs

theorem opsNmg_keep {b0 : State} : ∀ z ∈ opsNmg, OpKeeps b0 z := by
  intro z hz
  simp only [opsNmg, List.mem_cons, List.not_mem_nil, or_false] at hz
  rcases hz with rfl | rfl | rfl | rfl | rfl | rfl
  · exact fun c _ hs => nmgRingConfigSpec_keep c hs
  · exact fun c _ hs => nmgClusterSpec_keep c hs
  · exact fun c _ hs => nmgRequestSpec_keep c hs
  · exact fun c _ hs => nmgStatusSpec_keep c hs
  · exact fun c _ hs => nmgWakeConfigSpec_keep c hs
  · exact fun c _ hs => nmgWakeCauseSpec_keep c hs

theorem opsCpu_keep {b0 : State} : ∀ z ∈ opsCpu, OpKeeps b0 z := by
  intro z hz
  simp only [opsCpu, List.mem_cons, List.not_mem_nil, or_false] at hz
  rcases hz with rfl | rfl | rfl | rfl | rfl | rfl | rfl | rfl
  · exact fun c _ hs => cpuPartConfigSpec_keep c hs
  · exact fun c _ hs => cpuPartCtlSpec_keep c hs
  · exact fun c _ hs => cpuPartStatusSpec_keep c hs
  · exact fun c _ hs => cpuPairStatusSpec_keep c hs
  · exact fun c _ hs => cpuDebugSpec_keep c hs
  · exact fun c _ hs => cpuResyncSpec_keep c hs
  · exact fun c _ hs => cpuInjectSpec_keep c hs
  · exact fun c _ hs => cpuMemStatusSpec_keep c hs

theorem opsVlt1_keep {b0 : State} : ∀ z ∈ opsVlt1, OpKeeps b0 z := by
  intro z hz
  simp only [opsVlt1, List.mem_cons, List.not_mem_nil, or_false] at hz
  rcases hz with rfl | rfl | rfl | rfl | rfl | rfl | rfl | rfl | rfl | rfl | rfl | rfl | rfl | rfl | rfl | rfl
  · exact fun c _ hs => vltStatusSpec_keep c hs
  · exact fun c _ hs => vltConfigSpec_keep c hs
  · exact fun c _ hs => vltMboxAssignSpec_keep c hs
  · exact fun c _ hs => vltRestartSpec_keep c hs
  · exact fun c _ hs => vltMeasureSpec_keep c hs
  · exact fun c _ hs => vltRandomSpec_keep c hs
  · exact fun c _ hs => vltHashSpec_keep c hs
  · exact fun c _ hs => vltMacSpec_keep c hs
  · exact fun c _ hs => vltCipherSpec_keep c hs
  · exact fun c _ hs => vltAeadSpec_keep c hs
  · exact fun c _ hs => vltSignSpec_keep c hs
  · exact fun c _ hs => vltVerifySpec_keep c hs
  · exact fun c _ hs => vltKexSpec_keep c hs
  · exact fun c _ hs => vltKeyGenSpec_keep c hs
  · exact fun c _ hs => vltKeyImportSpec_keep c hs
  · exact fun c _ hs => vltKeyPublicSpec_keep c hs

theorem opsVlt2_keep {b0 : State} : ∀ z ∈ opsVlt2, OpKeeps b0 z := by
  intro z hz
  simp only [opsVlt2, List.mem_cons, List.not_mem_nil, or_false] at hz
  rcases hz with rfl | rfl | rfl | rfl | rfl
  · exact fun c _ hs => vltKeyDeleteSpec_keep c hs
  · exact fun c _ hs => vltKeyInfoSpec_keep c hs
  · exact fun c _ hs => vltCertSpec_keep c hs
  · exact fun c _ hs => vltLcNonceSpec_keep c hs
  · exact fun c _ hs => vltLcAdvanceSpec_keep c hs

theorem opsSto_keep {b0 : State} : ∀ z ∈ opsSto, OpKeeps b0 z := by
  intro z hz
  simp only [opsSto, List.mem_cons, List.not_mem_nil, or_false] at hz
  rcases hz with rfl | rfl | rfl | rfl | rfl | rfl | rfl | rfl | rfl | rfl | rfl | rfl | rfl
  · exact fun c _ hs => stoFormatSpec_keep c hs
  · exact fun c _ hs => stoVolConfigSpec_keep c hs
  · exact fun c _ hs => stoStatusSpec_keep c hs
  · exact fun c _ hs => stoReadSpec_keep c hs
  · exact fun c _ hs => stoWriteSpec_keep c hs
  · exact fun c _ hs => stoTrimSpec_keep c hs
  · exact fun c _ hs => stoGroupOpenSpec_keep c hs
  · exact fun c _ hs => stoGroupCommitSpec_keep c hs
  · exact fun c _ hs => stoGroupAbortSpec_keep c hs
  · exact fun c _ hs => stoEscrowConfigSpec_keep c hs
  · exact fun c _ hs => stoEscrowStatusSpec_keep c hs
  · exact fun c _ hs => stoEscrowMeasureSpec_keep c hs
  · exact fun c _ hs => stoPatrolSpec_keep c hs

theorem opsLog_keep {b0 : State} : ∀ z ∈ opsLog, OpKeeps b0 z := by
  intro z hz
  simp only [opsLog, List.mem_cons, List.not_mem_nil, or_false] at hz
  rcases hz with rfl | rfl | rfl | rfl
  · exact fun c _ hs => logStatusSpec_keep c hs
  · exact fun c _ hs => logReadSpec_keep c hs
  · exact fun c _ hs => logCheckpointSpec_keep c hs
  · exact fun c _ hs => logWriteSpec_keep c hs

theorem opsImg_keep {b0 : State} : ∀ z ∈ opsImg, OpKeeps b0 z := by
  intro z hz
  simp only [opsImg, List.mem_cons, List.not_mem_nil, or_false] at hz
  rcases hz with rfl | rfl | rfl | rfl | rfl | rfl | rfl | rfl | rfl | rfl
  · exact fun c _ hs => imgOfferSpec_keep c hs
  · exact fun c _ hs => imgDataSpec_keep c hs
  · exact fun c _ hs => imgCloseSpec_keep c hs
  · exact fun c _ hs => imgConfirmSpec_keep c hs
  · exact fun c _ hs => imgActivateSpec_keep c hs
  · exact fun c _ hs => imgRevertSpec_keep c hs
  · exact fun c _ hs => imgStatusSpec_keep c hs
  · exact fun c _ hs => imgPeerSpec_keep c hs
  · exact fun c _ hs => imgAbortSpec_keep c hs
  · exact fun c _ hs => imgConfigSpec_keep c hs

theorem opsTst_keep {b0 : State} : ∀ z ∈ opsTst, OpKeeps b0 z := by
  intro z hz
  simp only [opsTst, List.mem_cons, List.not_mem_nil, or_false] at hz
  rcases hz with rfl | rfl | rfl | rfl | rfl | rfl
  · exact fun c _ hs => tstAuditRunSpec_keep c hs
  · exact fun c _ hs => tstSummarySpec_keep c hs
  · exact fun c _ hs => tstDetailSpec_keep c hs
  · exact fun c _ hs => tstFaultStatusSpec_keep c hs
  · exact fun c _ hs => tstFaultClearSpec_keep c hs
  · exact fun c _ hs => tstFaultMaskSpec_keep c hs

theorem opTable_keep {b0 : State} : ∀ z ∈ opTable, OpKeeps b0 z :=
  mem_both (mem_both (mem_both (mem_both (mem_both (mem_both (mem_both (mem_both (mem_both (mem_both (mem_both
    (mem_both (mem_both (mem_both (mem_both (mem_both (mem_both (mem_both (mem_both (mem_both (mem_both
    opsSys_keep opsTen_keep) opsQue_keep) opsPwr_keep) opsPur_keep) opsLmp_keep) opsFio_keep) opsMea_keep)
    opsTim_keep) opsNet_keep) opsTsn_keep) opsBus1_keep) opsBus2_keep) opsGwy_keep) opsNmg_keep) opsCpu_keep)
    opsVlt1_keep) opsVlt2_keep) opsSto_keep) opsLog_keep) opsImg_keep) opsTst_keep

/-! ### IslandEv -/

theorem viAbort_keep {b0 : State} (n : Nat) {s : State} (hs : Keep b0 s) : Keep b0 (viAbort n s) := by
  unfold viAbort
  with_reducible
    repeat' first
      | assumption | intro _ | apply finishAll_keep | fail_if_no_progress apply Keep.upd | apply Keep.foldl
      | dsimp only | split

theorem islAbort_keep {b0 : State} (n : Nat) {s : State} (hs : Keep b0 s) : Keep b0 (islAbort n s) := by
  unfold islAbort
  with_reducible
    repeat' first
      | assumption | intro _ | apply forget_keep | apply endCmd_keep | apply viAbort_keep
      | fail_if_no_progress apply Keep.upd | apply Keep.foldl | dsimp only | split

theorem opFind_keep {b0 : State} {n : Nat} {o : OpSpec} (h : opFind n = some o) (c : Cmd) {s : State} (hs : Keep b0 s) :
    KeepA b0 (o.exec c s) :=
  opTable_keep o (List.mem_of_find?_eq_some h) c s hs

theorem resumeOne_keep {b0 : State} (c : Cmd) {s0 : State} (hs0 : Keep b0 s0) : Keep b0 (resumeOne c s0) := by
  unfold resumeOne
  have hs := trigsFirst_keep c.opcode c.params s0.tim.full hs0
  dsimp only
  split
  · next h _ => exact begin_keep _ _ hs fun c s hs => opFind_keep h c hs
  · exact hs

theorem resume_keep {b0 : State} (n : Nat) {s : State} (hs : Keep b0 s) : Keep b0 (resume n s) :=
  Keep.foldl _ hs fun _ c ht => resumeOne_keep c ht

theorem viCut_keep {b0 : State} (kind : Nat) (idx : Nat) {s : State} (hs : Keep b0 s) :
    Keep b0 (viCut kind idx s) := by
  unfold viCut
  with_reducible
    repeat' first
      | assumption | intro _ | apply State.setVi_keep | fail_if_no_progress apply Keep.upd | dsimp only | split

theorem gateOf_keep {b0 : State} (f : Func) {s : State} (hs : Keep b0 s) : Keep b0 (gateOf f s) := by
  unfold gateOf
  with_reducible
    repeat' first
      | assumption | intro _ | apply gateApply_keep | apply portGated_keep | apply partGated_keep
      | apply canGated_keep | apply linGated_keep | apply islLose_keep | apply islGated_keep | apply viResetEnd_keep
      | fail_if_no_progress apply Keep.upd | dsimp only | split

theorem islForced_keep {b0 : State} (n : Nat) {s : State} (hs : Keep b0 s) : Keep b0 (islForced n s) := by
  unfold islForced
  with_reducible
    repeat' first
      | assumption | intro _ | apply State.setIsland_keep | apply logObj_keep | apply islAbort_keep
      | fail_if_no_progress apply Keep.upd | dsimp only | split

theorem forceShut_keep {b0 : State} (f : Func) {s : State} (hs : Keep b0 s) : Keep b0 (forceShut f s) := by
  unfold forceShut
  with_reducible
    repeat' first
      | assumption | intro _ | apply logObj_keep | apply gateApply_keep | apply partForced_keep | apply canWipe_keep
      | apply linWipe_keep | apply islLose_keep | apply viCut_keep | apply gateOf_keep | apply islForced_keep
      | fail_if_no_progress apply Keep.upd | dsimp only | split

theorem autoStart_keep {b0 : State} {s : State} (hs : Keep b0 s) : Keep b0 (autoStart s) := by
  unfold autoStart
  with_reducible
    repeat' first
      | assumption | intro _ | apply gateStart_keep | fail_if_no_progress apply Keep.upd | apply Keep.foldl
      | dsimp only | split

theorem fbxTime_keep {b0 : State} {s : State} (hs : Keep b0 s) : Keep b0 (fbxTime s) := by
  unfold fbxTime
  with_reducible
    repeat' first
      | assumption | intro _ | apply State.drawNat_keep | apply withWork_keep | apply instTo_keep
      | apply tallyStep_keep | fail_if_no_progress apply Keep.upd | dsimp only | split

theorem islStarted_keep {b0 : State} (n : Nat) {s : State} (hs : Keep b0 s) : Keep b0 (islStarted n s) := by
  unfold islStarted
  with_reducible
    repeat' first
      | assumption | intro _ | apply State.setIsland_keep | apply gateRun_keep | apply carResume_keep
      | apply islRun_keep | apply serveAll_keep | apply resume_keep | apply autoStart_keep | apply fbxTime_keep
      | fail_if_no_progress apply Keep.upd | dsimp only | split

theorem execIslandRunReached_keep (e : Stim) (fn : Func) (s : State) :
    KeepO (s.advance e) (execIslandRunReached e fn s) := by
  unfold execIslandRunReached
  apply event_keep
  generalize s.advance e = b0
  intro t ht
  with_reducible
    repeat' first
      | assumption | intro _ | apply gateRun_keep | apply canRun_keep | apply linRun_keep | apply islStarted_keep
      | fail_if_no_progress apply Keep.upd | dsimp only | split

theorem clockLoss_keep {b0 : State} (n : Nat) {s : State} (hs : Keep b0 s) : Keep b0 (clockLoss n s) := by
  unfold clockLoss
  with_reducible
    repeat' first
      | assumption | intro _ | apply State.setIsland_keep | apply logSev_keep | apply noticeOnly_keep
      | apply finishAll_keep | apply latchFault_keep | apply islLose_keep | apply islAbort_keep
      | fail_if_no_progress apply Keep.upd | dsimp only | split

theorem execClockLoss_keep (e : Stim) (isl : Nat) (s : State) : KeepO (s.advance e) (execClockLoss e isl s) := by
  unfold execClockLoss
  apply event_keep
  generalize s.advance e = b0
  intro t ht
  with_reducible
    repeat' first
      | assumption | intro _ | apply clockLoss_keep | fail_if_no_progress apply Keep.upd | dsimp only | split

theorem execClockReturn_keep (e : Stim) (isl : Nat) (s : State) : KeepO (s.advance e) (execClockReturn e isl s) := by
  unfold execClockReturn
  apply event_keep
  generalize s.advance e = b0
  intro t ht
  with_reducible
    repeat' first
      | assumption | intro _ | apply State.setIsland_keep | fail_if_no_progress apply Keep.upd | dsimp only | split

/-! ### Power -/

theorem keptState_keep {b0 : State} (aon : Bool) {s : State} (hs : Keep b0 s) : Keep b0 (keptState aon s) :=
  Keep.updMem hs (filter_wf _)

theorem endEntry_keep {b0 : State} {s : State} (hs : Keep b0 s) : Keep b0 (endEntry s) := by
  unfold endEntry
  with_reducible
    repeat' first
      | assumption | intro _ | apply gateStart_keep | apply ringWake_keep | apply nmgSettle_keep | apply released_keep
      | fail_if_no_progress apply Keep.upd | apply Keep.foldl | dsimp only | split

theorem entryWake_keep {b0 : State} {s : State} (hs : Keep b0 s) : Keep b0 (entryWake s) := by
  unfold entryWake
  with_reducible
    repeat' first
      | assumption | intro _ | apply auditStop_keep | apply endEntry_keep | fail_if_no_progress apply Keep.upd
      | dsimp only | split

theorem execAuditEnd_keep (e : Stim) (s : State) : KeepO (s.advance e) (execAuditEnd e s) := by
  unfold execAuditEnd
  apply event_keep
  generalize s.advance e = b0
  intro t ht
  with_reducible
    repeat' first
      | assumption | intro _ | apply auditFinish_keep | apply endEntry_keep | fail_if_no_progress apply Keep.upd
      | dsimp only | split

theorem latchWake_keep {b0 : State} (cause : Nat) (idx : Nat) {s : State} (hs : Keep b0 s) :
    Keep b0 (latchWake cause idx s) := by
  unfold latchWake
  with_reducible
    repeat' first
      | assumption | intro _ | fail_if_no_progress apply Keep.upd | dsimp only | split

theorem wakeTake_keep {b0 : State} (cause : Nat) (idx : Nat) {s : State} (hs : Keep b0 s) :
    Keep b0 (wakeTake cause idx s) := by
  unfold wakeTake
  with_reducible
    repeat' first
      | assumption | intro _ | apply ring_keep | apply wakeRecord_keep | apply ringWake_keep | apply nmgSettle_keep
      | apply entryWake_keep | apply latchWake_keep | fail_if_no_progress apply Keep.upd | dsimp only | split

theorem alarmOff_keep {b0 : State} {s : State} (hs : Keep b0 s) : Keep b0 (alarmOff s) := by
  unfold alarmOff
  with_reducible
    repeat' first
      | assumption | intro _ | fail_if_no_progress apply Keep.upd | dsimp only | split

theorem wakeStep_keep {b0 : State} (cause : Nat) (idx : Nat) {s : State} (hs : Keep b0 s) :
    Keep b0 (wakeStep cause idx s) := by
  unfold wakeStep
  with_reducible
    repeat' first
      | assumption | intro _ | apply State.setFin_keep | apply setProbe_keep | apply ring_keep
      | apply State.setRing_keep | apply wakeTake_keep | apply alarmOff_keep | fail_if_no_progress apply Keep.upd
      | dsimp only | split

theorem wakeReady_keep {b0 : State} (cause : Nat) (idx : Nat) {s : State} (hs : Keep b0 s) :
    Keep b0 (wakeReady cause idx s) := by
  unfold wakeReady
  with_reducible
    repeat' first
      | assumption | intro _ | apply prepareOver_keep | fail_if_no_progress apply Keep.upd | dsimp only | split

theorem execWake_keep (e : Stim) (cause : Nat) (src : WakeSrc) (s : State) :
    KeepO (s.advance e) (execWake e cause src s) := by
  unfold execWake
  apply event_keep
  generalize s.advance e = b0
  intro t ht
  with_reducible
    repeat' first
      | assumption | intro _ | apply wakeStep_keep | apply wakeReady_keep | fail_if_no_progress apply Keep.upd
      | dsimp only | split

theorem decFrame_keep {b0 : State} (n : Nat) (f : CanFrame) {s : State} (hs : Keep b0 s) :
    Keep b0 (decFrame n f s) := by
  unfold decFrame
  with_reducible
    repeat' first
      | assumption | intro _ | apply ring_keep | apply State.setRing_keep | apply wakeTake_keep
      | fail_if_no_progress apply Keep.upd | dsimp only | split

theorem decError_keep {b0 : State} (n : Nat) {s : State} (hs : Keep b0 s) : Keep b0 (decError n s) := by
  unfold decError
  with_reducible
    repeat' first
      | assumption | intro _ | apply ring_keep | apply State.setRing_keep | apply wakeTake_keep
      | fail_if_no_progress apply Keep.upd | dsimp only | split

theorem execCanFrameReceived_keep (e : Stim) (can : Nat) (f : CanFrame) (ago : Nat) (s : State) :
    KeepO (s.advance e) (execCanFrameReceived e can f ago s) := by
  unfold execCanFrameReceived
  apply event_keep
  generalize s.advance e = b0
  intro t ht
  with_reducible
    repeat' first
      | assumption | intro _ | apply canHeard_keep | apply decFrame_keep | fail_if_no_progress apply Keep.upd
      | dsimp only | split

theorem execCanError_keep (e : Stim) (can : Nat) (lec : Nat) (tx : Bool) (alt : Bool) (s : State) :
    KeepO (s.advance e) (execCanError e can lec tx alt s) := by
  unfold execCanError
  apply event_keep
  generalize s.advance e = b0
  intro t ht
  with_reducible
    repeat' first
      | assumption | intro _ | apply canError_keep | apply decError_keep | fail_if_no_progress apply Keep.upd
      | dsimp only | split

theorem execTallyAlarmFire_keep (e : Stim) (s : State) : KeepO (s.advance e) (execTallyAlarmFire e s) := by
  unfold execTallyAlarmFire
  apply event_keep
  generalize s.advance e = b0
  intro t ht
  with_reducible
    repeat' first
      | assumption | intro _ | apply alarmNote_keep | apply wakeTake_keep | apply alarmOff_keep
      | fail_if_no_progress apply Keep.upd | dsimp only | split

theorem execKeyInactive_keep (e : Stim) (s : State) : KeepO (s.advance e) (execKeyInactive e s) := by
  unfold execKeyInactive
  apply event_keep
  generalize s.advance e = b0
  intro t ht
  with_reducible
    repeat' first
      | assumption | intro _ | apply setProbe_keep | apply nmgSettle_keep | fail_if_no_progress apply Keep.upd
      | dsimp only | split

theorem execSleepEntry_keep (e : Stim) (s : State) : KeepO (s.advance e) (execSleepEntry e s) := by
  unfold execSleepEntry
  apply event_keep
  generalize s.advance e = b0
  intro t ht
  with_reducible
    repeat' first
      | assumption | intro _ | apply noticeAll_keep | fail_if_no_progress apply Keep.upd | dsimp only | split

theorem gateDown_keep {b0 : State} (f : Func) {s : State} (hs : Keep b0 s) : Keep b0 (gateDown f s) := by
  unfold gateDown
  with_reducible
    repeat' first
      | assumption | intro _ | apply finishAll_keep | apply State.setGate_keep | fail_if_no_progress apply Keep.upd
      | dsimp only | split

theorem entryCpx_keep {b0 : State} {s : State} (hs : Keep b0 s) : Keep b0 (entryCpx s) := by
  unfold entryCpx
  with_reducible
    repeat' first
      | assumption | intro _ | apply released_keep | apply auditStart_keep | apply cpxLose_keep | apply endEntry_keep
      | apply gateDown_keep | fail_if_no_progress apply Keep.upd | dsimp only | split

theorem cpxDown_keep {b0 : State} {s : State} (hs : Keep b0 s) : Keep b0 (cpxDown s) := by
  unfold cpxDown
  with_reducible
    repeat' first
      | assumption | intro _ | apply finishAll_keep | apply State.setGate_keep | fail_if_no_progress apply Keep.upd
      | dsimp only | split

theorem entryGo_keep {b0 : State} {s : State} (hs : Keep b0 s) : Keep b0 (entryGo s) := by
  unfold entryGo
  with_reducible
    repeat' first
      | assumption | intro _ | apply withdrawCmd_keep | apply gateDown_keep | apply entryCpx_keep | apply cpxDown_keep
      | fail_if_no_progress apply Keep.upd | apply Keep.foldl | dsimp only | split

theorem entryGate_keep {b0 : State} (f : Func) {s : State} (hs : Keep b0 s) : Keep b0 (entryGate f s) := by
  unfold entryGate
  with_reducible
    repeat' first
      | assumption | intro _ | apply entryCpx_keep | fail_if_no_progress apply Keep.upd | dsimp only | split

theorem execQuiescenceReached_keep (e : Stim) (fn : Func) (s : State) :
    KeepO (s.advance e) (execQuiescenceReached e fn s) := by
  unfold execQuiescenceReached
  apply event_keep
  generalize s.advance e = b0
  intro t ht
  with_reducible
    repeat' first
      | assumption | intro _ | apply gateOf_keep | apply entryGate_keep | fail_if_no_progress apply Keep.upd
      | dsimp only | split

theorem execForcedShutdown_keep (e : Stim) (fn : Func) (s : State) :
    KeepO (s.advance e) (execForcedShutdown e fn s) := by
  unfold execForcedShutdown
  apply event_keep
  generalize s.advance e = b0
  intro t ht
  with_reducible
    repeat' first
      | assumption | intro _ | apply forceShut_keep | apply entryGate_keep | fail_if_no_progress apply Keep.upd
      | dsimp only | split

theorem execSleepEntryCheck_keep (e : Stim) (s : State) : KeepO (s.advance e) (execSleepEntryCheck e s) := by
  unfold execSleepEntryCheck
  apply event_keep
  generalize s.advance e = b0
  intro t ht
  with_reducible
    repeat' first
      | assumption | intro _ | apply endEntry_keep | apply entryGo_keep | fail_if_no_progress apply Keep.upd
      | dsimp only | split

theorem execSleepReached_keep (e : Stim) (s : State) : KeepO (s.advance e) (execSleepReached e s) := by
  unfold execSleepReached
  apply event_keep
  generalize s.advance e = b0
  intro t ht
  with_reducible
    repeat' first
      | assumption | intro _ | apply State.thetaNow_keep | apply islForced_keep | apply keptState_keep
      | fail_if_no_progress apply Keep.upd | apply Keep.foldl | dsimp only | split

theorem execDormantEntry_keep (e : Stim) (s : State) : KeepO (s.advance e) (execDormantEntry e s) := by
  unfold execDormantEntry
  apply event_keep
  generalize s.advance e = b0
  intro t ht
  with_reducible
    repeat' first
      | assumption | intro _ | apply sessionEnd_keep | apply keptState_keep | fail_if_no_progress apply Keep.upd
      | dsimp only | split

theorem execAonSupplyLoss_keep (e : Stim) (s : State) : KeepO (s.advance e) (execAonSupplyLoss e s) := by
  unfold execAonSupplyLoss
  apply event_keep
  generalize s.advance e = b0
  intro t ht
  with_reducible
    repeat' first
      | assumption | intro _ | apply sessionEnd_keep | apply keptState_keep | fail_if_no_progress apply Keep.upd
      | dsimp only | split

theorem runCommits_keep {b0 : State} (x0 : Nat) {x1 : State} (hx1 : Keep b0 x1) : Keep b0 (runCommits x0 x1) := by
  induction x0 generalizing x1 with
  | zero =>
    unfold runCommits
    with_reducible
      repeat' first
        | assumption | intro _ | apply journalled_keep | fail_if_no_progress apply Keep.upd | dsimp only | split
  | succ n ih =>
    unfold runCommits
    with_reducible
      repeat' first
        | assumption | intro _ | apply ih | apply journalled_keep | fail_if_no_progress apply Keep.upd | dsimp only
        | split

theorem unposted_keep {b0 : State} {s : State} (hs : Keep b0 s) : Keep b0 (unposted s) := by
  unfold unposted
  with_reducible
    repeat' first
      | assumption | intro _ | apply logObj_keep | fail_if_no_progress apply Keep.upd | apply Keep.foldl | dsimp only
      | split

theorem brownout_keep {b0 : State} {s : State} (hs : Keep b0 s) : Keep b0 (brownout s) := by
  unfold brownout
  with_reducible
    repeat' first
      | assumption | intro _ | apply logObj_keep | apply finishAll_keep | apply State.setSto_keep
      | apply sessionEnd_keep | apply noEnergy_keep | apply auditStop_keep | apply auditFinish_keep
      | apply cpxLose_keep | apply swxLose_keep | apply bsxLose_keep | apply islAbort_keep | apply keptState_keep
      | apply runCommits_keep | apply unposted_keep | fail_if_no_progress apply Keep.upd | dsimp only | split

theorem execBrownout_keep (e : Stim) (s : State) : KeepO (s.advance e) (execBrownout e s) := by
  unfold execBrownout
  apply event_keep
  generalize s.advance e = b0
  intro t ht
  with_reducible
    repeat' first
      | assumption | intro _ | apply brownout_keep | fail_if_no_progress apply Keep.upd | dsimp only | split

theorem startTime_keep {b0 : State} {s : State} (hs : Keep b0 s) : Keep b0 (startTime s) := by
  unfold startTime
  with_reducible
    repeat' first
      | assumption | intro _ | apply State.drawNat_keep | fail_if_no_progress apply Keep.upd | dsimp only | split

theorem wakeStepped_keep {b0 : State} (old : Nat) {s : State} (hs : Keep b0 s) : Keep b0 (wakeStepped old s) := by
  unfold wakeStepped
  with_reducible
    repeat' first
      | assumption | intro _ | apply logNotice_keep | fail_if_no_progress apply Keep.upd | dsimp only | split

theorem startTenants_keep {b0 : State} {s : State} (hs : Keep b0 s) : Keep b0 (startTenants s) := by
  unfold startTenants
  with_reducible
    repeat' first
      | assumption | intro _ | apply logObj_keep | fail_if_no_progress apply Keep.upd | dsimp only | split

theorem startChan_keep {b0 : State} (aon : Bool) (asleep : Nat) (ch : Nat) {s : State} (hs : Keep b0 s) :
    Keep b0 (startChan aon asleep s ch) := by
  unfold startChan
  with_reducible
    repeat' first
      | assumption | intro _ | apply State.setChn_keep | fail_if_no_progress apply Keep.upd | dsimp only | split

theorem startField_keep {b0 : State} {s : State} (hs : Keep b0 s) : Keep b0 (startField s) := by
  unfold startField
  with_reducible
    repeat' first
      | assumption | intro _ | fail_if_no_progress apply Keep.upd | dsimp only | split

theorem startBuses_keep {b0 : State} (aon : Bool) {s : State} (hs : Keep b0 s) : Keep b0 (startBuses aon s) := by
  unfold startBuses
  with_reducible
    repeat' first
      | assumption | intro _ | apply gateStart_keep | apply ring_keep | apply startRing_keep
      | fail_if_no_progress apply Keep.upd | apply Keep.foldl | dsimp only | split

theorem startParts_keep {b0 : State} {s : State} (hs : Keep b0 s) : Keep b0 (startParts s) := by
  unfold startParts
  with_reducible
    repeat' first
      | assumption | intro _ | apply autoStart_keep | fail_if_no_progress apply Keep.upd | dsimp only | split

theorem startTrials_keep {b0 : State} {s : State} (hs : Keep b0 s) : Keep b0 (startTrials s) := by
  unfold startTrials
  with_reducible
    repeat' first
      | assumption | intro _ | apply State.setIcomp_keep | apply revertBegin_keep | fail_if_no_progress apply Keep.upd
      | apply Keep.foldl | dsimp only | split

theorem startAudit_keep {b0 : State} (aon : Bool) {s : State} (hs : Keep b0 s) : Keep b0 (startAudit aon s) := by
  unfold startAudit
  with_reducible
    repeat' first
      | assumption | intro _ | apply logNotice_keep | apply auditStart_keep | apply tellerSettle_keep
      | fail_if_no_progress apply Keep.upd | dsimp only | split

theorem startPins_keep {b0 : State} {s : State} (hs : Keep b0 s) : Keep b0 (startPins s) := by
  unfold startPins
  with_reducible
    repeat' first
      | assumption | intro _ | apply logObj_keep | apply foForce_keep | apply enterDie_keep | apply bothDies_keep
      | fail_if_no_progress apply Keep.upd | dsimp only | split

theorem startFound_keep {b0 : State} (kind : Nat) {s : State} (hs : Keep b0 s) : Keep b0 (startFound kind s) := by
  unfold startFound
  with_reducible
    repeat' first
      | assumption | intro _ | apply keptState_keep | fail_if_no_progress apply Keep.upd | dsimp only | split

/-- An update that marks the fuses as checked, and of other parts. -/
theorem Keep.marked {b0 s t : State} (h : Keep b0 s) (h1 : t.pending = s.pending) (h2 : t.clk = s.clk)
    (h3 : t.ident.primary = s.ident.primary) (h4 : t.ident.copy = s.ident.copy) (h5 : t.mem = s.mem) : Keep b0 t :=
  ⟨h1.trans h.pending, h2.trans h.clk, h3.trans h.primary, h4.trans h.copy, fun w => h5 ▸ h.mem w⟩

theorem startImaged_keep {b0 : State} (kind : Nat) {s : State} (hs : Keep b0 s) : Keep b0 (startImaged kind s) :=
  Keep.marked hs rfl rfl rfl rfl rfl

theorem startFuses_keep {b0 : State} {s : State} (hs : Keep b0 s) : Keep b0 (startFuses s) := by
  unfold startFuses
  with_reducible
    repeat' first
      | assumption | intro _ | apply logObj_keep | fail_if_no_progress apply Keep.upd | dsimp only | split

theorem startTally_keep {b0 : State} (kind : Nat) {s0 s : State} (hs0 : Keep b0 s0) (hs : Keep b0 s) :
    Keep b0 (startTally kind s0 s) := by
  unfold startTally
  with_reducible
    repeat' first
      | assumption | intro _ | apply startTime_keep | apply wakeStepped_keep | apply startTenants_keep
      | fail_if_no_progress apply Keep.upd | dsimp only | split

theorem startChans_keep {b0 : State} (kind : Nat) (gated : Nat) {s : State} (hs : Keep b0 s) :
    Keep b0 (startChans kind gated s) := by
  unfold startChans
  with_reducible
    repeat' first
      | assumption | intro _ | apply startChan_keep | fail_if_no_progress apply Keep.upd | apply Keep.foldl
      | dsimp only | split

theorem startUnits_keep {b0 : State} (kind : Nat) {s : State} (hs : Keep b0 s) : Keep b0 (startUnits kind s) := by
  unfold startUnits
  with_reducible
    repeat' first
      | assumption | intro _ | apply foForce_keep | apply startField_keep | apply startBuses_keep
      | apply startParts_keep | apply startTrials_keep | apply startAudit_keep | apply startPins_keep
      | fail_if_no_progress apply Keep.upd | dsimp only | split

theorem startWoken_keep {b0 : State} (kind : Nat) {s0 : State} (hs0 : Keep b0 s0) : Keep b0 (startWoken kind s0) := by
  unfold startWoken
  with_reducible
    repeat' first
      | assumption | intro _ | apply logNotice_keep | apply sessionEnd_keep | fail_if_no_progress apply Keep.upd
      | dsimp only | split

theorem startModule_keep {b0 : State} (kind : Nat) {s : State} (hs : Keep b0 s) : Keep b0 (startModule kind s) := by
  unfold startModule
  with_reducible
    repeat' first
      | assumption | intro _ | apply startFound_keep | apply startImaged_keep | apply startFuses_keep
      | apply startTally_keep | apply startChans_keep | apply startUnits_keep | apply startWoken_keep
      | fail_if_no_progress apply Keep.upd | dsimp only | split

theorem execStart_keep (e : Stim) (kind : Nat) (s : State) : KeepO (s.advance e) (execStart e kind s) := by
  unfold execStart
  apply event_keep
  generalize s.advance e = b0
  intro t ht
  with_reducible
    repeat' first
      | assumption | intro _ | apply startModule_keep | fail_if_no_progress apply Keep.upd | dsimp only | split

/-! ### Teller -/

theorem stallNote_keep {b0 : State} (t : Nat) (q : Nat) {s : State} (hs : Keep b0 s) : Keep b0 (stallNote s t q) := by
  unfold stallNote
  with_reducible
    repeat' first
      | assumption | intro _ | apply State.setTenant_keep | apply State.setQueue_keep
      | fail_if_no_progress apply Keep.upd | dsimp only | split

theorem takeHead_keep {b0 : State} (t q : Nat) {s : State} (hs : Keep b0 s) : Keep b0 (takeHead t q s) := by
  unfold takeHead
  dsimp only
  split
  · exact hs
  · exact badFault_keep _ (badReply_keep _ _ _ (State.setQueue_keep _ _ _ hs))
  · exact launch_keep _ _ _ _ (trigsFirst_keep _ _ _ (State.takeSlots_keep _ _ _ hs)) fun z hz c s hs => opFind_keep hz c hs

theorem dispatchOne_keep {b0 : State} {s : State} (hs : Keep b0 s) : Keep b0 (dispatchOne s) := by
  unfold dispatchOne
  with_reducible
    repeat' first
      | assumption | intro _ | apply checkPtrs_keep | apply stallNote_keep | apply takeHead_keep
      | fail_if_no_progress apply Keep.upd | apply Keep.foldl | dsimp only | split

theorem execDispatch_keep (e : Stim) (s : State) : KeepO (s.advance e) (execDispatch e s) := by
  unfold execDispatch
  apply event_keep
  generalize s.advance e = b0
  intro t ht
  with_reducible
    repeat' first
      | assumption | intro _ | apply dispatchOne_keep | fail_if_no_progress apply Keep.upd | dsimp only | split

theorem beginDue_keep {b0 : State} (c : Cmd) {s : State} (hs : Keep b0 s) : Keep b0 (beginDue s c) := by
  unfold beginDue
  have hs := trigsFirst_keep c.opcode c.params c.dueAt hs
  revert hs
  generalize trigsFirst c.opcode c.params c.dueAt s = s
  intro hs
  dsimp only
  split
  · exact hs
  · split
    · exact hs
    · have h1 : ∀ (p : Prop) [Decidable p] (x : TimSt), Keep b0 (if p then { s with tim := x } else s) := fun p _ x => by
        split
        · exact Keep.upd hs
        · exact hs
      split
      · next h => exact begin_keep _ _ (h1 _ _) fun c s hs => opFind_keep h c hs
      · exact finishCmd_keep _ _ _ (h1 _ _)

theorem execNotbeforeReached_keep (e : Stim) (s : State) : KeepO (s.advance e) (execNotbeforeReached e s) := by
  unfold execNotbeforeReached
  apply event_keep
  generalize s.advance e = b0
  intro t ht
  with_reducible
    repeat' first
      | assumption | intro _ | apply beginDue_keep | fail_if_no_progress apply Keep.upd | apply Keep.foldl
      | dsimp only | split

/-! ### Regs -/

theorem canRegWrite_keep {b0 : State} (who : Nat) (n : Nat) (off : Nat) (width : Nat) (v : Word) {s : State} (hs : Keep b0 s) :
    Keep b0 (canRegWrite who n off width v s) := by
  unfold canRegWrite
  with_reducible
    repeat' first
      | assumption | intro _ | apply logFirst_keep | apply priRequest_keep | apply fifoPut_keep | apply priCancel_keep
      | apply eachBit_keep | apply canWin_keep | apply doneClear_keep | apply flagsClear_keep | apply ramWrite_keep
      | fail_if_no_progress apply Keep.upd | dsimp only | split

theorem slotRegWrite_keep {b0 : State} (n : Nat) (off : Nat) (v : Word) {s : State} (hs : Keep b0 s) :
    Keep b0 (slotRegWrite n off v s) := by
  unfold slotRegWrite
  with_reducible
    repeat' first
      | assumption | intro _ | apply State.setSlot_keep | apply slotPost_keep | apply slotRelease_keep
      | fail_if_no_progress apply Keep.upd | dsimp only | split

theorem mailboxWrite_keep {b0 : State} (who : Nat) (off : Nat) (width : Nat) (v : Word) {s : State} (hs : Keep b0 s) :
    Keep b0 (mailboxWrite who off width v s) := by
  unfold mailboxWrite
  with_reducible
    repeat' first
      | assumption | intro _ | apply logFirst_keep | apply slotOp_keep | apply slotRegWrite_keep
      | fail_if_no_progress apply Keep.upd | dsimp only | split

theorem ctlWritten_keep {b0 : State} (key : Nat) {s : State} (hs : Keep b0 s) : Keep b0 (ctlWritten key s) := by
  unfold ctlWritten
  with_reducible
    repeat' first
      | assumption | intro _ | apply State.setVi_keep | apply serveKey_keep | fail_if_no_progress apply Keep.upd
      | dsimp only | split

theorem sramWrite_keep {b0 : State} (p : Nat) (addr : Nat) (width : Nat) (value : Nat) {s : State} (hs : Keep b0 s) :
    Keep b0 (sramWrite p addr width value s) := by
  unfold sramWrite
  with_reducible
    repeat' first
      | assumption | intro _ | apply State.writeMem_keep | apply logFirst_keep | apply storeRefused_keep
      | apply ctlWritten_keep | fail_if_no_progress apply Keep.upd | dsimp only | split

theorem tileWrite_keep {b0 : State} (p : Nat) (addr : Nat) (width : Nat) (value : Nat) {s : State} (hs : Keep b0 s) :
    Keep b0 (tileWrite p addr width value s) := by
  unfold tileWrite
  with_reducible
    repeat' first
      | assumption | intro _ | apply State.writeMem_keep | apply storeRefused_keep
      | fail_if_no_progress apply Keep.upd | apply Keep.foldl | dsimp only | split

theorem regWrite_keep {b0 : State} (who : Nat) (addr : Nat) (width : Nat) (value : Nat) {s : State} (hs : Keep b0 s) :
    Keep b0 (regWrite who addr width value s) := by
  unfold regWrite
  with_reducible
    repeat' first
      | assumption | intro _ | apply pageWrite_keep | apply storeRefused_keep | apply canRegWrite_keep
      | apply mailboxWrite_keep | apply sramWrite_keep | apply tileWrite_keep | fail_if_no_progress apply Keep.upd
      | dsimp only | split

theorem execRegisterWrite_keep (e : Stim) (who : Nat) (addr : Nat) (width : Nat) (value : Nat) (s : State) :
    KeepO (s.advance e) (execRegisterWrite e who addr width value s) := by
  unfold execRegisterWrite
  apply event_keep
  generalize s.advance e = b0
  intro t ht
  with_reducible
    repeat' first
      | assumption | intro _ | apply regWrite_keep | fail_if_no_progress apply Keep.upd | dsimp only | split

/-! ### RelayCar -/

theorem State.setPeer_keep {b0 : State} (p : Nat) (x : ImgPeer) {s : State} (hs : Keep b0 s) :
    Keep b0 (State.setPeer s p x) := by
  unfold State.setPeer
  with_reducible
    repeat' first
      | assumption | intro _ | fail_if_no_progress apply Keep.upd | dsimp only | split

theorem peerSend_keep {b0 : State} (p : Nat) (kind : Nat) (ackseq : Nat) (items : List (List Byte)) {s : State} (hs : Keep b0 s) :
    Keep b0 (peerSend p kind ackseq items s) := by
  unfold peerSend
  with_reducible
    repeat' first
      | assumption | intro _ | apply carSend_keep | apply State.setPeer_keep | fail_if_no_progress apply Keep.upd
      | dsimp only | split

theorem relayCmd_keep {b0 : State} (r : ImgRelay) (step : RelayStep) (op : Nat) (ps : List Word) {s : State} (hs : Keep b0 s) :
    Keep b0 (relayCmd r step op ps s) := by
  unfold relayCmd
  with_reducible
    repeat' first
      | assumption | intro _ | apply setRelay_keep | apply peerSend_keep | fail_if_no_progress apply Keep.upd
      | dsimp only | split

theorem relayMore_keep {b0 : State} (r : ImgRelay) {s : State} (hs : Keep b0 s) : Keep b0 (relayMore r s) := by
  unfold relayMore
  with_reducible
    repeat' first
      | assumption | intro _ | apply relayCmd_keep | fail_if_no_progress apply Keep.upd | dsimp only | split

theorem relayGo_keep {b0 : State} (comp : Nat) {s : State} (hs : Keep b0 s) : Keep b0 (relayGo comp s) := by
  unfold relayGo
  with_reducible
    repeat' first
      | assumption | intro _ | apply relayCmd_keep | fail_if_no_progress apply Keep.upd | dsimp only | split

theorem relayEnd_keep {b0 : State} (comp : Nat) (status : Nat) {s : State} (hs : Keep b0 s) :
    Keep b0 (relayEnd comp status s) := by
  unfold relayEnd
  with_reducible
    repeat' first
      | assumption | intro _ | apply relayOutcome_keep | apply relayGo_keep | fail_if_no_progress apply Keep.upd
      | dsimp only | split

theorem execRelayStart_keep (e : Stim) (comp : Nat) (s : State) : KeepO (s.advance e) (execRelayStart e comp s) := by
  unfold execRelayStart
  apply event_keep
  generalize s.advance e = b0
  intro t ht
  with_reducible
    repeat' first
      | assumption | intro _ | apply relayNext_keep | apply relayGo_keep | fail_if_no_progress apply Keep.upd
      | dsimp only | split

theorem execRelayOutcome_keep (e : Stim) (comp : Nat) (status : Nat) (s : State) :
    KeepO (s.advance e) (execRelayOutcome e comp status s) := by
  unfold execRelayOutcome
  apply event_keep
  generalize s.advance e = b0
  intro t ht
  with_reducible
    repeat' first
      | assumption | intro _ | apply relayEnd_keep | fail_if_no_progress apply Keep.upd | dsimp only | split

theorem execRelayRetry_keep (e : Stim) (comp : Nat) (s : State) : KeepO (s.advance e) (execRelayRetry e comp s) := by
  unfold execRelayRetry
  apply event_keep
  generalize s.advance e = b0
  intro t ht
  with_reducible
    repeat' first
      | assumption | intro _ | apply setRelay_keep | apply relayGo_keep | fail_if_no_progress apply Keep.upd
      | dsimp only | split

theorem relayReply_keep {b0 : State} (p : Nat) (b : List Byte) {s : State} (hs : Keep b0 s) :
    Keep b0 (relayReply p s b) := by
  unfold relayReply
  with_reducible
    repeat' first
      | assumption | intro _ | apply relayMore_keep | apply relayEnd_keep | fail_if_no_progress apply Keep.upd
      | dsimp only | split

theorem peerVerify_keep {b0 : State} (a : Assoc) (head : List Byte) (items : List (List Byte × List Byte)) {s : State} (hs : Keep b0 s) :
    Keep b0 ((peerVerify a head items s).2) := by
  unfold peerVerify
  with_reducible
    repeat' first
      | assumption | intro _ | apply logObj_keep | fail_if_no_progress apply Keep.upd | apply Keep.foldl | dsimp only
      | split

theorem peerTake_keep {b0 : State} (p : Nat) (x : ImgPeer) (head : List Byte) (rest : List Byte) {s : State} (hs : Keep b0 s) :
    Keep b0 (peerTake p x head rest s) := by
  unfold peerTake
  with_reducible
    repeat' first
      | assumption | intro _ | apply State.setPeer_keep | apply peerSend_keep | apply relayReply_keep
      | apply peerVerify_keep | fail_if_no_progress apply Keep.upd | apply Keep.foldl | dsimp only | split

theorem peerAcked_keep {b0 : State} (p : Nat) (fseq : Nat) {s : State} (hs : Keep b0 s) :
    Keep b0 (peerAcked p fseq s) := by
  unfold peerAcked
  with_reducible
    repeat' first
      | assumption | intro _ | apply State.setPeer_keep | fail_if_no_progress apply Keep.upd | dsimp only | split

theorem peerReceive_keep {b0 : State} (p : Nat) (x : ImgPeer) (f : Carriage) {s : State} (hs : Keep b0 s) :
    Keep b0 (peerReceive p x f s) := by
  unfold peerReceive
  with_reducible
    repeat' first
      | assumption | intro _ | apply State.setPeer_keep | apply peerSend_keep | apply peerTake_keep
      | apply peerAcked_keep | fail_if_no_progress apply Keep.upd | dsimp only | split

theorem carHeard_keep {b0 : State} (f : Carriage) {s : State} (hs : Keep b0 s) : Keep b0 (carHeard f s) := by
  unfold carHeard
  with_reducible
    repeat' first
      | assumption | intro _ | apply carReceive_keep | apply peerReceive_keep | fail_if_no_progress apply Keep.upd
      | dsimp only | split

theorem execCarriageFrameReceived_keep (e : Stim) (f : Carriage) (s : State) :
    KeepO (s.advance e) (execCarriageFrameReceived e f s) := by
  unfold execCarriageFrameReceived
  apply event_keep
  generalize s.advance e = b0
  intro t ht
  with_reducible
    repeat' first
      | assumption | intro _ | apply carHeard_keep | fail_if_no_progress apply Keep.upd | dsimp only | split

theorem tenResend_keep {b0 : State} (t : Nat) (fseq : Nat) {s : State} (hs : Keep b0 s) :
    Keep b0 (tenResend t fseq s) := by
  unfold tenResend
  with_reducible
    repeat' first
      | assumption | intro _ | apply tenFault_keep | apply carSend_keep | apply State.setAssoc_keep
      | apply abandonOut_keep | fail_if_no_progress apply Keep.upd | dsimp only | split

theorem peerResend_keep {b0 : State} (p : Nat) (fseq : Nat) {s : State} (hs : Keep b0 s) :
    Keep b0 (peerResend p fseq s) := by
  unfold peerResend
  with_reducible
    repeat' first
      | assumption | intro _ | apply carSend_keep | apply State.setPeer_keep | apply relayEnd_keep
      | apply peerAcked_keep | fail_if_no_progress apply Keep.upd | dsimp only | split

theorem execCarriageRetransmit_keep (e : Stim) (t : Nat) (fseq : Nat) (s : State) :
    KeepO (s.advance e) (execCarriageRetransmit e t fseq s) := by
  unfold execCarriageRetransmit
  apply event_keep
  generalize s.advance e = b0
  intro t ht
  with_reducible
    repeat' first
      | assumption | intro _ | apply tenResend_keep | apply peerResend_keep | fail_if_no_progress apply Keep.upd
      | dsimp only | split

end Sys2Proof.Machine
end

