-- ==== Sys2Proof/Laws/KeepExec.lean ====
section
/-!
SUPPORT. Every command, after its elapsed time, answers a next state that keeps what Keep names.
-/

namespace Sys2Proof.Machine

/-- Every command answers a next state that keeps what has been kept since its elapsed time. -/
theorem exec_keep (i : Instr) (s : State) : ∃ e, KeepO (s.advance e) (exec i s) := by
  cases i with
  | sysEcho e r => exact ⟨e, execSysEcho_keep e r s⟩
  | sysCancel e r => exact ⟨e, execSysCancel_keep e r s⟩
  | sysIdentity e r => exact ⟨e, execSysIdentity_keep e r s⟩
  | sysLimits e r => exact ⟨e, execSysLimits_keep e r s⟩
  | sysIslandCtl e r => exact ⟨e, execSysIslandCtl_keep e r s⟩
  | sysIslandStatus e r => exact ⟨e, execSysIslandStatus_keep e r s⟩
  | tenCreate e r => exact ⟨e, execTenCreate_keep e r s⟩
  | tenDelete e r => exact ⟨e, execTenDelete_keep e r s⟩
  | tenQuery e r => exact ⟨e, execTenQuery_keep e r s⟩
  | tenShare e r => exact ⟨e, execTenShare_keep e r s⟩
  | tenRights e r => exact ⟨e, execTenRights_keep e r s⟩
  | tenReset e r => exact ⟨e, execTenReset_keep e r s⟩
  | tenBind e r => exact ⟨e, execTenBind_keep e r s⟩
  | tenResume e r => exact ⟨e, execTenResume_keep e r s⟩
  | tenViCreate e r => exact ⟨e, execTenViCreate_keep e r s⟩
  | tenViDelete e r => exact ⟨e, execTenViDelete_keep e r s⟩
  | tenViReset e r => exact ⟨e, execTenViReset_keep e r s⟩
  | tenViQuery e r => exact ⟨e, execTenViQuery_keep e r s⟩
  | tenIslandEnable e r => exact ⟨e, execTenIslandEnable_keep e r s⟩
  | queConfig e r => exact ⟨e, execQueConfig_keep e r s⟩
  | queFlush e r => exact ⟨e, execQueFlush_keep e r s⟩
  | queStatus e r => exact ⟨e, execQueStatus_keep e r s⟩
  | queLevel e r => exact ⟨e, execQueLevel_keep e r s⟩
  | queClear e r => exact ⟨e, execQueClear_keep e r s⟩
  | pwrConfig e r => exact ⟨e, execPwrConfig_keep e r s⟩
  | pwrReadConfig e r => exact ⟨e, execPwrReadConfig_keep e r s⟩
  | pwrAssign e r => exact ⟨e, execPwrAssign_keep e r s⟩
  | pwrSwitch e r => exact ⟨e, execPwrSwitch_keep e r s⟩
  | pwrDuty e r => exact ⟨e, execPwrDuty_keep e r s⟩
  | pwrClear e r => exact ⟨e, execPwrClear_keep e r s⟩
  | pwrStatus e r => exact ⟨e, execPwrStatus_keep e r s⟩
  | purWire e r => exact ⟨e, execPurWire_keep e r s⟩
  | purReadWire e r => exact ⟨e, execPurReadWire_keep e r s⟩
  | purStatus e r => exact ⟨e, execPurStatus_keep e r s⟩
  | purChannel e r => exact ⟨e, execPurChannel_keep e r s⟩
  | purLimits e r => exact ⟨e, execPurLimits_keep e r s⟩
  | lmpPolicy e r => exact ⟨e, execLmpPolicy_keep e r s⟩
  | lmpReclaim e r => exact ⟨e, execLmpReclaim_keep e r s⟩
  | lmpStatus e r => exact ⟨e, execLmpStatus_keep e r s⟩
  | lmpReadPolicy e r => exact ⟨e, execLmpReadPolicy_keep e r s⟩
  | lmpEnter e r => exact ⟨e, execLmpEnter_keep e r s⟩
  | fioInConfig e r => exact ⟨e, execFioInConfig_keep e r s⟩
  | fioReadConfig e r => exact ⟨e, execFioReadConfig_keep e r s⟩
  | fioAssign e r => exact ⟨e, execFioAssign_keep e r s⟩
  | fioOutConfig e r => exact ⟨e, execFioOutConfig_keep e r s⟩
  | fioInState e r => exact ⟨e, execFioInState_keep e r s⟩
  | fioEdges e r => exact ⟨e, execFioEdges_keep e r s⟩
  | fioOut e r => exact ⟨e, execFioOut_keep e r s⟩
  | fioOutClear e r => exact ⟨e, execFioOutClear_keep e r s⟩
  | fioOutStatus e r => exact ⟨e, execFioOutStatus_keep e r s⟩
  | meaAiConfig e r => exact ⟨e, execMeaAiConfig_keep e r s⟩
  | meaSeqAssign e r => exact ⟨e, execMeaSeqAssign_keep e r s⟩
  | meaSeqConfig e r => exact ⟨e, execMeaSeqConfig_keep e r s⟩
  | meaRun e r => exact ⟨e, execMeaRun_keep e r s⟩
  | meaResults e r => exact ⟨e, execMeaResults_keep e r s⟩
  | meaConvert e r => exact ⟨e, execMeaConvert_keep e r s⟩
  | timNow e r => exact ⟨e, execTimNow_keep e r s⟩
  | timStatus e r => exact ⟨e, execTimStatus_keep e r s⟩
  | timDomain e r => exact ⟨e, execTimDomain_keep e r s⟩
  | timSet e r => exact ⟨e, execTimSet_keep e r s⟩
  | timPortlat e r => exact ⟨e, execTimPortlat_keep e r s⟩
  | timPps e r => exact ⟨e, execTimPps_keep e r s⟩
  | timPpsin e r => exact ⟨e, execTimPpsin_keep e r s⟩
  | timTrigAssign e r => exact ⟨e, execTimTrigAssign_keep e r s⟩
  | timTrigConfig e r => exact ⟨e, execTimTrigConfig_keep e r s⟩
  | timTrigArm e r => exact ⟨e, execTimTrigArm_keep e r s⟩
  | timTrigStatus e r => exact ⟨e, execTimTrigStatus_keep e r s⟩
  | timTxqAssign e r => exact ⟨e, execTimTxqAssign_keep e r s⟩
  | timTxstamps e r => exact ⟨e, execTimTxstamps_keep e r s⟩
  | timAlarm e r => exact ⟨e, execTimAlarm_keep e r s⟩
  | timCanref e r => exact ⟨e, execTimCanref_keep e r s⟩
  | netPortConfig e r => exact ⟨e, execNetPortConfig_keep e r s⟩
  | netPortCtl e r => exact ⟨e, execNetPortCtl_keep e r s⟩
  | netQueueConfig e r => exact ⟨e, execNetQueueConfig_keep e r s⟩
  | netVlan e r => exact ⟨e, execNetVlan_keep e r s⟩
  | netEtype e r => exact ⟨e, execNetEtype_keep e r s⟩
  | netFdbAdd e r => exact ⟨e, execNetFdbAdd_keep e r s⟩
  | netFdbDel e r => exact ⟨e, execNetFdbDel_keep e r s⟩
  | netFdbFlush e r => exact ⟨e, execNetFdbFlush_keep e r s⟩
  | netFdbLookup e r => exact ⟨e, execNetFdbLookup_keep e r s⟩
  | netFdbAge e r => exact ⟨e, execNetFdbAge_keep e r s⟩
  | netPortStatus e r => exact ⟨e, execNetPortStatus_keep e r s⟩
  | netCounters e r => exact ⟨e, execNetCounters_keep e r s⟩
  | netBuffer e r => exact ⟨e, execNetBuffer_keep e r s⟩
  | tsnCsOpen e r => exact ⟨e, execTsnCsOpen_keep e r s⟩
  | tsnCsCommit e r => exact ⟨e, execTsnCsCommit_keep e r s⟩
  | tsnCsAbort e r => exact ⟨e, execTsnCsAbort_keep e r s⟩
  | tsnStream e r => exact ⟨e, execTsnStream_keep e r s⟩
  | tsnStreamRead e r => exact ⟨e, execTsnStreamRead_keep e r s⟩
  | tsnStreamStatus e r => exact ⟨e, execTsnStreamStatus_keep e r s⟩
  | tsnStreamClear e r => exact ⟨e, execTsnStreamClear_keep e r s⟩
  | tsnGcl e r => exact ⟨e, execTsnGcl_keep e r s⟩
  | tsnCbs e r => exact ⟨e, execTsnCbs_keep e r s⟩
  | tsnPortStatus e r => exact ⟨e, execTsnPortStatus_keep e r s⟩
  | tsnMacsecPort e r => exact ⟨e, execTsnMacsecPort_keep e r s⟩
  | tsnSa e r => exact ⟨e, execTsnSa_keep e r s⟩
  | tsnRxsc e r => exact ⟨e, execTsnRxsc_keep e r s⟩
  | tsnTxsaSelect e r => exact ⟨e, execTsnTxsaSelect_keep e r s⟩
  | tsnMacsecStatus e r => exact ⟨e, execTsnMacsecStatus_keep e r s⟩
  | busAssign e r => exact ⟨e, execBusAssign_keep e r s⟩
  | busCtl e r => exact ⟨e, execBusCtl_keep e r s⟩
  | busCanConfig e r => exact ⟨e, execBusCanConfig_keep e r s⟩
  | busCanFilter e r => exact ⟨e, execBusCanFilter_keep e r s⟩
  | busCanStatus e r => exact ⟨e, execBusCanStatus_keep e r s⟩
  | busCanTx e r => exact ⟨e, execBusCanTx_keep e r s⟩
  | busCanRx e r => exact ⟨e, execBusCanRx_keep e r s⟩
  | busCanTxe e r => exact ⟨e, execBusCanTxe_keep e r s⟩
  | busLinConfig e r => exact ⟨e, execBusLinConfig_keep e r s⟩
  | busLinFrames e r => exact ⟨e, execBusLinFrames_keep e r s⟩
  | busLinSchedule e r => exact ⟨e, execBusLinSchedule_keep e r s⟩
  | busLinRun e r => exact ⟨e, execBusLinRun_keep e r s⟩
  | busLinData e r => exact ⟨e, execBusLinData_keep e r s⟩
  | busLinRead e r => exact ⟨e, execBusLinRead_keep e r s⟩
  | busLinStatus e r => exact ⟨e, execBusLinStatus_keep e r s⟩
  | busLinSleep e r => exact ⟨e, execBusLinSleep_keep e r s⟩
  | busLinWake e r => exact ⟨e, execBusLinWake_keep e r s⟩
  | gwyRoute e r => exact ⟨e, execGwyRoute_keep e r s⟩
  | gwyRouteRead e r => exact ⟨e, execGwyRouteRead_keep e r s⟩
  | gwyAcf e r => exact ⟨e, execGwyAcf_keep e r s⟩
  | gwyAcfStatus e r => exact ⟨e, execGwyAcfStatus_keep e r s⟩
  | gwyQueue e r => exact ⟨e, execGwyQueue_keep e r s⟩
  | gwyStatus e r => exact ⟨e, execGwyStatus_keep e r s⟩
  | nmgRingConfig e r => exact ⟨e, execNmgRingConfig_keep e r s⟩
  | nmgCluster e r => exact ⟨e, execNmgCluster_keep e r s⟩
  | nmgRequest e r => exact ⟨e, execNmgRequest_keep e r s⟩
  | nmgStatus e r => exact ⟨e, execNmgStatus_keep e r s⟩
  | nmgWakeConfig e r => exact ⟨e, execNmgWakeConfig_keep e r s⟩
  | nmgWakeCause e r => exact ⟨e, execNmgWakeCause_keep e r s⟩
  | cpuPartConfig e r => exact ⟨e, execCpuPartConfig_keep e r s⟩
  | cpuPartCtl e r => exact ⟨e, execCpuPartCtl_keep e r s⟩
  | cpuPartStatus e r => exact ⟨e, execCpuPartStatus_keep e r s⟩
  | cpuPairStatus e r => exact ⟨e, execCpuPairStatus_keep e r s⟩
  | cpuDebug e r => exact ⟨e, execCpuDebug_keep e r s⟩
  | cpuResync e r => exact ⟨e, execCpuResync_keep e r s⟩
  | cpuInject e r => exact ⟨e, execCpuInject_keep e r s⟩
  | cpuMemStatus e r => exact ⟨e, execCpuMemStatus_keep e r s⟩
  | vltStatus e r => exact ⟨e, execVltStatus_keep e r s⟩
  | vltConfig e r => exact ⟨e, execVltConfig_keep e r s⟩
  | vltMboxAssign e r => exact ⟨e, execVltMboxAssign_keep e r s⟩
  | vltRestart e r => exact ⟨e, execVltRestart_keep e r s⟩
  | vltMeasure e r => exact ⟨e, execVltMeasure_keep e r s⟩
  | vltRandom e r => exact ⟨e, execVltRandom_keep e r s⟩
  | vltHash e r => exact ⟨e, execVltHash_keep e r s⟩
  | vltMac e r => exact ⟨e, execVltMac_keep e r s⟩
  | vltCipher e r => exact ⟨e, execVltCipher_keep e r s⟩
  | vltAead e r => exact ⟨e, execVltAead_keep e r s⟩
  | vltSign e r => exact ⟨e, execVltSign_keep e r s⟩
  | vltVerify e r => exact ⟨e, execVltVerify_keep e r s⟩
  | vltKex e r => exact ⟨e, execVltKex_keep e r s⟩
  | vltKeyGen e r => exact ⟨e, execVltKeyGen_keep e r s⟩
  | vltKeyImport e r => exact ⟨e, execVltKeyImport_keep e r s⟩
  | vltKeyPublic e r => exact ⟨e, execVltKeyPublic_keep e r s⟩
  | vltKeyDelete e r => exact ⟨e, execVltKeyDelete_keep e r s⟩
  | vltKeyInfo e r => exact ⟨e, execVltKeyInfo_keep e r s⟩
  | vltCert e r => exact ⟨e, execVltCert_keep e r s⟩
  | vltLcNonce e r => exact ⟨e, execVltLcNonce_keep e r s⟩
  | vltLcAdvance e r => exact ⟨e, execVltLcAdvance_keep e r s⟩
  | stoFormat e r => exact ⟨e, execStoFormat_keep e r s⟩
  | stoVolConfig e r => exact ⟨e, execStoVolConfig_keep e r s⟩
  | stoStatus e r => exact ⟨e, execStoStatus_keep e r s⟩
  | stoRead e r => exact ⟨e, execStoRead_keep e r s⟩
  | stoWrite e r => exact ⟨e, execStoWrite_keep e r s⟩
  | stoTrim e r => exact ⟨e, execStoTrim_keep e r s⟩
  | stoGroupOpen e r => exact ⟨e, execStoGroupOpen_keep e r s⟩
  | stoGroupCommit e r => exact ⟨e, execStoGroupCommit_keep e r s⟩
  | stoGroupAbort e r => exact ⟨e, execStoGroupAbort_keep e r s⟩
  | stoEscrowConfig e r => exact ⟨e, execStoEscrowConfig_keep e r s⟩
  | stoEscrowStatus e r => exact ⟨e, execStoEscrowStatus_keep e r s⟩
  | stoEscrowMeasure e r => exact ⟨e, execStoEscrowMeasure_keep e r s⟩
  | stoPatrol e r => exact ⟨e, execStoPatrol_keep e r s⟩
  | logStatus e r => exact ⟨e, execLogStatus_keep e r s⟩
  | logRead e r => exact ⟨e, execLogRead_keep e r s⟩
  | logCheckpoint e r => exact ⟨e, execLogCheckpoint_keep e r s⟩
  | logWrite e r => exact ⟨e, execLogWrite_keep e r s⟩
  | imgOffer e r => exact ⟨e, execImgOffer_keep e r s⟩
  | imgData e r => exact ⟨e, execImgData_keep e r s⟩
  | imgClose e r => exact ⟨e, execImgClose_keep e r s⟩
  | imgConfirm e r => exact ⟨e, execImgConfirm_keep e r s⟩
  | imgActivate e r => exact ⟨e, execImgActivate_keep e r s⟩
  | imgRevert e r => exact ⟨e, execImgRevert_keep e r s⟩
  | imgStatus e r => exact ⟨e, execImgStatus_keep e r s⟩
  | imgPeer e r => exact ⟨e, execImgPeer_keep e r s⟩
  | imgAbort e r => exact ⟨e, execImgAbort_keep e r s⟩
  | imgConfig e r => exact ⟨e, execImgConfig_keep e r s⟩
  | tstAuditRun e r => exact ⟨e, execTstAuditRun_keep e r s⟩
  | tstSummary e r => exact ⟨e, execTstSummary_keep e r s⟩
  | tstDetail e r => exact ⟨e, execTstDetail_keep e r s⟩
  | tstFaultStatus e r => exact ⟨e, execTstFaultStatus_keep e r s⟩
  | tstFaultClear e r => exact ⟨e, execTstFaultClear_keep e r s⟩
  | tstFaultMask e r => exact ⟨e, execTstFaultMask_keep e r s⟩
  | doorbell e who t q value => exact ⟨e, execDoorbell_keep e who t q value s⟩
  | flush e who t q value => exact ⟨e, execFlush_keep e who t q value s⟩
  | qStatusClear e who t q value => exact ⟨e, execQStatusClear_keep e who t q value s⟩
  | registerWrite e who addr width value => exact ⟨e, execRegisterWrite_keep e who addr width value s⟩
  | dispatch e => exact ⟨e, execDispatch_keep e s⟩
  | notbeforeReached e => exact ⟨e, execNotbeforeReached_keep e s⟩
  | heldReplyPosted e t => exact ⟨e, execHeldReplyPosted_keep e t s⟩
  | pointerCheck e t q prod ptr inv => exact ⟨e, execPointerCheck_keep e t q prod ptr inv s⟩
  | carriageFrameReceived e f => exact ⟨e, execCarriageFrameReceived_keep e f s⟩
  | carriageSend e t => exact ⟨e, execCarriageSend_keep e t s⟩
  | carriageRetransmit e t fseq => exact ⟨e, execCarriageRetransmit_keep e t fseq s⟩
  | tenResetDone e t => exact ⟨e, execTenResetDone_keep e t s⟩
  | viResetComplete e kind idx => exact ⟨e, execViResetComplete_keep e kind idx s⟩
  | clockLoss e isl => exact ⟨e, execClockLoss_keep e isl s⟩
  | clockReturn e isl => exact ⟨e, execClockReturn_keep e isl s⟩
  | quiescenceReached e fn => exact ⟨e, execQuiescenceReached_keep e fn s⟩
  | forcedShutdown e fn => exact ⟨e, execForcedShutdown_keep e fn s⟩
  | islandRunReached e fn => exact ⟨e, execIslandRunReached_keep e fn s⟩
  | slewStart e ch => exact ⟨e, execSlewStart_keep e ch s⟩
  | turnOnSlewEnd e ch => exact ⟨e, execTurnOnSlewEnd_keep e ch s⟩
  | turnOffSlewEnd e ch => exact ⟨e, execTurnOffSlewEnd_keep e ch s⟩
  | inrushWindowEnd e ch => exact ⟨e, execInrushWindowEnd_keep e ch s⟩
  | overcurrentTrip e ch => exact ⟨e, execOvercurrentTrip_keep e ch s⟩
  | shortCircuitTrip e ch => exact ⟨e, execShortCircuitTrip_keep e ch s⟩
  | thermalLatchSet e sw => exact ⟨e, execThermalLatchSet_keep e sw s⟩
  | thermalLatchRelease e sw => exact ⟨e, execThermalLatchRelease_keep e sw s⟩
  | wireTrip e ch => exact ⟨e, execWireTrip_keep e ch s⟩
  | wireLatchRelease e ch => exact ⟨e, execWireLatchRelease_keep e ch s⟩
  | reverseCurrent e ch present => exact ⟨e, execReverseCurrent_keep e ch present s⟩
  | driverFault e ch => exact ⟨e, execDriverFault_keep e ch s⟩
  | blockCheck e ch wire found => exact ⟨e, execBlockCheck_keep e ch wire found s⟩
  | retryDue e ch => exact ⟨e, execRetryDue_keep e ch s⟩
  | onStableReload e ch => exact ⟨e, execOnStableReload_keep e ch s⟩
  | openLoadCount e ch below => exact ⟨e, execOpenLoadCount_keep e ch below s⟩
  | offStateCycle e ch aboveIpu aboveNone => exact ⟨e, execOffStateCycle_keep e ch aboveIpu aboveNone s⟩
  | pwmPeriodBoundary e ch => exact ⟨e, execPwmPeriodBoundary_keep e ch s⟩
  | feedLoss e die => exact ⟨e, execFeedLoss_keep e die s⟩
  | feedReturn e die => exact ⟨e, execFeedReturn_keep e die s⟩
  | purseEvaluation e => exact ⟨e, execPurseEvaluation_keep e s⟩
  | overdrawWindowEnd e ch n => exact ⟨e, execOverdrawWindowEnd_keep e ch n s⟩
  | yarrowEntry e die cause => exact ⟨e, execYarrowEntry_keep e die cause s⟩
  | heartbeatLoss e die => exact ⟨e, execHeartbeatLoss_keep e die s⟩
  | logicResetIndication e => exact ⟨e, execLogicResetIndication_keep e s⟩
  | limpNLow e => exact ⟨e, execLimpNLow_keep e s⟩
  | safeNLow e => exact ⟨e, execSafeNLow_keep e s⟩
  | linkLostDeclared e die => exact ⟨e, execLinkLostDeclared_keep e die s⟩
  | holdExpiry e ch => exact ⟨e, execHoldExpiry_keep e ch s⟩
  | lhPinChange e die pin level => exact ⟨e, execLhPinChange_keep e die pin level s⟩
  | reclaimComplete e => exact ⟨e, execReclaimComplete_keep e s⟩
  | fieldOutputSwitch e fo => exact ⟨e, execFieldOutputSwitch_keep e fo s⟩
  | fieldOutputLimit e fo => exact ⟨e, execFieldOutputLimit_keep e fo s⟩
  | fieldOutputThermal e fo => exact ⟨e, execFieldOutputThermal_keep e fo s⟩
  | fieldOutputThermalRelease e fo => exact ⟨e, execFieldOutputThermalRelease_keep e fo s⟩
  | fieldOutputDriverFault e fo => exact ⟨e, execFieldOutputDriverFault_keep e fo s⟩
  | fieldOutputOpenLoad e fo below => exact ⟨e, execFieldOutputOpenLoad_keep e fo below s⟩
  | rawTransition e fi v => exact ⟨e, execRawTransition_keep e fi v s⟩
  | debounceExpiry e fi => exact ⟨e, execDebounceExpiry_keep e fi s⟩
  | countWindowPublish e fi => exact ⟨e, execCountWindowPublish_keep e fi s⟩
  | sequenceTrigger e seq => exact ⟨e, execSequenceTrigger_keep e seq s⟩
  | sequenceRunEnd e seq codes => exact ⟨e, execSequenceRunEnd_keep e seq codes s⟩
  | syncReceived e inst offset gm port => exact ⟨e, execSyncReceived_keep e inst offset gm port s⟩
  | syncTimeout e => exact ⟨e, execSyncTimeout_keep e s⟩
  | holdoverExpiry e => exact ⟨e, execHoldoverExpiry_keep e s⟩
  | tnsWrap e => exact ⟨e, execTnsWrap_keep e s⟩
  | secondWindowEnd e => exact ⟨e, execSecondWindowEnd_keep e s⟩
  | triggerFiring e tt => exact ⟨e, execTriggerFiring_keep e tt s⟩
  | tallyAlarmFire e => exact ⟨e, execTallyAlarmFire_keep e s⟩
  | ppsOutPulse e => exact ⟨e, execPpsOutPulse_keep e s⟩
  | ppsInEdge e => exact ⟨e, execPpsInEdge_keep e s⟩
  | canrefFup e can => exact ⟨e, execCanrefFup_keep e can s⟩
  | frameReceived e fs => exact ⟨e, execFrameReceived_keep e fs s⟩
  | frameQueued e id => exact ⟨e, execFrameQueued_keep e id s⟩
  | transmissionStart e port => exact ⟨e, execTransmissionStart_keep e port s⟩
  | transmissionEnd e port => exact ⟨e, execTransmissionEnd_keep e port s⟩
  | linkDown e port => exact ⟨e, execLinkDown_keep e port s⟩
  | linkUp e port => exact ⟨e, execLinkUp_keep e port s⟩
  | holdExpire e port => exact ⟨e, execHoldExpire_keep e port s⟩
  | fdbAgeing e mac vid => exact ⟨e, execFdbAgeing_keep e mac vid s⟩
  | sqpWrite e who kind idx sqp => exact ⟨e, execSqpWrite_keep e who kind idx sqp s⟩
  | transferComplete e d badAt => exact ⟨e, execTransferComplete_keep e d badAt s⟩
  | gateEntryChange e gk => exact ⟨e, execGateEntryChange_keep e gk s⟩
  | changeSetSwitch e => exact ⟨e, execChangeSetSwitch_keep e s⟩
  | gateListSwitch e gk => exact ⟨e, execGateListSwitch_keep e gk s⟩
  | changeSetComplete e => exact ⟨e, execChangeSetComplete_keep e s⟩
  | recoveryReset e sid => exact ⟨e, execRecoveryReset_keep e sid s⟩
  | txfPut e who can value => exact ⟨e, execTxfPut_keep e who can value s⟩
  | txbReq e who can value => exact ⟨e, execTxbReq_keep e who can value s⟩
  | txbCancel e who can value => exact ⟨e, execTxbCancel_keep e who can value s⟩
  | txbDoneClear e who can value => exact ⟨e, execTxbDoneClear_keep e who can value s⟩
  | flagsClear e who can value => exact ⟨e, execFlagsClear_keep e who can value s⟩
  | messageRamWrite e who can off value => exact ⟨e, execMessageRamWrite_keep e who can off value s⟩
  | txeHeadRead e who can => exact ⟨e, execTxeHeadRead_keep e who can s⟩
  | headerWord0Read e who can buf => exact ⟨e, execHeaderWord0Read_keep e who can buf s⟩
  | lastWordRead e who can buf => exact ⟨e, execLastWordRead_keep e who can buf s⟩
  | lockExpiry e can => exact ⟨e, execLockExpiry_keep e can s⟩
  | canFrameReceived e can f ago => exact ⟨e, execCanFrameReceived_keep e can f ago s⟩
  | canArbitration e can => exact ⟨e, execCanArbitration_keep e can s⟩
  | canTransmitOutcome e can outcome tdcv => exact ⟨e, execCanTransmitOutcome_keep e can outcome tdcv s⟩
  | canError e can lec tx alt => exact ⟨e, execCanError_keep e can lec tx alt s⟩
  | busOffRecovery e can => exact ⟨e, execBusOffRecovery_keep e can s⟩
  | lonePauseEnd e can => exact ⟨e, execLonePauseEnd_keep e can s⟩
  | linSlotStart e lin => exact ⟨e, execLinSlotStart_keep e lin s⟩
  | linResponseEnd e lin status data => exact ⟨e, execLinResponseEnd_keep e lin status data s⟩
  | linResponderSleep e lin => exact ⟨e, execLinResponderSleep_keep e lin s⟩
  | linWakeDetect e lin => exact ⟨e, execLinWakeDetect_keep e lin s⟩
  | gatewayLookup e => exact ⟨e, execGatewayLookup_keep e s⟩
  | acfPduSend e ctx => exact ⟨e, execAcfPduSend_keep e ctx s⟩
  | acfPduReceived e pdu => exact ⟨e, execAcfPduReceived_keep e pdu s⟩
  | ringMessageReceived e ring m => exact ⟨e, execRingMessageReceived_keep e ring m s⟩
  | ringSend e ring => exact ⟨e, execRingSend_keep e ring s⟩
  | ringSilence e ring => exact ⟨e, execRingSilence_keep e ring s⟩
  | aliveSend e ring => exact ⟨e, execAliveSend_keep e ring s⟩
  | veto e ring => exact ⟨e, execVeto_keep e ring s⟩
  | prepareEnd e ring => exact ⟨e, execPrepareEnd_keep e ring s⟩
  | releaseComplete e ring => exact ⟨e, execReleaseComplete_keep e ring s⟩
  | clusterFrameReceived e ring node m => exact ⟨e, execClusterFrameReceived_keep e ring node m s⟩
  | clusterFrameSend e ring => exact ⟨e, execClusterFrameSend_keep e ring s⟩
  | pnSleepEntry e ring => exact ⟨e, execPnSleepEntry_keep e ring s⟩
  | pntoExpiry e ring => exact ⟨e, execPntoExpiry_keep e ring s⟩
  | wake e cause idx => exact ⟨e, execWake_keep e cause idx s⟩
  | decoderSilence e can => exact ⟨e, execDecoderSilence_keep e can s⟩
  | partitionStart e p => exact ⟨e, execPartitionStart_keep e p s⟩
  | comparatorTrip e pair cause => exact ⟨e, execComparatorTrip_keep e pair cause s⟩
  | injectedMismatchTest e pair pass => exact ⟨e, execInjectedMismatchTest_keep e pair pass s⟩
  | stateSignatureSweep e pair equal => exact ⟨e, execStateSignatureSweep_keep e pair equal s⟩
  | resyncHandover e pair ok => exact ⟨e, execResyncHandover_keep e pair ok s⟩
  | coreStorageError e pc => exact ⟨e, execCoreStorageError_keep e pc s⟩
  | debugHaltRequest e hart => exact ⟨e, execDebugHaltRequest_keep e hart s⟩
  | patrolRead e addr kind => exact ⟨e, execPatrolRead_keep e addr kind s⟩
  | uncorrectableRead e who addr => exact ⟨e, execUncorrectableRead_keep e who addr s⟩
  | tallyRead e hart => exact ⟨e, execTallyRead_keep e hart s⟩
  | csrWriteTrap e hart csr => exact ⟨e, execCsrWriteTrap_keep e hart csr s⟩
  | accessRefused e who addr kind => exact ⟨e, execAccessRefused_keep e who addr kind s⟩
  | ecall e hart => exact ⟨e, execEcall_keep e hart s⟩
  | wmRaise e idx value => exact ⟨e, execWmRaise_keep e idx value s⟩
  | wmLower e idx value => exact ⟨e, execWmLower_keep e idx value s⟩
  | wmRefusedClear e idx value => exact ⟨e, execWmRefusedClear_keep e idx value s⟩
  | zeroiseComplete e idx => exact ⟨e, execZeroiseComplete_keep e idx s⟩
  | vgateStore e hart width value x => exact ⟨e, execVgateStore_keep e hart width value x s⟩
  | gateReturn e hart => exact ⟨e, execGateReturn_keep e hart s⟩
  | mbPost e who slot => exact ⟨e, execMbPost_keep e who slot s⟩
  | mbRelease e who slot => exact ⟨e, execMbRelease_keep e who slot s⟩
  | mailboxServe e => exact ⟨e, execMailboxServe_keep e s⟩
  | mailboxDone e => exact ⟨e, execMailboxDone_keep e s⟩
  | vaultRestart e cause => exact ⟨e, execVaultRestart_keep e cause s⟩
  | vaultHang e => exact ⟨e, execVaultHang_keep e s⟩
  | vaultRunning e digest => exact ⟨e, execVaultRunning_keep e digest s⟩
  | drbgReseed e failed => exact ⟨e, execDrbgReseed_keep e failed s⟩
  | fuseWriteComplete e => exact ⟨e, execFuseWriteComplete_keep e s⟩
  | vaultClaimRelease e => exact ⟨e, execVaultClaimRelease_keep e s⟩
  | idread e => exact ⟨e, execIdread_keep e s⟩
  | dbgnonce e => exact ⟨e, execDbgnonce_keep e s⟩
  | dbgauth e token => exact ⟨e, execDbgauth_keep e token s⟩
  | dbgend e => exact ⟨e, execDbgend_keep e s⟩
  | stxStart e device good perBlock => exact ⟨e, execStxStart_keep e device good perBlock s⟩
  | escrowEvaluation e => exact ⟨e, execEscrowEvaluation_keep e s⟩
  | pageProgramEnd e cmd => exact ⟨e, execPageProgramEnd_keep e cmd s⟩
  | journalRecordEnd e cmd => exact ⟨e, execJournalRecordEnd_keep e cmd s⟩
  | commitTimeout e cmd => exact ⟨e, execCommitTimeout_keep e cmd s⟩
  | bankSample e mv => exact ⟨e, execBankSample_keep e mv s⟩
  | escrowMeasureEnd e drop => exact ⟨e, execEscrowMeasureEnd_keep e drop s⟩
  | programFailure e vol page => exact ⟨e, execProgramFailure_keep e vol page s⟩
  | nandPatrol e vol page result => exact ⟨e, execNandPatrol_keep e vol page result s⟩
  | wearLevelMove e => exact ⟨e, execWearLevelMove_keep e s⟩
  | ledgerPersist e => exact ⟨e, execLedgerPersist_keep e s⟩
  | checkpointSign e => exact ⟨e, execCheckpointSign_keep e s⟩
  | installComplete e xfr => exact ⟨e, execInstallComplete_keep e xfr s⟩
  | relayStart e comp => exact ⟨e, execRelayStart_keep e comp s⟩
  | relayOutcome e comp status => exact ⟨e, execRelayOutcome_keep e comp status s⟩
  | relayRetry e comp => exact ⟨e, execRelayRetry_keep e comp s⟩
  | transferAbandon e xfr => exact ⟨e, execTransferAbandon_keep e xfr s⟩
  | activationComplete e comp => exact ⟨e, execActivationComplete_keep e comp s⟩
  | healthWindowEnd e comp => exact ⟨e, execHealthWindowEnd_keep e comp s⟩
  | auditBlockTest e fails rom => exact ⟨e, execAuditBlockTest_keep e fails rom s⟩
  | auditConditionCheck e supplyMv refKhz => exact ⟨e, execAuditConditionCheck_keep e supplyMv refKhz s⟩
  | auditEnd e => exact ⟨e, execAuditEnd_keep e s⟩
  | tellerPairTrip e tp cmds => exact ⟨e, execTellerPairTrip_keep e tp cmds s⟩
  | tellerPairRejoin e tp => exact ⟨e, execTellerPairRejoin_keep e tp s⟩
  | sleepEntry e => exact ⟨e, execSleepEntry_keep e s⟩
  | sleepEntryCheck e => exact ⟨e, execSleepEntryCheck_keep e s⟩
  | sleepReached e => exact ⟨e, execSleepReached_keep e s⟩
  | dormantEntry e => exact ⟨e, execDormantEntry_keep e s⟩
  | start e kind => exact ⟨e, execStart_keep e kind s⟩
  | brownout e => exact ⟨e, execBrownout_keep e s⟩
  | vetchFrameError e die => exact ⟨e, execVetchFrameError_keep e die s⟩
  | safeNHigh e => exact ⟨e, execSafeNHigh_keep e s⟩
  | heartbeatRestored e die => exact ⟨e, execHeartbeatRestored_keep e die s⟩
  | keyInactive e => exact ⟨e, execKeyInactive_keep e s⟩
  | becomesGrandmaster e => exact ⟨e, execBecomesGrandmaster_keep e s⟩
  | ppsOutFall e => exact ⟨e, execPpsOutFall_keep e s⟩
  | linHeaderReceived e lin id ok ago => exact ⟨e, execLinHeaderReceived_keep e lin id ok ago s⟩
  | formatComplete e => exact ⟨e, execFormatComplete_keep e s⟩
  | mediaReadEnd e cmd ok => exact ⟨e, execMediaReadEnd_keep e cmd ok s⟩
  | translationRebuildEnd e => exact ⟨e, execTranslationRebuildEnd_keep e s⟩
  | revertComplete e comp => exact ⟨e, execRevertComplete_keep e comp s⟩
  | phyFirmwareWatchdog e port => exact ⟨e, execPhyFirmwareWatchdog_keep e port s⟩
  | aonSupplyLoss e => exact ⟨e, execAonSupplyLoss_keep e s⟩
  | agedHeadCheck e port => exact ⟨e, execAgedHeadCheck_keep e port s⟩
  | feedBlocked e die => exact ⟨e, execFeedBlocked_keep e die s⟩

end Sys2Proof.Machine
end

