-- ==== Sys2Proof/Laws/Purse.lean ====
section
/-!
SUPPORT. The Purse's withdrawals where nothing waits, and what a channel reads after a channel is set.
-/

namespace Sys2Proof.Machine

theorem withdraw_none {ch : Nat} {s : State} (st : Status) (h : s.req? ch = none) : withdraw ch st s = s := by
  simp [withdraw, h]

theorem dropPend_none {ch : Nat} {s : State} (st : Status) (h : (s.chn ch).pend = none) : dropPend ch st s = s := by
  simp [dropPend, h]

theorem dropSecond_none {ch : Nat} {s : State} (st : Status) (h : (s.chn ch).second = none) :
    dropSecond ch st s = s := by
  simp [dropSecond, h]

theorem closeDuty_none {ch : Nat} {s : State} (h : s.req? ch = none) : closeDuty ch s = s := by
  simp [closeDuty, h]

/-- No request of any channel waits in an empty queue. -/
theorem req_none {ch : Nat} {s : State} (h : s.pur.queue = []) : s.req? ch = none := by
  simp [State.req?, h]

theorem chn_setChn_ne {s : State} {a b : Nat} (c : Chan) (h : a ≠ b) : (s.setChn b c).chn a = s.chn a := by
  simp [State.setChn, State.chn, look_put_ne _ _ _ h]

/-- A request that fits an empty queue is admitted at once. -/
theorem askFor_yes {r : PReq} {s : State} (hk : r.kind ≠ .duty) (hq : s.pur.queue = []) (hf : fits r s = .yes) :
    askFor r s = (.later, admitReq r s) := by
  simp [askFor, ask, req_none hq, hf, hq, hk]

/-- A turn-on that the Purse admits at once, no duty increase waiting. -/
theorem askOn_later {r : PReq} {s0 s u : State} (hc : s.req? r.ch = none) (h : askFor r s = (.later, u)) :
    askOn r s0 s = (.later, u) := by
  unfold askOn
  simp only [closeDuty_none hc, h]

/-- A turn-on of a channel in OFF that nothing holds back and that fits an empty queue is admitted at once. -/
theorem switchOn_off {ch a d : Nat} {cmd : Option Nat} {s : State} (hb : s.dutyBad ch d = false)
    (hd : s.dieBusy (chDie ch) = false) (ho : s.chOut ch = false) (hq : s.pur.queue = []) (h1 : (s.chn ch).st = .off)
    (h2 : (s.chn ch).limp = false) (h3 : s.hot ch = false) (h4 : (s.chn ch).pend = none)
    (h5 : (s.chn ch).second = none) (h6 : (s.chn ch).storedBad = false)
    (hf : fits { ch := ch, kind := .turnOn, at_ := s.clk, duty := d, action := a, cmd := cmd } s = .yes) :
    switchOn ch a d cmd none s =
      (.later, admitReq { ch := ch, kind := .turnOn, at_ := s.clk, duty := d, action := a, cmd := cmd } s) := by
  have q := req_none (ch := ch) hq
  have k : switchOn ch a d cmd none s =
      askOn { ch := ch, kind := .turnOn, at_ := s.clk, duty := d, action := a, cmd := cmd } s s := by
    unfold switchOn
    simp only [hb, hd, h2, h1, h4, h5, dropPend_none _ h4, dropSecond_none _ h5, h3, q, h6, ho,
      Bool.and_false, Bool.or_self, Bool.false_eq_true, if_false, Option.any_none]
  rw [k]
  exact askOn_later q (askFor_yes (by simp) hq hf)

end Sys2Proof.Machine
end

