-- ==== Sys2Proof/Laws/Reply.lean ====
section
/-!
SUPPORT. What notices, replies and interrupts change: tenants, queues with their slots in the spill regions, commands in
execution, the Ledger and pending interrupts, and nothing else (OnlyReplies); which of them leave the commands in execution alone; and that a command whose
final reply is out is no longer in execution.
-/

namespace Sys2Proof.Machine

theorem OnlyReplies.trans {s u v : State} (h : OnlyReplies s u) (k : OnlyReplies u v) : OnlyReplies s v where
  rest := by
    have a := h.rest
    have b := k.rest
    unfold withReplies at *
    rw [b, a]
  mem a ha := (k.mem a (fun t q hq => by
    have e : (u.queue t q).slotAddr = (s.queue t q).slotAddr := by
      funext i
      simp only [Queue.slotAddr, (h.place t q).1]
    rw [e, (h.place t q).2]
    exact ha t q hq)).trans (h.mem a ha)
  uncorr w hw := h.uncorr w (k.uncorr w hw)
  place t q := ⟨(k.place t q).1.trans (h.place t q).1, (k.place t q).2.trans (h.place t q).2⟩

/-- A change of tenants, commands, the Ledger and interrupts. -/
theorem OnlyReplies.of {s u : State} (h : u = withReplies s u) (hm : u.mem = s.mem) (hu : u.cpu.uncorr = s.cpu.uncorr)
    (hq : u.que = s.que) : OnlyReplies s u :=
  ⟨h, fun _ _ => by rw [hm], fun _ hw => hu ▸ hw, fun t q => by simp only [State.queue, hq, and_self]⟩

theorem OnlyReplies.refl (s : State) : OnlyReplies s s := .of rfl rfl rfl rfl

/-- A change of a queue that leaves it where it is. -/
theorem setQueue_only (s : State) (t q : Nat) (x : Queue) (h1 : x.spill = (s.queue t q).spill)
    (h2 : x.depth = (s.queue t q).depth) : OnlyReplies s (s.setQueue t q x) where
  rest := rfl
  mem _ _ := rfl
  uncorr _ hw := hw
  place u r := by
    by_cases e : qkey u r = qkey t q
    · have e1 : (s.setQueue t q x).queue u r = x := by simp [State.setQueue, State.queue, e]
      have e2 : s.queue u r = s.queue t q := by simp only [State.queue, e]
      rw [e1, e2]
      exact ⟨h1, h2⟩
    · have e1 : (s.setQueue t q x).queue u r = s.queue u r := by
        simp only [State.setQueue, State.queue, look_put_ne _ _ _ e]
      rw [e1]
      exact ⟨rfl, rfl⟩

/-- The slot index that a pointer reaches lies within the queue's depth. -/
theorem idxFrom_lt (x : Queue) (p : BitVec 13) (j : Nat) : x.idxFrom p j < 2 ^ x.depth := by
  simp only [Queue.idxFrom, ptrAdd, ptrOf, BitVec.toNat_ofNat]
  generalize ptrLin x.depth p + j = l
  have h1 : l % 2 ^ x.depth < 2 ^ x.depth := Nat.mod_lt _ (Nat.two_pow_pos _)
  have h2 : l / 2 ^ x.depth % 2 < 2 := Nat.mod_lt _ (by decide)
  have h3 : (l / 2 ^ x.depth % 2 * 4096 + l % 2 ^ x.depth) % 2 ^ 13 % 4096 = l % 2 ^ x.depth % 4096 := by omega
  rw [h3]
  exact Nat.lt_of_le_of_lt (Nat.mod_le _ _) h1

/-- Storing slots changes their places only. -/
theorem storeSlots_only (t q : Nat) (hq : q = 4 ∨ q = 5) (sl : List Slot) (h : ∀ x ∈ sl, x.bytes.length ≤ 64) (s : State) :
    OnlyReplies s (s.storeSlots (s.queue t q) sl) := by
  unfold State.storeSlots
  have key : ∀ (l : List (Slot × Nat)) (u : State), (∀ p ∈ l, p.1.bytes.length ≤ 64) → OnlyReplies s u →
      OnlyReplies s (l.foldl (fun s' p =>
        s'.writeMem ((s.queue t q).slotAddr ((s.queue t q).idxFrom (s.queue t q).prod p.2)) p.1.bytes) u) := by
    intro l
    induction l with
    | nil => exact fun _ _ h => h
    | cons p l ih =>
      intro u hl hu
      refine ih _ (fun z hz => hl z (List.mem_cons_of_mem _ hz)) ⟨?_, ?_, ?_, ?_⟩
      · have a := hu.rest
        unfold withReplies at *
        rw [a]
        rfl
      · intro a ha
        have k := ha t q hq
        have hi := idxFrom_lt (s.queue t q) (s.queue t q).prod p.2
        have hb := hl p List.mem_cons_self
        refine (readByte_writeBytes_out _ _ _ _ ?_).trans (hu.mem a ha)
        simp only [Queue.slotAddr] at k ⊢
        omega
      · intro w hw
        exact hu.uncorr w (List.mem_of_mem_filter hw)
      · exact hu.place
  exact key _ s (fun p hp => h p.1 (List.fst_mem_of_mem_zipIdx hp)) (.refl s)

/-- Appending slots to a reply or notice queue. -/
theorem addSlots_only (t q : Nat) (hq : q = 4 ∨ q = 5) (sl : List Slot) (h : ∀ x ∈ sl, x.bytes.length ≤ 64) (s : State) :
    OnlyReplies s (s.addSlots t q sl) := by
  unfold State.addSlots
  have k := storeSlots_only t q hq sl h s
  refine k.trans (setQueue_only _ _ _ _ ?_ ?_)
  · rw [(k.place t q).1]
    split <;> rfl
  · rw [(k.place t q).2]
    split <;> rfl

/-- Every slot of an item holds at most 64 bytes. -/
theorem cuts_le (n : Nat) : ∀ bs : List Byte, ∀ x ∈ cuts 64 n bs, x.length ≤ 64 := by
  induction n with
  | zero => intro bs x hx; simp [cuts] at hx
  | succ n ih =>
    intro bs x hx
    simp only [cuts, List.mem_cons] at hx
    rcases hx with rfl | hx
    · simp
    · exact ih _ x hx

theorem mkSlots_le (g : Nat) (l : List (List Byte)) (h : ∀ x ∈ l, x.length ≤ 64) : ∀ x ∈ mkSlots g l, x.bytes.length ≤ 64 := by
  cases l with
  | nil => intro x hx; simp [mkSlots] at hx
  | cons b bs =>
    intro x hx
    simp only [mkSlots, List.mem_cons, List.mem_map] at hx
    rcases hx with rfl | ⟨y, hy, rfl⟩
    · exact h _ List.mem_cons_self
    · exact h _ (List.mem_cons_of_mem _ hy)

theorem noticeBytes_length (t n q l m : Nat) (d : List Word) : (noticeBytes t n q l m d).length = 64 := by
  simp [noticeBytes, bytesOf_length, fit]

theorem deliver_only (t i : Nat) (s : State) : OnlyReplies s (deliver t i s) := by
  unfold deliver deliverPart
  dsimp only
  split <;> exact .of rfl rfl rfl rfl

theorem deliverFill_only (t q o : Nat) (s : State) : OnlyReplies s (deliverFill t q o s) := by
  unfold deliverFill
  split
  · exact deliver_only ..
  · split
    · exact deliver_only ..
    · exact .refl s

theorem noticeRaw_only (t n : Nat) (d : List Word) (s : State) : OnlyReplies s (noticeRaw t n d s).1 := by
  unfold noticeRaw
  have h1 : ∀ x, OnlyReplies s (s.setTenant t x) := fun x => .of rfl rfl rfl rfl
  dsimp only
  split
  · exact (h1 _).trans (setQueue_only _ _ _ _ rfl rfl)
  · have h2 : ∀ (u : State) (o : Nat), OnlyReplies u (deliverFill t 5 o (u.setQueue t 5 { u.queue t 5 with lost := 0 })) :=
      fun u o => (setQueue_only u t 5 { u.queue t 5 with lost := 0 } rfl rfl).trans (deliverFill_only ..)
    refine ((h1 _).trans (addSlots_only t 5 (.inr rfl) _ (mkSlots_le _ _ ?_) _)).trans (h2 _ _)
    intro x hx
    rw [List.mem_singleton.1 hx, noticeBytes_length]

theorem noticeOnly_only (t n : Nat) (d : List Word) (s : State) : OnlyReplies s (noticeOnly t n d s) := by
  unfold noticeOnly
  dsimp only
  split
  · exact .refl s
  · split
    · exact (noticeRaw_only t n d s).trans (noticeRaw_only ..)
    · exact noticeRaw_only ..

theorem notice_only (t n : Nat) (d : List Word) (s : State) : OnlyReplies s (notice t n d s) := by
  unfold notice
  dsimp only
  split
  · exact .of rfl rfl rfl rfl
  · exact noticeOnly_only ..

theorem postItem_only (t q : Nat) (hq : q = 4 ∨ q = 5) (sl : List Slot) (h : ∀ x ∈ sl, x.bytes.length ≤ 64) (s : State) :
    OnlyReplies s (postItem t q sl s) := by
  unfold postItem
  dsimp only
  have k := (addSlots_only t q hq sl h s).trans (deliverFill_only t q (s.queue t q).occ _)
  split
  · exact k.trans (notice_only ..)
  · exact k

theorem dropCmd_only (id : Nat) (s : State) : OnlyReplies s (dropCmd id s) := .of rfl rfl rfl rfl

theorem postReply_only (t : Nat) (r : ReplyInfo) (f : Option Nat) (s : State) : OnlyReplies s (postReply t r f s) := by
  unfold postReply
  have h := fun g b => mkSlots_le g (itemSlots b) (cuts_le _ b)
  dsimp only
  split
  · cases f
    · exact .refl s
    · exact dropCmd_only ..
  · split
    · cases f with
      | none => exact postItem_only _ _ (.inl rfl) _ (h _ _) _
      | some id => exact (postItem_only _ _ (.inl rfl) _ (h _ _) _).trans (dropCmd_only ..)
    · have k : ∀ x : List HeldReply, OnlyReplies s (s.setQueue t 4 { s.queue t 4 with held := x }) :=
        fun x => setQueue_only _ _ _ _ rfl rfl
      cases f with
      | none => exact k _
      | some id => exact (k _).trans (.of rfl rfl rfl rfl)

theorem chainEnd_only (t q id : Nat) (st : Status) (s : State) : OnlyReplies s (chainEnd t q id st s) := by
  unfold chainEnd
  dsimp only
  split
  · exact .refl s
  · split
    · exact setQueue_only _ _ _ _ rfl rfl
    · exact .refl s

theorem countReset_only (t : Nat) (st : Status) (s : State) : OnlyReplies s (countReset t st s) := by
  unfold countReset
  dsimp only
  split
  · split <;> exact .of rfl rfl rfl rfl
  · exact .refl s

theorem deliver_inflight (t i : Nat) (s : State) : (deliver t i s).inflight = s.inflight := by
  unfold deliver deliverPart
  dsimp only
  split <;> rfl

theorem deliver_que (t i : Nat) (s : State) : (deliver t i s).que = s.que := by
  unfold deliver deliverPart
  dsimp only
  split <;> rfl

theorem deliverFill_inflight (t q o : Nat) (s : State) : (deliverFill t q o s).inflight = s.inflight := by
  unfold deliverFill
  split
  · exact deliver_inflight ..
  · split
    · exact deliver_inflight ..
    · rfl

theorem deliverFill_que (t q o : Nat) (s : State) : (deliverFill t q o s).que = s.que := by
  unfold deliverFill
  split
  · exact deliver_que ..
  · split
    · exact deliver_que ..
    · rfl

theorem noticeRaw_inflight (t n : Nat) (d : List Word) (s : State) : (noticeRaw t n d s).1.inflight = s.inflight := by
  unfold noticeRaw
  dsimp only
  split
  · rfl
  · exact (deliverFill_inflight ..).trans rfl

theorem dropCmd_out (id : Nat) (s : State) : (dropCmd id s).cmd? id = none := by
  simp only [State.cmd?, dropCmd, List.find?_eq_none]
  intro c hc
  simp only [List.mem_filter, bne_iff_ne] at hc
  simp [hc.2]

theorem postReply_out (t : Nat) (r : ReplyInfo) (id : Nat) (s : State) : (postReply t r (some id) s).cmd? id = none := by
  unfold postReply
  dsimp only
  split
  · exact dropCmd_out ..
  · split
    · exact dropCmd_out ..
    · simp only [State.cmd?, List.find?_eq_none]
      intro c hc
      simp only [List.mem_map] at hc
      obtain ⟨a, -, rfl⟩ := hc
      by_cases h : a.id = id <;> simp [h]

end Sys2Proof.Machine
end

