-- ==== Sys2Proof/Laws/State.lean ====
section
/-!
SUPPORT. What each update of a part of the state leaves of every other part, and that the part reads as written.
-/

namespace Sys2Proof.Machine

@[simp] theorem State.setTenant_pending (s : State) (t : Nat) (x : Tenant) : (s.setTenant t x).pending = s.pending := rfl
@[simp] theorem State.setTenant_clk (s : State) (t : Nat) (x : Tenant) : (s.setTenant t x).clk = s.clk := rfl
@[simp] theorem State.setTenant_free (s : State) (t : Nat) (x : Tenant) : (s.setTenant t x).free = s.free := rfl
@[simp] theorem State.setTenant_nextId (s : State) (t : Nat) (x : Tenant) : (s.setTenant t x).nextId = s.nextId := rfl
@[simp] theorem State.setTenant_env (s : State) (t : Nat) (x : Tenant) : (s.setTenant t x).env = s.env := rfl
@[simp] theorem State.setTenant_mem (s : State) (t : Nat) (x : Tenant) : (s.setTenant t x).mem = s.mem := rfl
@[simp] theorem State.setTenant_rdata (s : State) (t : Nat) (x : Tenant) : (s.setTenant t x).rdata = s.rdata := rfl
@[simp] theorem State.setTenant_ident (s : State) (t : Nat) (x : Tenant) : (s.setTenant t x).ident = s.ident := rfl
@[simp] theorem State.setTenant_image (s : State) (t : Nat) (x : Tenant) : (s.setTenant t x).image = s.image := rfl
@[simp] theorem State.setTenant_tim (s : State) (t : Nat) (x : Tenant) : (s.setTenant t x).tim = s.tim := rfl
@[simp] theorem State.setTenant_isl (s : State) (t : Nat) (x : Tenant) : (s.setTenant t x).isl = s.isl := rfl
@[simp] theorem State.setTenant_gates (s : State) (t : Nat) (x : Tenant) : (s.setTenant t x).gates = s.gates := rfl
@[simp] theorem State.setTenant_inflight (s : State) (t : Nat) (x : Tenant) : (s.setTenant t x).inflight = s.inflight := rfl
@[simp] theorem State.setTenant_rr (s : State) (t : Nat) (x : Tenant) : (s.setTenant t x).rr = s.rr := rfl
@[simp] theorem State.setTenant_que (s : State) (t : Nat) (x : Tenant) : (s.setTenant t x).que = s.que := rfl
@[simp] theorem State.setTenant_vis (s : State) (t : Nat) (x : Tenant) : (s.setTenant t x).vis = s.vis := rfl
@[simp] theorem State.setTenant_marks (s : State) (t : Nat) (x : Tenant) : (s.setTenant t x).marks = s.marks := rfl
@[simp] theorem State.setTenant_led (s : State) (t : Nat) (x : Tenant) : (s.setTenant t x).led = s.led := rfl
@[simp] theorem State.setTenant_pow (s : State) (t : Nat) (x : Tenant) : (s.setTenant t x).pow = s.pow := rfl
@[simp] theorem State.setTenant_chan (s : State) (t : Nat) (x : Tenant) : (s.setTenant t x).chan = s.chan := rfl
@[simp] theorem State.setTenant_pur (s : State) (t : Nat) (x : Tenant) : (s.setTenant t x).pur = s.pur := rfl
@[simp] theorem State.setTenant_yar (s : State) (t : Nat) (x : Tenant) : (s.setTenant t x).yar = s.yar := rfl
@[simp] theorem State.setTenant_flt (s : State) (t : Nat) (x : Tenant) : (s.setTenant t x).flt = s.flt := rfl
@[simp] theorem State.setTenant_fio (s : State) (t : Nat) (x : Tenant) : (s.setTenant t x).fio = s.fio := rfl
@[simp] theorem State.setTenant_mea (s : State) (t : Nat) (x : Tenant) : (s.setTenant t x).mea = s.mea := rfl
@[simp] theorem State.setTenant_aud (s : State) (t : Nat) (x : Tenant) : (s.setTenant t x).aud = s.aud := rfl
@[simp] theorem State.setTenant_net (s : State) (t : Nat) (x : Tenant) : (s.setTenant t x).net = s.net := rfl
@[simp] theorem State.setTenant_tsn (s : State) (t : Nat) (x : Tenant) : (s.setTenant t x).tsn = s.tsn := rfl
@[simp] theorem State.setTenant_bus (s : State) (t : Nat) (x : Tenant) : (s.setTenant t x).bus = s.bus := rfl
@[simp] theorem State.setTenant_gwy (s : State) (t : Nat) (x : Tenant) : (s.setTenant t x).gwy = s.gwy := rfl
@[simp] theorem State.setTenant_nmg (s : State) (t : Nat) (x : Tenant) : (s.setTenant t x).nmg = s.nmg := rfl
@[simp] theorem State.setTenant_cpu (s : State) (t : Nat) (x : Tenant) : (s.setTenant t x).cpu = s.cpu := rfl
@[simp] theorem State.setTenant_vlt (s : State) (t : Nat) (x : Tenant) : (s.setTenant t x).vlt = s.vlt := rfl
@[simp] theorem State.setTenant_sto (s : State) (t : Nat) (x : Tenant) : (s.setTenant t x).sto = s.sto := rfl
@[simp] theorem State.setTenant_img (s : State) (t : Nat) (x : Tenant) : (s.setTenant t x).img = s.img := rfl

@[simp] theorem State.setQueue_pending (s : State) (t q : Nat) (x : Queue) : (s.setQueue t q x).pending = s.pending := rfl
@[simp] theorem State.setQueue_clk (s : State) (t q : Nat) (x : Queue) : (s.setQueue t q x).clk = s.clk := rfl
@[simp] theorem State.setQueue_free (s : State) (t q : Nat) (x : Queue) : (s.setQueue t q x).free = s.free := rfl
@[simp] theorem State.setQueue_nextId (s : State) (t q : Nat) (x : Queue) : (s.setQueue t q x).nextId = s.nextId := rfl
@[simp] theorem State.setQueue_env (s : State) (t q : Nat) (x : Queue) : (s.setQueue t q x).env = s.env := rfl
@[simp] theorem State.setQueue_mem (s : State) (t q : Nat) (x : Queue) : (s.setQueue t q x).mem = s.mem := rfl
@[simp] theorem State.setQueue_rdata (s : State) (t q : Nat) (x : Queue) : (s.setQueue t q x).rdata = s.rdata := rfl
@[simp] theorem State.setQueue_ident (s : State) (t q : Nat) (x : Queue) : (s.setQueue t q x).ident = s.ident := rfl
@[simp] theorem State.setQueue_image (s : State) (t q : Nat) (x : Queue) : (s.setQueue t q x).image = s.image := rfl
@[simp] theorem State.setQueue_tim (s : State) (t q : Nat) (x : Queue) : (s.setQueue t q x).tim = s.tim := rfl
@[simp] theorem State.setQueue_isl (s : State) (t q : Nat) (x : Queue) : (s.setQueue t q x).isl = s.isl := rfl
@[simp] theorem State.setQueue_gates (s : State) (t q : Nat) (x : Queue) : (s.setQueue t q x).gates = s.gates := rfl
@[simp] theorem State.setQueue_inflight (s : State) (t q : Nat) (x : Queue) : (s.setQueue t q x).inflight = s.inflight := rfl
@[simp] theorem State.setQueue_rr (s : State) (t q : Nat) (x : Queue) : (s.setQueue t q x).rr = s.rr := rfl
@[simp] theorem State.setQueue_ten (s : State) (t q : Nat) (x : Queue) : (s.setQueue t q x).ten = s.ten := rfl
@[simp] theorem State.setQueue_vis (s : State) (t q : Nat) (x : Queue) : (s.setQueue t q x).vis = s.vis := rfl
@[simp] theorem State.setQueue_marks (s : State) (t q : Nat) (x : Queue) : (s.setQueue t q x).marks = s.marks := rfl
@[simp] theorem State.setQueue_led (s : State) (t q : Nat) (x : Queue) : (s.setQueue t q x).led = s.led := rfl
@[simp] theorem State.setQueue_pow (s : State) (t q : Nat) (x : Queue) : (s.setQueue t q x).pow = s.pow := rfl
@[simp] theorem State.setQueue_chan (s : State) (t q : Nat) (x : Queue) : (s.setQueue t q x).chan = s.chan := rfl
@[simp] theorem State.setQueue_pur (s : State) (t q : Nat) (x : Queue) : (s.setQueue t q x).pur = s.pur := rfl
@[simp] theorem State.setQueue_yar (s : State) (t q : Nat) (x : Queue) : (s.setQueue t q x).yar = s.yar := rfl
@[simp] theorem State.setQueue_flt (s : State) (t q : Nat) (x : Queue) : (s.setQueue t q x).flt = s.flt := rfl
@[simp] theorem State.setQueue_fio (s : State) (t q : Nat) (x : Queue) : (s.setQueue t q x).fio = s.fio := rfl
@[simp] theorem State.setQueue_mea (s : State) (t q : Nat) (x : Queue) : (s.setQueue t q x).mea = s.mea := rfl
@[simp] theorem State.setQueue_aud (s : State) (t q : Nat) (x : Queue) : (s.setQueue t q x).aud = s.aud := rfl
@[simp] theorem State.setQueue_net (s : State) (t q : Nat) (x : Queue) : (s.setQueue t q x).net = s.net := rfl
@[simp] theorem State.setQueue_tsn (s : State) (t q : Nat) (x : Queue) : (s.setQueue t q x).tsn = s.tsn := rfl
@[simp] theorem State.setQueue_bus (s : State) (t q : Nat) (x : Queue) : (s.setQueue t q x).bus = s.bus := rfl
@[simp] theorem State.setQueue_gwy (s : State) (t q : Nat) (x : Queue) : (s.setQueue t q x).gwy = s.gwy := rfl
@[simp] theorem State.setQueue_nmg (s : State) (t q : Nat) (x : Queue) : (s.setQueue t q x).nmg = s.nmg := rfl
@[simp] theorem State.setQueue_cpu (s : State) (t q : Nat) (x : Queue) : (s.setQueue t q x).cpu = s.cpu := rfl
@[simp] theorem State.setQueue_vlt (s : State) (t q : Nat) (x : Queue) : (s.setQueue t q x).vlt = s.vlt := rfl
@[simp] theorem State.setQueue_sto (s : State) (t q : Nat) (x : Queue) : (s.setQueue t q x).sto = s.sto := rfl
@[simp] theorem State.setQueue_img (s : State) (t q : Nat) (x : Queue) : (s.setQueue t q x).img = s.img := rfl

@[simp] theorem State.setIsland_pending (s : State) (n : Nat) (x : Island) : (s.setIsland n x).pending = s.pending := rfl
@[simp] theorem State.setIsland_clk (s : State) (n : Nat) (x : Island) : (s.setIsland n x).clk = s.clk := rfl
@[simp] theorem State.setIsland_free (s : State) (n : Nat) (x : Island) : (s.setIsland n x).free = s.free := rfl
@[simp] theorem State.setIsland_nextId (s : State) (n : Nat) (x : Island) : (s.setIsland n x).nextId = s.nextId := rfl
@[simp] theorem State.setIsland_env (s : State) (n : Nat) (x : Island) : (s.setIsland n x).env = s.env := rfl
@[simp] theorem State.setIsland_mem (s : State) (n : Nat) (x : Island) : (s.setIsland n x).mem = s.mem := rfl
@[simp] theorem State.setIsland_rdata (s : State) (n : Nat) (x : Island) : (s.setIsland n x).rdata = s.rdata := rfl
@[simp] theorem State.setIsland_ident (s : State) (n : Nat) (x : Island) : (s.setIsland n x).ident = s.ident := rfl
@[simp] theorem State.setIsland_image (s : State) (n : Nat) (x : Island) : (s.setIsland n x).image = s.image := rfl
@[simp] theorem State.setIsland_tim (s : State) (n : Nat) (x : Island) : (s.setIsland n x).tim = s.tim := rfl
@[simp] theorem State.setIsland_gates (s : State) (n : Nat) (x : Island) : (s.setIsland n x).gates = s.gates := rfl
@[simp] theorem State.setIsland_inflight (s : State) (n : Nat) (x : Island) : (s.setIsland n x).inflight = s.inflight := rfl
@[simp] theorem State.setIsland_rr (s : State) (n : Nat) (x : Island) : (s.setIsland n x).rr = s.rr := rfl
@[simp] theorem State.setIsland_ten (s : State) (n : Nat) (x : Island) : (s.setIsland n x).ten = s.ten := rfl
@[simp] theorem State.setIsland_que (s : State) (n : Nat) (x : Island) : (s.setIsland n x).que = s.que := rfl
@[simp] theorem State.setIsland_vis (s : State) (n : Nat) (x : Island) : (s.setIsland n x).vis = s.vis := rfl
@[simp] theorem State.setIsland_marks (s : State) (n : Nat) (x : Island) : (s.setIsland n x).marks = s.marks := rfl
@[simp] theorem State.setIsland_led (s : State) (n : Nat) (x : Island) : (s.setIsland n x).led = s.led := rfl
@[simp] theorem State.setIsland_pow (s : State) (n : Nat) (x : Island) : (s.setIsland n x).pow = s.pow := rfl
@[simp] theorem State.setIsland_chan (s : State) (n : Nat) (x : Island) : (s.setIsland n x).chan = s.chan := rfl
@[simp] theorem State.setIsland_pur (s : State) (n : Nat) (x : Island) : (s.setIsland n x).pur = s.pur := rfl
@[simp] theorem State.setIsland_yar (s : State) (n : Nat) (x : Island) : (s.setIsland n x).yar = s.yar := rfl
@[simp] theorem State.setIsland_flt (s : State) (n : Nat) (x : Island) : (s.setIsland n x).flt = s.flt := rfl
@[simp] theorem State.setIsland_fio (s : State) (n : Nat) (x : Island) : (s.setIsland n x).fio = s.fio := rfl
@[simp] theorem State.setIsland_mea (s : State) (n : Nat) (x : Island) : (s.setIsland n x).mea = s.mea := rfl
@[simp] theorem State.setIsland_aud (s : State) (n : Nat) (x : Island) : (s.setIsland n x).aud = s.aud := rfl
@[simp] theorem State.setIsland_net (s : State) (n : Nat) (x : Island) : (s.setIsland n x).net = s.net := rfl
@[simp] theorem State.setIsland_tsn (s : State) (n : Nat) (x : Island) : (s.setIsland n x).tsn = s.tsn := rfl
@[simp] theorem State.setIsland_bus (s : State) (n : Nat) (x : Island) : (s.setIsland n x).bus = s.bus := rfl
@[simp] theorem State.setIsland_gwy (s : State) (n : Nat) (x : Island) : (s.setIsland n x).gwy = s.gwy := rfl
@[simp] theorem State.setIsland_nmg (s : State) (n : Nat) (x : Island) : (s.setIsland n x).nmg = s.nmg := rfl
@[simp] theorem State.setIsland_cpu (s : State) (n : Nat) (x : Island) : (s.setIsland n x).cpu = s.cpu := rfl
@[simp] theorem State.setIsland_vlt (s : State) (n : Nat) (x : Island) : (s.setIsland n x).vlt = s.vlt := rfl
@[simp] theorem State.setIsland_sto (s : State) (n : Nat) (x : Island) : (s.setIsland n x).sto = s.sto := rfl
@[simp] theorem State.setIsland_img (s : State) (n : Nat) (x : Island) : (s.setIsland n x).img = s.img := rfl

@[simp] theorem State.setVi_pending (s : State) (kind idx : Nat) (x : Option Vi) : (s.setVi kind idx x).pending = s.pending := rfl
@[simp] theorem State.setVi_clk (s : State) (kind idx : Nat) (x : Option Vi) : (s.setVi kind idx x).clk = s.clk := rfl
@[simp] theorem State.setVi_free (s : State) (kind idx : Nat) (x : Option Vi) : (s.setVi kind idx x).free = s.free := rfl
@[simp] theorem State.setVi_nextId (s : State) (kind idx : Nat) (x : Option Vi) : (s.setVi kind idx x).nextId = s.nextId := rfl
@[simp] theorem State.setVi_env (s : State) (kind idx : Nat) (x : Option Vi) : (s.setVi kind idx x).env = s.env := rfl
@[simp] theorem State.setVi_mem (s : State) (kind idx : Nat) (x : Option Vi) : (s.setVi kind idx x).mem = s.mem := rfl
@[simp] theorem State.setVi_rdata (s : State) (kind idx : Nat) (x : Option Vi) : (s.setVi kind idx x).rdata = s.rdata := rfl
@[simp] theorem State.setVi_ident (s : State) (kind idx : Nat) (x : Option Vi) : (s.setVi kind idx x).ident = s.ident := rfl
@[simp] theorem State.setVi_image (s : State) (kind idx : Nat) (x : Option Vi) : (s.setVi kind idx x).image = s.image := rfl
@[simp] theorem State.setVi_tim (s : State) (kind idx : Nat) (x : Option Vi) : (s.setVi kind idx x).tim = s.tim := rfl
@[simp] theorem State.setVi_isl (s : State) (kind idx : Nat) (x : Option Vi) : (s.setVi kind idx x).isl = s.isl := rfl
@[simp] theorem State.setVi_gates (s : State) (kind idx : Nat) (x : Option Vi) : (s.setVi kind idx x).gates = s.gates := rfl
@[simp] theorem State.setVi_inflight (s : State) (kind idx : Nat) (x : Option Vi) : (s.setVi kind idx x).inflight = s.inflight := rfl
@[simp] theorem State.setVi_rr (s : State) (kind idx : Nat) (x : Option Vi) : (s.setVi kind idx x).rr = s.rr := rfl
@[simp] theorem State.setVi_ten (s : State) (kind idx : Nat) (x : Option Vi) : (s.setVi kind idx x).ten = s.ten := rfl
@[simp] theorem State.setVi_que (s : State) (kind idx : Nat) (x : Option Vi) : (s.setVi kind idx x).que = s.que := rfl
@[simp] theorem State.setVi_marks (s : State) (kind idx : Nat) (x : Option Vi) : (s.setVi kind idx x).marks = s.marks := rfl
@[simp] theorem State.setVi_led (s : State) (kind idx : Nat) (x : Option Vi) : (s.setVi kind idx x).led = s.led := rfl
@[simp] theorem State.setVi_pow (s : State) (kind idx : Nat) (x : Option Vi) : (s.setVi kind idx x).pow = s.pow := rfl
@[simp] theorem State.setVi_chan (s : State) (kind idx : Nat) (x : Option Vi) : (s.setVi kind idx x).chan = s.chan := rfl
@[simp] theorem State.setVi_pur (s : State) (kind idx : Nat) (x : Option Vi) : (s.setVi kind idx x).pur = s.pur := rfl
@[simp] theorem State.setVi_yar (s : State) (kind idx : Nat) (x : Option Vi) : (s.setVi kind idx x).yar = s.yar := rfl
@[simp] theorem State.setVi_flt (s : State) (kind idx : Nat) (x : Option Vi) : (s.setVi kind idx x).flt = s.flt := rfl
@[simp] theorem State.setVi_fio (s : State) (kind idx : Nat) (x : Option Vi) : (s.setVi kind idx x).fio = s.fio := rfl
@[simp] theorem State.setVi_mea (s : State) (kind idx : Nat) (x : Option Vi) : (s.setVi kind idx x).mea = s.mea := rfl
@[simp] theorem State.setVi_aud (s : State) (kind idx : Nat) (x : Option Vi) : (s.setVi kind idx x).aud = s.aud := rfl
@[simp] theorem State.setVi_net (s : State) (kind idx : Nat) (x : Option Vi) : (s.setVi kind idx x).net = s.net := rfl
@[simp] theorem State.setVi_tsn (s : State) (kind idx : Nat) (x : Option Vi) : (s.setVi kind idx x).tsn = s.tsn := rfl
@[simp] theorem State.setVi_bus (s : State) (kind idx : Nat) (x : Option Vi) : (s.setVi kind idx x).bus = s.bus := rfl
@[simp] theorem State.setVi_gwy (s : State) (kind idx : Nat) (x : Option Vi) : (s.setVi kind idx x).gwy = s.gwy := rfl
@[simp] theorem State.setVi_nmg (s : State) (kind idx : Nat) (x : Option Vi) : (s.setVi kind idx x).nmg = s.nmg := rfl
@[simp] theorem State.setVi_cpu (s : State) (kind idx : Nat) (x : Option Vi) : (s.setVi kind idx x).cpu = s.cpu := rfl
@[simp] theorem State.setVi_vlt (s : State) (kind idx : Nat) (x : Option Vi) : (s.setVi kind idx x).vlt = s.vlt := rfl
@[simp] theorem State.setVi_sto (s : State) (kind idx : Nat) (x : Option Vi) : (s.setVi kind idx x).sto = s.sto := rfl
@[simp] theorem State.setVi_img (s : State) (kind idx : Nat) (x : Option Vi) : (s.setVi kind idx x).img = s.img := rfl

@[simp] theorem State.setChn_pending (s : State) (ch : Nat) (c : Chan) : (s.setChn ch c).pending = s.pending := rfl
@[simp] theorem State.setChn_clk (s : State) (ch : Nat) (c : Chan) : (s.setChn ch c).clk = s.clk := rfl
@[simp] theorem State.setChn_free (s : State) (ch : Nat) (c : Chan) : (s.setChn ch c).free = s.free := rfl
@[simp] theorem State.setChn_nextId (s : State) (ch : Nat) (c : Chan) : (s.setChn ch c).nextId = s.nextId := rfl
@[simp] theorem State.setChn_env (s : State) (ch : Nat) (c : Chan) : (s.setChn ch c).env = s.env := rfl
@[simp] theorem State.setChn_mem (s : State) (ch : Nat) (c : Chan) : (s.setChn ch c).mem = s.mem := rfl
@[simp] theorem State.setChn_rdata (s : State) (ch : Nat) (c : Chan) : (s.setChn ch c).rdata = s.rdata := rfl
@[simp] theorem State.setChn_ident (s : State) (ch : Nat) (c : Chan) : (s.setChn ch c).ident = s.ident := rfl
@[simp] theorem State.setChn_image (s : State) (ch : Nat) (c : Chan) : (s.setChn ch c).image = s.image := rfl
@[simp] theorem State.setChn_tim (s : State) (ch : Nat) (c : Chan) : (s.setChn ch c).tim = s.tim := rfl
@[simp] theorem State.setChn_isl (s : State) (ch : Nat) (c : Chan) : (s.setChn ch c).isl = s.isl := rfl
@[simp] theorem State.setChn_gates (s : State) (ch : Nat) (c : Chan) : (s.setChn ch c).gates = s.gates := rfl
@[simp] theorem State.setChn_inflight (s : State) (ch : Nat) (c : Chan) : (s.setChn ch c).inflight = s.inflight := rfl
@[simp] theorem State.setChn_rr (s : State) (ch : Nat) (c : Chan) : (s.setChn ch c).rr = s.rr := rfl
@[simp] theorem State.setChn_ten (s : State) (ch : Nat) (c : Chan) : (s.setChn ch c).ten = s.ten := rfl
@[simp] theorem State.setChn_que (s : State) (ch : Nat) (c : Chan) : (s.setChn ch c).que = s.que := rfl
@[simp] theorem State.setChn_vis (s : State) (ch : Nat) (c : Chan) : (s.setChn ch c).vis = s.vis := rfl
@[simp] theorem State.setChn_marks (s : State) (ch : Nat) (c : Chan) : (s.setChn ch c).marks = s.marks := rfl
@[simp] theorem State.setChn_led (s : State) (ch : Nat) (c : Chan) : (s.setChn ch c).led = s.led := rfl
@[simp] theorem State.setChn_pow (s : State) (ch : Nat) (c : Chan) : (s.setChn ch c).pow = s.pow := rfl
@[simp] theorem State.setChn_pur (s : State) (ch : Nat) (c : Chan) : (s.setChn ch c).pur = s.pur := rfl
@[simp] theorem State.setChn_yar (s : State) (ch : Nat) (c : Chan) : (s.setChn ch c).yar = s.yar := rfl
@[simp] theorem State.setChn_flt (s : State) (ch : Nat) (c : Chan) : (s.setChn ch c).flt = s.flt := rfl
@[simp] theorem State.setChn_fio (s : State) (ch : Nat) (c : Chan) : (s.setChn ch c).fio = s.fio := rfl
@[simp] theorem State.setChn_mea (s : State) (ch : Nat) (c : Chan) : (s.setChn ch c).mea = s.mea := rfl
@[simp] theorem State.setChn_aud (s : State) (ch : Nat) (c : Chan) : (s.setChn ch c).aud = s.aud := rfl
@[simp] theorem State.setChn_net (s : State) (ch : Nat) (c : Chan) : (s.setChn ch c).net = s.net := rfl
@[simp] theorem State.setChn_tsn (s : State) (ch : Nat) (c : Chan) : (s.setChn ch c).tsn = s.tsn := rfl
@[simp] theorem State.setChn_bus (s : State) (ch : Nat) (c : Chan) : (s.setChn ch c).bus = s.bus := rfl
@[simp] theorem State.setChn_gwy (s : State) (ch : Nat) (c : Chan) : (s.setChn ch c).gwy = s.gwy := rfl
@[simp] theorem State.setChn_nmg (s : State) (ch : Nat) (c : Chan) : (s.setChn ch c).nmg = s.nmg := rfl
@[simp] theorem State.setChn_cpu (s : State) (ch : Nat) (c : Chan) : (s.setChn ch c).cpu = s.cpu := rfl
@[simp] theorem State.setChn_vlt (s : State) (ch : Nat) (c : Chan) : (s.setChn ch c).vlt = s.vlt := rfl
@[simp] theorem State.setChn_sto (s : State) (ch : Nat) (c : Chan) : (s.setChn ch c).sto = s.sto := rfl
@[simp] theorem State.setChn_img (s : State) (ch : Nat) (c : Chan) : (s.setChn ch c).img = s.img := rfl

@[simp] theorem State.setPdie_pending (s : State) (d : Nat) (x : Die) : (s.setPdie d x).pending = s.pending := rfl
@[simp] theorem State.setPdie_clk (s : State) (d : Nat) (x : Die) : (s.setPdie d x).clk = s.clk := rfl
@[simp] theorem State.setPdie_free (s : State) (d : Nat) (x : Die) : (s.setPdie d x).free = s.free := rfl
@[simp] theorem State.setPdie_nextId (s : State) (d : Nat) (x : Die) : (s.setPdie d x).nextId = s.nextId := rfl
@[simp] theorem State.setPdie_env (s : State) (d : Nat) (x : Die) : (s.setPdie d x).env = s.env := rfl
@[simp] theorem State.setPdie_mem (s : State) (d : Nat) (x : Die) : (s.setPdie d x).mem = s.mem := rfl
@[simp] theorem State.setPdie_rdata (s : State) (d : Nat) (x : Die) : (s.setPdie d x).rdata = s.rdata := rfl
@[simp] theorem State.setPdie_ident (s : State) (d : Nat) (x : Die) : (s.setPdie d x).ident = s.ident := rfl
@[simp] theorem State.setPdie_image (s : State) (d : Nat) (x : Die) : (s.setPdie d x).image = s.image := rfl
@[simp] theorem State.setPdie_tim (s : State) (d : Nat) (x : Die) : (s.setPdie d x).tim = s.tim := rfl
@[simp] theorem State.setPdie_isl (s : State) (d : Nat) (x : Die) : (s.setPdie d x).isl = s.isl := rfl
@[simp] theorem State.setPdie_gates (s : State) (d : Nat) (x : Die) : (s.setPdie d x).gates = s.gates := rfl
@[simp] theorem State.setPdie_inflight (s : State) (d : Nat) (x : Die) : (s.setPdie d x).inflight = s.inflight := rfl
@[simp] theorem State.setPdie_rr (s : State) (d : Nat) (x : Die) : (s.setPdie d x).rr = s.rr := rfl
@[simp] theorem State.setPdie_ten (s : State) (d : Nat) (x : Die) : (s.setPdie d x).ten = s.ten := rfl
@[simp] theorem State.setPdie_que (s : State) (d : Nat) (x : Die) : (s.setPdie d x).que = s.que := rfl
@[simp] theorem State.setPdie_vis (s : State) (d : Nat) (x : Die) : (s.setPdie d x).vis = s.vis := rfl
@[simp] theorem State.setPdie_marks (s : State) (d : Nat) (x : Die) : (s.setPdie d x).marks = s.marks := rfl
@[simp] theorem State.setPdie_led (s : State) (d : Nat) (x : Die) : (s.setPdie d x).led = s.led := rfl
@[simp] theorem State.setPdie_pow (s : State) (d : Nat) (x : Die) : (s.setPdie d x).pow = s.pow := rfl
@[simp] theorem State.setPdie_chan (s : State) (d : Nat) (x : Die) : (s.setPdie d x).chan = s.chan := rfl
@[simp] theorem State.setPdie_pur (s : State) (d : Nat) (x : Die) : (s.setPdie d x).pur = s.pur := rfl
@[simp] theorem State.setPdie_flt (s : State) (d : Nat) (x : Die) : (s.setPdie d x).flt = s.flt := rfl
@[simp] theorem State.setPdie_fio (s : State) (d : Nat) (x : Die) : (s.setPdie d x).fio = s.fio := rfl
@[simp] theorem State.setPdie_mea (s : State) (d : Nat) (x : Die) : (s.setPdie d x).mea = s.mea := rfl
@[simp] theorem State.setPdie_aud (s : State) (d : Nat) (x : Die) : (s.setPdie d x).aud = s.aud := rfl
@[simp] theorem State.setPdie_net (s : State) (d : Nat) (x : Die) : (s.setPdie d x).net = s.net := rfl
@[simp] theorem State.setPdie_tsn (s : State) (d : Nat) (x : Die) : (s.setPdie d x).tsn = s.tsn := rfl
@[simp] theorem State.setPdie_bus (s : State) (d : Nat) (x : Die) : (s.setPdie d x).bus = s.bus := rfl
@[simp] theorem State.setPdie_gwy (s : State) (d : Nat) (x : Die) : (s.setPdie d x).gwy = s.gwy := rfl
@[simp] theorem State.setPdie_nmg (s : State) (d : Nat) (x : Die) : (s.setPdie d x).nmg = s.nmg := rfl
@[simp] theorem State.setPdie_cpu (s : State) (d : Nat) (x : Die) : (s.setPdie d x).cpu = s.cpu := rfl
@[simp] theorem State.setPdie_vlt (s : State) (d : Nat) (x : Die) : (s.setPdie d x).vlt = s.vlt := rfl
@[simp] theorem State.setPdie_sto (s : State) (d : Nat) (x : Die) : (s.setPdie d x).sto = s.sto := rfl
@[simp] theorem State.setPdie_img (s : State) (d : Nat) (x : Die) : (s.setPdie d x).img = s.img := rfl

@[simp] theorem State.setFout_pending (s : State) (i : Nat) (x : FieldOut) : (s.setFout i x).pending = s.pending := rfl
@[simp] theorem State.setFout_clk (s : State) (i : Nat) (x : FieldOut) : (s.setFout i x).clk = s.clk := rfl
@[simp] theorem State.setFout_free (s : State) (i : Nat) (x : FieldOut) : (s.setFout i x).free = s.free := rfl
@[simp] theorem State.setFout_nextId (s : State) (i : Nat) (x : FieldOut) : (s.setFout i x).nextId = s.nextId := rfl
@[simp] theorem State.setFout_env (s : State) (i : Nat) (x : FieldOut) : (s.setFout i x).env = s.env := rfl
@[simp] theorem State.setFout_mem (s : State) (i : Nat) (x : FieldOut) : (s.setFout i x).mem = s.mem := rfl
@[simp] theorem State.setFout_rdata (s : State) (i : Nat) (x : FieldOut) : (s.setFout i x).rdata = s.rdata := rfl
@[simp] theorem State.setFout_ident (s : State) (i : Nat) (x : FieldOut) : (s.setFout i x).ident = s.ident := rfl
@[simp] theorem State.setFout_image (s : State) (i : Nat) (x : FieldOut) : (s.setFout i x).image = s.image := rfl
@[simp] theorem State.setFout_tim (s : State) (i : Nat) (x : FieldOut) : (s.setFout i x).tim = s.tim := rfl
@[simp] theorem State.setFout_isl (s : State) (i : Nat) (x : FieldOut) : (s.setFout i x).isl = s.isl := rfl
@[simp] theorem State.setFout_gates (s : State) (i : Nat) (x : FieldOut) : (s.setFout i x).gates = s.gates := rfl
@[simp] theorem State.setFout_inflight (s : State) (i : Nat) (x : FieldOut) : (s.setFout i x).inflight = s.inflight := rfl
@[simp] theorem State.setFout_rr (s : State) (i : Nat) (x : FieldOut) : (s.setFout i x).rr = s.rr := rfl
@[simp] theorem State.setFout_ten (s : State) (i : Nat) (x : FieldOut) : (s.setFout i x).ten = s.ten := rfl
@[simp] theorem State.setFout_que (s : State) (i : Nat) (x : FieldOut) : (s.setFout i x).que = s.que := rfl
@[simp] theorem State.setFout_vis (s : State) (i : Nat) (x : FieldOut) : (s.setFout i x).vis = s.vis := rfl
@[simp] theorem State.setFout_marks (s : State) (i : Nat) (x : FieldOut) : (s.setFout i x).marks = s.marks := rfl
@[simp] theorem State.setFout_led (s : State) (i : Nat) (x : FieldOut) : (s.setFout i x).led = s.led := rfl
@[simp] theorem State.setFout_pow (s : State) (i : Nat) (x : FieldOut) : (s.setFout i x).pow = s.pow := rfl
@[simp] theorem State.setFout_chan (s : State) (i : Nat) (x : FieldOut) : (s.setFout i x).chan = s.chan := rfl
@[simp] theorem State.setFout_pur (s : State) (i : Nat) (x : FieldOut) : (s.setFout i x).pur = s.pur := rfl
@[simp] theorem State.setFout_yar (s : State) (i : Nat) (x : FieldOut) : (s.setFout i x).yar = s.yar := rfl
@[simp] theorem State.setFout_flt (s : State) (i : Nat) (x : FieldOut) : (s.setFout i x).flt = s.flt := rfl
@[simp] theorem State.setFout_mea (s : State) (i : Nat) (x : FieldOut) : (s.setFout i x).mea = s.mea := rfl
@[simp] theorem State.setFout_aud (s : State) (i : Nat) (x : FieldOut) : (s.setFout i x).aud = s.aud := rfl
@[simp] theorem State.setFout_net (s : State) (i : Nat) (x : FieldOut) : (s.setFout i x).net = s.net := rfl
@[simp] theorem State.setFout_tsn (s : State) (i : Nat) (x : FieldOut) : (s.setFout i x).tsn = s.tsn := rfl
@[simp] theorem State.setFout_bus (s : State) (i : Nat) (x : FieldOut) : (s.setFout i x).bus = s.bus := rfl
@[simp] theorem State.setFout_gwy (s : State) (i : Nat) (x : FieldOut) : (s.setFout i x).gwy = s.gwy := rfl
@[simp] theorem State.setFout_nmg (s : State) (i : Nat) (x : FieldOut) : (s.setFout i x).nmg = s.nmg := rfl
@[simp] theorem State.setFout_cpu (s : State) (i : Nat) (x : FieldOut) : (s.setFout i x).cpu = s.cpu := rfl
@[simp] theorem State.setFout_vlt (s : State) (i : Nat) (x : FieldOut) : (s.setFout i x).vlt = s.vlt := rfl
@[simp] theorem State.setFout_sto (s : State) (i : Nat) (x : FieldOut) : (s.setFout i x).sto = s.sto := rfl
@[simp] theorem State.setFout_img (s : State) (i : Nat) (x : FieldOut) : (s.setFout i x).img = s.img := rfl

@[simp] theorem State.setFin_pending (s : State) (i : Nat) (x : FieldIn) : (s.setFin i x).pending = s.pending := rfl
@[simp] theorem State.setFin_clk (s : State) (i : Nat) (x : FieldIn) : (s.setFin i x).clk = s.clk := rfl
@[simp] theorem State.setFin_free (s : State) (i : Nat) (x : FieldIn) : (s.setFin i x).free = s.free := rfl
@[simp] theorem State.setFin_nextId (s : State) (i : Nat) (x : FieldIn) : (s.setFin i x).nextId = s.nextId := rfl
@[simp] theorem State.setFin_env (s : State) (i : Nat) (x : FieldIn) : (s.setFin i x).env = s.env := rfl
@[simp] theorem State.setFin_mem (s : State) (i : Nat) (x : FieldIn) : (s.setFin i x).mem = s.mem := rfl
@[simp] theorem State.setFin_rdata (s : State) (i : Nat) (x : FieldIn) : (s.setFin i x).rdata = s.rdata := rfl
@[simp] theorem State.setFin_ident (s : State) (i : Nat) (x : FieldIn) : (s.setFin i x).ident = s.ident := rfl
@[simp] theorem State.setFin_image (s : State) (i : Nat) (x : FieldIn) : (s.setFin i x).image = s.image := rfl
@[simp] theorem State.setFin_tim (s : State) (i : Nat) (x : FieldIn) : (s.setFin i x).tim = s.tim := rfl
@[simp] theorem State.setFin_isl (s : State) (i : Nat) (x : FieldIn) : (s.setFin i x).isl = s.isl := rfl
@[simp] theorem State.setFin_gates (s : State) (i : Nat) (x : FieldIn) : (s.setFin i x).gates = s.gates := rfl
@[simp] theorem State.setFin_inflight (s : State) (i : Nat) (x : FieldIn) : (s.setFin i x).inflight = s.inflight := rfl
@[simp] theorem State.setFin_rr (s : State) (i : Nat) (x : FieldIn) : (s.setFin i x).rr = s.rr := rfl
@[simp] theorem State.setFin_ten (s : State) (i : Nat) (x : FieldIn) : (s.setFin i x).ten = s.ten := rfl
@[simp] theorem State.setFin_que (s : State) (i : Nat) (x : FieldIn) : (s.setFin i x).que = s.que := rfl
@[simp] theorem State.setFin_vis (s : State) (i : Nat) (x : FieldIn) : (s.setFin i x).vis = s.vis := rfl
@[simp] theorem State.setFin_marks (s : State) (i : Nat) (x : FieldIn) : (s.setFin i x).marks = s.marks := rfl
@[simp] theorem State.setFin_led (s : State) (i : Nat) (x : FieldIn) : (s.setFin i x).led = s.led := rfl
@[simp] theorem State.setFin_pow (s : State) (i : Nat) (x : FieldIn) : (s.setFin i x).pow = s.pow := rfl
@[simp] theorem State.setFin_chan (s : State) (i : Nat) (x : FieldIn) : (s.setFin i x).chan = s.chan := rfl
@[simp] theorem State.setFin_pur (s : State) (i : Nat) (x : FieldIn) : (s.setFin i x).pur = s.pur := rfl
@[simp] theorem State.setFin_yar (s : State) (i : Nat) (x : FieldIn) : (s.setFin i x).yar = s.yar := rfl
@[simp] theorem State.setFin_flt (s : State) (i : Nat) (x : FieldIn) : (s.setFin i x).flt = s.flt := rfl
@[simp] theorem State.setFin_mea (s : State) (i : Nat) (x : FieldIn) : (s.setFin i x).mea = s.mea := rfl
@[simp] theorem State.setFin_aud (s : State) (i : Nat) (x : FieldIn) : (s.setFin i x).aud = s.aud := rfl
@[simp] theorem State.setFin_net (s : State) (i : Nat) (x : FieldIn) : (s.setFin i x).net = s.net := rfl
@[simp] theorem State.setFin_tsn (s : State) (i : Nat) (x : FieldIn) : (s.setFin i x).tsn = s.tsn := rfl
@[simp] theorem State.setFin_bus (s : State) (i : Nat) (x : FieldIn) : (s.setFin i x).bus = s.bus := rfl
@[simp] theorem State.setFin_gwy (s : State) (i : Nat) (x : FieldIn) : (s.setFin i x).gwy = s.gwy := rfl
@[simp] theorem State.setFin_nmg (s : State) (i : Nat) (x : FieldIn) : (s.setFin i x).nmg = s.nmg := rfl
@[simp] theorem State.setFin_cpu (s : State) (i : Nat) (x : FieldIn) : (s.setFin i x).cpu = s.cpu := rfl
@[simp] theorem State.setFin_vlt (s : State) (i : Nat) (x : FieldIn) : (s.setFin i x).vlt = s.vlt := rfl
@[simp] theorem State.setFin_sto (s : State) (i : Nat) (x : FieldIn) : (s.setFin i x).sto = s.sto := rfl
@[simp] theorem State.setFin_img (s : State) (i : Nat) (x : FieldIn) : (s.setFin i x).img = s.img := rfl

@[simp] theorem State.setAin_pending (s : State) (i : Nat) (x : AnaIn) : (s.setAin i x).pending = s.pending := rfl
@[simp] theorem State.setAin_clk (s : State) (i : Nat) (x : AnaIn) : (s.setAin i x).clk = s.clk := rfl
@[simp] theorem State.setAin_free (s : State) (i : Nat) (x : AnaIn) : (s.setAin i x).free = s.free := rfl
@[simp] theorem State.setAin_nextId (s : State) (i : Nat) (x : AnaIn) : (s.setAin i x).nextId = s.nextId := rfl
@[simp] theorem State.setAin_env (s : State) (i : Nat) (x : AnaIn) : (s.setAin i x).env = s.env := rfl
@[simp] theorem State.setAin_mem (s : State) (i : Nat) (x : AnaIn) : (s.setAin i x).mem = s.mem := rfl
@[simp] theorem State.setAin_rdata (s : State) (i : Nat) (x : AnaIn) : (s.setAin i x).rdata = s.rdata := rfl
@[simp] theorem State.setAin_ident (s : State) (i : Nat) (x : AnaIn) : (s.setAin i x).ident = s.ident := rfl
@[simp] theorem State.setAin_image (s : State) (i : Nat) (x : AnaIn) : (s.setAin i x).image = s.image := rfl
@[simp] theorem State.setAin_tim (s : State) (i : Nat) (x : AnaIn) : (s.setAin i x).tim = s.tim := rfl
@[simp] theorem State.setAin_isl (s : State) (i : Nat) (x : AnaIn) : (s.setAin i x).isl = s.isl := rfl
@[simp] theorem State.setAin_gates (s : State) (i : Nat) (x : AnaIn) : (s.setAin i x).gates = s.gates := rfl
@[simp] theorem State.setAin_inflight (s : State) (i : Nat) (x : AnaIn) : (s.setAin i x).inflight = s.inflight := rfl
@[simp] theorem State.setAin_rr (s : State) (i : Nat) (x : AnaIn) : (s.setAin i x).rr = s.rr := rfl
@[simp] theorem State.setAin_ten (s : State) (i : Nat) (x : AnaIn) : (s.setAin i x).ten = s.ten := rfl
@[simp] theorem State.setAin_que (s : State) (i : Nat) (x : AnaIn) : (s.setAin i x).que = s.que := rfl
@[simp] theorem State.setAin_vis (s : State) (i : Nat) (x : AnaIn) : (s.setAin i x).vis = s.vis := rfl
@[simp] theorem State.setAin_marks (s : State) (i : Nat) (x : AnaIn) : (s.setAin i x).marks = s.marks := rfl
@[simp] theorem State.setAin_led (s : State) (i : Nat) (x : AnaIn) : (s.setAin i x).led = s.led := rfl
@[simp] theorem State.setAin_pow (s : State) (i : Nat) (x : AnaIn) : (s.setAin i x).pow = s.pow := rfl
@[simp] theorem State.setAin_chan (s : State) (i : Nat) (x : AnaIn) : (s.setAin i x).chan = s.chan := rfl
@[simp] theorem State.setAin_pur (s : State) (i : Nat) (x : AnaIn) : (s.setAin i x).pur = s.pur := rfl
@[simp] theorem State.setAin_yar (s : State) (i : Nat) (x : AnaIn) : (s.setAin i x).yar = s.yar := rfl
@[simp] theorem State.setAin_flt (s : State) (i : Nat) (x : AnaIn) : (s.setAin i x).flt = s.flt := rfl
@[simp] theorem State.setAin_mea (s : State) (i : Nat) (x : AnaIn) : (s.setAin i x).mea = s.mea := rfl
@[simp] theorem State.setAin_aud (s : State) (i : Nat) (x : AnaIn) : (s.setAin i x).aud = s.aud := rfl
@[simp] theorem State.setAin_net (s : State) (i : Nat) (x : AnaIn) : (s.setAin i x).net = s.net := rfl
@[simp] theorem State.setAin_tsn (s : State) (i : Nat) (x : AnaIn) : (s.setAin i x).tsn = s.tsn := rfl
@[simp] theorem State.setAin_bus (s : State) (i : Nat) (x : AnaIn) : (s.setAin i x).bus = s.bus := rfl
@[simp] theorem State.setAin_gwy (s : State) (i : Nat) (x : AnaIn) : (s.setAin i x).gwy = s.gwy := rfl
@[simp] theorem State.setAin_nmg (s : State) (i : Nat) (x : AnaIn) : (s.setAin i x).nmg = s.nmg := rfl
@[simp] theorem State.setAin_cpu (s : State) (i : Nat) (x : AnaIn) : (s.setAin i x).cpu = s.cpu := rfl
@[simp] theorem State.setAin_vlt (s : State) (i : Nat) (x : AnaIn) : (s.setAin i x).vlt = s.vlt := rfl
@[simp] theorem State.setAin_sto (s : State) (i : Nat) (x : AnaIn) : (s.setAin i x).sto = s.sto := rfl
@[simp] theorem State.setAin_img (s : State) (i : Nat) (x : AnaIn) : (s.setAin i x).img = s.img := rfl

@[simp] theorem State.setSeqn_pending (s : State) (i : Nat) (x : MeaSeq) : (s.setSeqn i x).pending = s.pending := rfl
@[simp] theorem State.setSeqn_clk (s : State) (i : Nat) (x : MeaSeq) : (s.setSeqn i x).clk = s.clk := rfl
@[simp] theorem State.setSeqn_free (s : State) (i : Nat) (x : MeaSeq) : (s.setSeqn i x).free = s.free := rfl
@[simp] theorem State.setSeqn_nextId (s : State) (i : Nat) (x : MeaSeq) : (s.setSeqn i x).nextId = s.nextId := rfl
@[simp] theorem State.setSeqn_env (s : State) (i : Nat) (x : MeaSeq) : (s.setSeqn i x).env = s.env := rfl
@[simp] theorem State.setSeqn_mem (s : State) (i : Nat) (x : MeaSeq) : (s.setSeqn i x).mem = s.mem := rfl
@[simp] theorem State.setSeqn_rdata (s : State) (i : Nat) (x : MeaSeq) : (s.setSeqn i x).rdata = s.rdata := rfl
@[simp] theorem State.setSeqn_ident (s : State) (i : Nat) (x : MeaSeq) : (s.setSeqn i x).ident = s.ident := rfl
@[simp] theorem State.setSeqn_image (s : State) (i : Nat) (x : MeaSeq) : (s.setSeqn i x).image = s.image := rfl
@[simp] theorem State.setSeqn_tim (s : State) (i : Nat) (x : MeaSeq) : (s.setSeqn i x).tim = s.tim := rfl
@[simp] theorem State.setSeqn_isl (s : State) (i : Nat) (x : MeaSeq) : (s.setSeqn i x).isl = s.isl := rfl
@[simp] theorem State.setSeqn_gates (s : State) (i : Nat) (x : MeaSeq) : (s.setSeqn i x).gates = s.gates := rfl
@[simp] theorem State.setSeqn_inflight (s : State) (i : Nat) (x : MeaSeq) : (s.setSeqn i x).inflight = s.inflight := rfl
@[simp] theorem State.setSeqn_rr (s : State) (i : Nat) (x : MeaSeq) : (s.setSeqn i x).rr = s.rr := rfl
@[simp] theorem State.setSeqn_ten (s : State) (i : Nat) (x : MeaSeq) : (s.setSeqn i x).ten = s.ten := rfl
@[simp] theorem State.setSeqn_que (s : State) (i : Nat) (x : MeaSeq) : (s.setSeqn i x).que = s.que := rfl
@[simp] theorem State.setSeqn_vis (s : State) (i : Nat) (x : MeaSeq) : (s.setSeqn i x).vis = s.vis := rfl
@[simp] theorem State.setSeqn_marks (s : State) (i : Nat) (x : MeaSeq) : (s.setSeqn i x).marks = s.marks := rfl
@[simp] theorem State.setSeqn_led (s : State) (i : Nat) (x : MeaSeq) : (s.setSeqn i x).led = s.led := rfl
@[simp] theorem State.setSeqn_pow (s : State) (i : Nat) (x : MeaSeq) : (s.setSeqn i x).pow = s.pow := rfl
@[simp] theorem State.setSeqn_chan (s : State) (i : Nat) (x : MeaSeq) : (s.setSeqn i x).chan = s.chan := rfl
@[simp] theorem State.setSeqn_pur (s : State) (i : Nat) (x : MeaSeq) : (s.setSeqn i x).pur = s.pur := rfl
@[simp] theorem State.setSeqn_yar (s : State) (i : Nat) (x : MeaSeq) : (s.setSeqn i x).yar = s.yar := rfl
@[simp] theorem State.setSeqn_flt (s : State) (i : Nat) (x : MeaSeq) : (s.setSeqn i x).flt = s.flt := rfl
@[simp] theorem State.setSeqn_fio (s : State) (i : Nat) (x : MeaSeq) : (s.setSeqn i x).fio = s.fio := rfl
@[simp] theorem State.setSeqn_aud (s : State) (i : Nat) (x : MeaSeq) : (s.setSeqn i x).aud = s.aud := rfl
@[simp] theorem State.setSeqn_net (s : State) (i : Nat) (x : MeaSeq) : (s.setSeqn i x).net = s.net := rfl
@[simp] theorem State.setSeqn_tsn (s : State) (i : Nat) (x : MeaSeq) : (s.setSeqn i x).tsn = s.tsn := rfl
@[simp] theorem State.setSeqn_bus (s : State) (i : Nat) (x : MeaSeq) : (s.setSeqn i x).bus = s.bus := rfl
@[simp] theorem State.setSeqn_gwy (s : State) (i : Nat) (x : MeaSeq) : (s.setSeqn i x).gwy = s.gwy := rfl
@[simp] theorem State.setSeqn_nmg (s : State) (i : Nat) (x : MeaSeq) : (s.setSeqn i x).nmg = s.nmg := rfl
@[simp] theorem State.setSeqn_cpu (s : State) (i : Nat) (x : MeaSeq) : (s.setSeqn i x).cpu = s.cpu := rfl
@[simp] theorem State.setSeqn_vlt (s : State) (i : Nat) (x : MeaSeq) : (s.setSeqn i x).vlt = s.vlt := rfl
@[simp] theorem State.setSeqn_sto (s : State) (i : Nat) (x : MeaSeq) : (s.setSeqn i x).sto = s.sto := rfl
@[simp] theorem State.setSeqn_img (s : State) (i : Nat) (x : MeaSeq) : (s.setSeqn i x).img = s.img := rfl

@[simp] theorem State.setTrg_pending (s : State) (tt : Nat) (x : Trigger) : (s.setTrg tt x).pending = s.pending := rfl
@[simp] theorem State.setTrg_clk (s : State) (tt : Nat) (x : Trigger) : (s.setTrg tt x).clk = s.clk := rfl
@[simp] theorem State.setTrg_free (s : State) (tt : Nat) (x : Trigger) : (s.setTrg tt x).free = s.free := rfl
@[simp] theorem State.setTrg_nextId (s : State) (tt : Nat) (x : Trigger) : (s.setTrg tt x).nextId = s.nextId := rfl
@[simp] theorem State.setTrg_env (s : State) (tt : Nat) (x : Trigger) : (s.setTrg tt x).env = s.env := rfl
@[simp] theorem State.setTrg_mem (s : State) (tt : Nat) (x : Trigger) : (s.setTrg tt x).mem = s.mem := rfl
@[simp] theorem State.setTrg_rdata (s : State) (tt : Nat) (x : Trigger) : (s.setTrg tt x).rdata = s.rdata := rfl
@[simp] theorem State.setTrg_ident (s : State) (tt : Nat) (x : Trigger) : (s.setTrg tt x).ident = s.ident := rfl
@[simp] theorem State.setTrg_image (s : State) (tt : Nat) (x : Trigger) : (s.setTrg tt x).image = s.image := rfl
@[simp] theorem State.setTrg_isl (s : State) (tt : Nat) (x : Trigger) : (s.setTrg tt x).isl = s.isl := rfl
@[simp] theorem State.setTrg_gates (s : State) (tt : Nat) (x : Trigger) : (s.setTrg tt x).gates = s.gates := rfl
@[simp] theorem State.setTrg_inflight (s : State) (tt : Nat) (x : Trigger) : (s.setTrg tt x).inflight = s.inflight := rfl
@[simp] theorem State.setTrg_rr (s : State) (tt : Nat) (x : Trigger) : (s.setTrg tt x).rr = s.rr := rfl
@[simp] theorem State.setTrg_ten (s : State) (tt : Nat) (x : Trigger) : (s.setTrg tt x).ten = s.ten := rfl
@[simp] theorem State.setTrg_que (s : State) (tt : Nat) (x : Trigger) : (s.setTrg tt x).que = s.que := rfl
@[simp] theorem State.setTrg_vis (s : State) (tt : Nat) (x : Trigger) : (s.setTrg tt x).vis = s.vis := rfl
@[simp] theorem State.setTrg_marks (s : State) (tt : Nat) (x : Trigger) : (s.setTrg tt x).marks = s.marks := rfl
@[simp] theorem State.setTrg_led (s : State) (tt : Nat) (x : Trigger) : (s.setTrg tt x).led = s.led := rfl
@[simp] theorem State.setTrg_pow (s : State) (tt : Nat) (x : Trigger) : (s.setTrg tt x).pow = s.pow := rfl
@[simp] theorem State.setTrg_chan (s : State) (tt : Nat) (x : Trigger) : (s.setTrg tt x).chan = s.chan := rfl
@[simp] theorem State.setTrg_pur (s : State) (tt : Nat) (x : Trigger) : (s.setTrg tt x).pur = s.pur := rfl
@[simp] theorem State.setTrg_yar (s : State) (tt : Nat) (x : Trigger) : (s.setTrg tt x).yar = s.yar := rfl
@[simp] theorem State.setTrg_flt (s : State) (tt : Nat) (x : Trigger) : (s.setTrg tt x).flt = s.flt := rfl
@[simp] theorem State.setTrg_fio (s : State) (tt : Nat) (x : Trigger) : (s.setTrg tt x).fio = s.fio := rfl
@[simp] theorem State.setTrg_mea (s : State) (tt : Nat) (x : Trigger) : (s.setTrg tt x).mea = s.mea := rfl
@[simp] theorem State.setTrg_aud (s : State) (tt : Nat) (x : Trigger) : (s.setTrg tt x).aud = s.aud := rfl
@[simp] theorem State.setTrg_net (s : State) (tt : Nat) (x : Trigger) : (s.setTrg tt x).net = s.net := rfl
@[simp] theorem State.setTrg_tsn (s : State) (tt : Nat) (x : Trigger) : (s.setTrg tt x).tsn = s.tsn := rfl
@[simp] theorem State.setTrg_bus (s : State) (tt : Nat) (x : Trigger) : (s.setTrg tt x).bus = s.bus := rfl
@[simp] theorem State.setTrg_gwy (s : State) (tt : Nat) (x : Trigger) : (s.setTrg tt x).gwy = s.gwy := rfl
@[simp] theorem State.setTrg_nmg (s : State) (tt : Nat) (x : Trigger) : (s.setTrg tt x).nmg = s.nmg := rfl
@[simp] theorem State.setTrg_cpu (s : State) (tt : Nat) (x : Trigger) : (s.setTrg tt x).cpu = s.cpu := rfl
@[simp] theorem State.setTrg_vlt (s : State) (tt : Nat) (x : Trigger) : (s.setTrg tt x).vlt = s.vlt := rfl
@[simp] theorem State.setTrg_sto (s : State) (tt : Nat) (x : Trigger) : (s.setTrg tt x).sto = s.sto := rfl
@[simp] theorem State.setTrg_img (s : State) (tt : Nat) (x : Trigger) : (s.setTrg tt x).img = s.img := rfl

@[simp] theorem State.setSp_pending (s : State) (p : Nat) (x : SwPort) : (s.setSp p x).pending = s.pending := rfl
@[simp] theorem State.setSp_clk (s : State) (p : Nat) (x : SwPort) : (s.setSp p x).clk = s.clk := rfl
@[simp] theorem State.setSp_free (s : State) (p : Nat) (x : SwPort) : (s.setSp p x).free = s.free := rfl
@[simp] theorem State.setSp_nextId (s : State) (p : Nat) (x : SwPort) : (s.setSp p x).nextId = s.nextId := rfl
@[simp] theorem State.setSp_env (s : State) (p : Nat) (x : SwPort) : (s.setSp p x).env = s.env := rfl
@[simp] theorem State.setSp_mem (s : State) (p : Nat) (x : SwPort) : (s.setSp p x).mem = s.mem := rfl
@[simp] theorem State.setSp_rdata (s : State) (p : Nat) (x : SwPort) : (s.setSp p x).rdata = s.rdata := rfl
@[simp] theorem State.setSp_ident (s : State) (p : Nat) (x : SwPort) : (s.setSp p x).ident = s.ident := rfl
@[simp] theorem State.setSp_image (s : State) (p : Nat) (x : SwPort) : (s.setSp p x).image = s.image := rfl
@[simp] theorem State.setSp_tim (s : State) (p : Nat) (x : SwPort) : (s.setSp p x).tim = s.tim := rfl
@[simp] theorem State.setSp_isl (s : State) (p : Nat) (x : SwPort) : (s.setSp p x).isl = s.isl := rfl
@[simp] theorem State.setSp_gates (s : State) (p : Nat) (x : SwPort) : (s.setSp p x).gates = s.gates := rfl
@[simp] theorem State.setSp_inflight (s : State) (p : Nat) (x : SwPort) : (s.setSp p x).inflight = s.inflight := rfl
@[simp] theorem State.setSp_rr (s : State) (p : Nat) (x : SwPort) : (s.setSp p x).rr = s.rr := rfl
@[simp] theorem State.setSp_ten (s : State) (p : Nat) (x : SwPort) : (s.setSp p x).ten = s.ten := rfl
@[simp] theorem State.setSp_que (s : State) (p : Nat) (x : SwPort) : (s.setSp p x).que = s.que := rfl
@[simp] theorem State.setSp_vis (s : State) (p : Nat) (x : SwPort) : (s.setSp p x).vis = s.vis := rfl
@[simp] theorem State.setSp_marks (s : State) (p : Nat) (x : SwPort) : (s.setSp p x).marks = s.marks := rfl
@[simp] theorem State.setSp_led (s : State) (p : Nat) (x : SwPort) : (s.setSp p x).led = s.led := rfl
@[simp] theorem State.setSp_pow (s : State) (p : Nat) (x : SwPort) : (s.setSp p x).pow = s.pow := rfl
@[simp] theorem State.setSp_chan (s : State) (p : Nat) (x : SwPort) : (s.setSp p x).chan = s.chan := rfl
@[simp] theorem State.setSp_pur (s : State) (p : Nat) (x : SwPort) : (s.setSp p x).pur = s.pur := rfl
@[simp] theorem State.setSp_yar (s : State) (p : Nat) (x : SwPort) : (s.setSp p x).yar = s.yar := rfl
@[simp] theorem State.setSp_flt (s : State) (p : Nat) (x : SwPort) : (s.setSp p x).flt = s.flt := rfl
@[simp] theorem State.setSp_fio (s : State) (p : Nat) (x : SwPort) : (s.setSp p x).fio = s.fio := rfl
@[simp] theorem State.setSp_mea (s : State) (p : Nat) (x : SwPort) : (s.setSp p x).mea = s.mea := rfl
@[simp] theorem State.setSp_aud (s : State) (p : Nat) (x : SwPort) : (s.setSp p x).aud = s.aud := rfl
@[simp] theorem State.setSp_tsn (s : State) (p : Nat) (x : SwPort) : (s.setSp p x).tsn = s.tsn := rfl
@[simp] theorem State.setSp_bus (s : State) (p : Nat) (x : SwPort) : (s.setSp p x).bus = s.bus := rfl
@[simp] theorem State.setSp_gwy (s : State) (p : Nat) (x : SwPort) : (s.setSp p x).gwy = s.gwy := rfl
@[simp] theorem State.setSp_nmg (s : State) (p : Nat) (x : SwPort) : (s.setSp p x).nmg = s.nmg := rfl
@[simp] theorem State.setSp_cpu (s : State) (p : Nat) (x : SwPort) : (s.setSp p x).cpu = s.cpu := rfl
@[simp] theorem State.setSp_vlt (s : State) (p : Nat) (x : SwPort) : (s.setSp p x).vlt = s.vlt := rfl
@[simp] theorem State.setSp_sto (s : State) (p : Nat) (x : SwPort) : (s.setSp p x).sto = s.sto := rfl
@[simp] theorem State.setSp_img (s : State) (p : Nat) (x : SwPort) : (s.setSp p x).img = s.img := rfl

@[simp] theorem State.setCan_pending (s : State) (n : Nat) (x : CanCtl) : (s.setCan n x).pending = s.pending := rfl
@[simp] theorem State.setCan_clk (s : State) (n : Nat) (x : CanCtl) : (s.setCan n x).clk = s.clk := rfl
@[simp] theorem State.setCan_free (s : State) (n : Nat) (x : CanCtl) : (s.setCan n x).free = s.free := rfl
@[simp] theorem State.setCan_nextId (s : State) (n : Nat) (x : CanCtl) : (s.setCan n x).nextId = s.nextId := rfl
@[simp] theorem State.setCan_env (s : State) (n : Nat) (x : CanCtl) : (s.setCan n x).env = s.env := rfl
@[simp] theorem State.setCan_mem (s : State) (n : Nat) (x : CanCtl) : (s.setCan n x).mem = s.mem := rfl
@[simp] theorem State.setCan_rdata (s : State) (n : Nat) (x : CanCtl) : (s.setCan n x).rdata = s.rdata := rfl
@[simp] theorem State.setCan_ident (s : State) (n : Nat) (x : CanCtl) : (s.setCan n x).ident = s.ident := rfl
@[simp] theorem State.setCan_image (s : State) (n : Nat) (x : CanCtl) : (s.setCan n x).image = s.image := rfl
@[simp] theorem State.setCan_tim (s : State) (n : Nat) (x : CanCtl) : (s.setCan n x).tim = s.tim := rfl
@[simp] theorem State.setCan_isl (s : State) (n : Nat) (x : CanCtl) : (s.setCan n x).isl = s.isl := rfl
@[simp] theorem State.setCan_gates (s : State) (n : Nat) (x : CanCtl) : (s.setCan n x).gates = s.gates := rfl
@[simp] theorem State.setCan_inflight (s : State) (n : Nat) (x : CanCtl) : (s.setCan n x).inflight = s.inflight := rfl
@[simp] theorem State.setCan_rr (s : State) (n : Nat) (x : CanCtl) : (s.setCan n x).rr = s.rr := rfl
@[simp] theorem State.setCan_ten (s : State) (n : Nat) (x : CanCtl) : (s.setCan n x).ten = s.ten := rfl
@[simp] theorem State.setCan_que (s : State) (n : Nat) (x : CanCtl) : (s.setCan n x).que = s.que := rfl
@[simp] theorem State.setCan_vis (s : State) (n : Nat) (x : CanCtl) : (s.setCan n x).vis = s.vis := rfl
@[simp] theorem State.setCan_marks (s : State) (n : Nat) (x : CanCtl) : (s.setCan n x).marks = s.marks := rfl
@[simp] theorem State.setCan_led (s : State) (n : Nat) (x : CanCtl) : (s.setCan n x).led = s.led := rfl
@[simp] theorem State.setCan_pow (s : State) (n : Nat) (x : CanCtl) : (s.setCan n x).pow = s.pow := rfl
@[simp] theorem State.setCan_chan (s : State) (n : Nat) (x : CanCtl) : (s.setCan n x).chan = s.chan := rfl
@[simp] theorem State.setCan_pur (s : State) (n : Nat) (x : CanCtl) : (s.setCan n x).pur = s.pur := rfl
@[simp] theorem State.setCan_yar (s : State) (n : Nat) (x : CanCtl) : (s.setCan n x).yar = s.yar := rfl
@[simp] theorem State.setCan_flt (s : State) (n : Nat) (x : CanCtl) : (s.setCan n x).flt = s.flt := rfl
@[simp] theorem State.setCan_fio (s : State) (n : Nat) (x : CanCtl) : (s.setCan n x).fio = s.fio := rfl
@[simp] theorem State.setCan_mea (s : State) (n : Nat) (x : CanCtl) : (s.setCan n x).mea = s.mea := rfl
@[simp] theorem State.setCan_aud (s : State) (n : Nat) (x : CanCtl) : (s.setCan n x).aud = s.aud := rfl
@[simp] theorem State.setCan_net (s : State) (n : Nat) (x : CanCtl) : (s.setCan n x).net = s.net := rfl
@[simp] theorem State.setCan_tsn (s : State) (n : Nat) (x : CanCtl) : (s.setCan n x).tsn = s.tsn := rfl
@[simp] theorem State.setCan_gwy (s : State) (n : Nat) (x : CanCtl) : (s.setCan n x).gwy = s.gwy := rfl
@[simp] theorem State.setCan_nmg (s : State) (n : Nat) (x : CanCtl) : (s.setCan n x).nmg = s.nmg := rfl
@[simp] theorem State.setCan_cpu (s : State) (n : Nat) (x : CanCtl) : (s.setCan n x).cpu = s.cpu := rfl
@[simp] theorem State.setCan_vlt (s : State) (n : Nat) (x : CanCtl) : (s.setCan n x).vlt = s.vlt := rfl
@[simp] theorem State.setCan_sto (s : State) (n : Nat) (x : CanCtl) : (s.setCan n x).sto = s.sto := rfl
@[simp] theorem State.setCan_img (s : State) (n : Nat) (x : CanCtl) : (s.setCan n x).img = s.img := rfl

@[simp] theorem State.setLin_pending (s : State) (n : Nat) (x : LinCh) : (s.setLin n x).pending = s.pending := rfl
@[simp] theorem State.setLin_clk (s : State) (n : Nat) (x : LinCh) : (s.setLin n x).clk = s.clk := rfl
@[simp] theorem State.setLin_free (s : State) (n : Nat) (x : LinCh) : (s.setLin n x).free = s.free := rfl
@[simp] theorem State.setLin_nextId (s : State) (n : Nat) (x : LinCh) : (s.setLin n x).nextId = s.nextId := rfl
@[simp] theorem State.setLin_env (s : State) (n : Nat) (x : LinCh) : (s.setLin n x).env = s.env := rfl
@[simp] theorem State.setLin_mem (s : State) (n : Nat) (x : LinCh) : (s.setLin n x).mem = s.mem := rfl
@[simp] theorem State.setLin_rdata (s : State) (n : Nat) (x : LinCh) : (s.setLin n x).rdata = s.rdata := rfl
@[simp] theorem State.setLin_ident (s : State) (n : Nat) (x : LinCh) : (s.setLin n x).ident = s.ident := rfl
@[simp] theorem State.setLin_image (s : State) (n : Nat) (x : LinCh) : (s.setLin n x).image = s.image := rfl
@[simp] theorem State.setLin_tim (s : State) (n : Nat) (x : LinCh) : (s.setLin n x).tim = s.tim := rfl
@[simp] theorem State.setLin_isl (s : State) (n : Nat) (x : LinCh) : (s.setLin n x).isl = s.isl := rfl
@[simp] theorem State.setLin_gates (s : State) (n : Nat) (x : LinCh) : (s.setLin n x).gates = s.gates := rfl
@[simp] theorem State.setLin_inflight (s : State) (n : Nat) (x : LinCh) : (s.setLin n x).inflight = s.inflight := rfl
@[simp] theorem State.setLin_rr (s : State) (n : Nat) (x : LinCh) : (s.setLin n x).rr = s.rr := rfl
@[simp] theorem State.setLin_ten (s : State) (n : Nat) (x : LinCh) : (s.setLin n x).ten = s.ten := rfl
@[simp] theorem State.setLin_que (s : State) (n : Nat) (x : LinCh) : (s.setLin n x).que = s.que := rfl
@[simp] theorem State.setLin_vis (s : State) (n : Nat) (x : LinCh) : (s.setLin n x).vis = s.vis := rfl
@[simp] theorem State.setLin_marks (s : State) (n : Nat) (x : LinCh) : (s.setLin n x).marks = s.marks := rfl
@[simp] theorem State.setLin_led (s : State) (n : Nat) (x : LinCh) : (s.setLin n x).led = s.led := rfl
@[simp] theorem State.setLin_pow (s : State) (n : Nat) (x : LinCh) : (s.setLin n x).pow = s.pow := rfl
@[simp] theorem State.setLin_chan (s : State) (n : Nat) (x : LinCh) : (s.setLin n x).chan = s.chan := rfl
@[simp] theorem State.setLin_pur (s : State) (n : Nat) (x : LinCh) : (s.setLin n x).pur = s.pur := rfl
@[simp] theorem State.setLin_yar (s : State) (n : Nat) (x : LinCh) : (s.setLin n x).yar = s.yar := rfl
@[simp] theorem State.setLin_flt (s : State) (n : Nat) (x : LinCh) : (s.setLin n x).flt = s.flt := rfl
@[simp] theorem State.setLin_fio (s : State) (n : Nat) (x : LinCh) : (s.setLin n x).fio = s.fio := rfl
@[simp] theorem State.setLin_mea (s : State) (n : Nat) (x : LinCh) : (s.setLin n x).mea = s.mea := rfl
@[simp] theorem State.setLin_aud (s : State) (n : Nat) (x : LinCh) : (s.setLin n x).aud = s.aud := rfl
@[simp] theorem State.setLin_net (s : State) (n : Nat) (x : LinCh) : (s.setLin n x).net = s.net := rfl
@[simp] theorem State.setLin_tsn (s : State) (n : Nat) (x : LinCh) : (s.setLin n x).tsn = s.tsn := rfl
@[simp] theorem State.setLin_gwy (s : State) (n : Nat) (x : LinCh) : (s.setLin n x).gwy = s.gwy := rfl
@[simp] theorem State.setLin_nmg (s : State) (n : Nat) (x : LinCh) : (s.setLin n x).nmg = s.nmg := rfl
@[simp] theorem State.setLin_cpu (s : State) (n : Nat) (x : LinCh) : (s.setLin n x).cpu = s.cpu := rfl
@[simp] theorem State.setLin_vlt (s : State) (n : Nat) (x : LinCh) : (s.setLin n x).vlt = s.vlt := rfl
@[simp] theorem State.setLin_sto (s : State) (n : Nat) (x : LinCh) : (s.setLin n x).sto = s.sto := rfl
@[simp] theorem State.setLin_img (s : State) (n : Nat) (x : LinCh) : (s.setLin n x).img = s.img := rfl

@[simp] theorem State.setAcf_pending (s : State) (c : Nat) (x : AcfCtx) : (s.setAcf c x).pending = s.pending := rfl
@[simp] theorem State.setAcf_clk (s : State) (c : Nat) (x : AcfCtx) : (s.setAcf c x).clk = s.clk := rfl
@[simp] theorem State.setAcf_free (s : State) (c : Nat) (x : AcfCtx) : (s.setAcf c x).free = s.free := rfl
@[simp] theorem State.setAcf_nextId (s : State) (c : Nat) (x : AcfCtx) : (s.setAcf c x).nextId = s.nextId := rfl
@[simp] theorem State.setAcf_env (s : State) (c : Nat) (x : AcfCtx) : (s.setAcf c x).env = s.env := rfl
@[simp] theorem State.setAcf_mem (s : State) (c : Nat) (x : AcfCtx) : (s.setAcf c x).mem = s.mem := rfl
@[simp] theorem State.setAcf_rdata (s : State) (c : Nat) (x : AcfCtx) : (s.setAcf c x).rdata = s.rdata := rfl
@[simp] theorem State.setAcf_ident (s : State) (c : Nat) (x : AcfCtx) : (s.setAcf c x).ident = s.ident := rfl
@[simp] theorem State.setAcf_image (s : State) (c : Nat) (x : AcfCtx) : (s.setAcf c x).image = s.image := rfl
@[simp] theorem State.setAcf_tim (s : State) (c : Nat) (x : AcfCtx) : (s.setAcf c x).tim = s.tim := rfl
@[simp] theorem State.setAcf_isl (s : State) (c : Nat) (x : AcfCtx) : (s.setAcf c x).isl = s.isl := rfl
@[simp] theorem State.setAcf_gates (s : State) (c : Nat) (x : AcfCtx) : (s.setAcf c x).gates = s.gates := rfl
@[simp] theorem State.setAcf_inflight (s : State) (c : Nat) (x : AcfCtx) : (s.setAcf c x).inflight = s.inflight := rfl
@[simp] theorem State.setAcf_rr (s : State) (c : Nat) (x : AcfCtx) : (s.setAcf c x).rr = s.rr := rfl
@[simp] theorem State.setAcf_ten (s : State) (c : Nat) (x : AcfCtx) : (s.setAcf c x).ten = s.ten := rfl
@[simp] theorem State.setAcf_que (s : State) (c : Nat) (x : AcfCtx) : (s.setAcf c x).que = s.que := rfl
@[simp] theorem State.setAcf_vis (s : State) (c : Nat) (x : AcfCtx) : (s.setAcf c x).vis = s.vis := rfl
@[simp] theorem State.setAcf_marks (s : State) (c : Nat) (x : AcfCtx) : (s.setAcf c x).marks = s.marks := rfl
@[simp] theorem State.setAcf_led (s : State) (c : Nat) (x : AcfCtx) : (s.setAcf c x).led = s.led := rfl
@[simp] theorem State.setAcf_pow (s : State) (c : Nat) (x : AcfCtx) : (s.setAcf c x).pow = s.pow := rfl
@[simp] theorem State.setAcf_chan (s : State) (c : Nat) (x : AcfCtx) : (s.setAcf c x).chan = s.chan := rfl
@[simp] theorem State.setAcf_pur (s : State) (c : Nat) (x : AcfCtx) : (s.setAcf c x).pur = s.pur := rfl
@[simp] theorem State.setAcf_yar (s : State) (c : Nat) (x : AcfCtx) : (s.setAcf c x).yar = s.yar := rfl
@[simp] theorem State.setAcf_flt (s : State) (c : Nat) (x : AcfCtx) : (s.setAcf c x).flt = s.flt := rfl
@[simp] theorem State.setAcf_fio (s : State) (c : Nat) (x : AcfCtx) : (s.setAcf c x).fio = s.fio := rfl
@[simp] theorem State.setAcf_mea (s : State) (c : Nat) (x : AcfCtx) : (s.setAcf c x).mea = s.mea := rfl
@[simp] theorem State.setAcf_aud (s : State) (c : Nat) (x : AcfCtx) : (s.setAcf c x).aud = s.aud := rfl
@[simp] theorem State.setAcf_net (s : State) (c : Nat) (x : AcfCtx) : (s.setAcf c x).net = s.net := rfl
@[simp] theorem State.setAcf_tsn (s : State) (c : Nat) (x : AcfCtx) : (s.setAcf c x).tsn = s.tsn := rfl
@[simp] theorem State.setAcf_bus (s : State) (c : Nat) (x : AcfCtx) : (s.setAcf c x).bus = s.bus := rfl
@[simp] theorem State.setAcf_nmg (s : State) (c : Nat) (x : AcfCtx) : (s.setAcf c x).nmg = s.nmg := rfl
@[simp] theorem State.setAcf_cpu (s : State) (c : Nat) (x : AcfCtx) : (s.setAcf c x).cpu = s.cpu := rfl
@[simp] theorem State.setAcf_vlt (s : State) (c : Nat) (x : AcfCtx) : (s.setAcf c x).vlt = s.vlt := rfl
@[simp] theorem State.setAcf_sto (s : State) (c : Nat) (x : AcfCtx) : (s.setAcf c x).sto = s.sto := rfl
@[simp] theorem State.setAcf_img (s : State) (c : Nat) (x : AcfCtx) : (s.setAcf c x).img = s.img := rfl

@[simp] theorem State.setPart_pending (s : State) (p : Nat) (x : Part) : (s.setPart p x).pending = s.pending := rfl
@[simp] theorem State.setPart_clk (s : State) (p : Nat) (x : Part) : (s.setPart p x).clk = s.clk := rfl
@[simp] theorem State.setPart_free (s : State) (p : Nat) (x : Part) : (s.setPart p x).free = s.free := rfl
@[simp] theorem State.setPart_nextId (s : State) (p : Nat) (x : Part) : (s.setPart p x).nextId = s.nextId := rfl
@[simp] theorem State.setPart_env (s : State) (p : Nat) (x : Part) : (s.setPart p x).env = s.env := rfl
@[simp] theorem State.setPart_mem (s : State) (p : Nat) (x : Part) : (s.setPart p x).mem = s.mem := rfl
@[simp] theorem State.setPart_rdata (s : State) (p : Nat) (x : Part) : (s.setPart p x).rdata = s.rdata := rfl
@[simp] theorem State.setPart_ident (s : State) (p : Nat) (x : Part) : (s.setPart p x).ident = s.ident := rfl
@[simp] theorem State.setPart_image (s : State) (p : Nat) (x : Part) : (s.setPart p x).image = s.image := rfl
@[simp] theorem State.setPart_tim (s : State) (p : Nat) (x : Part) : (s.setPart p x).tim = s.tim := rfl
@[simp] theorem State.setPart_isl (s : State) (p : Nat) (x : Part) : (s.setPart p x).isl = s.isl := rfl
@[simp] theorem State.setPart_gates (s : State) (p : Nat) (x : Part) : (s.setPart p x).gates = s.gates := rfl
@[simp] theorem State.setPart_inflight (s : State) (p : Nat) (x : Part) : (s.setPart p x).inflight = s.inflight := rfl
@[simp] theorem State.setPart_rr (s : State) (p : Nat) (x : Part) : (s.setPart p x).rr = s.rr := rfl
@[simp] theorem State.setPart_ten (s : State) (p : Nat) (x : Part) : (s.setPart p x).ten = s.ten := rfl
@[simp] theorem State.setPart_que (s : State) (p : Nat) (x : Part) : (s.setPart p x).que = s.que := rfl
@[simp] theorem State.setPart_vis (s : State) (p : Nat) (x : Part) : (s.setPart p x).vis = s.vis := rfl
@[simp] theorem State.setPart_marks (s : State) (p : Nat) (x : Part) : (s.setPart p x).marks = s.marks := rfl
@[simp] theorem State.setPart_led (s : State) (p : Nat) (x : Part) : (s.setPart p x).led = s.led := rfl
@[simp] theorem State.setPart_pow (s : State) (p : Nat) (x : Part) : (s.setPart p x).pow = s.pow := rfl
@[simp] theorem State.setPart_chan (s : State) (p : Nat) (x : Part) : (s.setPart p x).chan = s.chan := rfl
@[simp] theorem State.setPart_pur (s : State) (p : Nat) (x : Part) : (s.setPart p x).pur = s.pur := rfl
@[simp] theorem State.setPart_yar (s : State) (p : Nat) (x : Part) : (s.setPart p x).yar = s.yar := rfl
@[simp] theorem State.setPart_flt (s : State) (p : Nat) (x : Part) : (s.setPart p x).flt = s.flt := rfl
@[simp] theorem State.setPart_fio (s : State) (p : Nat) (x : Part) : (s.setPart p x).fio = s.fio := rfl
@[simp] theorem State.setPart_mea (s : State) (p : Nat) (x : Part) : (s.setPart p x).mea = s.mea := rfl
@[simp] theorem State.setPart_aud (s : State) (p : Nat) (x : Part) : (s.setPart p x).aud = s.aud := rfl
@[simp] theorem State.setPart_net (s : State) (p : Nat) (x : Part) : (s.setPart p x).net = s.net := rfl
@[simp] theorem State.setPart_tsn (s : State) (p : Nat) (x : Part) : (s.setPart p x).tsn = s.tsn := rfl
@[simp] theorem State.setPart_bus (s : State) (p : Nat) (x : Part) : (s.setPart p x).bus = s.bus := rfl
@[simp] theorem State.setPart_gwy (s : State) (p : Nat) (x : Part) : (s.setPart p x).gwy = s.gwy := rfl
@[simp] theorem State.setPart_nmg (s : State) (p : Nat) (x : Part) : (s.setPart p x).nmg = s.nmg := rfl
@[simp] theorem State.setPart_vlt (s : State) (p : Nat) (x : Part) : (s.setPart p x).vlt = s.vlt := rfl
@[simp] theorem State.setPart_sto (s : State) (p : Nat) (x : Part) : (s.setPart p x).sto = s.sto := rfl
@[simp] theorem State.setPart_img (s : State) (p : Nat) (x : Part) : (s.setPart p x).img = s.img := rfl

@[simp] theorem State.setHart_pending (s : State) (h : Nat) (x : Hart) : (s.setHart h x).pending = s.pending := rfl
@[simp] theorem State.setHart_clk (s : State) (h : Nat) (x : Hart) : (s.setHart h x).clk = s.clk := rfl
@[simp] theorem State.setHart_free (s : State) (h : Nat) (x : Hart) : (s.setHart h x).free = s.free := rfl
@[simp] theorem State.setHart_nextId (s : State) (h : Nat) (x : Hart) : (s.setHart h x).nextId = s.nextId := rfl
@[simp] theorem State.setHart_env (s : State) (h : Nat) (x : Hart) : (s.setHart h x).env = s.env := rfl
@[simp] theorem State.setHart_mem (s : State) (h : Nat) (x : Hart) : (s.setHart h x).mem = s.mem := rfl
@[simp] theorem State.setHart_rdata (s : State) (h : Nat) (x : Hart) : (s.setHart h x).rdata = s.rdata := rfl
@[simp] theorem State.setHart_ident (s : State) (h : Nat) (x : Hart) : (s.setHart h x).ident = s.ident := rfl
@[simp] theorem State.setHart_image (s : State) (h : Nat) (x : Hart) : (s.setHart h x).image = s.image := rfl
@[simp] theorem State.setHart_tim (s : State) (h : Nat) (x : Hart) : (s.setHart h x).tim = s.tim := rfl
@[simp] theorem State.setHart_isl (s : State) (h : Nat) (x : Hart) : (s.setHart h x).isl = s.isl := rfl
@[simp] theorem State.setHart_gates (s : State) (h : Nat) (x : Hart) : (s.setHart h x).gates = s.gates := rfl
@[simp] theorem State.setHart_inflight (s : State) (h : Nat) (x : Hart) : (s.setHart h x).inflight = s.inflight := rfl
@[simp] theorem State.setHart_rr (s : State) (h : Nat) (x : Hart) : (s.setHart h x).rr = s.rr := rfl
@[simp] theorem State.setHart_ten (s : State) (h : Nat) (x : Hart) : (s.setHart h x).ten = s.ten := rfl
@[simp] theorem State.setHart_que (s : State) (h : Nat) (x : Hart) : (s.setHart h x).que = s.que := rfl
@[simp] theorem State.setHart_vis (s : State) (h : Nat) (x : Hart) : (s.setHart h x).vis = s.vis := rfl
@[simp] theorem State.setHart_marks (s : State) (h : Nat) (x : Hart) : (s.setHart h x).marks = s.marks := rfl
@[simp] theorem State.setHart_led (s : State) (h : Nat) (x : Hart) : (s.setHart h x).led = s.led := rfl
@[simp] theorem State.setHart_pow (s : State) (h : Nat) (x : Hart) : (s.setHart h x).pow = s.pow := rfl
@[simp] theorem State.setHart_chan (s : State) (h : Nat) (x : Hart) : (s.setHart h x).chan = s.chan := rfl
@[simp] theorem State.setHart_pur (s : State) (h : Nat) (x : Hart) : (s.setHart h x).pur = s.pur := rfl
@[simp] theorem State.setHart_yar (s : State) (h : Nat) (x : Hart) : (s.setHart h x).yar = s.yar := rfl
@[simp] theorem State.setHart_flt (s : State) (h : Nat) (x : Hart) : (s.setHart h x).flt = s.flt := rfl
@[simp] theorem State.setHart_fio (s : State) (h : Nat) (x : Hart) : (s.setHart h x).fio = s.fio := rfl
@[simp] theorem State.setHart_mea (s : State) (h : Nat) (x : Hart) : (s.setHart h x).mea = s.mea := rfl
@[simp] theorem State.setHart_aud (s : State) (h : Nat) (x : Hart) : (s.setHart h x).aud = s.aud := rfl
@[simp] theorem State.setHart_net (s : State) (h : Nat) (x : Hart) : (s.setHart h x).net = s.net := rfl
@[simp] theorem State.setHart_tsn (s : State) (h : Nat) (x : Hart) : (s.setHart h x).tsn = s.tsn := rfl
@[simp] theorem State.setHart_bus (s : State) (h : Nat) (x : Hart) : (s.setHart h x).bus = s.bus := rfl
@[simp] theorem State.setHart_gwy (s : State) (h : Nat) (x : Hart) : (s.setHart h x).gwy = s.gwy := rfl
@[simp] theorem State.setHart_nmg (s : State) (h : Nat) (x : Hart) : (s.setHart h x).nmg = s.nmg := rfl
@[simp] theorem State.setHart_vlt (s : State) (h : Nat) (x : Hart) : (s.setHart h x).vlt = s.vlt := rfl
@[simp] theorem State.setHart_sto (s : State) (h : Nat) (x : Hart) : (s.setHart h x).sto = s.sto := rfl
@[simp] theorem State.setHart_img (s : State) (h : Nat) (x : Hart) : (s.setHart h x).img = s.img := rfl

@[simp] theorem State.setPair_pending (s : State) (p : Nat) (x : Pair) : (s.setPair p x).pending = s.pending := rfl
@[simp] theorem State.setPair_clk (s : State) (p : Nat) (x : Pair) : (s.setPair p x).clk = s.clk := rfl
@[simp] theorem State.setPair_free (s : State) (p : Nat) (x : Pair) : (s.setPair p x).free = s.free := rfl
@[simp] theorem State.setPair_nextId (s : State) (p : Nat) (x : Pair) : (s.setPair p x).nextId = s.nextId := rfl
@[simp] theorem State.setPair_env (s : State) (p : Nat) (x : Pair) : (s.setPair p x).env = s.env := rfl
@[simp] theorem State.setPair_mem (s : State) (p : Nat) (x : Pair) : (s.setPair p x).mem = s.mem := rfl
@[simp] theorem State.setPair_rdata (s : State) (p : Nat) (x : Pair) : (s.setPair p x).rdata = s.rdata := rfl
@[simp] theorem State.setPair_ident (s : State) (p : Nat) (x : Pair) : (s.setPair p x).ident = s.ident := rfl
@[simp] theorem State.setPair_image (s : State) (p : Nat) (x : Pair) : (s.setPair p x).image = s.image := rfl
@[simp] theorem State.setPair_tim (s : State) (p : Nat) (x : Pair) : (s.setPair p x).tim = s.tim := rfl
@[simp] theorem State.setPair_isl (s : State) (p : Nat) (x : Pair) : (s.setPair p x).isl = s.isl := rfl
@[simp] theorem State.setPair_gates (s : State) (p : Nat) (x : Pair) : (s.setPair p x).gates = s.gates := rfl
@[simp] theorem State.setPair_inflight (s : State) (p : Nat) (x : Pair) : (s.setPair p x).inflight = s.inflight := rfl
@[simp] theorem State.setPair_rr (s : State) (p : Nat) (x : Pair) : (s.setPair p x).rr = s.rr := rfl
@[simp] theorem State.setPair_ten (s : State) (p : Nat) (x : Pair) : (s.setPair p x).ten = s.ten := rfl
@[simp] theorem State.setPair_que (s : State) (p : Nat) (x : Pair) : (s.setPair p x).que = s.que := rfl
@[simp] theorem State.setPair_vis (s : State) (p : Nat) (x : Pair) : (s.setPair p x).vis = s.vis := rfl
@[simp] theorem State.setPair_marks (s : State) (p : Nat) (x : Pair) : (s.setPair p x).marks = s.marks := rfl
@[simp] theorem State.setPair_led (s : State) (p : Nat) (x : Pair) : (s.setPair p x).led = s.led := rfl
@[simp] theorem State.setPair_pow (s : State) (p : Nat) (x : Pair) : (s.setPair p x).pow = s.pow := rfl
@[simp] theorem State.setPair_chan (s : State) (p : Nat) (x : Pair) : (s.setPair p x).chan = s.chan := rfl
@[simp] theorem State.setPair_pur (s : State) (p : Nat) (x : Pair) : (s.setPair p x).pur = s.pur := rfl
@[simp] theorem State.setPair_yar (s : State) (p : Nat) (x : Pair) : (s.setPair p x).yar = s.yar := rfl
@[simp] theorem State.setPair_flt (s : State) (p : Nat) (x : Pair) : (s.setPair p x).flt = s.flt := rfl
@[simp] theorem State.setPair_fio (s : State) (p : Nat) (x : Pair) : (s.setPair p x).fio = s.fio := rfl
@[simp] theorem State.setPair_mea (s : State) (p : Nat) (x : Pair) : (s.setPair p x).mea = s.mea := rfl
@[simp] theorem State.setPair_aud (s : State) (p : Nat) (x : Pair) : (s.setPair p x).aud = s.aud := rfl
@[simp] theorem State.setPair_net (s : State) (p : Nat) (x : Pair) : (s.setPair p x).net = s.net := rfl
@[simp] theorem State.setPair_tsn (s : State) (p : Nat) (x : Pair) : (s.setPair p x).tsn = s.tsn := rfl
@[simp] theorem State.setPair_bus (s : State) (p : Nat) (x : Pair) : (s.setPair p x).bus = s.bus := rfl
@[simp] theorem State.setPair_gwy (s : State) (p : Nat) (x : Pair) : (s.setPair p x).gwy = s.gwy := rfl
@[simp] theorem State.setPair_nmg (s : State) (p : Nat) (x : Pair) : (s.setPair p x).nmg = s.nmg := rfl
@[simp] theorem State.setPair_vlt (s : State) (p : Nat) (x : Pair) : (s.setPair p x).vlt = s.vlt := rfl
@[simp] theorem State.setPair_sto (s : State) (p : Nat) (x : Pair) : (s.setPair p x).sto = s.sto := rfl
@[simp] theorem State.setPair_img (s : State) (p : Nat) (x : Pair) : (s.setPair p x).img = s.img := rfl

@[simp] theorem State.setMemCnt_pending (s : State) (m : Nat) (x : MemCnt) : (s.setMemCnt m x).pending = s.pending := rfl
@[simp] theorem State.setMemCnt_clk (s : State) (m : Nat) (x : MemCnt) : (s.setMemCnt m x).clk = s.clk := rfl
@[simp] theorem State.setMemCnt_free (s : State) (m : Nat) (x : MemCnt) : (s.setMemCnt m x).free = s.free := rfl
@[simp] theorem State.setMemCnt_nextId (s : State) (m : Nat) (x : MemCnt) : (s.setMemCnt m x).nextId = s.nextId := rfl
@[simp] theorem State.setMemCnt_env (s : State) (m : Nat) (x : MemCnt) : (s.setMemCnt m x).env = s.env := rfl
@[simp] theorem State.setMemCnt_mem (s : State) (m : Nat) (x : MemCnt) : (s.setMemCnt m x).mem = s.mem := rfl
@[simp] theorem State.setMemCnt_rdata (s : State) (m : Nat) (x : MemCnt) : (s.setMemCnt m x).rdata = s.rdata := rfl
@[simp] theorem State.setMemCnt_ident (s : State) (m : Nat) (x : MemCnt) : (s.setMemCnt m x).ident = s.ident := rfl
@[simp] theorem State.setMemCnt_image (s : State) (m : Nat) (x : MemCnt) : (s.setMemCnt m x).image = s.image := rfl
@[simp] theorem State.setMemCnt_tim (s : State) (m : Nat) (x : MemCnt) : (s.setMemCnt m x).tim = s.tim := rfl
@[simp] theorem State.setMemCnt_isl (s : State) (m : Nat) (x : MemCnt) : (s.setMemCnt m x).isl = s.isl := rfl
@[simp] theorem State.setMemCnt_gates (s : State) (m : Nat) (x : MemCnt) : (s.setMemCnt m x).gates = s.gates := rfl
@[simp] theorem State.setMemCnt_inflight (s : State) (m : Nat) (x : MemCnt) : (s.setMemCnt m x).inflight = s.inflight := rfl
@[simp] theorem State.setMemCnt_rr (s : State) (m : Nat) (x : MemCnt) : (s.setMemCnt m x).rr = s.rr := rfl
@[simp] theorem State.setMemCnt_ten (s : State) (m : Nat) (x : MemCnt) : (s.setMemCnt m x).ten = s.ten := rfl
@[simp] theorem State.setMemCnt_que (s : State) (m : Nat) (x : MemCnt) : (s.setMemCnt m x).que = s.que := rfl
@[simp] theorem State.setMemCnt_vis (s : State) (m : Nat) (x : MemCnt) : (s.setMemCnt m x).vis = s.vis := rfl
@[simp] theorem State.setMemCnt_marks (s : State) (m : Nat) (x : MemCnt) : (s.setMemCnt m x).marks = s.marks := rfl
@[simp] theorem State.setMemCnt_led (s : State) (m : Nat) (x : MemCnt) : (s.setMemCnt m x).led = s.led := rfl
@[simp] theorem State.setMemCnt_pow (s : State) (m : Nat) (x : MemCnt) : (s.setMemCnt m x).pow = s.pow := rfl
@[simp] theorem State.setMemCnt_chan (s : State) (m : Nat) (x : MemCnt) : (s.setMemCnt m x).chan = s.chan := rfl
@[simp] theorem State.setMemCnt_pur (s : State) (m : Nat) (x : MemCnt) : (s.setMemCnt m x).pur = s.pur := rfl
@[simp] theorem State.setMemCnt_yar (s : State) (m : Nat) (x : MemCnt) : (s.setMemCnt m x).yar = s.yar := rfl
@[simp] theorem State.setMemCnt_flt (s : State) (m : Nat) (x : MemCnt) : (s.setMemCnt m x).flt = s.flt := rfl
@[simp] theorem State.setMemCnt_fio (s : State) (m : Nat) (x : MemCnt) : (s.setMemCnt m x).fio = s.fio := rfl
@[simp] theorem State.setMemCnt_mea (s : State) (m : Nat) (x : MemCnt) : (s.setMemCnt m x).mea = s.mea := rfl
@[simp] theorem State.setMemCnt_aud (s : State) (m : Nat) (x : MemCnt) : (s.setMemCnt m x).aud = s.aud := rfl
@[simp] theorem State.setMemCnt_net (s : State) (m : Nat) (x : MemCnt) : (s.setMemCnt m x).net = s.net := rfl
@[simp] theorem State.setMemCnt_tsn (s : State) (m : Nat) (x : MemCnt) : (s.setMemCnt m x).tsn = s.tsn := rfl
@[simp] theorem State.setMemCnt_bus (s : State) (m : Nat) (x : MemCnt) : (s.setMemCnt m x).bus = s.bus := rfl
@[simp] theorem State.setMemCnt_gwy (s : State) (m : Nat) (x : MemCnt) : (s.setMemCnt m x).gwy = s.gwy := rfl
@[simp] theorem State.setMemCnt_nmg (s : State) (m : Nat) (x : MemCnt) : (s.setMemCnt m x).nmg = s.nmg := rfl
@[simp] theorem State.setMemCnt_vlt (s : State) (m : Nat) (x : MemCnt) : (s.setMemCnt m x).vlt = s.vlt := rfl
@[simp] theorem State.setMemCnt_sto (s : State) (m : Nat) (x : MemCnt) : (s.setMemCnt m x).sto = s.sto := rfl
@[simp] theorem State.setMemCnt_img (s : State) (m : Nat) (x : MemCnt) : (s.setMemCnt m x).img = s.img := rfl

@[simp] theorem State.setSlot_pending (s : State) (n : Nat) (x : MbSlot) : (s.setSlot n x).pending = s.pending := rfl
@[simp] theorem State.setSlot_clk (s : State) (n : Nat) (x : MbSlot) : (s.setSlot n x).clk = s.clk := rfl
@[simp] theorem State.setSlot_free (s : State) (n : Nat) (x : MbSlot) : (s.setSlot n x).free = s.free := rfl
@[simp] theorem State.setSlot_nextId (s : State) (n : Nat) (x : MbSlot) : (s.setSlot n x).nextId = s.nextId := rfl
@[simp] theorem State.setSlot_env (s : State) (n : Nat) (x : MbSlot) : (s.setSlot n x).env = s.env := rfl
@[simp] theorem State.setSlot_mem (s : State) (n : Nat) (x : MbSlot) : (s.setSlot n x).mem = s.mem := rfl
@[simp] theorem State.setSlot_rdata (s : State) (n : Nat) (x : MbSlot) : (s.setSlot n x).rdata = s.rdata := rfl
@[simp] theorem State.setSlot_ident (s : State) (n : Nat) (x : MbSlot) : (s.setSlot n x).ident = s.ident := rfl
@[simp] theorem State.setSlot_image (s : State) (n : Nat) (x : MbSlot) : (s.setSlot n x).image = s.image := rfl
@[simp] theorem State.setSlot_tim (s : State) (n : Nat) (x : MbSlot) : (s.setSlot n x).tim = s.tim := rfl
@[simp] theorem State.setSlot_isl (s : State) (n : Nat) (x : MbSlot) : (s.setSlot n x).isl = s.isl := rfl
@[simp] theorem State.setSlot_gates (s : State) (n : Nat) (x : MbSlot) : (s.setSlot n x).gates = s.gates := rfl
@[simp] theorem State.setSlot_inflight (s : State) (n : Nat) (x : MbSlot) : (s.setSlot n x).inflight = s.inflight := rfl
@[simp] theorem State.setSlot_rr (s : State) (n : Nat) (x : MbSlot) : (s.setSlot n x).rr = s.rr := rfl
@[simp] theorem State.setSlot_ten (s : State) (n : Nat) (x : MbSlot) : (s.setSlot n x).ten = s.ten := rfl
@[simp] theorem State.setSlot_que (s : State) (n : Nat) (x : MbSlot) : (s.setSlot n x).que = s.que := rfl
@[simp] theorem State.setSlot_vis (s : State) (n : Nat) (x : MbSlot) : (s.setSlot n x).vis = s.vis := rfl
@[simp] theorem State.setSlot_marks (s : State) (n : Nat) (x : MbSlot) : (s.setSlot n x).marks = s.marks := rfl
@[simp] theorem State.setSlot_led (s : State) (n : Nat) (x : MbSlot) : (s.setSlot n x).led = s.led := rfl
@[simp] theorem State.setSlot_pow (s : State) (n : Nat) (x : MbSlot) : (s.setSlot n x).pow = s.pow := rfl
@[simp] theorem State.setSlot_chan (s : State) (n : Nat) (x : MbSlot) : (s.setSlot n x).chan = s.chan := rfl
@[simp] theorem State.setSlot_pur (s : State) (n : Nat) (x : MbSlot) : (s.setSlot n x).pur = s.pur := rfl
@[simp] theorem State.setSlot_yar (s : State) (n : Nat) (x : MbSlot) : (s.setSlot n x).yar = s.yar := rfl
@[simp] theorem State.setSlot_flt (s : State) (n : Nat) (x : MbSlot) : (s.setSlot n x).flt = s.flt := rfl
@[simp] theorem State.setSlot_fio (s : State) (n : Nat) (x : MbSlot) : (s.setSlot n x).fio = s.fio := rfl
@[simp] theorem State.setSlot_mea (s : State) (n : Nat) (x : MbSlot) : (s.setSlot n x).mea = s.mea := rfl
@[simp] theorem State.setSlot_aud (s : State) (n : Nat) (x : MbSlot) : (s.setSlot n x).aud = s.aud := rfl
@[simp] theorem State.setSlot_net (s : State) (n : Nat) (x : MbSlot) : (s.setSlot n x).net = s.net := rfl
@[simp] theorem State.setSlot_tsn (s : State) (n : Nat) (x : MbSlot) : (s.setSlot n x).tsn = s.tsn := rfl
@[simp] theorem State.setSlot_bus (s : State) (n : Nat) (x : MbSlot) : (s.setSlot n x).bus = s.bus := rfl
@[simp] theorem State.setSlot_gwy (s : State) (n : Nat) (x : MbSlot) : (s.setSlot n x).gwy = s.gwy := rfl
@[simp] theorem State.setSlot_nmg (s : State) (n : Nat) (x : MbSlot) : (s.setSlot n x).nmg = s.nmg := rfl
@[simp] theorem State.setSlot_cpu (s : State) (n : Nat) (x : MbSlot) : (s.setSlot n x).cpu = s.cpu := rfl
@[simp] theorem State.setSlot_sto (s : State) (n : Nat) (x : MbSlot) : (s.setSlot n x).sto = s.sto := rfl
@[simp] theorem State.setSlot_img (s : State) (n : Nat) (x : MbSlot) : (s.setSlot n x).img = s.img := rfl

@[simp] theorem State.setWm_pending (s : State) (i : Nat) (x : Wm) : (s.setWm i x).pending = s.pending := rfl
@[simp] theorem State.setWm_clk (s : State) (i : Nat) (x : Wm) : (s.setWm i x).clk = s.clk := rfl
@[simp] theorem State.setWm_free (s : State) (i : Nat) (x : Wm) : (s.setWm i x).free = s.free := rfl
@[simp] theorem State.setWm_nextId (s : State) (i : Nat) (x : Wm) : (s.setWm i x).nextId = s.nextId := rfl
@[simp] theorem State.setWm_env (s : State) (i : Nat) (x : Wm) : (s.setWm i x).env = s.env := rfl
@[simp] theorem State.setWm_mem (s : State) (i : Nat) (x : Wm) : (s.setWm i x).mem = s.mem := rfl
@[simp] theorem State.setWm_rdata (s : State) (i : Nat) (x : Wm) : (s.setWm i x).rdata = s.rdata := rfl
@[simp] theorem State.setWm_ident (s : State) (i : Nat) (x : Wm) : (s.setWm i x).ident = s.ident := rfl
@[simp] theorem State.setWm_image (s : State) (i : Nat) (x : Wm) : (s.setWm i x).image = s.image := rfl
@[simp] theorem State.setWm_tim (s : State) (i : Nat) (x : Wm) : (s.setWm i x).tim = s.tim := rfl
@[simp] theorem State.setWm_isl (s : State) (i : Nat) (x : Wm) : (s.setWm i x).isl = s.isl := rfl
@[simp] theorem State.setWm_gates (s : State) (i : Nat) (x : Wm) : (s.setWm i x).gates = s.gates := rfl
@[simp] theorem State.setWm_inflight (s : State) (i : Nat) (x : Wm) : (s.setWm i x).inflight = s.inflight := rfl
@[simp] theorem State.setWm_rr (s : State) (i : Nat) (x : Wm) : (s.setWm i x).rr = s.rr := rfl
@[simp] theorem State.setWm_ten (s : State) (i : Nat) (x : Wm) : (s.setWm i x).ten = s.ten := rfl
@[simp] theorem State.setWm_que (s : State) (i : Nat) (x : Wm) : (s.setWm i x).que = s.que := rfl
@[simp] theorem State.setWm_vis (s : State) (i : Nat) (x : Wm) : (s.setWm i x).vis = s.vis := rfl
@[simp] theorem State.setWm_marks (s : State) (i : Nat) (x : Wm) : (s.setWm i x).marks = s.marks := rfl
@[simp] theorem State.setWm_led (s : State) (i : Nat) (x : Wm) : (s.setWm i x).led = s.led := rfl
@[simp] theorem State.setWm_pow (s : State) (i : Nat) (x : Wm) : (s.setWm i x).pow = s.pow := rfl
@[simp] theorem State.setWm_chan (s : State) (i : Nat) (x : Wm) : (s.setWm i x).chan = s.chan := rfl
@[simp] theorem State.setWm_pur (s : State) (i : Nat) (x : Wm) : (s.setWm i x).pur = s.pur := rfl
@[simp] theorem State.setWm_yar (s : State) (i : Nat) (x : Wm) : (s.setWm i x).yar = s.yar := rfl
@[simp] theorem State.setWm_flt (s : State) (i : Nat) (x : Wm) : (s.setWm i x).flt = s.flt := rfl
@[simp] theorem State.setWm_fio (s : State) (i : Nat) (x : Wm) : (s.setWm i x).fio = s.fio := rfl
@[simp] theorem State.setWm_mea (s : State) (i : Nat) (x : Wm) : (s.setWm i x).mea = s.mea := rfl
@[simp] theorem State.setWm_aud (s : State) (i : Nat) (x : Wm) : (s.setWm i x).aud = s.aud := rfl
@[simp] theorem State.setWm_net (s : State) (i : Nat) (x : Wm) : (s.setWm i x).net = s.net := rfl
@[simp] theorem State.setWm_tsn (s : State) (i : Nat) (x : Wm) : (s.setWm i x).tsn = s.tsn := rfl
@[simp] theorem State.setWm_bus (s : State) (i : Nat) (x : Wm) : (s.setWm i x).bus = s.bus := rfl
@[simp] theorem State.setWm_gwy (s : State) (i : Nat) (x : Wm) : (s.setWm i x).gwy = s.gwy := rfl
@[simp] theorem State.setWm_nmg (s : State) (i : Nat) (x : Wm) : (s.setWm i x).nmg = s.nmg := rfl
@[simp] theorem State.setWm_cpu (s : State) (i : Nat) (x : Wm) : (s.setWm i x).cpu = s.cpu := rfl
@[simp] theorem State.setWm_sto (s : State) (i : Nat) (x : Wm) : (s.setWm i x).sto = s.sto := rfl
@[simp] theorem State.setWm_img (s : State) (i : Nat) (x : Wm) : (s.setWm i x).img = s.img := rfl

@[simp] theorem State.setRing_pending (s : State) (r : Nat) (x : Ring) : (s.setRing r x).pending = s.pending := rfl
@[simp] theorem State.setRing_clk (s : State) (r : Nat) (x : Ring) : (s.setRing r x).clk = s.clk := rfl
@[simp] theorem State.setRing_free (s : State) (r : Nat) (x : Ring) : (s.setRing r x).free = s.free := rfl
@[simp] theorem State.setRing_nextId (s : State) (r : Nat) (x : Ring) : (s.setRing r x).nextId = s.nextId := rfl
@[simp] theorem State.setRing_env (s : State) (r : Nat) (x : Ring) : (s.setRing r x).env = s.env := rfl
@[simp] theorem State.setRing_mem (s : State) (r : Nat) (x : Ring) : (s.setRing r x).mem = s.mem := rfl
@[simp] theorem State.setRing_rdata (s : State) (r : Nat) (x : Ring) : (s.setRing r x).rdata = s.rdata := rfl
@[simp] theorem State.setRing_ident (s : State) (r : Nat) (x : Ring) : (s.setRing r x).ident = s.ident := rfl
@[simp] theorem State.setRing_image (s : State) (r : Nat) (x : Ring) : (s.setRing r x).image = s.image := rfl
@[simp] theorem State.setRing_tim (s : State) (r : Nat) (x : Ring) : (s.setRing r x).tim = s.tim := rfl
@[simp] theorem State.setRing_isl (s : State) (r : Nat) (x : Ring) : (s.setRing r x).isl = s.isl := rfl
@[simp] theorem State.setRing_gates (s : State) (r : Nat) (x : Ring) : (s.setRing r x).gates = s.gates := rfl
@[simp] theorem State.setRing_inflight (s : State) (r : Nat) (x : Ring) : (s.setRing r x).inflight = s.inflight := rfl
@[simp] theorem State.setRing_rr (s : State) (r : Nat) (x : Ring) : (s.setRing r x).rr = s.rr := rfl
@[simp] theorem State.setRing_ten (s : State) (r : Nat) (x : Ring) : (s.setRing r x).ten = s.ten := rfl
@[simp] theorem State.setRing_que (s : State) (r : Nat) (x : Ring) : (s.setRing r x).que = s.que := rfl
@[simp] theorem State.setRing_vis (s : State) (r : Nat) (x : Ring) : (s.setRing r x).vis = s.vis := rfl
@[simp] theorem State.setRing_marks (s : State) (r : Nat) (x : Ring) : (s.setRing r x).marks = s.marks := rfl
@[simp] theorem State.setRing_led (s : State) (r : Nat) (x : Ring) : (s.setRing r x).led = s.led := rfl
@[simp] theorem State.setRing_pow (s : State) (r : Nat) (x : Ring) : (s.setRing r x).pow = s.pow := rfl
@[simp] theorem State.setRing_chan (s : State) (r : Nat) (x : Ring) : (s.setRing r x).chan = s.chan := rfl
@[simp] theorem State.setRing_pur (s : State) (r : Nat) (x : Ring) : (s.setRing r x).pur = s.pur := rfl
@[simp] theorem State.setRing_yar (s : State) (r : Nat) (x : Ring) : (s.setRing r x).yar = s.yar := rfl
@[simp] theorem State.setRing_flt (s : State) (r : Nat) (x : Ring) : (s.setRing r x).flt = s.flt := rfl
@[simp] theorem State.setRing_fio (s : State) (r : Nat) (x : Ring) : (s.setRing r x).fio = s.fio := rfl
@[simp] theorem State.setRing_mea (s : State) (r : Nat) (x : Ring) : (s.setRing r x).mea = s.mea := rfl
@[simp] theorem State.setRing_aud (s : State) (r : Nat) (x : Ring) : (s.setRing r x).aud = s.aud := rfl
@[simp] theorem State.setRing_net (s : State) (r : Nat) (x : Ring) : (s.setRing r x).net = s.net := rfl
@[simp] theorem State.setRing_tsn (s : State) (r : Nat) (x : Ring) : (s.setRing r x).tsn = s.tsn := rfl
@[simp] theorem State.setRing_bus (s : State) (r : Nat) (x : Ring) : (s.setRing r x).bus = s.bus := rfl
@[simp] theorem State.setRing_gwy (s : State) (r : Nat) (x : Ring) : (s.setRing r x).gwy = s.gwy := rfl
@[simp] theorem State.setRing_cpu (s : State) (r : Nat) (x : Ring) : (s.setRing r x).cpu = s.cpu := rfl
@[simp] theorem State.setRing_vlt (s : State) (r : Nat) (x : Ring) : (s.setRing r x).vlt = s.vlt := rfl
@[simp] theorem State.setRing_sto (s : State) (r : Nat) (x : Ring) : (s.setRing r x).sto = s.sto := rfl
@[simp] theorem State.setRing_img (s : State) (r : Nat) (x : Ring) : (s.setRing r x).img = s.img := rfl

@[simp] theorem State.setSto_pending (s : State) (x : StoSt) : (s.setSto x).pending = s.pending := rfl
@[simp] theorem State.setSto_clk (s : State) (x : StoSt) : (s.setSto x).clk = s.clk := rfl
@[simp] theorem State.setSto_free (s : State) (x : StoSt) : (s.setSto x).free = s.free := rfl
@[simp] theorem State.setSto_nextId (s : State) (x : StoSt) : (s.setSto x).nextId = s.nextId := rfl
@[simp] theorem State.setSto_env (s : State) (x : StoSt) : (s.setSto x).env = s.env := rfl
@[simp] theorem State.setSto_mem (s : State) (x : StoSt) : (s.setSto x).mem = s.mem := rfl
@[simp] theorem State.setSto_rdata (s : State) (x : StoSt) : (s.setSto x).rdata = s.rdata := rfl
@[simp] theorem State.setSto_ident (s : State) (x : StoSt) : (s.setSto x).ident = s.ident := rfl
@[simp] theorem State.setSto_image (s : State) (x : StoSt) : (s.setSto x).image = s.image := rfl
@[simp] theorem State.setSto_tim (s : State) (x : StoSt) : (s.setSto x).tim = s.tim := rfl
@[simp] theorem State.setSto_isl (s : State) (x : StoSt) : (s.setSto x).isl = s.isl := rfl
@[simp] theorem State.setSto_gates (s : State) (x : StoSt) : (s.setSto x).gates = s.gates := rfl
@[simp] theorem State.setSto_inflight (s : State) (x : StoSt) : (s.setSto x).inflight = s.inflight := rfl
@[simp] theorem State.setSto_rr (s : State) (x : StoSt) : (s.setSto x).rr = s.rr := rfl
@[simp] theorem State.setSto_ten (s : State) (x : StoSt) : (s.setSto x).ten = s.ten := rfl
@[simp] theorem State.setSto_que (s : State) (x : StoSt) : (s.setSto x).que = s.que := rfl
@[simp] theorem State.setSto_vis (s : State) (x : StoSt) : (s.setSto x).vis = s.vis := rfl
@[simp] theorem State.setSto_marks (s : State) (x : StoSt) : (s.setSto x).marks = s.marks := rfl
@[simp] theorem State.setSto_led (s : State) (x : StoSt) : (s.setSto x).led = s.led := rfl
@[simp] theorem State.setSto_pow (s : State) (x : StoSt) : (s.setSto x).pow = s.pow := rfl
@[simp] theorem State.setSto_chan (s : State) (x : StoSt) : (s.setSto x).chan = s.chan := rfl
@[simp] theorem State.setSto_pur (s : State) (x : StoSt) : (s.setSto x).pur = s.pur := rfl
@[simp] theorem State.setSto_yar (s : State) (x : StoSt) : (s.setSto x).yar = s.yar := rfl
@[simp] theorem State.setSto_flt (s : State) (x : StoSt) : (s.setSto x).flt = s.flt := rfl
@[simp] theorem State.setSto_fio (s : State) (x : StoSt) : (s.setSto x).fio = s.fio := rfl
@[simp] theorem State.setSto_mea (s : State) (x : StoSt) : (s.setSto x).mea = s.mea := rfl
@[simp] theorem State.setSto_aud (s : State) (x : StoSt) : (s.setSto x).aud = s.aud := rfl
@[simp] theorem State.setSto_net (s : State) (x : StoSt) : (s.setSto x).net = s.net := rfl
@[simp] theorem State.setSto_tsn (s : State) (x : StoSt) : (s.setSto x).tsn = s.tsn := rfl
@[simp] theorem State.setSto_bus (s : State) (x : StoSt) : (s.setSto x).bus = s.bus := rfl
@[simp] theorem State.setSto_gwy (s : State) (x : StoSt) : (s.setSto x).gwy = s.gwy := rfl
@[simp] theorem State.setSto_nmg (s : State) (x : StoSt) : (s.setSto x).nmg = s.nmg := rfl
@[simp] theorem State.setSto_cpu (s : State) (x : StoSt) : (s.setSto x).cpu = s.cpu := rfl
@[simp] theorem State.setSto_vlt (s : State) (x : StoSt) : (s.setSto x).vlt = s.vlt := rfl
@[simp] theorem State.setSto_img (s : State) (x : StoSt) : (s.setSto x).img = s.img := rfl

@[simp] theorem State.setVol_pending (s : State) (v : Nat) (x : Vol) : (s.setVol v x).pending = s.pending := rfl
@[simp] theorem State.setVol_clk (s : State) (v : Nat) (x : Vol) : (s.setVol v x).clk = s.clk := rfl
@[simp] theorem State.setVol_free (s : State) (v : Nat) (x : Vol) : (s.setVol v x).free = s.free := rfl
@[simp] theorem State.setVol_nextId (s : State) (v : Nat) (x : Vol) : (s.setVol v x).nextId = s.nextId := rfl
@[simp] theorem State.setVol_env (s : State) (v : Nat) (x : Vol) : (s.setVol v x).env = s.env := rfl
@[simp] theorem State.setVol_mem (s : State) (v : Nat) (x : Vol) : (s.setVol v x).mem = s.mem := rfl
@[simp] theorem State.setVol_rdata (s : State) (v : Nat) (x : Vol) : (s.setVol v x).rdata = s.rdata := rfl
@[simp] theorem State.setVol_ident (s : State) (v : Nat) (x : Vol) : (s.setVol v x).ident = s.ident := rfl
@[simp] theorem State.setVol_image (s : State) (v : Nat) (x : Vol) : (s.setVol v x).image = s.image := rfl
@[simp] theorem State.setVol_tim (s : State) (v : Nat) (x : Vol) : (s.setVol v x).tim = s.tim := rfl
@[simp] theorem State.setVol_isl (s : State) (v : Nat) (x : Vol) : (s.setVol v x).isl = s.isl := rfl
@[simp] theorem State.setVol_gates (s : State) (v : Nat) (x : Vol) : (s.setVol v x).gates = s.gates := rfl
@[simp] theorem State.setVol_inflight (s : State) (v : Nat) (x : Vol) : (s.setVol v x).inflight = s.inflight := rfl
@[simp] theorem State.setVol_rr (s : State) (v : Nat) (x : Vol) : (s.setVol v x).rr = s.rr := rfl
@[simp] theorem State.setVol_ten (s : State) (v : Nat) (x : Vol) : (s.setVol v x).ten = s.ten := rfl
@[simp] theorem State.setVol_que (s : State) (v : Nat) (x : Vol) : (s.setVol v x).que = s.que := rfl
@[simp] theorem State.setVol_vis (s : State) (v : Nat) (x : Vol) : (s.setVol v x).vis = s.vis := rfl
@[simp] theorem State.setVol_marks (s : State) (v : Nat) (x : Vol) : (s.setVol v x).marks = s.marks := rfl
@[simp] theorem State.setVol_led (s : State) (v : Nat) (x : Vol) : (s.setVol v x).led = s.led := rfl
@[simp] theorem State.setVol_pow (s : State) (v : Nat) (x : Vol) : (s.setVol v x).pow = s.pow := rfl
@[simp] theorem State.setVol_chan (s : State) (v : Nat) (x : Vol) : (s.setVol v x).chan = s.chan := rfl
@[simp] theorem State.setVol_pur (s : State) (v : Nat) (x : Vol) : (s.setVol v x).pur = s.pur := rfl
@[simp] theorem State.setVol_yar (s : State) (v : Nat) (x : Vol) : (s.setVol v x).yar = s.yar := rfl
@[simp] theorem State.setVol_flt (s : State) (v : Nat) (x : Vol) : (s.setVol v x).flt = s.flt := rfl
@[simp] theorem State.setVol_fio (s : State) (v : Nat) (x : Vol) : (s.setVol v x).fio = s.fio := rfl
@[simp] theorem State.setVol_mea (s : State) (v : Nat) (x : Vol) : (s.setVol v x).mea = s.mea := rfl
@[simp] theorem State.setVol_aud (s : State) (v : Nat) (x : Vol) : (s.setVol v x).aud = s.aud := rfl
@[simp] theorem State.setVol_net (s : State) (v : Nat) (x : Vol) : (s.setVol v x).net = s.net := rfl
@[simp] theorem State.setVol_tsn (s : State) (v : Nat) (x : Vol) : (s.setVol v x).tsn = s.tsn := rfl
@[simp] theorem State.setVol_bus (s : State) (v : Nat) (x : Vol) : (s.setVol v x).bus = s.bus := rfl
@[simp] theorem State.setVol_gwy (s : State) (v : Nat) (x : Vol) : (s.setVol v x).gwy = s.gwy := rfl
@[simp] theorem State.setVol_nmg (s : State) (v : Nat) (x : Vol) : (s.setVol v x).nmg = s.nmg := rfl
@[simp] theorem State.setVol_cpu (s : State) (v : Nat) (x : Vol) : (s.setVol v x).cpu = s.cpu := rfl
@[simp] theorem State.setVol_vlt (s : State) (v : Nat) (x : Vol) : (s.setVol v x).vlt = s.vlt := rfl
@[simp] theorem State.setVol_img (s : State) (v : Nat) (x : Vol) : (s.setVol v x).img = s.img := rfl

@[simp] theorem State.setGrp_pending (s : State) (g : Nat) (x : Option StoGroup) : (s.setGrp g x).pending = s.pending := rfl
@[simp] theorem State.setGrp_clk (s : State) (g : Nat) (x : Option StoGroup) : (s.setGrp g x).clk = s.clk := rfl
@[simp] theorem State.setGrp_free (s : State) (g : Nat) (x : Option StoGroup) : (s.setGrp g x).free = s.free := rfl
@[simp] theorem State.setGrp_nextId (s : State) (g : Nat) (x : Option StoGroup) : (s.setGrp g x).nextId = s.nextId := rfl
@[simp] theorem State.setGrp_env (s : State) (g : Nat) (x : Option StoGroup) : (s.setGrp g x).env = s.env := rfl
@[simp] theorem State.setGrp_mem (s : State) (g : Nat) (x : Option StoGroup) : (s.setGrp g x).mem = s.mem := rfl
@[simp] theorem State.setGrp_rdata (s : State) (g : Nat) (x : Option StoGroup) : (s.setGrp g x).rdata = s.rdata := rfl
@[simp] theorem State.setGrp_ident (s : State) (g : Nat) (x : Option StoGroup) : (s.setGrp g x).ident = s.ident := rfl
@[simp] theorem State.setGrp_image (s : State) (g : Nat) (x : Option StoGroup) : (s.setGrp g x).image = s.image := rfl
@[simp] theorem State.setGrp_tim (s : State) (g : Nat) (x : Option StoGroup) : (s.setGrp g x).tim = s.tim := rfl
@[simp] theorem State.setGrp_isl (s : State) (g : Nat) (x : Option StoGroup) : (s.setGrp g x).isl = s.isl := rfl
@[simp] theorem State.setGrp_gates (s : State) (g : Nat) (x : Option StoGroup) : (s.setGrp g x).gates = s.gates := rfl
@[simp] theorem State.setGrp_inflight (s : State) (g : Nat) (x : Option StoGroup) : (s.setGrp g x).inflight = s.inflight := rfl
@[simp] theorem State.setGrp_rr (s : State) (g : Nat) (x : Option StoGroup) : (s.setGrp g x).rr = s.rr := rfl
@[simp] theorem State.setGrp_ten (s : State) (g : Nat) (x : Option StoGroup) : (s.setGrp g x).ten = s.ten := rfl
@[simp] theorem State.setGrp_que (s : State) (g : Nat) (x : Option StoGroup) : (s.setGrp g x).que = s.que := rfl
@[simp] theorem State.setGrp_vis (s : State) (g : Nat) (x : Option StoGroup) : (s.setGrp g x).vis = s.vis := rfl
@[simp] theorem State.setGrp_marks (s : State) (g : Nat) (x : Option StoGroup) : (s.setGrp g x).marks = s.marks := rfl
@[simp] theorem State.setGrp_led (s : State) (g : Nat) (x : Option StoGroup) : (s.setGrp g x).led = s.led := rfl
@[simp] theorem State.setGrp_pow (s : State) (g : Nat) (x : Option StoGroup) : (s.setGrp g x).pow = s.pow := rfl
@[simp] theorem State.setGrp_chan (s : State) (g : Nat) (x : Option StoGroup) : (s.setGrp g x).chan = s.chan := rfl
@[simp] theorem State.setGrp_pur (s : State) (g : Nat) (x : Option StoGroup) : (s.setGrp g x).pur = s.pur := rfl
@[simp] theorem State.setGrp_yar (s : State) (g : Nat) (x : Option StoGroup) : (s.setGrp g x).yar = s.yar := rfl
@[simp] theorem State.setGrp_flt (s : State) (g : Nat) (x : Option StoGroup) : (s.setGrp g x).flt = s.flt := rfl
@[simp] theorem State.setGrp_fio (s : State) (g : Nat) (x : Option StoGroup) : (s.setGrp g x).fio = s.fio := rfl
@[simp] theorem State.setGrp_mea (s : State) (g : Nat) (x : Option StoGroup) : (s.setGrp g x).mea = s.mea := rfl
@[simp] theorem State.setGrp_aud (s : State) (g : Nat) (x : Option StoGroup) : (s.setGrp g x).aud = s.aud := rfl
@[simp] theorem State.setGrp_net (s : State) (g : Nat) (x : Option StoGroup) : (s.setGrp g x).net = s.net := rfl
@[simp] theorem State.setGrp_tsn (s : State) (g : Nat) (x : Option StoGroup) : (s.setGrp g x).tsn = s.tsn := rfl
@[simp] theorem State.setGrp_bus (s : State) (g : Nat) (x : Option StoGroup) : (s.setGrp g x).bus = s.bus := rfl
@[simp] theorem State.setGrp_gwy (s : State) (g : Nat) (x : Option StoGroup) : (s.setGrp g x).gwy = s.gwy := rfl
@[simp] theorem State.setGrp_nmg (s : State) (g : Nat) (x : Option StoGroup) : (s.setGrp g x).nmg = s.nmg := rfl
@[simp] theorem State.setGrp_cpu (s : State) (g : Nat) (x : Option StoGroup) : (s.setGrp g x).cpu = s.cpu := rfl
@[simp] theorem State.setGrp_vlt (s : State) (g : Nat) (x : Option StoGroup) : (s.setGrp g x).vlt = s.vlt := rfl
@[simp] theorem State.setGrp_img (s : State) (g : Nat) (x : Option StoGroup) : (s.setGrp g x).img = s.img := rfl

@[simp] theorem State.setIcomp_pending (s : State) (c : Nat) (x : ImgComp) : (s.setIcomp c x).pending = s.pending := rfl
@[simp] theorem State.setIcomp_clk (s : State) (c : Nat) (x : ImgComp) : (s.setIcomp c x).clk = s.clk := rfl
@[simp] theorem State.setIcomp_free (s : State) (c : Nat) (x : ImgComp) : (s.setIcomp c x).free = s.free := rfl
@[simp] theorem State.setIcomp_nextId (s : State) (c : Nat) (x : ImgComp) : (s.setIcomp c x).nextId = s.nextId := rfl
@[simp] theorem State.setIcomp_env (s : State) (c : Nat) (x : ImgComp) : (s.setIcomp c x).env = s.env := rfl
@[simp] theorem State.setIcomp_mem (s : State) (c : Nat) (x : ImgComp) : (s.setIcomp c x).mem = s.mem := rfl
@[simp] theorem State.setIcomp_rdata (s : State) (c : Nat) (x : ImgComp) : (s.setIcomp c x).rdata = s.rdata := rfl
@[simp] theorem State.setIcomp_ident (s : State) (c : Nat) (x : ImgComp) : (s.setIcomp c x).ident = s.ident := rfl
@[simp] theorem State.setIcomp_image (s : State) (c : Nat) (x : ImgComp) : (s.setIcomp c x).image = s.image := rfl
@[simp] theorem State.setIcomp_tim (s : State) (c : Nat) (x : ImgComp) : (s.setIcomp c x).tim = s.tim := rfl
@[simp] theorem State.setIcomp_isl (s : State) (c : Nat) (x : ImgComp) : (s.setIcomp c x).isl = s.isl := rfl
@[simp] theorem State.setIcomp_gates (s : State) (c : Nat) (x : ImgComp) : (s.setIcomp c x).gates = s.gates := rfl
@[simp] theorem State.setIcomp_inflight (s : State) (c : Nat) (x : ImgComp) : (s.setIcomp c x).inflight = s.inflight := rfl
@[simp] theorem State.setIcomp_rr (s : State) (c : Nat) (x : ImgComp) : (s.setIcomp c x).rr = s.rr := rfl
@[simp] theorem State.setIcomp_ten (s : State) (c : Nat) (x : ImgComp) : (s.setIcomp c x).ten = s.ten := rfl
@[simp] theorem State.setIcomp_que (s : State) (c : Nat) (x : ImgComp) : (s.setIcomp c x).que = s.que := rfl
@[simp] theorem State.setIcomp_vis (s : State) (c : Nat) (x : ImgComp) : (s.setIcomp c x).vis = s.vis := rfl
@[simp] theorem State.setIcomp_marks (s : State) (c : Nat) (x : ImgComp) : (s.setIcomp c x).marks = s.marks := rfl
@[simp] theorem State.setIcomp_led (s : State) (c : Nat) (x : ImgComp) : (s.setIcomp c x).led = s.led := rfl
@[simp] theorem State.setIcomp_pow (s : State) (c : Nat) (x : ImgComp) : (s.setIcomp c x).pow = s.pow := rfl
@[simp] theorem State.setIcomp_chan (s : State) (c : Nat) (x : ImgComp) : (s.setIcomp c x).chan = s.chan := rfl
@[simp] theorem State.setIcomp_pur (s : State) (c : Nat) (x : ImgComp) : (s.setIcomp c x).pur = s.pur := rfl
@[simp] theorem State.setIcomp_yar (s : State) (c : Nat) (x : ImgComp) : (s.setIcomp c x).yar = s.yar := rfl
@[simp] theorem State.setIcomp_flt (s : State) (c : Nat) (x : ImgComp) : (s.setIcomp c x).flt = s.flt := rfl
@[simp] theorem State.setIcomp_fio (s : State) (c : Nat) (x : ImgComp) : (s.setIcomp c x).fio = s.fio := rfl
@[simp] theorem State.setIcomp_mea (s : State) (c : Nat) (x : ImgComp) : (s.setIcomp c x).mea = s.mea := rfl
@[simp] theorem State.setIcomp_aud (s : State) (c : Nat) (x : ImgComp) : (s.setIcomp c x).aud = s.aud := rfl
@[simp] theorem State.setIcomp_net (s : State) (c : Nat) (x : ImgComp) : (s.setIcomp c x).net = s.net := rfl
@[simp] theorem State.setIcomp_tsn (s : State) (c : Nat) (x : ImgComp) : (s.setIcomp c x).tsn = s.tsn := rfl
@[simp] theorem State.setIcomp_bus (s : State) (c : Nat) (x : ImgComp) : (s.setIcomp c x).bus = s.bus := rfl
@[simp] theorem State.setIcomp_gwy (s : State) (c : Nat) (x : ImgComp) : (s.setIcomp c x).gwy = s.gwy := rfl
@[simp] theorem State.setIcomp_nmg (s : State) (c : Nat) (x : ImgComp) : (s.setIcomp c x).nmg = s.nmg := rfl
@[simp] theorem State.setIcomp_cpu (s : State) (c : Nat) (x : ImgComp) : (s.setIcomp c x).cpu = s.cpu := rfl
@[simp] theorem State.setIcomp_vlt (s : State) (c : Nat) (x : ImgComp) : (s.setIcomp c x).vlt = s.vlt := rfl
@[simp] theorem State.setIcomp_sto (s : State) (c : Nat) (x : ImgComp) : (s.setIcomp c x).sto = s.sto := rfl

@[simp] theorem State.setXfr_pending (s : State) (i : Nat) (v : Option ImgXfer) : (s.setXfr i v).pending = s.pending := rfl
@[simp] theorem State.setXfr_clk (s : State) (i : Nat) (v : Option ImgXfer) : (s.setXfr i v).clk = s.clk := rfl
@[simp] theorem State.setXfr_free (s : State) (i : Nat) (v : Option ImgXfer) : (s.setXfr i v).free = s.free := rfl
@[simp] theorem State.setXfr_nextId (s : State) (i : Nat) (v : Option ImgXfer) : (s.setXfr i v).nextId = s.nextId := rfl
@[simp] theorem State.setXfr_env (s : State) (i : Nat) (v : Option ImgXfer) : (s.setXfr i v).env = s.env := rfl
@[simp] theorem State.setXfr_mem (s : State) (i : Nat) (v : Option ImgXfer) : (s.setXfr i v).mem = s.mem := rfl
@[simp] theorem State.setXfr_rdata (s : State) (i : Nat) (v : Option ImgXfer) : (s.setXfr i v).rdata = s.rdata := rfl
@[simp] theorem State.setXfr_ident (s : State) (i : Nat) (v : Option ImgXfer) : (s.setXfr i v).ident = s.ident := rfl
@[simp] theorem State.setXfr_image (s : State) (i : Nat) (v : Option ImgXfer) : (s.setXfr i v).image = s.image := rfl
@[simp] theorem State.setXfr_tim (s : State) (i : Nat) (v : Option ImgXfer) : (s.setXfr i v).tim = s.tim := rfl
@[simp] theorem State.setXfr_isl (s : State) (i : Nat) (v : Option ImgXfer) : (s.setXfr i v).isl = s.isl := rfl
@[simp] theorem State.setXfr_gates (s : State) (i : Nat) (v : Option ImgXfer) : (s.setXfr i v).gates = s.gates := rfl
@[simp] theorem State.setXfr_inflight (s : State) (i : Nat) (v : Option ImgXfer) : (s.setXfr i v).inflight = s.inflight := rfl
@[simp] theorem State.setXfr_rr (s : State) (i : Nat) (v : Option ImgXfer) : (s.setXfr i v).rr = s.rr := rfl
@[simp] theorem State.setXfr_ten (s : State) (i : Nat) (v : Option ImgXfer) : (s.setXfr i v).ten = s.ten := rfl
@[simp] theorem State.setXfr_que (s : State) (i : Nat) (v : Option ImgXfer) : (s.setXfr i v).que = s.que := rfl
@[simp] theorem State.setXfr_vis (s : State) (i : Nat) (v : Option ImgXfer) : (s.setXfr i v).vis = s.vis := rfl
@[simp] theorem State.setXfr_marks (s : State) (i : Nat) (v : Option ImgXfer) : (s.setXfr i v).marks = s.marks := rfl
@[simp] theorem State.setXfr_led (s : State) (i : Nat) (v : Option ImgXfer) : (s.setXfr i v).led = s.led := rfl
@[simp] theorem State.setXfr_pow (s : State) (i : Nat) (v : Option ImgXfer) : (s.setXfr i v).pow = s.pow := rfl
@[simp] theorem State.setXfr_chan (s : State) (i : Nat) (v : Option ImgXfer) : (s.setXfr i v).chan = s.chan := rfl
@[simp] theorem State.setXfr_pur (s : State) (i : Nat) (v : Option ImgXfer) : (s.setXfr i v).pur = s.pur := rfl
@[simp] theorem State.setXfr_yar (s : State) (i : Nat) (v : Option ImgXfer) : (s.setXfr i v).yar = s.yar := rfl
@[simp] theorem State.setXfr_flt (s : State) (i : Nat) (v : Option ImgXfer) : (s.setXfr i v).flt = s.flt := rfl
@[simp] theorem State.setXfr_fio (s : State) (i : Nat) (v : Option ImgXfer) : (s.setXfr i v).fio = s.fio := rfl
@[simp] theorem State.setXfr_mea (s : State) (i : Nat) (v : Option ImgXfer) : (s.setXfr i v).mea = s.mea := rfl
@[simp] theorem State.setXfr_aud (s : State) (i : Nat) (v : Option ImgXfer) : (s.setXfr i v).aud = s.aud := rfl
@[simp] theorem State.setXfr_net (s : State) (i : Nat) (v : Option ImgXfer) : (s.setXfr i v).net = s.net := rfl
@[simp] theorem State.setXfr_tsn (s : State) (i : Nat) (v : Option ImgXfer) : (s.setXfr i v).tsn = s.tsn := rfl
@[simp] theorem State.setXfr_bus (s : State) (i : Nat) (v : Option ImgXfer) : (s.setXfr i v).bus = s.bus := rfl
@[simp] theorem State.setXfr_gwy (s : State) (i : Nat) (v : Option ImgXfer) : (s.setXfr i v).gwy = s.gwy := rfl
@[simp] theorem State.setXfr_nmg (s : State) (i : Nat) (v : Option ImgXfer) : (s.setXfr i v).nmg = s.nmg := rfl
@[simp] theorem State.setXfr_cpu (s : State) (i : Nat) (v : Option ImgXfer) : (s.setXfr i v).cpu = s.cpu := rfl
@[simp] theorem State.setXfr_vlt (s : State) (i : Nat) (v : Option ImgXfer) : (s.setXfr i v).vlt = s.vlt := rfl
@[simp] theorem State.setXfr_sto (s : State) (i : Nat) (v : Option ImgXfer) : (s.setXfr i v).sto = s.sto := rfl

@[simp] theorem State.setStrm_pending (s : State) (sid : Nat) (x : Stream) : (s.setStrm sid x).pending = s.pending := rfl
@[simp] theorem State.setStrm_clk (s : State) (sid : Nat) (x : Stream) : (s.setStrm sid x).clk = s.clk := rfl
@[simp] theorem State.setStrm_free (s : State) (sid : Nat) (x : Stream) : (s.setStrm sid x).free = s.free := rfl
@[simp] theorem State.setStrm_nextId (s : State) (sid : Nat) (x : Stream) : (s.setStrm sid x).nextId = s.nextId := rfl
@[simp] theorem State.setStrm_env (s : State) (sid : Nat) (x : Stream) : (s.setStrm sid x).env = s.env := rfl
@[simp] theorem State.setStrm_mem (s : State) (sid : Nat) (x : Stream) : (s.setStrm sid x).mem = s.mem := rfl
@[simp] theorem State.setStrm_rdata (s : State) (sid : Nat) (x : Stream) : (s.setStrm sid x).rdata = s.rdata := rfl
@[simp] theorem State.setStrm_ident (s : State) (sid : Nat) (x : Stream) : (s.setStrm sid x).ident = s.ident := rfl
@[simp] theorem State.setStrm_image (s : State) (sid : Nat) (x : Stream) : (s.setStrm sid x).image = s.image := rfl
@[simp] theorem State.setStrm_tim (s : State) (sid : Nat) (x : Stream) : (s.setStrm sid x).tim = s.tim := rfl
@[simp] theorem State.setStrm_isl (s : State) (sid : Nat) (x : Stream) : (s.setStrm sid x).isl = s.isl := rfl
@[simp] theorem State.setStrm_gates (s : State) (sid : Nat) (x : Stream) : (s.setStrm sid x).gates = s.gates := rfl
@[simp] theorem State.setStrm_inflight (s : State) (sid : Nat) (x : Stream) : (s.setStrm sid x).inflight = s.inflight := rfl
@[simp] theorem State.setStrm_rr (s : State) (sid : Nat) (x : Stream) : (s.setStrm sid x).rr = s.rr := rfl
@[simp] theorem State.setStrm_ten (s : State) (sid : Nat) (x : Stream) : (s.setStrm sid x).ten = s.ten := rfl
@[simp] theorem State.setStrm_que (s : State) (sid : Nat) (x : Stream) : (s.setStrm sid x).que = s.que := rfl
@[simp] theorem State.setStrm_vis (s : State) (sid : Nat) (x : Stream) : (s.setStrm sid x).vis = s.vis := rfl
@[simp] theorem State.setStrm_marks (s : State) (sid : Nat) (x : Stream) : (s.setStrm sid x).marks = s.marks := rfl
@[simp] theorem State.setStrm_led (s : State) (sid : Nat) (x : Stream) : (s.setStrm sid x).led = s.led := rfl
@[simp] theorem State.setStrm_pow (s : State) (sid : Nat) (x : Stream) : (s.setStrm sid x).pow = s.pow := rfl
@[simp] theorem State.setStrm_chan (s : State) (sid : Nat) (x : Stream) : (s.setStrm sid x).chan = s.chan := rfl
@[simp] theorem State.setStrm_pur (s : State) (sid : Nat) (x : Stream) : (s.setStrm sid x).pur = s.pur := rfl
@[simp] theorem State.setStrm_yar (s : State) (sid : Nat) (x : Stream) : (s.setStrm sid x).yar = s.yar := rfl
@[simp] theorem State.setStrm_flt (s : State) (sid : Nat) (x : Stream) : (s.setStrm sid x).flt = s.flt := rfl
@[simp] theorem State.setStrm_fio (s : State) (sid : Nat) (x : Stream) : (s.setStrm sid x).fio = s.fio := rfl
@[simp] theorem State.setStrm_mea (s : State) (sid : Nat) (x : Stream) : (s.setStrm sid x).mea = s.mea := rfl
@[simp] theorem State.setStrm_aud (s : State) (sid : Nat) (x : Stream) : (s.setStrm sid x).aud = s.aud := rfl
@[simp] theorem State.setStrm_net (s : State) (sid : Nat) (x : Stream) : (s.setStrm sid x).net = s.net := rfl
@[simp] theorem State.setStrm_bus (s : State) (sid : Nat) (x : Stream) : (s.setStrm sid x).bus = s.bus := rfl
@[simp] theorem State.setStrm_gwy (s : State) (sid : Nat) (x : Stream) : (s.setStrm sid x).gwy = s.gwy := rfl
@[simp] theorem State.setStrm_nmg (s : State) (sid : Nat) (x : Stream) : (s.setStrm sid x).nmg = s.nmg := rfl
@[simp] theorem State.setStrm_cpu (s : State) (sid : Nat) (x : Stream) : (s.setStrm sid x).cpu = s.cpu := rfl
@[simp] theorem State.setStrm_vlt (s : State) (sid : Nat) (x : Stream) : (s.setStrm sid x).vlt = s.vlt := rfl
@[simp] theorem State.setStrm_sto (s : State) (sid : Nat) (x : Stream) : (s.setStrm sid x).sto = s.sto := rfl
@[simp] theorem State.setStrm_img (s : State) (sid : Nat) (x : Stream) : (s.setStrm sid x).img = s.img := rfl

@[simp] theorem State.setMacp_pending (s : State) (p : Nat) (x : MacPort) : (s.setMacp p x).pending = s.pending := rfl
@[simp] theorem State.setMacp_clk (s : State) (p : Nat) (x : MacPort) : (s.setMacp p x).clk = s.clk := rfl
@[simp] theorem State.setMacp_free (s : State) (p : Nat) (x : MacPort) : (s.setMacp p x).free = s.free := rfl
@[simp] theorem State.setMacp_nextId (s : State) (p : Nat) (x : MacPort) : (s.setMacp p x).nextId = s.nextId := rfl
@[simp] theorem State.setMacp_env (s : State) (p : Nat) (x : MacPort) : (s.setMacp p x).env = s.env := rfl
@[simp] theorem State.setMacp_mem (s : State) (p : Nat) (x : MacPort) : (s.setMacp p x).mem = s.mem := rfl
@[simp] theorem State.setMacp_rdata (s : State) (p : Nat) (x : MacPort) : (s.setMacp p x).rdata = s.rdata := rfl
@[simp] theorem State.setMacp_ident (s : State) (p : Nat) (x : MacPort) : (s.setMacp p x).ident = s.ident := rfl
@[simp] theorem State.setMacp_image (s : State) (p : Nat) (x : MacPort) : (s.setMacp p x).image = s.image := rfl
@[simp] theorem State.setMacp_tim (s : State) (p : Nat) (x : MacPort) : (s.setMacp p x).tim = s.tim := rfl
@[simp] theorem State.setMacp_isl (s : State) (p : Nat) (x : MacPort) : (s.setMacp p x).isl = s.isl := rfl
@[simp] theorem State.setMacp_gates (s : State) (p : Nat) (x : MacPort) : (s.setMacp p x).gates = s.gates := rfl
@[simp] theorem State.setMacp_inflight (s : State) (p : Nat) (x : MacPort) : (s.setMacp p x).inflight = s.inflight := rfl
@[simp] theorem State.setMacp_rr (s : State) (p : Nat) (x : MacPort) : (s.setMacp p x).rr = s.rr := rfl
@[simp] theorem State.setMacp_ten (s : State) (p : Nat) (x : MacPort) : (s.setMacp p x).ten = s.ten := rfl
@[simp] theorem State.setMacp_que (s : State) (p : Nat) (x : MacPort) : (s.setMacp p x).que = s.que := rfl
@[simp] theorem State.setMacp_vis (s : State) (p : Nat) (x : MacPort) : (s.setMacp p x).vis = s.vis := rfl
@[simp] theorem State.setMacp_marks (s : State) (p : Nat) (x : MacPort) : (s.setMacp p x).marks = s.marks := rfl
@[simp] theorem State.setMacp_led (s : State) (p : Nat) (x : MacPort) : (s.setMacp p x).led = s.led := rfl
@[simp] theorem State.setMacp_pow (s : State) (p : Nat) (x : MacPort) : (s.setMacp p x).pow = s.pow := rfl
@[simp] theorem State.setMacp_chan (s : State) (p : Nat) (x : MacPort) : (s.setMacp p x).chan = s.chan := rfl
@[simp] theorem State.setMacp_pur (s : State) (p : Nat) (x : MacPort) : (s.setMacp p x).pur = s.pur := rfl
@[simp] theorem State.setMacp_yar (s : State) (p : Nat) (x : MacPort) : (s.setMacp p x).yar = s.yar := rfl
@[simp] theorem State.setMacp_flt (s : State) (p : Nat) (x : MacPort) : (s.setMacp p x).flt = s.flt := rfl
@[simp] theorem State.setMacp_fio (s : State) (p : Nat) (x : MacPort) : (s.setMacp p x).fio = s.fio := rfl
@[simp] theorem State.setMacp_mea (s : State) (p : Nat) (x : MacPort) : (s.setMacp p x).mea = s.mea := rfl
@[simp] theorem State.setMacp_aud (s : State) (p : Nat) (x : MacPort) : (s.setMacp p x).aud = s.aud := rfl
@[simp] theorem State.setMacp_net (s : State) (p : Nat) (x : MacPort) : (s.setMacp p x).net = s.net := rfl
@[simp] theorem State.setMacp_bus (s : State) (p : Nat) (x : MacPort) : (s.setMacp p x).bus = s.bus := rfl
@[simp] theorem State.setMacp_gwy (s : State) (p : Nat) (x : MacPort) : (s.setMacp p x).gwy = s.gwy := rfl
@[simp] theorem State.setMacp_nmg (s : State) (p : Nat) (x : MacPort) : (s.setMacp p x).nmg = s.nmg := rfl
@[simp] theorem State.setMacp_cpu (s : State) (p : Nat) (x : MacPort) : (s.setMacp p x).cpu = s.cpu := rfl
@[simp] theorem State.setMacp_vlt (s : State) (p : Nat) (x : MacPort) : (s.setMacp p x).vlt = s.vlt := rfl
@[simp] theorem State.setMacp_sto (s : State) (p : Nat) (x : MacPort) : (s.setMacp p x).sto = s.sto := rfl
@[simp] theorem State.setMacp_img (s : State) (p : Nat) (x : MacPort) : (s.setMacp p x).img = s.img := rfl

@[simp] theorem State.writeMem_pending (s : State) (a : Nat) (bs : List Byte) : (s.writeMem a bs).pending = s.pending := rfl
@[simp] theorem State.writeMem_clk (s : State) (a : Nat) (bs : List Byte) : (s.writeMem a bs).clk = s.clk := rfl
@[simp] theorem State.writeMem_free (s : State) (a : Nat) (bs : List Byte) : (s.writeMem a bs).free = s.free := rfl
@[simp] theorem State.writeMem_nextId (s : State) (a : Nat) (bs : List Byte) : (s.writeMem a bs).nextId = s.nextId := rfl
@[simp] theorem State.writeMem_env (s : State) (a : Nat) (bs : List Byte) : (s.writeMem a bs).env = s.env := rfl
@[simp] theorem State.writeMem_rdata (s : State) (a : Nat) (bs : List Byte) : (s.writeMem a bs).rdata = s.rdata := rfl
@[simp] theorem State.writeMem_ident (s : State) (a : Nat) (bs : List Byte) : (s.writeMem a bs).ident = s.ident := rfl
@[simp] theorem State.writeMem_image (s : State) (a : Nat) (bs : List Byte) : (s.writeMem a bs).image = s.image := rfl
@[simp] theorem State.writeMem_tim (s : State) (a : Nat) (bs : List Byte) : (s.writeMem a bs).tim = s.tim := rfl
@[simp] theorem State.writeMem_isl (s : State) (a : Nat) (bs : List Byte) : (s.writeMem a bs).isl = s.isl := rfl
@[simp] theorem State.writeMem_gates (s : State) (a : Nat) (bs : List Byte) : (s.writeMem a bs).gates = s.gates := rfl
@[simp] theorem State.writeMem_inflight (s : State) (a : Nat) (bs : List Byte) : (s.writeMem a bs).inflight = s.inflight := rfl
@[simp] theorem State.writeMem_rr (s : State) (a : Nat) (bs : List Byte) : (s.writeMem a bs).rr = s.rr := rfl
@[simp] theorem State.writeMem_ten (s : State) (a : Nat) (bs : List Byte) : (s.writeMem a bs).ten = s.ten := rfl
@[simp] theorem State.writeMem_que (s : State) (a : Nat) (bs : List Byte) : (s.writeMem a bs).que = s.que := rfl
@[simp] theorem State.writeMem_vis (s : State) (a : Nat) (bs : List Byte) : (s.writeMem a bs).vis = s.vis := rfl
@[simp] theorem State.writeMem_marks (s : State) (a : Nat) (bs : List Byte) : (s.writeMem a bs).marks = s.marks := rfl
@[simp] theorem State.writeMem_led (s : State) (a : Nat) (bs : List Byte) : (s.writeMem a bs).led = s.led := rfl
@[simp] theorem State.writeMem_pow (s : State) (a : Nat) (bs : List Byte) : (s.writeMem a bs).pow = s.pow := rfl
@[simp] theorem State.writeMem_chan (s : State) (a : Nat) (bs : List Byte) : (s.writeMem a bs).chan = s.chan := rfl
@[simp] theorem State.writeMem_pur (s : State) (a : Nat) (bs : List Byte) : (s.writeMem a bs).pur = s.pur := rfl
@[simp] theorem State.writeMem_yar (s : State) (a : Nat) (bs : List Byte) : (s.writeMem a bs).yar = s.yar := rfl
@[simp] theorem State.writeMem_flt (s : State) (a : Nat) (bs : List Byte) : (s.writeMem a bs).flt = s.flt := rfl
@[simp] theorem State.writeMem_fio (s : State) (a : Nat) (bs : List Byte) : (s.writeMem a bs).fio = s.fio := rfl
@[simp] theorem State.writeMem_mea (s : State) (a : Nat) (bs : List Byte) : (s.writeMem a bs).mea = s.mea := rfl
@[simp] theorem State.writeMem_aud (s : State) (a : Nat) (bs : List Byte) : (s.writeMem a bs).aud = s.aud := rfl
@[simp] theorem State.writeMem_net (s : State) (a : Nat) (bs : List Byte) : (s.writeMem a bs).net = s.net := rfl
@[simp] theorem State.writeMem_tsn (s : State) (a : Nat) (bs : List Byte) : (s.writeMem a bs).tsn = s.tsn := rfl
@[simp] theorem State.writeMem_bus (s : State) (a : Nat) (bs : List Byte) : (s.writeMem a bs).bus = s.bus := rfl
@[simp] theorem State.writeMem_gwy (s : State) (a : Nat) (bs : List Byte) : (s.writeMem a bs).gwy = s.gwy := rfl
@[simp] theorem State.writeMem_nmg (s : State) (a : Nat) (bs : List Byte) : (s.writeMem a bs).nmg = s.nmg := rfl
@[simp] theorem State.writeMem_vlt (s : State) (a : Nat) (bs : List Byte) : (s.writeMem a bs).vlt = s.vlt := rfl
@[simp] theorem State.writeMem_sto (s : State) (a : Nat) (bs : List Byte) : (s.writeMem a bs).sto = s.sto := rfl
@[simp] theorem State.writeMem_img (s : State) (a : Nat) (bs : List Byte) : (s.writeMem a bs).img = s.img := rfl

@[simp] theorem State.clearMem_pending (s : State) (a n : Nat) : (s.clearMem a n).pending = s.pending := rfl
@[simp] theorem State.clearMem_clk (s : State) (a n : Nat) : (s.clearMem a n).clk = s.clk := rfl
@[simp] theorem State.clearMem_free (s : State) (a n : Nat) : (s.clearMem a n).free = s.free := rfl
@[simp] theorem State.clearMem_nextId (s : State) (a n : Nat) : (s.clearMem a n).nextId = s.nextId := rfl
@[simp] theorem State.clearMem_env (s : State) (a n : Nat) : (s.clearMem a n).env = s.env := rfl
@[simp] theorem State.clearMem_rdata (s : State) (a n : Nat) : (s.clearMem a n).rdata = s.rdata := rfl
@[simp] theorem State.clearMem_ident (s : State) (a n : Nat) : (s.clearMem a n).ident = s.ident := rfl
@[simp] theorem State.clearMem_image (s : State) (a n : Nat) : (s.clearMem a n).image = s.image := rfl
@[simp] theorem State.clearMem_tim (s : State) (a n : Nat) : (s.clearMem a n).tim = s.tim := rfl
@[simp] theorem State.clearMem_isl (s : State) (a n : Nat) : (s.clearMem a n).isl = s.isl := rfl
@[simp] theorem State.clearMem_gates (s : State) (a n : Nat) : (s.clearMem a n).gates = s.gates := rfl
@[simp] theorem State.clearMem_inflight (s : State) (a n : Nat) : (s.clearMem a n).inflight = s.inflight := rfl
@[simp] theorem State.clearMem_rr (s : State) (a n : Nat) : (s.clearMem a n).rr = s.rr := rfl
@[simp] theorem State.clearMem_ten (s : State) (a n : Nat) : (s.clearMem a n).ten = s.ten := rfl
@[simp] theorem State.clearMem_que (s : State) (a n : Nat) : (s.clearMem a n).que = s.que := rfl
@[simp] theorem State.clearMem_vis (s : State) (a n : Nat) : (s.clearMem a n).vis = s.vis := rfl
@[simp] theorem State.clearMem_marks (s : State) (a n : Nat) : (s.clearMem a n).marks = s.marks := rfl
@[simp] theorem State.clearMem_led (s : State) (a n : Nat) : (s.clearMem a n).led = s.led := rfl
@[simp] theorem State.clearMem_pow (s : State) (a n : Nat) : (s.clearMem a n).pow = s.pow := rfl
@[simp] theorem State.clearMem_chan (s : State) (a n : Nat) : (s.clearMem a n).chan = s.chan := rfl
@[simp] theorem State.clearMem_pur (s : State) (a n : Nat) : (s.clearMem a n).pur = s.pur := rfl
@[simp] theorem State.clearMem_yar (s : State) (a n : Nat) : (s.clearMem a n).yar = s.yar := rfl
@[simp] theorem State.clearMem_flt (s : State) (a n : Nat) : (s.clearMem a n).flt = s.flt := rfl
@[simp] theorem State.clearMem_fio (s : State) (a n : Nat) : (s.clearMem a n).fio = s.fio := rfl
@[simp] theorem State.clearMem_mea (s : State) (a n : Nat) : (s.clearMem a n).mea = s.mea := rfl
@[simp] theorem State.clearMem_aud (s : State) (a n : Nat) : (s.clearMem a n).aud = s.aud := rfl
@[simp] theorem State.clearMem_net (s : State) (a n : Nat) : (s.clearMem a n).net = s.net := rfl
@[simp] theorem State.clearMem_tsn (s : State) (a n : Nat) : (s.clearMem a n).tsn = s.tsn := rfl
@[simp] theorem State.clearMem_bus (s : State) (a n : Nat) : (s.clearMem a n).bus = s.bus := rfl
@[simp] theorem State.clearMem_gwy (s : State) (a n : Nat) : (s.clearMem a n).gwy = s.gwy := rfl
@[simp] theorem State.clearMem_nmg (s : State) (a n : Nat) : (s.clearMem a n).nmg = s.nmg := rfl
@[simp] theorem State.clearMem_cpu (s : State) (a n : Nat) : (s.clearMem a n).cpu =
  { s.cpu with uncorr := s.cpu.uncorr.filter (fun w => w + 8 ≤ a || a + n ≤ w) } := rfl
@[simp] theorem State.clearMem_vlt (s : State) (a n : Nat) : (s.clearMem a n).vlt = s.vlt := rfl
@[simp] theorem State.clearMem_sto (s : State) (a n : Nat) : (s.clearMem a n).sto = s.sto := rfl
@[simp] theorem State.clearMem_img (s : State) (a n : Nat) : (s.clearMem a n).img = s.img := rfl

@[simp] theorem State.tenant_setTenant (s : State) (t : Nat) (x : Tenant) : (s.setTenant t x).tenant t = x := look_put_self _ _ _ _
@[simp] theorem State.queue_setQueue (s : State) (t q : Nat) (x : Queue) : (s.setQueue t q x).queue t q = x := look_put_self _ _ _ _
@[simp] theorem State.island_setIsland (s : State) (n : Nat) (x : Island) : (s.setIsland n x).island n = x := look_put_self _ _ _ _
@[simp] theorem State.vi_setVi (s : State) (kind idx : Nat) (x : Option Vi) : (s.setVi kind idx x).vi kind idx = x := look_put_self _ _ _ _
@[simp] theorem State.chn_setChn (s : State) (ch : Nat) (c : Chan) : (s.setChn ch c).chn ch = c := look_put_self _ _ _ _
@[simp] theorem State.pdie_setPdie (s : State) (d : Nat) (x : Die) : (s.setPdie d x).pdie d = x := look_put_self _ _ _ _
@[simp] theorem State.fout_setFout (s : State) (i : Nat) (x : FieldOut) : (s.setFout i x).fout i = x := look_put_self _ _ _ _
@[simp] theorem State.fin_setFin (s : State) (i : Nat) (x : FieldIn) : (s.setFin i x).fin i = x := look_put_self _ _ _ _
@[simp] theorem State.ain_setAin (s : State) (i : Nat) (x : AnaIn) : (s.setAin i x).ain i = x := look_put_self _ _ _ _
@[simp] theorem State.seqn_setSeqn (s : State) (i : Nat) (x : MeaSeq) : (s.setSeqn i x).seqn i = x := look_put_self _ _ _ _
@[simp] theorem State.trg_setTrg (s : State) (tt : Nat) (x : Trigger) : (s.setTrg tt x).trg tt = x := look_put_self _ _ _ _
@[simp] theorem State.sp_setSp (s : State) (p : Nat) (x : SwPort) : (s.setSp p x).sp p = x := look_put_self _ _ _ _
@[simp] theorem State.canc_setCan (s : State) (n : Nat) (x : CanCtl) : (s.setCan n x).canc n = x := look_put_self _ _ _ _
@[simp] theorem State.lin_setLin (s : State) (n : Nat) (x : LinCh) : (s.setLin n x).lin n = x := look_put_self _ _ _ _
@[simp] theorem State.part_setPart (s : State) (p : Nat) (x : Part) : (s.setPart p x).part p = x := look_put_self _ _ _ _
@[simp] theorem State.hart_setHart (s : State) (h : Nat) (x : Hart) : (s.setHart h x).hart h = x := look_put_self _ _ _ _
@[simp] theorem State.pair_setPair (s : State) (p : Nat) (x : Pair) : (s.setPair p x).pair p = x := look_put_self _ _ _ _
@[simp] theorem State.memCnt_setMemCnt (s : State) (m : Nat) (x : MemCnt) : (s.setMemCnt m x).memCnt m = x := look_put_self _ _ _ _
@[simp] theorem State.slot_setSlot (s : State) (n : Nat) (x : MbSlot) : (s.setSlot n x).slot n = x := look_put_self _ _ _ _
@[simp] theorem State.wm_setWm (s : State) (i : Nat) (x : Wm) : (s.setWm i x).wm i = x := look_put_self _ _ _ _
@[simp] theorem State.icomp_setIcomp (s : State) (c : Nat) (x : ImgComp) : (s.setIcomp c x).icomp c = x := look_put_self _ _ _ _

@[simp] theorem State.setAssoc_pending (s : State) (t : Nat) (a : Assoc) : (s.setAssoc t a).pending = s.pending := rfl
@[simp] theorem State.setAssoc_clk (s : State) (t : Nat) (a : Assoc) : (s.setAssoc t a).clk = s.clk := rfl
@[simp] theorem State.setAssoc_free (s : State) (t : Nat) (a : Assoc) : (s.setAssoc t a).free = s.free := rfl
@[simp] theorem State.setAssoc_nextId (s : State) (t : Nat) (a : Assoc) : (s.setAssoc t a).nextId = s.nextId := rfl
@[simp] theorem State.setAssoc_env (s : State) (t : Nat) (a : Assoc) : (s.setAssoc t a).env = s.env := rfl
@[simp] theorem State.setAssoc_mem (s : State) (t : Nat) (a : Assoc) : (s.setAssoc t a).mem = s.mem := rfl
@[simp] theorem State.setAssoc_rdata (s : State) (t : Nat) (a : Assoc) : (s.setAssoc t a).rdata = s.rdata := rfl
@[simp] theorem State.setAssoc_ident (s : State) (t : Nat) (a : Assoc) : (s.setAssoc t a).ident = s.ident := rfl
@[simp] theorem State.setAssoc_image (s : State) (t : Nat) (a : Assoc) : (s.setAssoc t a).image = s.image := rfl
@[simp] theorem State.setAssoc_tim (s : State) (t : Nat) (a : Assoc) : (s.setAssoc t a).tim = s.tim := rfl
@[simp] theorem State.setAssoc_isl (s : State) (t : Nat) (a : Assoc) : (s.setAssoc t a).isl = s.isl := rfl
@[simp] theorem State.setAssoc_gates (s : State) (t : Nat) (a : Assoc) : (s.setAssoc t a).gates = s.gates := rfl
@[simp] theorem State.setAssoc_inflight (s : State) (t : Nat) (a : Assoc) : (s.setAssoc t a).inflight = s.inflight := rfl
@[simp] theorem State.setAssoc_rr (s : State) (t : Nat) (a : Assoc) : (s.setAssoc t a).rr = s.rr := rfl
@[simp] theorem State.setAssoc_que (s : State) (t : Nat) (a : Assoc) : (s.setAssoc t a).que = s.que := rfl
@[simp] theorem State.setAssoc_vis (s : State) (t : Nat) (a : Assoc) : (s.setAssoc t a).vis = s.vis := rfl
@[simp] theorem State.setAssoc_marks (s : State) (t : Nat) (a : Assoc) : (s.setAssoc t a).marks = s.marks := rfl
@[simp] theorem State.setAssoc_led (s : State) (t : Nat) (a : Assoc) : (s.setAssoc t a).led = s.led := rfl
@[simp] theorem State.setAssoc_pow (s : State) (t : Nat) (a : Assoc) : (s.setAssoc t a).pow = s.pow := rfl
@[simp] theorem State.setAssoc_chan (s : State) (t : Nat) (a : Assoc) : (s.setAssoc t a).chan = s.chan := rfl
@[simp] theorem State.setAssoc_pur (s : State) (t : Nat) (a : Assoc) : (s.setAssoc t a).pur = s.pur := rfl
@[simp] theorem State.setAssoc_yar (s : State) (t : Nat) (a : Assoc) : (s.setAssoc t a).yar = s.yar := rfl
@[simp] theorem State.setAssoc_flt (s : State) (t : Nat) (a : Assoc) : (s.setAssoc t a).flt = s.flt := rfl
@[simp] theorem State.setAssoc_fio (s : State) (t : Nat) (a : Assoc) : (s.setAssoc t a).fio = s.fio := rfl
@[simp] theorem State.setAssoc_mea (s : State) (t : Nat) (a : Assoc) : (s.setAssoc t a).mea = s.mea := rfl
@[simp] theorem State.setAssoc_aud (s : State) (t : Nat) (a : Assoc) : (s.setAssoc t a).aud = s.aud := rfl
@[simp] theorem State.setAssoc_net (s : State) (t : Nat) (a : Assoc) : (s.setAssoc t a).net = s.net := rfl
@[simp] theorem State.setAssoc_tsn (s : State) (t : Nat) (a : Assoc) : (s.setAssoc t a).tsn = s.tsn := rfl
@[simp] theorem State.setAssoc_bus (s : State) (t : Nat) (a : Assoc) : (s.setAssoc t a).bus = s.bus := rfl
@[simp] theorem State.setAssoc_gwy (s : State) (t : Nat) (a : Assoc) : (s.setAssoc t a).gwy = s.gwy := rfl
@[simp] theorem State.setAssoc_nmg (s : State) (t : Nat) (a : Assoc) : (s.setAssoc t a).nmg = s.nmg := rfl
@[simp] theorem State.setAssoc_cpu (s : State) (t : Nat) (a : Assoc) : (s.setAssoc t a).cpu = s.cpu := rfl
@[simp] theorem State.setAssoc_vlt (s : State) (t : Nat) (a : Assoc) : (s.setAssoc t a).vlt = s.vlt := rfl
@[simp] theorem State.setAssoc_sto (s : State) (t : Nat) (a : Assoc) : (s.setAssoc t a).sto = s.sto := rfl
@[simp] theorem State.setAssoc_img (s : State) (t : Nat) (a : Assoc) : (s.setAssoc t a).img = s.img := rfl

@[simp] theorem State.setPeer_pending (s : State) (p : Nat) (x : ImgPeer) : (s.setPeer p x).pending = s.pending := rfl
@[simp] theorem State.setPeer_clk (s : State) (p : Nat) (x : ImgPeer) : (s.setPeer p x).clk = s.clk := rfl
@[simp] theorem State.setPeer_free (s : State) (p : Nat) (x : ImgPeer) : (s.setPeer p x).free = s.free := rfl
@[simp] theorem State.setPeer_nextId (s : State) (p : Nat) (x : ImgPeer) : (s.setPeer p x).nextId = s.nextId := rfl
@[simp] theorem State.setPeer_env (s : State) (p : Nat) (x : ImgPeer) : (s.setPeer p x).env = s.env := rfl
@[simp] theorem State.setPeer_mem (s : State) (p : Nat) (x : ImgPeer) : (s.setPeer p x).mem = s.mem := rfl
@[simp] theorem State.setPeer_rdata (s : State) (p : Nat) (x : ImgPeer) : (s.setPeer p x).rdata = s.rdata := rfl
@[simp] theorem State.setPeer_ident (s : State) (p : Nat) (x : ImgPeer) : (s.setPeer p x).ident = s.ident := rfl
@[simp] theorem State.setPeer_image (s : State) (p : Nat) (x : ImgPeer) : (s.setPeer p x).image = s.image := rfl
@[simp] theorem State.setPeer_tim (s : State) (p : Nat) (x : ImgPeer) : (s.setPeer p x).tim = s.tim := rfl
@[simp] theorem State.setPeer_isl (s : State) (p : Nat) (x : ImgPeer) : (s.setPeer p x).isl = s.isl := rfl
@[simp] theorem State.setPeer_gates (s : State) (p : Nat) (x : ImgPeer) : (s.setPeer p x).gates = s.gates := rfl
@[simp] theorem State.setPeer_inflight (s : State) (p : Nat) (x : ImgPeer) : (s.setPeer p x).inflight = s.inflight := rfl
@[simp] theorem State.setPeer_rr (s : State) (p : Nat) (x : ImgPeer) : (s.setPeer p x).rr = s.rr := rfl
@[simp] theorem State.setPeer_ten (s : State) (p : Nat) (x : ImgPeer) : (s.setPeer p x).ten = s.ten := rfl
@[simp] theorem State.setPeer_que (s : State) (p : Nat) (x : ImgPeer) : (s.setPeer p x).que = s.que := rfl
@[simp] theorem State.setPeer_vis (s : State) (p : Nat) (x : ImgPeer) : (s.setPeer p x).vis = s.vis := rfl
@[simp] theorem State.setPeer_marks (s : State) (p : Nat) (x : ImgPeer) : (s.setPeer p x).marks = s.marks := rfl
@[simp] theorem State.setPeer_led (s : State) (p : Nat) (x : ImgPeer) : (s.setPeer p x).led = s.led := rfl
@[simp] theorem State.setPeer_pow (s : State) (p : Nat) (x : ImgPeer) : (s.setPeer p x).pow = s.pow := rfl
@[simp] theorem State.setPeer_chan (s : State) (p : Nat) (x : ImgPeer) : (s.setPeer p x).chan = s.chan := rfl
@[simp] theorem State.setPeer_pur (s : State) (p : Nat) (x : ImgPeer) : (s.setPeer p x).pur = s.pur := rfl
@[simp] theorem State.setPeer_yar (s : State) (p : Nat) (x : ImgPeer) : (s.setPeer p x).yar = s.yar := rfl
@[simp] theorem State.setPeer_flt (s : State) (p : Nat) (x : ImgPeer) : (s.setPeer p x).flt = s.flt := rfl
@[simp] theorem State.setPeer_fio (s : State) (p : Nat) (x : ImgPeer) : (s.setPeer p x).fio = s.fio := rfl
@[simp] theorem State.setPeer_mea (s : State) (p : Nat) (x : ImgPeer) : (s.setPeer p x).mea = s.mea := rfl
@[simp] theorem State.setPeer_aud (s : State) (p : Nat) (x : ImgPeer) : (s.setPeer p x).aud = s.aud := rfl
@[simp] theorem State.setPeer_net (s : State) (p : Nat) (x : ImgPeer) : (s.setPeer p x).net = s.net := rfl
@[simp] theorem State.setPeer_tsn (s : State) (p : Nat) (x : ImgPeer) : (s.setPeer p x).tsn = s.tsn := rfl
@[simp] theorem State.setPeer_bus (s : State) (p : Nat) (x : ImgPeer) : (s.setPeer p x).bus = s.bus := rfl
@[simp] theorem State.setPeer_gwy (s : State) (p : Nat) (x : ImgPeer) : (s.setPeer p x).gwy = s.gwy := rfl
@[simp] theorem State.setPeer_nmg (s : State) (p : Nat) (x : ImgPeer) : (s.setPeer p x).nmg = s.nmg := rfl
@[simp] theorem State.setPeer_cpu (s : State) (p : Nat) (x : ImgPeer) : (s.setPeer p x).cpu = s.cpu := rfl
@[simp] theorem State.setPeer_vlt (s : State) (p : Nat) (x : ImgPeer) : (s.setPeer p x).vlt = s.vlt := rfl
@[simp] theorem State.setPeer_sto (s : State) (p : Nat) (x : ImgPeer) : (s.setPeer p x).sto = s.sto := rfl

@[simp] theorem State.setNb_pending (s : State) (b : Nat) (x : NandBlk) : (s.setNb b x).pending = s.pending := rfl
@[simp] theorem State.setNb_clk (s : State) (b : Nat) (x : NandBlk) : (s.setNb b x).clk = s.clk := rfl
@[simp] theorem State.setNb_free (s : State) (b : Nat) (x : NandBlk) : (s.setNb b x).free = s.free := rfl
@[simp] theorem State.setNb_nextId (s : State) (b : Nat) (x : NandBlk) : (s.setNb b x).nextId = s.nextId := rfl
@[simp] theorem State.setNb_env (s : State) (b : Nat) (x : NandBlk) : (s.setNb b x).env = s.env := rfl
@[simp] theorem State.setNb_mem (s : State) (b : Nat) (x : NandBlk) : (s.setNb b x).mem = s.mem := rfl
@[simp] theorem State.setNb_rdata (s : State) (b : Nat) (x : NandBlk) : (s.setNb b x).rdata = s.rdata := rfl
@[simp] theorem State.setNb_ident (s : State) (b : Nat) (x : NandBlk) : (s.setNb b x).ident = s.ident := rfl
@[simp] theorem State.setNb_image (s : State) (b : Nat) (x : NandBlk) : (s.setNb b x).image = s.image := rfl
@[simp] theorem State.setNb_tim (s : State) (b : Nat) (x : NandBlk) : (s.setNb b x).tim = s.tim := rfl
@[simp] theorem State.setNb_isl (s : State) (b : Nat) (x : NandBlk) : (s.setNb b x).isl = s.isl := rfl
@[simp] theorem State.setNb_gates (s : State) (b : Nat) (x : NandBlk) : (s.setNb b x).gates = s.gates := rfl
@[simp] theorem State.setNb_inflight (s : State) (b : Nat) (x : NandBlk) : (s.setNb b x).inflight = s.inflight := rfl
@[simp] theorem State.setNb_rr (s : State) (b : Nat) (x : NandBlk) : (s.setNb b x).rr = s.rr := rfl
@[simp] theorem State.setNb_ten (s : State) (b : Nat) (x : NandBlk) : (s.setNb b x).ten = s.ten := rfl
@[simp] theorem State.setNb_que (s : State) (b : Nat) (x : NandBlk) : (s.setNb b x).que = s.que := rfl
@[simp] theorem State.setNb_vis (s : State) (b : Nat) (x : NandBlk) : (s.setNb b x).vis = s.vis := rfl
@[simp] theorem State.setNb_marks (s : State) (b : Nat) (x : NandBlk) : (s.setNb b x).marks = s.marks := rfl
@[simp] theorem State.setNb_led (s : State) (b : Nat) (x : NandBlk) : (s.setNb b x).led = s.led := rfl
@[simp] theorem State.setNb_pow (s : State) (b : Nat) (x : NandBlk) : (s.setNb b x).pow = s.pow := rfl
@[simp] theorem State.setNb_chan (s : State) (b : Nat) (x : NandBlk) : (s.setNb b x).chan = s.chan := rfl
@[simp] theorem State.setNb_pur (s : State) (b : Nat) (x : NandBlk) : (s.setNb b x).pur = s.pur := rfl
@[simp] theorem State.setNb_yar (s : State) (b : Nat) (x : NandBlk) : (s.setNb b x).yar = s.yar := rfl
@[simp] theorem State.setNb_flt (s : State) (b : Nat) (x : NandBlk) : (s.setNb b x).flt = s.flt := rfl
@[simp] theorem State.setNb_fio (s : State) (b : Nat) (x : NandBlk) : (s.setNb b x).fio = s.fio := rfl
@[simp] theorem State.setNb_mea (s : State) (b : Nat) (x : NandBlk) : (s.setNb b x).mea = s.mea := rfl
@[simp] theorem State.setNb_aud (s : State) (b : Nat) (x : NandBlk) : (s.setNb b x).aud = s.aud := rfl
@[simp] theorem State.setNb_net (s : State) (b : Nat) (x : NandBlk) : (s.setNb b x).net = s.net := rfl
@[simp] theorem State.setNb_tsn (s : State) (b : Nat) (x : NandBlk) : (s.setNb b x).tsn = s.tsn := rfl
@[simp] theorem State.setNb_bus (s : State) (b : Nat) (x : NandBlk) : (s.setNb b x).bus = s.bus := rfl
@[simp] theorem State.setNb_gwy (s : State) (b : Nat) (x : NandBlk) : (s.setNb b x).gwy = s.gwy := rfl
@[simp] theorem State.setNb_nmg (s : State) (b : Nat) (x : NandBlk) : (s.setNb b x).nmg = s.nmg := rfl
@[simp] theorem State.setNb_cpu (s : State) (b : Nat) (x : NandBlk) : (s.setNb b x).cpu = s.cpu := rfl
@[simp] theorem State.setNb_vlt (s : State) (b : Nat) (x : NandBlk) : (s.setNb b x).vlt = s.vlt := rfl
@[simp] theorem State.setNb_img (s : State) (b : Nat) (x : NandBlk) : (s.setNb b x).img = s.img := rfl

@[simp] theorem State.setAssoc_assoc (s : State) (t : Nat) (a : Assoc) : ((s.setAssoc t a).tenant t).assoc = some a := by
  simp [State.setAssoc]
@[simp] theorem State.setPeer_peer (s : State) (p : Nat) (x : ImgPeer) : (s.setPeer p x).peer? p = some x := by
  simp [State.peer?, State.setPeer]
@[simp] theorem State.setNb_nb (s : State) (b : Nat) (x : NandBlk) : (s.setNb b x).nb b = x := by
  simp [State.nb, State.setNb]

end Sys2Proof.Machine
end

