-- ==== Sys2Proof/Laws/Vault.lean ====
section
/-!
SUPPORT. What a Vault restart that begins does to the Vault's mode (16 R501).
-/

namespace Sys2Proof.Machine

/-- A final reply leaves the Vault alone. -/
theorem finishCmd_vlt (id : Nat) (st : Status) (res : List Word) (s : State) : (finishCmd id st res s).vlt = s.vlt := by
  have key : ∀ {a b : State}, OnlyReplies a b → b.vlt = a.vlt := fun h => by rw [h.rest]; rfl
  unfold finishCmd
  split
  · rfl
  · dsimp only
    split <;> split
    · rw [key (dropCmd_only ..), key (countReset_only ..), key (chainEnd_only ..)]
    · rw [key (dropCmd_only ..), key (countReset_only ..)]
    · rw [key (postReply_only ..), key (countReset_only ..), key (chainEnd_only ..)]
    · rw [key (postReply_only ..), key (countReset_only ..)]

/-- So do the final replies of several commands. -/
theorem finishAll_vlt (st : Status) (ids : List Nat) (s : State) : (finishAll ids st s).vlt = s.vlt := by
  unfold finishAll
  induction ids generalizing s with
  | nil => rfl
  | cons i l ih => rw [List.foldl_cons, ih, finishCmd_vlt]

/-- A fold of steps that keep the Vault's mode keeps it. -/
theorem foldl_vmode {f : State → Nat → State} (h : ∀ s n, (f s n).vlt.mode = s.vlt.mode) (l : List Nat) (s : State) :
    (l.foldl f s).vlt.mode = s.vlt.mode := by
  induction l generalizing s with
  | nil => rfl
  | cons n l ih => rw [List.foldl_cons, ih, h]

theorem slotDone_vmode (n st : Nat) (res : List Word) (out : List Byte) (s : State) :
    (slotDone n st res out s).vlt.mode = s.vlt.mode := by
  unfold slotDone
  dsimp only
  split
  · rw [finishCmd_vlt]
    rfl
  · split <;> rfl

theorem slotsEnd_vmode (st : Nat) (ids : List Nat) (s : State) :
    (finishAll ids (statusOf st) { s with vlt := { s.vlt with waiting := [] } }).vlt.mode = s.vlt.mode := by
  rw [finishAll_vlt]

theorem serviceEnd_vmode (s : State) : (serviceEnd s).vlt.mode = s.vlt.mode := by
  unfold serviceEnd
  split <;> rfl

theorem slotsOut_vmode (st : Nat) (s : State) : (slotsOut st s).vlt.mode = s.vlt.mode := by
  unfold slotsOut
  dsimp only
  rw [slotsEnd_vmode, ← serviceEnd_vmode s]
  refine foldl_vmode (fun u n => ?_) _ _
  split
  · exact slotDone_vmode ..
  · rfl

theorem logNotice_vlt (ts : List Nat) (t n : Nat) (d : List Word) (s : State) : (logNotice ts t n d s).vlt = s.vlt := by
  unfold logNotice noticeAllOnly
  generalize ts.eraseDups = l
  have h : ∀ u : State, (l.foldl (fun s t => noticeOnly t n d s) u).vlt = u.vlt := by
    induction l with
    | nil => exact fun _ => rfl
    | cons a l ih =>
      intro u
      rw [List.foldl_cons, ih]
      exact (noticeOnly_only a n d u).rest ▸ rfl
  rw [h]
  rfl

theorem noticeAll_vlt (ts : List Nat) (n : Nat) (d : List Word) (s : State) : (noticeAll ts n d s).vlt = s.vlt := by
  unfold noticeAll
  generalize ts.eraseDups = l
  induction l generalizing s with
  | nil => rfl
  | cons a l ih =>
    rw [List.foldl_cons, ih]
    exact (notice_only a n d s).rest ▸ rfl

theorem resyncAbandon_vlt (p : Nat) (r : Role) (s : State) : (resyncAbandon p r s).vlt = s.vlt := by
  unfold resyncAbandon resyncCmd resyncNote
  split
  · dsimp only
    have h := fun u : State => noticeAll_vlt (u.partWatch (u.pair p).part) 0x4002
      [wd (p + b2n false * 2 ^ 8), wd ((u.clk - (u.pair p).tripAt) / 1000)] u
    split
    · rw [finishCmd_vlt]
      exact h s
    · exact h s
  · rfl

theorem pairSplit_vlt (q : Nat) (s : State) : (pairSplit q s).vlt = s.vlt := by
  unfold pairSplit
  dsimp only
  rw [logNotice_vlt]
  simp only [State.setHart_vlt, State.setPair_vlt]
  generalize (if (s.pair q).role = .spare ∨ (s.pair q).role = .resync then partner q else q : Nat) = run
  split
  · split
    · rw [State.setPair_vlt, resyncAbandon_vlt]
    · rw [resyncAbandon_vlt]
  · rfl

theorem debugHalt_vlt (h : Nat) (s : State) : (debugHalt h s).vlt = s.vlt := by
  unfold debugHalt
  split
  · rfl
  · split
    · exact pairSplit_vlt ..
    · split <;> rfl

theorem gatesOut_vmode (st : Nat) (s : State) : (gatesOut st s).vlt.mode = s.vlt.mode := by
  refine foldl_vmode (fun u n => ?_) _ _
  unfold gateReturn
  dsimp only
  split
  · rfl
  · split
    · rw [debugHalt_vlt]
      rfl
    · rfl

theorem vaultZero_vmode (s : State) : (vaultZero s).vlt.mode = s.vlt.mode := by
  unfold vaultZero
  exact foldl_vmode (f := fun (s : State) n => s.clearMem (0x30000000 + 0x40000 * n) ((s.wm (3 + n)).level * 0x10000))
    (fun _ _ => rfl) _ _

/-- A restart that begins in RUNNING, with fewer than three in the 60 s before it, restarts the Vault. -/
theorem vaultRestartBegin_mode (cause : Nat) (s : State) (h : s.vlt.mode = .running) (h3 : s.recentStarts < 3) :
    (vaultRestartBegin cause s).vlt.mode = .restarting := by
  unfold vaultRestartBegin
  unfold State.recentStarts at h3
  rw [if_neg (by simp [h]), if_neg (Nat.not_le.2 h3)]
  refine (vaultZero_vmode _).trans ?_
  have h1 : ∀ u : State, (dropVolatile u).vlt.mode = u.vlt.mode := fun _ => rfl
  exact (h1 _).trans ((slotsOut_vmode _ _).trans (gatesOut_vmode _ _))

end Sys2Proof.Machine
end

