-- ==== Sys2Proof/Machine/Pads.lean ====
section
/-!
DEFINITION. The output pads as the power states leave them (21 R616), read off the state.
-/

namespace Sys2Proof.Machine

/-- What an output pad shows. `driven`: its unit drives it (a bus controller, Strongbox). -/
inductive Pad where
  | low | high | off | on | released | highZ | driven
  deriving DecidableEq, Repr

/-- The module runs, an entry into SLEEP in progress included. -/
def State.padsRun (s : State) : Bool := s.pow.mode != .sleep && s.pow.mode != .dormant && s.pow.mode != .off

/-- FAULT_N (19 R588): in SLEEP as before it. -/
def State.padFaultN (s : State) : Pad :=
  match s.pow.mode with
  | .dormant | .off => .released
  | .sleep => if s.flt.held then .low else .released
  | _ => if s.faultLow then .low else .released

/-- The phase of a field output that is on, at a time of BSX's clock (08 R243). -/
def FieldOut.inPhase (x : FieldOut) (t : Nat) : Bool :=
  !foPwm x || decide ((t - x.pwmFrom) * foFreq x % 10 ^ 9 < x.dutyAt t * 10 ^ 6)

/-- FO0 to FO15: as commanded while the module runs, in PWM by its phase. -/
def State.padFo (s : State) (i : Nat) : Pad :=
  if s.padsRun && (s.fout i).st == .on && (s.fout i).inPhase s.bsxClk then .on else .off

/-- Peer delay is measured on a port: one that an instance does not disable (09 R269). -/
def State.peerDelayOn (s : State) (p : Nat) : Bool :=
  decide (p < 12) && s.padsRun && s.running 3 && s.linked p &&
    (fld s.tim.td0.roles (2 * p + 1) (2 * p) != 0 || fld s.tim.td1.roles (2 * p + 1) (2 * p) != 0)

/-- An instance sends Sync on a port as its external port configuration says, at 2^LOGSYNC s (09 R269): LOGSYNC. -/
def State.syncsOn (s : State) (i p : Nat) : Option Int :=
  let x := s.inst i
  if s.padsRun && s.running 3 && s.linked p && decide (p < 12) && x.extPort && fld x.roles (2 * p + 1) (2 * p) == 2
  then some x.logSync else none

/-- PPS_OUT (09 R287). -/
def State.padPps (s : State) : Pad := if s.padsRun && s.tim.ppsLevel then .high else .low

/-- TXD8 to TXD11, recessive in SLEEP. -/
def State.padTxd (s : State) : Pad :=
  if s.padsRun then .driven else if s.pow.mode = .sleep then .high else .highZ

/-- PHYRST0_N and PHYRST1_N. -/
def State.padPhyrst (s : State) : Pad :=
  if s.padsRun then (if s.running 2 then .high else .low) else if s.pow.mode = .sleep then .low else .highZ

/-- CE0_N and CE1_N. -/
def State.padCe (s : State) : Pad := if s.padsRun then .driven else .highZ

end Sys2Proof.Machine
end

