-- ==== Sys2Proof/WellFormed.lean ====
section
/-!
DEFINITION. When a command is well formed: each operand that numbers an object or fills a field of fixed width lies in
the range that the spec gives the object or the field. The meanings are total and take any operand.
-/

namespace Sys2Proof

/-- The header fields of a packet fit their widths, and its parameters the longest packet (02 R37, R43). -/
def Req.wf (r : Req) : Bool :=
  decide (r.tenant < 32) && decide (r.seq < 2 ^ 16) && decide (r.version < 16) && decide (r.notBefore < 2 ^ 48) &&
  decide (r.params.length ≤ 1020)

/-- A CHAN code that names a load channel (05 R138). -/
def chOk (ch : Nat) : Bool :=
  decide (ch < 8) || (decide (0x40 ≤ ch) && decide (ch < 0x58)) || (decide (0x80 ≤ ch) && decide (ch < 0xA0)) ||
  (decide (0xC0 ≤ ch) && decide (ch < 0xC8))

/-- A function under the quiescence rule exists (01 R31). -/
def Func.wf : Func → Bool
  | .island n => decide (n < 9)
  | .port p => decide (p < 14)
  | .can c => decide (c < 12)
  | .lin l => decide (l < 8)
  | .part p => decide (p < 8)
  | .vi k i => decide (k < 3) && decide (i < 96)

/-- A gate list's owner exists (11 R343). -/
def GateRef.wf : GateRef → Bool
  | .port p => decide (p < 16)
  | .stream g => decide (g < 32)

/-- A carriage frame comes from an external port and a MAC address (03 R103). -/
def Carriage.wf (f : Carriage) : Bool := decide (f.port < 14) && decide (f.src < 2 ^ 48)

/-- A frame's addresses, tag and type fit their fields (10 R298). -/
def EthFrame.wf (f : EthFrame) : Bool :=
  decide (f.dst < 2 ^ 48) && decide (f.src < 2 ^ 48) && decide (f.etype < 2 ^ 16) && f.vlan.all (fun v => decide (v < 2 ^ 16)) &&
  f.rtag.all (fun v => decide (v < 2 ^ 16))

/-- A frame completes at one of the external ports. -/
def RxFrame.wf (f : RxFrame) : Bool := decide (f.port < 14) && f.frame.wf

/-- A CAN frame's identifier fits its length, its data and its fields its format (12 R376). -/
def CanFrame.wf (f : CanFrame) : Bool :=
  decide (f.id < if f.ext then 2 ^ 29 else 2 ^ 11) && decide (f.fmt < 3) && decide (f.data.length ≤ 2048) &&
  (f.fmt == 0 || !f.rtr) && (f.fmt == 1 || !f.brs) && (f.fmt != 0 || !f.esi) &&
  (f.fmt == 2 || (!f.sec && f.sdt == 0 && f.vcid == 0 && f.af == 0)) && decide (f.sdt < 256) && decide (f.vcid < 256) &&
  decide (f.af < 2 ^ 32)

/-- A PDU's fields fit their widths (13 R408). -/
def AcfPdu.wf (f : AcfPdu) : Bool := decide (f.port < 16) && decide (f.streamId < 2 ^ 64) && decide (f.seqNum < 256)

/-- A ring message's fields fit their widths (14 R419). -/
def RingMsg.wf (m : RingMsg) : Bool :=
  decide (m.src < 256) && decide (m.kind < 8) && decide (m.dst < 256) && decide (m.round < 256)

/-- A command is well formed. -/
def Instr.wf : Instr → Bool
  | .sysEcho _ r => r.wf
  | .sysCancel _ r => r.wf
  | .sysIdentity _ r => r.wf
  | .sysLimits _ r => r.wf
  | .sysIslandCtl _ r => r.wf
  | .sysIslandStatus _ r => r.wf
  | .tenCreate _ r => r.wf
  | .tenDelete _ r => r.wf
  | .tenQuery _ r => r.wf
  | .tenShare _ r => r.wf
  | .tenRights _ r => r.wf
  | .tenReset _ r => r.wf
  | .tenBind _ r => r.wf
  | .tenResume _ r => r.wf
  | .tenViCreate _ r => r.wf
  | .tenViDelete _ r => r.wf
  | .tenViReset _ r => r.wf
  | .tenViQuery _ r => r.wf
  | .tenIslandEnable _ r => r.wf
  | .queConfig _ r => r.wf
  | .queFlush _ r => r.wf
  | .queStatus _ r => r.wf
  | .queLevel _ r => r.wf
  | .queClear _ r => r.wf
  | .pwrConfig _ r => r.wf
  | .pwrReadConfig _ r => r.wf
  | .pwrAssign _ r => r.wf
  | .pwrSwitch _ r => r.wf
  | .pwrDuty _ r => r.wf
  | .pwrClear _ r => r.wf
  | .pwrStatus _ r => r.wf
  | .purWire _ r => r.wf
  | .purReadWire _ r => r.wf
  | .purStatus _ r => r.wf
  | .purChannel _ r => r.wf
  | .purLimits _ r => r.wf
  | .lmpPolicy _ r => r.wf
  | .lmpReclaim _ r => r.wf
  | .lmpStatus _ r => r.wf
  | .lmpReadPolicy _ r => r.wf
  | .lmpEnter _ r => r.wf
  | .fioInConfig _ r => r.wf
  | .fioReadConfig _ r => r.wf
  | .fioAssign _ r => r.wf
  | .fioOutConfig _ r => r.wf
  | .fioInState _ r => r.wf
  | .fioEdges _ r => r.wf
  | .fioOut _ r => r.wf
  | .fioOutClear _ r => r.wf
  | .fioOutStatus _ r => r.wf
  | .meaAiConfig _ r => r.wf
  | .meaSeqAssign _ r => r.wf
  | .meaSeqConfig _ r => r.wf
  | .meaRun _ r => r.wf
  | .meaResults _ r => r.wf
  | .meaConvert _ r => r.wf
  | .timNow _ r => r.wf
  | .timStatus _ r => r.wf
  | .timDomain _ r => r.wf
  | .timSet _ r => r.wf
  | .timPortlat _ r => r.wf
  | .timPps _ r => r.wf
  | .timPpsin _ r => r.wf
  | .timTrigAssign _ r => r.wf
  | .timTrigConfig _ r => r.wf
  | .timTrigArm _ r => r.wf
  | .timTrigStatus _ r => r.wf
  | .timTxqAssign _ r => r.wf
  | .timTxstamps _ r => r.wf
  | .timAlarm _ r => r.wf
  | .timCanref _ r => r.wf
  | .netPortConfig _ r => r.wf
  | .netPortCtl _ r => r.wf
  | .netQueueConfig _ r => r.wf
  | .netVlan _ r => r.wf
  | .netEtype _ r => r.wf
  | .netFdbAdd _ r => r.wf
  | .netFdbDel _ r => r.wf
  | .netFdbFlush _ r => r.wf
  | .netFdbLookup _ r => r.wf
  | .netFdbAge _ r => r.wf
  | .netPortStatus _ r => r.wf
  | .netCounters _ r => r.wf
  | .netBuffer _ r => r.wf
  | .tsnCsOpen _ r => r.wf
  | .tsnCsCommit _ r => r.wf
  | .tsnCsAbort _ r => r.wf
  | .tsnStream _ r => r.wf
  | .tsnStreamRead _ r => r.wf
  | .tsnStreamStatus _ r => r.wf
  | .tsnStreamClear _ r => r.wf
  | .tsnGcl _ r => r.wf
  | .tsnCbs _ r => r.wf
  | .tsnPortStatus _ r => r.wf
  | .tsnMacsecPort _ r => r.wf
  | .tsnSa _ r => r.wf
  | .tsnRxsc _ r => r.wf
  | .tsnTxsaSelect _ r => r.wf
  | .tsnMacsecStatus _ r => r.wf
  | .busAssign _ r => r.wf
  | .busCtl _ r => r.wf
  | .busCanConfig _ r => r.wf
  | .busCanFilter _ r => r.wf
  | .busCanStatus _ r => r.wf
  | .busCanTx _ r => r.wf
  | .busCanRx _ r => r.wf
  | .busCanTxe _ r => r.wf
  | .busLinConfig _ r => r.wf
  | .busLinFrames _ r => r.wf
  | .busLinSchedule _ r => r.wf
  | .busLinRun _ r => r.wf
  | .busLinData _ r => r.wf
  | .busLinRead _ r => r.wf
  | .busLinStatus _ r => r.wf
  | .busLinSleep _ r => r.wf
  | .busLinWake _ r => r.wf
  | .gwyRoute _ r => r.wf
  | .gwyRouteRead _ r => r.wf
  | .gwyAcf _ r => r.wf
  | .gwyAcfStatus _ r => r.wf
  | .gwyQueue _ r => r.wf
  | .gwyStatus _ r => r.wf
  | .nmgRingConfig _ r => r.wf
  | .nmgCluster _ r => r.wf
  | .nmgRequest _ r => r.wf
  | .nmgStatus _ r => r.wf
  | .nmgWakeConfig _ r => r.wf
  | .nmgWakeCause _ r => r.wf
  | .cpuPartConfig _ r => r.wf
  | .cpuPartCtl _ r => r.wf
  | .cpuPartStatus _ r => r.wf
  | .cpuPairStatus _ r => r.wf
  | .cpuDebug _ r => r.wf
  | .cpuResync _ r => r.wf
  | .cpuInject _ r => r.wf
  | .cpuMemStatus _ r => r.wf
  | .vltStatus _ r => r.wf
  | .vltConfig _ r => r.wf
  | .vltMboxAssign _ r => r.wf
  | .vltRestart _ r => r.wf
  | .vltMeasure _ r => r.wf
  | .vltRandom _ r => r.wf
  | .vltHash _ r => r.wf
  | .vltMac _ r => r.wf
  | .vltCipher _ r => r.wf
  | .vltAead _ r => r.wf
  | .vltSign _ r => r.wf
  | .vltVerify _ r => r.wf
  | .vltKex _ r => r.wf
  | .vltKeyGen _ r => r.wf
  | .vltKeyImport _ r => r.wf
  | .vltKeyPublic _ r => r.wf
  | .vltKeyDelete _ r => r.wf
  | .vltKeyInfo _ r => r.wf
  | .vltCert _ r => r.wf
  | .vltLcNonce _ r => r.wf
  | .vltLcAdvance _ r => r.wf
  | .stoFormat _ r => r.wf
  | .stoVolConfig _ r => r.wf
  | .stoStatus _ r => r.wf
  | .stoRead _ r => r.wf
  | .stoWrite _ r => r.wf
  | .stoTrim _ r => r.wf
  | .stoGroupOpen _ r => r.wf
  | .stoGroupCommit _ r => r.wf
  | .stoGroupAbort _ r => r.wf
  | .stoEscrowConfig _ r => r.wf
  | .stoEscrowStatus _ r => r.wf
  | .stoEscrowMeasure _ r => r.wf
  | .stoPatrol _ r => r.wf
  | .logStatus _ r => r.wf
  | .logRead _ r => r.wf
  | .logCheckpoint _ r => r.wf
  | .logWrite _ r => r.wf
  | .imgOffer _ r => r.wf
  | .imgData _ r => r.wf
  | .imgClose _ r => r.wf
  | .imgConfirm _ r => r.wf
  | .imgActivate _ r => r.wf
  | .imgRevert _ r => r.wf
  | .imgStatus _ r => r.wf
  | .imgPeer _ r => r.wf
  | .imgAbort _ r => r.wf
  | .imgConfig _ r => r.wf
  | .tstAuditRun _ r => r.wf
  | .tstSummary _ r => r.wf
  | .tstDetail _ r => r.wf
  | .tstFaultStatus _ r => r.wf
  | .tstFaultClear _ r => r.wf
  | .tstFaultMask _ r => r.wf
  | .doorbell _ _ t q _ => decide (t < 32) && decide (q < 6)
  | .flush _ _ t q _ => decide (t < 32) && decide (q < 6)
  | .qStatusClear _ _ t q _ => decide (t < 32) && decide (q < 6)
  | .registerWrite _ _ addr _ _ => decide (addr < 2 ^ 40)
  | .dispatch _ => true
  | .notbeforeReached _ => true
  | .heldReplyPosted _ t => decide (t < 32)
  | .pointerCheck _ t q _ ptr inv => decide (t < 32) && decide (q < 6) && decide (ptr < 8192) && decide (inv < 8192)
  | .carriageFrameReceived _ f => f.wf
  | .carriageSend _ t => decide (t < 32)
  | .carriageRetransmit _ t _ => decide (t < 48)
  | .tenResetDone _ t => decide (t < 32)
  | .viResetComplete _ kind idx => decide (kind < 3) && decide (idx < 256)
  | .clockLoss _ isl => decide (isl < 9)
  | .clockReturn _ isl => decide (isl < 9)
  | .quiescenceReached _ fn => fn.wf
  | .forcedShutdown _ fn => fn.wf
  | .islandRunReached _ fn => fn.wf
  | .slewStart _ ch => chOk ch
  | .turnOnSlewEnd _ ch => chOk ch
  | .turnOffSlewEnd _ ch => chOk ch
  | .inrushWindowEnd _ ch => chOk ch
  | .overcurrentTrip _ ch => chOk ch
  | .shortCircuitTrip _ ch => chOk ch
  | .thermalLatchSet _ w => chOk w.ch && (!w.low || decide (192 ≤ w.ch))
  | .thermalLatchRelease _ w => chOk w.ch && (!w.low || decide (192 ≤ w.ch))
  | .wireTrip _ ch => chOk ch
  | .wireLatchRelease _ ch => chOk ch
  | .reverseCurrent _ ch _ => chOk ch
  | .driverFault _ ch => chOk ch
  | .blockCheck _ ch _ _ => chOk ch
  | .retryDue _ ch => chOk ch
  | .onStableReload _ ch => chOk ch
  | .openLoadCount _ ch _ => chOk ch
  | .offStateCycle _ ch _ _ => chOk ch
  | .pwmPeriodBoundary _ ch => chOk ch
  | .feedLoss _ die => decide (die < 2)
  | .feedReturn _ die => decide (die < 2)
  | .purseEvaluation _ => true
  | .overdrawWindowEnd _ ch n => chOk ch && decide (0 < n)
  | .yarrowEntry _ die _ => decide (die < 2)
  | .heartbeatLoss _ die => decide (die < 2)
  | .logicResetIndication _ => true
  | .limpNLow _ => true
  | .safeNLow _ => true
  | .linkLostDeclared _ die => decide (die < 2)
  | .holdExpiry _ ch => chOk ch
  | .lhPinChange _ die pin _ => decide (die < 2) && decide (pin < 6)
  | .reclaimComplete _ => true
  | .fieldOutputSwitch _ fo => decide (fo < 16)
  | .fieldOutputLimit _ fo => decide (fo < 16)
  | .fieldOutputThermal _ fo => decide (fo < 16)
  | .fieldOutputThermalRelease _ fo => decide (fo < 16)
  | .fieldOutputDriverFault _ fo => decide (fo < 16)
  | .fieldOutputOpenLoad _ fo _ => decide (fo < 16)
  | .rawTransition _ fi _ => decide (fi < 48)
  | .debounceExpiry _ fi => decide (fi < 48)
  | .countWindowPublish _ fi => decide (fi < 48)
  | .sequenceTrigger _ seq => decide (seq < 16)
  | .sequenceRunEnd _ seq _ => decide (seq < 16)
  | .syncReceived _ inst _ _ port => decide (inst < 2) && decide (port < 12)
  | .syncTimeout _ => true
  | .holdoverExpiry _ => true
  | .tnsWrap _ => true
  | .secondWindowEnd _ => true
  | .triggerFiring _ tt => decide (tt < 32)
  | .tallyAlarmFire _ => true
  | .ppsOutPulse _ => true
  | .ppsInEdge _ => true
  | .canrefFup _ can => decide (can < 12)
  | .frameReceived _ fs => fs.all (·.wf)
  | .frameQueued _ _ => true
  | .transmissionStart _ port => decide (port < 16)
  | .transmissionEnd _ port => decide (port < 16)
  | .linkDown _ port => decide (port < 16)
  | .linkUp _ port => decide (port < 16)
  | .holdExpire _ port => decide (port < 16)
  | .fdbAgeing _ mac vid => decide (mac < 2 ^ 48) && decide (vid < 4096)
  | .sqpWrite _ _ kind idx _ => decide (kind < 3) && decide (idx < 256)
  | .transferComplete _ d _ => decide (d.kind < 3) && decide (d.idx < 96) && decide (d.index < 2 ^ 16)
  | .gateEntryChange _ gk => gk.wf
  | .changeSetSwitch _ => true
  | .gateListSwitch _ gk => gk.wf
  | .changeSetComplete _ => true
  | .recoveryReset _ sid => decide (sid < 512)
  | .txfPut _ _ can _ => decide (can < 12)
  | .txbReq _ _ can _ => decide (can < 12)
  | .txbCancel _ _ can _ => decide (can < 12)
  | .txbDoneClear _ _ can _ => decide (can < 12)
  | .flagsClear _ _ can _ => decide (can < 12)
  | .messageRamWrite _ _ can off _ => decide (can < 12) && decide (off < 0x10000)
  | .txeHeadRead _ _ can => decide (can < 12)
  | .headerWord0Read _ _ can buf => decide (can < 12) && decide (buf < 128)
  | .lastWordRead _ _ can buf => decide (can < 12) && decide (buf < 128)
  | .lockExpiry _ can => decide (can < 12)
  | .canFrameReceived _ can f _ => decide (can < 12) && f.wf
  | .canArbitration _ can => decide (can < 12)
  | .canTransmitOutcome _ can _ _ => decide (can < 12)
  | .canError _ can lec _ _ => decide (can < 12) && decide (1 ≤ lec) && decide (lec ≤ 7)
  | .busOffRecovery _ can => decide (can < 12)
  | .lonePauseEnd _ can => decide (can < 12)
  | .linSlotStart _ lin => decide (lin < 8)
  | .linResponseEnd _ lin _ _ => decide (lin < 8)
  | .linResponderSleep _ lin => decide (lin < 8)
  | .linWakeDetect _ lin => decide (lin < 8)
  | .gatewayLookup _ => true
  | .acfPduSend _ ctx => decide (ctx < 64)
  | .acfPduReceived _ pdu => pdu.wf
  | .ringMessageReceived _ ring m => decide (ring < 14) && m.wf
  | .ringSend _ ring => decide (ring < 14)
  | .ringSilence _ ring => decide (ring < 14)
  | .aliveSend _ ring => decide (ring < 14)
  | .veto _ ring => decide (ring < 14)
  | .prepareEnd _ ring => decide (ring < 14)
  | .releaseComplete _ ring => decide (ring < 14)
  | .clusterFrameReceived _ ring node _ => decide (ring < 14) && decide (node < 32)
  | .clusterFrameSend _ ring => decide (ring < 14)
  | .pnSleepEntry _ ring => decide (ring < 14)
  | .pntoExpiry _ ring => decide (ring < 14)
  | .wake _ _ src => src.frame.all CanFrame.wf
  | .decoderSilence _ can => decide (can < 12)
  | .partitionStart _ p => decide (p < 8)
  | .comparatorTrip _ trip _ => decide (trip.pair < 4)
  | .injectedMismatchTest _ pair _ => decide (pair < 4)
  | .stateSignatureSweep _ pair _ => decide (pair < 4)
  | .resyncHandover _ pair cause => decide (pair < 4) && decide (cause ≤ 4)
  | .coreStorageError _ pc => decide (pc < 4)
  | .debugHaltRequest _ req => decide (req.hart < 8)
  | .patrolRead _ addr kind => decide (addr < 2 ^ 40) && decide (kind < 3)
  | .uncorrectableRead _ _ addr => decide (addr < 2 ^ 40)
  | .tallyRead _ rd => decide (rd.hart < 8) && decide (rd.csr < 4096)
  | .csrWriteTrap _ hart _ => decide (hart < 8)
  | .accessRefused _ _ addr acc => decide (addr < 2 ^ 40) && decide (acc.kind < 5) && [8, 16, 32, 64].contains acc.width
  | .ecall _ hart => decide (hart < 8)
  | .wmRaise _ idx _ => decide (idx < 7)
  | .wmLower _ idx _ => decide (idx < 7)
  | .wmRefusedClear _ idx _ => decide (idx < 7)
  | .zeroiseComplete _ idx => decide (idx < 7)
  | .vgateStore _ hart _ _ _ => decide (hart < 8)
  | .gateReturn _ hart => decide (hart < 8)
  | .mbPost _ _ slot => decide (slot < 64)
  | .mbRelease _ _ slot => decide (slot < 64)
  | .mailboxServe _ => true
  | .mailboxDone _ => true
  | .vaultRestart _ _ => true
  | .vaultHang _ => true
  | .vaultRunning _ _ => true
  | .drbgReseed _ _ => true
  | .fuseWriteComplete _ => true
  | .vaultClaimRelease _ => true
  | .idread _ => true
  | .dbgnonce _ => true
  | .dbgauth _ _ => true
  | .dbgend _ => true
  | .stxStart _ _ _ _ => true
  | .escrowEvaluation _ => true
  | .pageProgramEnd _ _ => true
  | .journalRecordEnd _ _ => true
  | .commitTimeout _ _ => true
  | .bankSample _ _ => true
  | .escrowMeasureEnd _ _ => true
  | .programFailure _ _ _ => true
  | .nandPatrol _ _ _ _ => true
  | .wearLevelMove _ => true
  | .ledgerPersist _ => true
  | .checkpointSign _ => true
  | .installComplete _ xfr => decide (xfr < 4)
  | .relayStart _ comp => decide (comp < 256)
  | .relayOutcome _ comp _ => decide (comp < 256)
  | .relayRetry _ comp => decide (comp < 256)
  | .transferAbandon _ xfr => decide (xfr < 4)
  | .activationComplete _ comp => decide (comp < 256)
  | .healthWindowEnd _ comp => decide (comp < 256)
  | .auditBlockTest _ _ _ => true
  | .auditConditionCheck _ _ _ => true
  | .auditEnd _ => true
  | .tellerPairTrip _ tp _ => decide (tp < 4)
  | .tellerPairRejoin _ tp => decide (tp < 4)
  | .sleepEntry _ => true
  | .sleepEntryCheck _ => true
  | .sleepReached _ => true
  | .dormantEntry _ => true
  | .start _ kind => decide (kind < 4)
  | .brownout _ => true
  | .vetchFrameError _ die => decide (die < 2)
  | .safeNHigh _ => true
  | .heartbeatRestored _ die => decide (die < 2)
  | .keyInactive _ => true
  | .becomesGrandmaster _ => true
  | .ppsOutFall _ => true
  | .linHeaderReceived _ lin _ _ _ => decide (lin < 8)
  | .formatComplete _ => true
  | .mediaReadEnd _ _ _ => true
  | .translationRebuildEnd _ => true
  | .revertComplete _ comp => decide (comp < 256)
  | .phyFirmwareWatchdog _ port => decide (port < 16)
  | .aonSupplyLoss _ => true
  | .agedHeadCheck _ port => decide (port < 16)
  | .feedBlocked _ die => decide (die < 2)

end Sys2Proof
end

