-- ==== Sys2Proof/Tests/Slice0.lean ====
section
/-!
SUPPORT. Tests: what WellFormed refuses, the worked examples of the spec, and, for every statement with hypotheses, states
and operands that meet them (witness_…).
-/

set_option linter.unusedVariables false
set_option Elab.async false

namespace Sys2Proof.Tests
open Sys2Proof Machine

/-! ### What WellFormed refuses, one ill-formed term for each check -/

def anEth : EthFrame := { dst := 6, src := 2, etype := 0x800 }
def aMsg : RingMsg := { src := 1, kind := 0, dst := 2 }

theorem test_wf_packet : Instr.wf (.sysEcho {} { tenant := 31, params := [1] }) = true ∧
    Instr.wf (.sysEcho {} { tenant := 32 }) = false ∧ Instr.wf (.sysEcho {} { tenant := 0, seq := 0x10000 }) = false ∧
    Instr.wf (.sysEcho {} { tenant := 0, version := 16 }) = false ∧
    Instr.wf (.sysEcho {} { tenant := 0, notBefore := 2 ^ 48 }) = false ∧
    Instr.wf (.sysEcho {} { tenant := 0, params := List.replicate 1021 0 }) = false := by decide +kernel

theorem test_wf_functions : Instr.wf (.forcedShutdown {} (.island 9)) = false ∧
    Instr.wf (.forcedShutdown {} (.port 14)) = false ∧ Instr.wf (.forcedShutdown {} (.can 12)) = false ∧
    Instr.wf (.forcedShutdown {} (.lin 8)) = false ∧ Instr.wf (.forcedShutdown {} (.part 8)) = false ∧
    Instr.wf (.gateListSwitch {} (.port 16)) = false ∧ Instr.wf (.gateListSwitch {} (.stream 32)) = false := by decide

theorem test_wf_frames : Instr.wf (.carriageFrameReceived {} { port := 14, src := 0, bytes := [] }) = false ∧
    Instr.wf (.carriageFrameReceived {} { port := 0, src := 2 ^ 48, bytes := [] }) = false ∧
    Instr.wf (.frameReceived {} [{ port := 14, frame := anEth }]) = false ∧
    Instr.wf (.frameReceived {} [{ port := 0, frame := { anEth with dst := 2 ^ 48 } }]) = false ∧
    Instr.wf (.frameReceived {} [{ port := 0, frame := { anEth with src := 2 ^ 48 } }]) = false ∧
    Instr.wf (.frameReceived {} [{ port := 0, frame := { anEth with etype := 2 ^ 16 } }]) = false ∧
    Instr.wf (.frameReceived {} [{ port := 0, frame := { anEth with vlan := some (2 ^ 16) } }]) = false ∧
    Instr.wf (.frameReceived {} [{ port := 0, frame := { anEth with rtag := some (2 ^ 16) } }]) = false := by decide

theorem test_wf_bus_frames : Instr.wf (.canFrameReceived {} 12 { id := 5 } 0) = false ∧
    Instr.wf (.canFrameReceived {} 0 { id := 2 ^ 11 } 0) = false ∧
    Instr.wf (.canFrameReceived {} 0 { id := 2 ^ 29, ext := true } 0) = false ∧
    Instr.wf (.canFrameReceived {} 0 { id := 5, fmt := 3 } 0) = false ∧
    (CanFrame.wf { id := 5, fmt := 2, data := List.replicate 2049 0 }) = false ∧
    Instr.wf (.acfPduReceived {} { port := 16, streamId := 0, seqNum := 0, msgs := [] }) = false ∧
    Instr.wf (.acfPduReceived {} { port := 0, streamId := 2 ^ 64, seqNum := 0, msgs := [] }) = false ∧
    Instr.wf (.acfPduReceived {} { port := 0, streamId := 0, seqNum := 256, msgs := [] }) = false := by decide +kernel

theorem test_wf_ring_messages : Instr.wf (.ringMessageReceived {} 14 aMsg) = false ∧
    Instr.wf (.ringMessageReceived {} 0 { aMsg with src := 256 }) = false ∧
    Instr.wf (.ringMessageReceived {} 0 { aMsg with kind := 8 }) = false ∧
    Instr.wf (.ringMessageReceived {} 0 { aMsg with dst := 256 }) = false ∧
    Instr.wf (.ringMessageReceived {} 0 { aMsg with round := 256 }) = false := by decide

theorem test_wf_numbers : Instr.wf (.slewStart {} 0x58) = false ∧ Instr.wf (.slewStart {} 0x40) = true ∧
    Instr.wf (.doorbell {} 0 32 0 0) = false ∧ Instr.wf (.doorbell {} 0 0 6 0) = false ∧
    Instr.wf (.registerWrite {} 0 (2 ^ 40) 32 0) = false ∧ Instr.wf (.pointerCheck {} 0 0 true 8192 0) = false ∧
    Instr.wf (.pointerCheck {} 0 0 true 0 8192) = false ∧ Instr.wf (.viResetComplete {} 3 0) = false ∧
    Instr.wf (.viResetComplete {} 0 256) = false ∧ Instr.wf (.clockLoss {} 9) = false ∧
    Instr.wf (.feedLoss {} 2) = false ∧ Instr.wf (.fieldOutputLimit {} 16) = false ∧
    Instr.wf (.debounceExpiry {} 48) = false ∧ Instr.wf (.sequenceTrigger {} 16) = false ∧
    Instr.wf (.triggerFiring {} 32) = false ∧ Instr.wf (.linkUp {} 16) = false ∧
    Instr.wf (.fdbAgeing {} (2 ^ 48) 0) = false ∧ Instr.wf (.fdbAgeing {} 0 4096) = false ∧
    Instr.wf (.recoveryReset {} 512) = false ∧ Instr.wf (.messageRamWrite {} 0 0 0x10000 0) = false ∧
    Instr.wf (.lastWordRead {} 0 0 128) = false ∧ Instr.wf (.linSlotStart {} 8) = false ∧
    Instr.wf (.acfPduSend {} 64) = false ∧ Instr.wf (.partitionStart {} 8) = false ∧
    Instr.wf (.debugHaltRequest {} { hart := 8 }) = false ∧ Instr.wf (.zeroiseComplete {} 7) = false ∧
    Instr.wf (.mbPost {} 0 64) = false ∧ Instr.wf (.installComplete {} 4) = false ∧
    Instr.wf (.relayStart {} 256) = false ∧ Instr.wf (.tellerPairRejoin {} 4) = false ∧
    Instr.wf (.start {} 4) = false ∧ Instr.wf (.lhPinChange {} 0 6 true) = false ∧
    Instr.wf (.syncReceived {} 2 0 0 0) = false ∧ Instr.wf (.syncReceived {} 0 0 0 12) = false ∧
    Instr.wf (.clusterFrameReceived {} 0 32 { clreq := 0 }) = false ∧ Instr.wf (.comparatorTrip {} { pair := 4 } 0) = false ∧
    Instr.wf (.coreStorageError {} 4) = false ∧ Instr.wf (.patrolRead {} (2 ^ 40) 0) = false ∧
    Instr.wf (.patrolRead {} 0 3) = false ∧ Instr.wf (.accessRefused {} 0 0 { kind := 5 }) = false ∧
    Instr.wf (.gateReturn {} 8) = false ∧ Instr.wf (.aliveSend {} 14) = false := by decide

/-! ### Worked examples of the spec -/

/-- 02, worked exchange, step 2: the CRC of SYS_ECHO's header. -/
theorem test_hcrc : crc16 [0x22, 0x03, 0x01, 0x00, 0x15, 0x02, 0x00, 0x00, 0x00, 0x50, 0xD6, 0xDC, 0x01, 0x00] = 0x275A := by
  decide +kernel

/-- 02, worked exchange, step 5: its reply. -/
theorem test_reply : replyBytes 0 3 0x1DCD65C30 { version := 2, opcode := 1, seq := 0x215, status := .ok } =
    [0x20, 0x03, 0x01, 0x00, 0x15, 0x02, 0x00, 0x00, 0x00, 0x00, 0x30, 0x5C, 0xD6, 0xDC, 0x01, 0x00, 0xD3, 0x30, 0x00, 0x00] := by
  decide +kernel

/-- A packet of T0 with these parameters. -/
def rq (ps : List Word) : Req := { tenant := 0, params := ps }

/-- A packet of a tenant. -/
def rqOf (t : Nat) (ps : List Word) : Req := { tenant := t, params := ps }

/-- A unit whose two copies of the identity disagree. -/
def badFuses : State := { State.reset with ident := { State.reset.ident with bad := true } }

/-- A parameter block of channel 0x40 with PWM, TRIP 10 A, IDECL 5 A. -/
def blkB : List Word :=
  let b : List Word := [0x30000340, 0x006403E8, 0x000A000A, 0x01F40064, 0x00320384, 0, 0]
  b ++ [wd (crc16 (wordBytes b))]

/-- T0 has a PURSE share, and channel 0x40 is as given. -/
def withChan (c : Chan) : State :=
  let s := State.reset
  (s.setTenant 0 { s.tenant 0 with purse := 1000 }).setChn 0x40 c

/-- A configured channel in a state. -/
def chanB (st : ChState) : Chan := { block := some blkB, st := st, duty := 500, retryLeft := 3 }

/-- A wire block of channel 0x40: code 4, TAU 40 s, DTMAX 50 K. -/
def wireB : List Word := wireDefaultBlock 0x40

/-- A policy block of channel 0x40: HOLD for 1 s, then ON at 50 %. -/
def polB : List Word :=
  let b : List Word := [0x01000640, 0x01F403E8]
  b ++ [wd (crc16 (wordBytes b))]

/-- An input block of field input 3 with DEBOUNCE 10 µs. -/
def fiB : List Word :=
  let b : List Word := [0x00000003, 10]
  b ++ [wd (crc16 (wordBytes b))]

/-- An output block of field output 0 without PWM, 10 ms open-load time. -/
def foB : List Word :=
  let b : List Byte := wordBytes [0x00000040] ++ [10, 0]
  [0x00000040, wd (10 + crc16 b * 2 ^ 16)]

/-- Field output 0 as given. -/
def withFo (x : FieldOut) : State := State.reset.setFout 0 x

/-- A sequence of one entry on software trigger, and one on Tally trigger 0. -/
def seqW : List Word := [0, 1, 5, 0x3FFF0000]
def seqT : List Word := [0x10000, 1, 5, 0x3FFF0000]

/-- Sequence 0 with the words of seqW but for what is given. -/
def withSeq (x : MeaSeq) : State := State.reset.setSeqn 0 { x with conf := x.conf <|> some seqW }

/-- A trigger block of trigger 0: no action, one firing at 1 ms. -/
def trgB : List Word :=
  let b : List Word := [0, 1000000, 0, 0, 0]
  b ++ [wd (crc16 (wordBytes b))]

/-- Trigger 0 as given. -/
def withTrg (x : Trigger) : State := State.reset.setTrg 0 x

/-- Instance 0 takes time on port 2, whose link is up. -/
def withSlave : State :=
  let s := State.reset.setInst 0 { roles := 0x20 }
  s.setSp 2 { s.sp 2 with link := true }

/-- CAN controller 0 is a time master with a FUP to send. -/
def withRef : State := State.reset.setRef 0 { en := true, ident := 0x80, fup := some (3, 9) }

/-- Port 2 is clock-gated. -/
def withPort2Gated : State := State.reset.setGate (.port 2) { st := .clockGated }

/-- Port 2 as given. -/
def withLink (x : SwPort) : State := State.reset.setSp 2 x

/-- A change set. -/
def withSet (c : ChangeSet) : State := setSet (some c) State.reset

/-- A stream context of stream 1: IDTYPE 0. -/
def stB : List Word :=
  let b : List Word := [1, 0, 0x00010000, 0, 0, 0, 0, 0, 0, 0]
  b ++ [wd (crc16 (wordBytes b ++ [0, 0]) * 2 ^ 16), 0]

/-- A committed set whose list of port 2 is due. -/
def withGcl : State :=
  let g : GateStage := { entries := [(255, 1000)], cycle := 1000, base := 0 }
  setSet (some { e := 1, tab := {}, t := some 0, switched := true, waiting := [2], lists := [(2, g)] }) State.reset

/-- Stream 0 recovers sequences and has accepted one long ago. -/
def withRec : State :=
  let s := { State.reset with clk := 100000000 }
  let s1 := { s with tsn := { s.tsn with act := { stream := [(0, [0, 0, 0x00010000, 0, 0, 0, 0, 0, 0x00020200, 1, 0, 0])] } } }
  s1.setStrm 0 { takeAny := false, lastAcc := some 0 }

/-- A configuration of CAN controller 3: 500 kbit/s, 8 receive FIFO, 2 receive and 8 transmit FIFO buffers. -/
def canB : List Word := [0x00000003, 0x01001E3F, 0, 0, 0, 0, 0x00020808, 0]

/-- CAN controller n in RUN with that configuration, else as given. -/
def withCan (n : Nat) (x : CanCtl) : State :=
  let s := State.reset.setGate (.can n) { st := .run }
  s.setCan n { x with conf := canB }

/-- LIN channel 0 is a running commander at 20 kbit/s with the table 0 of one slot and a subscribed frame 5; else as
given. -/
def withLin (x : LinCh) : State :=
  let s := State.reset.setGate (.lin 0) { st := .run }
  s.setLin 0 { x with conf := [0x100, 0x000D4E20], frames := [(5, 0x42), (6, 0x41)], sched := [(0, [0x003B0005])] }

/-- A routing entry of CAN 3 to CAN 4: every standard CBFF identifier. -/
def rtB : List Word :=
  let b : List Word := [0x80000000, 0x20000000, 0x00004003, 0, 0]
  b ++ [wd (crc16 (wordBytes b))]

/-- ACF context 0 is a talker with one message since reset; else as given. -/
def withAcf (x : AcfCtx) : State := State.reset.setAcf 0 x

/-- One frame of CAN 3 waits for the routing engine. -/
def withItem : State :=
  let i : GwItem := { kind := 0, idx := 3, at_ := 0, stamp := 0, frame := { id := 5 } }
  { State.reset with gwy := { State.reset.gwy with items := [i] } }

/-- Words of NMG_RING_CONFIG: ring 0, node 1, base 0x500, cluster frames from 0x520 with partial networking, enabled. -/
def ringB : List Word := [0x01010300, 0x500, 0x520, 0x00190064, 0x140F]

/-- Ring 0 on a CAN controller in RUN, configured by those words, in a state. -/
def withRing (st : RState) (x : Ring) : State :=
  let s := State.reset.setGate (.can 0) { st := .run }
  let s1 := s.setCan 0 { conf := canB }
  s1.setRing 0 { x with words := ringB, st := st }

/-- Ring 12 on port P12 with link, configured with RETYPE 0x8900, in a state. -/
def withRing12 (st : RState) (x : Ring) : State :=
  let s := State.reset.setSp 12 { State.reset.sp 12 with link := true }
  s.setRing 12 { x with words := [0x0101010C, 0x8900, 0, 0x00190064, 0x140F], st := st }

/-- A block of partition 0: ENTRY 0x20000000 inside one region of 64 KiB, on the seat that the low word names. -/
def partB (w0 : Word) : List Word :=
  let b : List Word := [w0, 0x20000000, 0, 0x20000, 0x07000010]
  b ++ [wd (crc16 (wordBytes b))]

/-- Partition 0 runs on pair 0, its tenant 5; pair, gate and hart as given. -/
def withPart (g : GateState) (x : Pair) (h : Hart) : State :=
  let s := State.reset.setPart 0 { block := some (partB 0x01000000), force := some (partB 0x01000000) }
  let s1 := (s.setGate (.part 0) { st := g }).setPair 0 x
  s1.setHart 0 h

/-- Partition 0 runs on the quad of pairs 0 and 1, in these roles. -/
def withQuad (a b : Role) : State :=
  let s := (State.reset.setPart 0 { block := some (partB 0x01000100), force := some (partB 0x01000100) }).setGate (.part 0) { st := .run }
  (s.setPair 0 { role := a, part := 0 }).setPair 1 { role := b, part := 0 }

/-- The life-cycle state SERVICE. -/
def inService (s : State) : State := { s with ident := { s.ident with lc := .service } }

/-- The Vault runs; its state else as reset but for what is given. -/
def withVault (s : State) : State := { s with vlt := { s.vlt with mode := .running } }

/-- Hart 0 is in a gate call of FUNC f by T0, with ALG 1 and OUT of 32 bytes at 0x20000000. -/
def withCall (f : Nat) : State :=
  let g : Shadow := { x := [(10, 1), (12, 0x2000000000000000), (13, 0x2000)], f := [], fcsr := 0, pc := 0, func := f,
                      tenant := some 0, since := 0 }
  withVault (withPart .run { role := .single, part := 0 } { run := true, gate := some g })

/-- Slot 0 of the mailbox belongs to partition 0 and is as given. -/
def withSlot (x : MbSlot) : State := withVault (State.reset.setSlot 0 { x with part := some 0 })

/-- A unit in the life-cycle state BLANK, with a zero serial number and a nonce for a debug session. -/
def blankUnit : State :=
  { State.reset with
    ident := { State.reset.ident with lc := .blank, primary := List.replicate 64 0 }
    vlt := { State.reset.vlt with debugNonce := some (List.replicate 16 0, 0) } }

/-- VLT_HASH of T0 in execution: SHA-256 of nothing, 32 bytes out. -/
def callCmd : Cmd :=
  { id := 7, tenant := 0, seq := 0, opcode := 0x4811, version := 2, notify := true, params := [1, 0, 0, 0, 0, 0, 0x2000] ++ List.replicate 9 0 }

/-- Slot 50 serves it. -/
def withCallCmd : State :=
  let s := withVault (State.reset.setSlot 50 { st := .running, func := 0x11, call := callCmd.params, cmd := some 7 })
  { s with inflight := [callCmd], vlt := { s.vlt with serving := some (50, 0) } }

/-- Strongbox with a formatted device, a charged bank of 1 mF at 36 V, and volume 1 of 8 pages granted to T0; groups and
operations as given. -/
def withSto (groups : Tbl (Option StoGroup)) (jobs : List StoJob) : State :=
  let s := State.reset.setTenant 0 { State.reset.tenant 0 with vols := 2 }
  s.setSto { s.sto with
    started := true, formatted := true, good := 100, perBlock := 64, spare := 7, charged := true, c := 1000, v := 36000
    vol := [(1, { size := 8 })], groups := groups, jobs := jobs }

/-- Strongbox with page 2 of volume 1 mapped. -/
def withPage : State := (withSto [] []).setVol 1 { size := 8, pages := [(2, [1])] }

/-- A commit of command 7 on volume 1 with pages yet to program, and one with none. -/
def jobC (left : Nat) : StoJob := { cmd := some 7, vol := 1, kind := .commit [(0, some [1])] left 480 none }

/-- A device of one LUN. -/
def lunW : NandLun :=
  { onfi := true, crc := true, cells := 1, page := 4096, spare := 304, pages := 64, blocks := 100, sdr := 63, ddr2 := 0 }

/-- A read of page 2 of volume 1 for command 7. -/
def jobR : StoJob := { cmd := some 7, vol := 1, kind := .read 2 [1, 2, 3, 4] none }

/-- One Ledger record is retained and its checkpoint is due. -/
def withRec0 : State :=
  let s := withVault State.reset
  let r : LedRec := { rseq := 0, time := 0, epoch := 0, rcode := 0x51F0 }
  { s with led := { s.led with ring := [r], next := 1, cpDue := [r], cps := [(0, [1])] } }

/-- Strongbox as above with a staging volume, one transfer and component 0x40 as given. -/
def withImg (x : Option ImgXfer) (c : ImgComp) : State :=
  let s := withSto [] []
  { s with img := { s.img with staging := some 1, xfer := [(0, x)], comp := [(0x40, c)] } }

/-- A relay of component 0x40 that waits for its start, or is as given. -/
def withRelay (r : ImgRelay) : State := { State.reset with img := { State.reset.img with relay := [r] } }

/-- An audit or check of a kind with blocks left. -/
def withAudit (kind : Nat) (left : List Nat) : State := auditStart kind left none State.reset

/-- A descriptor of tenant 5, remote, with six queues of 64 slots from page 0x800 on. -/
def tenB : List Word :=
  [0x00000105, 0x0000FFFF, 0x00666666, 0x08010800, 0x08030802, 0x08050804, 0x01010204, 0, 0, 0, 0, 0, 0, 0, 0, 0]

/-- Tenant 5 exists with an association, in a state. -/
def withTen (st : TenState) : State :=
  let s := tenMake (descBytes tenB) State.reset
  s.setTenant 5 { s.tenant 5 with st := st, vnic := 2, vcan := 2, assoc := some { port := 2, mac := 7, rxsc := 3 } }

/-- Tenant 5 holds the virtual CAN endpoint 3, as given. -/
def withVi (v : Vi) : State := (withTen .live).setVi 1 3 (some v)

/-- SYS_ECHO of T0 without words, as sixteen header bytes. -/
def echoHdr : List Byte :=
  let b : List Byte := bytesOf 1 0x20 ++ [0] ++ bytesOf 2 1 ++ bytesOf 2 9 ++ bytesOf 2 0 ++ List.replicate 6 0
  b ++ bytesOf 2 (crc16 b)

/-- SQ3 of T0 holds that packet. -/
def withItem0 : State :=
  State.reset.addSlots 0 3 (mkSlots 0 (itemSlots echoHdr))

/-- Port 2 has a link, else as given; one stored frame of 100 bytes from port 3, both cells written, has the destinations
given. -/
def withFrame (x : SwPort) (ds : List (Nat × Nat)) : State :=
  let s := State.reset.setSp 2 { x with link := true }
  let f : Stored := { id := 4, frame := { dst := 6, src := 2, etype := 0x800, payload := List.replicate 82 0 }, pcp := 0, vid := 0
                      len := 100, cells := 2, stamp := 0, iport := 3, dests := ds, refs := 1, lanes := [0, 1], lastSlot := 1 }
  { s with net := { s.net with frames := [f] } }

/-- Its frame. -/
def frame4 : Stored := ((withFrame {} []).stored? 4).getD { id := 0, frame := { dst := 0, src := 0, etype := 0 }, vid := 0, pcp := 0, len := 0, cells := 0, refs := 0, stamp := 0, iport := 0 }

/-- Partition 0 of T0 runs, and instance 3 of a kind belongs to T0, or T0 transfers 16 bytes. -/
def withInst (kind idx : Nat) (v : Vi) : State := (State.reset.setPart 0 { block := some (partB 0x01000000), force := some (partB 0x01000000) }).setVi kind idx (some v)
def xferD : Fetched := { entry := [0, 16, 0x20000100, 0, 0x20000200, 0, 9, 0], live := true }

theorem witness_FrontCommandRuns : State.reset.pending = [] := rfl

theorem witness_EveryStepKeepsMemory : Safe State.reset ∧ step State.reset = .next State.reset := ⟨rfl, rfl⟩

theorem witness_IdentityNeverChanges : step State.reset = .next State.reset := rfl

/-- A command of T0 that asks for no reply. -/
def quietCmd : Cmd := { id := 7, tenant := 0, seq := 1, opcode := 2, version := 2, notify := false }

theorem witness_OneFinalReply : ({ State.reset with inflight := [quietCmd] } : State).cmd? 7 = some quietCmd ∧
    quietCmd.notify = false ∧ quietCmd.chain = none := by decide +kernel

/-- SYS_ECHO of T0 for a Tally time, and the state at 1000 ns. -/
def echoAt (nb : Nat) (lateOk : Bool) : Req := { tenant := 0, notBefore := nb, lateOk := lateOk }
def at1000 : State := { State.reset with tim := { State.reset.tim with full := 1000 } }

/-- Its checks, with the packet's not-before time or without. -/
def echoChecks (r : Req) (nb : Nat) : Option Status :=
  checks (some sysEchoSpec) 0 { reqPkt r 1 with notBefore := nb } (enterCmd (cmdOf sysEchoSpec r at1000) at1000)

theorem witness_PacketsAreTakenInOrder : State.reset.serves 5 = false := by decide +kernel
theorem witness_PacketsAreTakenInOrder_2 :
    let s := State.reset.setTenant 0 { State.reset.tenant 0 with cmd := 0 }
    s.serves 0 = true ∧ s.slotFree 0 = false := by decide +kernel
theorem witness_PacketsAreTakenInOrder_3 : at1000.serves 0 = true ∧ at1000.slotFree 0 = true ∧
    echoChecks { tenant := 0, version := 1 } 0 = some .badOpcode := by decide +kernel
theorem witness_PacketsAreTakenInOrder_4 : at1000.serves 0 = true ∧ at1000.slotFree 0 = true ∧
    echoChecks (echoAt 0 false) 0 = none := by decide +kernel
theorem witness_PacketsAreTakenInOrder_5 : at1000.serves 0 = true ∧ at1000.slotFree 0 = true ∧
    echoChecks (echoAt 1001 false) 1001 = none ∧ 0 < diff48 1001 at1000.now := by decide +kernel
theorem witness_PacketsAreTakenInOrder_6 : at1000.serves 0 = true ∧ at1000.slotFree 0 = true ∧
    echoChecks (echoAt 1000 true) 1000 = none ∧ diff48 1000 at1000.now ≤ 0 := by decide +kernel
theorem witness_PacketsAreTakenInOrder_7 : at1000.serves 0 = true ∧ at1000.slotFree 0 = true ∧
    echoChecks (echoAt 1000 false) 0 = none ∧ (at1000.tenant 0).profile ≠ 1 ∧ diff48 1000 at1000.now ≤ 0 := by
  decide +kernel

theorem witness_EchoAnswersItsWords : Begins sysEchoSpec (rq (List.replicate 1019 5)) (State.reset.advance {}) = true := by
  decide +kernel
theorem witness_EchoAnswersItsWords_2 : (at1000.advance {}).serves 0 = true ∧ (at1000.advance {}).slotFree 0 = true ∧
    ((at1000.advance {}).tenant 0).profile ≠ 1 ∧ (List.replicate 1020 (5 : Word)).length = 1020 := by decide +kernel
theorem witness_EchoAnswersItsWords_3 : (at1000.advance {}).serves 0 = true ∧ (at1000.advance {}).slotFree 0 = true ∧
    ((at1000.advance {}).tenant 0).profile ≠ 1 ∧ 0 < diff48 1001 (at1000.advance {}).now ∧
    diff48 1000 (at1000.advance {}).now ≤ 0 := by decide +kernel

theorem witness_FullNoticeQueueDrops : (State.reset.queue 3 5).room = 0 := by decide +kernel
theorem witness_FullNoticeQueueDrops_2 : (State.reset.queue 0 5).room ≠ 0 := by decide +kernel

theorem witness_OnlyTheManagerChangesTenants : ((withTen .live).advance {}).serves 5 = true ∧
    ((withTen .live).advance {}).slotFree 5 = true ∧ ([5] : List Word).length = 1 ∧ ([5, 0] : List Word).length = 2 ∧
    ([5, 0, 0] : List Word).length = 3 ∧ tenB.length = 16 ∧
    ([5, 0, 0, 0] : List Word).length = (if bit (par [5, 0, 0, 0] 0) 16 then 19 else 4) := by decide +kernel

/-- Entries at the very end of the region of partB: 64 bytes to send, 64 to receive into, a CAN frame, a buffer. -/
def vnicEntry (kind : Nat) : List Byte :=
  bytesOf 1 kind ++ [0, 0, 0] ++ bytesOf 4 64 ++ bytesOf 8 0x2000FFC0 ++ List.replicate 16 0
def vepEntry (kind : Nat) : List Byte :=
  List.replicate 6 0 ++ bytesOf 2 8 ++ List.replicate 4 0 ++ bytesOf 4 kind ++
    bytesOf 8 (if kind = 0 then 0x2000FFF8 else 0x2000F800) ++ List.replicate 8 0
def vnicV : Vi := { owner := 0, kindWords := [0, 0, 0x00440000] }

theorem witness_RingEntriesStayInOneRegion : vnicEntryOk vnicV (vnicEntry 0) (withInst 0 3 vnicV) = true := by decide +kernel
theorem witness_RingEntriesStayInOneRegion_2 : vnicEntryOk vnicV (vnicEntry 1) (withInst 0 3 vnicV) = true := by
  decide +kernel
theorem witness_RingEntriesStayInOneRegion_3 : vepEntryOk vnicV (vepEntry 0) (withInst 1 3 vnicV) = true ∧
    le (vepEntry 0) 12 1 = 0 ∧ (hFmt (vepEntry 0)).testBit 3 = false ∧ hLen (vepEntry 0) ≠ 0 := by decide +kernel
theorem witness_RingEntriesStayInOneRegion_4 : vepEntryOk vnicV (vepEntry 1) (withInst 1 3 vnicV) = true ∧
    le (vepEntry 1) 12 1 = 1 := by decide +kernel
theorem witness_RingEntriesStayInOneRegion_5 : xferOk 0 (wordBytes xferD.entry) (withInst 2 0 vnicV) = true ∧
    le (wordBytes xferD.entry) 0 1 = 0 := by decide +kernel
theorem witness_RingEntriesStayInOneRegion_6 : State.reset.boundPart 5 = none ∧ le (vepEntry 1) 12 1 = 1 := by decide +kernel

/-- A queue of 64 slots that is full, its producer pointer wrapped. -/
def fullQ : Queue := (State.reset.queue 0 0).append (mkSlots 0 (List.replicate 64 []))

theorem witness_PointersMatchTheSlots : PointersOk fullQ ∧ fullQ.room = 0 ∧ fullQ.depth = 6 := by
  unfold PointersOk
  decide +kernel
theorem witness_PointersMatchTheSlots_2 : PointersOk (State.reset.queue 0 4) := by
  unfold PointersOk
  decide +kernel

/-- T0's partition has its region, and controller 0 is as at reset. -/
def withRegion : State := State.reset.setPart 0 { block := some (partB 0x01000000), force := some (partB 0x01000000) }

theorem witness_StoresTouchOnlyTheirBytes : (withRegion.advance {}).running 1 = true ∧ partOfReq 0x100 = some 0 ∧
    storeOk 64 = true ∧ (withRegion.advance {}).spillAt 0x2000FFF8 = none ∧ (withRegion.advance {}).spillAt 0x2000FFFF = none ∧ (withRegion.advance {}).inRegion 0 0x2000FFF8 8 1 = true ∧
    (withRegion.advance {}).vaultAddr 0x2000FFF8 = false ∧
    ((withRegion.advance {}).writeMem 0x2000FFF8 (bytesOf 8 5)).ctlHit 0x2000FFF8 8 = none := by decide +kernel
theorem witness_StoresTouchOnlyTheirBytes_2 : (State.reset.advance {}).running 5 = true ∧
    (State.reset.advance {}).boundTo 0x100 ((State.reset.advance {}).canc 0).owner = true ∧
    (((State.reset.advance {}).canc 0).bufAt 0xBFFC).bind ((State.reset.advance {}).canc 0).groupOf = none := by
  decide +kernel

theorem witness_sysEcho :
    Begins sysEchoSpec (rq [1, 2]) (arrived sysEchoSpec (rq [1, 2]) {} (State.reset)) = true ∧
      (fun _ _ => True : Req → State → Prop) (rq [1, 2]) (begun sysEchoSpec (rq [1, 2]) (arrived sysEchoSpec (rq [1,
        2]) {} (State.reset))) := by
  beta_reduce
  decide +kernel

theorem witness_sysCancel :
    Begins sysCancelSpec (rq [7]) (arrived sysCancelSpec (rq [7]) {} (State.reset)) = true ∧
      (fun _ _ => True : Req → State → Prop) (rq [7]) (begun sysCancelSpec (rq [7]) (arrived sysCancelSpec (rq [7])
        {} (State.reset))) := by
  beta_reduce
  decide +kernel

theorem witness_sysIdentity :
    Begins sysIdentitySpec (rq []) (arrived sysIdentitySpec (rq []) {} (State.reset)) = true ∧
      (fun _ b => b.ident.bad = false : Req → State → Prop) (rq []) (begun sysIdentitySpec (rq []) (arrived
        sysIdentitySpec (rq []) {} (State.reset))) := by
  beta_reduce
  decide +kernel

theorem witness_sysIdentity_2 :
    Begins sysIdentitySpec (rq []) (arrived sysIdentitySpec (rq []) {} (badFuses)) = true ∧
      (fun _ b => b.ident.bad = true : Req → State → Prop) (rq []) (begun sysIdentitySpec (rq []) (arrived
        sysIdentitySpec (rq []) {} (badFuses))) := by
  beta_reduce
  decide +kernel

theorem witness_sysLimits :
    Begins sysLimitsSpec (rq []) (arrived sysLimitsSpec (rq []) {} (State.reset)) = true ∧
      (fun _ _ => True : Req → State → Prop) (rq []) (begun sysLimitsSpec (rq []) (arrived sysLimitsSpec (rq []) {}
        (State.reset))) := by
  beta_reduce
  decide +kernel

theorem witness_sysIslandStatus :
    Begins sysIslandStatusSpec (rq []) (arrived sysIslandStatusSpec (rq []) {} (State.reset)) = true ∧
      (fun _ _ => True : Req → State → Prop) (rq []) (begun sysIslandStatusSpec (rq []) (arrived sysIslandStatusSpec
        (rq []) {} (State.reset))) := by
  beta_reduce
  decide +kernel

theorem witness_sysIslandCtl :
    Begins sysIslandCtlSpec (rq [0x200]) (arrived sysIslandCtlSpec (rq [0x200]) {} (State.reset)) = true ∧
      (fun r b => fld (par r.params 0) 1 0 = 0 ∧ (b.island (fld (par r.params 0) 15 8)).gate.st = .run ∧ (b.island
        (fld (par r.params 0) 15 8)).lossHold = false : Req → State → Prop) (rq [0x200]) (begun sysIslandCtlSpec (rq
        [0x200]) (arrived sysIslandCtlSpec (rq [0x200]) {} (State.reset))) := by
  beta_reduce
  decide +kernel

theorem witness_sysIslandCtl_2 :
    Begins sysIslandCtlSpec (rq [0x201]) (arrived sysIslandCtlSpec (rq [0x201]) {} (State.reset)) = true ∧
      (fun r b => fld (par r.params 0) 1 0 = 1 ∧ (b.island (fld (par r.params 0) 15 8)).gate.st = .run ∧ fld (par
        r.params 0) 15 8 ≠ 0 ∧ b.claimed (fld (par r.params 0) 15 8) = false : Req → State → Prop) (rq [0x201])
        (begun sysIslandCtlSpec (rq [0x201]) (arrived sysIslandCtlSpec (rq [0x201]) {} (State.reset))) := by
  beta_reduce
  decide +kernel

theorem witness_idread :
    (fun _ => True : State → Prop) ((State.reset).advance {}) := by
  beta_reduce
  decide +kernel

theorem witness_pwrConfig :
    Begins pwrConfigSpec (rq blkB) (arrived pwrConfigSpec (rq blkB) {} (withChan {})) = true ∧
      (fun r b => b.dieBusy (chDie (parCh r.params)) = false ∧ (b.chn (parCh r.params)).st.idle = true ∧ bit (par
        r.params 0) 11 = false : Req → State → Prop) (rq blkB) (begun pwrConfigSpec (rq blkB) (arrived pwrConfigSpec
        (rq blkB) {} (withChan {}))) := by
  beta_reduce
  decide +kernel

theorem witness_pwrReadConfig :
    Begins pwrReadConfigSpec (rq [0x40]) (arrived pwrReadConfigSpec (rq [0x40]) {} (withChan (chanB .off))) = true ∧
      (fun r b => (b.pdie (chDie (parCh r.params))).dead = false : Req → State → Prop) (rq [0x40]) (begun
        pwrReadConfigSpec (rq [0x40]) (arrived pwrReadConfigSpec (rq [0x40]) {} (withChan (chanB .off)))) := by
  beta_reduce
  decide +kernel

theorem witness_pwrAssign :
    Begins pwrAssignSpec (rq [0x40, 1]) (arrived pwrAssignSpec (rq [0x40, 1]) {} (withChan (chanB .off))) = true ∧
      (fun r b => b.dieBusy (chDie (parCh r.params)) = false ∧ (b.chn (parCh r.params)).st.idle = true : Req → State
        → Prop) (rq [0x40, 1]) (begun pwrAssignSpec (rq [0x40, 1]) (arrived pwrAssignSpec (rq [0x40, 1]) {}
        (withChan (chanB .off)))) := by
  beta_reduce
  decide +kernel

theorem witness_pwrSwitch :
    Begins pwrSwitchSpec (rq [0x40, 0]) (arrived pwrSwitchSpec (rq [0x40, 0]) {} (withChan (chanB .on))) = true ∧
      (fun r b => fld (par r.params 0) 10 8 = 0 ∧ b.dieBusy (chDie (parCh r.params)) = false ∧
      (b.chn (parCh r.params)).limp = false ∧ (b.chn (parCh r.params)).st = .on ∧ (b.chn (parCh r.params)).pend = none ∧
      (b.chn (parCh r.params)).second = none ∧ b.req? (parCh r.params) = none : Req → State → Prop) (rq [0x40, 0]) (begun pwrSwitchSpec (rq [0x40, 0]) (arrived pwrSwitchSpec (rq [0x40, 0]) {} (withChan (chanB .on)))) := by
  beta_reduce
  decide +kernel

theorem witness_pwrSwitch_2 :
    Begins pwrSwitchSpec (rq [0x140, 400]) (arrived pwrSwitchSpec (rq [0x140, 400]) {} (withChan (chanB .off))) =
      true ∧
      (fun r b => fld (par r.params 0) 10 8 = 1 ∧ chClass (parCh r.params) ≠ 3 ∧
      b.dieBusy (chDie (parCh r.params)) = false ∧ b.dutyBad (parCh r.params) (fld (par r.params 1) 9 0) = false ∧
      b.chOut (parCh r.params) = false ∧ b.pur.queue = [] ∧
      (let c := b.chn (parCh r.params)
       c.st = .off ∧ c.limp = false ∧ b.hot (parCh r.params) = false ∧ c.pend = none ∧ c.second = none ∧ c.storedBad = false) ∧
      fits { ch := parCh r.params, kind := .turnOn, at_ := b.clk, duty := fld (par r.params 1) 9 0, action := 1 } b = .yes : Req → State → Prop) (rq [0x140, 400]) (begun pwrSwitchSpec (rq [0x140, 400]) (arrived pwrSwitchSpec (rq [0x140, 400]) {} (withChan (chanB .off)))) := by
  beta_reduce
  decide +kernel

theorem witness_pwrDuty :
    Begins pwrDutySpec (rq [0x40, 400]) (arrived pwrDutySpec (rq [0x40, 400]) {} (withChan (chanB .on))) = true ∧
      (fun r b => b.dieBusy (chDie (parCh r.params)) = false ∧ b.dutyBad (parCh r.params) (fld (par r.params 1) 9 0) = false ∧
      b.req? (parCh r.params) = none ∧
      (let c := b.chn (parCh r.params)
       c.limp = false ∧ c.st.isOn = true ∧ c.pwmEn = true ∧ fld (par r.params 1) 9 0 ≤ c.bookedDuty) : Req → State → Prop) (rq [0x40, 400]) (begun pwrDutySpec (rq [0x40, 400]) (arrived pwrDutySpec (rq [0x40, 400]) {} (withChan (chanB .on)))) := by
  beta_reduce
  decide +kernel

theorem witness_pwrClear :
    Begins pwrClearSpec (rq [0x40]) (arrived pwrClearSpec (rq [0x40]) {} (withChan (chanB .latched))) = true ∧
      (fun r b => b.dieBusy (chDie (parCh r.params)) = false ∧ b.req? (parCh r.params) = none ∧
      (let c := b.chn (parCh r.params)
       c.limp = false ∧ c.st = .latched ∧ b.hot (parCh r.params) = false ∧ c.wireLatch = false ∧ c.pend = none ∧ c.block.isSome = true) : Req → State → Prop) (rq [0x40]) (begun pwrClearSpec (rq [0x40]) (arrived pwrClearSpec (rq [0x40]) {} (withChan (chanB .latched)))) := by
  beta_reduce
  decide +kernel

theorem witness_pwrStatus :
    Begins pwrStatusSpec (rq [0x40]) (arrived pwrStatusSpec (rq [0x40]) {} (withChan (chanB .on))) = true ∧
      (fun r b => (b.pdie (chDie (parCh r.params))).dead = false : Req → State → Prop) (rq [0x40]) (begun
        pwrStatusSpec (rq [0x40]) (arrived pwrStatusSpec (rq [0x40]) {} (withChan (chanB .on)))) := by
  beta_reduce
  decide +kernel

theorem witness_slewStart :
    (fun (ch : Nat) => (fun u => chValid ch = true ∧ u.hot ch = false ∧ (u.chn ch).pend.any (fun p => p.kind !=
      .retry && p.cmd.isNone && u.deadOk ch p.action) = true : State → Prop)) 0x40 ((withChan
      { chanB .off with pend := some { kind := .feedReturn, duty := 500, action := 1 } }).advance {}) := by
  beta_reduce
  decide +kernel

theorem witness_turnOnSlewEnd :
    (fun (ch : Nat) => (fun u => (u.chn ch).st = .slewOn : State → Prop)) 0x40 ((withChan
      { chanB .slewOn with winOpen := true }).advance {}) := by
  beta_reduce
  decide +kernel

theorem witness_turnOffSlewEnd :
    (fun (ch : Nat) => (fun u => (u.chn ch).st = .slewOff : State → Prop)) 0x40 ((withChan (chanB .slewOff)).advance
      {}) := by
  beta_reduce
  decide +kernel

theorem witness_inrushWindowEnd :
    (fun (ch : Nat) => (fun u => (u.chn ch).winOpen = true ∧ (u.chn ch).winEnd ≤ u.clk ∧ (u.chn ch).st = .inrush ∧
      (u.chn ch).pend = none : State → Prop)) 0x40 ((withChan { chanB .inrush with winOpen := true }).advance {}) :=
      by
  beta_reduce
  decide +kernel

theorem witness_retryDue :
    (fun (ch : Nat) => (fun u => (u.chn ch).st = .retryWait ∧ u.hot ch = false ∧ (u.chn ch).asked = false ∧ (u.chn ch).pend = none ∧
      (u.chn ch).tripAt + (u.chn ch).retryInt * 1000000 ≤ u.clk : State → Prop)) 0x40 (({ withChan (chanB .retryWait) with clk := 10000000 }).advance {}) := by
  beta_reduce
  decide +kernel

theorem witness_onStableReload :
    (fun (ch : Nat) => (fun u => (u.chn ch).st = .on ∧ (u.chn ch).limp = false ∧ (u.chn ch).onSince + 1000000000 ≤
      u.clk : State → Prop)) 0x40 (({ withChan (chanB .on) with clk := 1000000000 }).advance {}) := by
  beta_reduce
  decide +kernel

theorem witness_openLoadCount :
    (fun (ch : Nat) (below : Bool) => (fun u => (u.chn ch).st = .on ∧ (u.chn ch).limp = false ∧ (u.chn ch).olth ≠ 0 ∧
      10000000 ≤ (if below then (u.chn ch).meter.low else (u.chn ch).meter.high) : State → Prop)) 0x40 true ((withChan { chanB .on with meter := { low := 10000000 } }).advance {}) := by
  beta_reduce
  decide +kernel

theorem witness_offStateCycle :
    (fun (ch : Nat) (aboveIpu aboveNone : Bool) => (fun u => u.offCycles ch (u.chn ch) = true ∧ 2000000 ≤ (u.chn ch).meter.off ∧
      (u.chn ch).meter.cyc + 10000000 ≤ u.clk : State → Prop)) 0x40 true false (({ withChan { chanB .off with meter := { off := 2000000 } } with clk := 10000000 }).advance {}) := by
  beta_reduce
  decide +kernel

theorem witness_pwmPeriodBoundary :
    (fun (ch : Nat) (d : Nat) => (fun u => (u.chn ch).st.isOn = true ∧ (u.chn ch).pwmEn = true ∧ (u.chn ch).limp = false ∧ (u.chn ch).atBoundary u.clk = true ∧
      (u.chn ch).shift u.clk = 0 ∧ (u.chn ch).dutyNext = some d ∧ (u.chn ch).dutyDown = true ∧ 0 < d ∧ 0 < (u.chn ch).duty : State → Prop)) 0x40 100 (({ withChan { chanB .on with dutyNext := some 100, dutyDown := true } with clk := 10000000 }).advance {}) := by
  beta_reduce
  decide +kernel

theorem witness_pwmPeriodBoundary_2 :
    (fun (ch : Nat) (d : Nat) => (fun u => (u.chn ch).st.isOn = true ∧ (u.chn ch).pwmEn = true ∧ (u.chn ch).limp = false ∧ (u.chn ch).atBoundary u.clk = true ∧
      (u.chn ch).shift u.clk = 0 ∧ (u.chn ch).dutyNext = some d ∧ (u.chn ch).dutyDown = false ∧ 0 < d ∧ 0 < (u.chn ch).duty : State → Prop)) 0x40 600 (({ withChan { chanB .on with dutyNext := some 600 } with clk := 10000000 }).advance {}) := by
  beta_reduce
  decide +kernel

theorem witness_thermalLatchRelease :
    (fun (sw : SwitchRef) => (fun u => switchOk sw.ch sw.low = true ∧ (u.chn sw.ch).latchOf sw.low = true : State →
      Prop)) ({ ch := 0x40 }) ((withChan { chanB .off with tlatch := true }).advance {}) := by
  beta_reduce
  decide +kernel

theorem witness_wireLatchRelease :
    (fun (ch : Nat) => (fun u => (u.chn ch).wireLatch = true ∧ (u.thetaNow ch).thetaHalf ch = true : State → Prop))
      0x40 ((withChan { chanB .latched with wireLatch := true, theta := 10 }).advance {}) := by
  beta_reduce
  decide +kernel

theorem witness_overcurrentTrip :
    (fun (ch : Nat) => (fun u => chValid ch = true ∧ u.tripTakes ch = true ∧ (u.chn ch).ocDue = true : State →
      Prop)) 0x40 ((withChan { chanB .on with meter := { oc := 100000000 } }).advance {}) := by
  beta_reduce
  decide +kernel

theorem witness_shortCircuitTrip :
    (fun (ch : Nat) => (fun u => chValid ch = true ∧ u.tripTakes (u.bridgeOf ch) = true : State → Prop)) 0x40
      ((withChan (chanB .slewOff)).advance {}) := by
  beta_reduce
  decide +kernel

theorem witness_thermalLatchSet :
    (fun (sw : SwitchRef) => (fun u => switchOk sw.ch sw.low = true ∧ (u.chn sw.ch).latchOf sw.low = false ∧
      u.tripTakes (u.bridgeOf sw.ch) = true : State → Prop)) ({ ch := 0x40 }) ((withChan (chanB .on)).advance {}) :=
      by
  beta_reduce
  decide +kernel

theorem witness_wireTrip :
    (fun (ch : Nat) => (fun u => chValid ch = true ∧ (u.chn ch).wireLatch = false ∧ (u.thetaNow ch).thetaMax ch =
      true : State → Prop)) 0x40 ((withChan { chanB .on with theta := 50 }).advance {}) := by
  beta_reduce
  decide +kernel

theorem witness_reverseCurrent :
    (fun (ch : Nat)
    (present : Bool) => (fun u => chValid ch = true ∧ (u.chn ch).st = .off ∧ (u.chn ch).wentOff u.clk = false ∧
      (if present then (u.chn ch).revDue u.clk = true else 10000000 ≤ (u.chn ch).meter.clear) : State → Prop)) 0x40 true ((withChan { chanB .off with meter := { vrev := 100000 } }).advance {}) := by
  beta_reduce
  decide +kernel

theorem witness_driverFault :
    (fun (ch : Nat) => (fun _ => chValid ch = true : State → Prop)) 0x40 ((withChan (chanB .off)).advance {}) := by
  beta_reduce
  decide +kernel

theorem witness_blockCheck :
    (fun (ch : Nat) (wire : Bool) (found : List Word) => (fun u => chValid ch = true ∧ wire = false ∧ (u.chn ch).block.isSome = true ∧
      blockCheckOk (wordsOf 8 (wordBytes found)) = false ∧ (u.chn ch).st = .off : State → Prop)) 0x40 false ([1]) ((withChan (chanB .off)).advance {}) := by
  beta_reduce
  decide +kernel

theorem witness_feedLoss :
    (fun (die : Nat) => (fun u => die < 2 ∧ (u.pdie die).feedLoss = false ∧ 20000 ≤ (u.pdie die).feedLow : State →
      Prop)) 1 ((State.reset.setPdie 1 { feedLow := 20000 }).advance {}) := by
  beta_reduce
  decide +kernel

theorem witness_feedReturn :
    (fun (die : Nat) => (fun u => die < 2 ∧ (u.pdie die).feedLoss = true ∧ 1000000 ≤ (u.pdie die).feedHigh : State →
      Prop)) 1 ((State.reset.setPdie 1 { feedLoss := true, feedHigh := 1000000 }).advance {}) := by
  beta_reduce
  decide +kernel

theorem witness_purWire :
    Begins purWireSpec (rq wireB) (arrived purWireSpec (rq wireB) {} (withChan {})) = true ∧
      (fun r b => b.dieBusy (chDie (parCh r.params)) = false ∧ (b.chn (parCh r.params)).st.idle = true : Req → State
        → Prop) (rq wireB) (begun purWireSpec (rq wireB) (arrived purWireSpec (rq wireB) {} (withChan {}))) := by
  beta_reduce
  decide +kernel

theorem witness_purReadWire :
    Begins purReadWireSpec (rq [0x40]) (arrived purReadWireSpec (rq [0x40]) {} (State.reset)) = true ∧
      (fun r b => (b.pdie (chDie (parCh r.params))).dead = false : Req → State → Prop) (rq [0x40]) (begun
        purReadWireSpec (rq [0x40]) (arrived purReadWireSpec (rq [0x40]) {} (State.reset))) := by
  beta_reduce
  decide +kernel

theorem witness_purStatus :
    Begins purStatusSpec (rq []) (arrived purStatusSpec (rq []) {} (State.reset)) = true ∧
      (fun _ _ => True : Req → State → Prop) (rq []) (begun purStatusSpec (rq []) (arrived purStatusSpec (rq []) {}
        (State.reset))) := by
  beta_reduce
  decide +kernel

theorem witness_purChannel :
    Begins purChannelSpec (rq [0x40]) (arrived purChannelSpec (rq [0x40]) {} (State.reset)) = true ∧
      (fun r b => (b.pdie (chDie (parCh r.params))).dead = false : Req → State → Prop) (rq [0x40]) (begun
        purChannelSpec (rq [0x40]) (arrived purChannelSpec (rq [0x40]) {} (State.reset))) := by
  beta_reduce
  decide +kernel

theorem witness_purLimits :
    Begins purLimitsSpec (rq [0x2EE02EE0, 0x4650, 0x07080708, 0x8CA08CA0]) (arrived purLimitsSpec (rq [0x2EE02EE0,
      0x4650, 0x07080708, 0x8CA08CA0]) {} (State.reset)) = true ∧
      (fun _ _ => True : Req → State → Prop) (rq [0x2EE02EE0, 0x4650, 0x07080708, 0x8CA08CA0]) (begun purLimitsSpec
        (rq [0x2EE02EE0, 0x4650, 0x07080708, 0x8CA08CA0]) (arrived purLimitsSpec (rq [0x2EE02EE0, 0x4650,
        0x07080708, 0x8CA08CA0]) {} (State.reset))) := by
  beta_reduce
  decide +kernel

theorem witness_purseEvaluation :
    (fun _ => True : State → Prop) ((State.reset).advance {}) := by
  beta_reduce
  decide +kernel

theorem witness_feedBlocked :
    (fun (die : Nat) => (fun u => die < 2 ∧ u.pur.queue.any (fun r => chDie r.ch == die && decide (50000000 ≤ u.clk
      - r.at_) && fits r u == .wait) = true : State → Prop)) 0
      (({ withChan (chanB .off) with clk := 60000000, pur := { flostA := true, queue := [{ ch := 0x40, kind := .turnOn, at_ := 0, duty := 100, action := 1 }] } }).advance
      {}) := by
  beta_reduce
  decide +kernel

theorem witness_overdrawWindowEnd :
    (fun (ch n : Nat) (w : Int × Nat) (ws : List (Int × Nat)) => (fun u => n = 1 ∧ chValid ch = true ∧ (u.chn ch).meter.done = w :: ws ∧ (u.chn ch).drawn = false ∧
      ((u.chn ch).icont * 50 + 400) * (w.2 : Int) < 4 * w.1 : State → Prop)) 0x40 1 ((1010, 10)) ([]) ((withChan { chanB .on with meter := { done := [(1010, 10)] } }).advance {}) := by
  beta_reduce
  decide +kernel

theorem witness_overdrawWindowEnd_2 :
    (fun (ch n : Nat) (w : Int × Nat) (ws : List (Int × Nat)) => (fun u => n = 1 ∧ chValid ch = true ∧ (u.chn
      ch).meter.done = w :: ws ∧ w.1 ≤ (u.chn ch).icont * 10 * (w.2 : Int) : State → Prop)) 0x40 1 ((0, 10)) ([])
      ((withChan { chanB .on with meter := { done := [(0, 10)] } }).advance {}) := by
  beta_reduce
  decide +kernel

theorem witness_lmpPolicy :
    Begins lmpPolicySpec (rq polB) (arrived lmpPolicySpec (rq polB) {} (State.reset)) = true ∧
      (fun r b => b.dieBusy (chDie (parCh r.params)) = false : Req → State → Prop) (rq polB) (begun lmpPolicySpec
        (rq polB) (arrived lmpPolicySpec (rq polB) {} (State.reset))) := by
  beta_reduce
  decide +kernel

theorem witness_lmpReclaim :
    Begins lmpReclaimSpec (rq [3]) (arrived lmpReclaimSpec (rq [3]) {} (State.reset)) = true ∧
      (fun r b => b.limpLow = false ∧ b.safeLow = false ∧ (parDies r.params).filter (fun d => (b.pdie d).yarrow) =
        [] : Req → State → Prop) (rq [3]) (begun lmpReclaimSpec (rq [3]) (arrived lmpReclaimSpec (rq [3]) {}
        (State.reset))) := by
  beta_reduce
  decide +kernel

theorem witness_lmpReclaim_2 :
    Begins lmpReclaimSpec (rq [1]) (arrived lmpReclaimSpec (rq [1]) {}
      ({ State.reset.setPdie 0 { yarrow := true } with clk := 1000000 })) = true ∧
      (fun r b => b.limpLow = false ∧ b.safeLow = false ∧ b.yar.reclaims = [] ∧
      (parDies r.params).filter (fun d => (b.pdie d).yarrow) ≠ [] ∧
      ((parDies r.params).filter (fun d => (b.pdie d).yarrow)).all (fun d => b.beats1ms d) = true : Req → State → Prop) (rq [1]) (begun lmpReclaimSpec (rq [1]) (arrived lmpReclaimSpec (rq [1]) {} ({ State.reset.setPdie 0 { yarrow := true } with clk := 1000000 }))) := by
  beta_reduce
  decide +kernel

theorem witness_lmpStatus :
    Begins lmpStatusSpec (rq []) (arrived lmpStatusSpec (rq []) {} (State.reset)) = true ∧
      (fun _ _ => True : Req → State → Prop) (rq []) (begun lmpStatusSpec (rq []) (arrived lmpStatusSpec (rq []) {}
        (State.reset))) := by
  beta_reduce
  decide +kernel

theorem witness_lmpReadPolicy :
    Begins lmpReadPolicySpec (rq [0x40]) (arrived lmpReadPolicySpec (rq [0x40]) {} (State.reset)) = true ∧
      (fun r b => (b.pdie (chDie (parCh r.params))).dead = false : Req → State → Prop) (rq [0x40]) (begun
        lmpReadPolicySpec (rq [0x40]) (arrived lmpReadPolicySpec (rq [0x40]) {} (State.reset))) := by
  beta_reduce
  decide +kernel

theorem witness_lmpEnter :
    Begins lmpEnterSpec (rq [3]) (arrived lmpEnterSpec (rq [3]) {}
      ({ State.reset with ident := { State.reset.ident with lc := .service } })) = true ∧
      (fun _ _ => True : Req → State → Prop) (rq [3]) (begun lmpEnterSpec (rq [3]) (arrived lmpEnterSpec (rq [3]) {}
        ({ State.reset with ident := { State.reset.ident with lc := .service } }))) := by
  beta_reduce
  decide +kernel

theorem witness_yarrowEntry :
    (fun (die cause : Nat) => (fun u => die < 2 ∧ cause = 4 ∧ (u.pdie die).yarrow = true ∧ (u.pdie
      die).causes.testBit 4 = true ∧ u.pow.mode = .run : State → Prop)) 0 4 ((State.reset.setPdie 0
      { yarrow := true, causes := 16 }).advance {}) := by
  beta_reduce
  decide +kernel

theorem witness_yarrowEntry_2 :
    (fun (die cause : Nat) => (fun u => die < 2 ∧ cause = 0 ∧ (u.pdie die).beating = false ∧ (u.pdie die).beatFrom +
      2000000 ≤ u.clk ∧ u.pow.mode = .run : State → Prop)) 0 0 ((({ State.reset with clk := 2000000 } :
      State).setPdie 0 { beating := false }).advance {}) := by
  beta_reduce
  decide +kernel

theorem witness_yarrowEntry_3 :
    (fun (die cause : Nat) => (fun u => die < 2 ∧ 1 ≤ cause ∧ cause ≤ 3 ∧ u.causeHolds die cause = true ∧ u.pow.mode
      = .run : State → Prop)) 0 1 (({ State.reset with yar := { logicReset := true } }).advance {}) := by
  beta_reduce
  decide +kernel

theorem witness_heartbeatLoss :
    (fun (die : Nat) => (fun u => die < 2 ∧ u.pow.mode = .run ∧ (u.pdie die).beatFrom + 2000000 ≤ u.clk : State →
      Prop)) 1 (({ State.reset with clk := 2000000 }).advance {}) := by
  beta_reduce
  decide +kernel

theorem witness_logicResetIndication :
    (fun u => u.pow.mode = .run : State → Prop) ((State.reset).advance {}) := by
  beta_reduce
  decide +kernel

theorem witness_limpNLow :
    (fun u => u.pow.mode = .run : State → Prop) ((State.reset).advance {}) := by
  beta_reduce
  decide +kernel

theorem witness_safeNLow :
    (fun u => u.pow.mode = .run : State → Prop) ((State.reset).advance {}) := by
  beta_reduce
  decide +kernel

theorem witness_safeNHigh :
    (fun u => u.yar.safeN = true : State → Prop) (({ State.reset with yar := { safeN := true } }).advance {}) := by
  beta_reduce
  decide +kernel

theorem witness_linkLostDeclared :
    (fun (die : Nat) => (fun u => die < 2 ∧ (u.pdie die).dead = false ∧ u.pow.mode = .run ∧ (u.pdie die).yarrow =
      false : State → Prop)) 0 ((State.reset).advance {}) := by
  beta_reduce
  decide +kernel

theorem witness_linkLostDeclared_2 :
    (fun (die : Nat) => (fun u => die < 2 ∧ (u.pdie die).dead = false ∧ u.pow.mode = .run ∧ (u.pdie die).yarrow = true ∧
      (u.pdie die).known = false ∧ (u.pdie die).beating = true : State → Prop)) 0 ((State.reset.setPdie 0 { yarrow := true }).advance {}) := by
  beta_reduce
  decide +kernel

theorem witness_holdExpiry :
    (fun (ch : Nat) (blk : List Word) => (fun u => chValid ch = true ∧ (u.chn ch).limp = true ∧ (u.chn ch).pol = 2 ∧ (u.chn ch).holdEnd ≤ u.clk ∧
      u.yar.reclaims = [] ∧ (u.chn ch).polBlock = some blk : State → Prop)) 0x40 polB ((withChan { limp := true, pol := 2, policy := some polB }).advance {}) := by
  beta_reduce
  decide +kernel

theorem witness_lhPinChange :
    (fun (die pin : Nat) (level : Bool) => (fun u => die < 2 ∧ pin < 6 ∧ u.pow.mode = .run ∧ (u.pdie die).lh.testBit
      pin ≠ level : State → Prop)) 0 5 true ((State.reset).advance {}) := by
  beta_reduce
  decide +kernel

theorem witness_reclaimComplete :
    (fun (r : Reclaim) (rs : List Reclaim) => (fun u => u.yar.reclaims = r :: rs : State → Prop))
      ({ cmd := 0, dies := [0], named := [0] }) ([])
      (({ State.reset with yar := { reclaims := [{ cmd := 0, dies := [0], named := [0] }] } }).advance {}) := by
  beta_reduce
  decide +kernel

theorem witness_vetchFrameError :
    (fun (die : Nat) => (fun _ => die < 2 : State → Prop)) 1 ((State.reset).advance {}) := by
  beta_reduce
  decide +kernel

theorem witness_heartbeatRestored :
    (fun (die : Nat) => (fun u => die < 2 ∧ (u.pdie die).dead = true : State → Prop)) 1 ((State.reset.setPdie 1
      { dead := true }).advance {}) := by
  beta_reduce
  decide +kernel

theorem witness_overdrawWindowEnd_3 :
    (fun (ch n : Nat) => (fun u => chValid ch = true ∧ 0 < n ∧ n ≤ (u.chn ch).meter.done.length : State → Prop))
      0x40 2 ((withChan { chanB .on with meter := { done := [(0, 10), (1010, 10)] } }).advance {}) := by
  beta_reduce
  decide +kernel

theorem witness_fioInConfig :
    Begins fioInConfigSpec (rq fiB) (arrived fioInConfigSpec (rq fiB) {} (State.reset)) = true ∧
      (fun r b => fiWB r.params = fiWB (fiBlk (b.fin (ioIdx (parIo r.params)))) ∧
      fiPeriod r.params = fiPeriod (fiBlk (b.fin (ioIdx (parIo r.params)))) : Req → State → Prop) (rq fiB) (begun fioInConfigSpec (rq fiB) (arrived fioInConfigSpec (rq fiB) {} (State.reset))) := by
  beta_reduce
  decide +kernel

theorem witness_fioReadConfig :
    Begins fioReadConfigSpec (rq [3]) (arrived fioReadConfigSpec (rq [3]) {} (State.reset)) = true ∧
      (fun r _ => ioKind (parIo r.params) = 0 : Req → State → Prop) (rq [3]) (begun fioReadConfigSpec (rq [3])
        (arrived fioReadConfigSpec (rq [3]) {} (State.reset))) := by
  beta_reduce
  decide +kernel

theorem witness_fioReadConfig_2 :
    Begins fioReadConfigSpec (rq [0x43]) (arrived fioReadConfigSpec (rq [0x43]) {} (State.reset)) = true ∧
      (fun r b => ioKind (parIo r.params) = 1 ∧ (b.fout (ioIdx (parIo r.params))).block = none : Req → State → Prop)
        (rq [0x43]) (begun fioReadConfigSpec (rq [0x43]) (arrived fioReadConfigSpec (rq [0x43]) {} (State.reset)))
        := by
  beta_reduce
  decide +kernel

theorem witness_fioAssign :
    Begins fioAssignSpec (rq [0x80, 1]) (arrived fioAssignSpec (rq [0x80, 1]) {} (State.reset)) = true ∧
      (fun r b => ioKind (parIo r.params) ≠ 1 ∨ (b.fout (ioIdx (parIo r.params))).st ≠ .on : Req → State → Prop) (rq
        [0x80, 1]) (begun fioAssignSpec (rq [0x80, 1]) (arrived fioAssignSpec (rq [0x80, 1]) {} (State.reset))) :=
        by
  beta_reduce
  decide +kernel

theorem witness_fioInState :
    Begins fioInStateSpec (rq []) (arrived fioInStateSpec (rq []) {} (State.reset)) = true ∧
      (fun _ _ => True : Req → State → Prop) (rq []) (begun fioInStateSpec (rq []) (arrived fioInStateSpec (rq [])
        {} (State.reset))) := by
  beta_reduce
  decide +kernel

theorem witness_fioEdges :
    Begins fioEdgesSpec (rq [16]) (arrived fioEdgesSpec (rq [16]) {} (State.reset)) = true ∧
      (fun r _ => bit (par r.params 0) 8 = false : Req → State → Prop) (rq [16]) (begun fioEdgesSpec (rq [16])
        (arrived fioEdgesSpec (rq [16]) {} (State.reset))) := by
  beta_reduce
  decide +kernel

theorem witness_fioOutConfig :
    Begins fioOutConfigSpec (rq foB) (arrived fioOutConfigSpec (rq foB) {} (State.reset)) = true ∧
      (fun r b => (b.fout (ioIdx (parIo r.params))).st = .unconf ∧ (b.fout (ioIdx (parIo r.params))).olon = false :
        Req → State → Prop) (rq foB) (begun fioOutConfigSpec (rq foB) (arrived fioOutConfigSpec (rq foB) {}
        (State.reset))) := by
  beta_reduce
  decide +kernel

theorem witness_fioOut :
    Begins fioOutSpec (rq [0x40, 0]) (arrived fioOutSpec (rq [0x40, 0]) {} (withFo
      { st := .on, block := some foB, duty := 1000 })) = true ∧
      (fun r b => bit (par r.params 0) 8 = false ∧ (b.fout (ioIdx (parIo r.params))).st = .on ∧
      (b.fout (ioIdx (parIo r.params))).next = none : Req → State → Prop) (rq [0x40, 0]) (begun fioOutSpec (rq [0x40, 0]) (arrived fioOutSpec (rq [0x40, 0]) {} (withFo { st := .on, block := some foB, duty := 1000 }))) := by
  beta_reduce
  decide +kernel

theorem witness_fioOut_2 :
    Begins fioOutSpec (rq [0x140, 1000]) (arrived fioOutSpec (rq [0x140, 1000]) {} (withFo
      { st := .off, block := some foB })) = true ∧
      (fun r b => bit (par r.params 0) 8 = true ∧ (b.fout (ioIdx (parIo r.params))).st = .off ∧
      (b.fout (ioIdx (parIo r.params))).tlatch = false ∧ (b.fout (ioIdx (parIo r.params))).pend = none ∧
      (b.fout (ioIdx (parIo r.params))).next = none ∧
      foDutyBad (b.fout (ioIdx (parIo r.params))) (fld (par r.params 1) 9 0) = false : Req → State → Prop) (rq [0x140, 1000]) (begun fioOutSpec (rq [0x140, 1000]) (arrived fioOutSpec (rq [0x140, 1000]) {} (withFo { st := .off, block := some foB }))) := by
  beta_reduce
  decide +kernel

theorem witness_fioOutClear :
    Begins fioOutClearSpec (rq [0x40]) (arrived fioOutClearSpec (rq [0x40]) {} (withFo { st := .latched })) = true ∧
      (fun r b => (b.fout (ioIdx (parIo r.params))).st = .latched ∧ (b.fout (ioIdx (parIo r.params))).tlatch = false
        : Req → State → Prop) (rq [0x40]) (begun fioOutClearSpec (rq [0x40]) (arrived fioOutClearSpec (rq [0x40]) {}
        (withFo { st := .latched }))) := by
  beta_reduce
  decide +kernel

theorem witness_fioOutStatus :
    Begins fioOutStatusSpec (rq [0x40]) (arrived fioOutStatusSpec (rq [0x40]) {} (State.reset)) = true ∧
      (fun _ _ => True : Req → State → Prop) (rq [0x40]) (begun fioOutStatusSpec (rq [0x40]) (arrived
        fioOutStatusSpec (rq [0x40]) {} (State.reset))) := by
  beta_reduce
  decide +kernel

theorem witness_fieldOutputSwitch :
    (fun (fo : Nat) (duty : Nat) (cmds : List Nat) => (fun u => fo < 16 ∧ (u.fout fo).st = .off ∧ (u.fout fo).pend =
      some (duty, cmds) ∧ u.bsx = true : State → Prop)) 0 1000 ([]) ((withFo
      { st := .off, block := some foB, pend := some (1000, []) }).advance {}) := by
  beta_reduce
  decide +kernel

theorem witness_fieldOutputLimit :
    (fun (fo : Nat) => (fun u => fo < 16 ∧ (u.fout fo).st = .on ∧ (u.fout fo).next = none ∧ u.bsx = true ∧
      foLimBlank (u.fout fo) * 10000 ≤ (u.fout fo).lim : State → Prop)) 0 ((withFo { st := .on, block := some foB, lim := 100000 }).advance {}) := by
  beta_reduce
  decide +kernel

theorem witness_fieldOutputThermal :
    (fun (fo : Nat) => (fun u => fo < 16 ∧ (u.fout fo).tlatch = false ∧ (u.fout fo).st = .on ∧ u.bsx = true : State
      → Prop)) 0 ((withFo { st := .on, block := some foB }).advance {}) := by
  beta_reduce
  decide +kernel

theorem witness_fieldOutputThermalRelease :
    (fun (fo : Nat) => (fun u => fo < 16 ∧ (u.fout fo).tlatch = true ∧ u.bsx = true : State → Prop)) 0 ((withFo
      { tlatch := true }).advance {}) := by
  beta_reduce
  decide +kernel

theorem witness_fieldOutputDriverFault :
    (fun (fo : Nat) => (fun u => fo < 16 ∧ (u.fout fo).st = .on ∧ (u.fout fo).next = none ∧ (u.fout fo).pend = none
      ∧ u.bsx = true : State → Prop)) 0 ((withFo { st := .on, block := some foB }).advance {}) := by
  beta_reduce
  decide +kernel

theorem witness_fieldOutputOpenLoad :
    (fun (fo : Nat) (below : Bool) => (fun u => fo < 16 ∧ (u.fout fo).st = .on ∧ foOlEn (u.fout fo) = true ∧ u.bsx = true ∧
      10000000 ≤ (if below then (u.fout fo).low else (u.fout fo).high) : State → Prop)) 0 true ((withFo { st := .on, block := some [0x240, 0], low := 10000000 }).advance {}) := by
  beta_reduce
  decide +kernel

theorem witness_rawTransition :
    (fun (fi v : Nat) => (fun u => fi < 48 ∧ v ≠ (u.fin fi).raw ∧ u.fiTakes fi v = true ∧ u.bsx = true ∧
      (u.fin fi).cand = false ∧ v ≠ (u.fin fi).level : State → Prop)) 16 1 (({ State.reset with env := [(.fiMv 16, 9000)] }).advance {}) := by
  beta_reduce
  decide +kernel

theorem witness_debounceExpiry :
    (fun (fi : Nat) => (fun u => fi < 48 ∧ u.running 5 = true ∧ (u.fin fi).cand = true ∧
      (u.fin fi).since + fiDebounce (fiBlk (u.fin fi)) * 1000 ≤ u.tim.full ∧ (u.fin fi).raw = (u.fin fi).level : State → Prop)) 16 (({ State.reset.setFin 16 { cand := true } with tim := { State.reset.tim with full := 5000000 } }).advance {}) := by
  beta_reduce
  decide +kernel

theorem witness_debounceExpiry_2 :
    (fun (fi : Nat) => (fun u => (16 ≤ fi ∧ fi < 32) ∧ u.running 5 = true ∧ (u.fin fi).cand = true ∧ fiWB (fiBlk (u.fin fi)) = false ∧
      (u.fin fi).since + fiDebounce (fiBlk (u.fin fi)) * 1000 ≤ u.tim.full ∧ (u.fin fi).raw = 1 ∧ (u.fin fi).level = 0 : State → Prop)) 16 (({ State.reset.setFin 16 { cand := true, raw := 1 } with tim := { State.reset.tim with full := 5000000 } }).advance {}) := by
  beta_reduce
  decide +kernel

theorem witness_countWindowPublish :
    (fun (fi : Nat) => (fun u => 16 ≤ fi ∧ fi < 32 ∧ u.running 5 = true ∧ fiPeriod (fiBlk (u.fin fi)) ≠ 0 ∧
      ((u.fin fi).nextWin + 1) * (fiPeriod (fiBlk (u.fin fi)) * 1000000) + fiDebounce (fiBlk (u.fin fi)) * 1000 ≤ u.tim.full : State → Prop)) 16 (({ State.reset.setFin 16 { block := some [0x10, 0x040A0001, 0] } with tim := { full := 10001000 } }).advance {}) := by
  beta_reduce
  decide +kernel

theorem witness_meaAiConfig :
    Begins meaAiConfigSpec (rq [0x10180]) (arrived meaAiConfigSpec (rq [0x10180]) {} (State.reset)) = true ∧
      (fun r b => b.servesRef (ioIdx (parIo r.params)) = false : Req → State → Prop) (rq [0x10180]) (begun
        meaAiConfigSpec (rq [0x10180]) (arrived meaAiConfigSpec (rq [0x10180]) {} (State.reset))) := by
  beta_reduce
  decide +kernel

theorem witness_meaSeqAssign :
    Begins meaSeqAssignSpec (rq [3]) (arrived meaSeqAssignSpec (rq [3]) {} (State.reset)) = true ∧
      (fun r b => (b.seqn (parSeq r.params)).armed = false : Req → State → Prop) (rq [3]) (begun meaSeqAssignSpec
        (rq [3]) (arrived meaSeqAssignSpec (rq [3]) {} (State.reset))) := by
  beta_reduce
  decide +kernel

theorem witness_meaSeqConfig :
    Begins meaSeqConfigSpec (rq seqW) (arrived meaSeqConfigSpec (rq seqW) {} (State.reset)) = true ∧
      (fun r b => (b.seqn (parSeq r.params)).armed = false : Req → State → Prop) (rq seqW) (begun meaSeqConfigSpec
        (rq seqW) (arrived meaSeqConfigSpec (rq seqW) {} (State.reset))) := by
  beta_reduce
  decide +kernel

theorem witness_meaRun :
    Begins meaRunSpec (rq [0x100]) (arrived meaRunSpec (rq [0x100]) {} (withSeq {})) = true ∧
      (fun (seq : List Word) => (fun r b => (b.seqn (parSeq r.params)).conf = some seq ∧ b.adcOut (sqAdc seq) =
        false ∧ bit (par r.params 0) 8 = true ∧ sqTsrc seq = 0 : Req → State → Prop)) seqW (rq [0x100]) (begun
        meaRunSpec (rq [0x100]) (arrived meaRunSpec (rq [0x100]) {} (withSeq {}))) := by
  beta_reduce
  decide +kernel

theorem witness_meaRun_2 :
    Begins meaRunSpec (rq [0]) (arrived meaRunSpec (rq [0]) {} (withSeq { conf := some seqT, armed := true })) =
      true ∧
      (fun (seq : List Word) => (fun r b => (b.seqn (parSeq r.params)).conf = some seq ∧ b.adcOut (sqAdc seq) =
        false ∧ bit (par r.params 0) 8 = false ∧ sqTsrc seq = 1 : Req → State → Prop)) seqT (rq [0]) (begun
        meaRunSpec (rq [0]) (arrived meaRunSpec (rq [0]) {} (withSeq { conf := some seqT, armed := true }))) := by
  beta_reduce
  decide +kernel

theorem witness_meaResults :
    Begins meaResultsSpec (rq [0x100]) (arrived meaResultsSpec (rq [0x100]) {} (withSeq { overrun := 3 })) = true ∧
      (fun r _ => bit (par r.params 0) 8 = true : Req → State → Prop) (rq [0x100]) (begun meaResultsSpec (rq
        [0x100]) (arrived meaResultsSpec (rq [0x100]) {} (withSeq { overrun := 3 }))) := by
  beta_reduce
  decide +kernel

theorem witness_meaConvert :
    Begins meaConvertSpec (rq [0x405]) (arrived meaConvertSpec (rq [0x405]) {} (State.reset)) = true ∧
      (fun _ b => (List.range 4).all b.adcOut = false ∧ b.freeAdc.isSome = true ∧ b.mea.converts = [] : Req → State
        → Prop) (rq [0x405]) (begun meaConvertSpec (rq [0x405]) (arrived meaConvertSpec (rq [0x405]) {}
        (State.reset))) := by
  beta_reduce
  decide +kernel

theorem witness_sequenceTrigger :
    (fun (seq : Nat) (b : List Word) => (fun u => seq < 16 ∧ (u.seqn seq).armed = true ∧ (u.seqn seq).fired = true ∧ (u.seqn seq).conf = some b ∧
      (u.seqn seq).running = false ∧ (u.seqn seq).waiting = false ∧ u.running 5 = true ∧ u.adcBusy (sqAdc b) = false : State → Prop)) 0 seqT ((withSeq { armed := true, conf := some seqT, fired := true }).advance {}) := by
  beta_reduce
  decide +kernel

theorem witness_sequenceRunEnd :
    (fun (seq : Nat) (codes : List Sample) => (fun u => seq < 16 ∧ (u.seqn seq).running = true ∧ u.bsx = true ∧
      u.runTill (u.seqn seq) ≤ u.clk : State → Prop)) 0 ([{ code := 5 }]) ((withSeq { running := true, conf := some seqW }).advance {}) := by
  beta_reduce
  decide +kernel

theorem witness_timNow :
    Begins timNowSpec (rq []) (arrived timNowSpec (rq []) {} (State.reset)) = true ∧
      (fun _ _ => True : Req → State → Prop) (rq []) (begun timNowSpec (rq []) (arrived timNowSpec (rq []) {}
        (State.reset))) := by
  beta_reduce
  decide +kernel

theorem witness_timStatus :
    Begins timStatusSpec (rq []) (arrived timStatusSpec (rq []) {} (State.reset)) = true ∧
      (fun _ _ => True : Req → State → Prop) (rq []) (begun timStatusSpec (rq []) (arrived timStatusSpec (rq []) {}
        (State.reset))) := by
  beta_reduce
  decide +kernel

theorem witness_timDomain :
    Begins timDomainSpec (rq [0x00010000, 0, 0]) (arrived timDomainSpec (rq [0x00010000, 0, 0]) {} (State.reset)) =
      true ∧
      (fun r _ => bit (par r.params 0) 18 = false : Req → State → Prop) (rq [0x00010000, 0, 0]) (begun timDomainSpec
        (rq [0x00010000, 0, 0]) (arrived timDomainSpec (rq [0x00010000, 0, 0]) {} (State.reset))) := by
  beta_reduce
  decide +kernel

theorem witness_timSet :
    Begins timSetSpec (rq [1, 0, 0]) (arrived timSetSpec (rq [1, 0, 0]) {} (State.reset)) = true ∧
      (fun _ b => b.workState ≠ .locked ∧ b.workState ≠ .holdover : Req → State → Prop) (rq [1, 0, 0]) (begun
        timSetSpec (rq [1, 0, 0]) (arrived timSetSpec (rq [1, 0, 0]) {} (State.reset))) := by
  beta_reduce
  decide +kernel

theorem witness_timPortlat :
    Begins timPortlatSpec (rq [1, 0x00640064]) (arrived timPortlatSpec (rq [1, 0x00640064]) {} (State.reset)) = true ∧
      (fun r _ => par r.params 0 = 1 : Req → State → Prop) (rq [1, 0x00640064]) (begun timPortlatSpec (rq [1,
        0x00640064]) (arrived timPortlatSpec (rq [1, 0x00640064]) {} (State.reset))) := by
  beta_reduce
  decide +kernel

theorem witness_timPps :
    Begins timPpsSpec (rq [2]) (arrived timPpsSpec (rq [2]) {} (State.reset)) = true ∧
      (fun r _ => bit (par r.params 0) 0 = false : Req → State → Prop) (rq [2]) (begun timPpsSpec (rq [2]) (arrived
        timPpsSpec (rq [2]) {} (State.reset))) := by
  beta_reduce
  decide +kernel

theorem witness_timPpsin :
    Begins timPpsinSpec (rq []) (arrived timPpsinSpec (rq []) {} (State.reset)) = true ∧
      (fun _ _ => True : Req → State → Prop) (rq []) (begun timPpsinSpec (rq []) (arrived timPpsinSpec (rq []) {}
        (State.reset))) := by
  beta_reduce
  decide +kernel

theorem witness_timAlarm :
    Begins timAlarmSpec (rq [1, 5, 0]) (arrived timAlarmSpec (rq [1, 5, 0]) {} (State.reset)) = true ∧
      (fun r b => par r.params 0 = 1 ∧ 0 < diff48 ((par r.params 1).toNat + (par r.params 2).toNat * 2 ^ 32) b.now :
        Req → State → Prop) (rq [1, 5, 0]) (begun timAlarmSpec (rq [1, 5, 0]) (arrived timAlarmSpec (rq [1, 5, 0])
        {} (State.reset))) := by
  beta_reduce
  decide +kernel

theorem witness_timAlarm_2 :
    Begins timAlarmSpec (rq [0, 0, 0]) (arrived timAlarmSpec (rq [0, 0, 0]) {} (State.reset)) = true ∧
      (fun r _ => par r.params 0 = 0 : Req → State → Prop) (rq [0, 0, 0]) (begun timAlarmSpec (rq [0, 0, 0])
        (arrived timAlarmSpec (rq [0, 0, 0]) {} (State.reset))) := by
  beta_reduce
  decide +kernel

theorem witness_timCanref :
    Begins timCanrefSpec (rq [0x100, 0x80]) (arrived timCanrefSpec (rq [0x100, 0x80]) {} (State.reset)) = true ∧
      (fun r b => bit (par r.params 0) 8 = true ∧ (b.canc (fld (par r.params 0) 3 0)).legacy = false : Req → State →
        Prop) (rq [0x100, 0x80]) (begun timCanrefSpec (rq [0x100, 0x80]) (arrived timCanrefSpec (rq [0x100, 0x80])
        {} (State.reset))) := by
  beta_reduce
  decide +kernel

theorem witness_timTrigAssign :
    Begins timTrigAssignSpec (rq [31]) (arrived timTrigAssignSpec (rq [31]) {} (State.reset)) = true ∧
      (fun r b => (b.trg (parTt r.params)).armed = false : Req → State → Prop) (rq [31]) (begun timTrigAssignSpec
        (rq [31]) (arrived timTrigAssignSpec (rq [31]) {} (State.reset))) := by
  beta_reduce
  decide +kernel

theorem witness_timTrigConfig :
    Begins timTrigConfigSpec (rq trgB) (arrived timTrigConfigSpec (rq trgB) {} (State.reset)) = true ∧
      (fun r b => (b.trg (parTt r.params)).armed = false : Req → State → Prop) (rq trgB) (begun timTrigConfigSpec
        (rq trgB) (arrived timTrigConfigSpec (rq trgB) {} (State.reset))) := by
  beta_reduce
  decide +kernel

theorem witness_timTrigArm :
    Begins timTrigArmSpec (rq [0x100]) (arrived timTrigArmSpec (rq [0x100]) {} (withTrg { block := some trgB })) =
      true ∧
      (fun (blk : List Word) => (fun r b => bit (par r.params 0) 8 = true ∧ (b.trg (parTt r.params)).block = some blk ∧
      (b.trg (parTt r.params)).armed = false ∧ lateFirings blk b.now = 0 : Req → State → Prop)) trgB (rq [0x100]) (begun timTrigArmSpec (rq [0x100]) (arrived timTrigArmSpec (rq [0x100]) {} (withTrg { block := some trgB }))) := by
  beta_reduce
  decide +kernel

theorem witness_timTrigArm_2 :
    Begins timTrigArmSpec (rq [0]) (arrived timTrigArmSpec (rq [0]) {} (withTrg
      { block := some trgB, armed := true })) = true ∧
      (fun r _ => bit (par r.params 0) 8 = false : Req → State → Prop) (rq [0]) (begun timTrigArmSpec (rq [0])
        (arrived timTrigArmSpec (rq [0]) {} (withTrg { block := some trgB, armed := true }))) := by
  beta_reduce
  decide +kernel

theorem witness_timTrigStatus :
    Begins timTrigStatusSpec (rq [0]) (arrived timTrigStatusSpec (rq [0]) {} (State.reset)) = true ∧
      (fun _ _ => True : Req → State → Prop) (rq [0]) (begun timTrigStatusSpec (rq [0]) (arrived timTrigStatusSpec
        (rq [0]) {} (State.reset))) := by
  beta_reduce
  decide +kernel

theorem witness_timTxqAssign :
    Begins timTxqAssignSpec (rq [11]) (arrived timTxqAssignSpec (rq [11]) {} (State.reset)) = true ∧
      (fun _ _ => True : Req → State → Prop) (rq [11]) (begun timTxqAssignSpec (rq [11]) (arrived timTxqAssignSpec
        (rq [11]) {} (State.reset))) := by
  beta_reduce
  decide +kernel

theorem witness_timTxstamps :
    Begins timTxstampsSpec (rq [0]) (arrived timTxstampsSpec (rq [0]) {} (State.reset)) = true ∧
      (fun r _ => bit (par r.params 0) 8 = false : Req → State → Prop) (rq [0]) (begun timTxstampsSpec (rq [0])
        (arrived timTxstampsSpec (rq [0]) {} (State.reset))) := by
  beta_reduce
  decide +kernel

theorem witness_syncReceived :
    (fun (inst : Nat) (offset : Int) (gm port : Nat) => (fun u => inst < 2 ∧ u.running 3 = true ∧ u.linked port =
      true ∧ (u.inst inst).takesSync port u.clk = true : State → Prop)) 0 ((5)) 7 2 ((withSlave).advance {}) := by
  beta_reduce
  decide +kernel

theorem witness_syncTimeout :
    (fun u => (u.inst 0).st ≠ .locked ∧ (u.inst 1).st = .locked ∧ (u.inst 1).lastSync + 3 * (u.inst 1).interval ≤
      u.clk : State → Prop)
      (({ State.reset.setInst 1 { domain := 1, st := .locked } with clk := 3000000000 }).advance {}) := by
  beta_reduce
  decide +kernel

theorem witness_holdoverExpiry :
    (fun u => (u.inst 0).st = .holdover ∧ (u.inst 0).since + 2000000000 ≤ u.clk ∧ (u.inst 1).st = .unsync : State →
      Prop) (({ State.reset.setInst 0 { st := .holdover } with clk := 2000000000 }).advance {}) := by
  beta_reduce
  decide +kernel

theorem witness_secondWindowEnd : ((({} : WinCount).gen, ({} : WinCount).sec) : Nat × Nat) ≠
    (State.reset.advance { dt := 1000000000 }).window := by
  decide

theorem witness_triggerFiring :
    (fun (tt : Nat) => (fun u => tt < 32 ∧ (u.trg tt).armed = true ∧ (u.trg tt).due = true ∧
      u.nextFiring (u.trg tt).aim = some tt : State → Prop)) 0 ((withTrg { block := some trgB, armed := true, due := true }).advance {}) := by
  beta_reduce
  decide +kernel

theorem witness_ppsOutPulse :
    (fun u => u.tim.ppsOut = true ∧ u.tim.ppsSec ≠ u.ppsNow : State → Prop)
      (({ State.reset with tim := { ppsOut := true, full := 1000000000 } }).advance {}) := by
  beta_reduce
  decide +kernel

theorem witness_ppsOutFall :
    (fun u => u.tim.ppsLevel = true ∧ u.tim.ppsRise + u.tim.ppsWidth * 1000000 ≤ u.clk : State → Prop)
      (({ State.reset with tim := { ppsLevel := true } }).advance {}) := by
  beta_reduce
  decide +kernel

theorem witness_ppsInEdge :
    (fun u => u.tim.ppsIn = true ∧ u.tim.ppsStamps.length < 4 ∧ u.workState ≠ .grandmaster : State → Prop)
      (({ State.reset with tim := { ppsIn := true } }).advance {}) := by
  beta_reduce
  decide +kernel

theorem witness_canrefFup :
    (fun (can : Nat) (seq t : Nat) => (fun u => can < 12 ∧ u.running 5 = true ∧ u.refOn can = true ∧ (look {}
      u.tim.canRef can).fup = some (seq, t) : State → Prop)) 0 3 9 ((withRef).advance {}) := by
  beta_reduce
  decide +kernel

theorem witness_becomesGrandmaster :
    (fun u => u.running 3 = true ∧ (u.inst u.tim.wdom).gmCap = true ∧ (u.inst u.tim.wdom).mayLead u.clk = true :
      State → Prop) (({ State.reset with tim := { td0 := { gmCap := true } } }).advance {}) := by
  beta_reduce
  decide +kernel

theorem witness_netPortConfig :
    Begins netPortConfigSpec (rq [2, 1522, 0xFAC681, 1]) (arrived netPortConfigSpec (rq [2, 1522, 0xFAC681, 1]) {}
      (withPort2Gated)) = true ∧
      (fun r b => b.portState (parPort r.params) = .clockGated : Req → State → Prop) (rq [2, 1522, 0xFAC681, 1])
        (begun netPortConfigSpec (rq [2, 1522, 0xFAC681, 1]) (arrived netPortConfigSpec (rq [2, 1522, 0xFAC681, 1])
        {} (withPort2Gated))) := by
  beta_reduce
  decide +kernel

theorem witness_netPortCtl :
    Begins netPortCtlSpec (rq [0x102]) (arrived netPortCtlSpec (rq [0x102]) {} (State.reset)) = true ∧
      (fun r b => fld (par r.params 0) 9 8 = 1 ∧ b.ringOn 12 = false ∧ b.ringOn 13 = false ∧
      (b.gate (.port (parPort r.params))).st = .run : Req → State → Prop) (rq [0x102]) (begun netPortCtlSpec (rq [0x102]) (arrived netPortCtlSpec (rq [0x102]) {} (State.reset))) := by
  beta_reduce
  decide +kernel

theorem witness_netPortCtl_2 :
    Begins netPortCtlSpec (rq [2]) (arrived netPortCtlSpec (rq [2]) {} (State.reset)) = true ∧
      (fun r b => fld (par r.params 0) 9 8 = 0 ∧ b.ringOn 12 = false ∧ b.ringOn 13 = false ∧
      (b.gate (.port (parPort r.params))).st = .run ∧ b.blkFail (39 + parPort r.params) = false : Req → State → Prop) (rq [2]) (begun netPortCtlSpec (rq [2]) (arrived netPortCtlSpec (rq [2]) {} (State.reset))) := by
  beta_reduce
  decide +kernel

theorem witness_netQueueConfig :
    Begins netQueueConfigSpec (rq [0xC0702, 5000]) (arrived netQueueConfigSpec (rq [0xC0702, 5000]) {}
      (State.reset)) = true ∧
      (fun _ _ => True : Req → State → Prop) (rq [0xC0702, 5000]) (begun netQueueConfigSpec (rq [0xC0702, 5000])
        (arrived netQueueConfigSpec (rq [0xC0702, 5000]) {} (State.reset))) := by
  beta_reduce
  decide +kernel

theorem witness_netVlan :
    Begins netVlanSpec (rq [0x10FFE, 0xC]) (arrived netVlanSpec (rq [0x10FFE, 0xC]) {} (State.reset)) = true ∧
      (fun r _ => bit (par r.params 0) 16 = true : Req → State → Prop) (rq [0x10FFE, 0xC]) (begun netVlanSpec (rq
        [0x10FFE, 0xC]) (arrived netVlanSpec (rq [0x10FFE, 0xC]) {} (State.reset))) := by
  beta_reduce
  decide +kernel

theorem witness_netEtype :
    Begins netEtypeSpec (rq [0x88B6]) (arrived netEtypeSpec (rq [0x88B6]) {} (State.reset)) = true ∧
      (fun _ _ => True : Req → State → Prop) (rq [0x88B6]) (begun netEtypeSpec (rq [0x88B6]) (arrived netEtypeSpec
        (rq [0x88B6]) {} (State.reset))) := by
  beta_reduce
  decide +kernel

theorem witness_netFdbAdd :
    Begins netFdbAddSpec (rq [0x02000001, 1, 0]) (arrived netFdbAddSpec (rq [0x02000001, 1, 0]) {} (State.reset)) =
      true ∧
      (fun r b => ((fdbDrop (parMac r.params) (parVid r.params) b).bucket (bucketOf (parMac r.params) (parVid
        r.params))).length < 4 : Req → State → Prop) (rq [0x02000001, 1, 0]) (begun netFdbAddSpec (rq [0x02000001,
        1, 0]) (arrived netFdbAddSpec (rq [0x02000001, 1, 0]) {} (State.reset))) := by
  beta_reduce
  decide +kernel

theorem witness_netFdbDel :
    Begins netFdbDelSpec (rq [1, 1, 0]) (arrived netFdbDelSpec (rq [1, 1, 0]) {}
      ({ State.reset with net := { fdb := [{ mac := 1, vid := 1, static := true }] } })) = true ∧
      (fun r b => (b.fdb? (parMac r.params) (parVid r.params)).any (·.vi) = false : Req → State → Prop) (rq [1, 1,
        0]) (begun netFdbDelSpec (rq [1, 1, 0]) (arrived netFdbDelSpec (rq [1, 1, 0]) {}
        ({ State.reset with net := { fdb := [{ mac := 1, vid := 1, static := true }] } }))) := by
  beta_reduce
  decide +kernel

theorem witness_netFdbFlush :
    Begins netFdbFlushSpec (rq [0x300]) (arrived netFdbFlushSpec (rq [0x300]) {} (State.reset)) = true ∧
      (fun _ _ => True : Req → State → Prop) (rq [0x300]) (begun netFdbFlushSpec (rq [0x300]) (arrived
        netFdbFlushSpec (rq [0x300]) {} (State.reset))) := by
  beta_reduce
  decide +kernel

theorem witness_netFdbAge :
    Begins netFdbAgeSpec (rq [10]) (arrived netFdbAgeSpec (rq [10]) {} (State.reset)) = true ∧
      (fun _ _ => True : Req → State → Prop) (rq [10]) (begun netFdbAgeSpec (rq [10]) (arrived netFdbAgeSpec (rq
        [10]) {} (State.reset))) := by
  beta_reduce
  decide +kernel

theorem witness_netFdbLookup :
    Begins netFdbLookupSpec (rq [1, 1, 0]) (arrived netFdbLookupSpec (rq [1, 1, 0]) {} (State.reset)) = true ∧
      (fun _ _ => True : Req → State → Prop) (rq [1, 1, 0]) (begun netFdbLookupSpec (rq [1, 1, 0]) (arrived
        netFdbLookupSpec (rq [1, 1, 0]) {} (State.reset))) := by
  beta_reduce
  decide +kernel

theorem witness_netPortStatus :
    Begins netPortStatusSpec (rq [15]) (arrived netPortStatusSpec (rq [15]) {} (State.reset)) = true ∧
      (fun _ _ => True : Req → State → Prop) (rq [15]) (begun netPortStatusSpec (rq [15]) (arrived netPortStatusSpec
        (rq [15]) {} (State.reset))) := by
  beta_reduce
  decide +kernel

theorem witness_netCounters :
    Begins netCountersSpec (rq [0x10F]) (arrived netCountersSpec (rq [0x10F]) {} (State.reset)) = true ∧
      (fun r _ => bit (par r.params 0) 8 = true : Req → State → Prop) (rq [0x10F]) (begun netCountersSpec (rq
        [0x10F]) (arrived netCountersSpec (rq [0x10F]) {} (State.reset))) := by
  beta_reduce
  decide +kernel

theorem witness_netBuffer :
    Begins netBufferSpec (rq []) (arrived netBufferSpec (rq []) {} (State.reset)) = true ∧
      (fun _ _ => True : Req → State → Prop) (rq []) (begun netBufferSpec (rq []) (arrived netBufferSpec (rq []) {}
        (State.reset))) := by
  beta_reduce
  decide +kernel

theorem witness_linkDown :
    (fun (port : Nat) => (fun u => port < 14 ∧ (u.sp port).link = true : State → Prop)) 2 ((withLink
      { State.reset.sp 2 with link := true, conf := [2, 0x000A05F2, 0xFAC681, 1] }).advance {}) := by
  beta_reduce
  decide +kernel

theorem witness_linkUp :
    (fun (port : Nat) => (fun u => port < 14 ∧ u.portOn port = true ∧ (u.sp port).link = false ∧ u.holdDue port =
      false : State → Prop)) 2 ((State.reset).advance {}) := by
  beta_reduce
  decide +kernel

theorem witness_holdExpire :
    (fun (port : Nat) => (fun u => port < 14 ∧ (u.sp port).holding = true ∧ (u.sp port).downAt + (u.sp port).hold *
      1000000 ≤ u.clk : State → Prop)) 2 ((withLink { State.reset.sp 2 with holding := true }).advance {}) := by
  beta_reduce
  decide +kernel

theorem witness_fdbAgeing :
    (fun (mac vid : Nat) (x : FdbEntry) => (fun u => x ∈ u.net.fdb ∧ x.mac = mac ∧ x.vid = vid ∧ x.static = false ∧
      x.at_ + u.net.fdbAge * 1000000000 ≤ u.clk : State → Prop)) 1 1 ({ mac := 1, vid := 1 })
      (({ State.reset with net := { fdb := [{ mac := 1, vid := 1 }] }, clk := 300000000000 }).advance {}) := by
  beta_reduce
  decide +kernel

theorem witness_tsnCsOpen :
    Begins tsnCsOpenSpec (rq []) (arrived tsnCsOpenSpec (rq []) {} (State.reset)) = true ∧
      (fun _ b => b.tsn.set = none : Req → State → Prop) (rq []) (begun tsnCsOpenSpec (rq []) (arrived tsnCsOpenSpec
        (rq []) {} (State.reset))) := by
  beta_reduce
  decide +kernel

theorem witness_tsnCsCommit :
    Begins tsnCsCommitSpec (rq [1, 100000, 0]) (arrived tsnCsCommitSpec (rq [1, 100000, 0]) {} (withSet
      { e := 1, tab := {} })) = true ∧
      (fun (cs : ChangeSet) => (fun r b => b.named (par r.params 0).toNat = some cs ∧ cs.t = none ∧ crossOk cs.tab b = true ∧
      (par r.params 1).toNat + (par r.params 2).toNat * 2 ^ 32 ≠ 0 ∧
      100000 ≤ diff48 ((par r.params 1).toNat + (par r.params 2).toNat * 2 ^ 32) b.now : Req → State → Prop)) ({ e := 1, tab := {} }) (rq [1, 100000, 0]) (begun tsnCsCommitSpec (rq [1, 100000, 0]) (arrived tsnCsCommitSpec (rq [1, 100000, 0]) {} (withSet { e := 1, tab := {} }))) := by
  beta_reduce
  decide +kernel

theorem witness_tsnCsAbort :
    Begins tsnCsAbortSpec (rq [1]) (arrived tsnCsAbortSpec (rq [1]) {} (withSet { e := 1, tab := {} })) = true ∧
      (fun (cs : ChangeSet) => (fun r b => b.named (par r.params 0).toNat = some cs ∧ cs.t = none : Req → State →
        Prop)) ({ e := 1, tab := {} }) (rq [1]) (begun tsnCsAbortSpec (rq [1]) (arrived tsnCsAbortSpec (rq [1]) {}
        (withSet { e := 1, tab := {} }))) := by
  beta_reduce
  decide +kernel

theorem witness_tsnStream :
    Begins tsnStreamSpec (rq stB) (arrived tsnStreamSpec (rq stB) {} (withSet { e := 1, tab := {} })) = true ∧
      (fun (cs : ChangeSet) => (fun _ b => b.tsn.set = some cs ∧ cs.t = none : Req → State → Prop))
        ({ e := 1, tab := {} }) (rq stB) (begun tsnStreamSpec (rq stB) (arrived tsnStreamSpec (rq stB) {} (withSet
        { e := 1, tab := {} }))) := by
  beta_reduce
  decide +kernel

theorem witness_tsnStreamRead :
    Begins tsnStreamReadSpec (rq [511]) (arrived tsnStreamReadSpec (rq [511]) {} (State.reset)) = true ∧
      (fun r _ => bit (par r.params 0) 16 = false : Req → State → Prop) (rq [511]) (begun tsnStreamReadSpec (rq
        [511]) (arrived tsnStreamReadSpec (rq [511]) {} (State.reset))) := by
  beta_reduce
  decide +kernel

theorem witness_tsnStreamStatus :
    Begins tsnStreamStatusSpec (rq [511]) (arrived tsnStreamStatusSpec (rq [511]) {} (State.reset)) = true ∧
      (fun _ _ => True : Req → State → Prop) (rq [511]) (begun tsnStreamStatusSpec (rq [511]) (arrived
        tsnStreamStatusSpec (rq [511]) {} (State.reset))) := by
  beta_reduce
  decide +kernel

theorem witness_tsnStreamClear :
    Begins tsnStreamClearSpec (rq [511]) (arrived tsnStreamClearSpec (rq [511]) {} (State.reset)) = true ∧
      (fun _ _ => True : Req → State → Prop) (rq [511]) (begun tsnStreamClearSpec (rq [511]) (arrived
        tsnStreamClearSpec (rq [511]) {} (State.reset))) := by
  beta_reduce
  decide +kernel

theorem witness_tsnGcl :
    Begins tsnGclSpec (rq [0x0100000F, 1000000, 0, 0, 0xFF, 1000000]) (arrived tsnGclSpec (rq [0x0100000F, 1000000,
      0, 0, 0xFF, 1000000]) {} (withSet { e := 1, tab := {} })) = true ∧
      (fun (cs : ChangeSet) => (fun r b => b.tsn.set = some cs ∧ cs.t = none ∧ bit (par r.params 0) 8 = false : Req
        → State → Prop)) ({ e := 1, tab := {} }) (rq [0x0100000F, 1000000, 0, 0, 0xFF, 1000000]) (begun tsnGclSpec
        (rq [0x0100000F, 1000000, 0, 0, 0xFF, 1000000]) (arrived tsnGclSpec (rq [0x0100000F, 1000000, 0, 0, 0xFF,
        1000000]) {} (withSet { e := 1, tab := {} }))) := by
  beta_reduce
  decide +kernel

theorem witness_tsnCbs :
    Begins tsnCbsSpec (rq [0x10002, 100]) (arrived tsnCbsSpec (rq [0x10002, 100]) {} (withSet
      { e := 1, tab := {} })) = true ∧
      (fun (cs : ChangeSet) => (fun r b => b.tsn.set = some cs ∧ cs.t = none ∧ bit (par r.params 0) 16 = true : Req
        → State → Prop)) ({ e := 1, tab := {} }) (rq [0x10002, 100]) (begun tsnCbsSpec (rq [0x10002, 100]) (arrived
        tsnCbsSpec (rq [0x10002, 100]) {} (withSet { e := 1, tab := {} }))) := by
  beta_reduce
  decide +kernel

theorem witness_tsnTxsaSelect :
    Begins tsnTxsaSelectSpec (rq [0x302]) (arrived tsnTxsaSelectSpec (rq [0x302]) {} (withSet
      { e := 1, tab := {} })) = true ∧
      (fun (cs : ChangeSet) => (fun _ b => b.tsn.set = some cs ∧ cs.t = none : Req → State → Prop))
        ({ e := 1, tab := {} }) (rq [0x302]) (begun tsnTxsaSelectSpec (rq [0x302]) (arrived tsnTxsaSelectSpec (rq
        [0x302]) {} (withSet { e := 1, tab := {} }))) := by
  beta_reduce
  decide +kernel

theorem witness_tsnPortStatus :
    Begins tsnPortStatusSpec (rq [15]) (arrived tsnPortStatusSpec (rq [15]) {} (State.reset)) = true ∧
      (fun _ _ => True : Req → State → Prop) (rq [15]) (begun tsnPortStatusSpec (rq [15]) (arrived tsnPortStatusSpec
        (rq [15]) {} (State.reset))) := by
  beta_reduce
  decide +kernel

theorem witness_tsnMacsecPort :
    Begins tsnMacsecPortSpec (rq [0x102, 0]) (arrived tsnMacsecPortSpec (rq [0x102, 0]) {} (withPort2Gated)) = true ∧
      (fun r b => b.portState (parPort r.params) = .clockGated : Req → State → Prop) (rq [0x102, 0]) (begun
        tsnMacsecPortSpec (rq [0x102, 0]) (arrived tsnMacsecPortSpec (rq [0x102, 0]) {} (withPort2Gated))) := by
  beta_reduce
  decide +kernel

theorem witness_tsnSa :
    Begins tsnSaSpec (rq ([0x01000202, 1, 0, 0, 0, 0, 0, 1, 2, 3, 4, 0, 0, 0, 0, 0, 0])) (arrived tsnSaSpec (rq
      ([0x01000202, 1, 0, 0, 0, 0, 0, 1, 2, 3, 4, 0, 0, 0, 0, 0, 0])) {} (State.reset)) = true ∧
      (fun r _ => bit (par r.params 0) 0 = false : Req → State → Prop) (rq ([0x01000202, 1, 0, 0, 0, 0, 0, 1, 2, 3,
        4, 0, 0, 0, 0, 0, 0])) (begun tsnSaSpec (rq ([0x01000202, 1, 0, 0, 0, 0, 0, 1, 2, 3, 4, 0, 0, 0, 0, 0, 0]))
        (arrived tsnSaSpec (rq ([0x01000202, 1, 0, 0, 0, 0, 0, 1, 2, 3, 4, 0, 0, 0, 0, 0, 0])) {} (State.reset))) :=
        by
  beta_reduce
  decide +kernel

theorem witness_tsnRxsc :
    Begins tsnRxscSpec (rq [0x10D3F, 1, 0, 0]) (arrived tsnRxscSpec (rq [0x10D3F, 1, 0, 0]) {} (State.reset)) = true ∧
      (fun _ _ => True : Req → State → Prop) (rq [0x10D3F, 1, 0, 0]) (begun tsnRxscSpec (rq [0x10D3F, 1, 0, 0])
        (arrived tsnRxscSpec (rq [0x10D3F, 1, 0, 0]) {} (State.reset))) := by
  beta_reduce
  decide +kernel

theorem witness_tsnMacsecStatus :
    Begins tsnMacsecStatusSpec (rq [13]) (arrived tsnMacsecStatusSpec (rq [13]) {} (State.reset)) = true ∧
      (fun _ _ => True : Req → State → Prop) (rq [13]) (begun tsnMacsecStatusSpec (rq [13]) (arrived
        tsnMacsecStatusSpec (rq [13]) {} (State.reset))) := by
  beta_reduce
  decide +kernel

theorem witness_changeSetSwitch :
    (fun (cs : ChangeSet) (t : Nat) => (fun u => u.tsn.set = some cs ∧ cs.switched = false ∧ cs.t = some t ∧ t ≤
      u.tim.full : State → Prop)) ({ e := 1, tab := {}, t := some 0 }) 0 ((withSet
      { e := 1, tab := {}, t := some 0 }).advance {}) := by
  beta_reduce
  decide +kernel

theorem witness_gateListSwitch :
    (fun (gk : GateRef) (cs : ChangeSet) (g : GateStage) (at_ : Nat) => (fun u => gateRefOk gk = true ∧ u.tsn.set =
      some cs ∧ u.listDue (gateKey gk) = some (g, at_) ∧ at_ ≤ u.tim.full ∧ g.entries ≠ [] ∧ cs.lastSwitch = none :
      State → Prop)) (.port 2) (withGcl.tsn.set.getD { e := 1, tab := {} })
      ({ entries := [(255, 1000)], cycle := 1000, base := 0 }) 0 ((withGcl).advance {}) := by
  beta_reduce
  decide +kernel

theorem witness_changeSetComplete :
    (fun (cs : ChangeSet) => (fun u => u.tsn.set = some cs ∧ cs.switched = true ∧ cs.waiting = [] : State → Prop))
      ({ e := 1, tab := {}, switched := true, t := some 0 }) ((withSet
      { e := 1, tab := {}, switched := true, t := some 0 }).advance {}) := by
  beta_reduce
  decide +kernel

theorem witness_gateEntryChange :
    (fun (gk : GateRef) => (fun u => gateRefOk gk = true ∧ (u.gcl (gateKey gk)).isSome = true : State → Prop))
      (.port 2)
      (({ State.reset with tsn := { gate := [(2, some { entries := [(255, 1000)], cycle := 1000 })] } }).advance {})
      := by
  beta_reduce
  decide +kernel

theorem witness_recoveryReset :
    (fun (sid : Nat) (a : Nat) => (fun u => sid < 512 ∧ stRec (u.ctx sid) = true ∧ (u.strm sid).takeAny = false ∧
      (u.strm sid).lastAcc = some a ∧ a + stReset (u.ctx sid) * 1000000 ≤ u.clk : State → Prop)) 0 0
      ((withRec).advance {}) := by
  beta_reduce
  decide +kernel

theorem witness_busAssign :
    Begins busAssignSpec (rq [11, 1]) (arrived busAssignSpec (rq [11, 1]) {} (State.reset)) = true ∧
      (fun r b => isCan r.params = true ∧ (b.gate (.can (busIx r.params))).st = .clockGated : Req → State → Prop)
        (rq [11, 1]) (begun busAssignSpec (rq [11, 1]) (arrived busAssignSpec (rq [11, 1]) {} (State.reset))) := by
  beta_reduce
  decide +kernel

theorem witness_busCtl :
    Begins busCtlSpec (rq [0x2003]) (arrived busCtlSpec (rq [0x2003]) {} (State.reset)) = true ∧
      (fun r b => isCan r.params = true ∧ b.ringed (busIx r.params) = false ∧ fld (par r.params 0) 9 8 = 0 ∧
      b.busFail r.params = false ∧ (b.gate (.can (busIx r.params))).st = .clockGated : Req → State → Prop) (rq [0x2003]) (begun busCtlSpec (rq [0x2003]) (arrived busCtlSpec (rq [0x2003]) {} (State.reset))) := by
  beta_reduce
  decide +kernel

theorem witness_busCtl_2 :
    Begins busCtlSpec (rq [0x103]) (arrived busCtlSpec (rq [0x103]) {} (withCan 3 {})) = true ∧
      (fun r b => isCan r.params = true ∧ b.ringed (busIx r.params) = false ∧ fld (par r.params 0) 9 8 = 1 ∧
      (b.gate (.can (busIx r.params))).st = .run : Req → State → Prop) (rq [0x103]) (begun busCtlSpec (rq [0x103]) (arrived busCtlSpec (rq [0x103]) {} (withCan 3 {}))) := by
  beta_reduce
  decide +kernel

theorem witness_busCanConfig :
    Begins busCanConfigSpec (rq canB) (arrived busCanConfigSpec (rq canB) {} (State.reset)) = true ∧
      (fun r b => b.canState (busIx r.params) = .clockGated ∧ b.refOn (busIx r.params) = false ∧ b.ringed (busIx r.params) = false ∧
      layout ((par r.params 0 &&& 0xFF00) :: r.params.tail) ≠ layout (b.canc (busIx r.params)).conf : Req → State → Prop) (rq canB) (begun busCanConfigSpec (rq canB) (arrived busCanConfigSpec (rq canB) {} (State.reset))) := by
  beta_reduce
  decide +kernel

theorem witness_busCanFilter :
    Begins busCanFilterSpec (rq [0x00017F03, 0xC0000001, 0x20000002, 0x100]) (arrived busCanFilterSpec (rq
      [0x00017F03, 0xC0000001, 0x20000002, 0x100]) {} (withCan 3 {})) = true ∧
      (fun _ _ => True : Req → State → Prop) (rq [0x00017F03, 0xC0000001, 0x20000002, 0x100]) (begun
        busCanFilterSpec (rq [0x00017F03, 0xC0000001, 0x20000002, 0x100]) (arrived busCanFilterSpec (rq [0x00017F03,
        0xC0000001, 0x20000002, 0x100]) {} (withCan 3 {}))) := by
  beta_reduce
  decide +kernel

theorem witness_busCanStatus :
    Begins busCanStatusSpec (rq [11]) (arrived busCanStatusSpec (rq [11]) {} (State.reset)) = true ∧
      (fun _ _ => True : Req → State → Prop) (rq [11]) (begun busCanStatusSpec (rq [11]) (arrived busCanStatusSpec
        (rq [11]) {} (State.reset))) := by
  beta_reduce
  decide +kernel

theorem witness_busCanTx :
    Begins busCanTxSpec (rq [0x7F03, 0x123, 0x00080000, 0, 0, 0, 0, 0x11223344, 0x55667788]) (arrived busCanTxSpec
      (rq [0x7F03, 0x123, 0x00080000, 0, 0, 0, 0, 0x11223344, 0x55667788]) {} (withCan 3 {})) = true ∧
      (fun r b => (b.canc (busIx r.params)).mode ≠ 1 ∧ fld (par r.params 0) 14 8 = 0x7F ∧
      (b.canc (busIx r.params)).txFill < (b.canc (busIx r.params)).count 2 : Req → State → Prop) (rq [0x7F03, 0x123, 0x00080000, 0, 0, 0, 0, 0x11223344, 0x55667788]) (begun busCanTxSpec (rq [0x7F03, 0x123, 0x00080000, 0, 0, 0, 0, 0x11223344, 0x55667788]) (arrived busCanTxSpec (rq [0x7F03, 0x123, 0x00080000, 0, 0, 0, 0, 0x11223344, 0x55667788]) {} (withCan 3 {}))) := by
  beta_reduce
  decide +kernel

theorem witness_busCanTx_2 :
    Begins busCanTxSpec (rq [0x1F03, 0x123, 0x00000000, 0, 0, 0, 0]) (arrived busCanTxSpec (rq [0x1F03, 0x123,
      0x00000000, 0, 0, 0, 0]) {} (withCan 3 {})) = true ∧
      (fun r b => (b.canc (busIx r.params)).mode ≠ 1 ∧ fld (par r.params 0) 14 8 ≠ 0x7F ∧
      b.reserved (busIx r.params) (fld (par r.params 0) 14 8) = false ∧
      (b.canc (busIx r.params)).pend.testBit (fld (par r.params 0) 14 8) = false : Req → State → Prop) (rq [0x1F03, 0x123, 0x00000000, 0, 0, 0, 0]) (begun busCanTxSpec (rq [0x1F03, 0x123, 0x00000000, 0, 0, 0, 0]) (arrived busCanTxSpec (rq [0x1F03, 0x123, 0x00000000, 0, 0, 0, 0]) {} (withCan 3 {}))) := by
  beta_reduce
  decide +kernel

theorem witness_busCanRx :
    Begins busCanRxSpec (rq [0x7F03]) (arrived busCanRxSpec (rq [0x7F03]) {} (withCan 3 { rxFill := 1 })) = true ∧
      (fun (buf : Nat) => (fun r b => fld (par r.params 0) 14 8 = 0x7F ∧ (b.canc (busIx r.params)).lock = none ∧
      (b.canc (busIx r.params)).rxfHead = some buf : Req → State → Prop)) 0 (rq [0x7F03]) (begun busCanRxSpec (rq [0x7F03]) (arrived busCanRxSpec (rq [0x7F03]) {} (withCan 3 { rxFill := 1 }))) := by
  beta_reduce
  decide +kernel

theorem witness_busCanTxe :
    Begins busCanTxeSpec (rq [3]) (arrived busCanTxeSpec (rq [3]) {} (withCan 3 {})) = true ∧
      (fun r _ => bit (par r.params 0) 8 = false : Req → State → Prop) (rq [3]) (begun busCanTxeSpec (rq [3])
        (arrived busCanTxeSpec (rq [3]) {} (withCan 3 {}))) := by
  beta_reduce
  decide +kernel

theorem witness_txfPut :
    (fun (who can : Nat) (value : Word) => (fun u => can < 12 ∧ u.running 5 = true ∧ u.boundTo who (u.canc can).owner = true ∧
      bit value 0 = true : State → Prop)) 0x100 3 1 ((withCan 3 {}).advance {}) := by
  beta_reduce
  decide +kernel

theorem witness_txbReq :
    (fun (who can : Nat) (value : Word) => (fun u => can < 12 ∧ u.running 5 = true ∧ u.boundTo who (u.canc
      can).owner = true : State → Prop)) 0x100 3 0x80000001 ((withCan 3 {}).advance {}) := by
  beta_reduce
  decide +kernel

theorem witness_txbCancel :
    (fun (who can : Nat) (value : Word) => (fun u => can < 12 ∧ u.running 5 = true ∧ u.boundTo who (u.canc
      can).owner = true : State → Prop)) 0x100 3 0x80000001 ((withCan 3 {}).advance {}) := by
  beta_reduce
  decide +kernel

theorem witness_txbDoneClear :
    (fun (who can : Nat) (value : Word) => (fun u => can < 12 ∧ u.running 5 = true ∧ u.boundTo who (u.canc
      can).owner = true : State → Prop)) 0x100 11 1 ((State.reset).advance {}) := by
  beta_reduce
  decide +kernel

theorem witness_flagsClear :
    (fun (who can : Nat) (value : Word) => (fun u => can < 12 ∧ u.running 5 = true ∧ u.boundTo who (u.canc can).owner = true ∧
      bit value 4 = false : State → Prop)) 0x100 11 1 ((State.reset).advance {}) := by
  beta_reduce
  decide +kernel

theorem witness_messageRamWrite :
    (fun (who can off : Nat) (value : Word) => (fun u => can < 12 ∧ u.running 5 = true ∧ u.boundTo who (u.canc can).owner = true ∧
      off < 0xC000 ∧ 0x0C00 ≤ off ∧ off % 4 = 0 ∧ ((u.canc can).bufAt off).bind (u.canc can).groupOf = none : State → Prop)) 0x100 0 0xBFFC 5 ((State.reset).advance {}) := by
  beta_reduce
  decide +kernel

theorem witness_txeHeadRead :
    (fun (who can : Nat) (t : TxEvent) (ts : List TxEvent) => (fun u => can < 12 ∧ u.running 5 = true ∧ u.boundTo who (u.canc can).owner = true ∧
      (u.canc can).txe = t :: ts : State → Prop)) 0x100 3 ({ w0 := 0, w1 := 0, w2 := 0 }) ([]) ((withCan 3 { txe := [{ w0 := 0, w1 := 0, w2 := 0 }] }).advance {}) := by
  beta_reduce
  decide +kernel

theorem witness_headerWord0Read :
    (fun (who can buf : Nat) => (fun u => can < 12 ∧ u.running 5 = true ∧ u.boundTo who (u.canc can).owner = true ∧
      buf < 128 ∧ (u.canc can).lock = none ∧ (u.canc can).unread buf = true : State → Prop)) 0x100 3 0 ((withCan 3 { rxFill := 1 }).advance {}) := by
  beta_reduce
  decide +kernel

theorem witness_lastWordRead :
    (fun (who can buf : Nat) (at_ : Nat) => (fun u => can < 12 ∧ u.running 5 = true ∧ u.boundTo who (u.canc can).owner = true ∧
      ((u.canc can).groupOf buf).isSome = true ∧ (u.canc can).lock = some (buf, at_) ∧ u.clk < at_ + 100000 : State → Prop)) 0x100 3 0 0 ((withCan 3 { rxFill := 1, lock := some (0, 0) }).advance {}) := by
  beta_reduce
  decide +kernel

theorem witness_lockExpiry :
    (fun (can : Nat) (b at_ : Nat) => (fun u => can < 12 ∧ (u.canc can).lock = some (b, at_) ∧ at_ + 100000 ≤ u.clk
      : State → Prop)) 3 0 0 (({ withCan 3 { lock := some (0, 0) } with clk := 100000 }).advance {}) := by
  beta_reduce
  decide +kernel

theorem witness_canFrameReceived :
    (fun (can : Nat) (f : CanFrame) (ago : Nat) => (fun u => frameOk f = true ∧ u.canTakes can = true : State →
      Prop)) 3 ({ id := 0x123 }) 0 ((withCan 3 {}).advance {}) := by
  beta_reduce
  decide +kernel

theorem witness_canArbitration :
    (fun (can : Nat) => (fun u => can < 12 ∧ (prepareOver can u).canIdle can = true : State → Prop)) 3 ((withCan 3
      {}).advance {}) := by
  beta_reduce
  decide +kernel

theorem witness_canTransmitOutcome :
    let s := (withCan 3 { sending := some { src := .fifo, frame := { id := 1 }, stamp := 0 } }).advance {}
    s.canUp 3 = true ∧ (s.canc 3).sending.any (fun t => !fastPhase t.frame) = true := by
  decide +kernel

theorem witness_canError :
    (fun (can lec : Nat) (tx alt : Bool) => (fun u => can < 12 ∧ u.canUp can = true ∧ 1 ≤ lec ∧ lec ≤ 7 ∧ lec ≠ 3 ∧ (u.canc can).estate ≠ 2 ∧ (u.canc can).mode ≠ 1 ∧
      ((u.canc can).errStep lec tx alt).1 ≤ 255 : State → Prop)) 3 1 true false ((withCan 3 {}).advance {}) := by
  beta_reduce
  decide +kernel

theorem witness_busOffRecovery :
    (fun (can : Nat) => (fun u => can < 12 ∧ u.canUp can = true ∧ (u.canc can).estate = 2 ∧ u.offOver can = true :
      State → Prop)) 3 (({ withCan 3 { estate := 2 } with clk := 10 ^ 12 }).advance {}) := by
  beta_reduce
  decide +kernel

theorem witness_lonePauseEnd :
    (fun (can : Nat) (t : Nat) => (fun u => can < 12 ∧ (u.canc can).lonePause = some t ∧ t + 100000000 ≤ u.clk :
      State → Prop)) 3 0 (({ withCan 3 { lonePause := some 0 } with clk := 100000000 }).advance {}) := by
  beta_reduce
  decide +kernel

theorem witness_busLinConfig :
    Begins busLinConfigSpec (rq [0x110, 0x000D4E20]) (arrived busLinConfigSpec (rq [0x110, 0x000D4E20]) {}
      (State.reset)) = true ∧
      (fun r b => (b.gate (.lin (busIx r.params))).st = .clockGated : Req → State → Prop) (rq [0x110, 0x000D4E20])
        (begun busLinConfigSpec (rq [0x110, 0x000D4E20]) (arrived busLinConfigSpec (rq [0x110, 0x000D4E20]) {}
        (State.reset))) := by
  beta_reduce
  decide +kernel

theorem witness_busLinFrames :
    Begins busLinFramesSpec (rq [0x00013F10, 0x80]) (arrived busLinFramesSpec (rq [0x00013F10, 0x80]) {}
      (State.reset)) = true ∧
      (fun r b => ((linSettle (busIx r.params) b).lin (busIx r.params)).table = 15 : Req → State → Prop) (rq
        [0x00013F10, 0x80]) (begun busLinFramesSpec (rq [0x00013F10, 0x80]) (arrived busLinFramesSpec (rq
        [0x00013F10, 0x80]) {} (State.reset))) := by
  beta_reduce
  decide +kernel

theorem witness_busLinSchedule :
    Begins busLinScheduleSpec (rq [0x00010210, 0x003B0005]) (arrived busLinScheduleSpec (rq [0x00010210,
      0x003B0005]) {} (withLin {})) = true ∧
      (fun r b =>
      let x := (linSettle (busIx r.params) b).lin (busIx r.params)
      let t := fld (par r.params 0) 11 8
      (x.table ≠ t ∨ t = 15) ∧ x.resume.any (fun y => y.1 == t) = false : Req → State → Prop) (rq [0x00010210, 0x003B0005]) (begun busLinScheduleSpec (rq [0x00010210, 0x003B0005]) (arrived busLinScheduleSpec (rq [0x00010210, 0x003B0005]) {} (withLin {}))) := by
  beta_reduce
  decide +kernel

theorem witness_busLinRun :
    Begins busLinRunSpec (rq [0x10]) (arrived busLinRunSpec (rq [0x10]) {} (withLin {})) = true ∧
      (fun r b => (b.lin (busIx r.params)).slotEnd = none : Req → State → Prop) (rq [0x10]) (begun busLinRunSpec (rq
        [0x10]) (arrived busLinRunSpec (rq [0x10]) {} (withLin {}))) := by
  beta_reduce
  decide +kernel

theorem witness_busLinRun_2 :
    Begins busLinRunSpec (rq [0x10]) (arrived busLinRunSpec (rq [0x10]) {} (withLin { slotEnd := some 5 })) = true ∧
      (fun (z : Nat) => (fun r b => (b.lin (busIx r.params)).slotEnd = some z ∧ b.clk < z : Req → State → Prop)) 5
        (rq [0x10]) (begun busLinRunSpec (rq [0x10]) (arrived busLinRunSpec (rq [0x10]) {} (withLin
        { slotEnd := some 5 }))) := by
  beta_reduce
  decide +kernel

theorem witness_busLinData :
    Begins busLinDataSpec (rq [0x610, 1, 2]) (arrived busLinDataSpec (rq [0x610, 1, 2]) {} (withLin {})) = true ∧
      (fun _ _ => True : Req → State → Prop) (rq [0x610, 1, 2]) (begun busLinDataSpec (rq [0x610, 1, 2]) (arrived
        busLinDataSpec (rq [0x610, 1, 2]) {} (withLin {}))) := by
  beta_reduce
  decide +kernel

theorem witness_busLinRead :
    Begins busLinReadSpec (rq [0x510]) (arrived busLinReadSpec (rq [0x510]) {} (withLin {})) = true ∧
      (fun _ _ => True : Req → State → Prop) (rq [0x510]) (begun busLinReadSpec (rq [0x510]) (arrived busLinReadSpec
        (rq [0x510]) {} (withLin {}))) := by
  beta_reduce
  decide +kernel

theorem witness_busLinStatus :
    Begins busLinStatusSpec (rq [0x10]) (arrived busLinStatusSpec (rq [0x10]) {} (withLin {})) = true ∧
      (fun r b => (b.lin (busIx r.params)).slotEnd = none : Req → State → Prop) (rq [0x10]) (begun busLinStatusSpec
        (rq [0x10]) (arrived busLinStatusSpec (rq [0x10]) {} (withLin {}))) := by
  beta_reduce
  decide +kernel

theorem witness_busLinSleep :
    Begins busLinSleepSpec (rq [0x10]) (arrived busLinSleepSpec (rq [0x10]) {} (withLin {})) = true ∧
      (fun r b => (b.lin (busIx r.params)).slotEnd = none ∧ (b.lin (busIx r.params)).table = 15 ∧
      (b.lin (busIx r.params)).header = none ∧ b.linStarts (busIx r.params) = true : Req → State → Prop) (rq [0x10]) (begun busLinSleepSpec (rq [0x10]) (arrived busLinSleepSpec (rq [0x10]) {} (withLin {}))) := by
  beta_reduce
  decide +kernel

theorem witness_busLinSleep_2 :
    Begins busLinSleepSpec (rq [0x10]) (arrived busLinSleepSpec (rq [0x10]) {} (withLin { table := 0 })) = true ∧
      (fun r b => (b.lin (busIx r.params)).slotEnd = none ∧ (b.lin (busIx r.params)).table ≠ 15 : Req → State →
        Prop) (rq [0x10]) (begun busLinSleepSpec (rq [0x10]) (arrived busLinSleepSpec (rq [0x10]) {} (withLin
        { table := 0 }))) := by
  beta_reduce
  decide +kernel

theorem witness_busLinWake :
    Begins busLinWakeSpec (rq [0x10]) (arrived busLinWakeSpec (rq [0x10]) {} (withLin { sleep := true })) = true ∧
      (fun r b => (b.lin (busIx r.params)).sleep = true : Req → State → Prop) (rq [0x10]) (begun busLinWakeSpec (rq
        [0x10]) (arrived busLinWakeSpec (rq [0x10]) {} (withLin { sleep := true }))) := by
  beta_reduce
  decide +kernel

theorem witness_linSlotStart :
    (fun (lin : Nat) => (fun u => lin < 8 ∧ u.linStarts lin = true ∧ (u.lin lin).commander = true ∧
      (u.lin lin).table ≠ 15 ∧ (u.lin lin).slotEnd = none ∧ (u.lin lin).sleep = false : State → Prop)) 0 ((withLin { table := 0 }).advance {}) := by
  beta_reduce
  decide +kernel

theorem witness_linHeaderReceived :
    (fun (lin id : Nat) (ok : Bool) (ago : Nat) => (fun u => lin < 8 ∧ id < 64 ∧ ok = true ∧ u.linUp lin = true ∧
      (u.lin lin).commander = false ∧ (u.lin lin).sleep = false : State → Prop)) 0 5 true 0 (((withLin {}).setLin 0 {}).advance {}) := by
  beta_reduce
  decide +kernel

theorem witness_linHeaderReceived_2 :
    (fun (lin id : Nat) (ok : Bool) (ago : Nat) => (fun u => lin < 8 ∧ id < 64 ∧ ok = false ∧ u.linUp lin = true ∧
      (u.lin lin).commander = false ∧ (u.lin lin).sleep = false : State → Prop)) 0 5 false 0 (((withLin {}).setLin 0 {}).advance {}) := by
  beta_reduce
  decide +kernel

theorem witness_linResponseEnd :
    (fun (lin status : Nat) (data : List Byte) (id stamp : Nat) => (fun u => lin < 8 ∧ u.linUp lin = true ∧ status = 2 ∧ data.length ≤ 8 ∧
      (u.lin lin).header = some (id, stamp, false) ∧ (u.lin lin).publishes id = false ∧ frDir ((u.lin lin).frame id) = 2 ∧ u.linLate lin id = false : State → Prop)) 0 2 ([1]) 5 7 ((withLin { header := some (5, 7, false) }).advance {}) := by
  beta_reduce
  decide +kernel

theorem witness_linResponderSleep :
    (fun (lin : Nat) => (fun u => lin < 8 ∧ u.linUp lin = true ∧ (u.lin lin).commander = false ∧ (u.lin lin).sleep = false ∧
      (u.lin lin).lastAct + 4000000000 ≤ u.clk : State → Prop)) 0 (({ (withLin {}).setLin 0 {} with clk := 4000000000 }).advance {}) := by
  beta_reduce
  decide +kernel

theorem witness_linWakeDetect :
    (fun (lin : Nat) => (fun u => lin < 8 ∧ (u.lin lin).sleep = true : State → Prop)) 0 ((withLin
      { sleep := true }).advance {}) := by
  beta_reduce
  decide +kernel

theorem witness_gatewayLookup :
    (fun (i : GwItem) (rest : List GwItem) => (fun u => u.alive 5 = true ∧ u.alive 3 = true ∧ takeItem u.gwy.items =
      some (i, rest) : State → Prop)) ({ kind := 0, idx := 3, at_ := 0, stamp := 0, frame := { id := 5 } }) ([])
      ((withItem).advance {}) := by
  beta_reduce
  decide +kernel

theorem witness_acfPduSend :
    (fun (ctx : Nat) => (fun u => ctx < 64 ∧ u.running 3 = true ∧ (u.acf ctx).msgs ≠ [] ∧
      (u.acf ctx).firstAt + acfWait (u.acf ctx).words ≤ u.clk : State → Prop)) 0 ((withAcf { words := [0x300, 0, 0, 0, 0x00010000, 0], msgs := [{ bytes := [1] }] }).advance {}) := by
  beta_reduce
  decide +kernel

theorem witness_acfPduReceived :
    (fun (pdu : AcfPdu) (c : Nat) => (fun u => u.running 3 = true ∧ u.listener? pdu.streamId = some c ∧
      (pdu.subtype = 0x82 ∨ pdu.subtype = 0x04) : State → Prop)) ({ port := 2, streamId := 0x0100000000000000, seqNum := 0, msgs := [] }) 0 ((withAcf { words := [0x200, 1, 0, 0, 0, 0] }).advance {}) := by
  beta_reduce
  decide +kernel

theorem witness_gwyRoute :
    Begins gwyRouteSpec (rq ([0x00010FFF] ++ rtB)) (arrived gwyRouteSpec (rq ([0x00010FFF] ++ rtB)) {}
      (State.reset)) = true ∧
      (fun _ b => b.gwy.items = [] : Req → State → Prop) (rq ([0x00010FFF] ++ rtB)) (begun gwyRouteSpec (rq
        ([0x00010FFF] ++ rtB)) (arrived gwyRouteSpec (rq ([0x00010FFF] ++ rtB)) {} (State.reset))) := by
  beta_reduce
  decide +kernel

theorem witness_gwyRouteRead :
    Begins gwyRouteReadSpec (rq [0xFFF]) (arrived gwyRouteReadSpec (rq [0xFFF]) {} (State.reset)) = true ∧
      (fun _ _ => True : Req → State → Prop) (rq [0xFFF]) (begun gwyRouteReadSpec (rq [0xFFF]) (arrived
        gwyRouteReadSpec (rq [0xFFF]) {} (State.reset))) := by
  beta_reduce
  decide +kernel

theorem witness_gwyAcf :
    Begins gwyAcfSpec (rq [0x20, 0, 0, 0, 0, 0]) (arrived gwyAcfSpec (rq [0x20, 0, 0, 0, 0, 0]) {} (State.reset)) =
      true ∧
      (fun r b => (b.acf (fld (par r.params 0) 5 0)).msgs = [] ∧ (acfListener r.params = true →
        ∀ p ∈ b.gwy.acf, p.1 ≠ fld (par r.params 0) 5 0 → acfListener p.2.words = true →
          acfStream p.2.words ≠ acfStream r.params) : Req → State → Prop) (rq [0x20, 0, 0, 0, 0, 0]) (begun gwyAcfSpec (rq [0x20, 0, 0, 0, 0, 0]) (arrived gwyAcfSpec (rq [0x20, 0, 0, 0, 0, 0]) {} (State.reset))) := by
  beta_reduce
  decide +kernel

theorem witness_gwyAcfStatus :
    Begins gwyAcfStatusSpec (rq [63]) (arrived gwyAcfStatusSpec (rq [63]) {} (State.reset)) = true ∧
      (fun _ _ => True : Req → State → Prop) (rq [63]) (begun gwyAcfStatusSpec (rq [63]) (arrived gwyAcfStatusSpec
        (rq [63]) {} (State.reset))) := by
  beta_reduce
  decide +kernel

theorem witness_gwyQueue :
    Begins gwyQueueSpec (rq [0x03E8000B]) (arrived gwyQueueSpec (rq [0x03E8000B]) {} (State.reset)) = true ∧
      (fun _ _ => True : Req → State → Prop) (rq [0x03E8000B]) (begun gwyQueueSpec (rq [0x03E8000B]) (arrived
        gwyQueueSpec (rq [0x03E8000B]) {} (State.reset))) := by
  beta_reduce
  decide +kernel

theorem witness_gwyStatus :
    Begins gwyStatusSpec (rq [11]) (arrived gwyStatusSpec (rq [11]) {} (State.reset)) = true ∧
      (fun r _ => isCan r.params = true : Req → State → Prop) (rq [11]) (begun gwyStatusSpec (rq [11]) (arrived
        gwyStatusSpec (rq [11]) {} (State.reset))) := by
  beta_reduce
  decide +kernel

theorem witness_gwyStatus_2 :
    Begins gwyStatusSpec (rq [0x17]) (arrived gwyStatusSpec (rq [0x17]) {} (State.reset)) = true ∧
      (fun r _ => isCan r.params = false : Req → State → Prop) (rq [0x17]) (begun gwyStatusSpec (rq [0x17]) (arrived
        gwyStatusSpec (rq [0x17]) {} (State.reset))) := by
  beta_reduce
  decide +kernel

theorem witness_nmgRingConfig :
    Begins nmgRingConfigSpec (rq ringB) (arrived nmgRingConfigSpec (rq ringB) {} (withCan 0 {})) = true ∧
      (fun r b => (b.ring (fld (par r.params 0) 3 0)).st = .disabled ∧ bit (par r.params 0) 8 = true ∧
      fld (par r.params 0) 3 0 < 12 ∧ (b.canc (fld (par r.params 0) 3 0)).legacy = false ∧ b.ringFail (fld (par r.params 0) 3 0) = false ∧
      b.canState (fld (par r.params 0) 3 0) = .run : Req → State → Prop) (rq ringB) (begun nmgRingConfigSpec (rq ringB) (arrived nmgRingConfigSpec (rq ringB) {} (withCan 0 {}))) := by
  beta_reduce
  decide +kernel

theorem witness_nmgRingConfig_2 :
    Begins nmgRingConfigSpec (rq [8, 0x500, 0, 0x00190064, 0x140F]) (arrived nmgRingConfigSpec (rq [8, 0x500, 0,
      0x00190064, 0x140F]) {} (State.reset)) = true ∧
      (fun r b => (b.ring (fld (par r.params 0) 3 0)).st = .disabled ∧ bit (par r.params 0) 8 = false : Req → State
        → Prop) (rq [8, 0x500, 0, 0x00190064, 0x140F]) (begun nmgRingConfigSpec (rq [8, 0x500, 0, 0x00190064,
        0x140F]) (arrived nmgRingConfigSpec (rq [8, 0x500, 0, 0x00190064, 0x140F]) {} (State.reset))) := by
  beta_reduce
  decide +kernel

theorem witness_nmgCluster :
    Begins nmgClusterSpec (rq [0x0001031F]) (arrived nmgClusterSpec (rq [0x0001031F]) {} (State.reset)) = true ∧
      (fun r _ => bit (par r.params 0) 8 = true : Req → State → Prop) (rq [0x0001031F]) (begun nmgClusterSpec (rq
        [0x0001031F]) (arrived nmgClusterSpec (rq [0x0001031F]) {} (State.reset))) := by
  beta_reduce
  decide +kernel

theorem witness_nmgRequest :
    Begins nmgRequestSpec (rq [0x3FFF, 0]) (arrived nmgRequestSpec (rq [0x3FFF, 0]) {} (State.reset)) = true ∧
      (fun _ _ => True : Req → State → Prop) (rq [0x3FFF, 0]) (begun nmgRequestSpec (rq [0x3FFF, 0]) (arrived
        nmgRequestSpec (rq [0x3FFF, 0]) {} (State.reset))) := by
  beta_reduce
  decide +kernel

theorem witness_nmgStatus :
    Begins nmgStatusSpec (rq [13]) (arrived nmgStatusSpec (rq [13]) {} (State.reset)) = true ∧
      (fun _ _ => True : Req → State → Prop) (rq [13]) (begun nmgStatusSpec (rq [13]) (arrived nmgStatusSpec (rq
        [13]) {} (State.reset))) := by
  beta_reduce
  decide +kernel

theorem witness_nmgWakeConfig :
    Begins nmgWakeConfigSpec (rq [0x0103FFFF, 0xFF]) (arrived nmgWakeConfigSpec (rq [0x0103FFFF, 0xFF]) {}
      (State.reset)) = true ∧
      (fun _ _ => True : Req → State → Prop) (rq [0x0103FFFF, 0xFF]) (begun nmgWakeConfigSpec (rq [0x0103FFFF,
        0xFF]) (arrived nmgWakeConfigSpec (rq [0x0103FFFF, 0xFF]) {} (State.reset))) := by
  beta_reduce
  decide +kernel

theorem witness_nmgWakeCause :
    Begins nmgWakeCauseSpec (rq []) (arrived nmgWakeCauseSpec (rq []) {} (State.reset)) = true ∧
      (fun _ _ => True : Req → State → Prop) (rq []) (begun nmgWakeCauseSpec (rq []) (arrived nmgWakeCauseSpec (rq
        []) {} (State.reset))) := by
  beta_reduce
  decide +kernel

theorem witness_ringMessageReceived :
    (fun (ring : Nat) (m : RingMsg) => (fun u => ring < 12 ∧ u.ringHears ring = true ∧ ringMsgOk m = true ∧
      u.ringAwake ring = true ∧ u.canTakes ring = true : State → Prop)) 0
      ({ src := 2, dst := 1, kind := 0, round := 3, consent := 4 }) ((withRing .starting { words := ringB }).advance
      {}) := by
  beta_reduce
  decide +kernel

theorem witness_ringMessageReceived_2 :
    (fun (ring : Nat) (m : RingMsg) => (fun u => 12 ≤ ring ∧ ring < 14 ∧ u.ringHears ring = true ∧ ringMsgOk m =
      true ∧ (u.ring ring).st = .starting : State → Prop)) 12
      ({ src := 2, dst := 1, kind := 0, round := 3, consent := 4 }) ((withRing12 .starting
      { words := ringB }).advance {}) := by
  beta_reduce
  decide +kernel

theorem witness_ringMessageReceived_3 :
    (fun (ring : Nat) (m : RingMsg) => (fun u => 12 ≤ ring ∧ ring < 14 ∧ u.ringHears ring = true ∧ ringMsgOk m = true ∧ m.kind < 2 ∧
      (u.ring ring).st = .prepare ∧ u.clk < (u.ring ring).enteredAt + (u.ring ring).tprep : State → Prop)) 12 ({ src := 2, dst := 1, kind := 0, round := 3, consent := 4 }) ((withRing12 .prepare { words := ringB }).advance {}) := by
  beta_reduce
  decide +kernel

theorem witness_ringSend :
    (fun (ring : Nat) (t : Turn) => (fun u => ring < 14 ∧ u.ringUp ring = true ∧ (u.ring ring).st = .ring ∧ (u.ring ring).out = none ∧
      (u.ring ring).turn = some t ∧ t.at_ + (u.ring ring).ttyp ≤ u.clk : State → Prop)) 0 (⟨0, 3, 4⟩) (({ withRing .ring { words := ringB, turn := some ⟨0, 3, 4⟩ } with clk := 100000000 }).advance {}) := by
  beta_reduce
  decide +kernel

theorem witness_ringSilence :
    (fun (ring : Nat) (a d t : Nat) => (fun u => ring < 14 ∧ u.ringUp ring = true ∧ (u.ring ring).st = .ring ∧
      (u.ring ring).last = some (a, d, t) ∧ a ≠ d ∧ d ≠ (u.ring ring).node ∧ t + (u.ring ring).tmax ≤ u.clk : State → Prop)) 0 2 3 0 (({ withRing .ring { words := ringB, last := some (2, 3, 0) } with clk := 250000000 }).advance {}) := by
  beta_reduce
  decide +kernel

theorem witness_aliveSend :
    (fun (ring : Nat) => (fun u => ring < 14 ∧ u.ringUp ring = true ∧ (u.ring ring).st = .starting ∧ (u.ring ring).out = none ∧
      u.nmg.wakeBus = none ∧ (u.ring ring).aliveAt = none : State → Prop)) 0 ((withRing .starting { words := ringB }).advance {}) := by
  beta_reduce
  decide +kernel

theorem witness_veto :
    (fun (ring : Nat) => (fun u => ring < 14 ∧ u.consent ring = true ∧ u.ringUp ring = true ∧ (u.ring ring).st = .ring ∧
      (u.ring ring).vetoDue ≠ none ∧ (u.ring ring).out = none : State → Prop)) 0 ((withRing .ring { words := ringB, vetoDue := some 0 }).advance {}) := by
  beta_reduce
  decide +kernel

theorem witness_prepareEnd :
    (fun (ring : Nat) => (fun u => ring < 14 ∧ (u.ring ring).st = .prepare ∧
      (u.ring ring).enteredAt + (u.ring ring).tprep ≤ u.clk : State → Prop)) 0 (({ withRing .prepare { words := ringB } with clk := 1500000000 }).advance {}) := by
  beta_reduce
  decide +kernel

theorem witness_releaseComplete :
    (fun (ring : Nat) => (fun u => ring < 14 ∧ (u.ring ring).st = .disengage ∧ (u.gate (ringFn ring)).st = .clockGated ∧
      (u.ring ring).wake = none : State → Prop)) 0 (((withRing .disengage { words := ringB }).setGate (.can 0) { st := .clockGated }).advance {}) := by
  beta_reduce
  decide +kernel

theorem witness_pnSleepEntry :
    (fun (ring : Nat) (t : Nat) => (fun u => ring < 8 ∧ u.ringUp ring = true ∧ (u.ring ring).out = none ∧ u.pnReady ring = true ∧
      (u.ring ring).pnSince = some t ∧ t + (u.ring ring).ttyp ≤ u.clk : State → Prop)) 0 0 (({ withRing .ring { words := ringB, members := 3, pnSince := some 0 } with clk := 100000000 }).advance {}) := by
  beta_reduce
  decide +kernel

theorem witness_clusterFrameReceived :
    (fun (ring node : Nat) (m : ClMsg) => (fun u => ring < 12 ∧ u.ringHears ring = true ∧ node < 32 ∧ (u.ring ring).st ≠ .disabled ∧ (u.ring ring).pnEn = true ∧
      u.canTakes ring = true : State → Prop)) 0 3 ({ clreq := 1 }) ((withRing .ring { words := ringB }).advance {}) := by
  beta_reduce
  decide +kernel

theorem witness_clusterFrameReceived_2 :
    (fun (ring node : Nat) (m : ClMsg) => (fun u => 12 ≤ ring ∧ ring < 14 ∧ u.ringHears ring = true ∧ node < 32 ∧ (u.ring ring).st ≠ .disabled ∧
      (u.ring ring).st ≠ .prepare : State → Prop)) 12 3 ({ clreq := 1 }) ((withRing12 .ring { words := ringB }).advance {}) := by
  beta_reduce
  decide +kernel

theorem witness_clusterFrameSend :
    (fun (ring : Nat) => (fun u => ring < 12 ∧ u.ringUp ring = true ∧ (u.ring ring).pnEn = true ∧ (u.ring ring).clOut = none ∧
      (u.ring ring).st = .ring ∧ (u.ring ring).clSent = none : State → Prop)) 0 ((withRing .ring { words := ringB }).advance {}) := by
  beta_reduce
  decide +kernel

theorem witness_clusterFrameSend_2 :
    (fun (ring : Nat) => (fun u => 12 ≤ ring ∧ ring < 14 ∧ u.ringUp ring = true ∧ (u.ring ring).clOut = none ∧
      (u.ring ring).st = .starting ∧ (u.ring ring).aliveAt ≠ none ∧ (u.ring ring).clSent = none : State → Prop)) 12 ((withRing12 .starting { words := ringB, aliveAt := some 0 }).advance {}) := by
  beta_reduce
  decide +kernel

theorem witness_pntoExpiry :
    (fun (ring : Nat) => (fun u => ring < 14 ∧ (find? u.nmg.ring ring).isSome = true : State → Prop)) 0 ((withRing
      .ring { words := ringB }).advance {}) := by
  beta_reduce
  decide +kernel

theorem witness_decoderSilence :
    (fun (can : Nat) => (fun u => can < 8 ∧ (u.ring can).decRun = true ∧ (u.ring can).decAt + 600000000 ≤ u.clk :
      State → Prop)) 0 (({ withRing .ring { words := ringB, decRun := true } with clk := 600000000 }).advance {}) :=
      by
  beta_reduce
  decide +kernel

theorem witness_cpuPartConfig :
    Begins cpuPartConfigSpec (rq (partB 0x01000000)) (arrived cpuPartConfigSpec (rq (partB 0x01000000)) {}
      (State.reset)) = true ∧
      (fun r b => b.partOff (fld (par r.params 0) 2 0) = true ∧ partRangeOk r.params = true ∧ entryOk r.params = true ∧
      (blockRegions r.params).all regionOk = true ∧ (blockRegions r.params).all (fun g => b.clearOfVault g.1 g.2.1) = true ∧
      b.seatTaken r.params = false : Req → State → Prop) (rq (partB 0x01000000)) (begun cpuPartConfigSpec (rq (partB 0x01000000)) (arrived cpuPartConfigSpec (rq (partB 0x01000000)) {} (State.reset))) := by
  beta_reduce
  decide +kernel

theorem witness_cpuPartCtl :
    Begins cpuPartCtlSpec (rq [0]) (arrived cpuPartCtlSpec (rq [0]) {} (withPart .powerGated {} {})) = true ∧
      (fun r b => fld (par r.params 0) 9 8 = 0 ∧ b.seatOk (b.blk (partIx r.params)) = true ∧
      b.partState (partIx r.params) = .powerGated : Req → State → Prop) (rq [0]) (begun cpuPartCtlSpec (rq [0]) (arrived cpuPartCtlSpec (rq [0]) {} (withPart .powerGated {} {}))) := by
  beta_reduce
  decide +kernel

theorem witness_cpuPartCtl_2 :
    Begins cpuPartCtlSpec (rq [0x200]) (arrived cpuPartCtlSpec (rq [0x200]) {} (withPart .run
      { role := .single, part := 0 } { run := true })) = true ∧
      (fun r b => (fld (par r.params 0) 9 8 = 1 ∨ fld (par r.params 0) 9 8 = 2) ∧ b.partState (partIx r.params) = .run ∧
      ∀ q ∈ seatPairs (b.blk (partIx r.params)), (b.pair q).role ≠ .resync : Req → State → Prop) (rq [0x200]) (begun cpuPartCtlSpec (rq [0x200]) (arrived cpuPartCtlSpec (rq [0x200]) {} (withPart .run { role := .single, part := 0 } { run := true }))) := by
  beta_reduce
  decide +kernel

theorem witness_cpuPartCtl_3 :
    Begins cpuPartCtlSpec (rq [0x100]) (arrived cpuPartCtlSpec (rq [0x100]) {} (withPart .clockGated {} {})) = true ∧
      (fun r b => fld (par r.params 0) 9 8 = 1 ∧ b.partState (partIx r.params) = .clockGated : Req → State → Prop)
        (rq [0x100]) (begun cpuPartCtlSpec (rq [0x100]) (arrived cpuPartCtlSpec (rq [0x100]) {} (withPart
        .clockGated {} {}))) := by
  beta_reduce
  decide +kernel

theorem witness_cpuDebug :
    Begins cpuDebugSpec (rq [0]) (arrived cpuDebugSpec (rq [0]) {} (inService (withPart .run
      { role := .single, part := 0 } { run := true }))) = true ∧
      (fun r b => bit (par r.params 0) 8 = false ∧ b.splits (pairIx r.params) = true : Req → State → Prop) (rq [0])
        (begun cpuDebugSpec (rq [0]) (arrived cpuDebugSpec (rq [0]) {} (inService (withPart .run
        { role := .single, part := 0 } { run := true })))) := by
  beta_reduce
  decide +kernel

theorem witness_cpuDebug_2 :
    Begins cpuDebugSpec (rq [0x100]) (arrived cpuDebugSpec (rq [0x100]) {} (inService (withPart .run
      { role := .split, part := 0, halted := true } {}))) = true ∧
      (fun r b => bit (par r.params 0) 8 = true ∧ (b.pair (pairIx r.params)).role = .split ∧
      (b.pair (pairIx r.params)).halted = true : Req → State → Prop) (rq [0x100]) (begun cpuDebugSpec (rq [0x100]) (arrived cpuDebugSpec (rq [0x100]) {} (inService (withPart .run { role := .split, part := 0, halted := true } {})))) := by
  beta_reduce
  decide +kernel

theorem witness_cpuResync :
    Begins cpuResyncSpec (rq [1]) (arrived cpuResyncSpec (rq [1]) {} (withQuad .alone .stopped)) = true ∧
      (fun r b => (b.pair (pairIx r.params)).role = .stopped ∧ (b.pair (partner (pairIx r.params))).role = .alone ∧
      (b.pair (partner (pairIx r.params))).part = (b.pair (pairIx r.params)).part : Req → State → Prop) (rq [1]) (begun cpuResyncSpec (rq [1]) (arrived cpuResyncSpec (rq [1]) {} (withQuad .alone .stopped))) := by
  beta_reduce
  decide +kernel

theorem witness_cpuInject :
    Begins cpuInjectSpec (rq [0]) (arrived cpuInjectSpec (rq [0]) {} (inService (withPart .run
      { role := .single, part := 0 } { run := true }))) = true ∧
      (fun r b => (b.pair (pairIx r.params)).role ≠ .idle ∧ (b.pair (pairIx r.params)).role ≠ .split ∧
      (b.pair (pairIx r.params)).role ≠ .stopped : Req → State → Prop) (rq [0]) (begun cpuInjectSpec (rq [0]) (arrived cpuInjectSpec (rq [0]) {} (inService (withPart .run { role := .single, part := 0 } { run := true })))) := by
  beta_reduce
  decide +kernel

theorem witness_cpuPartStatus :
    Begins cpuPartStatusSpec (rq [7]) (arrived cpuPartStatusSpec (rq [7]) {} (State.reset)) = true ∧
      (fun _ _ => True : Req → State → Prop) (rq [7]) (begun cpuPartStatusSpec (rq [7]) (arrived cpuPartStatusSpec
        (rq [7]) {} (State.reset))) := by
  beta_reduce
  decide +kernel

theorem witness_cpuPairStatus :
    Begins cpuPairStatusSpec (rq []) (arrived cpuPairStatusSpec (rq []) {} (State.reset)) = true ∧
      (fun _ _ => True : Req → State → Prop) (rq []) (begun cpuPairStatusSpec (rq []) (arrived cpuPairStatusSpec (rq
        []) {} (State.reset))) := by
  beta_reduce
  decide +kernel

theorem witness_cpuMemStatus :
    Begins cpuMemStatusSpec (rq [0x100]) (arrived cpuMemStatusSpec (rq [0x100]) {} (State.reset)) = true ∧
      (fun _ _ => True : Req → State → Prop) (rq [0x100]) (begun cpuMemStatusSpec (rq [0x100]) (arrived
        cpuMemStatusSpec (rq [0x100]) {} (State.reset))) := by
  beta_reduce
  decide +kernel

theorem witness_partitionStart :
    (fun (p : Nat) => (fun u => p < 8 ∧ u.confd p = true ∧ u.running 0 = true ∧ u.partState p = .starting ∧
      u.seatOk (u.blk p) = true ∧ u.seatTested (u.blk p) = false : State → Prop)) 0 ((withPart .starting {} {}).advance {}) := by
  beta_reduce
  decide +kernel

theorem witness_comparatorTrip :
    (fun (trip : TripRef) (cause : Nat) => (fun u => trip.pair < 4 ∧ u.running 0 = true ∧ (cause = 1 ∨ cause = 2 ∨ cause = 3) ∧ trip.both = false ∧
      (u.pair trip.pair).role = .single ∧ u.partState (u.pair trip.pair).part = .run : State → Prop)) ({ pair := 0 }) 1 ((withPart .run { role := .single, part := 0 } { run := true }).advance {}) := by
  beta_reduce
  decide +kernel

theorem witness_comparatorTrip_2 :
    (fun (trip : TripRef) (cause : Nat) => (fun u => trip.pair < 4 ∧ u.running 0 = true ∧ (cause = 1 ∨ cause = 2 ∨ cause = 3) ∧ trip.both = false ∧
      (u.pair trip.pair).role = .primary ∧ u.partState (u.pair trip.pair).part = .run ∧
      (u.pair (partner trip.pair)).role = .spare ∧ (u.pair (partner trip.pair)).part = (u.pair trip.pair).part : State → Prop)) ({ pair := 0 }) 2 ((withQuad .primary .spare).advance {}) := by
  beta_reduce
  decide +kernel

theorem witness_comparatorTrip_3 :
    (fun (trip : TripRef) (cause : Nat) => (fun u => trip.pair < 4 ∧ u.running 0 = true ∧ (cause = 1 ∨ cause = 2 ∨ cause = 3) ∧ trip.both = true ∧
      (u.pair trip.pair).role = .primary ∧ u.partState (u.pair trip.pair).part = .run ∧
      (u.pair (partner trip.pair)).role = .spare : State → Prop)) ({ pair := 0, both := true }) 2 ((withQuad .primary .spare).advance {}) := by
  beta_reduce
  decide +kernel

theorem witness_injectedMismatchTest :
    (fun (pair : Nat) (pass : Bool) => (fun u => u.tested pair = true : State → Prop)) 0 false ((withQuad .primary
      .spare).advance {}) := by
  beta_reduce
  decide +kernel

theorem witness_stateSignatureSweep :
    (fun (pair : Nat) (equal : Bool) => (fun u => u.tested pair = true : State → Prop)) 0 false ((withQuad .primary
      .spare).advance {}) := by
  beta_reduce
  decide +kernel

theorem witness_resyncHandover :
    (fun (pair cause : Nat) => (fun u => pair < 4 ∧ u.running 0 = true ∧ (u.pair pair).role = .resync ∧ cause = 0 :
      State → Prop)) 1 0 ((withQuad .alone .resync).advance {}) := by
  beta_reduce
  decide +kernel

theorem witness_resyncHandover_2 :
    (fun (pair cause : Nat) => (fun u => pair < 4 ∧ u.running 0 = true ∧ (u.pair pair).role = .resync ∧ 1 ≤ cause ∧
      cause ≤ 4 : State → Prop)) 1 3 ((withQuad .alone .resync).advance {}) := by
  beta_reduce
  decide +kernel

theorem witness_coreStorageError :
    (fun (pc : Nat) (p : Nat) => (fun u => pc < 4 ∧ u.partOfHart (4 + pc) = some p ∧ u.partState p = .run : State →
      Prop)) 2 0 (((State.reset.setPart 0 { block := some (partB 0x01004200) }).setGate (.part 0)
      { st := .run }).advance {}) := by
  beta_reduce
  decide +kernel

theorem witness_debugHaltRequest :
    (fun (req : DebugReq) (sc : Nat) => (fun u => 4 ≤ req.hart ∧ req.hart < 8 ∧ req.go = false ∧ u.running 0 = true ∧ u.vlt.session = some sc ∧ sc.testBit 0 = true ∧
      (u.hart req.hart).gate = none : State → Prop)) ({ hart := 4 }) 1 (({ State.reset with vlt := { State.reset.vlt with session := some 1 } }).advance {}) := by
  beta_reduce
  decide +kernel

theorem witness_debugHaltRequest_2 :
    (fun (req : DebugReq) (sc : Nat) => (fun u => req.hart < 4 ∧ req.go = false ∧ u.running 0 = true ∧ u.vlt.session = some sc ∧ sc.testBit 0 = true ∧
      (u.hart (u.debugHart req.hart)).gate = none ∧ u.splits req.hart = true : State → Prop)) ({ hart := 0 }) 1 (({ withPart .run { role := .single, part := 0 } { run := true } with vlt := { State.reset.vlt with session := some 1 } }).advance {}) := by
  beta_reduce
  decide +kernel

theorem witness_patrolRead :
    (fun (addr kind : Nat) (m : Nat) => (fun u => u.running 1 = true ∧ memIndex addr = some m ∧ m < 16 ∧ kind = 1 :
      State → Prop)) 0x20000000 1 0 ((State.reset).advance {}) := by
  beta_reduce
  decide +kernel

theorem witness_patrolRead_2 :
    (fun (addr kind : Nat) (m : Nat) => (fun u => u.running 1 = true ∧ memIndex addr = some m ∧ m < 16 ∧ kind = 2 :
      State → Prop)) 0x20000000 2 0 ((State.reset).advance {}) := by
  beta_reduce
  decide +kernel

theorem witness_uncorrectableRead :
    (fun (who addr : Nat) (m : Nat) => (fun u => who < 8 ∧ memIndex (aliasAddr who addr) = some m ∧ u.hartRuns who =
      true : State → Prop)) 0 0x20000000 0 ((withPart .run {} { run := true }).advance {}) := by
  beta_reduce
  decide +kernel

theorem witness_uncorrectableRead_2 :
    (fun (who addr : Nat) (m : Nat) => (fun u => 8 ≤ who ∧ who < 16 ∧ memIndex (aliasAddr (who - 8) addr) = some m ∧
      u.hartRuns (who - 8) = true : State → Prop)) 8 0x20000000 0 ((withPart .run {} { run := true }).advance {}) :=
      by
  beta_reduce
  decide +kernel

theorem witness_uncorrectableRead_3 :
    (fun (who addr : Nat) (m : Nat) => (fun _ => who = 16 ∧ memIndex addr = some m : State → Prop)) 16 0x20000000 0
      ((State.reset).advance {}) := by
  beta_reduce
  decide +kernel

theorem witness_tallyRead :
    (fun (rd : CsrRead) => (fun u => rd.hart < 8 ∧ rd.csr = 0xCC0 ∧ u.running 0 = true ∧ u.hartRuns rd.hart = true :
      State → Prop)) ({ hart := 0 }) ((withPart .run {} { run := true }).advance {}) := by
  beta_reduce
  decide +kernel

theorem witness_tallyRead_2 :
    (fun (rd : CsrRead) (v : Nat) => (fun u => rd.hart < 8 ∧ rd.csr ≠ 0xCC0 ∧ u.csrRead rd.hart rd.csr = some v ∧
      u.running 0 = true ∧ u.hartRuns rd.hart = true : State → Prop)) ({ hart := 0, csr := 0xCC2 }) 0x01000000
      ((withPart .run {} { run := true }).advance {}) := by
  beta_reduce
  decide +kernel

theorem witness_csrWriteTrap :
    (fun (hart csr : Nat) => (fun u => hart < 8 ∧ u.running 0 = true ∧ u.hartRuns hart = true ∧ 0xCC0 ≤ csr ∧ csr ≤
      0xCC2 : State → Prop)) 0 0xCC2 ((withPart .run {} { run := true }).advance {}) := by
  beta_reduce
  decide +kernel

theorem witness_accessRefused :
    (fun (who addr : Nat) (acc : Access) => (fun u => who < 8 ∧ u.running 0 = true ∧ u.hartRuns who = true ∧ acc.kind < 3 ∧ u.quiet who addr acc = none ∧
      u.hartMay who addr acc.kind = false : State → Prop)) 0 0x80000000 ({ kind := 1 }) ((withPart .run {} { run := true }).advance {}) := by
  beta_reduce
  decide +kernel

theorem witness_accessRefused_2 :
    (fun (who addr : Nat) (acc : Access) (mark group t : Nat) => (fun u => who < 8 ∧ u.running 0 = true ∧ u.hartRuns who = true ∧ acc.kind < 3 ∧
      u.quiet who addr acc = some (mark, group, t) : State → Prop)) 0 0x20FFA000 ({ kind := 0 }) 5 2 0 ((withPart .run {} { run := true }).advance {}) := by
  beta_reduce
  decide +kernel

theorem witness_accessRefused_3 :
    (fun (who addr : Nat) (acc : Access) => (fun u => who < 8 ∧ u.running 0 = true ∧ u.hartRuns who = true ∧ (acc.kind = 3 ∨ acc.kind = 4) ∧
      (acc.width = 32 ∨ acc.width = 64) ∧ addr % (acc.width / 8) ≠ 0 : State → Prop)) 0 0x20000002 ({ kind := 4, width := 32 }) ((withPart .run {} { run := true }).advance {}) := by
  beta_reduce
  decide +kernel

theorem witness_ecall :
    (fun (hart : Nat) => (fun u => hart < 8 ∧ u.running 0 = true ∧ u.hartRuns hart = true ∧ (u.hart hart).gate =
      none : State → Prop)) 0 ((withPart .run {} { run := true }).advance {}) := by
  beta_reduce
  decide +kernel

theorem witness_vltRandom :
    Begins vltRandomSpec (rq (List.replicate 16 0)) (arrived vltRandomSpec (rq (List.replicate 16 0)) {} (withVault
      State.reset)) = true ∧
      (fun _ b => b.vlt.mode = .running ∨ b.vlt.mode = .booting ∨ b.vlt.mode = .restarting : Req → State → Prop) (rq
        (List.replicate 16 0)) (begun vltRandomSpec (rq (List.replicate 16 0)) (arrived vltRandomSpec (rq
        (List.replicate 16 0)) {} (withVault State.reset))) := by
  beta_reduce
  decide +kernel

theorem witness_vltHash :
    Begins vltHashSpec (rq [1, 0, 0, 0, 0, 0, 0x2000, 0, 0, 0, 0, 0, 0, 0, 0, 0]) (arrived vltHashSpec (rq [1, 0, 0,
      0, 0, 0, 0x2000, 0, 0, 0, 0, 0, 0, 0, 0, 0]) {} (withVault State.reset)) = true ∧
      (fun _ b => b.vlt.mode = .running ∨ b.vlt.mode = .booting ∨ b.vlt.mode = .restarting : Req → State → Prop) (rq
        [1, 0, 0, 0, 0, 0, 0x2000, 0, 0, 0, 0, 0, 0, 0, 0, 0]) (begun vltHashSpec (rq [1, 0, 0, 0, 0, 0, 0x2000, 0,
        0, 0, 0, 0, 0, 0, 0, 0]) (arrived vltHashSpec (rq [1, 0, 0, 0, 0, 0, 0x2000, 0, 0, 0, 0, 0, 0, 0, 0, 0]) {}
        (withVault State.reset))) := by
  beta_reduce
  decide +kernel

theorem witness_vltMac :
    Begins vltMacSpec (rq (List.replicate 16 0)) (arrived vltMacSpec (rq (List.replicate 16 0)) {} (withVault
      State.reset)) = true ∧
      (fun _ b => b.vlt.mode = .running ∨ b.vlt.mode = .booting ∨ b.vlt.mode = .restarting : Req → State → Prop) (rq
        (List.replicate 16 0)) (begun vltMacSpec (rq (List.replicate 16 0)) (arrived vltMacSpec (rq (List.replicate
        16 0)) {} (withVault State.reset))) := by
  beta_reduce
  decide +kernel

theorem witness_vltCipher :
    Begins vltCipherSpec (rq (List.replicate 16 0)) (arrived vltCipherSpec (rq (List.replicate 16 0)) {} (withVault
      State.reset)) = true ∧
      (fun _ b => b.vlt.mode = .running ∨ b.vlt.mode = .booting ∨ b.vlt.mode = .restarting : Req → State → Prop) (rq
        (List.replicate 16 0)) (begun vltCipherSpec (rq (List.replicate 16 0)) (arrived vltCipherSpec (rq
        (List.replicate 16 0)) {} (withVault State.reset))) := by
  beta_reduce
  decide +kernel

theorem witness_vltAead :
    Begins vltAeadSpec (rq (List.replicate 16 0)) (arrived vltAeadSpec (rq (List.replicate 16 0)) {} (withVault
      State.reset)) = true ∧
      (fun _ b => b.vlt.mode = .running ∨ b.vlt.mode = .booting ∨ b.vlt.mode = .restarting : Req → State → Prop) (rq
        (List.replicate 16 0)) (begun vltAeadSpec (rq (List.replicate 16 0)) (arrived vltAeadSpec (rq
        (List.replicate 16 0)) {} (withVault State.reset))) := by
  beta_reduce
  decide +kernel

theorem witness_vltSign :
    Begins vltSignSpec (rq (List.replicate 16 0)) (arrived vltSignSpec (rq (List.replicate 16 0)) {} (withVault
      State.reset)) = true ∧
      (fun _ b => b.vlt.mode = .running ∨ b.vlt.mode = .booting ∨ b.vlt.mode = .restarting : Req → State → Prop) (rq
        (List.replicate 16 0)) (begun vltSignSpec (rq (List.replicate 16 0)) (arrived vltSignSpec (rq
        (List.replicate 16 0)) {} (withVault State.reset))) := by
  beta_reduce
  decide +kernel

theorem witness_vltVerify :
    Begins vltVerifySpec (rq (List.replicate 16 0)) (arrived vltVerifySpec (rq (List.replicate 16 0)) {} (withVault
      State.reset)) = true ∧
      (fun _ b => b.vlt.mode = .running ∨ b.vlt.mode = .booting ∨ b.vlt.mode = .restarting : Req → State → Prop) (rq
        (List.replicate 16 0)) (begun vltVerifySpec (rq (List.replicate 16 0)) (arrived vltVerifySpec (rq
        (List.replicate 16 0)) {} (withVault State.reset))) := by
  beta_reduce
  decide +kernel

theorem witness_vltKex :
    Begins vltKexSpec (rq (List.replicate 16 0)) (arrived vltKexSpec (rq (List.replicate 16 0)) {} (withVault
      State.reset)) = true ∧
      (fun _ b => b.vlt.mode = .running ∨ b.vlt.mode = .booting ∨ b.vlt.mode = .restarting : Req → State → Prop) (rq
        (List.replicate 16 0)) (begun vltKexSpec (rq (List.replicate 16 0)) (arrived vltKexSpec (rq (List.replicate
        16 0)) {} (withVault State.reset))) := by
  beta_reduce
  decide +kernel

theorem witness_vltKeyGen :
    Begins vltKeyGenSpec (rq (List.replicate 16 0)) (arrived vltKeyGenSpec (rq (List.replicate 16 0)) {} (withVault
      State.reset)) = true ∧
      (fun _ b => b.vlt.mode = .running ∨ b.vlt.mode = .booting ∨ b.vlt.mode = .restarting : Req → State → Prop) (rq
        (List.replicate 16 0)) (begun vltKeyGenSpec (rq (List.replicate 16 0)) (arrived vltKeyGenSpec (rq
        (List.replicate 16 0)) {} (withVault State.reset))) := by
  beta_reduce
  decide +kernel

theorem witness_vltKeyImport :
    Begins vltKeyImportSpec (rq (List.replicate 16 0)) (arrived vltKeyImportSpec (rq (List.replicate 16 0)) {}
      (withVault State.reset)) = true ∧
      (fun _ b => b.vlt.mode = .running ∨ b.vlt.mode = .booting ∨ b.vlt.mode = .restarting : Req → State → Prop) (rq
        (List.replicate 16 0)) (begun vltKeyImportSpec (rq (List.replicate 16 0)) (arrived vltKeyImportSpec (rq
        (List.replicate 16 0)) {} (withVault State.reset))) := by
  beta_reduce
  decide +kernel

theorem witness_vltKeyPublic :
    Begins vltKeyPublicSpec (rq (List.replicate 16 0)) (arrived vltKeyPublicSpec (rq (List.replicate 16 0)) {}
      (withVault State.reset)) = true ∧
      (fun _ b => b.vlt.mode = .running ∨ b.vlt.mode = .booting ∨ b.vlt.mode = .restarting : Req → State → Prop) (rq
        (List.replicate 16 0)) (begun vltKeyPublicSpec (rq (List.replicate 16 0)) (arrived vltKeyPublicSpec (rq
        (List.replicate 16 0)) {} (withVault State.reset))) := by
  beta_reduce
  decide +kernel

theorem witness_vltKeyDelete :
    Begins vltKeyDeleteSpec (rq (List.replicate 16 0)) (arrived vltKeyDeleteSpec (rq (List.replicate 16 0)) {}
      (withVault State.reset)) = true ∧
      (fun _ b => b.vlt.mode = .running ∨ b.vlt.mode = .booting ∨ b.vlt.mode = .restarting : Req → State → Prop) (rq
        (List.replicate 16 0)) (begun vltKeyDeleteSpec (rq (List.replicate 16 0)) (arrived vltKeyDeleteSpec (rq
        (List.replicate 16 0)) {} (withVault State.reset))) := by
  beta_reduce
  decide +kernel

theorem witness_vltKeyInfo :
    Begins vltKeyInfoSpec (rq (List.replicate 16 0)) (arrived vltKeyInfoSpec (rq (List.replicate 16 0)) {}
      (withVault State.reset)) = true ∧
      (fun _ b => b.vlt.mode = .running ∨ b.vlt.mode = .booting ∨ b.vlt.mode = .restarting : Req → State → Prop) (rq
        (List.replicate 16 0)) (begun vltKeyInfoSpec (rq (List.replicate 16 0)) (arrived vltKeyInfoSpec (rq
        (List.replicate 16 0)) {} (withVault State.reset))) := by
  beta_reduce
  decide +kernel

theorem witness_vltCert :
    Begins vltCertSpec (rq (List.replicate 16 0)) (arrived vltCertSpec (rq (List.replicate 16 0)) {} (withVault
      State.reset)) = true ∧
      (fun _ b => b.vlt.mode = .running ∨ b.vlt.mode = .booting ∨ b.vlt.mode = .restarting : Req → State → Prop) (rq
        (List.replicate 16 0)) (begun vltCertSpec (rq (List.replicate 16 0)) (arrived vltCertSpec (rq
        (List.replicate 16 0)) {} (withVault State.reset))) := by
  beta_reduce
  decide +kernel

theorem witness_vltLcNonce :
    Begins vltLcNonceSpec (rq (List.replicate 16 0)) (arrived vltLcNonceSpec (rq (List.replicate 16 0)) {}
      (withVault State.reset)) = true ∧
      (fun _ b => b.vlt.mode = .running ∨ b.vlt.mode = .booting ∨ b.vlt.mode = .restarting : Req → State → Prop) (rq
        (List.replicate 16 0)) (begun vltLcNonceSpec (rq (List.replicate 16 0)) (arrived vltLcNonceSpec (rq
        (List.replicate 16 0)) {} (withVault State.reset))) := by
  beta_reduce
  decide +kernel

theorem witness_vltLcAdvance :
    Begins vltLcAdvanceSpec (rq (List.replicate 16 0)) (arrived vltLcAdvanceSpec (rq (List.replicate 16 0)) {}
      (withVault State.reset)) = true ∧
      (fun _ b => b.vlt.mode = .running ∨ b.vlt.mode = .booting ∨ b.vlt.mode = .restarting : Req → State → Prop) (rq
        (List.replicate 16 0)) (begun vltLcAdvanceSpec (rq (List.replicate 16 0)) (arrived vltLcAdvanceSpec (rq
        (List.replicate 16 0)) {} (withVault State.reset))) := by
  beta_reduce
  decide +kernel

theorem witness_vltStatus :
    Begins vltStatusSpec (rq []) (arrived vltStatusSpec (rq []) {} (State.reset)) = true ∧
      (fun _ _ => True : Req → State → Prop) (rq []) (begun vltStatusSpec (rq []) (arrived vltStatusSpec (rq []) {}
        (State.reset))) := by
  beta_reduce
  decide +kernel

theorem witness_vltConfig :
    Begins vltConfigSpec (rq [0x27100003]) (arrived vltConfigSpec (rq [0x27100003]) {} (State.reset)) = true ∧
      (fun _ _ => True : Req → State → Prop) (rq [0x27100003]) (begun vltConfigSpec (rq [0x27100003]) (arrived
        vltConfigSpec (rq [0x27100003]) {} (State.reset))) := by
  beta_reduce
  decide +kernel

theorem witness_vltMboxAssign :
    Begins vltMboxAssignSpec (rq [0x0007012F]) (arrived vltMboxAssignSpec (rq [0x0007012F]) {} (State.reset)) = true ∧
      (fun r b => (b.slot (fld (par r.params 0) 5 0)).st = .free : Req → State → Prop) (rq [0x0007012F]) (begun
        vltMboxAssignSpec (rq [0x0007012F]) (arrived vltMboxAssignSpec (rq [0x0007012F]) {} (State.reset))) := by
  beta_reduce
  decide +kernel

theorem witness_vltRestart :
    Begins vltRestartSpec (rq []) (arrived vltRestartSpec (rq []) {} (inService State.reset)) = true ∧
      (fun _ b => b.vlt.mode = .booting ∨ b.vlt.mode = .restarting : Req → State → Prop) (rq []) (begun
        vltRestartSpec (rq []) (arrived vltRestartSpec (rq []) {} (inService State.reset))) := by
  beta_reduce
  decide +kernel

theorem witness_vltRestart_2 :
    Begins vltRestartSpec (rq []) (arrived vltRestartSpec (rq []) {} (withVault (inService State.reset))) = true ∧
      (fun _ b => b.vlt.mode = .running ∧ b.recentStarts < 3 : Req → State → Prop) (rq []) (begun vltRestartSpec (rq
        []) (arrived vltRestartSpec (rq []) {} (withVault (inService State.reset)))) := by
  beta_reduce
  decide +kernel

theorem witness_vltRestart_3 :
    Begins vltRestartSpec (rq []) (arrived vltRestartSpec (rq []) {}
      ({ inService State.reset with vlt := { State.reset.vlt with mode := .suspended } })) = true ∧
      (fun _ b => b.vlt.mode = .suspended : Req → State → Prop) (rq []) (begun vltRestartSpec (rq []) (arrived
        vltRestartSpec (rq []) {}
        ({ inService State.reset with vlt := { State.reset.vlt with mode := .suspended } }))) := by
  beta_reduce
  decide +kernel

theorem witness_vltRestart_4 :
    Begins vltRestartSpec (rq []) (arrived vltRestartSpec (rq []) {}
      ({ inService State.reset with vlt := { State.reset.vlt with mode := .failed } })) = true ∧
      (fun _ b => b.vlt.mode = .failed : Req → State → Prop) (rq []) (begun vltRestartSpec (rq []) (arrived
        vltRestartSpec (rq []) {} ({ inService State.reset with vlt := { State.reset.vlt with mode := .failed } })))
        := by
  beta_reduce
  decide +kernel

theorem witness_vltRestart_5 :
    Begins vltRestartSpec (rq []) (arrived vltRestartSpec (rq []) {}
      ({ inService State.reset with vlt := { State.reset.vlt with mode := .retired } })) = true ∧
      (fun _ b => b.vlt.mode = .retired : Req → State → Prop) (rq []) (begun vltRestartSpec (rq []) (arrived
        vltRestartSpec (rq []) {}
        ({ inService State.reset with vlt := { State.reset.vlt with mode := .retired } }))) := by
  beta_reduce
  decide +kernel

theorem witness_vltMeasure :
    Begins vltMeasureSpec (rq []) (arrived vltMeasureSpec (rq []) {} (State.reset)) = true ∧
      (fun _ _ => True : Req → State → Prop) (rq []) (begun vltMeasureSpec (rq []) (arrived vltMeasureSpec (rq [])
        {} (State.reset))) := by
  beta_reduce
  decide +kernel

theorem witness_wmRaise :
    (fun (idx : Nat) (value : Word) => (fun u => u.vaultUp = true ∧ idx < 7 ∧ (u.wm idx).level < wmLevel idx value ∧ u.wmTargets idx = [idx] ∧
      (u.wm idx).busy = false ∧ bit value 30 = false ∧ idx ≠ 0 : State → Prop)) 3 1 ((State.reset).advance {}) := by
  beta_reduce
  decide +kernel

theorem witness_wmLower :
    (fun (idx : Nat) (value : Word) => (fun u => u.vaultUp = true ∧ idx < 7 ∧ wmLevel idx value < (u.wm idx).level ∧ u.wmTargets idx = [idx] ∧
      (u.wm idx).busy = false ∧ bit value 30 = false : State → Prop)) 3 1 ((State.reset.setWm 3 { level := 2, target := 2 }).advance {}) := by
  beta_reduce
  decide +kernel

theorem witness_wmRefusedClear :
    (fun (idx : Nat) (value : Word) => (fun u => u.vaultUp = true ∧ idx < 7 ∧ bit value 30 = true ∧ u.wmTargets idx = [idx] ∧
      wmLevel idx value = (u.wm idx).level ∧ (u.wm idx).busy = false : State → Prop)) 3 0x40000000 ((State.reset.setWm 3 { refused := true }).advance {}) := by
  beta_reduce
  decide +kernel

theorem witness_zeroiseComplete :
    (fun (idx : Nat) => (fun u => idx < 7 ∧ (u.wm idx).busy = true : State → Prop)) 0 ((State.reset.setWm 0
      { busy := true, level := 2 }).advance {}) := by
  beta_reduce
  decide +kernel

theorem witness_vgateStore :
    (fun (hart width value : Nat) (x : List Nat) => (fun u => hart < 4 ∧ width = 64 ∧ value < 256 ∧ u.running 0 = true ∧ u.hartRuns hart = true ∧
      (u.hart hart).gate = none ∧ (u.partOfHart hart).isSome = true ∧ u.vlt.mode = .running : State → Prop)) 0 64 0x10 ([]) ((withVault (withPart .run { role := .single, part := 0 } { run := true })).advance {}) := by
  beta_reduce
  decide +kernel

theorem witness_vgateStore_2 :
    (fun (hart width value : Nat) (x : List Nat) => (fun u => hart < 8 ∧ (4 ≤ hart ∨ width ≠ 64 ∨ 256 ≤ value) ∧ u.running 0 = true ∧ u.hartRuns hart = true ∧
      (u.hart hart).gate = none ∧ (u.partOfHart hart).isSome = true : State → Prop)) 0 32 0x10 ([]) ((withPart .run { role := .single, part := 0 } { run := true }).advance {}) := by
  beta_reduce
  decide +kernel

theorem witness_gateReturn :
    (fun (hart : Nat) (g : Shadow) (st : Status) => (fun u => u.running 0 = true ∧ u.vlt.mode = .running ∧ u.mayEnd (.hart hart) = true ∧ (u.hart hart).gate = some g ∧
      callRight g.func g.tenant u = some st : State → Prop)) 0 ({ x := [(10, 1), (12, 0x2000000000000000), (13, 0x2000)], f := [], fcsr := 0, pc := 0, func := 0x20, tenant := some 0, since := 0 }) .badOpcode ((withCall 0x20).advance {}) := by
  beta_reduce
  decide +kernel

theorem witness_gateReturn_2 :
    (fun (hart : Nat) (g : Shadow) => (fun u => u.running 0 = true ∧ u.vlt.mode = .running ∧ u.mayEnd (.hart hart) = true ∧ (u.hart hart).gate = some g ∧
      callRight g.func g.tenant u = none ∧ g.func = 0x11 ∧ blockOk 0x11 (gateBlock g) = true ∧
      u.buffersOk ((u.partOfHart hart).getD 0) 0x11 (gateBlock g) = true ∧ cAlg (gateBlock g) ≠ 0 ∧ cAlg (gateBlock g) ≤ 6 ∧
      hashLen (cAlg (gateBlock g)) ≤ (cBuf (gateBlock g) 2).2 : State → Prop)) 0 ({ x := [(10, 1), (12, 0x2000000000000000), (13, 0x2000)], f := [], fcsr := 0, pc := 0, func := 0x11, tenant := some 0, since := 0 }) ((withCall 0x11).advance {}) := by
  beta_reduce
  decide +kernel

theorem witness_mbPost :
    (fun (who slot : Nat) (p : Nat) => (fun u => slot < 64 ∧ (u.slot slot).part = some p ∧ who = 0x100 + p ∧ (u.slot slot).st = .free ∧
      u.vlt.mode = .running : State → Prop)) 0x100 0 0 ((withSlot {}).advance {}) := by
  beta_reduce
  decide +kernel

theorem witness_mbRelease :
    (fun (who slot : Nat) (p : Nat) => (fun u => slot < 64 ∧ (u.slot slot).part = some p ∧ who = 0x100 + p ∧
      ((u.slot slot).st = .done ∨ (u.slot slot).st = .posted) : State → Prop)) 0x100 0 0 ((withSlot { st := .posted }).advance {}) := by
  beta_reduce
  decide +kernel

theorem witness_mailboxServe :
    (fun (n : Nat) => (fun u => u.homeUp = true ∧ u.vlt.serving = none ∧ u.vlt.fuse = none ∧ u.nextSlot = some n ∧
      u.served < u.vlt.budget * 1000 : State → Prop)) 0 ((withSlot { st := .posted }).advance {}) := by
  beta_reduce
  decide +kernel

theorem witness_mailboxDone :
    (fun (n at_ p : Nat) (st : Status) => (fun u => u.homeUp = true ∧ u.vlt.serving = some (n, at_) ∧ u.mayEnd (.slot n) = true ∧ (u.slot n).cmd = none ∧
      (u.slot n).part = some p ∧ callRight (u.slot n).func (u.boundTen p) u = some st : State → Prop)) 0 0 0 .badOpcode (((fun (s : State) => { s with vlt := { s.vlt with serving := some (0, 0) } }) (withSlot { st := .running, func := 0x20 })).advance {}) := by
  beta_reduce
  decide +kernel

theorem witness_mailboxDone_2 :
    (fun (n at_ : Nat) (c : Cmd) => (fun u => u.homeUp = true ∧ u.vlt.serving = some (n, at_) ∧ u.mayEnd (.slot n) = true ∧
      (u.slot n).cmd.bind u.cmd? = some c ∧ blockOk (u.slot n).func (u.slot n).call = true ∧ hiastOk c.params = true ∧
      (u.slot n).func = 0x11 ∧ cAlg (c.params.take 16) ≠ 0 ∧ cAlg (c.params.take 16) ≤ 6 ∧
      hashLen (cAlg (c.params.take 16)) ≤ (cBuf c.params 2).2 : State → Prop)) 50 0 callCmd ((withCallCmd).advance {}) := by
  beta_reduce
  decide +kernel

theorem witness_vaultRestart :
    (fun (cause : Nat) => (fun u => u.vlt.mode = .running ∧ cause = 1 : State → Prop)) 1 ((withVault
      State.reset).advance {}) := by
  beta_reduce
  decide +kernel

theorem witness_vaultHang :
    (fun u => u.vlt.mode = .running ∧ (u.calls.any (·.hung u.clk) = true ∨ u.vlt.runAt + 5000000 ≤ u.clk) : State →
      Prop) (({ withVault State.reset with clk := 5000000 }).advance {}) := by
  beta_reduce
  exact ⟨by decide +kernel, Or.inr (by decide +kernel)⟩

theorem witness_vaultRunning :
    (fun (digest : List Byte) => (fun u => u.running 0 = true ∧ u.vlt.mode = .booting ∧ u.ident.lc = .field : State
      → Prop)) ([1]) ((State.reset).advance {}) := by
  beta_reduce
  decide +kernel

theorem witness_drbgReseed :
    (fun (failed : Bool) => (fun u => u.vlt.mode = .running ∧ failed = false : State → Prop)) false ((withVault
      State.reset).advance {}) := by
  beta_reduce
  decide +kernel

theorem witness_drbgReseed_2 :
    (fun (failed : Bool) => (fun u => u.vlt.mode = .running ∧ failed = true : State → Prop)) true ((withVault
      State.reset).advance {}) := by
  beta_reduce
  decide +kernel

theorem witness_fuseWriteComplete :
    (fun (f : FuseWrite) => (fun u => u.vlt.fuse = some f : State → Prop)) ({ target := 4, caller := .hart 0 })
      (({ State.reset with vlt := { State.reset.vlt with fuse := some { target := 4, caller := .hart 0 } } }).advance
      {}) := by
  beta_reduce
  decide +kernel

theorem witness_vaultClaimRelease :
    (fun u => u.pow.mode ≠ .run : State → Prop)
      (({ State.reset with pow := { State.reset.pow with mode := .sleep } }).advance {}) := by
  beta_reduce
  decide +kernel

theorem witness_dbgnonce :
    (fun _ => True : State → Prop) ((State.reset).advance {}) := by
  beta_reduce
  trivial

theorem witness_dbgauth :
    (fun (token : List Byte) => (fun u => debugAuth u.ident.lc = none ∧ nonceUsed u.vlt.debugNonce token = true :
      State → Prop)) (List.replicate 32 0)
      (({ State.reset with vlt := { State.reset.vlt with debugNonce := some (List.replicate 16 0, 0) } }).advance
      {}) := by
  beta_reduce
  decide +kernel

theorem witness_dbgauth_2 :
    (fun (token : List Byte) (a : Auth) => (fun u => debugAuth u.ident.lc = some a ∧ tokenOk token u.ident.lc.code u = true ∧
      nonceOk u.vlt.debugNonce token u = true ∧ nonceUsed u.vlt.debugNonce token = true ∧ sigsOk a token u = true : State → Prop)) ([1] ++ List.replicate 3436 0) .none ((blankUnit).advance {}) := by
  beta_reduce
  decide +kernel

theorem witness_dbgend :
    (fun (sc : Nat) => (fun u => u.vlt.session = some sc : State → Prop)) 1
      (({ State.reset with vlt := { State.reset.vlt with session := some 1 } }).advance {}) := by
  beta_reduce
  decide +kernel

theorem witness_stoFormat :
    Begins stoFormatSpec (rq []) (arrived stoFormatSpec (rq []) {} (inService (withSto [] []))) = true ∧
      (fun _ b => b.sto.started = true ∧ b.sto.absent = false ∧ b.sto.rebuild = false ∧ b.sto.format = none ∧
        b.sto.jobs = [] ∧ b.sto.waiting = [] : Req → State → Prop) (rq []) (begun stoFormatSpec (rq []) (arrived
        stoFormatSpec (rq []) {} (inService (withSto [] [])))) := by
  beta_reduce
  decide +kernel

theorem witness_stoVolConfig :
    Begins stoVolConfigSpec (rq [1, 8]) (arrived stoVolConfigSpec (rq [1, 8]) {} (withSto [] [])) = true ∧
      (fun r b => b.sto.started = true ∧ b.sto.absent = false ∧ b.sto.rebuild = false ∧ b.sto.format = none ∧
      (((List.range 16).filter (· != stoVol r.params)).map (fun u => (b.vol u).size)).sum + (par r.params 1).toNat ≤ b.stoCap ∧
      b.volBusy (b.nextId - 1) (stoVol r.params) = false ∧ (b.vol (stoVol r.params)).size = (par r.params 1).toNat ∧
      (b.vol (stoVol r.params)).enc = bit (par r.params 0) 8 : Req → State → Prop) (rq [1, 8]) (begun stoVolConfigSpec (rq [1, 8]) (arrived stoVolConfigSpec (rq [1, 8]) {} (withSto [] []))) := by
  beta_reduce
  decide +kernel

theorem witness_stoVolConfig_2 :
    Begins stoVolConfigSpec (rq [1, 9]) (arrived stoVolConfigSpec (rq [1, 9]) {} (withSto [] [])) = true ∧
      (fun r b => b.sto.started = true ∧ b.sto.absent = false ∧ b.sto.rebuild = false ∧ b.sto.format = none ∧
      (((List.range 16).filter (· != stoVol r.params)).map (fun u => (b.vol u).size)).sum + (par r.params 1).toNat ≤ b.stoCap ∧
      b.volBusy (b.nextId - 1) (stoVol r.params) = false ∧ (b.vol (stoVol r.params)).size ≠ (par r.params 1).toNat ∧
      stoVol r.params ≠ 15 ∧ bit (par r.params 0) 8 = false ∧ b.img.staging ≠ some (stoVol r.params) : Req → State → Prop) (rq [1, 9]) (begun stoVolConfigSpec (rq [1, 9]) (arrived stoVolConfigSpec (rq [1, 9]) {} (withSto [] []))) := by
  beta_reduce
  decide +kernel

theorem witness_stoGroupOpen :
    Begins stoGroupOpenSpec (rq [1]) (arrived stoGroupOpenSpec (rq [1]) {} (withSto (((List.range 16).filter (· !=
      3)).map (fun g => (g, some { opener := 0, vol := 1 }))) [])) = true ∧
      (fun (g : Nat) => (fun r b => b.sto.started = true ∧ b.sto.absent = false ∧ b.sto.rebuild = false ∧ b.sto.format = none ∧ (b.vol (stoVol r.params)).size ≠ 0 ∧
      (List.range 16).filter (fun g => (b.grp g).isNone) = [g] : Req → State → Prop)) 3 (rq [1]) (begun stoGroupOpenSpec (rq [1]) (arrived stoGroupOpenSpec (rq [1]) {} (withSto (((List.range 16).filter (· != 3)).map (fun g => (g, some { opener := 0, vol := 1 }))) []))) := by
  beta_reduce
  decide +kernel

theorem witness_stoGroupAbort :
    Begins stoGroupAbortSpec (rq [0x20]) (arrived stoGroupAbortSpec (rq [0x20]) {} (withSto [(2, some
      { opener := 0, vol := 1 })] [])) = true ∧
      (fun r b => b.sto.started = true ∧ b.sto.absent = false ∧ b.sto.rebuild = false ∧ b.sto.format = none ∧ openerRight r.tenant r.params b = true ∧ b.grpStaging (stoGroup r.params) = false ∧
      b.grpCommits (stoGroup r.params) = false : Req → State → Prop) (rq [0x20]) (begun stoGroupAbortSpec (rq [0x20]) (arrived stoGroupAbortSpec (rq [0x20]) {} (withSto [(2, some { opener := 0, vol := 1 })] []))) := by
  beta_reduce
  decide +kernel

theorem witness_stoEscrowConfig :
    Begins stoEscrowConfigSpec (rq [0x01000150, 0x00100010]) (arrived stoEscrowConfigSpec (rq [0x01000150,
      0x00100010]) {} (withSto [] [])) = true ∧
      (fun _ b => b.sto.started = true ∧ b.sto.absent = false ∧ b.sto.rebuild = false ∧ b.sto.format = none : Req →
        State → Prop) (rq [0x01000150, 0x00100010]) (begun stoEscrowConfigSpec (rq [0x01000150, 0x00100010])
        (arrived stoEscrowConfigSpec (rq [0x01000150, 0x00100010]) {} (withSto [] []))) := by
  beta_reduce
  decide +kernel

theorem witness_stoPatrol :
    Begins stoPatrolSpec (rq [0x00C81807, 50]) (arrived stoPatrolSpec (rq [0x00C81807, 50]) {} (withSto [] [])) =
      true ∧
      (fun _ b => b.sto.started = true ∧ b.sto.absent = false ∧ b.sto.rebuild = false ∧ b.sto.format = none : Req →
        State → Prop) (rq [0x00C81807, 50]) (begun stoPatrolSpec (rq [0x00C81807, 50]) (arrived stoPatrolSpec (rq
        [0x00C81807, 50]) {} (withSto [] []))) := by
  beta_reduce
  decide +kernel

theorem witness_stoEscrowMeasure :
    Begins stoEscrowMeasureSpec (rq []) (arrived stoEscrowMeasureSpec (rq []) {} (withSto [] [])) = true ∧
      (fun _ b => b.sto.started = true ∧ b.sto.absent = false ∧ b.sto.rebuild = false ∧ b.sto.format = none : Req →
        State → Prop) (rq []) (begun stoEscrowMeasureSpec (rq []) (arrived stoEscrowMeasureSpec (rq []) {} (withSto
        [] []))) := by
  beta_reduce
  decide +kernel

theorem witness_stoEscrowStatus :
    Begins stoEscrowStatusSpec (rq []) (arrived stoEscrowStatusSpec (rq []) {} (withSto [] [])) = true ∧
      (fun _ b => b.sto.started = true ∧ b.sto.absent = false ∧ b.sto.rebuild = false ∧ b.sto.format = none : Req →
        State → Prop) (rq []) (begun stoEscrowStatusSpec (rq []) (arrived stoEscrowStatusSpec (rq []) {} (withSto []
        []))) := by
  beta_reduce
  decide +kernel

theorem witness_stoStatus :
    Begins stoStatusSpec (rq []) (arrived stoStatusSpec (rq []) {} (State.reset)) = true ∧
      (fun _ _ => True : Req → State → Prop) (rq []) (begun stoStatusSpec (rq []) (arrived stoStatusSpec (rq []) {}
        (State.reset))) := by
  beta_reduce
  decide +kernel

theorem witness_stoRead :
    Begins stoReadSpec (rq [0x00010001, 2]) (arrived stoReadSpec (rq [0x00010001, 2]) {} (withSto [] [])) = true ∧
      (fun r b => b.sto.started = true ∧ b.sto.absent = false ∧ b.sto.rebuild = false ∧ b.sto.format = none ∧ stoDma
        r.params = false ∧ stoPage r.params + 1 ≤ (b.vol (stoVol r.params)).size : Req → State → Prop) (rq
        [0x00010001, 2]) (begun stoReadSpec (rq [0x00010001, 2]) (arrived stoReadSpec (rq [0x00010001, 2]) {}
        (withSto [] []))) := by
  beta_reduce
  decide +kernel

theorem witness_stoRead_2 :
    Begins stoReadSpec (rq [0x00000201, 2, 0x20001000, 0x00010000]) (arrived stoReadSpec (rq [0x00000201, 2,
      0x20001000, 0x00010000]) {} ((withSto [] []).setPart 0
      { block := some (partB 0x01000000), force := some (partB 0x01000000) })) = true ∧
      (fun r b => b.sto.started = true ∧ b.sto.absent = false ∧ b.sto.rebuild = false ∧ b.sto.format = none ∧ stoDma r.params = true ∧ stoPage r.params + stoPages r.params ≤ (b.vol (stoVol r.params)).size ∧
      b.dmaOk r.tenant (stoAddr r.params) (stoPages r.params * 4096) 1 = true : Req → State → Prop) (rq [0x00000201, 2, 0x20001000, 0x00010000]) (begun stoReadSpec (rq [0x00000201, 2, 0x20001000, 0x00010000]) (arrived stoReadSpec (rq [0x00000201, 2, 0x20001000, 0x00010000]) {} ((withSto [] []).setPart 0 { block := some (partB 0x01000000), force := some (partB 0x01000000) }))) := by
  beta_reduce
  decide +kernel

theorem witness_stoWrite :
    Begins stoWriteSpec (rq ([0x00010001, 2] ++ List.replicate 128 7)) (arrived stoWriteSpec (rq ([0x00010001, 2] ++
      List.replicate 128 7)) {} (withSto [] [])) = true ∧
      (fun r b => b.sto.started = true ∧ b.sto.absent = false ∧ b.sto.rebuild = false ∧ b.sto.format = none ∧ stoDma r.params = false ∧ stoInGrp r.params = false ∧
      stoPage r.params + 1 ≤ (b.vol (stoVol r.params)).size ∧ b.sto.readonly = false ∧ b.sto.waiting = [] ∧ b.escrowFits (b.commitW 1) = true : Req → State → Prop) (rq ([0x00010001, 2] ++ List.replicate 128 7)) (begun stoWriteSpec (rq ([0x00010001, 2] ++ List.replicate 128 7)) (arrived stoWriteSpec (rq ([0x00010001, 2] ++ List.replicate 128 7)) {} (withSto [] []))) := by
  beta_reduce
  decide +kernel

theorem witness_stoWrite_2 :
    Begins stoWriteSpec (rq ([0x00010121, 2] ++ List.replicate 128 7)) (arrived stoWriteSpec (rq ([0x00010121, 2] ++
      List.replicate 128 7)) {} (withSto [(2, some { opener := 0, vol := 1 })] [])) = true ∧
      (fun (x : StoGroup) => (fun r b => b.sto.started = true ∧ b.sto.absent = false ∧ b.sto.rebuild = false ∧ b.sto.format = none ∧ stoDma r.params = false ∧ stoInGrp r.params = true ∧
      stoPage r.params + 1 ≤ (b.vol (stoVol r.params)).size ∧ b.grp (stoGroup r.params) = some x ∧ x.opener = r.tenant ∧ x.vol = stoVol r.params ∧
      b.sto.readonly = false ∧ b.grpCommits (stoGroup r.params) = false ∧
      ((b.grpPages (stoGroup r.params)) ++ [stoPage r.params]).eraseDups.length ≤ 64 : Req → State → Prop)) ({ opener := 0, vol := 1 }) (rq ([0x00010121, 2] ++ List.replicate 128 7)) (begun stoWriteSpec (rq ([0x00010121, 2] ++ List.replicate 128 7)) (arrived stoWriteSpec (rq ([0x00010121, 2] ++ List.replicate 128 7)) {} (withSto [(2, some { opener := 0, vol := 1 })] []))) := by
  beta_reduce
  decide +kernel

theorem witness_stoWrite_3 :
    Begins stoWriteSpec (rq ([0x00010001, 2] ++ List.replicate 128 7)) (arrived stoWriteSpec (rq ([0x00010001, 2] ++
      List.replicate 128 7)) {} ((withSto [] []).setSto { (withSto [] []).sto with charged := false })) = true ∧
      (fun r b => b.sto.started = true ∧ b.sto.absent = false ∧ b.sto.rebuild = false ∧ b.sto.format = none ∧ stoDma r.params = false ∧ stoInGrp r.params = false ∧
      stoPage r.params + 1 ≤ (b.vol (stoVol r.params)).size ∧ b.sto.readonly = false ∧ b.escrowFits (b.commitW 1) = false ∧
      stoTimeout r.params = 0 : Req → State → Prop) (rq ([0x00010001, 2] ++ List.replicate 128 7)) (begun stoWriteSpec (rq ([0x00010001, 2] ++ List.replicate 128 7)) (arrived stoWriteSpec (rq ([0x00010001, 2] ++ List.replicate 128 7)) {} ((withSto [] []).setSto { (withSto [] []).sto with charged := false }))) := by
  beta_reduce
  decide +kernel

theorem witness_stoTrim :
    Begins stoTrimSpec (rq [1, 0, 8]) (arrived stoTrimSpec (rq [1, 0, 8]) {} (withSto [] [])) = true ∧
      (fun r b => b.sto.started = true ∧ b.sto.absent = false ∧ b.sto.rebuild = false ∧ b.sto.format = none ∧
        stoPage r.params + (par r.params 2).toNat ≤ (b.vol (stoVol r.params)).size ∧ b.sto.readonly = false ∧
        b.sto.waiting = [] ∧ b.escrowFits (b.commitW 0) = true : Req → State → Prop) (rq [1, 0, 8]) (begun
        stoTrimSpec (rq [1, 0, 8]) (arrived stoTrimSpec (rq [1, 0, 8]) {} (withSto [] []))) := by
  beta_reduce
  decide +kernel

theorem witness_stoGroupCommit :
    Begins stoGroupCommitSpec (rq [0x20]) (arrived stoGroupCommitSpec (rq [0x20]) {} (withSto [(2, some
      { opener := 0, vol := 1, pages := [(0, [1])] })] [])) = true ∧
      (fun (x : StoGroup) => (fun r b => b.sto.started = true ∧ b.sto.absent = false ∧ b.sto.rebuild = false ∧ b.sto.format = none ∧ b.grp (stoGroup r.params) = some x ∧ x.opener = r.tenant ∧ b.volOf r.tenant x.vol = true ∧ b.grpStaging (stoGroup r.params) = false ∧
      b.grpCommits (stoGroup r.params) = false ∧ b.sto.readonly = false ∧ b.sto.waiting = [] ∧ b.escrowFits (b.commitW 0) = true : Req → State → Prop)) ({ opener := 0, vol := 1, pages := [(0, [1])] }) (rq [0x20]) (begun stoGroupCommitSpec (rq [0x20]) (arrived stoGroupCommitSpec (rq [0x20]) {} (withSto [(2, some { opener := 0, vol := 1, pages := [(0, [1])] })] []))) := by
  beta_reduce
  decide +kernel

theorem witness_formatComplete :
    (fun (id : Nat) => (fun u => u.alive 4 = true ∧ u.sto.format = some id : State → Prop)) 7
      (({ State.reset with sto := { State.reset.sto with format := some 7 } }).advance {}) := by
  beta_reduce
  decide +kernel

theorem witness_escrowEvaluation :
    (fun u => u.running 4 = true : State → Prop) ((State.reset).advance {}) := by
  beta_reduce
  decide +kernel

theorem witness_commitTimeout :
    (fun (cmd : Nat) (w : StoWait) (id : Nat) => (fun u => u.sto.waiting[cmd]? = some w ∧ w.job.cmd = some id ∧
      w.at_ + w.timeout * 1000000 ≤ u.clk : State → Prop)) 0 ({ job := jobC 0, at_ := 0, timeout := 1 }) 7
      (({ (withSto [] []).setSto { (withSto [] []).sto with waiting := [{ job := jobC 0, at_ := 0, timeout := 1 }] } with clk := 1000000 }).advance
      {}) := by
  beta_reduce
  decide +kernel

theorem witness_bankSample :
    (fun (mv : Nat) => (fun u => u.alive 4 = true ∧ u.sto.charged = true : State → Prop)) 30000 ((withSto []
      []).advance {}) := by
  beta_reduce
  decide +kernel

theorem witness_bankSample_2 :
    (fun (mv : Nat) => (fun u => u.alive 4 = true ∧ u.sto.charged = false ∧ u.sto.vhold * 100 ≤ mv + 1000 : State →
      Prop)) 35000 ((State.reset).advance {}) := by
  beta_reduce
  decide +kernel

theorem witness_escrowMeasureEnd :
    (fun (drop : Nat) => (fun u => u.alive 4 = true ∧ u.sto.measuring = true ∧ u.sto.fault = false ∧ 400 ≤ (drop + 10) / 20 ∧
      (drop + 10) / 20 ≤ 5500 : State → Prop)) 20000 (({ State.reset with sto := { State.reset.sto with measuring := true } }).advance {}) := by
  beta_reduce
  decide +kernel

theorem witness_pageProgramEnd :
    (fun (cmd : Nat) (i j : StoJob) (ws : Tbl (Option (List Byte))) (left res : Nat) (g : Option Nat) => (fun u => u.alive 4 = true ∧ cmd < 64 ∧ u.sto.jobs[cmd]? = some i ∧ i.left ≠ 0 ∧ (takePage u).2.sto.jobs[cmd]? = some j ∧
      j.kind = .commit ws left res g : State → Prop)) 0 (jobC 1) (jobC 1) ([(0, some [1])]) 1 480 none ((withSto [] [jobC 1]).advance {}) := by
  beta_reduce
  decide +kernel

theorem witness_journalRecordEnd :
    (fun (cmd : Nat) (j : StoJob) (id res : Nat) (ws : Tbl (Option (List Byte))) => (fun u => u.alive 4 = true ∧ cmd < 64 ∧ u.sto.jobs[cmd]? = some j ∧ j.cmd = some id ∧ j.kind = .commit ws 0 res none ∧
      u.inBrownout = false : State → Prop)) 0 (jobC 0) 7 480 ([(0, some [1])]) ((withSto [] [jobC 0]).advance {}) := by
  beta_reduce
  decide +kernel

theorem witness_mediaReadEnd :
    (fun (cmd : Nat) (bits : List (List Nat)) (j : StoJob) (id page : Nat) (d : List Byte) => (fun u => u.alive 4 = true ∧ cmd < 64 ∧ u.sto.jobs[cmd]? = some j ∧ j.cmd = some id ∧ j.kind = .read page d none ∧
      (bits.take 1).findIdx? (fun l => !readable l) = none : State → Prop)) 0 ([[3]]) jobR 7 2 ([1, 2, 3, 4]) ((withSto [] [jobR]).advance {}) := by
  beta_reduce
  decide +kernel

theorem witness_mediaReadEnd_2 :
    (fun (cmd : Nat) (bits : List (List Nat)) (j : StoJob) (id page a : Nat) (d : List Byte) => (fun u => u.alive 4 = true ∧ cmd < 64 ∧ u.sto.jobs[cmd]? = some j ∧ j.cmd = some id ∧ j.kind = .read page d (some a) ∧
      (bits.take (d.length / 4096)).findIdx? (fun l => !readable l) = none ∧
      u.mayAccess (((u.cmd? id).map (·.tenant)).getD 0) a d.length 1 = true : State → Prop)) 0 ([]) ({ jobR with kind := .read 2 [] (some 0x20001000) }) 7 2 0x20001000 ([]) (((withSto [] [{ jobR with kind := .read 2 [] (some 0x20001000) }]).setPart 0 { block := some (partB 0x01000000), force := some (partB 0x01000000) }).advance {}) := by
  beta_reduce
  decide +kernel

theorem witness_mediaReadEnd_3 :
    (fun (cmd : Nat) (bits : List (List Nat)) (j : StoJob) (id page k : Nat) (d : List Byte) (dma : Option Nat) => (fun u => u.alive 4 = true ∧ cmd < 64 ∧ u.sto.jobs[cmd]? = some j ∧ j.cmd = some id ∧ j.kind = .read page d dma ∧
      (bits.take (if dma.isSome then d.length / 4096 else 1)).findIdx? (fun l => !readable l) = some k : State → Prop)) 0 ([[41, 60]]) jobR 7 2 0 ([1, 2, 3, 4]) none ((withSto [] [jobR]).advance {}) := by
  beta_reduce
  decide +kernel

theorem witness_programFailure :
    (fun (vol page : Nat) => (fun u => u.alive 4 = true ∧ u.sto.absent = false ∧ u.sto.formatted = true ∧ vol < 16 :
      State → Prop)) 1 2 ((withSto [] []).advance {}) := by
  beta_reduce
  decide +kernel

theorem witness_nandPatrol :
    (fun (vol page result : Nat) => (fun u => u.running 4 = true ∧ u.sto.absent = false ∧ u.sto.formatted = true ∧ vol < 16 ∧ u.pow.mode = .run ∧
      (find? (u.vol vol).pages page).isSome = true ∧ result ≤ 40 ∧ result < u.sto.refresh : State → Prop)) 1 2 3 ((withPage).advance {}) := by
  beta_reduce
  decide +kernel

theorem witness_nandPatrol_2 :
    (fun (vol page result : Nat) => (fun u => u.running 4 = true ∧ u.sto.absent = false ∧ u.sto.formatted = true ∧ vol < 16 ∧ u.pow.mode = .run ∧
      (find? (u.vol vol).pages page).isSome = true ∧ result ≤ 40 ∧ u.sto.refresh ≤ result : State → Prop)) 1 2 30 ((withPage).advance {}) := by
  beta_reduce
  decide +kernel

theorem witness_nandPatrol_3 :
    (fun (vol page result : Nat) => (fun u => u.running 4 = true ∧ u.sto.absent = false ∧ u.sto.formatted = true ∧ vol < 16 ∧ u.pow.mode = .run ∧
      (find? (u.vol vol).pages page).isSome = true ∧ 40 < result : State → Prop)) 1 2 41 ((withPage).advance {}) := by
  beta_reduce
  decide +kernel

theorem witness_wearLevelMove :
    (fun u => u.running 4 = true ∧ u.sto.formatted = true ∧ u.eraseLo + u.sto.wlDelta < u.eraseHi : State → Prop)
      (((withSto [] []).setSto { (withSto [] []).sto with total := 3, blk := [(1, { erases := 201 })] }).advance {})
      := by
  beta_reduce
  decide +kernel

theorem witness_stxStart :
    (fun (ce0 ce1 : List NandLun) (marks : List Nat) => (fun u => u.running 4 = true ∧ u.sto.started = false ∧
      (stxFound ce0 ce1 marks u).sto.rebuild = true : State → Prop)) ([lunW]) ([]) ([])
      (({ State.reset with sto := { State.reset.sto with formatted := true } }).advance {}) := by
  beta_reduce
  decide +kernel

theorem witness_stxStart_2 :
    (fun (ce0 ce1 : List NandLun) (marks : List Nat) => (fun u => u.running 4 = true ∧ u.sto.started = false ∧
      (stxFound ce0 ce1 marks u).sto.rebuild = false : State → Prop)) ([]) ([]) ([]) ((State.reset).advance {}) :=
      by
  beta_reduce
  decide +kernel

theorem witness_translationRebuildEnd :
    (fun u => u.running 4 = true ∧ u.sto.rebuild = true : State → Prop)
      (({ State.reset with sto := { State.reset.sto with rebuild := true } }).advance {}) := by
  beta_reduce
  decide +kernel

theorem witness_logStatus :
    Begins logStatusSpec (rq []) (arrived logStatusSpec (rq []) {} (State.reset)) = true ∧
      (fun _ _ => True : Req → State → Prop) (rq []) (begun logStatusSpec (rq []) (arrived logStatusSpec (rq []) {}
        (State.reset))) := by
  beta_reduce
  decide +kernel

theorem witness_logRead :
    Begins logReadSpec (rq [0, 0, 63]) (arrived logReadSpec (rq [0, 0, 63]) {} (State.reset)) = true ∧
      (fun _ _ => True : Req → State → Prop) (rq [0, 0, 63]) (begun logReadSpec (rq [0, 0, 63]) (arrived logReadSpec
        (rq [0, 0, 63]) {} (State.reset))) := by
  beta_reduce
  decide +kernel

theorem witness_logCheckpoint :
    Begins logCheckpointSpec (rq [0, 0]) (arrived logCheckpointSpec (rq [0, 0]) {} (withRec0)) = true ∧
      (fun (d : List Byte) => (fun r b => find? b.led.cps (par64 r.params 0) = some d : Req → State → Prop)) ([1])
        (rq [0, 0]) (begun logCheckpointSpec (rq [0, 0]) (arrived logCheckpointSpec (rq [0, 0]) {} (withRec0))) :=
        by
  beta_reduce
  decide +kernel

theorem witness_logCheckpoint_2 :
    Begins logCheckpointSpec (rq [0, 1]) (arrived logCheckpointSpec (rq [0, 1]) {} (withRec0)) = true ∧
      (fun r b => find? b.led.cps (par64 r.params 0) = none : Req → State → Prop) (rq [0, 1]) (begun
        logCheckpointSpec (rq [0, 1]) (arrived logCheckpointSpec (rq [0, 1]) {} (withRec0))) := by
  beta_reduce
  decide +kernel

theorem witness_logWrite :
    Begins logWriteSpec (rq [1, 2, 3]) (arrived logWriteSpec (rq [1, 2, 3]) {} (State.reset)) = true ∧
      (fun r b => (look {} b.led.writes r.tenant).now b < 100 : Req → State → Prop) (rq [1, 2, 3]) (begun
        logWriteSpec (rq [1, 2, 3]) (arrived logWriteSpec (rq [1, 2, 3]) {} (State.reset))) := by
  beta_reduce
  decide +kernel

theorem witness_logWrite_2 :
    Begins logWriteSpec (rq [1, 2, 3]) (arrived logWriteSpec (rq [1, 2, 3]) {} ((fun (s : State) =>
      { s with led := { s.led with writes := [(0, { gen := s.window.1, sec := s.window.2, n := 100 })] } })
      State.reset)) = true ∧
      (fun r b => 100 ≤ (look {} b.led.writes r.tenant).now b : Req → State → Prop) (rq [1, 2, 3]) (begun
        logWriteSpec (rq [1, 2, 3]) (arrived logWriteSpec (rq [1, 2, 3]) {} ((fun (s : State) =>
        { s with led := { s.led with writes := [(0, { gen := s.window.1, sec := s.window.2, n := 100 })] } })
        State.reset))) := by
  beta_reduce
  decide +kernel

theorem witness_ledgerPersist :
    (fun u => u.running 4 = true ∧ u.persisting = true ∧ u.sto.rebuild = false ∧ 64 ≤ u.led.unpers ∧ u.ledgerJob =
      false : State → Prop) (((fun (s : State) => { s with led := { s.led with unpers := 64 } }) ((withSto []
      []).setVol 15 { size := 4 })).advance {}) := by
  beta_reduce
  decide +kernel

theorem witness_checkpointSign :
    (fun (x : LedRec) (rest : List LedRec) => (fun u => u.vlt.mode = .running ∧ u.led.cpDue = x :: rest : State →
      Prop)) ({ rseq := 0, time := 0, epoch := 0, rcode := 0x51F0 }) ([]) ((withRec0).advance {}) := by
  beta_reduce
  decide +kernel

theorem witness_imgOffer :
    Begins imgOfferSpec (rq [0x40, 6000, 5605]) (arrived imgOfferSpec (rq [0x40, 6000, 5605]) {} ((fun (s : State) => { s with img := { s.img with
      xfer := [(0, some { comp := 1, tenant := 0, pklen := 1, mlen := 1 }), (1, some { comp := 1, tenant := 0, pklen := 1, mlen := 1 }), (2, some { comp := 1, tenant := 0, pklen := 1, mlen := 1 })] } }) (withImg none {}))) = true ∧
      (fun (n : Nat) => (fun r b => b.img.staging ≠ none ∧ b.sto.absent = false ∧ (settleXfers b).img.staging ≠ none ∧
      (settleXfers b).sto.absent = false ∧ (settleXfers b).stagingRoom (par r.params 1).toNat = true ∧
      (((settleXfers b).icomp (imgComp r.params)).st = .idle ∨ ((settleXfers b).icomp (imgComp r.params)).st = .ready) ∧
      (List.range 4).filter (fun n => ((settleXfers b).xfr n).isNone) = [n] : Req → State → Prop)) 3 (rq [0x40, 6000, 5605]) (begun imgOfferSpec (rq [0x40, 6000, 5605]) (arrived imgOfferSpec (rq [0x40, 6000, 5605]) {} ((fun (s : State) => { s with img := { s.img with
      xfer := [(0, some { comp := 1, tenant := 0, pklen := 1, mlen := 1 }), (1, some { comp := 1, tenant := 0, pklen := 1, mlen := 1 }), (2, some { comp := 1, tenant := 0, pklen := 1, mlen := 1 })] } }) (withImg none {})))) := by
  beta_reduce
  decide +kernel

theorem witness_imgData :
    Begins imgDataSpec (rq [0x10000, 1, 5]) (arrived imgDataSpec (rq [0x10000, 1, 5]) {} (withImg (some
      { comp := 0x40, tenant := 0, pklen := 8, mlen := 4, data := [1, 2] }) {})) = true ∧
      (fun (x : ImgXfer) => (fun r b => b.sto.started = true ∧ b.sto.absent = false ∧ b.sto.rebuild = false ∧ b.sto.format = none ∧ (settleXfers b).xfr (imgXfr r.params) = some x ∧
      x.tenant = r.tenant ∧ (settleXfers b).img.staging ≠ none ∧ x.close = none ∧
      (par r.params 1).toNat + imgCount r.params ≤ x.data.length : Req → State → Prop)) ({ comp := 0x40, tenant := 0, pklen := 8, mlen := 4, data := [1, 2] }) (rq [0x10000, 1, 5]) (begun imgDataSpec (rq [0x10000, 1, 5]) (arrived imgDataSpec (rq [0x10000, 1, 5]) {} (withImg (some { comp := 0x40, tenant := 0, pklen := 8, mlen := 4, data := [1, 2] }) {}))) := by
  beta_reduce
  decide +kernel

theorem witness_imgData_2 :
    Begins imgDataSpec (rq [0x10000, 2, 5]) (arrived imgDataSpec (rq [0x10000, 2, 5]) {} (withImg (some
      { comp := 0x40, tenant := 0, pklen := 8, mlen := 4, data := [1, 2] }) {})) = true ∧
      (fun (x : ImgXfer) (v pages : Nat) => (fun r b => b.sto.started = true ∧ b.sto.absent = false ∧ b.sto.rebuild = false ∧ b.sto.format = none ∧ (settleXfers b).xfr (imgXfr r.params) = some x ∧
      x.tenant = r.tenant ∧ (settleXfers b).img.staging = some v ∧ x.close = none ∧
      (par r.params 1).toNat = x.data.length ∧ 0 < imgCount r.params ∧ x.data.length + imgCount r.params ≤ x.pklen ∧
      pages = (x.data.length + ((wordBytes (r.params.drop 2)).take (imgCount r.params)).length - 1) / 4096 - x.data.length / 4096 + 1 ∧
      (settleXfers b).sto.readonly = false ∧ (settleXfers b).sto.waiting = [] ∧
      (settleXfers b).escrowFits ((settleXfers b).commitW pages) = true : Req → State → Prop)) ({ comp := 0x40, tenant := 0, pklen := 8, mlen := 4, data := [1, 2] }) 1 1 (rq [0x10000, 2, 5]) (begun imgDataSpec (rq [0x10000, 2, 5]) (arrived imgDataSpec (rq [0x10000, 2, 5]) {} (withImg (some { comp := 0x40, tenant := 0, pklen := 8, mlen := 4, data := [1, 2] }) {}))) := by
  beta_reduce
  decide +kernel

theorem witness_imgClose :
    Begins imgCloseSpec (rq [0]) (arrived imgCloseSpec (rq [0]) {} (withImg (some
      { comp := 0x40, tenant := 0, pklen := 8, mlen := 4, data := [1, 2] }) {})) = true ∧
      (fun (x : ImgXfer) => (fun r b => (settleXfers b).xfr (imgXfr r.params) = some x ∧ x.tenant = r.tenant ∧
        x.close = none : Req → State → Prop)) ({ comp := 0x40, tenant := 0, pklen := 8, mlen := 4, data := [1, 2] })
        (rq [0]) (begun imgCloseSpec (rq [0]) (arrived imgCloseSpec (rq [0]) {} (withImg (some
        { comp := 0x40, tenant := 0, pklen := 8, mlen := 4, data := [1, 2] }) {}))) := by
  beta_reduce
  decide +kernel

theorem witness_imgAbort :
    Begins imgAbortSpec (rq [0]) (arrived imgAbortSpec (rq [0]) {} (withImg (some
      { comp := 0x40, tenant := 0, pklen := 8, mlen := 4, data := [1, 2] }) {})) = true ∧
      (fun (x : ImgXfer) => (fun r b => (settleXfers b).xfr (imgXfr r.params) = some x ∧ (x.tenant = r.tenant ∨
        r.tenant = 0) : Req → State → Prop)) ({ comp := 0x40, tenant := 0, pklen := 8, mlen := 4, data := [1, 2] })
        (rq [0]) (begun imgAbortSpec (rq [0]) (arrived imgAbortSpec (rq [0]) {} (withImg (some
        { comp := 0x40, tenant := 0, pklen := 8, mlen := 4, data := [1, 2] }) {}))) := by
  beta_reduce
  decide +kernel

theorem witness_imgConfirm :
    Begins imgConfirmSpec (rq [0x40]) (arrived imgConfirmSpec (rq [0x40]) {} (withImg none
      { st := .trial, window := 5 })) = true ∧
      (fun r b => (b.icomp (imgComp r.params)).st = .trial ∧ (b.icomp (imgComp r.params)).run < (b.icomp (imgComp
        r.params)).window : Req → State → Prop) (rq [0x40]) (begun imgConfirmSpec (rq [0x40]) (arrived
        imgConfirmSpec (rq [0x40]) {} (withImg none { st := .trial, window := 5 }))) := by
  beta_reduce
  decide +kernel

theorem witness_imgActivate :
    Begins imgActivateSpec (rq [0x40]) (arrived imgActivateSpec (rq [0x40]) {} (withImg none
      { st := .ready, ready := some {} })) = true ∧
      (fun r b => (b.icomp (imgComp r.params)).st = .ready ∧ imgComp r.params / 16 ≠ 2 : Req → State → Prop) (rq
        [0x40]) (begun imgActivateSpec (rq [0x40]) (arrived imgActivateSpec (rq [0x40]) {} (withImg none
        { st := .ready, ready := some {} }))) := by
  beta_reduce
  decide +kernel

theorem witness_imgRevert :
    Begins imgRevertSpec (rq [0x40]) (arrived imgRevertSpec (rq [0x40]) {} (withImg none
      { st := .trial, window := 5 })) = true ∧
      (fun r b => (b.icomp (imgComp r.params)).st = .trial ∨ (b.icomp (imgComp r.params)).st = .activating : Req →
        State → Prop) (rq [0x40]) (begun imgRevertSpec (rq [0x40]) (arrived imgRevertSpec (rq [0x40]) {} (withImg
        none { st := .trial, window := 5 }))) := by
  beta_reduce
  decide +kernel

theorem witness_imgStatus :
    Begins imgStatusSpec (rq [0x40]) (arrived imgStatusSpec (rq [0x40]) {} (State.reset)) = true ∧
      (fun _ _ => True : Req → State → Prop) (rq [0x40]) (begun imgStatusSpec (rq [0x40]) (arrived imgStatusSpec (rq
        [0x40]) {} (State.reset))) := by
  beta_reduce
  decide +kernel

theorem witness_imgPeer :
    Begins imgPeerSpec (rq [0x00020101, 1, 0, 1, 0, 0]) (arrived imgPeerSpec (rq [0x00020101, 1, 0, 1, 0, 0]) {}
      (State.reset)) = true ∧
      (fun _ _ => True : Req → State → Prop) (rq [0x00020101, 1, 0, 1, 0, 0]) (begun imgPeerSpec (rq [0x00020101, 1,
        0, 1, 0, 0]) (arrived imgPeerSpec (rq [0x00020101, 1, 0, 1, 0, 0]) {} (State.reset))) := by
  beta_reduce
  decide +kernel

theorem witness_imgConfig :
    Begins imgConfigSpec (rq [0x101]) (arrived imgConfigSpec (rq [0x101]) {} (State.reset)) = true ∧
      (fun _ b => (∀ n < 4, (settleXfers b).xfr n = none) ∧ (settleXfers b).stagedBusy = false : Req → State → Prop)
        (rq [0x101]) (begun imgConfigSpec (rq [0x101]) (arrived imgConfigSpec (rq [0x101]) {} (State.reset))) := by
  beta_reduce
  decide +kernel

theorem witness_relayStart :
    (fun (comp : Nat) (x : ImgRelay) => (fun u => u.relay? comp = some x ∧ x.entry = 0x3F : State → Prop)) 0x40
      ({ comp := 0x40, size := 1, todo := [] }) ((withRelay { comp := 0x40, size := 1, todo := [] }).advance {}) :=
      by
  beta_reduce
  decide +kernel

theorem witness_relayOutcome :
    (fun (comp status : Nat) (x : ImgRelay) => (fun u => u.relay? comp = some x ∧ x.active = true ∧ status = 0 :
      State → Prop)) 0x40 0 ({ comp := 0x40, size := 1, todo := [], active := true }) ((withRelay
      { comp := 0x40, size := 1, todo := [], active := true }).advance {}) := by
  beta_reduce
  decide +kernel

theorem witness_relayOutcome_2 :
    (fun (comp status : Nat) (x : ImgRelay) => (fun u => u.relay? comp = some x ∧ x.active = true ∧ attemptFails
      status = true ∧ x.attempt < 6 : State → Prop)) 0x40 0x500
      ({ comp := 0x40, size := 1, todo := [], active := true }) ((withRelay
      { comp := 0x40, size := 1, todo := [], active := true }).advance {}) := by
  beta_reduce
  decide +kernel

theorem witness_relayRetry :
    (fun (comp : Nat) (x : ImgRelay) => (fun u => u.relay? comp = some x ∧ x.active = false ∧ x.entry ≠ 0x3F ∧
      x.failedAt + 10000000000 ≤ u.clk : State → Prop)) 0x40
      ({ comp := 0x40, size := 1, todo := [], entry := 0, attempt := 1 })
      (({ withRelay { comp := 0x40, size := 1, todo := [], entry := 0, attempt := 1 } with clk := 10000000000 }).advance
      {}) := by
  beta_reduce
  decide +kernel

theorem witness_installComplete :
    (fun (xfr : Nat) => (fun u => (u.xfr xfr).any (fun x => x.passed) = true : State → Prop)) 0 ((withImg (some
      { comp := 0x40, tenant := 0, pklen := 8, mlen := 4, passed := true }) {}).advance {}) := by
  beta_reduce
  decide +kernel

theorem witness_transferAbandon :
    (fun (xfr : Nat) (x : ImgXfer) => (fun u => u.xfr xfr = some x ∧ x.close = none ∧ x.at_ + 60000000000 ≤ u.clk :
      State → Prop)) 0 ({ comp := 0x40, tenant := 0, pklen := 8, mlen := 4 })
      (({ withImg (some { comp := 0x40, tenant := 0, pklen := 8, mlen := 4 }) {} with clk := 60000000000 }).advance
      {}) := by
  beta_reduce
  decide +kernel

theorem witness_activationComplete :
    (fun (comp : Nat) => (fun u => (u.icomp comp).st = .activating ∧ (u.icomp comp).atStart = false ∧ comp = 0x10 :
      State → Prop)) 0x10
      (({ State.reset with img := { State.reset.img with comp := [(0x10, { st := .activating })] } }).advance {}) :=
      by
  beta_reduce
  decide +kernel

theorem witness_healthWindowEnd :
    (fun (comp : Nat) => (fun u => (u.icomp comp).st = .trial ∧ (u.icomp comp).window ≤ (u.icomp comp).run : State →
      Prop)) 0x40 ((withImg none { st := .trial }).advance {}) := by
  beta_reduce
  decide +kernel

theorem witness_revertComplete :
    (fun (comp : Nat) => (fun u => (u.icomp comp).st = .fallback ∧ comp = 0x10 : State → Prop)) 0x10
      (({ State.reset with img := { State.reset.img with comp := [(0x10, { st := .fallback })] } }).advance {}) :=
      by
  beta_reduce
  decide +kernel

theorem witness_phyFirmwareWatchdog :
    (fun (port : Nat) => (fun _ => 2 ≤ port ∧ port ≤ 13 : State → Prop)) 13 ((State.reset).advance {}) := by
  beta_reduce
  decide +kernel

theorem witness_tstAuditRun :
    Begins tstAuditRunSpec (rq [0x00010000, 0, 0]) (arrived tstAuditRunSpec (rq [0x00010000, 0, 0]) {} ((fun (s :
      State) => { s with aud := { s.aud with run := none } }) (inService State.reset))) = true ∧
      (fun r b => b.aud.run = none ∧ (namedBlocks r.params).all b.blockIdle = true ∧
      ((namedBlocks r.params).filter (fun k => decide (22 ≤ k) && decide (k < 26))).length ≤ 1 ∧ lifeAudit b.ident.lc = true ∧ b.aud.condOk = true : Req → State → Prop) (rq [0x00010000, 0, 0]) (begun tstAuditRunSpec (rq [0x00010000, 0, 0]) (arrived tstAuditRunSpec (rq [0x00010000, 0, 0]) {} ((fun (s : State) => { s with aud := { s.aud with run := none } }) (inService State.reset)))) := by
  beta_reduce
  decide +kernel

theorem witness_tstSummary :
    Begins tstSummarySpec (rq [1]) (arrived tstSummarySpec (rq [1]) {} (State.reset)) = true ∧
      (fun _ _ => True : Req → State → Prop) (rq [1]) (begun tstSummarySpec (rq [1]) (arrived tstSummarySpec (rq
        [1]) {} (State.reset))) := by
  beta_reduce
  decide +kernel

theorem witness_tstDetail :
    Begins tstDetailSpec (rq [0x3F01]) (arrived tstDetailSpec (rq [0x3F01]) {} (State.reset)) = true ∧
      (fun _ _ => True : Req → State → Prop) (rq [0x3F01]) (begun tstDetailSpec (rq [0x3F01]) (arrived tstDetailSpec
        (rq [0x3F01]) {} (State.reset))) := by
  beta_reduce
  decide +kernel

theorem witness_tstFaultStatus :
    Begins tstFaultStatusSpec (rq []) (arrived tstFaultStatusSpec (rq []) {} (State.reset)) = true ∧
      (fun _ _ => True : Req → State → Prop) (rq []) (begun tstFaultStatusSpec (rq []) (arrived tstFaultStatusSpec
        (rq []) {} (State.reset))) := by
  beta_reduce
  decide +kernel

theorem witness_tstFaultClear :
    Begins tstFaultClearSpec (rq [0x7FF]) (arrived tstFaultClearSpec (rq [0x7FF]) {} (State.reset)) = true ∧
      (fun _ _ => True : Req → State → Prop) (rq [0x7FF]) (begun tstFaultClearSpec (rq [0x7FF]) (arrived
        tstFaultClearSpec (rq [0x7FF]) {} (State.reset))) := by
  beta_reduce
  decide +kernel

theorem witness_tstFaultMask :
    Begins tstFaultMaskSpec (rq [0x7C0]) (arrived tstFaultMaskSpec (rq [0x7C0]) {} (State.reset)) = true ∧
      (fun _ _ => True : Req → State → Prop) (rq [0x7C0]) (begun tstFaultMaskSpec (rq [0x7C0]) (arrived
        tstFaultMaskSpec (rq [0x7C0]) {} (State.reset))) := by
  beta_reduce
  decide +kernel

theorem witness_auditBlockTest :
    (fun (fails : List AuditFail) (rom : Bool) (x : AuditRun) (k : Nat) (ks : List Nat) => (fun u => u.aud.run = some x ∧ x.left = k :: ks ∧ u.isolated x.kind k = true ∧
      u.condFresh x.kind = true : State → Prop)) ([]) false ({ kind := 3, left := [16], cmd := none, sum := { kind := 3, start := 0, lc := 3, romPat := true }, startClk := 0 }) 16 ([]) (({ State.reset with aud := { State.reset.aud with run := some { kind := 3, left := [16], cmd := none, sum := { kind := 3, start := 0, lc := 3, romPat := true }, startClk := 0 } } }).advance {}) := by
  beta_reduce
  decide +kernel

theorem witness_auditConditionCheck :
    (fun (supplyMv refKhz : Nat) (x : AuditRun) => (fun u => u.alive 3 = true ∧ u.aud.run = some x ∧ x.kind ≠ 2 ∧
      (condHolds supplyMv refKhz && lifeAudit u.ident.lc) = false : State → Prop)) 2900 25000
      ({ kind := 3, left := [16], cmd := none, sum := { kind := 3, start := 0, lc := 3, romPat := true }, startClk := 0 })
      (({ State.reset with aud := { State.reset.aud with run := some { kind := 3, left := [16], cmd := none, sum := { kind := 3, start := 0, lc := 3, romPat := true }, startClk := 0 } } }).advance
      {}) := by
  beta_reduce
  decide +kernel

theorem witness_auditConditionCheck_2 :
    (fun (supplyMv refKhz : Nat) => (fun u => u.alive 3 = true ∧ u.aud.run = none : State → Prop)) 3300 25000
      (({ State.reset with aud := { State.reset.aud with run := none } }).advance {}) := by
  beta_reduce
  decide +kernel

theorem witness_tellerPairTrip :
    (fun (tp : Nat) (cmds : List Nat) => (fun u => tp < 4 ∧ (look {} u.aud.teller tp).inService = true : State →
      Prop)) 3 ([]) ((State.reset).advance {}) := by
  beta_reduce
  decide +kernel

theorem witness_tellerPairRejoin :
    (fun (tp : Nat) => (fun u => tp < 4 ∧ (look {} u.aud.teller tp).inService = false ∧ (look {} u.aud.teller tp).barred = false ∧
      u.blkFail (22 + tp) = false : State → Prop)) 3 (({ State.reset with aud := { State.reset.aud with teller := [(3, { inService := false })] } }).advance {}) := by
  beta_reduce
  decide +kernel

theorem witness_tenCreate :
    Begins tenCreateSpec (rq tenB) (arrived tenCreateSpec (rq tenB) {} (State.reset)) = true ∧
      (fun r b => dTaken (descBytes r.params) b = false ∧ dOk (descBytes r.params) b = true ∧
      dShares (descBytes r.params) b = true : Req → State → Prop) (rq tenB) (begun tenCreateSpec (rq tenB) (arrived tenCreateSpec (rq tenB) {} (State.reset))) := by
  beta_reduce
  decide +kernel

theorem witness_tenCreate_2 :
    Begins tenCreateSpec (rq tenB) (arrived tenCreateSpec (rq tenB) {} (withTen .live)) = true ∧
      (fun r b => dTaken (descBytes r.params) b = true : Req → State → Prop) (rq tenB) (begun tenCreateSpec (rq
        tenB) (arrived tenCreateSpec (rq tenB) {} (withTen .live))) := by
  beta_reduce
  decide +kernel

theorem witness_tenQuery :
    Begins tenQuerySpec (rq [5]) (arrived tenQuerySpec (rq [5]) {} (withTen .live)) = true ∧
      (fun _ _ => True : Req → State → Prop) (rq [5]) (begun tenQuerySpec (rq [5]) (arrived tenQuerySpec (rq [5]) {}
        (withTen .live))) := by
  beta_reduce
  decide +kernel

theorem witness_tenShare :
    Begins tenShareSpec (rq [0x005, 0]) (arrived tenShareSpec (rq [0x005, 0]) {} (withTen .live)) = true ∧
      (fun r b => b.covers (parTen r.params) (fld (par r.params 0) 11 8)
        (shareVal (fld (par r.params 0) 11 8) (par r.params 1).toNat) = true ∧ fld (par r.params 0) 11 8 ≠ 1 ∧
      fld (par r.params 0) 11 8 ≠ 2 ∧ fld (par r.params 0) 11 8 ≠ 3 : Req → State → Prop) (rq [0x005, 0]) (begun tenShareSpec (rq [0x005, 0]) (arrived tenShareSpec (rq [0x005, 0]) {} (withTen .live))) := by
  beta_reduce
  decide +kernel

theorem witness_tenShare_2 :
    Begins tenShareSpec (rq [0x105, 3]) (arrived tenShareSpec (rq [0x105, 3]) {} (withTen .live)) = true ∧
      (fun r b => fld (par r.params 0) 11 8 = 1 ∧ b.covers (parTen r.params) 1 (par r.params 1).toNat = true : Req →
        State → Prop) (rq [0x105, 3]) (begun tenShareSpec (rq [0x105, 3]) (arrived tenShareSpec (rq [0x105, 3]) {}
        (withTen .live))) := by
  beta_reduce
  decide +kernel

theorem witness_tenRights :
    Begins tenRightsSpec (rq [5, 0xFFFFF, 0x37]) (arrived tenRightsSpec (rq [5, 0xFFFFF, 0x37]) {} (withTen .live))
      = true ∧
      (fun _ _ => True : Req → State → Prop) (rq [5, 0xFFFFF, 0x37]) (begun tenRightsSpec (rq [5, 0xFFFFF, 0x37])
        (arrived tenRightsSpec (rq [5, 0xFFFFF, 0x37]) {} (withTen .live))) := by
  beta_reduce
  decide +kernel

theorem witness_tenIslandEnable :
    Begins tenIslandEnableSpec (rq [5]) (arrived tenIslandEnableSpec (rq [5]) {} (State.reset)) = true ∧
      (fun r b => (b.island (fld (par r.params 0) 7 0)).gate.st = .run ∧ (b.island (fld (par r.params 0) 7
        0)).lossHold = false : Req → State → Prop) (rq [5]) (begun tenIslandEnableSpec (rq [5]) (arrived
        tenIslandEnableSpec (rq [5]) {} (State.reset))) := by
  beta_reduce
  decide +kernel

theorem witness_tenReset :
    Begins tenResetSpec (rq [5]) (arrived tenResetSpec (rq [5]) {} (withTen .faulted)) = true ∧
      (fun r b => ((checkAll (parTen r.params) b).tenant (parTen r.params)).st = .live ∨
      ((checkAll (parTen r.params) b).tenant (parTen r.params)).st = .faulted : Req → State → Prop) (rq [5]) (begun tenResetSpec (rq [5]) (arrived tenResetSpec (rq [5]) {} (withTen .faulted))) := by
  beta_reduce
  decide +kernel

theorem witness_tenReset_2 :
    Begins tenResetSpec (rq [5]) (arrived tenResetSpec (rq [5]) {} (withTen .resetting)) = true ∧
      (fun r b => ((checkAll (parTen r.params) b).tenant (parTen r.params)).st = .resetting : Req → State → Prop)
        (rq [5]) (begun tenResetSpec (rq [5]) (arrived tenResetSpec (rq [5]) {} (withTen .resetting))) := by
  beta_reduce
  decide +kernel

theorem witness_tenDelete :
    Begins tenDeleteSpec (rq [5]) (arrived tenDeleteSpec (rq [5]) {} (withTen .live)) = true ∧
      (fun r b =>
      let c := checkAll (parTen r.params) b
      c.ownsChan (parTen r.params) = false ∧ c.visOf (parTen r.params) = [] ∧ (c.tenant (parTen r.params)).st = .live : Req → State → Prop) (rq [5]) (begun tenDeleteSpec (rq [5]) (arrived tenDeleteSpec (rq [5]) {} (withTen .live))) := by
  beta_reduce
  decide +kernel

theorem witness_tenResume :
    Begins tenResumeSpec (rq [5]) (arrived tenResumeSpec (rq [5]) {} (withTen .faulted)) = true ∧
      (fun r b => (b.tenant (parTen r.params)).st = .faulted : Req → State → Prop) (rq [5]) (begun tenResumeSpec (rq
        [5]) (arrived tenResumeSpec (rq [5]) {} (withTen .faulted))) := by
  beta_reduce
  decide +kernel

theorem witness_tenBind :
    Begins tenBindSpec (rq [0x205, 7, 0, 3]) (arrived tenBindSpec (rq [0x205, 7, 0, 3]) {} (withTen .live)) = true ∧
      (fun r b => (((b.tenant (parTen r.params)).assoc.map (·.outs)).getD []).filter (fun o => !o.acked) = [] : Req
        → State → Prop) (rq [0x205, 7, 0, 3]) (begun tenBindSpec (rq [0x205, 7, 0, 3]) (arrived tenBindSpec (rq
        [0x205, 7, 0, 3]) {} (withTen .live))) := by
  beta_reduce
  decide +kernel

theorem witness_tenViCreate :
    Begins tenViCreateSpec (rq [0x00030105, 0x00040900, 0x00040901, 0x902]) (arrived tenViCreateSpec (rq
      [0x00030105, 0x00040900, 0x00040901, 0x902]) {} (withTen .live)) = true ∧
      (fun r b => viKind r.params = 1 ∧ b.viOf r.params = none ∧ b.viShare r.params = true : Req → State → Prop) (rq
        [0x00030105, 0x00040900, 0x00040901, 0x902]) (begun tenViCreateSpec (rq [0x00030105, 0x00040900, 0x00040901,
        0x902]) (arrived tenViCreateSpec (rq [0x00030105, 0x00040900, 0x00040901, 0x902]) {} (withTen .live))) := by
  beta_reduce
  decide +kernel

theorem witness_tenViCreate_2 :
    Begins tenViCreateSpec (rq [0x00030005, 0x00040900, 0x00040901, 7, 0x10000, 0x00400902]) (arrived
      tenViCreateSpec (rq [0x00030005, 0x00040900, 0x00040901, 7, 0x10000, 0x00400902]) {} (withTen .live)) = true ∧
      (fun r b =>
      let v : Vi := { owner := parTen r.params, sqBase := fld (par r.params 1) 11 0, sqLog := fld (par r.params 1) 19 16,
                      cqBase := fld (par r.params 2) 11 0, cqLog := fld (par r.params 2) 19 16, kindWords := r.params.drop 3 }
      let vid := fld (par (r.params.drop 3) 1) 27 16
      let entry : FdbEntry := { mac := viMac (r.params.drop 3), vid := vid, static := true, port := 14,
                                vnic := viIdx r.params, at_ := b.clk, vi := true }
      viKind r.params = 0 ∧ b.viOf r.params = none ∧ b.viShare r.params = true ∧
        b.net.fdb.any (fun x => x.static && (x.mac == viMac (r.params.drop 3) || x.vid == vid)) = false ∧
        (fdbPut entry (freshCtl 0 v (b.setVi 0 (viIdx r.params) (some v)))).isSome = true : Req → State → Prop) (rq [0x00030005, 0x00040900, 0x00040901, 7, 0x10000, 0x00400902]) (begun tenViCreateSpec (rq [0x00030005, 0x00040900, 0x00040901, 7, 0x10000, 0x00400902]) (arrived tenViCreateSpec (rq [0x00030005, 0x00040900, 0x00040901, 7, 0x10000, 0x00400902]) {} (withTen .live))) := by
  beta_reduce
  dsimp only; decide +kernel

theorem witness_tenViDelete :
    Begins tenViDeleteSpec (rq [0x00030100]) (arrived tenViDeleteSpec (rq [0x00030100]) {} (withVi { owner := 5 }))
      = true ∧
      (fun r b => b.viOf r.params ≠ none : Req → State → Prop) (rq [0x00030100]) (begun tenViDeleteSpec (rq
        [0x00030100]) (arrived tenViDeleteSpec (rq [0x00030100]) {} (withVi { owner := 5 }))) := by
  beta_reduce
  decide +kernel

theorem witness_tenViReset :
    Begins tenViResetSpec (rq [0x00030100]) (arrived tenViResetSpec (rq [0x00030100]) {} (withVi { owner := 5 })) =
      true ∧
      (fun r b => b.viOf r.params ≠ none : Req → State → Prop) (rq [0x00030100]) (begun tenViResetSpec (rq
        [0x00030100]) (arrived tenViResetSpec (rq [0x00030100]) {} (withVi { owner := 5 }))) := by
  beta_reduce
  decide +kernel

theorem witness_tenViQuery :
    Begins tenViQuerySpec (rq [0x00030100]) (arrived tenViQuerySpec (rq [0x00030100]) {} (withVi { owner := 5 })) =
      true ∧
      (fun (v : Vi) => (fun r b => b.viOf r.params = some v : Req → State → Prop)) ({ owner := 5 }) (rq
        [0x00030100]) (begun tenViQuerySpec (rq [0x00030100]) (arrived tenViQuerySpec (rq [0x00030100]) {} (withVi
        { owner := 5 }))) := by
  beta_reduce
  decide +kernel

theorem witness_viResetComplete :
    (fun (kind idx : Nat) (v : Vi) => (fun u => u.vi kind idx = some v ∧ v.resetting = true ∧ v.fetched.all (fun d
      => !d.live) = true : State → Prop)) 1 3 ({ owner := 5, resetting := true }) ((withVi
      { owner := 5, resetting := true }).advance {}) := by
  beta_reduce
  decide +kernel

theorem witness_tenResetDone :
    (fun (t : Nat) => (fun u => (u.tenant t).st = .resetting ∧ u.tenIdle t = true : State → Prop)) 5 ((withTen
      .resetting).advance {}) := by
  beta_reduce
  decide +kernel

theorem witness_tenResetDone_2 :
    (fun (t : Nat) => (fun u => (u.tenant t).st = .deleting ∧ u.tenIdle t = true : State → Prop)) 5 ((withTen
      .deleting).advance {}) := by
  beta_reduce
  decide +kernel

theorem witness_queConfig :
    Begins queConfigSpec (rq [0x00070205, 0x900]) (arrived queConfigSpec (rq [0x00070205, 0x900]) {} (withTen
      .live)) = true ∧
      (fun r b => (b.queue (parTen r.params) (parQ r.params)).occ = 0 ∧ (b.queue (parTen r.params) (parQ
        r.params)).held = [] : Req → State → Prop) (rq [0x00070205, 0x900]) (begun queConfigSpec (rq [0x00070205,
        0x900]) (arrived queConfigSpec (rq [0x00070205, 0x900]) {} (withTen .live))) := by
  beta_reduce
  decide +kernel

theorem witness_queFlush :
    Begins queFlushSpec (rq [0x205]) (arrived queFlushSpec (rq [0x205]) {} (withTen .live)) = true ∧
      (fun r b => (b.queue (parTen r.params) (parQ r.params)).depth ≠ 0 : Req → State → Prop) (rq [0x205]) (begun
        queFlushSpec (rq [0x205]) (arrived queFlushSpec (rq [0x205]) {} (withTen .live))) := by
  beta_reduce
  decide +kernel

theorem witness_queStatus :
    Begins queStatusSpec (rq [0x205]) (arrived queStatusSpec (rq [0x205]) {} (withTen .live)) = true ∧
      (fun _ _ => True : Req → State → Prop) (rq [0x205]) (begun queStatusSpec (rq [0x205]) (arrived queStatusSpec
        (rq [0x205]) {} (withTen .live))) := by
  beta_reduce
  decide +kernel

theorem witness_queLevel :
    Begins queLevelSpec (rq [0x205, 0x80000004]) (arrived queLevelSpec (rq [0x205, 0x80000004]) {} (withTen .live))
      = true ∧
      (fun r b => (b.queue (parTen r.params) (parQ r.params)).depth ≠ 0 : Req → State → Prop) (rq [0x205,
        0x80000004]) (begun queLevelSpec (rq [0x205, 0x80000004]) (arrived queLevelSpec (rq [0x205, 0x80000004]) {}
        (withTen .live))) := by
  beta_reduce
  decide +kernel

theorem witness_queClear :
    Begins queClearSpec (rq [0x205, 0x70000000]) (arrived queClearSpec (rq [0x205, 0x70000000]) {} (withTen .live))
      = true ∧
      (fun r b => (b.queue (parTen r.params) (parQ r.params)).depth ≠ 0 ∧ b.crossedNow (b.queue (parTen r.params)
        (parQ r.params)) = none : Req → State → Prop) (rq [0x205, 0x70000000]) (begun queClearSpec (rq [0x205,
        0x70000000]) (arrived queClearSpec (rq [0x205, 0x70000000]) {} (withTen .live))) := by
  beta_reduce
  decide +kernel

theorem witness_doorbell :
    (fun (who t q : Nat) (value : Word) (n : Nat) => (fun u => u.running 1 = true ∧ q < 6 ∧ t < 32 ∧ u.boundTo who t = true ∧ (u.queue t q).ptrBad = none ∧
      (u.queue t q).depth ≠ 0 ∧ (u.queue t q).ptrErr = false ∧ value.toNat % 2 ^ 13 % 4096 < 2 ^ (u.queue t q).depth ∧ 4 ≤ q ∧
      n = (ptrLin (u.queue t q).depth (BitVec.ofNat 13 (value.toNat % 2 ^ 13)) + 2 * 2 ^ (u.queue t q).depth -
        ptrLin (u.queue t q).depth ((u.queue t q).own q)) % (2 * 2 ^ (u.queue t q).depth) ∧ n ≠ 0 ∧ n ≤ (u.queue t q).occ : State → Prop)) 0x100 0 4 1 1 ((State.reset.addSlots 0 4 (mkSlots 0 (itemSlots echoHdr))).advance {}) := by
  beta_reduce
  decide +kernel

theorem witness_doorbell_2 :
    (fun (who t q : Nat) (value : Word) (n : Nat) => (fun u => u.running 1 = true ∧ q < 6 ∧ t < 32 ∧ u.boundTo who t = true ∧ (u.queue t q).ptrBad = none ∧
      (u.queue t q).depth ≠ 0 ∧ (u.queue t q).ptrErr = false ∧ value.toNat % 2 ^ 13 % 4096 < 2 ^ (u.queue t q).depth ∧ q < 4 ∧
      n = (ptrLin (u.queue t q).depth (BitVec.ofNat 13 (value.toNat % 2 ^ 13)) + 2 * 2 ^ (u.queue t q).depth -
        ptrLin (u.queue t q).depth ((u.queue t q).own q)) % (2 * 2 ^ (u.queue t q).depth) ∧ n ≠ 0 ∧ n ≤ (u.queue t q).window q : State → Prop)) 0x100 0 0 1 1 ((State.reset).advance {}) := by
  beta_reduce
  decide +kernel

theorem witness_doorbell_3 :
    (fun (who t q : Nat) (value : Word) => (fun u => u.running 1 = true ∧ q < 6 ∧ t < 32 ∧ u.boundTo who t = true ∧ (u.queue t q).ptrBad = none ∧
      (u.queue t q).depth ≠ 0 ∧ 2 ^ (u.queue t q).depth ≤ value.toNat % 2 ^ 13 % 4096 : State → Prop)) 0x100 0 0 64 ((State.reset).advance {}) := by
  beta_reduce
  decide +kernel

theorem witness_flush :
    (fun (who t q : Nat) (value : Word) => (fun u => u.running 1 = true ∧ q < 6 ∧ t < 32 ∧ u.boundTo who t = true ∧ (u.queue t q).ptrBad = none ∧
      bit value 0 = true : State → Prop)) 0x100 0 0 1 ((State.reset).advance {}) := by
  beta_reduce
  decide +kernel

theorem witness_qStatusClear :
    (fun (who t q : Nat) (value : Word) => (fun u => u.running 1 = true ∧ q < 6 ∧ t < 32 ∧ u.boundTo who t = true ∧
      (u.queue t q).depth ≠ 0 ∧ u.crossedNow (u.queue t q) = none : State → Prop)) 0x100 0 0 0x70000000 ((State.reset).advance {}) := by
  beta_reduce
  decide +kernel

theorem witness_qStatusClear_2 :
    (fun (who t q : Nat) (value : Word) => (fun u => u.running 1 = true ∧ q < 6 ∧ t < 32 ∧ u.boundTo who t = true ∧
      (u.queue t q).depth ≠ 0 ∧ u.crossedNow (u.queue t q) = some false ∧ bit value 30 = true : State → Prop)) 0x100 0 0 0x40000000 ((State.reset.setQueue 0 0 { State.reset.queue 0 0 with crossed := some (0, false), latch := true }).advance {}) := by
  beta_reduce
  decide +kernel

theorem witness_heldReplyPosted :
    (fun (t : Nat) (x : HeldReply) (xs : List HeldReply) => (fun u => u.exists t = true ∧ (u.queue t 4).ptrBad = none ∧ (u.queue t 4).held = x :: xs ∧ x.final = none ∧
      x.slots.length ≤ (u.queue t 4).room : State → Prop)) 0 ({ slots := [echoHdr] }) ([]) ((State.reset.setQueue 0 4 { State.reset.queue 0 4 with held := [{ slots := [echoHdr] }] }).advance {}) := by
  beta_reduce
  decide +kernel

theorem witness_pointerCheck :
    (fun (t q : Nat) (prod : Bool) (ptr inv : Nat) => (fun u => q < 6 ∧ u.exists t = true ∧ (u.queue t q).depth ≠ 0 ∧ (u.queue t q).ptrBad = none ∧ ptr < 2 ^ 13 ∧ inv < 2 ^ 13 ∧
      ptr + inv ≠ 0x1FFF : State → Prop)) 0 0 true 0 0x1FFE ((State.reset).advance {}) := by
  beta_reduce
  decide +kernel

theorem witness_pointerCheck_2 :
    (fun (t q : Nat) (prod : Bool) (ptr inv : Nat) => (fun u => q < 6 ∧ u.exists t = true ∧ (u.queue t q).depth ≠ 0 ∧ (u.queue t q).ptrBad = none ∧ ptr < 2 ^ 13 ∧
      ptr + inv = 0x1FFF : State → Prop)) 0 0 true 0 0x1FFF ((State.reset).advance {}) := by
  beta_reduce
  decide +kernel

theorem witness_registerWrite :
    (fun (who addr width value : Nat) => (fun u => 0x40000000 ≤ addr ∧ addr < 0x40020000 ∧ u.running 1 = true :
      State → Prop)) 0x100 0x40000000 32 5 ((State.reset).advance {}) := by
  beta_reduce
  decide +kernel

theorem witness_registerWrite_2 :
    (fun (who addr width value : Nat) (p : Nat) => (fun u => 0x20000000 ≤ addr ∧ addr < 0x21000000 ∧ u.running 1 = true ∧ partOfReq who = some p ∧ storeOk width = true ∧
      u.spillAt addr = none ∧ u.spillAt (addr + width / 8 - 1) = none ∧ u.inRegion p addr (width / 8) 1 = true ∧ u.vaultAddr addr = false ∧
      (u.writeMem addr (bytesOf (width / 8) value)).ctlHit addr (width / 8) = none : State → Prop)) 0x100 0x20000008 64 5 0 ((State.reset.setPart 0 { block := some (partB 0x01000000), force := some (partB 0x01000000) }).advance {}) := by
  beta_reduce
  decide +kernel

theorem witness_dispatch :
    (fun (q t : Nat) (hd : Hdr) (n : Nat) (cut : Bool) => (fun u => (∀ t < 32, u.serves t = true → u.slotFree t = true) ∧
      (List.range 4).findSome? (fun q => (u.nextAt q).map (fun t => (q, t))) = some (q, t) ∧
      (u.queue t q).ptrBad = none ∧ u.headItem (u.queue t q) = .whole hd n cut : State → Prop)) 3 0 (((mkSlots 0 (itemSlots echoHdr)).headD { bytes := [] }).hdr) 1 false ((withItem0).advance {}) := by
  beta_reduce
  decide +kernel

theorem witness_notbeforeReached :
    (fun u => u.teller = true : State → Prop) ((State.reset).advance {}) := by
  beta_reduce
  decide +kernel

theorem witness_carriageFrameReceived :
    (fun (f : Carriage) (head rest : List Byte) (a : Assoc) (kind : Nat) (items : List (List Byte × List Byte)) (x : List Byte) (xs : List (List Byte)) (v : State) => (fun u => u.alive 3 = true ∧ f.port < 14 ∧ u.peerFor f = none ∧ f.bytes = head ++ rest ∧ head.length = 20 ∧
      (u.tenant (le head 1 1)).assoc = some a ∧ le head 0 1 = 0x10 + kind ∧ f.port = a.port ∧ f.src = a.mac ∧
      (a.cmac = true ∨ f.rxsc = some a.rxsc) ∧
      kind = 0 ∧ a.seqCase (le head 4 4) = .fresh ∧ le head 3 1 ≠ 0 ∧ carItems a.cmac (le head 3 1) rest = some items ∧
      head.length + rest.length + 18 ≤ 9216 ∧ le head 2 1 ≤ 3 ∧
      carVerify (le head 1 1) a head items (checkPtrs (le head 1 1) (le head 2 1) u) = (x :: xs, v) ∧
      (v.queue (le head 1 1) (le head 2 1)).ptrErr = false ∧
      ((x :: xs).map (fun b => (itemSlots b).length)).sum ≤ (v.queue (le head 1 1) (le head 2 1)).room : State → Prop)) ({ port := 2, src := 7, rxsc := some 3, bytes := (bytesOf 1 0x10 ++ bytesOf 1 5 ++ [0, 1] ++ bytesOf 4 1 ++ List.replicate 12 0) ++ echoHdr }) (bytesOf 1 0x10 ++ bytesOf 1 5 ++ [0, 1] ++ bytesOf 4 1 ++ List.replicate 12 0) echoHdr ({ port := 2, mac := 7, rxsc := 3 }) 0 ([(echoHdr, [])]) echoHdr ([]) (checkPtrs 5 0 ((withTen .live).advance {})) ((withTen .live).advance {}) := by
  beta_reduce
  (repeat' apply And.intro) <;> first | decide +kernel | rfl

theorem witness_carriageFrameReceived_2 :
    (fun (f : Carriage) (head rest : List Byte) (a : Assoc) (kind : Nat) => (fun u => u.alive 3 = true ∧ f.port < 14 ∧ u.peerFor f = none ∧ f.bytes = head ++ rest ∧ head.length = 20 ∧
      (u.tenant (le head 1 1)).assoc = some a ∧ le head 0 1 = 0x10 + kind ∧ f.port = a.port ∧ f.src = a.mac ∧
      (a.cmac = true ∨ f.rxsc = some a.rxsc) ∧
      kind = 3 ∧ a.seqCase (le head 4 4) = .fresh ∧ le head 3 1 = 0 ∧ carBare a head rest = true : State → Prop)) ({ port := 2, src := 7, rxsc := some 3, bytes := (bytesOf 1 0x13 ++ bytesOf 1 5 ++ [0, 0] ++ bytesOf 4 1 ++ List.replicate 8 0 ++ bytesOf 4 1) ++ [] }) (bytesOf 1 0x13 ++ bytesOf 1 5 ++ [0, 0] ++ bytesOf 4 1 ++ List.replicate 8 0 ++ bytesOf 4 1) ([]) ({ port := 2, mac := 7, rxsc := 3, txSeq := 2, outs := [{ fseq := 1, kind := 1, slots := 1, bytes := [0x11, 5] }] }) 3 (({ (withTen .live).setAssoc 5 ({ port := 2, mac := 7, rxsc := 3, txSeq := 2, outs := [{ fseq := 1, kind := 1, slots := 1, bytes := [0x11, 5] }] }) with clk := 1000000 }).advance {}) := by
  beta_reduce
  decide +kernel

theorem witness_carriageFrameReceived_3 :
    (fun (f : Carriage) (head rest : List Byte) (a : Assoc) (kind : Nat) => (fun u => u.alive 3 = true ∧ f.port < 14 ∧ u.peerFor f = none ∧ f.bytes = head ++ rest ∧ head.length = 20 ∧
      (u.tenant (le head 1 1)).assoc = some a ∧ le head 0 1 = 0x10 + kind ∧ f.port = a.port ∧ f.src = a.mac ∧
      (a.cmac = true ∨ f.rxsc = some a.rxsc) ∧
      kind = 0 ∧ a.seqCase (le head 4 4) = .seen : State → Prop)) ({ port := 2, src := 7, rxsc := some 3, bytes := (bytesOf 1 0x10 ++ bytesOf 1 5 ++ [0, 1] ++ bytesOf 4 1 ++ List.replicate 12 0) ++ [] }) (bytesOf 1 0x10 ++ bytesOf 1 5 ++ [0, 1] ++ bytesOf 4 1 ++ List.replicate 12 0) ([]) ({ port := 2, mac := 7, rxsc := 3, rxHigh := 1 }) 0 (((withTen .live).setAssoc 5 { port := 2, mac := 7, rxsc := 3, rxHigh := 1 }).advance {}) := by
  beta_reduce
  decide +kernel

theorem witness_carriageFrameReceived_4 :
    (fun (f : Carriage) (head rest : List Byte) (a : Assoc) (kind : Nat) => (fun u => u.alive 3 = true ∧ f.port < 14 ∧ u.peerFor f = none ∧ f.bytes = head ++ rest ∧ head.length = 20 ∧
      (u.tenant (le head 1 1)).assoc = some a ∧ le head 0 1 = 0x10 + kind ∧ f.port = a.port ∧ f.src = a.mac ∧
      (a.cmac = true ∨ f.rxsc = some a.rxsc) ∧
      (kind = 0 ∨ kind = 3) ∧ a.seqCase (le head 4 4) = .replay : State → Prop)) ({ port := 2, src := 7, rxsc := some 3, bytes := (bytesOf 1 0x10 ++ bytesOf 1 5 ++ [0, 1] ++ bytesOf 4 1 ++ List.replicate 12 0) ++ [] }) (bytesOf 1 0x10 ++ bytesOf 1 5 ++ [0, 1] ++ bytesOf 4 1 ++ List.replicate 12 0) ([]) ({ port := 2, mac := 7, rxsc := 3, rxHigh := 100 }) 0 (((withTen .live).setAssoc 5 { port := 2, mac := 7, rxsc := 3, rxHigh := 100 }).advance {}) := by
  beta_reduce
  decide +kernel

theorem witness_carriageFrameReceived_5 :
    (fun (f : Carriage) (head rest : List Byte) => (fun u => u.alive 3 = true ∧ f.port < 14 ∧ u.peerFor f = none ∧ f.bytes = head ++ rest ∧ head.length = 20 ∧
      (u.tenant (le head 1 1)).assoc = none ∧ u.exists (le head 1 1) = true : State → Prop)) ({ port := 2, src := 7, bytes := 0x10 :: List.replicate 19 0 }) (0x10 :: List.replicate 19 0) ([]) ((State.reset).advance {}) := by
  beta_reduce
  decide +kernel

theorem witness_carriageSend :
    (fun (t : Nat) (a : Assoc) (x : List Byte × Nat) (xs items : List (List Byte × Nat)) => (fun u => u.alive 3 = true ∧ u.running 2 = true ∧ (u.tenant t).assoc = some a ∧ u.unsent t 4 a = x :: xs ∧
      items = (fitItems ((u.sp a.port).mtu - 42) (if a.cmac then 8 else 0) (x :: xs)).take 255 : State → Prop)) 5 ({ port := 2, mac := 7, rxsc := 3 }) (((itemSlots echoHdr).headD [], 1)) ([]) ([((itemSlots echoHdr).headD [], 1)]) (((withTen .live).addSlots 5 4 (mkSlots 0 (itemSlots echoHdr))).advance {}) := by
  beta_reduce
  decide +kernel

theorem witness_carriageSend_2 :
    (fun (t : Nat) (a : Assoc) (x : List Byte × Nat) (xs items : List (List Byte × Nat)) => (fun u => u.alive 3 = true ∧ u.running 2 = true ∧ (u.tenant t).assoc = some a ∧ u.unsent t 4 a = [] ∧ u.unsent t 5 a = x :: xs ∧
      items = (fitItems ((u.sp a.port).mtu - 42) (if a.cmac then 8 else 0) (x :: xs)).take 255 : State → Prop)) 5 ({ port := 2, mac := 7, rxsc := 3 }) (((itemSlots echoHdr).headD [], 1)) ([]) ([((itemSlots echoHdr).headD [], 1)]) (((withTen .live).addSlots 5 5 (mkSlots 0 (itemSlots echoHdr))).advance {}) := by
  beta_reduce
  decide +kernel

theorem witness_carriageRetransmit :
    (fun (t fseq : Nat) (a : Assoc) (o : OutFrame) => (fun u => u.alive 3 = true ∧ u.running 2 = true ∧ t < 32 ∧
      (u.tenant t).assoc = some a ∧ a.dueOut fseq u.clk = some o ∧ o.sends < 8 : State → Prop)) 5 1
      ({ port := 2, mac := 7, rxsc := 3, txSeq := 2, outs := [{ fseq := 1, kind := 1, slots := 1, bytes := [0x11, 5] }] })
      ({ fseq := 1, kind := 1, slots := 1, bytes := [0x11, 5] })
      (({ (withTen .live).setAssoc 5 ({ port := 2, mac := 7, rxsc := 3, txSeq := 2, outs := [{ fseq := 1, kind := 1, slots := 1, bytes := [0x11, 5] }] }) with clk := 1000000 }).advance
      {}) := by
  beta_reduce
  decide +kernel

theorem witness_carriageRetransmit_2 :
    (fun (t fseq : Nat) (a : Assoc) (o : OutFrame) => (fun u => u.alive 3 = true ∧ t < 32 ∧ (u.tenant t).assoc =
      some a ∧ a.dueOut fseq u.clk = some o ∧ 8 ≤ o.sends : State → Prop)) 5 1
      ({ port := 2, mac := 7, rxsc := 3, txSeq := 2, outs := [{ fseq := 1, kind := 1, slots := 1, bytes := [0x11, 5], sends := 8 }] })
      ({ fseq := 1, kind := 1, slots := 1, bytes := [0x11, 5], sends := 8 })
      (({ (withTen .live).setAssoc 5 ({ port := 2, mac := 7, rxsc := 3, txSeq := 2, outs := [{ fseq := 1, kind := 1, slots := 1, bytes := [0x11, 5], sends := 8 }] }) with clk := 1000000 }).advance
      {}) := by
  beta_reduce
  decide +kernel

theorem witness_carriageRetransmit_3 :
    (fun (t fseq : Nat) (p : Nat) (x : ImgPeer) (o : OutFrame) => (fun u => u.alive 3 = true ∧ u.running 2 = true ∧
      t = 32 + p ∧ u.peer? p = some x ∧ x.assoc.dueOut fseq u.clk = some o ∧ o.sends < 8 : State → Prop)) 36 1 4
      ({ words := [0], assoc := { port := 2, mac := 7, rxsc := 3, txSeq := 2, outs := [{ fseq := 1, kind := 1, slots := 1, bytes := [0x11, 5] }] } })
      ({ fseq := 1, kind := 1, slots := 1, bytes := [0x11, 5] })
      (({ State.reset.setPeer 4 { words := [0], assoc := { port := 2, mac := 7, rxsc := 3, txSeq := 2, outs := [{ fseq := 1, kind := 1, slots := 1, bytes := [0x11, 5] }] } } with clk := 1000000 }).advance
      {}) := by
  beta_reduce
  decide +kernel

theorem witness_clockLoss :
    (fun (isl : Nat) => (fun u => isl < 9 ∧ (u.island isl).gate.st = .run ∧ (u.island isl).clkLoss = false : State →
      Prop)) 2 ((State.reset).advance {}) := by
  beta_reduce
  decide +kernel

theorem witness_clockLoss_2 :
    (fun (isl : Nat) (t : Nat) => (fun u => isl < 9 ∧ (u.island isl).gate.st = .run ∧ (u.island isl).clkLoss = true
      ∧ (u.island isl).runAt = some t ∧ u.clk < t + 1000000000 : State → Prop)) 2 5 ((State.reset.setIsland 2
      { State.reset.island 2 with clkLoss := true, runAt := some 5 }).advance {}) := by
  beta_reduce
  decide +kernel

theorem witness_clockReturn :
    (fun (isl : Nat) => (fun u => isl < 9 ∧ (u.island isl).lossHold = true ∧ (u.island isl).gate.since + 100000 ≤
      u.clk : State → Prop)) 2 (((fun (s : State) => { s with clk := 100000 }) (State.reset.setIsland 2
      { gate := { st := .powerGated }, lossHold := true })).advance {}) := by
  beta_reduce
  decide +kernel

theorem witness_quiescenceReached :
    (fun (fn : Func) (p : Nat) => (fun u => fn = .port p ∧ p < 16 ∧ (u.gate fn).st = .quiescing ∧ (u.sp p).sending =
      none : State → Prop)) (.port 2) 2 ((State.reset.setGate (.port 2) { st := .quiescing }).advance {}) := by
  beta_reduce
  decide +kernel

theorem witness_quiescenceReached_2 :
    (fun (fn : Func) (n : Nat) => (fun u => fn = .island n ∧ n < 9 ∧ (u.gate fn).st = .quiescing ∧ (u.gate fn).deep
      = false ∧ u.drained fn = true : State → Prop)) (.island 2) 2 ((State.reset.setGate (.island 2)
      { st := .quiescing }).advance {}) := by
  beta_reduce
  decide +kernel

theorem witness_quiescenceReached_3 :
    (fun (fn : Func) (n : Nat) => (fun u => fn = .island n ∧ n < 9 ∧ (u.gate fn).st = .quiescing ∧ (u.gate fn).deep
      = true ∧ u.drained fn = true : State → Prop)) (.island 2) 2 ((State.reset.setGate (.island 2)
      { st := .quiescing, deep := true }).advance {}) := by
  beta_reduce
  decide +kernel

theorem witness_quiescenceReached_4 :
    (fun (fn : Func) (n : Nat) => (fun u => fn = .can n ∧ n < 12 ∧ (u.gate fn).st = .quiescing ∧ (u.canc n).sending
      = none : State → Prop)) (.can 2) 2 ((State.reset.setGate (.can 2) { st := .quiescing }).advance {}) := by
  beta_reduce
  decide +kernel

theorem witness_quiescenceReached_5 :
    (fun (fn : Func) (n : Nat) => (fun u => fn = .lin n ∧ n < 8 ∧ (u.gate fn).st = .quiescing ∧ (u.lin n).header =
      none : State → Prop)) (.lin 2) 2 ((State.reset.setGate (.lin 2) { st := .quiescing }).advance {}) := by
  beta_reduce
  decide +kernel

theorem witness_forcedShutdown :
    (fun (fn : Func) (n : Nat) => (fun u => fn = .island n ∧ n < 9 ∧ (u.gate fn).st = .quiescing ∧ (u.gate fn).since
      + quietBound fn ≤ u.clk : State → Prop)) (.island 2) 2 (((fun (s : State) => { s with clk := 200000 })
      (State.reset.setGate (.island 2) { st := .quiescing })).advance {}) := by
  beta_reduce
  decide +kernel

theorem witness_forcedShutdown_2 :
    (fun (fn : Func) (p : Nat) => (fun u => fn = .port p ∧ p < 16 ∧ (u.gate fn).st = .quiescing ∧ (u.gate fn).since
      + quietBound fn ≤ u.clk : State → Prop)) (.port 12) 12 (((fun (s : State) => { s with clk := 20000000 })
      (State.reset.setGate (.port 12) { st := .quiescing })).advance {}) := by
  beta_reduce
  decide +kernel

theorem witness_islandRunReached :
    (fun (fn : Func) (p : Nat) => (fun u => fn = .port p ∧ p < 16 ∧ (u.gate fn).st = .starting ∧ u.alive 2 = true ∧
      u.funcTested fn = false : State → Prop)) (.port 2) 2 ((State.reset.setGate (.port 2)
      { st := .starting }).advance {}) := by
  beta_reduce
  decide +kernel

theorem witness_islandRunReached_2 :
    (fun (fn : Func) (n : Nat) => (fun u => fn = .can n ∧ n < 12 ∧ (u.gate fn).st = .starting ∧ u.alive 5 = true ∧
      u.funcTested fn = false : State → Prop)) (.can 2) 2 ((State.reset.setGate (.can 2)
      { st := .starting }).advance {}) := by
  beta_reduce
  decide +kernel

theorem witness_islandRunReached_3 :
    (fun (fn : Func) (n : Nat) => (fun u => fn = .lin n ∧ n < 8 ∧ (u.gate fn).st = .starting ∧ u.alive 5 = true ∧
      u.funcTested fn = false : State → Prop)) (.lin 2) 2 ((State.reset.setGate (.lin 2)
      { st := .starting }).advance {}) := by
  beta_reduce
  decide +kernel

theorem witness_islandRunReached_4 :
    (fun (fn : Func) (n : Nat) => (fun u => fn = .island n ∧ n < 9 ∧ (u.gate fn).st = .starting : State → Prop))
      (.island 2) 2 ((State.reset.setGate (.island 2) { st := .starting }).advance {}) := by
  beta_reduce
  decide +kernel

theorem witness_keyInactive :
    (fun u => u.probe .key = 1 : State → Prop) ((setProbe .key 1 State.reset).advance {}) := by
  beta_reduce
  decide +kernel

theorem witness_tallyAlarmFire :
    (fun u => u.tim.alarmDue = true ∧ u.pow.mode = .run : State → Prop)
      (({ State.reset with tim := { State.reset.tim with alarm := some 5, alarmDue := true } }).advance {}) := by
  beta_reduce
  decide +kernel

theorem witness_wake :
    (fun (cause : Nat) (src : WakeSrc) => (fun u =>
      let v := wakeReady cause src.idx u
      cause = 1 ∧ v.wakeArmed cause src.idx = true ∧ (v.ring src.idx).swEn = true ∧ v.releaseWake 1 src.idx = false ∧
      (v.ring src.idx).decRun = false : State → Prop)) 1 ({ idx := 0 }) (((withRing .busSleep { words := [] }).setRing 0 { (withRing .busSleep { words := [] }).ring 0 with words := [0x01010700, 0x500, 0x520, 0x00190064, 0x140F] }).advance {}) := by
  beta_reduce
  decide +kernel

theorem witness_wake_2 :
    (fun (cause : Nat) (src : WakeSrc) => (fun u => cause = 7 ∧ u.pow.mode = .sleep ∧ u.nmg.wakePend = false ∧ 40 ≤ src.idx ∧ src.idx < 48 ∧
      bit u.nmg.wake1 (src.idx - 40) = true ∧ u.fiTakes src.idx (1 - (u.fin src.idx).raw) = true : State → Prop)) 7 ({ idx := 40 }) (((fun (s : State) => { s with pow := { s.pow with mode := .sleep }, nmg := { s.nmg with wake1 := 1 } })
      (setProbe (.fiMv 40) 13000 State.reset)).advance {}) := by
  beta_reduce
  decide +kernel

theorem witness_auditEnd :
    (fun (r : AuditRun) => (fun u => u.aud.run = some r ∧ r.left = [] : State → Prop)) ({ kind := 2, left := [] })
      (({ State.reset with aud := { State.reset.aud with run := some { kind := 2, left := [] } } }).advance {}) :=
      by
  beta_reduce
  decide +kernel

theorem witness_sleepEntry :
    (fun (t : Nat) => (fun u => u.pow.mode = .run ∧ u.parked = true ∧ u.pow.quietSince = some t ∧ t + u.image.tsleep
      * 1000000000 ≤ u.clk : State → Prop)) 0 (((let s : State := State.reset;
      { s with clk := s.image.tsleep * 1000000000, pow := { s.pow with quietSince := some 0 } })).advance {}) := by
  beta_reduce
  decide +kernel

theorem witness_sleepEntryCheck :
    (fun u => u.pow.mode = .entering 1 ∧ u.pow.since + 100000000 ≤ u.clk ∧ u.nmg.wakePend = false ∧
      u.parked = true : State → Prop) (((let s : State := State.reset; { s with clk := 100000000, pow := { s.pow with mode := .entering 1 } })).advance {}) := by
  beta_reduce
  decide +kernel

theorem witness_sleepEntryCheck_2 :
    (fun u => u.pow.mode = .entering 1 ∧ u.pow.since + 100000000 ≤ u.clk ∧ (u.nmg.wakePend = true ∨ u.parked =
      false) : State → Prop) (((let s : State := State.reset;
      { s with clk := 100000000, pow := { s.pow with mode := .entering 1 }, nmg := { s.nmg with wakePend := true } })).advance
      {}) := by
  beta_reduce
  decide +kernel

theorem witness_sleepReached :
    (fun u => u.pow.mode = .entering 2 ∧ u.aud.run = none ∧ u.nmg.wakePend = false ∧ u.alive 0 = false ∧
      u.inflight.all (fun c => c.phase == .held || c.phase == .crossing || ((opFind c.opcode).bind (·.isl)).any u.quietLate) = true ∧
      u.islandsQuiet = true : State → Prop) (((let s : State := State.reset.setGate (.island 0) { st := .clockGated }; { s with aud := {}, pow := { s.pow with mode := .entering 2 } })).advance {}) := by
  beta_reduce
  decide +kernel

theorem witness_dormantEntry :
    (fun u => u.pow.mode = .sleep ∧ u.nmg.wakePend = false ∧ u.image.tdorm ≠ 0 ∧
      u.pow.since + u.image.tdorm * 3600000000000 ≤ u.clk : State → Prop) (((let s : State := State.reset; { s with clk := 3600000000000, image := { s.image with tdorm := 1 }, pow := { s.pow with mode := .sleep } })).advance {}) := by
  beta_reduce
  decide +kernel

theorem witness_aonSupplyLoss :
    (fun u => (u.pow.mode = .sleep ∨ u.pow.mode = .dormant) ∧ u.vhfDown = true : State → Prop) (((fun (s : State) =>
      { s with pow := { s.pow with mode := .sleep } }) (setProbe .vhfMv 5000 State.reset)).advance {}) := by
  beta_reduce
  exact ⟨Or.inl rfl, by decide +kernel⟩

theorem witness_start :
    (fun (kind : Nat) => (fun u => kind = 0 ∧ u.pow.mode = .off ∧ 5700 ≤ u.probe .vhfMv : State → Prop)) 0 (((fun (s
      : State) => { s with pow := { s.pow with mode := .off } }) (setProbe .vhfMv 12000 State.reset)).advance {}) :=
      by
  beta_reduce
  decide +kernel

theorem witness_start_2 :
    (fun (kind : Nat) => (fun u => kind = 1 ∧ u.pow.mode = .sleep ∧ u.nmg.wakePend = true : State → Prop)) 1 (((let
      s : State := State.reset;
      { s with pow := { s.pow with mode := .sleep }, nmg := { s.nmg with wakePend := true } })).advance {}) := by
  beta_reduce
  decide +kernel

theorem witness_start_3 :
    (fun (kind : Nat) => (fun u => kind = 2 ∧ u.pow.mode = .dormant ∧ u.nmg.wakePend = true : State → Prop)) 2
      (((let s : State := State.reset;
      { s with pow := { s.pow with mode := .dormant }, nmg := { s.nmg with wakePend := true } })).advance {}) := by
  beta_reduce
  decide +kernel

theorem witness_start_4 :
    (fun (kind : Nat) => (fun u => kind = 3 ∧ u.diesUp = true ∧ u.yar.logicReset = true : State → Prop)) 3 (((let s
      : State := State.reset; { s with yar := { s.yar with logicReset := true } })).advance {}) := by
  beta_reduce
  decide +kernel

theorem witness_brownout :
    (fun u => u.diesUp = true ∧ 20000 ≤ u.pow.vhfLow : State → Prop)
      (({ State.reset with pow := { State.reset.pow with vhfLow := 20000 } }).advance {}) := by
  beta_reduce
  decide +kernel

theorem witness_frameReceived :
    (fun (fs : List RxFrame) => (fun u => u.running 2 = true : State → Prop))
      ([{ port := 3, frame := { dst := 6, src := 2, etype := 0x800 } },
      { port := 2, frame := { dst := 6, src := 2, etype := 0x800 } }]) ((withLink { link := true }).advance {}) :=
      by
  beta_reduce
  decide +kernel

theorem witness_frameReceived_2 :
    (fun (fs : List RxFrame) (f : RxFrame) => (fun u => fs = [f] ∧ f.port < 14 ∧ u.running 2 = true ∧ (settleNet
      u).linked f.port = true ∧ f.sec = none ∧ frameLen f.frame < 64 : State → Prop))
      ([{ port := 2, frame := { dst := 6, src := 2, etype := 0x800 } }])
      ({ port := 2, frame := { dst := 6, src := 2, etype := 0x800 } }) ((withLink { link := true }).advance {}) :=
      by
  beta_reduce
  decide +kernel

theorem witness_frameReceived_3 :
    (fun (fs : List RxFrame) (f : RxFrame) => (fun u => fs = [f] ∧ f.port < 14 ∧ u.running 2 = true ∧ (settleNet u).linked f.port = true ∧ f.sec = none ∧ 64 ≤ frameLen f.frame ∧
      frameLen f.frame ≤ ((settleNet u).sp f.port).mtu ∧ f.fcsOk = true ∧ (settleNet u).macOn f.port = false : State → Prop)) ([{ port := 2, frame := { dst := 6, src := 2, etype := 0x800, payload := List.replicate 82 0 } }]) ({ port := 2, frame := { dst := 6, src := 2, etype := 0x800, payload := List.replicate 82 0 } }) ((withLink { link := true }).advance {}) := by
  beta_reduce
  decide +kernel

theorem witness_frameReceived_4 :
    (fun (fs : List RxFrame) (f : RxFrame) => (fun u => fs = [f] ∧ f.port < 14 ∧ u.running 2 = true ∧ (settleNet u).linked f.port = true ∧ f.sec = none ∧ 64 ≤ frameLen f.frame ∧
      ((settleNet u).sp f.port).mtu < frameLen f.frame : State → Prop)) ([{ port := 2, frame := { dst := 6, src := 2, etype := 0x800, payload := List.replicate 82 0 } }]) ({ port := 2, frame := { dst := 6, src := 2, etype := 0x800, payload := List.replicate 82 0 } }) ((withLink { link := true, conf := [0, 64, 0xFAC681, 1] }).advance {}) := by
  beta_reduce
  decide +kernel

theorem witness_frameReceived_5 :
    (fun (fs : List RxFrame) (f : RxFrame) => (fun u => fs = [f] ∧ f.port < 14 ∧ u.running 2 = true ∧ (settleNet u).linked f.port = true ∧ f.sec = none ∧ 64 ≤ frameLen f.frame ∧
      frameLen f.frame ≤ ((settleNet u).sp f.port).mtu ∧ f.fcsOk = false : State → Prop)) ([{ port := 2, fcsOk := false, frame := { dst := 6, src := 2, etype := 0x800, payload := List.replicate 82 0 } }]) ({ port := 2, fcsOk := false, frame := { dst := 6, src := 2, etype := 0x800, payload := List.replicate 82 0 } }) ((withLink { link := true }).advance {}) := by
  beta_reduce
  decide +kernel

theorem witness_frameQueued :
    (fun (id : Nat) (f : Stored) (p tc : Nat) => (fun u => u.queueNext id = true ∧ (settleNet u).stored? id = some f
      ∧ f.dests = [(p, tc)] ∧ f.cut = [] : State → Prop)) 4 ({ frame4 with dests := [(2, 3)] }) 2 3 ((withFrame {}
      [(2, 3)]).advance {}) := by
  beta_reduce
  decide +kernel

theorem witness_transmissionStart :
    (fun (port : Nat) (tc id : Nat) (f : Stored) => (fun u => port < 16 ∧ u.running 2 = true ∧ u.linked port = true ∧ (u.sp port).sending = none ∧
      [7, 6, 5, 4, 3, 2, 1, 0].find? (fun c => pick port c (foldCredits port (settleNet u)) != .pass) = some tc ∧
      pick port tc (foldCredits port (settleNet u)) = .send id ∧ (foldCredits port (settleNet u)).stored? id = some f : State → Prop)) 2 3 4 frame4 ((withFrame { queue := [(3, [4])], held := [(4, 0), (4, 1)] } []).advance {}) := by
  beta_reduce
  decide +kernel

theorem witness_transmissionEnd :
    (fun (port : Nat) (t : Sending) (f : Stored) => (fun u => port < 16 ∧ (u.sp port).sending.isSome = true ∧ ((foldCredits port u).sp port).sending = some t ∧
      (foldCredits port u).stored? t.id = some f ∧ port ≠ 14 ∧ t.an = none : State → Prop)) 2 ({ id := 4, tc := 3 }) frame4 ((withFrame { sending := some { id := 4, tc := 3 } } []).advance {}) := by
  beta_reduce
  decide +kernel

theorem witness_transmissionEnd_2 :
    (fun (port : Nat) (t : Sending) (f : Stored) (an : Nat) => (fun u => port < 16 ∧ (u.sp port).sending.isSome = true ∧ ((foldCredits port u).sp port).sending = some t ∧
      (foldCredits port u).stored? t.id = some f ∧ port < 14 ∧ t.an = some an : State → Prop)) 2 ({ id := 4, tc := 3, an := some 0 }) frame4 0 ((withFrame { sending := some { id := 4, tc := 3, an := some 0 } } []).advance {}) := by
  beta_reduce
  decide +kernel

theorem witness_agedHeadCheck :
    (fun (port : Nat) => (fun u => port < 16 ∧ u.linked port = false : State → Prop)) 2 ((State.reset).advance {})
      := by
  beta_reduce
  decide +kernel

theorem witness_sqpWrite :
    (fun (who kind idx sqp : Nat) (v : Vi) (p : Nat) => (fun u => u.running 1 = true ∧ u.vi kind idx = some v ∧ partOfReq who = some p ∧
      u.inRegion p (pageAddr (v.ctlPage kind)) 2 1 = true ∧ u.vaultAddr (pageAddr (v.ctlPage kind)) = false : State → Prop)) 0x100 1 3 5 ({ owner := 0, kindWords := [0, 0, 0, 0] }) 0 ((withInst 1 3 { owner := 0, kindWords := [0, 0, 0, 0] }).advance {}) := by
  beta_reduce
  decide +kernel

theorem witness_sqpWrite_2 :
    (fun (who kind idx sqp : Nat) (v : Vi) (p : Nat) => (fun u => u.running 1 = true ∧ u.vi kind idx = some v ∧ partOfReq who = some p ∧
      u.inRegion p (pageAddr (v.ctlPage kind)) 2 1 = false : State → Prop)) 0x107 1 3 5 ({ owner := 0, kindWords := [0, 0, 0, 0] }) 7 ((withInst 1 3 { owner := 0, kindWords := [0, 0, 0, 0] }).advance {}) := by
  beta_reduce
  decide +kernel

theorem witness_transferComplete :
    (fun (x : RingRef) (badAt : Option Nat) (v : Vi) (d : Fetched) => (fun u => x.kind = 2 ∧ u.xferReady 2 x.idx x.index = true ∧ u.vi 2 x.idx = some v ∧ v.resetting = false ∧
      v.flying x.index = some d ∧ xferOk v.owner (wordBytes d.entry) u = true ∧ u.xferBad (wordBytes d.entry) badAt = none : State → Prop)) ({ kind := 2, idx := 0, index := 0 }) none ({ owner := 0, fetched := [xferD] }) xferD ((withInst 2 0 { owner := 0, fetched := [xferD] }).advance {}) := by
  beta_reduce
  decide +kernel

theorem witness_transferComplete_2 :
    (fun (x : RingRef) (badAt : Option Nat) (n : Nat) (v : Vi) (d : Fetched) => (fun u => x.kind = 2 ∧ u.xferReady 2 x.idx x.index = true ∧ u.vi 2 x.idx = some v ∧ v.resetting = false ∧
      v.flying x.index = some d ∧ xferOk v.owner (wordBytes d.entry) u = true ∧ u.xferBad (wordBytes d.entry) badAt = some n : State → Prop)) ({ kind := 2, idx := 0, index := 0 }) (some 4) 4 ({ owner := 0, fetched := [xferD] }) xferD ((withInst 2 0 { owner := 0, fetched := [xferD] }).advance {}) := by
  beta_reduce
  decide +kernel

theorem witness_transferComplete_3 :
    (fun (x : RingRef) (badAt : Option Nat) (v : Vi) (d : Fetched) => (fun u => u.xferReady x.kind x.idx x.index = true ∧ u.vi x.kind x.idx = some v ∧ v.resetting = true ∧
      v.flying x.index = some d : State → Prop)) ({ kind := 2, idx := 0, index := 0 }) none ({ owner := 0, resetting := true, fetched := [xferD] }) xferD ((withInst 2 0 { owner := 0, resetting := true, fetched := [xferD] }).advance {}) := by
  beta_reduce
  decide +kernel

end Sys2Proof.Tests
end

section
/-!
SUPPORT. What a step and a row answer, in the form that claims about every step and about one row use.
-/

namespace Sys2Proof.Machine

/-- What a step can do: idle on an empty queue, or run the front command, which keeps what has been kept since its
elapsed time. -/
theorem step_cases {s t : State} (h : step s = .next t) :
    (s.pending = [] ∧ t = s) ∨
    ∃ c cs e, s.pending = c :: cs ∧ Keep (({ s with pending := cs } : State).advance e) t := by
  cases hp : s.pending with
  | nil =>
    simp only [step, hp, Host.Outcome.next.injEq] at h
    exact .inl ⟨rfl, h.symm⟩
  | cons c cs =>
    obtain ⟨e, u, hu, hk⟩ := exec_keep c { s with pending := cs }
    simp only [step, hp, hu, Host.Outcome.next.injEq] at h
    exact .inr ⟨c, cs, e, rfl, h ▸ hk⟩

/-- An event row happens where its guard holds and its step is the effect. -/
theorem happens_of_event {c : Stim → Instr} {g : State → Bool} {k f : State → State} {cond : State → Prop}
    (hc : ∀ e s, exec (c e) s = event e s g k) (h : ∀ u, cond u → g u = true ∧ k u = f u) : Happens c cond f := by
  rintro e s u rfl hu
  obtain ⟨hg, hk⟩ := h _ hu
  rw [hc, event_true hg, hk]

/-- Settles O4: every command keeps the fuses that stood when its elapsed time was over (`step_cases`), and elapsed time
leaves the identity alone. -/
theorem identityNeverChanges : Obligations.IdentityNeverChanges := by
  intro s t h
  rcases step_cases h with ⟨-, rfl⟩ | ⟨c, cs, e, -, hk⟩
  · exact ⟨rfl, rfl⟩
  · have hi := advance_ident { s with pending := cs } e
    exact ⟨hk.primary.trans (by rw [hi]), hk.copy.trans (by rw [hi])⟩

end Sys2Proof.Machine
end

section
/-!
SUPPORT. Stores to byte memory (log 2): what memory reads after a number is stored, and when a register write and a
write of message RAM store one (15 R452, 12 R375).
-/

namespace Sys2Proof.Machine

/-- A byte of a number, least significant first. -/
theorem bytesOf_getD (k : Nat) : ∀ n i : Nat, i < k → (bytesOf k n).getD i 0 = BitVec.ofNat 8 (n / 256 ^ i) := by
  induction k with
  | zero => exact fun _ i h => absurd h (Nat.not_lt_zero i)
  | succ k ih =>
    intro n i h
    cases i with
    | zero => simp [bytesOf]
    | succ i =>
      have e : n / 256 ^ (i + 1) = n / 256 / 256 ^ i := by rw [Nat.div_div_eq_div_mul, Nat.pow_succ']
      rw [e, ← ih (n / 256) i (Nat.lt_of_succ_lt_succ h)]
      simp [bytesOf]

/-- Outside the bytes of a number that is stored, memory reads as before. -/
theorem readByte_store_out (s : State) (a k n : Nat) {b : Nat} (h : b < a ∨ a + k ≤ b) :
    readByte (s.writeMem a (bytesOf k n)).mem b = readByte s.mem b :=
  readByte_writeBytes_out _ _ _ _ (by rwa [bytesOf_length])

/-- The bytes of a number that is stored read least significant first. -/
theorem readByte_store_in {s : State} (hs : Safe s) (a k n : Nat) {i : Nat} (h : i < k) :
    readByte (s.writeMem a (bytesOf k n)).mem (a + i) = BitVec.ofNat 8 (n / 256 ^ i) := by
  rw [← bytesOf_getD k n i h]
  exact readByte_writeBytes_in _ _ _ hs (by rwa [bytesOf_length])

/-- Elapsed time keeps memory's canonical form. -/
theorem advance_safe {s : State} (e : Stim) (h : Safe s) : Safe (s.advance e) := by
  rw [Safe, advance_mem]
  exact h

/-- A register write always happens (00 R13). -/
theorem exec_registerWrite (e : Stim) (who addr width value : Nat) (s : State) :
    exec (.registerWrite e who addr width value) s = event e s (fun _ => true) (regWrite who addr width value) := rfl

/-- A write of message RAM happens while BSX runs (12 R375, R378). -/
theorem exec_messageRamWrite (e : Stim) (who can off : Nat) (v : Word) (s : State) :
    exec (.messageRamWrite e who can off v) s =
      event e s (fun s => decide (can < 12) && s.running 5 && decide (off < 0xC000)) (fun s =>
        if off % 4 ≠ 0 then logFirst 2 0x30 (s.canc can).owner (winBase can + off) s
        else canWin who can (ramWrite can off v) s) := rfl

/-- A partition's write to system SRAM, outside the spill regions and inside its own regions, that touches no control
block stores its bytes (15 R452). -/
theorem sramWrite_stores {p addr width value : Nat} {s : State} (h1 : s.spillAt addr = none)
    (h2 : s.spillAt (addr + width / 8 - 1) = none) (hr : s.inRegion p addr (width / 8) 1 = true)
    (hv : s.vaultAddr addr = false) (hc : (s.writeMem addr (bytesOf (width / 8) value)).ctlHit addr (width / 8) = none) :
    sramWrite p addr width value s = s.writeMem addr (bytesOf (width / 8) value) := by
  simp [sramWrite, valueBytes, h1, h2, hr, hv, hc]

/-- A partition's write of a store's width to an address of system SRAM goes there while its island runs (00 R10). -/
theorem regWrite_sram {who addr width value p : Nat} {s : State} (hl : 0x20000000 ≤ addr) (hu : addr < 0x21000000)
    (hr : s.running 1 = true) (hp : partOfReq who = some p) (hw : storeOk width = true) :
    regWrite who addr width value s = sramWrite p addr width value s := by
  have n4 : ¬ 0x40000000 ≤ addr := by omega
  have n7 : ¬ 0x70000000 ≤ addr := by omega
  have n6 : ¬ 0x60000000 ≤ addr := by omega
  simp [regWrite, n4, n7, n6, hp, hw, hl, hu, hr]

/-- A write of an aligned word outside the buffers of a message RAM stores its bytes (12 R375). -/
theorem ramWrite_stores {n off : Nat} {v : Word} {s : State} (hl : 0x0C00 ≤ off)
    (hg : ((s.canc n).bufAt off).bind (s.canc n).groupOf = none) :
    ramWrite n off v s = s.writeMem (winBase n + off) (bytesOf 4 v.toNat) := by
  have hn : ¬ off < 0x0C00 := Nat.not_lt.2 hl
  simp [ramWrite, hg, hn]

/-- The bound requester's access to a controller's window passes (12 R378). -/
theorem canWin_bound {who n : Nat} {f : State → State} {s : State} (h : s.boundTo who (s.canc n).owner = true) :
    canWin who n f s = f s := by
  simp [canWin, h]

/-- What a row answers that stores a number after its elapsed time. -/
theorem row_stores {i : Instr} {e : Stim} {s : State} {a k n : Nat}
    (h : exec i s = .next ((s.advance e).writeMem a (bytesOf k n))) :
    ∃ t, exec i s = .next t ∧ (∀ b, b < a ∨ a + k ≤ b → readByte t.mem b = readByte s.mem b) ∧
      (Safe s → ∀ j < k, readByte t.mem (a + j) = BitVec.ofNat 8 (n / 256 ^ j)) := by
  refine ⟨_, h, fun b hb => ?_, fun hs j hj => readByte_store_in (advance_safe e hs) a k n hj⟩
  rw [readByte_store_out _ _ _ _ hb, advance_mem]

/-- Settles O14: both rows store the bytes of a number and nothing else. -/
theorem storesTouchOnlyTheirBytes : Obligations.StoresTouchOnlyTheirBytes := by
  constructor
  · rintro e who addr width value p s _ rfl hl hu hr hp hw h1 h2 hin hv hc
    refine row_stores (e := e) ?_
    rw [exec_registerWrite, event_true rfl, regWrite_sram hl hu hr hp hw, sramWrite_stores h1 h2 hin hv hc]
  · rintro e who can off value s _ rfl hcan hr hb hl hu ha hg
    refine row_stores (e := e) ?_
    rw [exec_messageRamWrite, event_true (by simp [hcan, hr, hu])]
    simp only [ha, ne_eq, not_true_eq_false, if_false, canWin_bound hb, ramWrite_stores hl hg]

end Sys2Proof.Machine
end

section
/-!
SUPPORT. The queue engine's accesses (03): what a doorbell page passes, what a doorbell, a clear of Q_STATUS, a held
reply and the comparison of pointers do, and the packet that dispatch takes (02 R58).
-/

namespace Sys2Proof.Machine

/-- The later of two updates of a queue stands. -/
theorem setQueue_setQueue (s : State) (t q : Nat) (x y : Queue) :
    (s.setQueue t q x).setQueue t q y = s.setQueue t q y := by
  simp [State.setQueue, put_put]

/-- The bound requester's access to a doorbell page passes (03 R80). -/
theorem pageOp_bound {who t q off : Nat} {f : State → State} {s : State} (hq : q < 6) (ht : t < 32)
    (hb : s.boundTo who t = true) : pageOp who t q off f s = f s := by
  have hn : ¬ (6 ≤ q ∨ 32 ≤ t) := by omega
  simp [pageOp, hn, hb]

/-- A row of a doorbell page happens for the bound requester while FBX runs. -/
theorem happens_of_page {c : Stim → Instr} {who t q off : Nat} {k f : State → State} {cond : State → Prop}
    (hc : ∀ e s, exec (c e) s = event e s (fun s => s.running 1) (pageOp who t q off k))
    (h : ∀ u, cond u → u.running 1 = true ∧ q < 6 ∧ t < 32 ∧ u.boundTo who t = true ∧ k u = f u) :
    Happens c cond f :=
  happens_of_event hc fun u hu =>
    have ⟨hr, hq, ht, hb, hk⟩ := h u hu
    ⟨hr, (pageOp_bound hq ht hb).trans hk⟩

/-- The post of a held reply happens for a tenant that exists (03 R90). -/
theorem exec_heldReplyPosted (e : Stim) (t : Nat) (s : State) :
    exec (.heldReplyPosted e t) s = event e s (fun s => s.exists t) (fun s => heldPost t (checkPtrs t 4 s)) := rfl

/-- The comparison of pointers happens for a configured queue of a tenant that exists (03 R100). -/
theorem exec_pointerCheck (e : Stim) (t q : Nat) (prod : Bool) (ptr inv : Nat) (s : State) :
    exec (.pointerCheck e t q prod ptr inv) s =
      event e s (fun s => decide (q < 6) && s.exists t && (s.queue t q).depth != 0)
        (fun s => checkPtrs t q (upset t q prod ptr inv s)) := rfl

/-- Dispatch always happens (02 R58). -/
theorem exec_dispatch (e : Stim) (s : State) : exec (.dispatch e) s = event e s (fun _ => true) dispatchOne := rfl

/-- Pointers that agree with their copies pass the comparison (03 R100). -/
theorem checkPtrs_agree {t q : Nat} {s : State} (h : (s.queue t q).ptrBad = none) : checkPtrs t q s = s := by
  simp [checkPtrs, h]

/-- A doorbell whose slot index lies beyond the queue is refused (03 R86). -/
theorem ring_beyond {t q : Nat} {v : Word} {s : State} (hd : (s.queue t q).depth ≠ 0)
    (hp : 2 ^ (s.queue t q).depth ≤ v.toNat % 2 ^ 13 % 4096) :
    ring t q v s = doorRefused t q (v.toNat % 2 ^ 13) s := by
  unfold ring
  simp only [hd, if_false, hp, decide_true, Bool.or_true, Bool.true_or, if_true]

/-- Slots by which a doorbell's pointer lies ahead of the tenant's own. -/
def Queue.ahead (x : Queue) (q : Nat) (v : Word) : Nat :=
  (ptrLin x.depth (BitVec.ofNat 13 (v.toNat % 2 ^ 13)) + 2 * 2 ^ x.depth - ptrLin x.depth (x.own q)) % (2 * 2 ^ x.depth)

/-- A doorbell of a queue in order that moves its pointer ahead, within the slots there, commits or takes the slots
(03 R86). -/
theorem ring_moves {t q n : Nat} {v : Word} {s : State} (hd : (s.queue t q).depth ≠ 0)
    (he : (s.queue t q).ptrErr = false) (hp : v.toNat % 2 ^ 13 % 4096 < 2 ^ (s.queue t q).depth)
    (hn : n = (s.queue t q).ahead q v) (h0 : n ≠ 0)
    (hl : n ≤ if q < 4 then (s.queue t q).window q else (s.queue t q).occ) :
    ring t q v s = if q < 4 then commitSq t q ((s.queue t q).commitSlots n) s else s.takeSlots t q n := by
  unfold Queue.ahead at hn
  unfold ring
  simp only [← hn, hd, he, h0, Nat.not_le.2 hp, Nat.not_lt.2 hl, decide_false, Bool.or_self, Bool.false_eq_true,
    if_false]

/-- A clear of Q_STATUS outside an upward crossing clears the flags that it names (03 R95). -/
theorem clearStatus_plain {t q : Nat} {v : Word} {s : State} (hd : (s.queue t q).depth ≠ 0)
    (hc : s.crossedNow (s.queue t q) = none) :
    clearStatus t q v s = s.setQueue t q { s.queue t q with
      latch := (s.queue t q).latch && !bit v 30, ovr := (s.queue t q).ovr && !bit v 29
      ptrErr := (s.queue t q).ptrErr && !bit v 28 } := by
  simp [clearStatus, hd, hc]

/-- A clear of LATCH on the cycle of an upward crossing leaves it set and posts what the crossing did not (03 R95). -/
theorem clearStatus_crossing {t q : Nat} {v : Word} {s : State} (hd : (s.queue t q).depth ≠ 0)
    (hc : s.crossedNow (s.queue t q) = some false) (hv : bit v 30 = true) :
    clearStatus t q v s = notice t 0x0201 [queWord t q, wd (s.queue t q).occ] (s.setQueue t q { s.queue t q with
      ovr := (s.queue t q).ovr && !bit v 29, ptrErr := (s.queue t q).ptrErr && !bit v 28
      crossed := some (s.clk, true) }) := by
  simp [clearStatus, hd, hc, hv]

/-- The oldest held reply enters a CQ that has room for it (03 R90). -/
theorem heldPost_fits {t : Nat} {x : HeldReply} {xs : List HeldReply} {s : State}
    (hh : (s.queue t 4).held = x :: xs) (hf : x.final = none) (hr : x.slots.length ≤ (s.queue t 4).room) :
    heldPost t s = postItem t 4 (mkSlots (s.queue t 4).gen x.slots) (s.setQueue t 4 { s.queue t 4 with held := xs }) := by
  simp [heldPost, hh, hf, Nat.not_lt.2 hr]

/-- A 13-bit pair agrees as pointer and inverted copy exactly when it adds up to 0x1FFF. -/
theorem inverted_iff {p i : Nat} (hp : p < 2 ^ 13) (hi : i < 2 ^ 13) :
    BitVec.ofNat 13 i = ~~~BitVec.ofNat 13 p ↔ p + i = 0x1FFF := by
  rw [← BitVec.toNat_inj, BitVec.toNat_not, BitVec.toNat_ofNat, BitVec.toNat_ofNat, Nat.mod_eq_of_lt hp,
    Nat.mod_eq_of_lt hi]
  omega

/-- What the comparison finds after an upset that leaves a pair in disagreement: that pair (03 R100). -/
theorem upset_ptrBad {t q ptr inv : Nat} {prod : Bool} {s : State} (h : (s.queue t q).ptrBad = none)
    (hne : BitVec.ofNat 13 inv ≠ ~~~BitVec.ofNat 13 ptr) :
    ((upset t q prod ptr inv s).queue t q).ptrBad = some (BitVec.ofNat 13 ptr, BitVec.ofNat 13 inv) := by
  have hprod : (s.queue t q).prodInv = ~~~(s.queue t q).prod := by
    by_contra hc
    simp [Queue.ptrBad, hc] at h
  cases prod <;> simp [upset, hne, Queue.ptrBad, hprod]

/-- The forced reset does not depend on where the pointers stood (03 R101). -/
theorem forcedReset_setQueue {t q ptr inv : Nat} {s : State} {x : Queue}
    (h : (x.setProd 0).setCons 0 = ((s.queue t q).setProd 0).setCons 0) :
    forcedReset t q ptr inv (s.setQueue t q x) = forcedReset t q ptr inv s := by
  have hg : x.gen = (s.queue t q).gen := congrArg (fun y => y.gen) h
  simp only [forcedReset, State.queue_setQueue, setQueue_setQueue, h, hg]

/-- An upset that leaves a pair in disagreement resets the queue (03 R100, R101). -/
theorem checkPtrs_upset {t q ptr inv : Nat} {prod : Bool} {s : State} (h : (s.queue t q).ptrBad = none)
    (hp : ptr < 2 ^ 13) (hi : inv < 2 ^ 13) (hne : ptr + inv ≠ 0x1FFF) :
    checkPtrs t q (upset t q prod ptr inv s) = forcedReset t q ptr inv s := by
  have hne' : BitVec.ofNat 13 inv ≠ ~~~BitVec.ofNat 13 ptr := fun hc => hne ((inverted_iff hp hi).1 hc)
  have ht : checkPtrs t q (upset t q prod ptr inv s) = forcedReset t q ptr inv (upset t q prod ptr inv s) := by
    simp only [checkPtrs, upset_ptrBad h hne', BitVec.toNat_ofNat, Nat.mod_eq_of_lt hp, Nat.mod_eq_of_lt hi]
  rw [ht, upset, if_neg hne']
  cases prod <;> exact forcedReset_setQueue rfl

/-- An upset to a pair that agrees is none. -/
theorem upset_agree {t q ptr inv : Nat} {prod : Bool} {s : State} (hp : ptr < 2 ^ 13) (h : ptr + inv = 0x1FFF) :
    upset t q prod ptr inv s = s := by
  rw [upset, if_pos ((inverted_iff hp (by omega)).2 h)]

/-- No head is marked as held back by its tenant's share while every tenant that is served has a slot (02 R57). -/
theorem stallNote_free {t q : Nat} {s : State} (h : s.serves t = true → s.slotFree t = true) : stallNote s t q = s := by
  have hc : (s.serves t && (s.headItem (s.queue t q)).here && !s.slotFree t) = false := by
    cases hs : s.serves t with
    | false => rfl
    | true => simp [h hs]
  simp only [stallNote, hc, Bool.false_eq_true, if_false]

/-- Taking a whole packet from the head of a queue launches it, after the trigger firings due on its target
(02 R58, 09 R283). -/
theorem takeHead_whole {t q n : Nat} {hd : Hdr} {cut : Bool} {s : State}
    (h : s.headItem (s.queue t q) = .whole hd n cut) :
    takeHead t q s =
      let p := pktOf hd ((s.slotsOf (s.queue t q)).take n)
      launch (opFind hd.opcode) t p (some q) (trigsFirst p.opcode p.params s.tim.full (s.takeSlots t q n)) := by
  simp only [takeHead, h]

/-- Dispatch takes the head of the queue whose turn it is, where no share holds a packet back and that queue's pointers
agree (02 R58). -/
theorem dispatchOne_takes {t q : Nat} {s : State} (hf : ∀ t < 32, s.serves t = true → s.slotFree t = true)
    (hn : (List.range 4).findSome? (fun q => (s.nextAt q).map (fun t => (q, t))) = some (q, t))
    (hp : (s.queue t q).ptrBad = none) : dispatchOne s = takeHead t q { s with rr := put s.rr q t } := by
  have hs : (List.range 128).foldl (fun s i => stallNote s (i / 4) (i % 4)) s = s := by
    refine foldl_same fun i hi => stallNote_free (hf (i / 4) ?_)
    have := List.mem_range.1 hi
    omega
  unfold dispatchOne
  rw [hs]
  dsimp only
  rw [hn]
  dsimp only
  rw [checkPtrs_agree (s := { s with rr := put s.rr q t }) hp]

/-- Settles O56: each row by what its access or its step of the queue engine does. -/
theorem doorbellRowsHappen : Obligations.DoorbellRowsHappen := by
  refine ⟨fun who t q value n => ?takes, fun who t q value n => ?commits, fun who t q value => ?refused,
    fun who t q value => ?flushes, fun who t q value => ?clears, fun who t q value => ?crossing,
    fun t x xs => ?held, fun t q prod ptr inv => ?resets, fun t q prod ptr inv => ?agrees,
    fun who addr width value => ?page, fun who addr width value p => ?stores, fun q t hd n cut => ?dispatches, ?due⟩
  case takes =>
    refine happens_of_page (fun _ _ => rfl) ?_
    rintro u ⟨hr, hq, ht, hb, hg, hd, he, hp, h4, hn, h0, hl⟩
    have h4' : ¬ q < 4 := Nat.not_lt.2 h4
    refine ⟨hr, hq, ht, hb, ?_⟩
    rw [checkPtrs_agree hg, ring_moves hd he hp hn h0 (by rwa [if_neg h4']), if_neg h4']
  case commits =>
    refine happens_of_page (fun _ _ => rfl) ?_
    rintro u ⟨hr, hq, ht, hb, hg, hd, he, hp, h4, hn, h0, hl⟩
    refine ⟨hr, hq, ht, hb, ?_⟩
    rw [checkPtrs_agree hg, ring_moves hd he hp hn h0 (by rwa [if_pos h4]), if_pos h4]
  case refused =>
    refine happens_of_page (fun _ _ => rfl) ?_
    rintro u ⟨hr, hq, ht, hb, hg, hd, hp⟩
    refine ⟨hr, hq, ht, hb, ?_⟩
    rw [checkPtrs_agree hg, ring_beyond hd hp, doorRefused]
  case flushes =>
    refine happens_of_page (fun _ _ => rfl) ?_
    rintro u ⟨hr, hq, ht, hb, hg, hv⟩
    exact ⟨hr, hq, ht, hb, by rw [if_pos hv, checkPtrs_agree hg]⟩
  case clears =>
    refine happens_of_page (fun _ _ => rfl) ?_
    rintro u ⟨hr, hq, ht, hb, hd, hc⟩
    exact ⟨hr, hq, ht, hb, clearStatus_plain hd hc⟩
  case crossing =>
    refine happens_of_page (fun _ _ => rfl) ?_
    rintro u ⟨hr, hq, ht, hb, hd, hc, hv⟩
    exact ⟨hr, hq, ht, hb, clearStatus_crossing hd hc hv⟩
  case held =>
    refine happens_of_event (exec_heldReplyPosted · t) ?_
    rintro u ⟨he, hg, hh, hf, hr⟩
    exact ⟨he, by rw [checkPtrs_agree hg, heldPost_fits hh hf hr]⟩
  case resets =>
    refine happens_of_event (exec_pointerCheck · t q prod ptr inv) ?_
    rintro u ⟨hq, he, hd, hg, hp, hi, hne⟩
    exact ⟨by simp [hq, he, hd], checkPtrs_upset hg hp hi hne⟩
  case agrees =>
    refine happens_of_event (exec_pointerCheck · t q prod ptr inv) ?_
    rintro u ⟨hq, he, hd, hg, hp, hs⟩
    exact ⟨by simp [hq, he, hd], by rw [upset_agree hp hs, checkPtrs_agree hg]⟩
  case page =>
    refine happens_of_event (exec_registerWrite · who addr width value) ?_
    rintro u ⟨hl, hu, hr⟩
    exact ⟨rfl, by simp only [regWrite, hl, hu, hr, and_self, if_true]⟩
  case stores =>
    refine happens_of_event (exec_registerWrite · who addr width value) ?_
    rintro u ⟨hl, hu, hr, hp, hw, h1, h2, hin, hv, hc⟩
    exact ⟨rfl, by rw [regWrite_sram hl hu hr hp hw, sramWrite_stores h1 h2 hin hv hc]⟩
  case dispatches =>
    refine happens_of_event exec_dispatch ?_
    rintro u ⟨hf, hn, hg, hw⟩
    exact ⟨rfl, (dispatchOne_takes hf hn hg).trans (takeHead_whole hw)⟩
  case due => exact happens_of_event (fun _ _ => rfl) fun u hu => ⟨hu, rfl⟩

end Sys2Proof.Machine
end

section
/-!
SUPPORT. The rows of islands and functions (01 R20 to R31): what each answers, the gate of a function that quiesced or
was forced, and the start of an island.
-/

namespace Sys2Proof.Machine

/-- The effect of a clock loss takes place at an island that starts, runs or quiesces (01 R20). -/
theorem exec_clockLoss (e : Stim) (isl : Nat) (s : State) :
    exec (.clockLoss e isl) s =
      event e s (fun s => decide (isl < 9) && ((s.island isl).gate.st == .starting || s.alive isl)) (clockLoss isl) := rfl

/-- An island in RUN works. -/
theorem alive_of_run {s : State} {n : Nat} (h : (s.island n).gate.st = .run) : s.alive n = true := by
  simp [State.alive, State.running, h]

theorem run_beq_quiescing : (GateState.run == GateState.quiescing) = false := rfl

/-- A clock loss happens to an island in RUN (01 R20). -/
theorem happens_of_loss {isl : Nat} {cond : State → Prop} {f : State → State}
    (h : ∀ u, cond u → isl < 9 ∧ (u.island isl).gate.st = .run ∧ clockLoss isl u = f u) :
    Happens (fun e => .clockLoss e isl) cond f :=
  happens_of_event (exec_clockLoss · isl) fun u hu =>
    have ⟨hn, hr, hf⟩ := h u hu
    ⟨by simp [hn, alive_of_run hr], hf⟩

/-- The clock of an island that a loss holds returns once it has been good for 100 µs (01 R20). -/
theorem exec_clockReturn (e : Stim) (isl : Nat) (s : State) :
    exec (.clockReturn e isl) s =
      event e s
        (fun s => decide (isl < 9) && (s.island isl).lossHold && decide ((s.island isl).gate.since + 100000 ≤ s.clk))
        (fun s => s.setIsland isl { s.island isl with
          lossHold := false, gate := { (s.island isl).gate with st := .starting, cold := true, since := s.clk } }) := rfl

/-- A shut-down ends once the function has run its accepted work to its end (01 R22). -/
theorem exec_quiescenceReached (e : Stim) (fn : Func) (s : State) :
    exec (.quiescenceReached e fn) s =
      event e s (fun s => funcOk fn && (s.gate fn).st == .quiescing && s.drained fn)
        (fun s => entryGate fn (gateOf fn s)) := rfl

/-- A loss within 1 s of the return to RUN that followed a loss is a second one (01 R20). -/
theorem lossAgain {x : Island} {clk t : Nat} (hc : x.clkLoss = true) (ht : x.runAt = some t)
    (hl : clk < t + 1000000000) : (x.clkLoss && x.runAt.any (fun t => decide (clk < t + 1000000000))) = true := by
  rw [hc, ht, Option.any_some, decide_eq_true hl]
  rfl

/-- A function that has run its accepted work to its end goes to its gate (01 R22). -/
theorem happens_of_quiescence {fn : Func} {cond : State → Prop} {f : State → State}
    (h : ∀ u, cond u →
      funcOk fn = true ∧ (u.gate fn).st = .quiescing ∧ u.drained fn = true ∧ entryGate fn (gateOf fn u) = f u) :
    Happens (fun e => .quiescenceReached e fn) cond f :=
  happens_of_event (exec_quiescenceReached · fn) fun u hu =>
    have ⟨ho, hq, hd, hf⟩ := h u hu
    ⟨by simp [ho, hq, hd], hf⟩

/-- A shut-down is forced at its bound (01 R25). -/
theorem exec_forcedShutdown (e : Stim) (fn : Func) (s : State) :
    exec (.forcedShutdown e fn) s =
      event e s
        (fun s => funcOk fn && (s.gate fn).st == .quiescing && decide ((s.gate fn).since + quietBound fn ≤ s.clk))
        (fun s => entryGate fn (forceShut fn s)) := rfl

/-- A function that reaches its bound without quiescence is shut down by force (01 R25). -/
theorem happens_of_forced {fn : Func} {cond : State → Prop} {f : State → State}
    (h : ∀ u, cond u → funcOk fn = true ∧ (u.gate fn).st = .quiescing ∧ (u.gate fn).since + quietBound fn ≤ u.clk ∧
      entryGate fn (forceShut fn u) = f u) :
    Happens (fun e => .forcedShutdown e fn) cond f :=
  happens_of_event (exec_forcedShutdown · fn) fun u hu =>
    have ⟨ho, hq, hb, hf⟩ := h u hu
    ⟨by simp [ho, hq, hb], hf⟩

/-- What a start that reaches RUN does to a function (01 R27). -/
def startEnds (fn : Func) (s : State) : State :=
  match fn with
  | .island n => islStarted n s
  | .port _ => gateRun fn s
  | .can n => gateRun fn (canRun n s)
  | .lin n => gateRun fn (linRun n s)
  | .part _ => s
  | .vi _ _ => s

/-- A start ends while the function's island works and no test holds it (01 R27). -/
theorem exec_islandRunReached (e : Stim) (fn : Func) (s : State) :
    exec (.islandRunReached e fn) s =
      event e s (fun s => funcOk fn && (s.gate fn).st == .starting && (funcHome fn).all s.alive && !s.funcTested fn)
        (startEnds fn) := by
  cases fn <;> rfl

/-- A function that starts reaches RUN (01 R27). -/
theorem happens_of_start {fn : Func} {cond : State → Prop} {f : State → State}
    (h : ∀ u, cond u → funcOk fn = true ∧ (u.gate fn).st = .starting ∧ (funcHome fn).all u.alive = true ∧
      u.funcTested fn = false ∧ startEnds fn u = f u) :
    Happens (fun e => .islandRunReached e fn) cond f :=
  happens_of_event (exec_islandRunReached · fn) fun u hu =>
    have ⟨ho, hs, ha, ht, hf⟩ := h u hu
    ⟨by simp [ho, hs, ha, ht], hf⟩

/-- KEY goes inactive only while it is active (20 R597). -/
theorem exec_keyInactive (e : Stim) (s : State) :
    exec (.keyInactive e) s =
      event e s (fun s => s.probe .key == 1) (fun s => nmgSettle true (setProbe .key 0 s)) := rfl

/-- The gate of a function other than CPX has no part in an entry into SLEEP. -/
theorem entryGate_other {fn : Func} (h : fn ≠ .island 0) (s : State) : entryGate fn s = s := by
  simp [entryGate, h]

/-- The gate of an island is, during an entry into SLEEP and for CPX, the end of step 3 of the entry (20 R598). -/
theorem entryGate_island (n : Nat) (s : State) :
    entryGate (.island n) s = if n = 0 ∧ s.pow.mode = .entering 2 then entryCpx s else s := by
  simp [entryGate]

/-- An island that quiesces to its clock gate keeps its contents. -/
theorem gateOf_island_clock {n : Nat} {s : State} (h : (s.gate (.island n)).deep = false) :
    gateOf (.island n) s = gateApply (.island n) (fun s => s) (islGated n s) := by
  simp [gateOf, h]

/-- An island that quiesces to its power gate loses its contents. -/
theorem gateOf_island_deep {n : Nat} {s : State} (h : (s.gate (.island n)).deep = true) :
    gateOf (.island n) s = gateApply (.island n) (islLose n) s := by
  simp [gateOf, h]

/-- Settles O58: each row by what its island or function does. -/
theorem functionEventsHappen : Obligations.FunctionEventsHappen := by
  refine ⟨fun isl => ?loss, fun isl t => ?lossAgain, fun isl => ?clock, fun fn p => ?portQuiet, fun fn n => ?clockGate,
    fun fn n => ?powerGate, fun fn n => ?canQuiet, fun fn n => ?linQuiet, fun fn n => ?forced, fun fn p => ?portForced,
    fun fn p => ?portStarts, fun fn n => ?canStarts, fun fn n => ?linStarts, fun fn n => ?starts, ?key⟩
  case loss =>
    refine happens_of_loss ?_
    rintro u ⟨hn, hr, hc⟩
    exact ⟨hn, hr, by simp [clockLoss, hr, hc, run_beq_quiescing, finishAll, b2n, wd]⟩
  case lossAgain =>
    refine happens_of_loss ?_
    rintro u ⟨hn, hr, hc, ht, hl⟩
    exact ⟨hn, hr, by simp [clockLoss, hr, lossAgain hc ht hl, b2n, wd]⟩
  case clock =>
    refine happens_of_event (exec_clockReturn · isl) ?_
    rintro u ⟨hn, hh, hs⟩
    exact ⟨by simp [hn, hh, hs], rfl⟩
  case portQuiet =>
    refine happens_of_quiescence ?_
    rintro u ⟨rfl, hp, hq, hs⟩
    exact ⟨decide_eq_true hp, hq, Option.isNone_iff_eq_none.2 hs, entryGate_other (fn := .port p) nofun _⟩
  case clockGate =>
    refine happens_of_quiescence ?_
    rintro u ⟨rfl, hn, hq, hg, hd⟩
    exact ⟨decide_eq_true hn, hq, hd, by rw [entryGate_island, gateOf_island_clock hg]⟩
  case powerGate =>
    refine happens_of_quiescence ?_
    rintro u ⟨rfl, hn, hq, hg, hd⟩
    exact ⟨decide_eq_true hn, hq, hd, by rw [entryGate_island, gateOf_island_deep hg]⟩
  case canQuiet =>
    refine happens_of_quiescence ?_
    rintro u ⟨rfl, hn, hq, hs⟩
    exact ⟨decide_eq_true hn, hq, Option.isNone_iff_eq_none.2 hs, entryGate_other (fn := .can n) nofun _⟩
  case linQuiet =>
    refine happens_of_quiescence ?_
    rintro u ⟨rfl, hn, hq, hh⟩
    exact ⟨decide_eq_true hn, hq, Option.isNone_iff_eq_none.2 hh, entryGate_other (fn := .lin n) nofun _⟩
  case forced =>
    refine happens_of_forced ?_
    rintro u ⟨rfl, hn, hq, hb⟩
    exact ⟨decide_eq_true hn, hq, hb, entryGate_island n _⟩
  case portForced =>
    refine happens_of_forced ?_
    rintro u ⟨rfl, hp, hq, hb⟩
    exact ⟨decide_eq_true hp, hq, hb, entryGate_other (fn := .port p) nofun _⟩
  case portStarts =>
    refine happens_of_start ?_
    rintro u ⟨rfl, hp, hs, ha, ht⟩
    exact ⟨decide_eq_true hp, hs, ha, ht, rfl⟩
  case canStarts =>
    refine happens_of_start ?_
    rintro u ⟨rfl, hn, hs, ha, ht⟩
    exact ⟨decide_eq_true hn, hs, ha, ht, rfl⟩
  case linStarts =>
    refine happens_of_start ?_
    rintro u ⟨rfl, hn, hs, ha, ht⟩
    exact ⟨decide_eq_true hn, hs, ha, ht, rfl⟩
  case starts =>
    refine happens_of_start ?_
    rintro u ⟨rfl, hn, hs⟩
    exact ⟨decide_eq_true hn, hs, rfl, rfl, rfl⟩
  case key =>
    exact happens_of_event exec_keyInactive fun u hk => ⟨beq_iff_eq.2 hk, rfl⟩

end Sys2Proof.Machine
end

section
/-!
SUPPORT. What a step does at the front of its queue, and that every command goes on in time (02 R54).
-/

namespace Sys2Proof.Machine

/-- On an empty queue the module idles (log 1). -/
theorem step_idle {s : State} (h : s.pending = []) : step s = .next s := by
  simp only [step, h]

/-- The command at the front runs with the rest of the queue. -/
theorem step_front {s : State} {c : Instr} {cs : List Instr} (h : s.pending = c :: cs) :
    step s = exec c { s with pending := cs } := by
  simp only [step, h]

/-- Every command answers a next state with the same queue, at no earlier time. -/
theorem exec_goesOn (c : Instr) (s : State) : ∃ t, exec c s = .next t ∧ t.pending = s.pending ∧ s.clk ≤ t.clk := by
  obtain ⟨e, t, ht, hk⟩ := exec_keep c s
  refine ⟨t, ht, hk.pending.trans (advance_pending s e), ?_⟩
  rw [hk.clk, advance_clk]
  exact Nat.le_add_right _ _

/-- Settles O5: an idle step changes nothing, and the front command goes on (`exec_goesOn`). -/
theorem everyStepGoesOn : Obligations.EveryStepGoesOn := by
  intro s
  cases hp : s.pending with
  | nil => exact ⟨s, step_idle hp, hp, Nat.le_refl _⟩
  | cons c cs =>
    obtain ⟨t, ht, hq, hc⟩ := exec_goesOn c { s with pending := cs }
    exact ⟨t, (step_front hp).trans ht, hq, hc⟩

end Sys2Proof.Machine
end

section
/-!
SUPPORT. Final and interim replies (02 R47): what ending a command can do, its frame, and that a command that has ended
is no longer in execution.
-/

namespace Sys2Proof.Machine

/-- Ending a command that is not in execution does nothing. -/
theorem finishCmd_unknown {id : Nat} {s : State} (h : s.cmd? id = none) (st : Status) (ws : List Word) :
    finishCmd id st ws s = s := by
  simp only [finishCmd, h]

/-- Nor does an interim reply to it. -/
theorem interim_unknown {id : Nat} {s : State} (h : s.cmd? id = none) (st : Status) : interim id st s = s := by
  simp only [interim, h]

/-- The interim reply to a command in execution: its phase is set and the reply posted. -/
theorem interim_known {id : Nat} {c : Cmd} {s : State} (h : s.cmd? id = some c) (st : Status) :
    ∃ k r, interim id st s = postReply c.tenant r none (setCmd k s) := by
  simp only [interim, h]
  exact ⟨_, _, rfl⟩

/-- The state in which the chain that awaits a command, and the count of its tenant's reset, know its final status
(02 R65, 04 R136). -/
def informed (id : Nat) (c : Cmd) (st : Status) (s : State) : State :=
  countReset c.tenant st (match c.chain with
    | some q => chainEnd c.tenant q id st s
    | none => s)

/-- Ending a command in execution: it is dropped without a reply, or its final reply is posted (02 R47). -/
theorem finishCmd_known {id : Nat} {c : Cmd} {s : State} (h : s.cmd? id = some c) (st : Status) (ws : List Word) :
    finishCmd id st ws s =
      if st = .ok ∧ ws = [] ∧ c.notify = false then dropCmd id (informed id c st s)
      else postReply c.tenant
        { version := c.version, opcode := c.opcode, seq := c.seq, status := st, result := ws, late := c.late } (some id)
        (informed id c st s) := by
  simp only [finishCmd, h]
  rfl

/-- What a final status does to the chain and the count stays among what replies may change. -/
theorem informed_only (id : Nat) (c : Cmd) (st : Status) (s : State) : OnlyReplies s (informed id c st s) := by
  refine OnlyReplies.trans ?_ (countReset_only ..)
  cases c.chain with
  | none => exact .refl s
  | some q => exact chainEnd_only ..

/-- Replacing a command in execution changes only the commands in execution. -/
theorem setCmd_only (c : Cmd) (s : State) : OnlyReplies s (setCmd c s) := .of rfl rfl rfl rfl

/-- The frame of a final reply. -/
theorem finishCmd_only (id : Nat) (st : Status) (ws : List Word) (s : State) :
    OnlyReplies s (finishCmd id st ws s) := by
  cases h : s.cmd? id with
  | none => rw [finishCmd_unknown h]; exact .refl s
  | some c =>
    rw [finishCmd_known h]
    refine (informed_only id c st s).trans ?_
    split
    · exact dropCmd_only ..
    · exact postReply_only ..

/-- The frame of an interim reply. -/
theorem interim_only (id : Nat) (st : Status) (s : State) : OnlyReplies s (interim id st s) := by
  cases h : s.cmd? id with
  | none => rw [interim_unknown h]; exact .refl s
  | some c =>
    obtain ⟨k, r, he⟩ := interim_known h st
    rw [he]
    exact (setCmd_only k s).trans (postReply_only ..)

/-- A notice of an event that is in the Ledger anyway leaves the commands in execution. -/
theorem noticeOnly_inflight (t n : Nat) (ws : List Word) (s : State) : (noticeOnly t n ws s).inflight = s.inflight := by
  unfold noticeOnly
  dsimp only
  split
  · rfl
  · split
    · exact (noticeRaw_inflight ..).trans (noticeRaw_inflight ..)
    · exact noticeRaw_inflight ..

/-- A notice leaves the commands in execution. -/
theorem notice_inflight (t n : Nat) (ws : List Word) (s : State) : (notice t n ws s).inflight = s.inflight := by
  unfold notice
  dsimp only
  split
  · rfl
  · exact noticeOnly_inflight ..

/-- Settles O6: the frames of the three. -/
theorem repliesLeaveTheRest : Obligations.RepliesLeaveTheRest :=
  fun id t n st ws s =>
    ⟨finishCmd_only id st ws s, interim_only id st s, notice_only t n ws s, notice_inflight t n ws s⟩

/-- A command that has been given its final status is no longer in execution. -/
theorem finishCmd_out (id : Nat) (st : Status) (ws : List Word) (s : State) :
    (finishCmd id st ws s).cmd? id = none := by
  cases h : s.cmd? id with
  | none => rwa [finishCmd_unknown h]
  | some c =>
    rw [finishCmd_known h]
    split
    · exact dropCmd_out ..
    · exact postReply_out ..

/-- The count of a reset takes no OK (04 R136). -/
theorem countReset_ok (t : Nat) (s : State) : countReset t .ok s = s := by
  simp only [countReset, ite_self]

/-- A command with NOTIFY = 0 and no chain that ends with OK and no words is dropped (02 R47). -/
theorem finishCmd_quiet {id : Nat} {c : Cmd} {s : State} (h : s.cmd? id = some c) (hn : c.notify = false)
    (hc : c.chain = none) : finishCmd id .ok [] s = dropCmd id s := by
  rw [finishCmd_known h, if_pos ⟨rfl, rfl, hn⟩, informed, countReset_ok, hc]

/-- Settles O7: an ended command is out of execution (`finishCmd_out`), and a quiet one is only dropped. -/
theorem oneFinalReply : Obligations.OneFinalReply := by
  refine ⟨fun id st st1 ws ws1 s => ?_, fun id c s h hn hc => ?_⟩
  · have hout := finishCmd_out id st ws s
    exact ⟨finishCmd_unknown hout st1 ws1, interim_unknown hout st1⟩
  · rw [finishCmd_quiet h hn hc, dropCmd]

end Sys2Proof.Machine
end

section
/-!
SUPPORT. How Teller takes a packet (02 R54 to R61): by its service, the command-slot share, the first failing check and
the not-before time.
-/

namespace Sys2Proof.Machine

/-- A packet that Teller does not serve stays where it is (02 R57). -/
theorem submit_unserved {o : OpSpec} {r : Req} {s : State} (h : s.serves r.tenant = false) : submit o r s = s := by
  simp [submit, h]

/-- At the command-slot share the stall is counted (02 R57). -/
theorem submit_stalled {o : OpSpec} {r : Req} {s : State} (h : s.serves r.tenant = true)
    (hf : s.slotFree r.tenant = false) :
    submit o r s =
      s.setTenant r.tenant { s.tenant r.tenant with stalls := satInc 0xFFFF (s.tenant r.tenant).stalls } := by
  simp [submit, h, hf]

/-- Otherwise the packet is launched from outside any chain (02 R56). -/
theorem submit_taken {o : OpSpec} {r : Req} {s : State} (h : s.serves r.tenant = true)
    (hf : s.slotFree r.tenant = true) :
    submit o r s = launch (some o) r.tenant (reqPkt r o.opcode) none s := by
  simp [submit, h, hf]

/-- A launch whose first failing check gives a status ends the command with it: a row's packet carries its tenant's own
number, so there is nothing to record (02 R41, R54). -/
theorem launch_refused {o : OpSpec} {r : Req} {s : State} {st : Status}
    (h : checks (some o) r.tenant (reqPkt r o.opcode) (enterCmd (cmdOf o r s) s) = some st) :
    launch (some o) r.tenant (reqPkt r o.opcode) none s =
      finishCmd (cmdOf o r s).id st [] (enterCmd (cmdOf o r s) s) := by
  have hc : newCmd r.tenant (reqPkt r o.opcode) none s = cmdOf o r s := rfl
  have hb : (reqPkt r o.opcode).bad = false := rfl
  have hf : (reqPkt r o.opcode).field = r.tenant := rfl
  simp [launch, chainOpen, hc, hb, h, refuse, hf]

/-- A launch that passes every check waits or begins (02 R61). -/
theorem launch_passed {o : OpSpec} {r : Req} {s : State}
    (h : checks (some o) r.tenant (reqPkt r o.opcode) (enterCmd (cmdOf o r s) s) = none) :
    launch (some o) r.tenant (reqPkt r o.opcode) none s =
      waitOrBegin o (cmdOf o r s) (enterCmd (cmdOf o r s) s) := by
  have hc : newCmd r.tenant (reqPkt r o.opcode) none s = cmdOf o r s := rfl
  have hb : (reqPkt r o.opcode).bad = false := rfl
  simp [launch, chainOpen, hc, hb, h]

/-- A command with no not-before time begins at once (02 R61). -/
theorem waitOrBegin_now {o : OpSpec} {c : Cmd} {s : State} (h : c.notBefore = 0) :
    waitOrBegin o c s = begin o { c with late := false } s := by
  simp [waitOrBegin, h]

/-- One whose target lies in the future waits (02 R61, 09 R274). -/
theorem waitOrBegin_future {o : OpSpec} {c : Cmd} {s : State} (h : c.notBefore ≠ 0)
    (hd : 0 < diff48 c.notBefore s.now) :
    waitOrBegin o c s =
      setCmd { c with phase := .waiting, short := decide (diff48 c.notBefore s.now < 50000) } s := by
  simp [waitOrBegin, h, hd]

/-- One whose target does not lie in the future begins late (02 R61). -/
theorem waitOrBegin_late {o : OpSpec} {c : Cmd} {s : State} (h : c.notBefore ≠ 0)
    (hd : diff48 c.notBefore s.now ≤ 0) : waitOrBegin o c s = begin o { c with late := true } s := by
  have hl : (c.notBefore != 0) = true := bne_iff_ne.2 h
  simp [waitOrBegin, Int.not_lt.2 hd, hl]

/-- A chain of checks that finds nothing has passed its first check. -/
theorem passed_of_ite {c : Prop} [Decidable c] {x : Status} {y : Option Status} (h : (if c then some x else y) = none) :
    ¬ c ∧ y = none := by
  by_cases hc : c
  · simp [hc] at h
  · exact ⟨hc, by rwa [if_neg hc] at h⟩

/-- Of a packet that passes every check but for its not-before time, a target that does not lie in the future fails check
9 under LATE_OK = 0 (02 R54). -/
theorem checks_tooLate {o : OpSpec} {t : Nat} {p : Pkt} {s : State}
    (h : checks (some o) t { p with notBefore := 0 } s = none) (hp : (s.tenant t).profile ≠ 1)
    (hn : p.notBefore ≠ 0) (hd : diff48 p.notBefore s.now ≤ 0) (hl : p.lateOk = false) :
    checks (some o) t p s = some .tooLate := by
  unfold checks at h ⊢
  obtain ⟨hversion, h⟩ := passed_of_ite h
  obtain ⟨hrsv, h⟩ := passed_of_ite h
  obtain ⟨htenant, h⟩ := passed_of_ite h
  obtain ⟨hprofile, h⟩ := passed_of_ite h
  obtain ⟨hlength, h⟩ := passed_of_ite h
  obtain ⟨hright, h⟩ := passed_of_ite h
  obtain ⟨hlife, -⟩ := passed_of_ite h
  dsimp only
  rw [if_neg hversion, if_neg hrsv, if_neg htenant, if_neg hprofile, if_neg hlength, if_neg hright, if_neg hlife]
  simp [hp, hn, hd, hl]

section
variable {o : OpSpec} {r : Req} {s : State} (hs : s.serves r.tenant = true) (hf : s.slotFree r.tenant = true)
include hs hf

/-- A served packet's first failing check ends its command. -/
theorem submit_refused {st : Status}
    (h : checks (some o) r.tenant (reqPkt r o.opcode) (enterCmd (cmdOf o r s) s) = some st) :
    submit o r s = finishCmd (cmdOf o r s).id st [] (enterCmd (cmdOf o r s) s) :=
  (submit_taken hs hf).trans (launch_refused h)

/-- A served packet that passes every check waits or begins. -/
theorem submit_passed (h : checks (some o) r.tenant (reqPkt r o.opcode) (enterCmd (cmdOf o r s) s) = none) :
    submit o r s = waitOrBegin o (cmdOf o r s) (enterCmd (cmdOf o r s) s) :=
  (submit_taken hs hf).trans (launch_passed h)

/-- Under LATE_OK = 0 a target that does not lie in the future ends the command with TOO_LATE. -/
theorem submit_tooLate
    (h : checks (some o) r.tenant { reqPkt r o.opcode with notBefore := 0 } (enterCmd (cmdOf o r s) s) = none)
    (hp : (s.tenant r.tenant).profile ≠ 1) (hn : r.notBefore ≠ 0) (hd : diff48 r.notBefore s.now ≤ 0)
    (hl : r.lateOk = false) :
    submit o r s = finishCmd (cmdOf o r s).id .tooLate [] (enterCmd (cmdOf o r s) s) :=
  submit_refused hs hf (checks_tooLate h hp hn hd hl)

end

/-- Settles O8: by service, share, checks and not-before time, in that order. -/
theorem packetsAreTakenInOrder : Obligations.PacketsAreTakenInOrder := by
  refine fun o r s => ⟨submit_unserved, submit_stalled, fun hs hf =>
    ⟨fun st h => submit_refused hs hf h, fun h hn => ?now, fun h hn hd => ?future, fun h hn hd => ?late,
      fun h hp hn hd hl => submit_tooLate hs hf h hp hn hd hl⟩⟩
  case now => exact (submit_passed hs hf h).trans (waitOrBegin_now hn)
  case future => exact (submit_passed hs hf h).trans (waitOrBegin_future hn hd)
  case late => exact (submit_passed hs hf h).trans (waitOrBegin_late hn hd)

/-- Where a command shares no target with triggers, Teller takes its packet in the state after the elapsed time
(09 R283). -/
theorem arrived_noAim {o : OpSpec} {r : Req} (h : cmdAim o.opcode r.params = none) (e : Stim) (s : State) :
    arrived o r e s = s.advance e := by
  simp only [arrived, trigsFirst, h]

/-- SYS commands share no target with triggers. -/
theorem cmdAim_sys {op : Nat} (h : op < 0x1000) (ps : List Word) : cmdAim op ps = none := by
  have h1 : op / 256 ≠ 0x10 := by omega
  simp only [cmdAim, h1, List.contains_eq_mem, List.mem_cons, List.not_mem_nil, or_false, false_or, decide_eq_true_eq]
  rw [if_neg (by omega), if_neg (by omega), if_neg (by omega), if_neg (by omega)]

/-- A row that submits its packet after the elapsed time and whose opcode shares no target with triggers submits it in the
state in which Teller takes it. -/
theorem row_submits {c : Stim → Req → Instr} {o : OpSpec} (ho : o.opcode < 0x1000)
    (hc : ∀ e r s, exec (c e r) s = .next (submit o r (s.advance e))) (e : Stim) (r : Req) (s : State) :
    exec (c e r) s = .next (submit o r (arrived o r e s)) := by
  rw [hc, arrived_noAim (cmdAim_sys ho r.params)]

end Sys2Proof.Machine
end

section
/-!
SUPPORT. The SYS commands and IDREAD (02 R50 to R52, 01 R33 to R36, 00 R4 to R7).
-/

namespace Sys2Proof.Machine

/-- The row of SYS_ECHO submits its packet. -/
theorem exec_sysEcho (e : Stim) (r : Req) (s : State) :
    exec (.sysEcho e r) s = .next (submit sysEchoSpec r (s.advance e)) := rfl

/-- SYS_ECHO that begins completes with its own words (02 R51). -/
theorem sysEcho_completes :
    Completes .sysEcho sysEchoSpec (fun _ _ => True) (fun r _ => r.params) (fun _ b => b) := by
  refine completes (row_submits (by decide) exec_sysEcho) fun k r b hk _ _ _ => ?_
  simp only [sysEchoSpec, hk]

/-- The checks of a well-formed SYS_ECHO under the native PROFILE: more than 1019 words are BAD_LENGTH, a target that does
not lie in the future is TOO_LATE under LATE_OK = 0, and nothing else fails (02 R51, R54). -/
theorem checks_sysEcho {t : Nat} {p : Pkt} {s : State} (hv : p.version = 2) (hr : p.rsv = false) (ht : p.field = t)
    (hp : (s.tenant t).profile ≠ 1) :
    checks (some sysEchoSpec) t p s =
      if 1019 < p.plen then some .badLength
      else if p.notBefore ≠ 0 ∧ diff48 p.notBefore s.now ≤ 0 ∧ p.lateOk = false then some .tooLate
      else none := by
  have hver : versionOk (s.tenant t).profile p.version = true := by simp [versionOk, hv]
  have hgrp : groupRight sysEchoSpec t p.params s = true := by
    have hrow : groupRow sysEchoSpec.opcode < 3 := by decide
    simp [groupRight, hrow]
  have hlen : 1020 < p.plen ∨ 1019 < p.plen ↔ 1019 < p.plen := by omega
  simp only [checks, hver, hr, ht, hp, hgrp]
  simp [sysEchoSpec, hp, hlen, and_assoc]

/-- One of 1019 words at most, whose target lies in the future or which may be late, passes. -/
theorem checks_sysEcho_pass {t : Nat} {p : Pkt} {s : State} (hv : p.version = 2) (hr : p.rsv = false)
    (ht : p.field = t) (hp : (s.tenant t).profile ≠ 1) (hl : p.plen ≤ 1019)
    (hd : p.notBefore ≠ 0 → diff48 p.notBefore s.now ≤ 0 → p.lateOk = true) :
    checks (some sysEchoSpec) t p s = none := by
  rw [checks_sysEcho hv hr ht hp, if_neg (Nat.not_lt.2 hl), if_neg]
  rintro ⟨hn, hle, hlate⟩
  simp [hd hn hle] at hlate

/-- Settles O9: by the checks of SYS_ECHO and by how Teller takes a packet. -/
theorem echoAnswersItsWords : Obligations.EchoAnswersItsWords := by
  refine ⟨sysEcho_completes, ?_⟩
  rintro e r s _ _ rfl rfl hs hf hv hp
  rw [exec_sysEcho]
  refine ⟨fun hl => ?long, fun hl hn hd => ?waits, fun hl hn hd ho => ?late, fun hl hn hd ho => ?tooLate⟩
  case long =>
    have hlen : 1019 < r.params.length := by omega
    exact congrArg _ (submit_refused hs hf ((checks_sysEcho hv rfl rfl hp).trans (if_pos hlen)))
  case waits =>
    have hpass := checks_sysEcho_pass (p := reqPkt r sysEchoSpec.opcode) hv rfl rfl hp hl
      fun _ hle => absurd hd (Int.not_lt.2 hle)
    exact congrArg _ ((submit_passed hs hf hpass).trans (waitOrBegin_future hn hd))
  case late =>
    have hpass := checks_sysEcho_pass (p := reqPkt r sysEchoSpec.opcode) hv rfl rfl hp hl fun _ _ => ho
    exact congrArg _ ((submit_passed hs hf hpass).trans (waitOrBegin_late hn hd))
  case tooLate =>
    have hpass := checks_sysEcho_pass (p := { reqPkt r sysEchoSpec.opcode with notBefore := 0 }) hv rfl rfl hp hl
      fun h => absurd rfl h
    exact congrArg _ (submit_tooLate hs hf hpass hp hn hd ho)

/-- SYS_ISLAND_CTL that enables an island in RUN, not held by a clock loss, is done; one left off is no longer (01 R28). -/
theorem islEnable_run {n : Nat} {c : Cmd} {s : State} (hr : (s.island n).gate.st = .run)
    (hl : (s.island n).lossHold = false) :
    islEnable n c s = .done .ok [] (s.setIsland n { s.island n with stuck := false }) := by
  have hg : ((s.setIsland n { s.island n with stuck := false }).gate (.island n)).st = .run := by
    simpa [State.gate] using hr
  unfold islEnable
  exact (if_neg (by simp [hl])).trans (gateEnable_run hg)

/-- A disable to the clock gate of an island in RUN, other than CPX and not claimed, begins its shut-down (01 R28, R35). -/
theorem islDisable_run {n : Nat} {c : Cmd} {s : State} (hr : (s.island n).gate.st = .run) (hn : n ≠ 0)
    (hc : s.claimed n = false) :
    islDisable n false c s = .accept (s.setGate (.island n) { (s.island n).gate with
      st := .quiescing, deep := false, disCmds := [c.id], since := s.clk }) := by
  have hi : idleDisable (s.island n).gate false = false := by simp [idleDisable, hr]
  have hg : (s.gate (.island n)).st = .run := hr
  simp only [islDisable, hi, hc, hn, gateDisable_run hg, false_and, Bool.false_eq_true, if_false]
  rfl

/-- Settles O15: each row by what its opcode's execution answers. -/
theorem sysCommandsComplete : Obligations.SysCommandsComplete := by
  refine ⟨sysEcho_completes, ?cancel, ?identity, ?identityBad, ?limits, ?status, ?enable, ?disable, ?idread⟩
  case cancel =>
    refine completes (row_submits (by decide) fun _ _ _ => rfl) fun k r b hp ht _ _ => ?_
    simp only [sysCancelSpec, hp, ht]
  case identity =>
    refine completes (row_submits (by decide) fun _ _ _ => rfl) fun k r b _ _ _ hb => ?_
    simp only [sysIdentitySpec, hb, Bool.false_eq_true, if_false]
  case identityBad =>
    refine fails (row_submits (by decide) fun _ _ _ => rfl) fun k r b _ _ _ hb => ?_
    simp only [sysIdentitySpec, hb, if_true, Ans.fail]
  case limits =>
    refine completes (row_submits (by decide) fun _ _ _ => rfl) fun k r b _ ht _ _ => ?_
    simp only [sysLimitsSpec, ht]
  case status =>
    exact completes (row_submits (by decide) fun _ _ _ => rfl) fun k r b _ _ _ _ => rfl
  case enable =>
    refine completes (row_submits (by decide) fun _ _ _ => rfl) fun k r b hp _ _ h => ?_
    obtain ⟨ha, hr, hl⟩ := h
    simp only [sysIslandCtlSpec, hp, ha, if_true, islEnable_run hr hl]
  case disable =>
    refine accepts (row_submits (by decide) fun _ _ _ => rfl) fun k r b hp _ _ h => ?_
    obtain ⟨ha, hr, hn, hc⟩ := h
    have hd : ((1 : Nat) == 2) = false := rfl
    simp only [sysIslandCtlSpec, hp, ha, one_ne_zero, if_false, hd, islDisable_run hr hn hc]
  case idread => exact fun e s u hu _ => by rw [hu]; rfl

end Sys2Proof.Machine
end

section
/-!
SUPPORT. Pointers and slots (03 R72): the linear value of a pointer that is advanced, and what the pointers of a queue in
order say of its occupancy.
-/

namespace Sys2Proof.Machine

/-- The wrap bit of a pointer is clear or set, and its linear value starts at 0 or at the depth accordingly. -/
theorem ptrLin_cases (d : Nat) (p : BitVec 13) :
    (p.toNat / 4096 = 0 ∧ ptrLin d p = p.toNat % 4096) ∨
    (p.toNat / 4096 = 1 ∧ ptrLin d p = 2 ^ d + p.toNat % 4096) := by
  have hp : p.toNat < 2 ^ 13 := p.isLt
  have hw : p.toNat / 4096 = 0 ∨ p.toNat / 4096 = 1 := by omega
  exact hw.imp (fun h => ⟨h, by simp [ptrLin, h]⟩) (fun h => ⟨h, by simp [ptrLin, h]⟩)

/-- A pointer whose slot index lies below the depth has a linear value below twice the depth. -/
theorem ptrLin_lt {d : Nat} {p : BitVec 13} (h : p.toNat % 4096 < 2 ^ d) : ptrLin d p < 2 * 2 ^ d := by
  rcases ptrLin_cases d p with ⟨-, hl⟩ | ⟨-, hl⟩ <;> omega

/-- Pointers in range are equal exactly when their linear values are. -/
theorem ptrLin_inj {d : Nat} {p q : BitVec 13} (hp : p.toNat % 4096 < 2 ^ d) (hq : q.toNat % 4096 < 2 ^ d) :
    ptrLin d p = ptrLin d q ↔ p = q := by
  refine ⟨fun h => BitVec.eq_of_toNat_eq ?_, fun h => h ▸ rfl⟩
  rcases ptrLin_cases d p with ⟨hw, hl⟩ | ⟨hw, hl⟩ <;> rcases ptrLin_cases d q with ⟨hv, hm⟩ | ⟨hv, hm⟩ <;> omega

/-- Pointers in range lie a whole depth apart exactly when their indices are equal and their wrap bits differ. -/
theorem ptrLin_opposite {d : Nat} {p q : BitVec 13} (hp : p.toNat % 4096 < 2 ^ d) (hq : q.toNat % 4096 < 2 ^ d) :
    ptrLin d p = (ptrLin d q + 2 ^ d) % (2 * 2 ^ d) ↔
      p.toNat % 4096 = q.toNat % 4096 ∧ p.toNat / 4096 ≠ q.toNat / 4096 := by
  rcases ptrLin_cases d q with ⟨hv, hm⟩ | ⟨hv, hm⟩
  · rw [hm, Nat.mod_eq_of_lt (by omega)]
    rcases ptrLin_cases d p with ⟨hw, hl⟩ | ⟨hw, hl⟩ <;> omega
  · have hc : 2 ^ d + q.toNat % 4096 + 2 ^ d = q.toNat % 4096 + 2 * 2 ^ d := by omega
    rw [hm, hc, Nat.add_mod_right, Nat.mod_eq_of_lt (by omega)]
    rcases ptrLin_cases d p with ⟨hw, hl⟩ | ⟨hw, hl⟩ <;> omega

/-- The pointer of a linear value: its slot index lies below the depth, and its own linear value is the same modulo twice
the depth. -/
theorem ptrOf_spec {d : Nat} (hd : d ≤ 12) (l : Nat) :
    (ptrOf d l).toNat % 4096 < 2 ^ d ∧ ptrLin d (ptrOf d l) = l % (2 * 2 ^ d) := by
  have hi : l % 2 ^ d < 2 ^ d := Nat.mod_lt _ (Nat.two_pow_pos d)
  have hs : 2 ^ d ≤ 4096 := Nat.pow_le_pow_right (by decide) hd
  have hw : l / 2 ^ d % 2 < 2 := Nat.mod_lt _ (by decide)
  have hm : l % (2 * 2 ^ d) = l % 2 ^ d + 2 ^ d * (l / 2 ^ d % 2) := by rw [Nat.mul_comm, Nat.mod_mul]
  have hp : (ptrOf d l).toNat = l / 2 ^ d % 2 * 4096 + l % 2 ^ d := by
    rw [ptrOf, BitVec.toNat_ofNat]
    exact Nat.mod_eq_of_lt (by omega)
  have hidx : (ptrOf d l).toNat % 4096 = l % 2 ^ d := by omega
  have hwrap : (ptrOf d l).toNat / 4096 = l / 2 ^ d % 2 := by omega
  exact ⟨hidx ▸ hi, by rw [ptrLin, hidx, hwrap, hm, Nat.mul_comm, Nat.add_comm]⟩

/-- On a circle of m places, o is the way from b to a exactly when a lies o places on from b. -/
theorem wayRound_iff {m a b o : Nat} (ha : a < m) (hb : b < m) (ho : o < m) :
    (a + m - b) % m = o ↔ a = (b + o) % m := by
  constructor
  · rintro rfl
    have hc : b + (a + m - b) = a + m := by omega
    rw [Nat.add_mod_mod, hc, Nat.add_mod_right, Nat.mod_eq_of_lt ha]
  · rintro rfl
    have hc : b + o + (m - b) = o + m := by omega
    rw [Nat.add_sub_assoc hb.le, Nat.mod_add_mod, hc, Nat.add_mod_right, Nat.mod_eq_of_lt ho]

/-- The pointers of a queue in order, with the producer's stated from the consumer's (03 R72, R100). -/
theorem pointersOk_iff {x : Queue} : PointersOk x ↔
    x.prod.toNat % 4096 < 2 ^ x.depth ∧ x.cons.toNat % 4096 < 2 ^ x.depth ∧ x.prodInv = ~~~x.prod ∧
    x.consInv = ~~~x.cons ∧ x.occ ≤ 2 ^ x.depth ∧
    ptrLin x.depth x.prod = (ptrLin x.depth x.cons + x.occ) % (2 * 2 ^ x.depth) := by
  have hpos : 0 < 2 ^ x.depth := Nat.two_pow_pos _
  unfold PointersOk
  refine and_congr_right fun hp => and_congr_right fun hc => and_congr_right fun _ => and_congr_right fun _ =>
    and_congr_right fun ho => ?_
  exact wayRound_iff (ptrLin_lt hp) (ptrLin_lt hc) (by omega)

/-- The free slots of a configured queue. -/
theorem room_eq {x : Queue} (h : x.depth ≠ 0) : x.room = 2 ^ x.depth - x.occ := by
  rw [Queue.room, Queue.size, if_neg h]

/-- Appending slots adds to the occupancy. -/
theorem occ_append (x : Queue) (sl : List Slot) : (x.append sl).occ = x.occ + sl.length := by
  simp [Queue.append, Queue.occ, Queue.setProd]

/-- Taking slots lowers it. -/
theorem occ_take (x : Queue) (n : Nat) : (x.take n).occ = x.occ - n := List.length_drop

/-- An item that fits leaves the pointers in order. -/
theorem PointersOk.append {x : Queue} (h : PointersOk x) (h0 : x.depth ≠ 0) (hd : x.depth ≤ 12) {sl : List Slot}
    (hl : sl.length ≤ x.room) : PointersOk (x.append sl) := by
  obtain ⟨-, hc, -, hci, ho, hp⟩ := pointersOk_iff.1 h
  obtain ⟨hi, hlin⟩ := ptrOf_spec hd (ptrLin x.depth x.prod + sl.length)
  rw [room_eq h0] at hl
  refine pointersOk_iff.2 ⟨hi, hc, rfl, hci, ?_, hlin.trans ?_⟩ <;> rw [occ_append]
  · exact Nat.add_le_of_le_sub' ho hl
  · rw [hp, Nat.mod_add_mod, Nat.add_assoc]
    rfl

/-- Slots taken leave them in order. -/
theorem PointersOk.take {x : Queue} (h : PointersOk x) (hd : x.depth ≤ 12) {n : Nat} (hn : n ≤ x.occ) :
    PointersOk (x.take n) := by
  obtain ⟨hi, -, hpi, -, ho, hp⟩ := pointersOk_iff.1 h
  obtain ⟨hc, hlin⟩ := ptrOf_spec hd (ptrLin x.depth x.cons + n)
  refine pointersOk_iff.2 ⟨hi, hc, hpi, rfl, ?_, ?_⟩ <;> rw [occ_take]
  · exact (Nat.sub_le _ _).trans ho
  · refine hp.trans ?_
    rw [← Nat.add_sub_cancel' hn, ← Nat.add_assoc, Nat.add_sub_cancel_left, ← Nat.mod_add_mod]
    exact congrArg (fun l => (l + (x.occ - n)) % (2 * 2 ^ x.depth)) hlin.symm

/-- A flush leaves them in order (03 R96). -/
theorem PointersOk.flushed {x : Queue} (h : PointersOk x) : PointersOk x.flushed := by
  obtain ⟨hi, -, hpi, -, -, -⟩ := h
  exact pointersOk_iff.2 ⟨hi, hi, hpi, rfl, Nat.zero_le _, (Nat.mod_eq_of_lt (ptrLin_lt hi)).symm⟩

/-- A queue in order is empty exactly when its pointers are equal (03 R72). -/
theorem PointersOk.empty_iff {x : Queue} (h : PointersOk x) : x.occ = 0 ↔ x.prod = x.cons := by
  obtain ⟨hi, hc, -, -, ho, hw⟩ := h
  have hpos : 0 < 2 ^ x.depth := Nat.two_pow_pos _
  rw [← ptrLin_inj hi hc, ← hw, wayRound_iff (ptrLin_lt hi) (ptrLin_lt hc) (by omega), Nat.add_zero,
    Nat.mod_eq_of_lt (ptrLin_lt hc)]

/-- It is full exactly when the indices are equal and the wrap bits differ (03 R72). -/
theorem PointersOk.full_iff {x : Queue} (h : PointersOk x) (h0 : x.depth ≠ 0) :
    x.room = 0 ↔ x.prod.toNat % 4096 = x.cons.toNat % 4096 ∧ x.prod.toNat / 4096 ≠ x.cons.toNat / 4096 := by
  obtain ⟨hi, hc, -, -, ho, hw⟩ := h
  have hpos : 0 < 2 ^ x.depth := Nat.two_pow_pos _
  have hfull : x.room = 0 ↔ x.occ = 2 ^ x.depth := by
    rw [room_eq h0]
    omega
  rw [hfull, ← ptrLin_opposite hi hc, ← hw, wayRound_iff (ptrLin_lt hi) (ptrLin_lt hc) (by omega)]

/-- Settles O13: appending, taking and flushing keep the pointers in order, and pointers in order tell an empty and a full
queue. -/
theorem pointersMatchTheSlots : Obligations.PointersMatchTheSlots := by
  intro x h6 h12 h
  have h0 : x.depth ≠ 0 := by omega
  exact ⟨fun _ hl => h.append h0 h12 hl, fun _ hn => h.take h12 hn, h.flushed, h.empty_iff, h.full_iff h0⟩

end Sys2Proof.Machine
end

section
/-!
SUPPORT. Posting a notice (03 R91, R92): what it leaves of its queue and of memory, with room and without.
-/

namespace Sys2Proof.Machine

/-- An interrupt leaves memory. -/
theorem deliverFill_mem (t q o : Nat) (s : State) : (deliverFill t q o s).mem = s.mem := by
  have hd : ∀ i, (deliver t i s).mem = s.mem := fun i => by
    unfold deliver deliverPart
    dsimp only
    split <;> rfl
  unfold deliverFill
  split
  · exact hd 1
  · split
    · exact hd 2
    · rfl

/-- The queue that slots are appended to holds their tags after its own. -/
theorem addSlots_slots (s : State) (t q : Nat) (sl : List Slot) :
    ((s.addSlots t q sl).queue t q).slots = (s.queue t q).slots ++ sl.map Slot.tag := by
  unfold State.addSlots
  dsimp only
  rw [State.queue_setQueue]
  split <;> rfl

/-- One slot is stored at the producer pointer's place in the spill region (03 R75). -/
theorem addSlots_one_mem (s : State) (t q : Nat) (x : Slot) :
    (s.addSlots t q [x]).mem =
      writeBytes s.mem ((s.queue t q).slotAddr ((s.queue t q).idxFrom (s.queue t q).prod 0)) x.bytes := rfl

/-- The LOST field of a notice carries the count given (03 R92). -/
theorem noticeBytes_lost (t n q l m : Nat) (d : List Word) : le (noticeBytes t n q l m d) 6 2 = l % 2 ^ 16 := by
  simp only [le, noticeBytes, bytesOf, List.cons_append, List.nil_append, List.drop_succ_cons, List.drop_zero,
    List.take_succ_cons, List.take_zero, natOf, BitVec.toNat_ofNat]
  omega

/-- The state in which a notice to a tenant has its number (03 R92). -/
def noticeNumbered (t : Nat) (s : State) : State :=
  s.setTenant t { s.tenant t with nseq := ((s.tenant t).nseq + 1) % 2 ^ 16 }

/-- Numbering a notice leaves the queues. -/
theorem noticeNumbered_queue (t u q : Nat) (s : State) : (noticeNumbered t s).queue u q = s.queue u q := rfl

/-- The slot of a notice posted to a tenant's NQ. -/
def noticeSlot (t n : Nat) (det : List Word) (s : State) : Slot :=
  { bytes := noticeBytes t n (s.tenant t).nseq (s.queue t 5).lost s.now det, gen := (s.queue t 5).gen }

/-- A notice to an NQ without room is dropped and counted (03 R91). -/
theorem noticeRaw_full {t : Nat} {s : State} (h : (s.queue t 5).room = 0) (n : Nat) (det : List Word) :
    (noticeRaw t n det s).1 =
      (noticeNumbered t s).setQueue t 5 { s.queue t 5 with lost := satInc 0xFFFF (s.queue t 5).lost } := by
  simp only [noticeRaw, h, if_true]
  rfl

/-- A notice to an NQ with room is appended, and the count returns to 0 (03 R91). -/
theorem noticeRaw_posted {t : Nat} {s : State} (h : (s.queue t 5).room ≠ 0) (n : Nat) (det : List Word) :
    (noticeRaw t n det s).1 =
      let s2 := (noticeNumbered t s).addSlots t 5 [noticeSlot t n det s]
      deliverFill t 5 (s.queue t 5).occ (s2.setQueue t 5 { s2.queue t 5 with lost := 0 }) := by
  simp only [noticeRaw, h, if_false]
  rfl

/-- The NQ after a notice that has room. -/
theorem noticeRaw_posted_queue {t : Nat} {s : State} (h : (s.queue t 5).room ≠ 0) (n : Nat) (det : List Word) :
    (noticeRaw t n det s).1.queue t 5 =
      { ((noticeNumbered t s).addSlots t 5 [noticeSlot t n det s]).queue t 5 with lost := 0 } := by
  rw [noticeRaw_posted h]
  dsimp only
  rw [State.queue, deliverFill_que]
  exact State.queue_setQueue ..

/-- Memory after it: the notice's bytes at the producer pointer's slot. -/
theorem noticeRaw_posted_mem {t : Nat} {s : State} (h : (s.queue t 5).room ≠ 0) (n : Nat) (det : List Word) :
    (noticeRaw t n det s).1.mem =
      writeBytes s.mem ((s.queue t 5).slotAddr ((s.queue t 5).idxFrom (s.queue t 5).prod 0))
        (noticeSlot t n det s).bytes := by
  rw [noticeRaw_posted h]
  dsimp only
  rw [deliverFill_mem, State.setQueue_mem, addSlots_one_mem, noticeNumbered_queue]
  rfl

/-- Settles O10: a full NQ keeps its slots and counts, and one with room takes the slot of the notice. -/
theorem fullNoticeQueueDrops : Obligations.FullNoticeQueueDrops := by
  rintro t n det s _ rfl
  refine ⟨fun hfull => ?_, fun hroom => ?_⟩
  · rw [noticeRaw_full hfull, State.queue_setQueue]
  · have hlen : (noticeSlot t n det s).bytes.length = 64 := noticeBytes_length ..
    rw [noticeRaw_posted_queue hroom, noticeRaw_posted_mem hroom]
    refine ⟨rfl, noticeSlot t n det s, addSlots_slots .., hlen, noticeBytes_lost .., fun hs i hi => ?_⟩
    exact readByte_writeBytes_in _ _ _ hs (hlen ▸ hi)

end Sys2Proof.Machine
end

section
/-!
SUPPORT. The QUE commands (04 R134, R135) on a queue that is configured, or empty.
-/

namespace Sys2Proof.Machine

/-- QUE_LEVEL sets the level of a configured queue (03 R84). -/
theorem setLevel_configured {t q : Nat} {v : Word} {s : State} (h : (s.queue t q).depth ≠ 0) :
    setLevel t q v s = s.setQueue t q { s.queue t q with
      levelEn := bit v 31, level := min (fld v 12 0) (2 ^ (s.queue t q).depth - 1) } := by
  simp only [setLevel, h, if_false]

/-- Settles O55: each row by what its opcode's execution answers. -/
theorem queueCommandsComplete : Obligations.QueueCommandsComplete := by
  refine ⟨?config, ?flush, ?status, ?level, ?clear⟩
  case config =>
    refine completes (row_submits (by decide) fun _ _ _ => rfl) fun k r b hp _ _ h => ?_
    obtain ⟨ho, hh⟩ := h
    simp only [queConfigSpec, hp, ho, hh, ne_eq, not_true_eq_false, or_self, if_false, Ans.okay]
  case flush =>
    refine completes (row_submits (by decide) fun _ _ _ => rfl) fun k r b hp _ _ hd => ?_
    simp only [queFlushSpec, hp, hd, if_false, Ans.okay]
  case status =>
    refine completes (row_submits (by decide) fun _ _ _ => rfl) fun k r b hp _ _ _ => ?_
    simp only [queStatusSpec, hp]
  case level =>
    refine completes (row_submits (by decide) fun _ _ _ => rfl) fun k r b hp _ _ hd => ?_
    simp only [queLevelSpec, hp, hd, if_false, Ans.okay, setLevel_configured hd]
  case clear =>
    refine completes (row_submits (by decide) fun _ _ _ => rfl) fun k r b hp _ _ h => ?_
    obtain ⟨hd, hc⟩ := h
    simp only [queClearSpec, hp, hd, if_false, Ans.okay, clearStatus_plain hd hc]

end Sys2Proof.Machine
end

section
/-!
SUPPORT. Remote carriage (03 R103 to R108, 18 R558): what a frame from a tenant's association brings about, the frame of
replies or notices that is sent, and frames sent again.
-/

namespace Sys2Proof.Machine

/-- A carriage frame is taken on P0 to P13 while Teller's island works (03 R103). -/
theorem exec_carriageFrameReceived (e : Stim) (f : Carriage) (s : State) :
    exec (.carriageFrameReceived e f) s =
      event e s (fun s => s.alive 3 && decide (f.port < 14)) (carHeard f) := rfl

/-- The next frame is sent while that island works (03 R108). -/
theorem exec_carriageSend (e : Stim) (t : Nat) (s : State) :
    exec (.carriageSend e t) s = event e s (fun s => s.alive 3) (carNext t) := rfl

/-- So is a frame that is due again: to tenant t, or from 32 on to a peer (03 R108, 18 R558). -/
theorem exec_carriageRetransmit (e : Stim) (t fseq : Nat) (s : State) :
    exec (.carriageRetransmit e t fseq) s =
      event e s (fun s => s.alive 3) (if t < 32 then tenResend t fseq else peerResend (t - 32) fseq) := rfl

/-! ### Frames received -/

/-- A frame that is not a peer's is a remote tenant's. -/
theorem carHeard_tenant {f : Carriage} {s : State} (h : s.peerFor f = none) : carHeard f s = carReceive f s := by
  simp only [carHeard, h]

/-- A frame that is not a peer's happens as a remote tenant's. -/
theorem happens_of_frame {f : Carriage} {cond : State → Prop} {k : State → State}
    (h : ∀ u, cond u → u.alive 3 = true ∧ f.port < 14 ∧ u.peerFor f = none ∧ carReceive f u = k u) :
    Happens (fun e => .carriageFrameReceived e f) cond k :=
  happens_of_event (exec_carriageFrameReceived · f) fun u hu =>
    have ⟨ha, hp, hn, hk⟩ := h u hu
    ⟨by simp [ha, hp], (carHeard_tenant hn).trans hk⟩

/-- What a command or an acknowledge of an association brings about, by how its number stands to the series (03 R106,
R107). -/
def carNumbered (kind : Nat) (a : Assoc) (head rest : List Byte) (s : State) : SeqCase → State
  | .replay => s.setTenant (le head 1 1) { s.tenant (le head 1 1) with
      dropReplay := satInc 0xFFFFFFFF (s.tenant (le head 1 1)).dropReplay }
  | .seen => if kind = 0 then carAck (le head 1 1) 0 (le head 4 4) s else s
  | .fresh =>
    if kind = 0 then carCommand (le head 1 1) a head rest s
    else if le head 3 1 = 0 && carBare a head rest then
      doneOut (le head 1 1) (le head 16 4) (s.setAssoc (le head 1 1) (a.accept (le head 4 4)))
    else s.setTenant (le head 1 1) { s.tenant (le head 1 1) with
      dropTag := satInc 0xFFFFFFFF (s.tenant (le head 1 1)).dropTag }

section
variable {f : Carriage} {head rest : List Byte} {s : State} (hb : f.bytes = head ++ rest) (hl : head.length = 20)
include hb hl

/-- A frame of a tenant without an association is foreign (03 R104). -/
theorem carReceive_unbound (ha : (s.tenant (le head 1 1)).assoc = none) :
    carReceive f s = carForeign (le head 1 1) s := by
  simp only [carReceive, hb, List.take_left' hl, ha]

/-- A command or an acknowledge of the tenant's association goes by its number (03 R104, R106). -/
theorem carReceive_bound {a : Assoc} {kind : Nat} (ha : (s.tenant (le head 1 1)).assoc = some a)
    (hk : le head 0 1 = 0x10 + kind) (hp : f.port = a.port) (hm : f.src = a.mac)
    (hx : a.cmac = true ∨ f.rxsc = some a.rxsc) (hc : kind = 0 ∨ kind = 3) :
    carReceive f s = carNumbered kind a head rest s (a.seqCase (le head 4 4)) := by
  have hversion : (0x10 + kind) / 16 = 1 := by omega
  have hkind : (0x10 + kind) % 16 = kind := by omega
  have hmac : (!a.cmac && f.rxsc != some a.rxsc) = false := by rcases hx with h | h <;> simp [h]
  have hknown : (kind != 0 && kind != 3) = false := by rcases hc with rfl | rfl <;> rfl
  simp only [carReceive, hb, List.take_left' hl, List.drop_left' hl, ha, hk, hversion, hkind, hl, hp, hm, hmac, hknown,
    bne_self_eq_false, Nat.lt_irrefl, decide_false, Bool.or_self, Bool.false_eq_true, if_false]
  cases a.seqCase (le head 4 4) <;> simp only [carNumbered, ha]

end

/-- A new command frame in order, of which some items verify and fit their queue, is accepted: they enter the queue in
frame order and the frame is acknowledged (03 R107). -/
theorem carCommand_accepted {t : Nat} {a : Assoc} {head rest : List Byte} {s v : State}
    {items : List (List Byte × List Byte)} {x : List Byte} {xs : List (List Byte)} (hn : le head 3 1 ≠ 0)
    (hi : carItems a.cmac (le head 3 1) rest = some items) (hlen : head.length + rest.length + 18 ≤ 9216)
    (hq : le head 2 1 ≤ 3) (hv : carVerify t a head items (checkPtrs t (le head 2 1) s) = (x :: xs, v))
    (he : (v.queue t (le head 2 1)).ptrErr = false)
    (hr : ((x :: xs).map (fun b => (itemSlots b).length)).sum ≤ (v.queue t (le head 2 1)).room) :
    carCommand t a head rest s =
      carAck t 0 (le head 4 4) ((x :: xs).foldl
        (fun s b => postItem t (le head 2 1) (mkSlots (v.queue t (le head 2 1)).gen (itemSlots b)) s)
        (v.setAssoc t (a.accept (le head 4 4)))) := by
  have hfit : ¬ (9216 < head.length + rest.length + 18 ∨ 3 < le head 2 1) := by omega
  simp only [carCommand, hn, hi, hfit, hv, he, Nat.not_lt.2 hr, reduceCtorEq, decide_false, Bool.or_self,
    Bool.false_eq_true, if_false]

/-! ### Frames sent -/

/-- A frame leaves Teller while SWX runs (01 R22, 03 R108). -/
theorem carSend_running {a : Assoc} {bs : List Byte} {s : State} (h : s.running 2 = true) :
    carSend a bs s = tellerSend { port := a.port } (s.sp 15).defPcp
      { dst := a.mac, src := s.image.gwAddr, etype := s.net.etype, payload := bs } (settleNet s) := by
  simp only [carSend, carOut, h, Bool.not_true, Bool.false_eq_true, if_false]

/-- As many items of a list as fit a frame (03 R108). -/
def carFit (a : Assoc) (s : State) (l : List (List Byte × Nat)) : List (List Byte × Nat) :=
  (fitItems ((s.sp a.port).mtu - 42) (if a.cmac then 8 else 0) l).take 255

/-- Of some items, one at least goes into the frame. -/
theorem carFit_ne_nil (a : Assoc) (s : State) (x : List Byte × Nat) (xs : List (List Byte × Nat)) :
    carFit a s (x :: xs) ≠ [] := by
  simp [carFit, fitItems]

/-- The frame that carries items to a tenant. -/
def carFrame (t kind : Nat) (a : Assoc) (items : List (List Byte × Nat)) (s : State) : OutFrame :=
  { fseq := a.txSeq, kind := kind, slots := (items.map (·.2)).sum
    bytes := carBytes a (carHeader kind t 0 items.length a.txSeq (s.sqRoom t) 0) (items.map (·.1)), sentAt := s.clk }

/-- The association with a frame of its series open. -/
def Assoc.opened (a : Assoc) (o : OutFrame) : Assoc := { a with txSeq := (a.txSeq + 1) % 2 ^ 32, outs := a.outs ++ [o] }

section
variable {t : Nat} {a : Assoc} {s : State} (ha : (s.tenant t).assoc = some a)
include ha

/-- Replies that wait go into the next frame (03 R108). -/
theorem carNext_replies {x : List Byte × Nat} {xs : List (List Byte × Nat)} (h : s.unsent t 4 a = x :: xs) :
    carNext t s =
      let o := carFrame t 1 a (carFit a s (x :: xs)) s
      carSend a o.bytes (s.setAssoc t (a.opened o)) := by
  have hne := carFit_ne_nil a s x xs
  unfold carFit at hne
  simp only [carNext, ha, h, reduceCtorEq, if_true, if_false, hne]
  rfl

/-- Notices do where no reply waits (03 R108). -/
theorem carNext_notices {x : List Byte × Nat} {xs : List (List Byte × Nat)} (h4 : s.unsent t 4 a = [])
    (h5 : s.unsent t 5 a = x :: xs) :
    carNext t s =
      let o := carFrame t 2 a (carFit a s (x :: xs)) s
      carSend a o.bytes (s.setAssoc t (a.opened o)) := by
  have hne := carFit_ne_nil a s x xs
  have h54 : ¬ (5 : Nat) = 4 := by decide
  unfold carFit at hne
  simp only [carNext, ha, h4, h5, h54, if_true, if_false, hne]
  rfl

variable {fseq : Nat} {o : OutFrame} (hd : a.dueOut fseq s.clk = some o)
include hd

/-- A frame that is due goes again until its eighth transmission (03 R108). -/
theorem tenResend_again (hs : o.sends < 8) :
    tenResend t fseq s = carSend a o.bytes (s.setAssoc t (resent fseq s.clk a)) := by
  simp only [tenResend, ha, hd, hs, if_true]

/-- After it, it is abandoned (03 R108, 04 R121). -/
theorem tenResend_abandoned (hs : 8 ≤ o.sends) : tenResend t fseq s = tenFault t 2 (abandonOut t o s) := by
  simp only [tenResend, ha, hd, Nat.not_lt.2 hs, if_false]

end

/-- A command frame that is due to a peer goes again until its eighth transmission (18 R558). -/
theorem peerResend_again {p fseq : Nat} {x : ImgPeer} {o : OutFrame} {s : State} (hp : s.peer? p = some x)
    (hd : x.assoc.dueOut fseq s.clk = some o) (hs : o.sends < 8) :
    peerResend p fseq s = carSend x.assoc o.bytes (s.setPeer p { x with assoc := resent fseq s.clk x.assoc }) := by
  simp only [peerResend, hp, hd, hs, if_true]

/-- A frame due to a tenant is looked for in the tenant's association. -/
theorem happens_of_tenant {t fseq : Nat} {cond : State → Prop} {k : State → State}
    (h : ∀ u, cond u → u.alive 3 = true ∧ t < 32 ∧ tenResend t fseq u = k u) :
    Happens (fun e => .carriageRetransmit e t fseq) cond k :=
  happens_of_event (exec_carriageRetransmit · t fseq) fun u hu =>
    have ⟨ha, ht, hk⟩ := h u hu
    ⟨ha, by rw [if_pos ht, hk]⟩

/-- Settles O57: each row by what its frame, or the frame that is due, brings about. -/
theorem carriageRowsHappen : Obligations.CarriageRowsHappen := by
  refine ⟨fun f head rest a kind items x xs v => ?command, fun f head rest a kind => ?acknowledge,
    fun f head rest a kind => ?duplicate, fun f head rest a kind => ?replay, fun f head rest => ?foreign,
    fun t a x xs items => ?replies, fun t a x xs items => ?notices, fun t fseq a o => ?again,
    fun t fseq a o => ?abandoned, fun t fseq p x o => ?peer⟩
  case command =>
    refine happens_of_frame ?_
    rintro u ⟨h3, h14, hn, hb, hl, ha, hk, hp, hm, hx, hc, hseq, hcount, hi, hlen, hq, hv, he, hr⟩
    refine ⟨h3, h14, hn, ?_⟩
    rw [carReceive_bound hb hl ha hk hp hm hx (.inl hc), hseq, carNumbered, if_pos hc,
      carCommand_accepted hcount hi hlen hq hv he hr]
  case acknowledge =>
    refine happens_of_frame ?_
    rintro u ⟨h3, h14, hn, hb, hl, ha, hk, hp, hm, hx, hc, hseq, hcount, hbare⟩
    refine ⟨h3, h14, hn, ?_⟩
    rw [carReceive_bound hb hl ha hk hp hm hx (.inr hc), hseq, carNumbered, if_neg (by omega),
      if_pos (by simp [hcount, hbare])]
  case duplicate =>
    refine happens_of_frame ?_
    rintro u ⟨h3, h14, hn, hb, hl, ha, hk, hp, hm, hx, hc, hseq⟩
    refine ⟨h3, h14, hn, ?_⟩
    rw [carReceive_bound hb hl ha hk hp hm hx (.inl hc), hseq, carNumbered, if_pos hc]
  case replay =>
    refine happens_of_frame ?_
    rintro u ⟨h3, h14, hn, hb, hl, ha, hk, hp, hm, hx, hc, hseq⟩
    refine ⟨h3, h14, hn, ?_⟩
    rw [carReceive_bound hb hl ha hk hp hm hx hc, hseq, carNumbered]
  case foreign =>
    refine happens_of_frame ?_
    rintro u ⟨h3, h14, hn, hb, hl, ha, he⟩
    refine ⟨h3, h14, hn, ?_⟩
    rw [carReceive_unbound hb hl ha, carForeign, if_pos he]
  case replies =>
    refine happens_of_event (exec_carriageSend · t) ?_
    rintro u ⟨h3, h2, ha, h4, rfl⟩
    exact ⟨h3, (carNext_replies ha h4).trans (carSend_running h2)⟩
  case notices =>
    refine happens_of_event (exec_carriageSend · t) ?_
    rintro u ⟨h3, h2, ha, h4, h5, rfl⟩
    exact ⟨h3, (carNext_notices ha h4 h5).trans (carSend_running h2)⟩
  case again =>
    refine happens_of_tenant ?_
    rintro u ⟨h3, h2, ht, ha, hd, hs⟩
    exact ⟨h3, ht, (tenResend_again ha hd hs).trans (carSend_running h2)⟩
  case abandoned =>
    refine happens_of_tenant ?_
    rintro u ⟨h3, ht, ha, hd, hs⟩
    exact ⟨h3, ht, tenResend_abandoned ha hd hs⟩
  case peer =>
    refine happens_of_event (exec_carriageRetransmit · t fseq) ?_
    rintro u ⟨h3, h2, ht, hp, hd, hs⟩
    have hnot : ¬ t < 32 := by omega
    have hsub : t - 32 = p := by omega
    refine ⟨h3, ?_⟩
    rw [if_neg hnot, hsub]
    exact (peerResend_again hp hd hs).trans (carSend_running h2)

end Sys2Proof.Machine
end

section
/-!
SUPPORT. The state after reset: tables that hold nothing but T0 and its queues, so that every object else stands at the
values of its type (04 R110, R111, log 3).
-/

namespace Sys2Proof.Machine

/-- After reset every island stands at its reset values. -/
theorem reset_island (n : Nat) : State.reset.island n = {} := rfl

/-- So does every port of the switch. -/
theorem reset_sp (p : Nat) : State.reset.sp p = {} := rfl

/-- T0 is as the module builds it without an image (04 R111). -/
theorem reset_tenant_zero : State.reset.tenant 0 = defaultT0 := rfl

/-- No other tenant exists (04 R110). -/
theorem reset_tenant_other {t : Nat} (h : t ≠ 0) : State.reset.tenant t = {} := if_neg h

/-- T0's queues are those of a module without an image (04 R111). -/
theorem reset_queue {q : Nat} (h : q < 6) : State.reset.queue 0 q = { depth := 6, spill := 4090 + q } := by
  revert q
  decide

/-- The reset map of PCP 0 and 1 is exchanged, every other PCP is its own class (10 R299). -/
theorem reset_tcOf {c : Nat} (h : c < 8) : ({} : SwPort).tcOf c = if c = 0 then 1 else if c = 1 then 0 else c := by
  revert c
  decide

/-- Every class ages at 50 ms (10 R312). -/
theorem reset_ageOf (tc : Nat) : ({} : SwPort).ageOf tc = 50000000 := by
  rw [SwPort.ageOf, look_nil]

/-- Settles O2: by the values of the objects after reset. -/
theorem resetLeavesThese : Obligations.ResetLeavesThese := by
  refine ⟨wf_nil, rfl, rfl, rfl, fun n _ => ?island, fun p _ => rfl, fun p _ => rfl, ?t0, fun t _ h0 => ?tenants,
    fun q hq => ?queues, fun p _ => ?ages, fun p _ => ?classes, rfl, rfl, rfl, rfl, rfl, rfl, rfl⟩
  case island => rw [State.running, reset_island]; rfl
  case t0 => rw [reset_tenant_zero]; exact ⟨rfl, rfl, rfl, rfl, rfl, rfl⟩
  case tenants => rw [reset_tenant_other h0]
  case queues => rw [reset_queue hq]; exact ⟨rfl, rfl⟩
  case ages => rw [reset_sp]; exact ⟨rfl, fun tc _ => ⟨reset_ageOf tc, rfl⟩⟩
  case classes =>
    rw [reset_sp]
    refine ⟨reset_tcOf (by decide), reset_tcOf (by decide), fun c hc h2 => ?_⟩
    rw [reset_tcOf hc, if_neg (by omega), if_neg (by omega)]

end Sys2Proof.Machine
end

section
/-!
SUPPORT. The TEN commands on tenants (04 R113 to R126, R132): the right that only T0 has, and what each answers.
-/

namespace Sys2Proof.Machine

/-- A packet in order and of an accepted length, whose issuer lacks the opcode's right, is DENIED (02 R54, 04 R112). -/
theorem checks_noRight {o : OpSpec} {t : Nat} {p : Pkt} {s : State} (hv : p.version = 2) (hr : p.rsv = false)
    (ht : p.field = t) (h1 : o.p1 = true) (hlen : p.plen ≤ 1020) (hn : o.plen p.plen = true)
    (hp : o.plenP p.params = true) (hd : o.right t p.params s = false) : checks (some o) t p s = some .denied := by
  have hver : versionOk (s.tenant t).profile p.version = true := by simp [versionOk, hv]
  simp [checks, hver, hr, ht, h1, Nat.not_lt.2 hlen, hn, hp, hd]

/-- Such a packet of a served tenant ends its command with DENIED and changes nothing (02 R54). -/
theorem submit_noRight {o : OpSpec} {r : Req} {s : State} (hs : s.serves r.tenant = true)
    (hf : s.slotFree r.tenant = true) (hv : r.version = 2) (h1 : o.p1 = true) (hlen : r.params.length ≤ 1020)
    (hn : o.plen r.params.length = true) (hp : o.plenP r.params = true)
    (hd : ∀ b, o.right r.tenant r.params b = false) :
    submit o r s = finishCmd s.nextId .denied [] (enterCmd (cmdOf o r s) s) :=
  submit_refused hs hf (checks_noRight hv rfl rfl h1 hlen hn hp (hd _))

/-- Another tenant lacks the right that only T0 has. -/
theorem onlyT0_other {t : Nat} {ps : List Word} {b : State} (h : t ≠ 0) : onlyT0 t ps b = false := by
  simp [onlyT0, h]

/-- Settles O11: the five opcodes have a right that only T0 holds, so check 7 refuses every other tenant. -/
theorem onlyTheManagerChangesTenants : Obligations.OnlyTheManagerChangesTenants := by
  rintro e r s _ rfl h0 hs hf hv
  have hright : ∀ b, onlyT0 r.tenant r.params b = false := fun _ => onlyT0_other h0
  have hother : ∀ x : Bool, (r.tenant == 0 && x) = false := fun x => by simp [h0]
  refine ⟨fun hl => congrArg Host.Outcome.next ?create, fun hl => congrArg Host.Outcome.next ?delete,
    fun hl => congrArg Host.Outcome.next ?bind, fun hl => congrArg Host.Outcome.next ?share,
    fun hl => congrArg Host.Outcome.next ?rights⟩
  case create => exact submit_noRight hs hf hv rfl (by omega) (beq_iff_eq.2 hl) rfl hright
  case delete => exact submit_noRight hs hf hv rfl (by omega) (beq_iff_eq.2 hl) rfl fun _ => hother _
  case bind =>
    have hlen : r.params.length = 4 ∨ r.params.length = 19 := by split at hl <;> omega
    exact submit_noRight hs hf hv rfl (by omega) (by simpa [tenBindSpec] using hlen) (beq_iff_eq.2 hl) hright
  case share => exact submit_noRight hs hf hv rfl (by omega) (beq_iff_eq.2 hl) rfl hright
  case rights => exact submit_noRight hs hf hv rfl (by omega) (beq_iff_eq.2 hl) rfl fun _ => hother _

/-- A share of a pool other than the command slots counts as it stands (04 R113). -/
theorem shareVal_pos {pool v : Nat} (h : pool ≠ 0) : shareVal pool v = v := by simp [shareVal, h]

/-- TEN_SHARE of a pool other than those of VNICs and endpoints, where no holding of the tenant's bounds the share
(04 R117). -/
theorem tenShare_plain {c : Cmd} {s : State} {t pool v : Nat} (ht : parTen c.params = t)
    (hp : fld (par c.params 0) 11 8 = pool) (hv : shareVal pool (par c.params 1).toNat = v)
    (hc : s.covers t pool v = true) (h2 : pool ≠ 2) (h3 : pool ≠ 3) :
    tenShareSpec.exec c s = .done .ok [wd ((s.tenant t).share pool)]
      (if pool = 1 then serveTenant t (s.setTenant t ((s.tenant t).setShare pool v))
       else s.setTenant t ((s.tenant t).setShare pool v)) := by
  simp [tenShareSpec, ht, hp, hv, hc, h2, h3]

/-- Settles O53: each row by what its opcode's execution answers. -/
theorem tenantCommandsComplete : Obligations.TenantCommandsComplete := by
  refine ⟨?create, ?taken, ?query, ?share, ?shareXfer, ?rights, ?enable, ?reset, ?join, ?delete, ?resume, ?bind⟩
  case create =>
    refine completes (row_submits (by decide) fun _ _ _ => rfl) fun k r b hp _ _ h => ?_
    obtain ⟨ht, ho, hs⟩ := h
    simp only [tenCreateSpec, hp, ht, ho, hs, Bool.not_true, Bool.false_eq_true, if_false, Ans.okay]
  case taken =>
    refine fails (row_submits (by decide) fun _ _ _ => rfl) fun k r b hp _ _ h => ?_
    simp only [tenCreateSpec, hp, h, if_true, Ans.fail]
  case query =>
    refine completes (row_submits (by decide) fun _ _ _ => rfl) fun k r b hp _ _ _ => ?_
    simp only [tenQuerySpec, hp]
  case share =>
    refine completes (row_submits (by decide) fun _ _ _ => rfl) fun k r b hp _ _ h => ?_
    obtain ⟨hc, h1, h2, h3⟩ := h
    rw [← hp] at hc h1 h2 h3 ⊢
    rw [tenShare_plain rfl rfl rfl hc h2 h3, if_neg h1]
  case shareXfer =>
    refine completes (row_submits (by decide) fun _ _ _ => rfl) fun k r b hp _ _ h => ?_
    obtain ⟨h1, hc⟩ := h
    rw [← hp] at hc h1 ⊢
    rw [tenShare_plain rfl h1 (shareVal_pos (by decide)) hc (by decide) (by decide), if_pos rfl]
    rfl
  case rights =>
    refine completes (row_submits (by decide) fun _ _ _ => rfl) fun k r b hp _ _ _ => ?_
    simp only [tenRightsSpec, hp, Ans.okay]
  case enable =>
    refine completes (row_submits (by decide) fun _ _ _ => rfl) fun k r b hp _ _ h => ?_
    obtain ⟨hr, hl⟩ := h
    simp only [tenIslandEnableSpec, hp, islEnable_run hr hl]
  case reset =>
    refine opens (row_submits (by decide) fun _ _ _ => rfl) fun k r b hp _ _ h => ?_
    rcases h with h | h <;> simp only [tenResetSpec, hp, h]
  case join =>
    refine accepts (row_submits (by decide) fun _ _ _ => rfl) fun k r b hp _ _ h => ?_
    simp only [tenResetSpec, hp, h]
  case delete =>
    refine opens (row_submits (by decide) fun _ _ _ => rfl) fun k r b hp _ _ h => ?_
    obtain ⟨ho, hv, hl⟩ := h
    simp only [tenDeleteSpec, hp, ho, hv, hl, reduceCtorEq, Bool.false_eq_true, ne_eq, not_true_eq_false, or_self,
      if_false]
  case resume =>
    refine completes (row_submits (by decide) fun _ _ _ => rfl) fun k r b hp _ _ h => ?_
    simp only [tenResumeSpec, hp, h, if_true, Ans.okay]
  case bind =>
    refine completes (row_submits (by decide) fun _ _ _ => rfl) fun k r b hp _ _ h => ?_
    simp only [tenBindSpec, hp, h, List.foldl_nil, Ans.okay]

end Sys2Proof.Machine
end

section
/-!
SUPPORT. The rows on virtual instances (04 R127 to R133): what the commands answer, and the ends of resets.
-/

namespace Sys2Proof.Machine

/-- A reset among the instances ends once none of its descriptors is in flight (04 R129). -/
theorem exec_viResetComplete (e : Stim) (kind idx : Nat) (s : State) :
    exec (.viResetComplete e kind idx) s =
      event e s (fun s => (s.vi kind idx).any (fun v => v.resetting && v.fetched.all (fun d => !d.live)))
        (viResetEnd kind idx) := rfl

/-- The reset or the deletion of a tenant ends once its commands and instances are idle (04 R123, R125). -/
theorem exec_tenResetDone (e : Stim) (t : Nat) (s : State) :
    exec (.tenResetDone e t) s =
      event e s (fun s => ((s.tenant t).st == .resetting || (s.tenant t).st == .deleting) && s.tenIdle t)
        (fun s => if (s.tenant t).st = .deleting then tenGone t s else tenLive t s) := rfl

/-- Settles O54: each row by what its opcode's execution answers, or by the end of the reset. -/
theorem instanceRowsComplete : Obligations.InstanceRowsComplete := by
  refine ⟨?endpoint, ?vnic, ?delete, ?reset, fun v => ?query, fun kind idx v => ?resetEnds, fun t => ?live,
    fun t => ?gone⟩
  case endpoint =>
    refine completes (row_submits (by decide) fun _ _ _ => rfl) fun k r b hp _ _ h => ?_
    obtain ⟨hk, hn, hs⟩ := h
    simp only [tenViCreateSpec, hp, hk, hn, hs, Bool.not_true, Bool.false_eq_true, Option.isSome_none, if_false,
      one_ne_zero, ne_eq, not_false_eq_true, if_true]
  case vnic =>
    refine completes (row_submits (by decide) fun _ _ _ => rfl) fun k r b hp _ _ h => ?_
    obtain ⟨hk, hn, hs, hf, hput⟩ := h
    obtain ⟨t, ht⟩ := Option.isSome_iff_exists.1 hput
    simp only [tenViCreateSpec, hp, hk, hn, hs, hf, ht, Bool.not_true, Bool.false_eq_true, Option.isSome_none, if_false,
      ne_eq, not_true_eq_false, Option.getD_some]
  case delete =>
    refine opens (row_submits (by decide) fun _ _ _ => rfl) fun k r b hp _ _ h => ?_
    simp only [tenViDeleteSpec, hp, Option.isNone_iff_eq_none, h, if_false, viResetCmd, Bool.or_true] <;> rfl
  case reset =>
    refine opens (row_submits (by decide) fun _ _ _ => rfl) fun k r b hp _ _ h => ?_
    simp only [tenViResetSpec, hp, Option.isNone_iff_eq_none, h, if_false, viResetCmd, Bool.or_false] <;> rfl
  case query =>
    refine completes (row_submits (by decide) fun _ _ _ => rfl) fun k r b hp _ _ h => ?_
    simp only [tenViQuerySpec, hp, h]
  case resetEnds =>
    refine happens_of_event (exec_viResetComplete · kind idx) ?_
    rintro u ⟨hv, hr, hd⟩
    exact ⟨by rw [hv, Option.any_some, hr, hd, Bool.and_self], rfl⟩
  case live =>
    refine happens_of_event (exec_tenResetDone · t) ?_
    rintro u ⟨hr, hi⟩
    exact ⟨by simp [hr, hi], by simp [hr, tenLive]⟩
  case gone =>
    refine happens_of_event (exec_tenResetDone · t) ?_
    rintro u ⟨hd, hi⟩
    exact ⟨by simp [hd, hi], if_pos hd⟩

end Sys2Proof.Machine
end

section
/-!
SUPPORT. The rows of the switch (10 R298 to R315): what a frame meets at its port, its way into and out of a queue.
-/

namespace Sys2Proof.Machine

/-- The frames of a cycle are taken while SWX runs, after what is due in it (10 R299, R315). -/
theorem exec_frameReceived (e : Stim) (fs : List RxFrame) (s : State) :
    exec (.frameReceived e fs) s = event e s (·.running 2) (fun s => receiveAll fs (settleNet s)) := rfl

/-- A frame is queued as the next whose last cell has been written (10 R307). -/
theorem exec_frameQueued (e : Stim) (id : Nat) (s : State) :
    exec (.frameQueued e id) s = event e s (·.queueNext id) (fun s => queueFrame id (settleNet s)) := rfl

/-- A port with its link that sends nothing selects its next frame (10 R311). -/
theorem exec_transmissionStart (e : Stim) (port : Nat) (s : State) :
    exec (.transmissionStart e port) s =
      event e s (fun s => decide (port < 16) && s.running 2 && s.linked port && (s.sp port).sending.isNone)
        (fun s => selectNext port ((settleNet s).queued port + 1) (foldCredits port (settleNet s))) := rfl

/-- What ends the transmission of a port: the copy being sent, if there is one (10 R313). -/
def sendingEnds (port : Nat) (s : State) : State :=
  match (s.sp port).sending with
  | none => s
  | some t => match s.stored? t.id with
    | none => s.setSp port { s.sp port with sending := none }
    | some f => if port = 15 then tellerFrame f.iport f.frame (endSend port t f s) else endSend port t f s

/-- A transmission ends at a port that sends (10 R313). -/
theorem exec_transmissionEnd (e : Stim) (port : Nat) (s : State) :
    exec (.transmissionEnd e port) s =
      event e s (fun s => decide (port < 16) && (s.sp port).sending.isSome)
        (fun s => sendingEnds port (foldCredits port s)) := rfl

/-- The head of a class at a port is dropped and counted once its ageing window has passed (10 R312). -/
def dropAged (port : Nat) (s : State) (tc : Nat) : State :=
  match (s.sp port).q tc with
  | [] => s
  | id :: _ =>
    if (s.stored? id).any (fun f =>
        decide (s.tim.full < f.stamp) || decide (f.stamp + (s.sp port).ageOf tc ≤ s.tim.full)) then
      dropCopy port cAGED id (popHead port tc s)
    else s

/-- The heads of a port without a link meet the ageing window (10 R312). -/
theorem exec_agedHeadCheck (e : Stim) (port : Nat) (s : State) :
    exec (.agedHeadCheck e port) s =
      event e s (fun s => decide (port < 16) && !s.linked port) (fun s => (List.range 8).foldl (dropAged port) s) := rfl

/-! ### Frames received (10 R298, R299) -/

/-- One frame of a cycle, at a port with its link. -/
theorem receiveAll_one {f : RxFrame} {s : State} (hp : f.port < 14) (hl : s.linked f.port = true) :
    receiveAll [f] s = receive f s := by
  simp [receiveAll, byPort, hp, hl]

section
variable {f : RxFrame} {s : State} (hs : f.sec = none)
include hs

/-- A frame shorter than 64 bytes is a runt. -/
theorem receive_runt (h : frameLen f.frame < 64) : receive f s = countPort f.port cRUNT 1 s := by
  simp only [receive, hs, h, if_true]

/-- One longer than its port's MTU is oversize. -/
theorem receive_oversize (h : 64 ≤ frameLen f.frame) (hm : (s.sp f.port).mtu < frameLen f.frame) :
    receive f s = countPort f.port cOVERSIZE 1 s := by
  simp only [receive, hs, Nat.not_lt.2 h, hm, if_true, if_false]

/-- One of a length in range may have a wrong check sequence. -/
theorem receive_badFcs (h : 64 ≤ frameLen f.frame) (hm : frameLen f.frame ≤ (s.sp f.port).mtu)
    (hf : f.fcsOk = false) : receive f s = countPort f.port cFCSERR 1 s := by
  simp only [receive, hs, Nat.not_lt.2 h, Nat.not_lt.2 hm, hf, Bool.not_false, if_true, if_false]

/-- A frame in order is counted and forwarded. -/
theorem receive_forwards (h : 64 ≤ frameLen f.frame) (hm : frameLen f.frame ≤ (s.sp f.port).mtu)
    (hf : f.fcsOk = true) (hmac : s.macOn f.port = false) :
    receive f s =
      (forward f.port none none (s.sp f.port).pvid (s.sp f.port).defPcp f.frame (countIn f.port f.frame s)).1 := by
  simp only [receive, hs, Nat.not_lt.2 h, Nat.not_lt.2 hm, hf, hmac, Bool.not_true, Bool.false_eq_true, if_false]

end

/-- A single frame at a port with its link is received in the state that what is due leaves. -/
theorem happens_of_oneFrame {fs : List RxFrame} {f : RxFrame} {cond : State → Prop} {k : State → State}
    (h : ∀ u, cond u → fs = [f] ∧ f.port < 14 ∧ u.running 2 = true ∧ (settleNet u).linked f.port = true ∧
      receive f (settleNet u) = k u) : Happens (fun e => .frameReceived e fs) cond k :=
  happens_of_event (exec_frameReceived · fs) fun u hu =>
    have ⟨hfs, hp, hr, hl, hk⟩ := h u hu
    ⟨hr, by rw [hfs, receiveAll_one hp hl, hk]⟩

/-! ### Queues (10 R307, R311) -/

/-- A frame for one destination that was not flushed goes to the end of its queue there (10 R307). -/
theorem queueFrame_one {id p tc : Nat} {f : Stored} {s : State} (h : s.stored? id = some f) (hd : f.dests = [(p, tc)])
    (hc : f.cut = []) :
    queueFrame id s =
      let s0 := foldCredits p (setStored { f with dests := [] } s)
      s0.setSp p ((s0.sp p).setQ tc ((s0.sp p).q tc ++ [id])) := by
  simp only [queueFrame, h, hd, hc, List.foldl_cons, List.foldl_nil, List.contains_nil, Bool.false_eq_true, if_false]

/-- The head of the highest class that does not pass is begun when it may be sent (10 R311). -/
theorem selectNext_sends {p n tc id : Nat} {f : Stored} {s : State}
    (ht : [7, 6, 5, 4, 3, 2, 1, 0].find? (fun c => pick p c s != .pass) = some tc) (hp : pick p tc s = .send id)
    (hf : s.stored? id = some f) :
    selectNext p (n + 1) s =
      let s1 := popHead p tc s
      let an := if s.protects p f then some (s.txan p) else none
      stampTx p f (s1.setSp p { s1.sp p with sending := some { id := id, tc := tc, an := an } }) := by
  simp only [selectNext, ht, hp, hf]

/-! ### The end of a transmission (10 R313, 11 R352) -/

/-- The copy being sent ends; what ends at P15 has reached Teller (10 R313). -/
theorem sendingEnds_copy {port : Nat} {t : Sending} {f : Stored} {s : State} (ht : (s.sp port).sending = some t)
    (hf : s.stored? t.id = some f) :
    sendingEnds port s =
      if port = 15 then tellerFrame f.iport f.frame (endSend port t f s) else endSend port t f s := by
  simp only [sendingEnds, ht, hf]

/-- The port with its copy sent, and the frame counted (10 R313, R322). -/
def copySent (p : Nat) (f : Stored) (sec : Option SecTag) (s : State) : State :=
  let g := s.egress p f
  countPort p cTXBYTES (frameLen g + s.macOverhead p f)
    (countPort p cTXFRAMES 1 (s.setSp p { s.sp p with sending := none, out := some g, outSec := sec }))

/-- Off P14, a copy without protection is counted and released; gPTP at P15 is taken (09 R270). -/
theorem endSend_plain {p : Nat} {t : Sending} {f : Stored} {s : State} (hp : p ≠ 14) (ha : t.an = none) :
    endSend p t f s =
      releaseCopy t.id (if p = 15 ∧ f.frame.etype = 0x88F7 then gptpIn f.iport f.frame.payload (copySent p f none s)
        else copySent p f none s) := by
  simp only [endSend, hp, ha, if_false, if_true, Option.map_none, copySent]

/-- A protected copy advances the PN of its SA (11 R352). -/
theorem endSend_protected {p an : Nat} {t : Sending} {f : Stored} {s : State} (hp : p < 14) (ha : t.an = some an) :
    endSend p t f s =
      releaseCopy t.id (nextPn p an (countMac p 8 (copySent p f (some (s.secTag p an (s.egress p f))) s))) := by
  have h14 : p ≠ 14 := by omega
  have h15 : p ≠ 15 := by omega
  simp only [endSend, h14, h15, ha, if_false, if_true, Option.map_some, false_and, copySent]

/-- A copy that a port sends ends. -/
theorem happens_of_copy {port : Nat} {t : Sending} {f : Stored} {cond : State → Prop} {k : State → State}
    (h : ∀ u, cond u → port < 16 ∧ (u.sp port).sending.isSome = true ∧ ((foldCredits port u).sp port).sending = some t ∧
      (foldCredits port u).stored? t.id = some f ∧
      (if port = 15 then tellerFrame f.iport f.frame (endSend port t f (foldCredits port u))
        else endSend port t f (foldCredits port u)) = k u) :
    Happens (fun e => .transmissionEnd e port) cond k :=
  happens_of_event (exec_transmissionEnd · port) fun u hu =>
    have ⟨hp, hs, ht, hf, hk⟩ := h u hu
    ⟨by simp [hp, hs], (sendingEnds_copy ht hf).trans hk⟩

end Sys2Proof.Machine
end

section
/-!
SUPPORT. The rows of the shared engines (10 R318, 15 R475): the owner's write of SQP, and the end of a transfer.
-/

namespace Sys2Proof.Machine

/-- The owner writes SQP while FBX runs (10 R318). -/
theorem exec_sqpWrite (e : Stim) (who kind idx sqp : Nat) (s : State) :
    exec (.sqpWrite e who kind idx sqp) s = event e s (·.running 1) (sqpWrite who kind idx sqp) := rfl

/-- A transfer that the engines may end ends (15 R475). -/
theorem exec_transferComplete (e : Stim) (x : RingRef) (badAt : Option Nat) (s : State) :
    exec (.transferComplete e x badAt) s =
      event e s (·.xferReady x.kind x.idx x.index) (xferEnd x.kind x.idx x.index badAt) := rfl

section
variable {who kind idx sqp p : Nat} {v : Vi} {s : State} (hv : s.vi kind idx = some v) (hw : partOfReq who = some p)
include hv hw

/-- Within its regions and clear of the Vault, the pointer is stored and the ring served (10 R318). -/
theorem sqpWrite_stores (hr : s.inRegion p (pageAddr (v.ctlPage kind)) 2 1 = true)
    (ha : s.vaultAddr (pageAddr (v.ctlPage kind)) = false) :
    sqpWrite who kind idx sqp s =
      serveKey ((s.setVi kind idx (some { v with sqp := sqp % 2 ^ 16 })).writeMem (pageAddr (v.ctlPage kind))
        (bytesOf 2 (sqp % 2 ^ 16))) (kind * 256 + idx) := by
  simp only [sqpWrite, hv, hw, hr, ha, Bool.not_true, Bool.or_self, Bool.false_eq_true, if_false]

/-- Outside its regions the store is refused (15 R452). -/
theorem sqpWrite_refused (hr : s.inRegion p (pageAddr (v.ctlPage kind)) 2 1 = false) :
    sqpWrite who kind idx sqp s = storeRefused p (pageAddr (v.ctlPage kind)) 16 s := by
  simp only [sqpWrite, hv, hw, hr, Bool.not_false, Bool.true_or, if_true]

end

section
variable {kind idx index : Nat} {badAt : Option Nat} {v : Vi} {d : Fetched} {s : State} (hd : v.flying index = some d)
include hd

/-- A transfer that ends during the reset of its ring is dropped (04 R130). -/
theorem xferEnd_resetting (hv : s.vi kind idx = some v) (hr : v.resetting = true) :
    xferEnd kind idx index badAt s = serveAll (xferDropped kind idx v d s) := by
  simp only [xferEnd, hv, hd, hr, if_true]

/-- Outside a reset, a transfer of KIND 2 is a plain one (15 R475). -/
theorem xferEnd_plain (hv : s.vi 2 idx = some v) (hr : v.resetting = false) :
    xferEnd 2 idx index badAt s = serveAll (plainEnd idx v d badAt s) := by
  simp only [xferEnd, hv, hd, hr, Bool.false_eq_true, if_false]

end

section
variable {idx : Nat} {badAt : Option Nat} {v : Vi} {d : Fetched} {s : State}
  (hx : xferOk v.owner (wordBytes d.entry) s = true)
include hx

/-- A plain transfer that meets no bad word moves all of its bytes (15 R475). -/
theorem plainEnd_whole (hb : s.xferBad (wordBytes d.entry) badAt = none) :
    plainEnd idx v d badAt s =
      let b := wordBytes d.entry
      let s1 := complete 2 idx (xferDone b 0 (le b 4 4) d.epoch s.now) (xferMove b (le b 4 4) (dropFetched 2 idx v d s))
      if le b 1 1 % 2 = 1 then deliver v.owner 240 s1 else s1 := by
  simp only [plainEnd, hx, hb, Bool.not_true, Bool.false_eq_true, if_false]

/-- One that meets a bad word moves the bytes before it and ends with INTERNAL (15 R471). -/
theorem plainEnd_cut {n : Nat} (hb : s.xferBad (wordBytes d.entry) badAt = some n) :
    plainEnd idx v d badAt s =
      let b := wordBytes d.entry
      let k := min n (le b 4 4)
      let s1 := complete 2 idx (xferDone b 0xFFFF k d.epoch s.now)
        (badRead (le b 8 5 + k) (xferMove b k (dropFetched 2 idx v d s)))
      if le b 1 1 % 2 = 1 then deliver v.owner 240 s1 else s1 := by
  simp only [plainEnd, hx, hb, Bool.not_true, Bool.false_eq_true, if_false]

end

/-- Settles O60: each row by what its port, its ring or its transfer does. -/
theorem switchAndEngineEventsHappen : Obligations.SwitchAndEngineEventsHappen := by
  refine ⟨fun fs => ?cycle, fun fs f => ?runt, fun fs f => ?forwards, fun fs f => ?oversize, fun fs f => ?badFcs,
    fun id f p tc => ?queues, fun port tc id f => ?sends, fun port t f => ?plainCopy, fun port t f an => ?protectedCopy,
    fun port => ?ages, fun who kind idx sqp v p => ?pointer, fun who kind idx sqp v p => ?refused,
    fun x badAt v d => ?whole, fun x badAt n v d => ?cut, fun x badAt v d => ?dropped⟩
  case cycle => exact happens_of_event (exec_frameReceived · fs) fun u hr => ⟨hr, rfl⟩
  case runt =>
    refine happens_of_oneFrame (f := f) ?_
    rintro u ⟨hfs, hp, hr, hl, hs, hlen⟩
    exact ⟨hfs, hp, hr, hl, receive_runt hs hlen⟩
  case forwards =>
    refine happens_of_oneFrame (f := f) ?_
    rintro u ⟨hfs, hp, hr, hl, hs, hlen, hm, hf, hmac⟩
    exact ⟨hfs, hp, hr, hl, receive_forwards hs hlen hm hf hmac⟩
  case oversize =>
    refine happens_of_oneFrame (f := f) ?_
    rintro u ⟨hfs, hp, hr, hl, hs, hlen, hm⟩
    exact ⟨hfs, hp, hr, hl, receive_oversize hs hlen hm⟩
  case badFcs =>
    refine happens_of_oneFrame (f := f) ?_
    rintro u ⟨hfs, hp, hr, hl, hs, hlen, hm, hf⟩
    exact ⟨hfs, hp, hr, hl, receive_badFcs hs hlen hm hf⟩
  case queues =>
    refine happens_of_event (exec_frameQueued · id) ?_
    rintro u ⟨hn, hf, hd, hc⟩
    exact ⟨hn, queueFrame_one hf hd hc⟩
  case sends =>
    refine happens_of_event (exec_transmissionStart · port) ?_
    rintro u ⟨hp, hr, hl, hs, ht, hpick, hf⟩
    exact ⟨by simp [hp, hr, hl, hs], selectNext_sends ht hpick hf⟩
  case plainCopy =>
    refine happens_of_copy (t := t) (f := f) ?_
    rintro u ⟨hp, hs, ht, hf, h14, ha⟩
    exact ⟨hp, hs, ht, hf, by rw [endSend_plain h14 ha]; rfl⟩
  case protectedCopy =>
    refine happens_of_copy (t := t) (f := f) ?_
    rintro u ⟨hp, hs, ht, hf, h14, ha⟩
    exact ⟨hp, hs, ht, hf, by rw [if_neg (by omega), endSend_protected h14 ha]; rfl⟩
  case ages =>
    refine happens_of_event (exec_agedHeadCheck · port) ?_
    rintro u ⟨hp, hl⟩
    exact ⟨by simp [hp, hl], rfl⟩
  case pointer =>
    refine happens_of_event (exec_sqpWrite · who kind idx sqp) ?_
    rintro u ⟨hr, hv, hw, hin, ha⟩
    exact ⟨hr, sqpWrite_stores hv hw hin ha⟩
  case refused =>
    refine happens_of_event (exec_sqpWrite · who kind idx sqp) ?_
    rintro u ⟨hr, hv, hw, hin⟩
    exact ⟨hr, sqpWrite_refused hv hw hin⟩
  case whole =>
    refine happens_of_event (exec_transferComplete · x badAt) ?_
    rintro u ⟨hk, hr, hv, hn, hd, hx, hb⟩
    rw [hk]
    exact ⟨hr, (xferEnd_plain hd hv hn).trans (congrArg serveAll (plainEnd_whole hx hb))⟩
  case cut =>
    refine happens_of_event (exec_transferComplete · x badAt) ?_
    rintro u ⟨hk, hr, hv, hn, hd, hx, hb⟩
    rw [hk]
    exact ⟨hr, (xferEnd_plain hd hv hn).trans (congrArg serveAll (plainEnd_cut hx hb))⟩
  case dropped =>
    refine happens_of_event (exec_transferComplete · x badAt) ?_
    rintro u ⟨hr, hv, hn, hd⟩
    exact ⟨hr, xferEnd_resetting hd hv hn⟩

end Sys2Proof.Machine
end

section
/-!
SUPPORT. The PWR commands (05 R139, R145, R149, R158, R174, R629) on a channel for which nothing waits.
-/

namespace Sys2Proof.Machine

/-- PWR_SWITCH off of a channel in ON for which nothing waits begins its turn-off (05 R158). -/
theorem switchCh_off {ch d : Nat} {cmd trig : Option Nat} {s : State} (hd : s.dieBusy (chDie ch) = false)
    (hl : (s.chn ch).limp = false) (hs : (s.chn ch).st = .on) (hp : (s.chn ch).pend = none)
    (h2 : (s.chn ch).second = none) (hq : s.req? ch = none) :
    switchCh ch 0 d cmd trig s = (.now .ok, beginOff ch s) := by
  have hkeep : dropSecond ch .flushed (withdraw ch .flushed (dropPend ch .flushed s)) = s := by
    rw [dropPend_none _ hp, withdraw_none _ hq, dropSecond_none _ h2]
  simp only [switchCh, switchOff, hd, hl, hkeep, hs, Bool.or_self, Bool.false_eq_true, if_true, if_false]

/-- A duty that is no increase, nothing waiting, takes effect at the next boundary (05 R149). -/
theorem changeDuty_down {ch d : Nat} {cmd trig : Option Nat} {s : State} (hq : s.req? ch = none)
    (hp : (s.chn ch).pwmEn = true) (hd : d ≤ (s.chn ch).bookedDuty) :
    changeDuty ch d cmd trig s =
      (.now .ok, rephase ch (s.setChn ch { s.chn ch with dutyNext := some d, dutyDown := true })) := by
  simp only [changeDuty, hp, Nat.not_lt.2 hd, withdraw_none _ hq, Bool.not_true, Bool.false_eq_true, if_false]

/-- PWR_CLEAR frees a latched channel that has a block and whose latches are clear (05 R158). -/
theorem clearCh_latched {ch : Nat} {s : State} (hd : s.dieBusy (chDie ch) = false) (hq : s.req? ch = none)
    (hl : (s.chn ch).limp = false) (hs : (s.chn ch).st = .latched) (hh : s.hot ch = false)
    (hw : (s.chn ch).wireLatch = false) (hp : (s.chn ch).pend = none) (hb : (s.chn ch).block.isSome = true) :
    clearCh ch s =
      (.ok, s.setChn ch { (s.chn ch).reload with st := .off, asked := false, clrAt := some s.clk }) := by
  simp only [clearCh, hd, hl, hs, hh, hw, hb, dropPend_none _ hp, withdraw_none _ hq, Bool.or_self, Bool.false_eq_true,
    if_true, if_false]

/-- Settles O16: each row by what its opcode's execution answers. -/
theorem channelCommandsComplete : Obligations.ChannelCommandsComplete := by
  refine ⟨?config, ?readConfig, ?assign, ?off, ?on, ?duty, ?clear, ?status⟩
  case config =>
    refine completes (fun _ _ _ => rfl) fun k r b hp _ _ h => ?_
    obtain ⟨hd, hi, hf⟩ := h
    have hpair : ({ block := some r.params } : Chan).pairFlag = false := hf
    simp only [pwrConfigSpec, pwrConfigExec, hp, hd, hi, hpair, Bool.not_true, Bool.or_self, Bool.false_and,
      Bool.false_eq_true, if_false, Ans.okay]
  case readConfig =>
    refine completes (fun _ _ _ => rfl) fun k r b hp _ _ h => ?_
    simp only [pwrReadConfigSpec, hp, h, Bool.false_eq_true, if_false]
  case assign =>
    refine completes (fun _ _ _ => rfl) fun k r b hp _ _ h => ?_
    obtain ⟨hd, hi⟩ := h
    simp only [pwrAssignSpec, hp, hd, hi, Bool.not_true, Bool.or_self, Bool.false_eq_true, if_false, Ans.okay]
  case off =>
    refine completes (fun _ _ _ => rfl) fun k r b hp _ _ h => ?_
    obtain ⟨ha, hd, hl, hs, hpend, h2, hq⟩ := h
    simp only [pwrSwitchSpec, hp, ha, switchCh_off hd hl hs hpend h2 hq, switchAns]
  case on =>
    refine opens (fun _ _ _ => rfl) fun k r b hp _ _ h => ?_
    obtain ⟨ha, -, hd, hduty, hout, hq, ⟨hs, hl, hh, hpend, h2, hbad⟩, hfit⟩ := h
    simp only [pwrSwitchSpec, hp, ha, switchCh, one_ne_zero, if_false,
      switchOn_off (cmd := some k.id) hduty hd hout hq hs hl hh hpend h2 hbad hfit, switchAns]
  case duty =>
    refine completes (fun _ _ _ => rfl) fun k r b hp _ _ h => ?_
    obtain ⟨hd, hduty, hq, hl, hs, hpwm, hle⟩ := h
    simp only [pwrDutySpec, hp, hd, hduty, hl, hs, changeDuty_down hq hpwm hle, switchAns, Bool.and_false,
      Bool.not_true, Bool.or_self, Bool.false_eq_true, if_false]
  case clear =>
    refine completes (fun _ _ _ => rfl) fun k r b hp _ _ h => ?_
    obtain ⟨hd, hq, hl, hs, hh, hw, hpend, hb⟩ := h
    simp only [pwrClearSpec, hp, clearCh_latched hd hq hl hs hh hw hpend hb]
  case status =>
    refine completes (fun _ _ _ => rfl) fun k r b hp _ _ h => ?_
    simp only [pwrStatusSpec, hp, h, Bool.false_eq_true, if_false]

end Sys2Proof.Machine
end

section
/-!
SUPPORT. The events of a load channel (05 R148 to R166, 06 R190, R192): the slew start of a turn-on that is no retry,
and the period boundary at which no switch is held.
-/

namespace Sys2Proof.Machine

/-- The slew start of a pending turn-on that is neither a retry nor a command's (05 R629). -/
theorem slewStartStep_plain {ch : Nat} {p : Pend} {s : State} (h : (s.chn ch).pend = some p) (hk : p.kind ≠ .retry)
    (hc : p.cmd = none) : slewStartStep ch s = slewStart ch p.duty p.action s := by
  simp only [slewStartStep, h, hk, hc, if_false, endOpt]

/-- The channel at a boundary at which a new duty takes effect and no switch is held: the duty and the offset. -/
def Chan.atNewDuty (c : Chan) (d : Nat) : Chan :=
  { c with duty := d, dutyNext := none, dutyDown := false, pwmOff := c.pwmOffNext }

section
variable {ch d : Nat} {s : State} (hs : (s.chn ch).shift s.clk = 0) (hn : (s.chn ch).dutyNext = some d) (hd : 0 < d)
  (h0 : 0 < (s.chn ch).duty)
include hs hn hd h0

/-- An increase of a duty takes effect at a boundary: its booking stands since its admission (05 R149, 06 R181). -/
theorem pwmBoundary_up (hdown : (s.chn ch).dutyDown = false) :
    pwmBoundary ch s = s.setChn ch ((s.chn ch).atNewDuty d) := by
  simp [pwmBoundary, Chan.atNewDuty, hs, hn, hdown, hd.ne', h0.ne']

/-- A decrease outside LIMP is released there (05 R149, 06 R181). -/
theorem pwmBoundary_down (hdown : (s.chn ch).dutyDown = true) (hl : (s.chn ch).limp = false) :
    pwmBoundary ch s = s.setChn ch { (s.chn ch).atNewDuty d with
      icont := (s.chn ch).icontAt d, pdis := s.pdisAt ch d } := by
  simp [pwmBoundary, Chan.atNewDuty, Chan.icontAt, Chan.idecl, Chan.bw, hs, hn, hdown, hl, hd.ne', h0.ne']

end

/-- Settles O17: each row by its condition and its effect. -/
theorem channelEventsHappen : Obligations.ChannelEventsHappen := by
  refine ⟨fun ch => ?slewStart, fun ch => ?slewOn, fun ch => ?slewOff, fun ch => ?window, fun ch => ?retry,
    fun ch => ?stable, fun ch below => ?openLoad, fun ch ipu bare => ?offCycle, fun ch d => ?dutyDown,
    fun ch d => ?dutyUp, fun sw => ?thermal, fun ch => ?wire⟩
  case slewStart =>
    refine happens_of_event (fun e s => (rfl : _ = execSlewStart e ch s)) ?_
    rintro u ⟨hv, hh, hp⟩
    obtain ⟨p, hpend, hp⟩ := (Option.any_eq_true _ _).1 hp
    simp only [Bool.and_eq_true, bne_iff_ne, Option.isNone_iff_eq_none] at hp
    obtain ⟨⟨hk, hc⟩, hdead⟩ := hp
    exact ⟨by simp [hv, hh, hpend, hdead], by rw [slewStartStep_plain hpend hk hc, hpend]; rfl⟩
  case slewOn =>
    refine happens_of_event (fun e s => (rfl : _ = execTurnOnSlewEnd e ch s)) fun u hs => ?_
    exact ⟨by simp [hs], by simp [hs]⟩
  case slewOff =>
    refine happens_of_event (fun e s => (rfl : _ = execTurnOffSlewEnd e ch s)) fun u hs => ?_
    exact ⟨beq_iff_eq.2 hs, rfl⟩
  case window =>
    refine happens_of_event (fun e s => (rfl : _ = execInrushWindowEnd e ch s)) ?_
    rintro u ⟨ho, he, hs, hp⟩
    exact ⟨by simp [ho, he], by simp [hs, hp]⟩
  case retry =>
    refine happens_of_event (fun e s => (rfl : _ = execRetryDue e ch s)) ?_
    rintro u ⟨hs, hh, ha, hp, ht⟩
    exact ⟨by simp [hs, hh, ha, hp, ht], rfl⟩
  case stable =>
    refine happens_of_event (fun e s => (rfl : _ = execOnStableReload e ch s)) ?_
    rintro u ⟨hs, hl, ht⟩
    exact ⟨by simp [hs, hl, ht], rfl⟩
  case openLoad =>
    refine happens_of_event (fun e s => (rfl : _ = execOpenLoadCount e ch below s)) ?_
    rintro u ⟨hs, hl, ho, ht⟩
    exact ⟨by simp [hs, hl, ho, ht], rfl⟩
  case offCycle =>
    refine happens_of_event (fun e s => (rfl : _ = execOffStateCycle e ch ipu bare s)) ?_
    rintro u ⟨ho, hm, hc⟩
    exact ⟨by simp [ho, hm, hc], rfl⟩
  case dutyDown =>
    refine happens_of_event (fun e s => (rfl : _ = execPwmPeriodBoundary e ch s)) ?_
    rintro u ⟨ho, hp, hl, hb, hs, hn, hdown, hd, h0⟩
    exact ⟨by simp [ho, hp, hb], pwmBoundary_down hs hn hd h0 hdown hl⟩
  case dutyUp =>
    refine happens_of_event (fun e s => (rfl : _ = execPwmPeriodBoundary e ch s)) ?_
    rintro u ⟨ho, hp, -, hb, hs, hn, hup, hd, h0⟩
    refine ⟨by simp [ho, hp, hb], ?_⟩
    rw [pwmBoundary_up hs hn hd h0 hup, Chan.atNewDuty, ← hup]
  case thermal =>
    refine happens_of_event (fun e s => (rfl : _ = execThermalLatchRelease e sw s)) ?_
    rintro u ⟨ho, hl⟩
    exact ⟨by simp [ho, hl], rfl⟩
  case wire =>
    refine happens_of_event (fun e s => (rfl : _ = execWireLatchRelease e ch s)) ?_
    rintro u ⟨hl, hh⟩
    exact ⟨by simp [hl, hh], rfl⟩

end Sys2Proof.Machine
end

section
/-!
SUPPORT. The trips and feed events of a load channel (05 R146, R152 to R154, R167 to R169, 06 R192): what a latch that
sets leaves of the conditions of a trip, and the CHECK of a block that is read back.
-/

namespace Sys2Proof.Machine

/-- Changes that give one state from s post one PWR_DIAG (05 R176). -/
theorem withDiag_congr {ch : Nat} {f g : State → State} {s : State} (h : f s = g s) :
    withDiag ch f s = withDiag ch g s := by
  simp only [withDiag, h]

/-- So they do for a bridge and its odd half (05 R176). -/
theorem withDiags_congr {m ch : Nat} {f g : State → State} {s : State} (h : f s = g s) :
    withDiags m ch f s = withDiags m ch g s := by
  unfold withDiags
  split
  · exact withDiag_congr h
  · exact withDiag_congr (withDiag_congr h)

/-- Whether a trip takes a channel does not turn on thermal latches, its own or another's (05 R159, R162). -/
theorem tripTakes_setLatch (s : State) (m ch : Nat) (low b : Bool) :
    (s.setChn ch ((s.chn ch).setLatch low b)).tripTakes m = s.tripTakes m := by
  by_cases h : m = ch
  · subst h
    cases low <;> simp [State.tripTakes, Chan.setLatch, Chan.tripsAny, Chan.trippedAt]
  · simp [State.tripTakes, chn_setChn_ne _ h]

/-- The thermal latch that sets trips a channel that a trip takes (05 R154, R163). -/
theorem thermalSet_trips {ch : Nat} {low : Bool} {s : State} (h : s.tripTakes (s.bridgeOf ch) = true) :
    thermalSet ch low s = withDiags (s.bridgeOf ch) ch
      (fun x => trip cTHERMAL (s.bridgeOf ch) (x.setChn ch ((x.chn ch).setLatch low true))) s := by
  refine withDiags_congr ?_
  simp only [tripTakes_setLatch, h, if_true]

/-- A channel whose block fails its CHECK stores a bad block (05 R146). -/
theorem storedBad_of_check {c : Chan} {b : List Word} (h : blockCheckOk b = false) :
    ({ c with block := some b } : Chan).storedBad = true := by
  simp [Chan.storedBad, h]

/-- Settles O18: each row by its condition, and by what trips a channel in the state it meets. -/
theorem channelTripsHappen : Obligations.ChannelTripsHappen := by
  refine ⟨fun ch => ?overcurrent, fun ch => ?short, fun sw => ?thermal, fun ch => ?wire, fun ch present => ?reverse,
    fun ch => ?driver, fun ch wire found => ?block, fun die => ?loss, fun die => ?feedBack⟩
  case overcurrent =>
    refine happens_of_event (fun e s => (rfl : _ = execOvercurrentTrip e ch s)) ?_
    rintro u ⟨hv, ht, ho⟩
    exact ⟨by simp [hv, ht, ho], rfl⟩
  case short =>
    refine happens_of_event (fun e s => (rfl : _ = execShortCircuitTrip e ch s)) ?_
    rintro u ⟨hv, ht⟩
    exact ⟨by simp [hv, ht], rfl⟩
  case thermal =>
    refine happens_of_event (fun e s => (rfl : _ = execThermalLatchSet e sw s)) ?_
    rintro u ⟨ho, hl, ht⟩
    exact ⟨by simp [ho, hl], thermalSet_trips ht⟩
  case wire =>
    refine happens_of_event (fun e s => (rfl : _ = execWireTrip e ch s)) ?_
    rintro u ⟨hv, hl, hm⟩
    exact ⟨by simp [hv, hl, hm], rfl⟩
  case reverse =>
    refine happens_of_event (fun e s => (rfl : _ = execReverseCurrent e ch present s)) ?_
    rintro u ⟨hv, hs, hw, hc⟩
    refine ⟨by cases present <;> simpa [hv] using hc, withDiag_congr ?_⟩
    have hstays : ¬ (present && ((u.chn ch).st.isOn || (u.chn ch).wentOff u.clk) && (u.chn ch).revAct) = true := by
      simp [hs, hw, ChState.isOn]
    refine if_neg ?_
    rw [State.chn_setChn]
    exact hstays
  case driver => exact happens_of_event (fun e s => (rfl : _ = execDriverFault e ch s)) fun u hv => ⟨hv, rfl⟩
  case block =>
    refine happens_of_event (fun e s => (rfl : _ = execBlockCheck e ch wire found s)) ?_
    rintro u ⟨hv, rfl, hb, hf, hs⟩
    have hbad := storedBad_of_check (c := u.chn ch) hf
    have hfirst : ¬ ((u.chn ch).st = .latched ∧ (u.chn ch).cause.testBit 6 = true) := by simp [hs]
    exact ⟨by simp [hv, hb], if_neg (not_or.2 ⟨by simpa using hbad, hfirst⟩)⟩
  case loss =>
    refine happens_of_event (fun e s => (rfl : _ = execFeedLoss e die s)) ?_
    rintro u ⟨hd, hf, ht⟩
    exact ⟨by simp [hd, hf, ht], rfl⟩
  case feedBack =>
    refine happens_of_event (fun e s => (rfl : _ = execFeedReturn e die s)) ?_
    rintro u ⟨hd, hf, ht⟩
    exact ⟨by simp [hd, hf, ht], rfl⟩

end Sys2Proof.Machine
end

section
/-!
SUPPORT. The PUR commands and the events of the Purse (06 R185, R188, R197, R202 to R205): a row that shares no target
with triggers, and what the end of a channel's oldest window brings about.
-/

namespace Sys2Proof.Machine

/-- A row that submits its packet after the elapsed time, its opcode sharing no target with triggers, submits it in the
state in which Teller takes it (09 R283). -/
theorem row_submits_noAim {c : Stim → Req → Instr} {o : OpSpec} (ho : ∀ ps, cmdAim o.opcode ps = none)
    (hc : ∀ e r s, exec (c e r) s = .next (submit o r (s.advance e))) (e : Stim) (r : Req) (s : State) :
    exec (c e r) s = .next (submit o r (arrived o r e s)) := by
  rw [hc, arrived_noAim (ho r.params)]

/-- The later of two updates of a load channel stands. -/
theorem setChn_setChn (s : State) (ch : Nat) (x y : Chan) : (s.setChn ch x).setChn ch y = s.setChn ch y := by
  simp [State.setChn, put_put]

/-- The channel once the oldest of its ended windows is taken, ws being those left. -/
def Chan.windowTaken (c : Chan) (ws : List (Int × Nat)) : Chan := { c with meter := { c.meter with done := ws } }

@[simp] theorem Chan.windowTaken_icont (c : Chan) (ws : List (Int × Nat)) : (c.windowTaken ws).icont = c.icont := rfl
@[simp] theorem Chan.windowTaken_drawn (c : Chan) (ws : List (Int × Nat)) : (c.windowTaken ws).drawn = c.drawn := rfl

/-- A window that is taken leaves the channel's audience (05 R176). -/
theorem chAudience_windowTaken (s : State) (ch : Nat) (ws : List (Int × Nat)) :
    (s.setChn ch ((s.chn ch).windowTaken ws)).chAudience ch = s.chAudience ch := by
  simp only [State.chAudience, State.chn_setChn, Chan.windowTaken]

section
variable {ch : Nat} {w : Int × Nat} {s : State}

/-- A mean above 1.25 × ICONT + 0.10 A posts PUR_OVERDRAW where no notice stands (06 R188, R206). -/
theorem overdraw_above (hn : (s.chn ch).drawn = false)
    (h : ((s.chn ch).icont * 50 + 400) * (w.2 : Int) < 4 * w.1) :
    overdraw ch w s = noticeAll (s.chAudience ch) 0x1101
      [wd ch, wd (cap16 ((w.1 * 2 + 10 * w.2) / (20 * w.2)).toNat * 2 ^ 16 + cap16 (s.chn ch).icont)]
      (s.setChn ch { s.chn ch with drawn := true }) := by
  simp only [overdraw, h, hn, if_true, Bool.false_eq_true, if_false]

/-- A mean of at most ICONT is not above the limit, and allows the notice again (06 R188). -/
theorem overdraw_within (h : w.1 ≤ (s.chn ch).icont * 10 * (w.2 : Int)) :
    overdraw ch w s = s.setChn ch { s.chn ch with drawn := false } := by
  have hpos : 0 ≤ ((s.chn ch).icont : Int) * w.2 := by positivity
  have habove : ¬ ((s.chn ch).icont * 50 + 400) * (w.2 : Int) < 4 * w.1 := by linarith
  simp only [overdraw, habove, h, if_true, if_false]

/-- One ended window that is evaluated is the oldest (06 R188). -/
theorem overdrawRun_one {ws : List (Int × Nat)} (h : (s.chn ch).meter.done = w :: ws) :
    overdrawRun ch 1 s = overdraw ch w (s.setChn ch ((s.chn ch).windowTaken ws)) := by
  simp only [overdrawRun, overdrawNext, h, Chan.windowTaken]

end

/-- Settles O19: the commands by what their opcodes' executions answer, the events by their conditions and effects. -/
theorem purseCommandsComplete : Obligations.PurseCommandsComplete := by
  refine ⟨?wire, ?readWire, ?status, ?channel, ?limits, ?evaluation, fun die => ?blocked, fun ch n w ws => ?above,
    fun ch n w ws => ?within⟩
  case wire =>
    refine completes (fun _ _ _ => rfl) fun k r b hp _ _ h => ?_
    obtain ⟨hd, hi⟩ := h
    simp only [purWireSpec, hp, hd, hi, Bool.not_true, Bool.or_self, Bool.false_eq_true, if_false, Ans.okay]
  case readWire =>
    refine completes (fun _ _ _ => rfl) fun k r b hp _ _ h => ?_
    simp only [purReadWireSpec, hp, h, Bool.false_eq_true, if_false]
  case status => exact completes (row_submits_noAim (fun _ => rfl) fun _ _ _ => rfl) fun k r b _ _ _ _ => rfl
  case channel =>
    refine completes (fun _ _ _ => rfl) fun k r b hp _ _ h => ?_
    simp only [purChannelSpec, hp, h, Bool.false_eq_true, if_false]
  case limits =>
    refine completes (row_submits_noAim (fun _ => rfl) fun _ _ _ => rfl) fun k r b hp _ _ _ => ?_
    simp only [purLimitsSpec, hp, Ans.okay]
  case evaluation =>
    rintro e s _ rfl -
    rfl
  case blocked =>
    refine happens_of_event (fun e s => (rfl : _ = execFeedBlocked e die s)) ?_
    rintro u ⟨hd, hq⟩
    exact ⟨by simp only [hd, hq, decide_true, Bool.and_self], rfl⟩
  case above =>
    refine happens_of_event (fun e s => (rfl : _ = execOverdrawWindowEnd e ch n s)) ?_
    rintro u ⟨rfl, hv, hw, hn, hlim⟩
    refine ⟨by simp [hv, hw], ?_⟩
    rw [overdrawRun_one hw, overdraw_above (by simpa using hn) (by simpa using hlim), chAudience_windowTaken,
      State.chn_setChn, setChn_setChn]
    rfl
  case within =>
    refine happens_of_event (fun e s => (rfl : _ = execOverdrawWindowEnd e ch n s)) ?_
    rintro u ⟨rfl, hv, hw, hle⟩
    refine ⟨by simp [hv, hw], ?_⟩
    rw [overdrawRun_one hw, overdraw_within (by simpa using hle), State.chn_setChn, setChn_setChn]
    rfl

end Sys2Proof.Machine
end

section
/-!
SUPPORT. The LMP commands (07 R217, R219, R222, R223): what LMP_RECLAIM answers where no named die is in Yarrow mode, and
where the heartbeats of those that are have been valid for 1 ms.
-/

namespace Sys2Proof.Machine

/-- The dies that a reclaim names and that are in Yarrow mode (07 R219). -/
def State.yarrowDies (s : State) (ps : List Word) : List Nat := (parDies ps).filter (fun d => (s.pdie d).yarrow)

section
variable {c : Cmd} {s : State} (hl : s.limpLow = false) (hs : s.safeLow = false)
include hl hs

/-- LMP_RECLAIM that names no die in Yarrow mode ends at once (07 R219, log 46). -/
theorem lmpReclaim_none (hd : s.yarrowDies c.params = []) :
    lmpReclaimSpec.exec c s = .done .ok [s.onCounts] (foReleaseAll s) := by
  rw [State.yarrowDies] at hd
  simp only [lmpReclaimSpec, hl, hs, hd, List.any_nil, Bool.or_self, Bool.false_eq_true, if_false, if_true]

/-- LMP_RECLAIM of dies with valid heartbeats is taken where no reclaim is in progress (07 R219, R221). -/
theorem lmpReclaim_taken (hr : s.yar.reclaims = []) (hd : s.yarrowDies c.params ≠ [])
    (hb : (s.yarrowDies c.params).all (fun d => s.beats1ms d) = true) :
    lmpReclaimSpec.exec c s = .accept { s with yar := { s.yar with reclaims := s.yar.reclaims ++
      [{ cmd := c.id, dies := s.yarrowDies c.params, named := s.yarrowDies c.params, since := s.clk }] } } := by
  have hsilent : (s.yarrowDies c.params).any (fun d => !s.beats1ms d) = false := by
    simpa using hb
  rw [State.yarrowDies] at hd hsilent
  simp only [lmpReclaimSpec, State.yarrowDies, hl, hs, hr, hsilent, hd, List.any_nil, Bool.or_false, Bool.false_eq_true,
    if_false]

end

/-- Settles O20: each row by what its opcode's execution answers. -/
theorem yarrowCommandsComplete : Obligations.YarrowCommandsComplete := by
  refine ⟨?policy, ?reclaimNone, ?reclaimTaken, ?status, ?readPolicy, ?enter⟩
  case policy =>
    refine completes (fun _ _ _ => rfl) fun k r b hp _ _ h => ?_
    simp only [lmpPolicySpec, hp, h, Bool.false_eq_true, if_false, Ans.okay]
  case reclaimNone =>
    refine completes (row_submits_noAim (fun _ => rfl) fun _ _ _ => rfl) fun k r b hp _ _ h => ?_
    obtain ⟨hl, hs, hd⟩ := h
    exact lmpReclaim_none hl hs (hp ▸ hd)
  case reclaimTaken =>
    refine accepts (row_submits_noAim (fun _ => rfl) fun _ _ _ => rfl) fun k r b hp _ _ h => ?_
    obtain ⟨hl, hs, hr, hd, hb⟩ := h
    rw [← hp] at hd hb ⊢
    exact lmpReclaim_taken hl hs hr hd hb
  case status => exact completes (row_submits_noAim (fun _ => rfl) fun _ _ _ => rfl) fun k r b _ _ _ _ => rfl
  case readPolicy =>
    refine completes (fun _ _ _ => rfl) fun k r b hp _ _ h => ?_
    simp only [lmpReadPolicySpec, hp, h, Bool.false_eq_true, if_false]
  case enter =>
    refine completes (row_submits_noAim (fun _ => rfl) fun _ _ _ => rfl) fun k r b hp _ _ _ => ?_
    simp only [lmpEnterSpec, hp, Ans.okay]

end Sys2Proof.Machine
end

section
/-!
SUPPORT. The events of Yarrow mode (07 R207 to R215, R219, R223, 06 R188, 19 R588, R589): when the power dies run, and an
entry by the heartbeats.
-/

namespace Sys2Proof.Machine

/-- The power dies run in RUN (20 R598). -/
theorem diesUp_run {s : State} (h : s.pow.mode = .run) : s.diesUp = true := by
  simp only [State.diesUp, h]

/-- Heartbeats absent for 2 ms are the cause HB (07 R207). -/
theorem silent2ms_iff {s : State} {die : Nat} : s.silent2ms die = true ↔ (s.pdie die).beatFrom + 2000000 ≤ s.clk :=
  decide_eq_true_iff

/-- A die whose link carried none before enters by HB with what it last reported (07 R207, R223). -/
theorem enterSilent_quiet {s : State} {die : Nat} (h : (s.pdie die).beating = false) :
    enterSilent die s = enterDie die 0 (s.setPdie die { s.pdie die with beating := false }) := by
  simp only [enterSilent, h, Bool.false_eq_true, if_false]

/-- Settles O21: each row by its condition and its effect. -/
theorem yarrowEventsHappen : Obligations.YarrowEventsHappen := by
  refine ⟨fun die cause => ?commanded, fun die cause => ?silent, fun die cause => ?level, fun die => ?heartbeatLoss,
    ?logicReset, ?limpLow, ?safeLow, ?safeHigh, fun die => ?linkLost, fun die => ?learnt, fun ch blk => ?hold,
    fun die pin level => ?pin, fun r rs => ?reclaimed, fun die => ?frameError, fun die => ?restored,
    fun ch n => ?overdraw⟩
  case commanded =>
    refine happens_of_event (fun e s => (rfl : _ = execYarrowEntry e die cause s)) ?_
    rintro u ⟨hd, rfl, hy, hc, hm⟩
    exact ⟨by simp [hd, State.causeHolds, hy, hc, diesUp_run hm], rfl⟩
  case silent =>
    refine happens_of_event (fun e s => (rfl : _ = execYarrowEntry e die cause s)) ?_
    rintro u ⟨hd, rfl, hb, ht, hm⟩
    exact ⟨by simp [hd, State.causeHolds, silent2ms_iff.2 ht, diesUp_run hm], enterSilent_quiet hb⟩
  case level =>
    refine happens_of_event (fun e s => (rfl : _ = execYarrowEntry e die cause s)) ?_
    rintro u ⟨hd, h1, h3, hc, hm⟩
    have hlevel : cause = 1 ∨ cause = 2 ∨ cause = 3 := by omega
    exact ⟨by simp [hd, hc, diesUp_run hm], (if_neg (by omega)).trans (if_pos hlevel)⟩
  case heartbeatLoss =>
    refine happens_of_event (fun e s => (rfl : _ = execHeartbeatLoss e die s)) ?_
    rintro u ⟨hd, hm, ht⟩
    exact ⟨by simp [hd, silent2ms_iff.2 ht, diesUp_run hm], rfl⟩
  case logicReset =>
    exact happens_of_event (fun e s => (rfl : _ = execLogicResetIndication e s)) fun u hm => ⟨diesUp_run hm, rfl⟩
  case limpLow => exact happens_of_event (fun e s => (rfl : _ = execLimpNLow e s)) fun u hm => ⟨diesUp_run hm, rfl⟩
  case safeLow => exact happens_of_event (fun e s => (rfl : _ = execSafeNLow e s)) fun u hm => ⟨diesUp_run hm, rfl⟩
  case safeHigh => exact happens_of_event (fun e s => (rfl : _ = execSafeNHigh e s)) fun u hn => ⟨hn, rfl⟩
  case linkLost =>
    refine happens_of_event (fun e s => (rfl : _ = execLinkLostDeclared e die s)) ?_
    rintro u ⟨hd, hl, hm, hy⟩
    exact ⟨by simp [hd, hl, diesUp_run hm], by simp [hy]⟩
  case learnt =>
    refine happens_of_event (fun e s => (rfl : _ = execLinkLostDeclared e die s)) ?_
    rintro u ⟨hd, hl, hm, hy, hk, hb⟩
    exact ⟨by simp [hd, hl, diesUp_run hm], by simp [hy, hk, hb]⟩
  case hold =>
    refine happens_of_event (fun e s => (rfl : _ = execHoldExpiry e ch s)) ?_
    rintro u ⟨hv, hl, hp, ht, hr, hblk⟩
    exact ⟨by simp [hv, hl, hp, ht, hr], by simp only [hblk]⟩
  case pin =>
    refine happens_of_event (fun e s => (rfl : _ = execLhPinChange e die pin level s)) ?_
    rintro u ⟨hd, hp, hm, hc⟩
    exact ⟨by simp [hd, hp, hc, diesUp_run hm], rfl⟩
  case reclaimed =>
    refine happens_of_event (fun e s => (rfl : _ = execReclaimComplete e s)) fun u hr => ?_
    exact ⟨by simp [hr], by simp only [hr]⟩
  case frameError =>
    exact happens_of_event (fun e s => (rfl : _ = execVetchFrameError e die s)) fun u hd => ⟨decide_eq_true hd, rfl⟩
  case restored =>
    refine happens_of_event (fun e s => (rfl : _ = execHeartbeatRestored e die s)) ?_
    rintro u ⟨hd, hdead⟩
    exact ⟨by simp [hd, hdead], rfl⟩
  case overdraw =>
    refine happens_of_event (fun e s => (rfl : _ = execOverdrawWindowEnd e ch n s)) ?_
    rintro u ⟨hv, h0, hn⟩
    exact ⟨by simp [hv, h0, hn], rfl⟩

end Sys2Proof.Machine
end

section
/-!
SUPPORT. The FIO commands (08 R240, R243, R254 to R259): a block that keeps the kind and the window of its input, and a
field output that is switched with no new duty under way.
-/

namespace Sys2Proof.Machine

/-- With no new duty under way there is nothing to take over (08 R243). -/
theorem FieldOut.settle_idle {x : FieldOut} (h : x.next = none) (clk : Nat) : x.settle clk = x := by
  simp only [FieldOut.settle, h]

/-- An input block that keeps WB and the window governs at once and discards the candidate (08 R255). -/
theorem fioInConfig_stores {c : Cmd} {s : State}
    (hw : fiWB c.params = fiWB (fiBlk (s.fin (ioIdx (parIo c.params)))))
    (hp : fiPeriod c.params = fiPeriod (fiBlk (s.fin (ioIdx (parIo c.params))))) :
    fioInConfigSpec.exec c s = .okay (s.setFin (ioIdx (parIo c.params)) (fiReopen s
      { s.fin (ioIdx (parIo c.params)) with block := some c.params })) := by
  simp only [fioInConfigSpec, hw, hp, if_true]

/-- An output block makes an unconfigured output OFF (08 R240, R256). -/
theorem fioOutConfig_first {c : Cmd} {s : State} (hs : (s.fout (ioIdx (parIo c.params))).st = .unconf)
    (ho : (s.fout (ioIdx (parIo c.params))).olon = false) :
    fioOutConfigSpec.exec c s = .okay (s.setFout (ioIdx (parIo c.params))
      { s.fout (ioIdx (parIo c.params)) with block := some c.params, st := .off }) := by
  simp only [fioOutConfigSpec, hs, ho, reduceCtorEq, or_self, if_false, if_true, Bool.false_and]

section
variable {i duty : Nat} {cmd : Option Nat} {s : State} (hn : (s.fout i).next = none)
include hn

/-- A switch-off of an output that is on takes effect at once (08 R240; its DUTY is not held to R243, log 20). -/
theorem switchFo_off (hs : (s.fout i).st = .on) :
    switchFo i false duty cmd s = (.now .ok, s.setFout i { s.fout i with st := .off, next := none }) := by
  simp only [switchFo, FieldOut.settle_idle hn, hs, Bool.false_and, Bool.false_eq_true, if_false]

/-- A switch-on of an output that is off, cool and not yet asked for is pending (08 R240). -/
theorem switchFo_on (hs : (s.fout i).st = .off) (ht : (s.fout i).tlatch = false) (hp : (s.fout i).pend = none)
    (hd : foDutyBad (s.fout i) duty = false) :
    switchFo i true duty cmd s = (.later, s.setFout i { s.fout i with pend := some (duty, cmd.toList) }) := by
  simp only [switchFo, FieldOut.settle_idle hn, hs, ht, hp, hd, Bool.and_false, Bool.false_eq_true, if_false, if_true,
    List.nil_append]

end

/-- Settles O22: each row by what its opcode's execution answers. -/
theorem fieldCommandsComplete : Obligations.FieldCommandsComplete := by
  refine ⟨?inConfig, ?readInput, ?readOutput, ?assign, ?inState, ?edges, ?outConfig, ?off, ?on, ?clear, ?status⟩
  case inConfig =>
    refine completes (row_submits_noAim (fun _ => rfl) fun _ _ _ => rfl) fun k r b hp _ _ h => ?_
    obtain ⟨hw, hper⟩ := h
    rw [← hp] at hw hper ⊢
    exact fioInConfig_stores hw hper
  case readInput =>
    refine completes (fun _ _ _ => rfl) fun k r b hp _ _ h => ?_
    simp only [fioReadConfigSpec, hp, h, if_true]
  case readOutput =>
    refine completes (fun _ _ _ => rfl) fun k r b hp _ _ h => ?_
    obtain ⟨hk, hb⟩ := h
    simp only [fioReadConfigSpec, hp, hk, hb, one_ne_zero, if_false]
  case assign =>
    refine completes (fun _ _ _ => rfl) fun k r b hp _ _ h => ?_
    have hfree : ¬ (ioKind (parIo r.params) = 1 ∧ (b.fout (ioIdx (parIo r.params))).st = .on) := by
      rwa [not_and_or]
    simp only [fioAssignSpec, hp, hfree, if_false, Ans.okay]
  case inState =>
    refine completes (row_submits_noAim (fun _ => rfl) fun _ _ _ => rfl) fun k r b _ ht _ _ => ?_
    simp only [fioInStateSpec, ht]
  case edges =>
    refine completes (row_submits_noAim (fun _ => rfl) fun _ _ _ => rfl) fun k r b hp _ _ h => ?_
    simp only [fioEdgesSpec, hp, h, Bool.false_eq_true, if_false]
  case outConfig =>
    refine completes (fun _ _ _ => rfl) fun k r b hp _ _ h => ?_
    obtain ⟨hs, ho⟩ := h
    rw [← hp] at hs ho ⊢
    exact fioOutConfig_first hs ho
  case off =>
    refine completes (fun _ _ _ => rfl) fun k r b hp _ _ h => ?_
    obtain ⟨ha, hs, hn⟩ := h
    simp only [fioOutSpec, hp, ha, switchFo_off hn hs, foAns]
  case on =>
    refine opens (fun _ _ _ => rfl) fun k r b hp _ _ h => ?_
    obtain ⟨ha, hs, ht, hpend, hn, hd⟩ := h
    simp only [fioOutSpec, hp, ha, switchFo_on (cmd := some k.id) hn hs ht hpend hd, foAns, Option.toList_some]
  case clear =>
    refine completes (fun _ _ _ => rfl) fun k r b hp _ _ h => ?_
    obtain ⟨hs, ht⟩ := h
    simp only [fioOutClearSpec, hp, hs, ht, Bool.false_eq_true, if_false]
  case status =>
    refine completes (fun _ _ _ => rfl) fun k r b hp _ _ _ => ?_
    simp only [fioOutStatusSpec, hp]

end Sys2Proof.Machine
end

section
/-!
SUPPORT. The events of field inputs and outputs (08 R231, R233, R236, R237, R240 to R243): an output that latches, and a
debounce that ends in a glitch or in a confirmed edge.
-/

namespace Sys2Proof.Machine

/-- BSX in RUN runs the field I/O (08 R225). -/
theorem bsx_of_running {s : State} (h : s.running 5 = true) : s.bsx = true := alive_of_run (eq_of_beq h)

/-- Where no switch-on is pending there is none to withdraw (08 R240). -/
theorem foDrop_none {i : Nat} {st : Status} {s : State} (h : (s.fout i).pend = none) : foDrop i st s = s := by
  simp only [foDrop, h]

/-- An output that latches with no new duty under way (08 R241, R263). -/
theorem foLatch_idle {cause fo : Nat} {s : State} (h : (s.fout fo).next = none) :
    foLatch cause fo s =
      let s1 := s.setFout fo { s.fout fo with st := .latched, cause := cause, next := none }
      noticeAll (s1.ioAudience (0x40 + fo)) 0x1803 [s1.foWord fo] s1 := by
  simp only [foLatch, FieldOut.settle_idle h]

section
variable {i : Nat} {s : State}

/-- A raw value other than the confirmed one, no candidate being open, opens one (08 R233, R234). -/
theorem rawTransition_opens {v : Nat} (hc : (s.fin i).cand = false) (hv : v ≠ (s.fin i).level) :
    rawTransition i v s = s.setFin i
      { s.fin i with raw := v, since := s.tim.full, cand := true, stamp := s.tim.full, stampGen := s.tim.gen } := by
  have hdue : s.fiDue i = false := by simp only [State.fiDue, hc, Bool.false_and]
  simp only [rawTransition, hdue, hc, hv, ne_eq, not_false_eq_true, and_self, Bool.false_eq_true, if_false, if_true]

/-- A candidate is due once its DEBOUNCE has elapsed (08 R233). -/
theorem fiDue_of_elapsed (hc : (s.fin i).cand = true)
    (ht : (s.fin i).since + fiDebounce (fiBlk (s.fin i)) * 1000 ≤ s.tim.full) : s.fiDue i = true := by
  simp only [State.fiDue, hc, ht, decide_true, Bool.and_self]

/-- A candidate that ends at the confirmed value is a glitch (08 R233). -/
theorem debounceEnd_glitch (h : (s.fin i).raw = (s.fin i).level) :
    debounceEnd i s = s.setFin i { s.fin i with cand := false, glitch := satInc 0xFFFF (s.fin i).glitch } := by
  simp only [debounceEnd, h, if_true]

/-- A rising edge that a time-stamp input confirms is counted and queued (08 R233, R236, R237). -/
theorem debounceEnd_rising (hi : 16 ≤ i ∧ i < 32) (hw : fiWB (fiBlk (s.fin i)) = false) (hr : (s.fin i).raw = 1)
    (hl : (s.fin i).level = 0) :
    debounceEnd i s = queueEdge i (countEdge s { s.fin i with level := 1, cand := false, lvl := 1 } true) s := by
  simp only [debounceEnd, hr, hl, hw, hi, one_ne_zero, le_refl, and_self, Bool.false_eq_true, if_false, if_true,
    beq_self_eq_true]

end

/-- Settles O23: each row by its condition and its effect. -/
theorem fieldEventsHappen : Obligations.FieldEventsHappen := by
  refine ⟨fun fo duty cmds => ?switch, fun fo => ?limit, fun fo => ?thermal, fun fo => ?release, fun fo => ?driver,
    fun fo below => ?openLoad, fun fi v => ?raw, fun fi => ?glitch, fun fi => ?edge, fun fi => ?window⟩
  case switch =>
    refine happens_of_event (fun e s => (rfl : _ = execFieldOutputSwitch e fo s)) ?_
    rintro u ⟨hf, hs, hp, hb⟩
    exact ⟨by simp [hf, hs, hp, hb], by simp only [hp]⟩
  case limit =>
    refine happens_of_event (fun e s => (rfl : _ = execFieldOutputLimit e fo s)) ?_
    rintro u ⟨hf, hs, hn, hb, hlim⟩
    exact ⟨by simp [hf, hs, hb, hlim], foLatch_idle hn⟩
  case thermal =>
    refine happens_of_event (fun e s => (rfl : _ = execFieldOutputThermal e fo s)) ?_
    rintro u ⟨hf, ht, hs, hb⟩
    exact ⟨by simp [hf, ht, hb], by simp only [State.fout_setFout, hs, if_true]⟩
  case release =>
    refine happens_of_event (fun e s => (rfl : _ = execFieldOutputThermalRelease e fo s)) ?_
    rintro u ⟨hf, ht, hb⟩
    exact ⟨by simp [hf, ht, hb], rfl⟩
  case driver =>
    refine happens_of_event (fun e s => (rfl : _ = execFieldOutputDriverFault e fo s)) ?_
    rintro u ⟨hf, hs, hn, hp, hb⟩
    have hmark : (FoState.on == FoState.forced) = false := rfl
    refine ⟨by simp [hf, hb], ?_⟩
    dsimp only
    rw [FieldOut.settle_idle hn, hs, hmark, Bool.or_false, foDrop_none (by rwa [State.fout_setFout])]
  case openLoad =>
    refine happens_of_event (fun e s => (rfl : _ = execFieldOutputOpenLoad e fo below s)) ?_
    rintro u ⟨hf, hs, ho, hb, ht⟩
    exact ⟨by simp [hf, hs, ho, hb, ht], rfl⟩
  case raw =>
    refine happens_of_event (fun e s => (rfl : _ = execRawTransition e fi v s)) ?_
    rintro u ⟨hf, hr, ht, hb, hc, hv⟩
    exact ⟨by simp [hf, hr, ht], by rw [if_pos hb, rawTransition_opens hc hv]⟩
  case glitch =>
    refine happens_of_event (fun e s => (rfl : _ = execDebounceExpiry e fi s)) ?_
    rintro u ⟨hf, hb, hc, ht, hr⟩
    exact ⟨by simp [hf, bsx_of_running hb, fiDue_of_elapsed hc ht], debounceEnd_glitch hr⟩
  case edge =>
    refine happens_of_event (fun e s => (rfl : _ = execDebounceExpiry e fi s)) ?_
    rintro u ⟨hi, hb, hc, hw, ht, hr, hl⟩
    have hf : fi < 48 := by omega
    exact ⟨by simp [hf, bsx_of_running hb, fiDue_of_elapsed hc ht], debounceEnd_rising hi hw hr hl⟩
  case window =>
    refine happens_of_event (fun e s => (rfl : _ = execCountWindowPublish e fi s)) ?_
    rintro u ⟨h16, h32, hb, hp, ht⟩
    exact ⟨by simp [h16, h32, bsx_of_running hb, hp, ht], rfl⟩

end Sys2Proof.Machine
end

section
/-!
SUPPORT. The MEA commands and the events of measurement sequences (08 R245, R249 to R252, R260 to R262): what arming and
disarming do, and the start of a run whose converter is free.
-/

namespace Sys2Proof.Machine

/-- Another sequence stands when one is set. -/
theorem seqn_setSeqn_ne (s : State) {i j : Nat} (x : MeaSeq) (h : j ≠ i) : (s.setSeqn i x).seqn j = s.seqn j :=
  look_put_ne _ _ _ h

/-- The later of two updates of a sequence stands. -/
theorem setSeqn_setSeqn (s : State) (i : Nat) (x y : MeaSeq) : (s.setSeqn i x).setSeqn i y = s.setSeqn i y := by
  simp [State.setSeqn, put_put]

/-- An update that leaves a sequence's run leaves the converters' (08 R251). -/
theorem adcBusy_setSeqn {s : State} {i : Nat} (x : MeaSeq) (hr : x.running = (s.seqn i).running)
    (hw : x.run = (s.seqn i).run) (adc : Nat) : (s.setSeqn i x).adcBusy adc = s.adcBusy adc := by
  unfold State.adcBusy
  congr 1
  funext j
  by_cases h : j = i
  · rw [h, State.seqn_setSeqn, hr, hw]
  · rw [seqn_setSeqn_ne s x h]

/-- A trigger starts the run of an idle sequence whose converter is free (08 R251). -/
theorem trigSeq_starts {i : Nat} {b : List Word} {s : State} (hc : (s.seqn i).conf = some b)
    (hr : (s.seqn i).running = false) (hw : (s.seqn i).waiting = false) (hb : s.running 5 = true)
    (ha : s.adcBusy (sqAdc b) = false) : trigSeq i s = startRun i s := by
  simp only [trigSeq, hc, hr, hw, hb, ha, Bool.not_true, Bool.or_self, Bool.false_eq_true, if_false]

/-- The trigger that a sequence's Tally trigger has left pending starts its run (08 R250, R251). -/
theorem trigSeq_fired {i : Nat} {b : List Word} {s : State} (hc : (s.seqn i).conf = some b)
    (hr : (s.seqn i).running = false) (hw : (s.seqn i).waiting = false) (hb : s.running 5 = true)
    (ha : s.adcBusy (sqAdc b) = false) :
    trigSeq i (s.setSeqn i { s.seqn i with fired := false }) = s.setSeqn i { s.seqn i with
      running := true, fired := false, startTime := s.now, run := b, runAt := s.clk, stale := false } := by
  have hbusy := (adcBusy_setSeqn { s.seqn i with fired := false } rfl rfl (sqAdc b)).trans ha
  have hstart := trigSeq_starts (i := i) (s := s.setSeqn i { s.seqn i with fired := false }) (by simpa using hc)
    (by simpa using hr) (by simpa using hw) hb hbusy
  rw [hstart, startRun, State.seqn_setSeqn, setSeqn_setSeqn]
  simp only [hc, hw, Option.getD_some]
  rfl

section
variable {c : Cmd} {q : List Word} {s : State} (hc : (s.seqn (parSeq c.params)).conf = some q)
  (ho : s.adcOut (sqAdc q) = false)
include hc ho

/-- ARM = 1 arms a software sequence and triggers it (08 R250). -/
theorem meaRun_software (ha : bit (par c.params 0) 8 = true) (ht : sqTsrc q = 0) :
    meaRunSpec.exec c s = .okay (trigSeq (parSeq c.params)
      (s.setSeqn (parSeq c.params) { s.seqn (parSeq c.params) with armed := true })) := by
  simp only [meaRunSpec, hc, ho, ha, ht, Bool.false_eq_true, if_false, if_true]

/-- ARM = 0 disarms, and drops a run that has not started (08 R250, log 46). -/
theorem meaRun_disarms (ha : bit (par c.params 0) 8 = false) :
    meaRunSpec.exec c s = .okay (s.setSeqn (parSeq c.params)
      { s.seqn (parSeq c.params) with armed := false, waiting := false, fired := false }) := by
  simp only [meaRunSpec, hc, ho, ha, Bool.false_eq_true, if_false]

end

/-- Settles O24: the commands by what their opcodes' executions answer, the events by their conditions and effects. -/
theorem measurementRowsComplete : Obligations.MeasurementRowsComplete := by
  refine ⟨?aiConfig, ?assign, ?config, fun q => ?software, fun q => ?disarms, ?results, ?convert,
    fun seq b => ?trigger, fun seq codes => ?ends⟩
  case aiConfig =>
    refine completes (row_submits_noAim (fun _ => rfl) fun _ _ _ => rfl) fun k r b hp _ _ h => ?_
    simp only [meaAiConfigSpec, hp, h, Bool.false_eq_true, and_false, if_false, Ans.okay]
  case assign =>
    refine completes (row_submits_noAim (fun _ => rfl) fun _ _ _ => rfl) fun k r b hp _ _ h => ?_
    simp only [meaSeqAssignSpec, hp, h, Bool.false_eq_true, if_false, Ans.okay]
  case config =>
    refine completes (row_submits_noAim (fun _ => rfl) fun _ _ _ => rfl) fun k r b hp _ _ h => ?_
    simp only [meaSeqConfigSpec, hp, h, Bool.false_eq_true, if_false, Ans.okay]
  case software =>
    refine completes (row_submits_noAim (fun _ => rfl) fun _ _ _ => rfl) fun k r b hp _ _ h => ?_
    rw [← hp] at h ⊢
    obtain ⟨hc, ho, ha, ht⟩ := h
    exact meaRun_software hc ho ha ht
  case disarms =>
    refine completes (row_submits_noAim (fun _ => rfl) fun _ _ _ => rfl) fun k r b hp _ _ h => ?_
    rw [← hp] at h ⊢
    obtain ⟨hc, ho, ha, -⟩ := h
    exact meaRun_disarms hc ho ha
  case results =>
    refine completes (row_submits_noAim (fun _ => rfl) fun _ _ _ => rfl) fun k r b hp _ _ h => ?_
    simp only [meaResultsSpec, hp, h, if_true]
  case convert =>
    refine completes (row_submits_noAim (fun _ => rfl) fun _ _ _ => rfl) fun k r b hp _ _ h => ?_
    obtain ⟨hin, hfree, hq⟩ := h
    simp only [meaConvertSpec, hp, hin, hfree, hq, List.isEmpty_nil, Bool.and_self, Bool.false_eq_true, if_false,
      if_true]
  case trigger =>
    refine happens_of_event (fun e s => (rfl : _ = execSequenceTrigger e seq s)) ?_
    rintro u ⟨hs, ha, hf, hc, hr, hw, hb, hbusy⟩
    exact ⟨by simp [hs, ha, hf], trigSeq_fired hc hr hw hb hbusy⟩
  case ends =>
    refine happens_of_event (fun e s => (rfl : _ = execSequenceRunEnd e seq codes s)) ?_
    rintro u ⟨hs, hr, hb, ht⟩
    exact ⟨by simp [hs, hr, hb, ht], rfl⟩

end Sys2Proof.Machine
end

section
/-!
SUPPORT. The TIM commands on Tally time, PPS, the alarm and CAN references (09 R276, R284, R287 to R291).
-/

namespace Sys2Proof.Machine

section
variable {c : Cmd} {s : State}

/-- A domain other than the working one to be is only set (09 R291). -/
theorem timDomain_sets (h : bit (par c.params 0) 18 = false) :
    timDomainSpec.exec c s = .okay (withWork (setDomain c.params) s) := by
  simp only [timDomainSpec, h, Bool.false_eq_true, if_false]

/-- TIM_SET steps Tally time, to a whole nanosecond, where the working domain does not hold it (09 R273, R289). -/
theorem timSet_steps (hl : s.workState ≠ .locked) (hh : s.workState ≠ .holdover) :
    timSetSpec.exec c s = .okay ((fun (t : State) => { t with tim := { t.tim with sub := 0 } })
      (tallyStep ((par c.params 0).toNat + (par c.params 1).toNat * 2 ^ 32 + (par c.params 2).toNat * 2 ^ 48) s)) := by
  simp only [timSetSpec, hl, hh, or_self, if_false]

/-- PPS_OUT off: its level falls, and the second of its last rise stands (09 R287). -/
theorem timPps_off (h : bit (par c.params 0) 0 = false) :
    timPpsSpec.exec c s = .okay { s with tim := { s.tim with
      ppsOut := false, ppsIn := bit (par c.params 0) 1, ppsWidth := fld (par c.params 0) 24 16,
      ppsLevel := false } } := by
  simp only [timPpsSpec, h, Bool.false_and, Bool.and_false, Bool.false_eq_true, if_false]

/-- An alarm that lies ahead is armed (09 R276). -/
theorem timAlarm_arms (hon : par c.params 0 = 1)
    (ht : 0 < diff48 ((par c.params 1).toNat + (par c.params 2).toNat * 2 ^ 32) s.now) :
    timAlarmSpec.exec c s = .okay { s with tim := { s.tim with
      alarm := some ((par c.params 1).toNat + (par c.params 2).toNat * 2 ^ 32), alarmDue := false } } := by
  have hset : (1 : Word) ≠ 0 := by decide
  simp only [timAlarmSpec, hon, hset, Int.not_le.2 ht, if_false]

/-- An alarm that is not set is cleared (09 R276). -/
theorem timAlarm_clears (hoff : par c.params 0 = 0) :
    timAlarmSpec.exec c s = .okay { s with tim := { s.tim with alarm := none, alarmDue := false } } := by
  simp only [timAlarmSpec, hoff, if_true]

/-- Enabling a time master outside legacy mode drops nothing of its buffers (09 R284). -/
theorem timCanref_enables (hen : bit (par c.params 0) 8 = true)
    (hl : (s.canc (fld (par c.params 0) 3 0)).legacy = false) :
    timCanrefSpec.exec c s = .okay (s.setRef (fld (par c.params 0) 3 0)
      { look {} s.tim.canRef (fld (par c.params 0) 3 0) with
        en := true, ide := bit (par c.params 0) 9, fd := bit (par c.params 0) 10,
        ident := (par c.params 1).toNat }) := by
  simp only [timCanrefSpec, hl, hen, Bool.false_eq_true, if_false, if_true]

end

/-- Settles O25: each row by what its opcode's execution answers. -/
theorem timeCommandsComplete : Obligations.TimeCommandsComplete := by
  refine ⟨?now, ?status, ?domain, ?set, ?portlat, ?pps, ?ppsin, ?arms, ?clears, ?canref⟩
  case now => exact completes (row_submits_noAim (fun _ => rfl) fun _ _ _ => rfl) fun k r b _ _ _ _ => rfl
  case status => exact completes (row_submits_noAim (fun _ => rfl) fun _ _ _ => rfl) fun k r b _ _ _ _ => rfl
  case domain =>
    refine completes (row_submits_noAim (fun _ => rfl) fun _ _ _ => rfl) fun k r b hp _ _ h => ?_
    rw [← hp] at h ⊢
    exact timDomain_sets h
  case set =>
    refine completes (row_submits_noAim (fun _ => rfl) fun _ _ _ => rfl) fun k r b hp _ _ h => ?_
    rw [← hp]
    exact timSet_steps h.1 h.2
  case portlat =>
    refine completes (row_submits_noAim (fun _ => rfl) fun _ _ _ => rfl) fun k r b hp _ _ h => ?_
    have hport : (1 : Word) ≠ 0 := by decide
    simp only [timPortlatSpec, hp, h, hport, if_false, Ans.okay]
  case pps =>
    refine completes (row_submits_noAim (fun _ => rfl) fun _ _ _ => rfl) fun k r b hp _ _ h => ?_
    rw [← hp] at h ⊢
    exact timPps_off h
  case ppsin => exact completes (row_submits_noAim (fun _ => rfl) fun _ _ _ => rfl) fun k r b _ _ _ _ => rfl
  case arms =>
    refine completes (row_submits_noAim (fun _ => rfl) fun _ _ _ => rfl) fun k r b hp _ _ h => ?_
    rw [← hp] at h ⊢
    exact timAlarm_arms h.1 h.2
  case clears =>
    refine completes (row_submits_noAim (fun _ => rfl) fun _ _ _ => rfl) fun k r b hp _ _ h => ?_
    rw [← hp] at h
    exact timAlarm_clears h
  case canref =>
    refine completes (fun _ _ _ => rfl) fun k r b hp _ _ h => ?_
    rw [← hp] at h ⊢
    exact timCanref_enables h.1 h.2

end Sys2Proof.Machine
end

section
/-!
SUPPORT. The TIM commands on triggers and transmit stamps (09 R278, R280, R281, R292, R293).
-/

namespace Sys2Proof.Machine

/-- A trigger whose first firing lies at least 50 µs ahead is armed at firing 0 (09 R281). -/
theorem armTrg_ahead {tt : Nat} {late : Bool} {blk : List Word} {s : State} (hb : (s.trg tt).block = some blk)
    (ha : (s.trg tt).armed = false) (hn : lateFirings blk s.now = 0) :
    armTrg tt late s = .okay (s.setTrg tt { s.trg tt with
      done := false, made := 0, k := 0, due := false, folded := 0, armed := true }) := by
  simp only [armTrg, hb, ha, hn, Bool.false_eq_true, if_false, if_true]

/-- Settles O26: each row by what its opcode's execution answers. -/
theorem triggerCommandsComplete : Obligations.TriggerCommandsComplete := by
  refine ⟨?assign, ?config, fun blk => ?arms, ?disarms, ?status, ?reader, ?stamps⟩
  case assign =>
    refine completes (row_submits_noAim (fun _ => rfl) fun _ _ _ => rfl) fun k r b hp _ _ h => ?_
    simp only [timTrigAssignSpec, hp, h, Bool.false_eq_true, if_false, Ans.okay]
  case config =>
    refine completes (row_submits_noAim (fun _ => rfl) fun _ _ _ => rfl) fun k r b hp _ _ h => ?_
    simp only [timTrigConfigSpec, hp, h, Bool.false_eq_true, if_false, Ans.okay]
  case arms =>
    refine completes (row_submits_noAim (fun _ => rfl) fun _ _ _ => rfl) fun k r b hp _ _ h => ?_
    obtain ⟨harm, hb, ha, hn⟩ := h
    simp only [timTrigArmSpec, hp, harm, if_true, armTrg_ahead hb ha hn, Ans.okay]
  case disarms =>
    refine completes (row_submits_noAim (fun _ => rfl) fun _ _ _ => rfl) fun k r b hp _ _ h => ?_
    simp only [timTrigArmSpec, hp, h, Bool.false_eq_true, if_false, Ans.okay]
  case status =>
    refine completes (row_submits_noAim (fun _ => rfl) fun _ _ _ => rfl) fun k r b hp _ _ _ => ?_
    simp only [timTrigStatusSpec, hp]
  case reader =>
    refine completes (row_submits_noAim (fun _ => rfl) fun _ _ _ => rfl) fun k r b hp _ _ _ => ?_
    simp only [timTxqAssignSpec, hp, Ans.okay]
  case stamps =>
    refine completes (row_submits_noAim (fun _ => rfl) fun _ _ _ => rfl) fun k r b hp _ _ h => ?_
    simp only [timTxstampsSpec, hp, h, Bool.false_eq_true, if_false]

end Sys2Proof.Machine
end

section
/-!
SUPPORT. The events of Tally time (09 R264, R271, R272, R282 to R288): what the domains' timeouts do, and an edge of
PPS_IN that disciplines nothing.
-/

namespace Sys2Proof.Machine

/-- Two changes that agree on a state are noted alike (09 R294). -/
theorem withWork_congr {f g : State → State} {s : State} (h : f s = g s) : withWork f s = withWork g s := by
  simp only [withWork, h]

section
variable {i : Nat} {s : State}

/-- The second gPTP domain stands when the first enters a state. -/
theorem inst_one_instTo_zero (st : TimState) : (instTo 0 st s).inst 1 = s.inst 1 := by
  unfold instTo
  dsimp only
  split <;> rfl

/-- A domain that is not locked waits for no Sync (09 R271). -/
theorem syncTimeout_unlocked (h : (s.inst i).st ≠ .locked) : syncTimeout i s = s := by
  simp only [syncTimeout, h, false_and, if_false]

/-- A locked domain enters HOLDOVER after three Sync intervals without one (09 R271). -/
theorem syncTimeout_elapsed (h : (s.inst i).st = .locked)
    (ht : (s.inst i).lastSync + 3 * (s.inst i).interval ≤ s.clk) :
    syncTimeout i s = instTo i .holdover s := by
  simp only [syncTimeout, h, ht, and_self, if_true]

/-- A domain outside HOLDOVER has none to end (09 R271). -/
theorem holdoverEnd_outside (h : (s.inst i).st ≠ .holdover) : holdoverEnd i s = s := by
  simp only [holdoverEnd, h, false_and, if_false]

/-- HOLDOVER ends in FREERUN after 2 s (09 R271). -/
theorem holdoverEnd_elapsed (h : (s.inst i).st = .holdover) (ht : (s.inst i).since + 2000000000 ≤ s.clk) :
    holdoverEnd i s = instTo i .freerun s := by
  simp only [holdoverEnd, h, ht, and_self, if_true]

end

/-- A count of another window than the present one reads 0 (00 R625). -/
theorem WinCount.now_past {w : WinCount} {s : State} (h : (w.gen, w.sec) ≠ s.window) : w.now s = 0 := by
  rw [WinCount.now, if_neg h]

/-- An edge of PPS_IN outside GRANDMASTER, fewer than four stamps being held, is only stamped (09 R288). -/
theorem ppsEdge_stamps {s : State} (hl : s.tim.ppsStamps.length < 4) (hw : s.workState ≠ .grandmaster) :
    ppsEdge s = { s with tim := { s.tim with ppsStamps := s.tim.ppsStamps ++ [(s.now, s.tfr)] } } := by
  have hroom : ¬ 4 < (s.tim.ppsStamps ++ [(s.now, s.tfr)]).length := by
    rw [List.length_append, List.length_singleton]
    omega
  simp only [ppsEdge, hroom, hw, false_and, if_false]

/-- Settles O27: each row by its condition and its effect. -/
theorem timeEventsHappen : Obligations.TimeEventsHappen := by
  refine ⟨fun inst offset gm port => ?sync, ?timeout, ?expiry, fun e s => ⟨rfl, rfl, rfl⟩,
    fun e s w => ⟨rfl, WinCount.now_past⟩, fun tt => ?firing, ?rises, ?falls, ?edge, fun can seq t => ?followUp,
    ?leads⟩
  case sync =>
    refine happens_of_event (fun e s => (rfl : _ = execSyncReceived e inst offset gm port s)) ?_
    rintro u ⟨hi, hr, hl, ht⟩
    exact ⟨by simp [hi, hr, hl, ht], rfl⟩
  case timeout =>
    refine happens_of_event (fun e s => (rfl : _ = execSyncTimeout e s)) ?_
    rintro u ⟨h0, h1, ht⟩
    exact ⟨rfl, withWork_congr (by rw [syncTimeout_unlocked h0, syncTimeout_elapsed h1 ht])⟩
  case expiry =>
    refine happens_of_event (fun e s => (rfl : _ = execHoldoverExpiry e s)) ?_
    rintro u ⟨h0, ht, h1⟩
    have hother : ((instTo 0 .freerun u).inst 1).st ≠ .holdover := by
      rw [inst_one_instTo_zero, h1]
      decide
    exact ⟨rfl, withWork_congr (by rw [holdoverEnd_elapsed h0 ht, holdoverEnd_outside hother])⟩
  case firing =>
    refine happens_of_event (fun e s => (rfl : _ = execTriggerFiring e tt s)) ?_
    rintro u ⟨ht, ha, hd, hn⟩
    exact ⟨by simp [ht, ha, hd, hn], rfl⟩
  case rises =>
    refine happens_of_event (fun e s => (rfl : _ = execPpsOutPulse e s)) ?_
    rintro u ⟨ho, hs⟩
    exact ⟨by simp [ho, hs], rfl⟩
  case falls =>
    refine happens_of_event (fun e s => (rfl : _ = execPpsOutFall e s)) ?_
    rintro u ⟨hl, ht⟩
    exact ⟨by simp [hl, ht], rfl⟩
  case edge =>
    refine happens_of_event (fun e s => (rfl : _ = execPpsInEdge e s)) ?_
    rintro u ⟨hi, hl, hw⟩
    exact ⟨hi, ppsEdge_stamps hl hw⟩
  case followUp =>
    refine happens_of_event (fun e s => (rfl : _ = execCanrefFup e can s)) ?_
    rintro u ⟨hc, hb, hr, hf⟩
    exact ⟨by simp [hc, alive_of_run (eq_of_beq hb), hr, hf], by simp only [hf]⟩
  case leads =>
    refine happens_of_event (fun e s => (rfl : _ = execBecomesGrandmaster e s)) ?_
    rintro u ⟨hr, -, hl⟩
    exact ⟨by simp [hr, hl], rfl⟩

end Sys2Proof.Machine
end

section
/-!
SUPPORT. The rows on wakes and power states (14 R432 to R435, 20 R597 to R604): what a wake-up pattern does at a
selective decoder, and a field input's wake out of SLEEP.
-/

namespace Sys2Proof.Machine

section
variable {cause idx : Nat} {s : State}

/-- With selective wake a wake-up pattern starts the decoder (14 R433). -/
theorem wakeStep_decoder (hsw : (s.ring idx).swEn = true) (hrel : s.releaseWake 1 idx = false)
    (hrun : (s.ring idx).decRun = false) :
    wakeStep 1 idx s = s.setRing idx { s.ring idx with decRun := true, decErr := 0, decAt := s.clk } := by
  simp only [wakeStep, hsw, hrel, hrun, Bool.not_false, and_self, Bool.false_eq_true, if_false, if_true]

/-- A wake of no ring's bus is judged in the state it meets. -/
theorem wakeReady_field : wakeReady 7 idx s = s := by
  have hbus : busCause 7 = false := rfl
  simp only [wakeReady, hbus, Bool.false_and, Bool.false_eq_true, if_false]

/-- A change of a field input that is enabled as a source is armed in SLEEP (14 R432). -/
theorem wakeArmed_field (hm : s.pow.mode = .sleep) (hl : 40 ≤ idx) (hu : idx < 48)
    (hw : bit s.nmg.wake1 (idx - 40) = true) (ht : s.fiTakes idx (1 - (s.fin idx).raw) = true) :
    s.wakeArmed 7 idx = true := by
  have hrel : s.releaseWake 7 idx = false := Bool.and_false _
  have hasleep : s.asleep = true := by simp only [State.asleep, hm]
  simp [State.wakeArmed, hm, hrel, hasleep, hl, hu, hw, ht]

/-- The first wake in SLEEP is latched, with its time by AON (14 R435). -/
theorem wakeStep_field (hm : s.pow.mode = .sleep) (hp : s.nmg.wakePend = false) :
    wakeStep 7 idx s = { s.setFin idx { s.fin idx with raw := 1 - (s.fin idx).raw } with
      nmg := { s.nmg with
        wakePend := true, cause := 7, causeIdx := idx, causeAt := aonTime s.tim.full, wakeBus := none } } := by
  have htake : wakeStep 7 idx s = wakeTake 7 idx (s.setFin idx { s.fin idx with raw := 1 - (s.fin idx).raw }) := by
    simp [wakeStep, hm]
  have hbus : busCause 7 = false := rfl
  rw [htake]
  simp only [wakeTake, latchWake, State.setFin_pow, State.setFin_nmg, State.setFin_tim, hm, hp, hbus,
    Bool.false_eq_true, if_false]

end

/-- Settles O59: each row by its condition and its effect. -/
theorem powerEventsHappen : Obligations.PowerEventsHappen := by
  refine ⟨?alarm, fun cause src => ?decoder, fun cause src => ?latched, fun r => ?audit, fun t => ?entry, ?goesOn,
    ?ends, ?sleeps, ?dormant, ?aonLoss, fun kind => ?supply, fun kind => ?woken, fun kind => ?undormant,
    fun kind => ?logicReset, ?brownout⟩
  case alarm =>
    refine happens_of_event (fun e s => (rfl : _ = execTallyAlarmFire e s)) ?_
    rintro u ⟨hd, hm⟩
    exact ⟨by simp [hd, hm], by simp only [hm, alarmOff, alarmNote]⟩
  case decoder =>
    refine happens_of_event (fun e s => (rfl : _ = execWake e cause src s)) ?_
    rintro u ⟨rfl, ha, hsw, hrel, hrun⟩
    exact ⟨by simp [ha], wakeStep_decoder hsw hrel hrun⟩
  case latched =>
    refine happens_of_event (fun e s => (rfl : _ = execWake e cause src s)) ?_
    rintro u ⟨rfl, hm, hp, hl, hu, hw, ht⟩
    rw [wakeReady_field]
    exact ⟨by simp [wakeArmed_field hm hl hu hw ht], wakeStep_field hm hp⟩
  case audit =>
    refine happens_of_event (fun e s => (rfl : _ = execAuditEnd e s)) ?_
    rintro u ⟨hr, hl⟩
    exact ⟨by simp [hr, hl], rfl⟩
  case entry =>
    refine happens_of_event (fun e s => (rfl : _ = execSleepEntry e s)) ?_
    rintro u ⟨hm, hp, hq, ht⟩
    have hquiet := any_le (f := fun t => t + u.image.tsleep * 1000000000) hq ht
    exact ⟨by simp only [hm, hp, hquiet, beq_self_eq_true, Bool.and_self], rfl⟩
  case goesOn =>
    refine happens_of_event (fun e s => (rfl : _ = execSleepEntryCheck e s)) ?_
    rintro u ⟨hm, ht, hw, hp⟩
    exact ⟨by simp [hm, ht], by simp only [hw, hp, Bool.not_true, Bool.or_self, Bool.false_eq_true, if_false]⟩
  case ends =>
    refine happens_of_event (fun e s => (rfl : _ = execSleepEntryCheck e s)) ?_
    rintro u ⟨hm, ht, hend⟩
    have hwake : (u.nmg.wakePend || !u.parked) = true := by simpa using hend
    exact ⟨by simp [hm, ht], if_pos hwake⟩
  case sleeps =>
    refine happens_of_event (fun e s => (rfl : _ = execSleepReached e s)) ?_
    rintro u ⟨hm, ha, hw, hc, hi, hq⟩
    exact ⟨by rw [hm, ha, hw, hc, hi, hq]; rfl, rfl⟩
  case dormant =>
    refine happens_of_event (fun e s => (rfl : _ = execDormantEntry e s)) ?_
    rintro u ⟨hm, hw, hd, ht⟩
    exact ⟨by simp [hm, hw, hd, ht], rfl⟩
  case aonLoss =>
    refine happens_of_event (fun e s => (rfl : _ = execAonSupplyLoss e s)) ?_
    rintro u ⟨hm, hv⟩
    exact ⟨by simpa [hv] using hm, rfl⟩
  case supply =>
    refine happens_of_event (fun e s => (rfl : _ = execStart e kind s)) ?_
    rintro u ⟨rfl, hm, hv⟩
    exact ⟨by simp [hm, hv], rfl⟩
  case woken =>
    refine happens_of_event (fun e s => (rfl : _ = execStart e kind s)) ?_
    rintro u ⟨rfl, hm, hw⟩
    exact ⟨by simp [hm, hw], rfl⟩
  case undormant =>
    refine happens_of_event (fun e s => (rfl : _ = execStart e kind s)) ?_
    rintro u ⟨rfl, hm, hw⟩
    exact ⟨by simp [hm, hw], rfl⟩
  case logicReset =>
    refine happens_of_event (fun e s => (rfl : _ = execStart e kind s)) ?_
    rintro u ⟨rfl, hd, hr⟩
    exact ⟨by simp [hd, hr], rfl⟩
  case brownout =>
    refine happens_of_event (fun e s => (rfl : _ = execBrownout e s)) ?_
    rintro u ⟨hd, ht⟩
    exact ⟨by simp [hd, ht], rfl⟩

end Sys2Proof.Machine
end

section
/-!
SUPPORT. The NET configuration commands (10 R297, R301 to R303, R316, R323, R324): what each of them answers on a state
that takes it.
-/

namespace Sys2Proof.Machine

/-- A bucket with a free way takes an entry beside those of other keys (10 R303). -/
theorem fdbPut_freeWay {x : FdbEntry} {s : State}
    (h : ((fdbDrop x.mac x.vid s).bucket (bucketOf x.mac x.vid)).length < 4) :
    fdbPut x s = some { fdbDrop x.mac x.vid s with net := { (fdbDrop x.mac x.vid s).net with
      fdb := (fdbDrop x.mac x.vid s).net.fdb ++ [x] } } := by
  simp only [fdbPut, h, if_true]

section
variable {c : Cmd} {s : State}

/-- A clock-gated port stores its configuration (10 R324). -/
theorem netPortConfig_stores (h : s.portState (parPort c.params) = .clockGated) :
    netPortConfigSpec.exec c s =
      .okay (s.setSp (parPort c.params) { s.sp (parPort c.params) with conf := c.params }) := by
  simp only [netPortConfigSpec, h, ne_eq, not_true_eq_false, if_false]

section
variable (h12 : s.ringOn 12 = false) (h13 : s.ringOn 13 = false) (hg : (s.gate (.port (parPort c.params))).st = .run)
include h12 h13 hg

/-- ACTION = 1 begins the shut-down of a port in RUN that no ring governs (01 R28, 10 R297). -/
theorem netPortCtl_disables (hd : fld (par c.params 0) 9 8 = 1) :
    netPortCtlSpec.exec c s = .accept (s.setGate (.port (parPort c.params)) { s.gate (.port (parPort c.params)) with
      st := .quiescing, deep := false, disCmds := [c.id], since := s.clk }) := by
  have hnot : (1 : Nat) ≠ 0 := Nat.one_ne_zero
  simp only [netPortCtlSpec, h12, h13, hd, hnot, gateDisable_run hg, Bool.false_eq_true, and_false, or_self, if_false]

/-- ACTION = 0 leaves a port in RUN that no ring governs as it is (01 R28, 10 R297). -/
theorem netPortCtl_enabled (he : fld (par c.params 0) 9 8 = 0) (hb : s.blkFail (39 + parPort c.params) = false) :
    netPortCtlSpec.exec c s = .okay s := by
  simp only [netPortCtlSpec, h12, h13, he, hb, gateEnable_run hg, Bool.false_eq_true, and_false, or_self, if_false,
    if_true]

end

/-- NET_VLAN with VALID writes the members of a VID and where its tag is removed (10 R323). -/
theorem netVlan_writes (h : bit (par c.params 0) 16 = true) :
    netVlanSpec.exec c s = .okay { s with net := { s.net with
      vlan := put s.net.vlan (fld (par c.params 0) 11 0)
        (fld (par c.params 1) 15 0, fld (par c.params 1) 31 16) } } := by
  simp only [netVlanSpec, h, if_true]

/-- NET_FDB_ADD installs its static entry in a bucket with a free way (10 R301, R323). -/
theorem netFdbAdd_installs
    (h : ((fdbDrop (parMac c.params) (parVid c.params) s).bucket
      (bucketOf (parMac c.params) (parVid c.params))).length < 4) :
    netFdbAddSpec.exec c s = .okay { fdbDrop (parMac c.params) (parVid c.params) s with
      net := { (fdbDrop (parMac c.params) (parVid c.params) s).net with
        fdb := (fdbDrop (parMac c.params) (parVid c.params) s).net.fdb ++
          [fdbOf c.params s.clk ((s.fdb? (parMac c.params) (parVid c.params)).any (·.vi))] } } := by
  have hput := fdbPut_freeWay (x := fdbOf c.params s.clk ((s.fdb? (parMac c.params) (parVid c.params)).any (·.vi)))
    (s := s) h
  simp only [netFdbAddSpec, hput]
  rfl

/-- NET_FDB_DEL drops the entry of a key that no virtual interface installed (10 R323). -/
theorem netFdbDel_drops (h : (s.fdb? (parMac c.params) (parVid c.params)).any (·.vi) = false) :
    netFdbDelSpec.exec c s = .okay (fdbDrop (parMac c.params) (parVid c.params) s) := by
  simp only [netFdbDelSpec, h, Bool.false_eq_true, if_false]

end

/-- Settles O28: each row by what its opcode's execution answers. -/
theorem switchConfigRowsComplete : Obligations.SwitchConfigRowsComplete := by
  refine ⟨?config, ?disables, ?enabled, ?queue, ?vlan, ?etype, ?add, ?del, ?flush, ?age⟩
  case config =>
    refine completes (row_submits_noAim (fun _ => rfl) fun _ _ _ => rfl) fun k r b hp _ _ h => ?_
    rw [← hp] at h ⊢
    exact netPortConfig_stores h
  case disables =>
    refine accepts (row_submits_noAim (fun _ => rfl) fun _ _ _ => rfl) fun k r b hp _ _ h => ?_
    rw [← hp] at h ⊢
    obtain ⟨hd, h12, h13, hg⟩ := h
    exact netPortCtl_disables h12 h13 hg hd
  case enabled =>
    refine completes (row_submits_noAim (fun _ => rfl) fun _ _ _ => rfl) fun k r b hp _ _ h => ?_
    rw [← hp] at h
    obtain ⟨he, h12, h13, hg, hb⟩ := h
    exact netPortCtl_enabled h12 h13 hg he hb
  case queue =>
    refine completes (row_submits_noAim (fun _ => rfl) fun _ _ _ => rfl) fun k r b hp _ _ _ => ?_
    rw [← hp]
    rfl
  case vlan =>
    refine completes (row_submits_noAim (fun _ => rfl) fun _ _ _ => rfl) fun k r b hp _ _ h => ?_
    rw [← hp] at h ⊢
    exact netVlan_writes h
  case etype =>
    refine completes (row_submits_noAim (fun _ => rfl) fun _ _ _ => rfl) fun k r b hp _ _ _ => ?_
    rw [← hp]
    rfl
  case add =>
    refine completes (row_submits_noAim (fun _ => rfl) fun _ _ _ => rfl) fun k r b hp _ _ h => ?_
    rw [← hp] at h ⊢
    exact netFdbAdd_installs h
  case del =>
    refine completes (row_submits_noAim (fun _ => rfl) fun _ _ _ => rfl) fun k r b hp _ _ h => ?_
    rw [← hp] at h ⊢
    exact netFdbDel_drops h
  case flush =>
    refine completes (row_submits_noAim (fun _ => rfl) fun _ _ _ => rfl) fun k r b hp _ _ _ => ?_
    rw [← hp]
    rfl
  case age =>
    refine completes (row_submits_noAim (fun _ => rfl) fun _ _ _ => rfl) fun k r b hp _ _ _ => ?_
    rw [← hp]
    rfl

end Sys2Proof.Machine
end

section
/-!
SUPPORT. The NET reads (10 R322, R323, R325, R326), and the events of links and of the forwarding database's ageing (10
R301, R314, R315): when a hold is over, and a link that comes up outside one.
-/

namespace Sys2Proof.Machine

section
variable {c : Cmd} {s : State} {p : Nat}

/-- CLR zeroes a port's counters after they are reported (10 R323). -/
theorem netCounters_clears (h : bit (par c.params 0) 8 = true) :
    netCountersSpec.exec c s = .done .ok
      ((List.range 17).flatMap (fun j =>
        [wd (look 0 (s.sp (parPort c.params)).cnt j), wd (look 0 (s.sp (parPort c.params)).cnt j / 2 ^ 32)]))
      (s.setSp (parPort c.params) { s.sp (parPort c.params) with cnt := [] }) := by
  simp only [netCountersSpec, h, if_true]

/-- A hold is due once its hold time has elapsed (10 R314). -/
theorem holdDue_elapsed (hh : (s.sp p).holding = true) (ht : (s.sp p).downAt + (s.sp p).hold * 1000000 ≤ s.clk) :
    s.holdDue p = true := by
  simp only [State.holdDue, hh, ht, decide_true, Bool.and_self]

/-- A dynamic entry is old once the ageing time has elapsed since its refresh (10 R301). -/
theorem fdbOld_elapsed {x : FdbEntry} (hd : x.static = false)
    (ht : x.at_ + s.net.fdbAge * 1000000000 ≤ s.clk) : s.fdbOld x = true := by
  simp only [State.fdbOld, hd, ht, Bool.not_false, decide_true, Bool.and_self]

end

/-- Settles O29: the reads by what their opcodes' executions answer, the events by their conditions and effects. -/
theorem switchReadsAndLinksComplete : Obligations.SwitchReadsAndLinksComplete := by
  refine ⟨?lookup, ?status, ?counters, ?buffer, fun port => ?down, fun port => ?up, fun port => ?expires,
    fun mac vid x => ?ages⟩
  case lookup =>
    refine completes (row_submits_noAim (fun _ => rfl) fun _ _ _ => rfl) fun k r b hp _ _ _ => ?_
    rw [← hp]
    rfl
  case status =>
    refine completes (row_submits_noAim (fun _ => rfl) fun _ _ _ => rfl) fun k r b hp _ _ _ => ?_
    rw [← hp]
    rfl
  case counters =>
    refine completes (row_submits_noAim (fun _ => rfl) fun _ _ _ => rfl) fun k r b hp _ _ h => ?_
    rw [← hp] at h ⊢
    exact netCounters_clears h
  case buffer => exact completes (row_submits_noAim (fun _ => rfl) fun _ _ _ => rfl) fun k r b _ _ _ _ => rfl
  case down =>
    refine happens_of_event (fun e s => (rfl : _ = execLinkDown e port s)) ?_
    rintro u ⟨hp, hl⟩
    exact ⟨by simp [hp, hl], rfl⟩
  case up =>
    refine happens_of_event (fun e s => (rfl : _ = execLinkUp e port s)) ?_
    rintro u ⟨hp, ho, hl, hd⟩
    exact ⟨by simp [hp, ho, hl], by simp only [hd, Bool.false_eq_true, if_false]⟩
  case expires =>
    refine happens_of_event (fun e s => (rfl : _ = execHoldExpire e port s)) ?_
    rintro u ⟨hp, hh, ht⟩
    exact ⟨by simp [hp, holdDue_elapsed hh ht], rfl⟩
  case ages =>
    refine happens_of_event (fun e s => (rfl : _ = execFdbAgeing e mac vid s)) ?_
    rintro u ⟨hx, rfl, rfl, hs, ht⟩
    exact ⟨List.any_eq_true.2 ⟨x, hx, by simp [fdbOld_elapsed hs ht]⟩, rfl⟩

end Sys2Proof.Machine
end

section
/-!
SUPPORT. What every step keeps of memory and does at the front of its queue (log 1, log 2).
-/

namespace Sys2Proof.Machine

/-- Settles O3: a step idles or keeps what stood when its elapsed time was over (`step_cases`), and elapsed time keeps
the canonical form. -/
theorem everyStepKeepsMemory : Obligations.EveryStepKeepsMemory := by
  intro s t hs h
  rcases step_cases h with ⟨-, rfl⟩ | ⟨c, cs, e, -, hk⟩
  · exact hs
  · exact hk.mem (advance_safe e hs)

/-- Settles O1: what a step does at the front of its queue and on an empty one. -/
theorem frontCommandRuns : Obligations.FrontCommandRuns :=
  ⟨fun _ _ _ => step_front rfl, fun _ h => step_idle h⟩

end Sys2Proof.Machine
end

section
/-!
SUPPORT. Ring entries and the regions of partitions (15 R454): what an access that the rule grants lies inside, and the
access that each entry that passes has been granted.
-/

namespace Sys2Proof.Machine

section
variable {s : State} {t a n perm : Nat}

/-- An access that the rule grants lies inside one region of the bound partition (15 R454). -/
theorem inside_of_mayAccess (h : s.mayAccess t a n perm = true) : Inside s t a n perm := by
  unfold State.mayAccess at h
  split at h
  · cases h
  · next p hp =>
    rw [Bool.and_eq_true, State.inRegion] at h
    obtain ⟨h, -⟩ := h
    split at h
    · cases h
    · next blk hf =>
      obtain ⟨r, hr, hin⟩ := List.any_eq_true.1 h
      simp only [Bool.and_eq_true, decide_eq_true_eq] at hin
      exact ⟨p, blk, r, hp, hf, hr, hin.1.1, hin.1.2, hin.2⟩

/-- Without a bound partition the rule grants no access (15 R454). -/
theorem mayAccess_unbound (h : s.boundPart t = none) : s.mayAccess t a n perm = false := by
  simp only [State.mayAccess, h]

end

section
variable {v : Vi} {b : List Byte} {s : State}

/-- A transmit entry that passes may read its frame (10 R319). -/
theorem vnicEntryOk_reads (h : vnicEntryOk v b s = true) (h0 : le b 0 1 = 0) :
    s.mayAccess v.owner (le b 8 5) (le b 4 2) 0 = true := by
  simp only [vnicEntryOk, h0, if_true, Bool.and_eq_true] at h
  exact h.2.2

/-- A receive buffer that passes may be written (10 R319). -/
theorem vnicEntryOk_writes (h : vnicEntryOk v b s = true) (h0 : le b 0 1 ≠ 0) :
    s.mayAccess v.owner (le b 8 5) (le b 4 2) 1 = true := by
  simp only [vnicEntryOk, h0, if_false, Bool.and_eq_true] at h
  exact h.2.2

/-- A CAN transmit entry with data in memory that passes may read it (13 R410). -/
theorem vepEntryOk_reads (h : vepEntryOk v b s = true) (h0 : le b 12 1 = 0) (hi : (hFmt b).testBit 3 = false)
    (hn : hLen b ≠ 0) : s.mayAccess v.owner (le b 16 5) (hLen b) 0 = true := by
  simp only [vepEntryOk, h0, hi, if_true, Bool.and_eq_true, Bool.false_or, Bool.or_eq_true, beq_iff_eq, hn,
    false_or] at h
  exact h.2.2

/-- A CAN receive buffer that passes may be written (13 R410). -/
theorem vepEntryOk_writes (h : vepEntryOk v b s = true) (h0 : le b 12 1 ≠ 0) :
    s.mayAccess v.owner (le b 16 5) 2048 1 = true := by
  simp only [vepEntryOk, h0, if_false, Bool.and_eq_true] at h
  exact h.2.2

/-- A transfer that passes may write its destination (15 R475). -/
theorem xferOk_writes {owner : Nat} (h : xferOk owner b s = true) :
    s.mayAccess owner (le b 16 5) (le b 4 4) 1 = true := by
  simp only [xferOk, Bool.and_eq_true] at h
  exact h.1.2

/-- A copy that passes may read its source (15 R475). -/
theorem xferOk_reads {owner : Nat} (h : xferOk owner b s = true) (h0 : le b 0 1 = 0) :
    s.mayAccess owner (le b 8 5) (le b 4 4) 0 = true := by
  simp only [xferOk, h0, if_true, Bool.and_eq_true] at h
  exact h.2.1

end

/-- Settles O12: each entry that passes has been granted its access, which lies inside one region; without a bound
partition none is granted. -/
theorem ringEntriesStayInOneRegion : Obligations.RingEntriesStayInOneRegion := by
  intro v b s
  refine ⟨fun h h0 => inside_of_mayAccess (vnicEntryOk_reads h h0),
    fun h h1 => inside_of_mayAccess (vnicEntryOk_writes h (by omega)),
    fun h h0 hi hn => inside_of_mayAccess (vepEntryOk_reads h h0 hi hn),
    fun h h1 => inside_of_mayAccess (vepEntryOk_writes h (by omega)),
    fun h => inside_of_mayAccess (xferOk_writes h), fun h h0 => inside_of_mayAccess (xferOk_reads h h0),
    fun hb => ?unbound⟩
  case unbound =>
    have hno : ∀ {a n perm : Nat}, s.mayAccess v.owner a n perm ≠ true := by simp [mayAccess_unbound hb]
    refine ⟨Bool.eq_false_iff.2 fun h => ?vnic, Bool.eq_false_iff.2 fun h => hno (xferOk_writes h),
      fun hm => Bool.eq_false_iff.2 fun h => ?vep⟩
    case vnic =>
      by_cases h0 : le b 0 1 = 0
      · exact hno (vnicEntryOk_reads h h0)
      · exact hno (vnicEntryOk_writes h h0)
    case vep =>
      by_cases h0 : le b 12 1 = 0
      · obtain ⟨hi, hn⟩ := hm.resolve_left (by omega)
        exact hno (vepEntryOk_reads h h0 hi hn)
      · exact hno (vepEntryOk_writes h h0)

end Sys2Proof.Machine
end

section
/-!
SUPPORT. The TSN commands on change sets, streams, gate lists and shapers (11 R333, R343, R346, R350, R354 to R361): what
each of them answers on a state that takes it.
-/

namespace Sys2Proof.Machine

/-- A staging command changes the open set (11 R354). -/
theorem stage_open {f : ChangeSet → ChangeSet} {cs : ChangeSet} {s : State} (hs : s.tsn.set = some cs)
    (ht : cs.t = none) : stage f s = .okay (setSet (some (f cs)) s) := by
  simp only [stage, hs, ht, Option.isSome_none, Bool.false_eq_true, if_false]

/-- A commit for a time at least 100 µs ahead is taken for that time (11 R355). -/
theorem tsnCsCommit_takes {c : Cmd} {s : State} {cs : ChangeSet} {t : Nat}
    (hw : (par c.params 1).toNat + (par c.params 2).toNat * 2 ^ 32 = t)
    (hn : s.named (par c.params 0).toNat = some cs) (ht : cs.t = none) (hx : crossOk cs.tab s = true) (h0 : t ≠ 0)
    (hd : 100000 ≤ diff48 t s.now) :
    tsnCsCommitSpec.exec c s = .accept (setSet (some { cs with
      t := some (s.nearest t), cmd := c.id,
      lists := cs.lists.map (fun p => (p.1, { p.2 with base := s.nearest p.2.base })),
      waiting := (cs.lists.map (fun p => (p.1, { p.2 with base := s.nearest p.2.base }))).map (·.1) }) s) := by
  have hsoon : (t == 0 || decide (diff48 t s.now < 100000)) = false := by
    simpa [h0] using hd
  simp only [tsnCsCommitSpec, hw, hn, ht, hx, hsoon, Option.isSome_none, Bool.not_true, Bool.false_eq_true, and_false,
    false_and, if_false]

/-- Settles O30: each row by what its opcode's execution answers. -/
theorem streamRowsComplete : Obligations.StreamRowsComplete := by
  refine ⟨?opens, fun cs => ?commits, fun cs => ?aborts, fun cs => ?stream, ?read, ?status, ?clear, fun cs => ?gcl,
    fun cs => ?cbs, fun cs => ?select, ?port⟩
  case opens =>
    refine completes (row_submits_noAim (fun _ => rfl) fun _ _ _ => rfl) fun k r b _ _ _ h => ?_
    simp only [tsnCsOpenSpec, h, Option.isSome_none, Bool.false_eq_true, if_false]
  case commits =>
    refine accepts (row_submits_noAim (fun _ => rfl) fun _ _ _ => rfl) fun k r b hp _ _ h => ?_
    rw [← hp] at h ⊢
    obtain ⟨hn, ht, hx, h0, hd⟩ := h
    exact tsnCsCommit_takes rfl hn ht hx h0 hd
  case aborts =>
    refine completes (row_submits_noAim (fun _ => rfl) fun _ _ _ => rfl) fun k r b hp _ _ h => ?_
    simp only [tsnCsAbortSpec, hp, h.1, h.2, Option.isSome_none, Bool.false_eq_true, if_false, Ans.okay]
  case stream =>
    refine completes (row_submits_noAim (fun _ => rfl) fun _ _ _ => rfl) fun k r b hp _ _ h => ?_
    simp only [tsnStreamSpec, stage_open h.1 h.2, hp, Ans.okay]
  case read =>
    refine completes (row_submits_noAim (fun _ => rfl) fun _ _ _ => rfl) fun k r b hp _ _ h => ?_
    simp only [tsnStreamReadSpec, hp, h, Bool.false_eq_true, if_false]
  case status =>
    refine completes (row_submits_noAim (fun _ => rfl) fun _ _ _ => rfl) fun k r b hp _ _ _ => ?_
    simp only [tsnStreamStatusSpec, hp]
  case clear =>
    refine completes (row_submits_noAim (fun _ => rfl) fun _ _ _ => rfl) fun k r b hp _ _ _ => ?_
    simp only [tsnStreamClearSpec, hp, Ans.okay]
  case gcl =>
    refine completes (row_submits_noAim (fun _ => rfl) fun _ _ _ => rfl) fun k r b hp _ _ h => ?_
    obtain ⟨hs, ht, hport⟩ := h
    simp only [tsnGclSpec, stage_open hs ht, hp, hport, Bool.false_eq_true, if_false, Ans.okay]
  case cbs =>
    refine completes (row_submits_noAim (fun _ => rfl) fun _ _ _ => rfl) fun k r b hp _ _ h => ?_
    obtain ⟨hs, ht, hon⟩ := h
    simp only [tsnCbsSpec, stage_open hs ht, hp, hon, if_true, Ans.okay]
  case select =>
    refine completes (row_submits_noAim (fun _ => rfl) fun _ _ _ => rfl) fun k r b hp _ _ h => ?_
    simp only [tsnTxsaSelectSpec, stage_open h.1 h.2, hp, Ans.okay]
  case port =>
    refine completes (row_submits_noAim (fun _ => rfl) fun _ _ _ => rfl) fun k r b hp _ _ _ => ?_
    simp only [tsnPortStatusSpec, hp]

end Sys2Proof.Machine
end

section
/-!
SUPPORT. The MACsec commands (11 R350, R362, R363) and the events of gates, change sets and recovery functions (11 R340,
R344, R355 to R357).
-/

namespace Sys2Proof.Machine

/-- A gate list that switches first of its set becomes the operating list, its time the last switch (11 R356). -/
theorem gateSwitch_first {k at_ : Nat} {g : GateStage} {cs : ChangeSet} {s : State} (hl : s.listDue k = some (g, at_))
    (hs : s.tsn.set = some cs) (hn : cs.lastSwitch = none) :
    gateSwitch k s = foldKey k { foldKey k s with tsn := { (foldKey k s).tsn with
      gate := put (foldKey k s).tsn.gate k (g.become at_)
      set := some { cs with waiting := cs.waiting.filter (· != k), lastSwitch := some at_ } } } := by
  simp only [gateSwitch, hl, hs, hn]

/-- A recovery function is due once no packet has been accepted for its reset window (11 R340). -/
theorem recoveryDue_elapsed {sid a : Nat} {s : State} (hr : stRec (s.ctx sid) = true)
    (hk : (s.strm sid).takeAny = false) (hl : (s.strm sid).lastAcc = some a)
    (ht : a + stReset (s.ctx sid) * 1000000 ≤ s.clk) : s.recoveryDue sid = true := by
  have hany := any_le (f := fun t => t + stReset (s.ctx sid) * 1000000) hl ht
  simp only [State.recoveryDue, hr, hk, hany, Bool.not_false, Bool.and_self]

/-- Settles O31: the commands by what their opcodes' executions answer, the events by their conditions and effects. -/
theorem macsecRowsAndTsnEventsComplete : Obligations.MacsecRowsAndTsnEventsComplete := by
  refine ⟨?port, ?sa, ?rxsc, ?status, fun cs t => ?switches, fun gk cs g at_ => ?gate, fun cs => ?complete,
    fun gk => ?entry, fun sid a => ?recovery⟩
  case port =>
    refine completes (row_submits_noAim (fun _ => rfl) fun _ _ _ => rfl) fun k r b hp _ _ h => ?_
    simp only [tsnMacsecPortSpec, hp, h, ne_eq, not_true_eq_false, if_false, Ans.okay]
  case sa =>
    refine completes (row_submits_noAim (fun _ => rfl) fun _ _ _ => rfl) fun k r b hp _ _ h => ?_
    simp only [tsnSaSpec, hp, h, Bool.false_eq_true, if_false, Ans.okay]
  case rxsc =>
    refine completes (row_submits_noAim (fun _ => rfl) fun _ _ _ => rfl) fun k r b hp _ _ _ => ?_
    simp only [tsnRxscSpec, hp, Ans.okay]
  case status =>
    refine completes (row_submits_noAim (fun _ => rfl) fun _ _ _ => rfl) fun k r b hp _ _ _ => ?_
    simp only [tsnMacsecStatusSpec, hp]
  case switches =>
    refine happens_of_event (fun e s => (rfl : _ = execChangeSetSwitch e s)) ?_
    rintro u ⟨hs, hn, ht, hd⟩
    exact ⟨by simp [State.setDue, hs, hn, ht, hd], by simp only [setSwitch, hs]⟩
  case gate =>
    refine happens_of_event (fun e s => (rfl : _ = execGateListSwitch e gk s)) ?_
    rintro u ⟨hk, hs, hl, hd, -, hn⟩
    exact ⟨by simp [hk, State.gateDue, hl, hd], gateSwitch_first hl hs hn⟩
  case complete =>
    refine happens_of_event (fun e s => (rfl : _ = execChangeSetComplete e s)) ?_
    rintro u ⟨hs, hd, hw⟩
    exact ⟨by simp [hs, hd, hw], by simp only [hs]⟩
  case entry =>
    refine happens_of_event (fun e s => (rfl : _ = execGateEntryChange e gk s)) ?_
    rintro u ⟨hk, hg⟩
    exact ⟨by simp [hk, hg], rfl⟩
  case recovery =>
    refine happens_of_event (fun e s => (rfl : _ = execRecoveryReset e sid s)) ?_
    rintro u ⟨hi, hr, hk, hl, ht⟩
    exact ⟨by simp [hi, recoveryDue_elapsed hr hk hl ht], rfl⟩

end Sys2Proof.Machine
end

section
/-!
SUPPORT. The BUS commands of the CAN kind (12 R366 to R368, R377, R380, R397 to R399): a lock that stands or is over, a
configuration that lays the message RAM out anew, and what the enable of a gated controller answers.
-/

namespace Sys2Proof.Machine

/-- The later of two updates of a controller stands. -/
theorem setCan_setCan (s : State) (n : Nat) (x y : CanCtl) : (s.setCan n x).setCan n y = s.setCan n y := by
  simp [State.setCan, put_put]

section
variable {n b at_ : Nat} {s : State}

/-- Without a lock none expires. -/
theorem lockExpire_unlocked (h : (s.canc n).lock = none) : lockExpire n s = s := by
  simp only [lockExpire, h]

/-- A lock stands for 100 µs (12 R386). -/
theorem lockExpire_stands (h : (s.canc n).lock = some (b, at_)) (ht : s.clk < at_ + 100000) : lockExpire n s = s := by
  simp only [lockExpire, h, ht, if_true]

/-- A lock is released after 100 µs, with BUS_LOCK and its flag (12 R386). -/
theorem lockExpire_elapsed (h : (s.canc n).lock = some (b, at_)) (ht : at_ + 100000 ≤ s.clk) :
    lockExpire n s = canNotice n 0x3003 [wd (b * 2 ^ 16 + n)] (s.setCan n { s.canc n with
      lock := none, flags := (s.canc n).flags ||| 2, lockExp := satInc 0xFFFF (s.canc n).lockExp }) := by
  simp only [lockExpire, h, Nat.not_lt.2 ht, if_false]

end

section
variable {c : Cmd} {s : State}

/-- BUS_CTL that enables a clock-gated controller fixes its mode and starts it (12 R368). -/
theorem busEnable_gated (hc : isCan c.params = true) (hg : (s.gate (.can (busIx c.params))).st = .clockGated) :
    busEnable c s = .accept ((s.setCan (busIx c.params) { s.canc (busIx c.params) with
        mode := fld (par c.params 0) 13 12 }).setGate (.can (busIx c.params))
      { s.gate (.can (busIx c.params)) with st := .starting, cold := false, enCmds := [c.id], since := s.clk }) := by
  have hfn : busFn c.params = .can (busIx c.params) := by simp only [busFn, hc, if_true]
  have hgate : ((s.setCan (busIx c.params) { s.canc (busIx c.params) with
      mode := fld (par c.params 0) 13 12 }).gate (.can (busIx c.params))).st = .clockGated := by rw [gate_setCan, hg]
  simp only [busEnable, hc, hg, hfn, bne_self_eq_false, Bool.and_false, Bool.false_and, Bool.false_eq_true, if_false,
    if_true, gateEnable_clockGated hgate, gate_setCan, State.setCan_clk]

/-- A configuration that lays the message RAM out anew empties it (12 R398). -/
theorem busCanConfig_anew (hg : s.canState (busIx c.params) = .clockGated) (hr : s.refOn (busIx c.params) = false)
    (hm : s.ringed (busIx c.params) = false)
    (hl : layout ((par c.params 0 &&& 0xFF00) :: c.params.tail) ≠ layout (s.canc (busIx c.params)).conf) :
    busCanConfigSpec.exec c s = .okay (s.setCan (busIx c.params) { (s.canc (busIx c.params)).emptied with
      conf := (par c.params 0 &&& 0xFF00) :: c.params.tail }) := by
  simp only [busCanConfigSpec, hg, hr, hm, hl, bne_self_eq_false, Bool.or_self, Bool.and_false, Bool.false_eq_true,
    if_false]

/-- BUS_CAN_RX of the receive FIFO consumes its head and leaves no lock (12 R397). -/
theorem busCanRx_head {buf : Nat} (hs : fld (par c.params 0) 14 8 = 0x7F)
    (hl : (s.canc (busIx c.params)).lock = none) (hh : (s.canc (busIx c.params)).rxfHead = some buf) :
    busCanRxSpec.exec c s = .done .ok (s.canElem (busIx c.params) buf)
      ((consume (busIx c.params) buf s).setCan (busIx c.params)
        { (consume (busIx c.params) buf s).canc (busIx c.params) with lock := none }) := by
  simp only [busCanRxSpec, lockExpire_unlocked hl, hs, hl, hh, if_true, Option.any_none, Bool.false_eq_true, if_false]

end

/-- Settles O32: each row by what its opcode's execution answers. -/
theorem canCommandsComplete : Obligations.CanCommandsComplete := by
  refine ⟨?assign, ?enables, ?disables, ?config, ?filter, ?status, ?txFifo, ?txPri, fun buf => ?rx, ?txe⟩
  case assign =>
    refine completes (fun _ _ _ => rfl) fun k r b hp _ _ h => ?_
    have hfn : busFn r.params = .can (busIx r.params) := by simp only [busFn, h.1, if_true]
    simp only [busAssignSpec, hp, hfn, h.1, h.2, bne_self_eq_false, Bool.false_eq_true, if_false, if_true, Ans.okay]
  case enables =>
    refine accepts (fun _ _ _ => rfl) fun k r b hp _ _ h => ?_
    rw [← hp] at h ⊢
    obtain ⟨hc, hr, he, hf, hg⟩ := h
    simp only [busCtlSpec, hr, he, hf, Bool.and_false, Bool.false_eq_true, if_false, if_true, busEnable_gated hc hg]
  case disables =>
    refine accepts (fun _ _ _ => rfl) fun k r b hp _ _ h => ?_
    rw [← hp] at h ⊢
    obtain ⟨hc, hr, hd, hg⟩ := h
    have hfn : busFn k.params = .can (busIx k.params) := by simp only [busFn, hc, if_true]
    simp only [busCtlSpec, hr, hd, hfn, Bool.and_false, Bool.false_eq_true, if_false, one_ne_zero, gateDisable_run hg]
  case config =>
    refine completes (fun _ _ _ => rfl) fun k r b hp _ _ h => ?_
    rw [← hp] at h ⊢
    obtain ⟨hg, hr, hm, hl⟩ := h
    exact busCanConfig_anew hg hr hm hl
  case filter =>
    refine completes (fun _ _ _ => rfl) fun k r b hp _ _ _ => ?_
    simp only [busCanFilterSpec, hp, Ans.okay]
  case status =>
    refine completes (fun _ _ _ => rfl) fun k r b hp _ _ _ => ?_
    simp only [busCanStatusSpec, hp]
  case txFifo =>
    refine completes (fun _ _ _ => rfl) fun k r b hp _ _ h => ?_
    obtain ⟨hm, ht, hroom⟩ := h
    simp only [busCanTxSpec, hp, hm, ht, Nat.not_le.2 hroom, if_false, if_true]
  case txPri =>
    refine completes (fun _ _ _ => rfl) fun k r b hp _ _ h => ?_
    obtain ⟨hm, ht, hr, hn⟩ := h
    simp only [busCanTxSpec, hp, hm, ht, hr, hn, Bool.or_self, Bool.false_eq_true, if_false]
  case rx =>
    refine completes (fun _ _ _ => rfl) fun k r b hp _ _ h => ?_
    rw [← hp] at h ⊢
    obtain ⟨hs, hl, hh⟩ := h
    exact busCanRx_head hs hl hh
  case txe =>
    refine completes (fun _ _ _ => rfl) fun k r b hp _ _ h => ?_
    simp only [busCanTxeSpec, hp, h, Bool.false_eq_true, if_false]

end Sys2Proof.Machine
end

section
/-!
SUPPORT. The accesses to a CAN window (12 R375, R378 to R380, R385, R386): the bound requester's access passes, and what
the reads of transmit events and of locked buffers do.
-/

namespace Sys2Proof.Machine

/-- An access to a controller's window happens for the requester bound to its owner (12 R378). -/
theorem happens_of_window {c : Stim → Instr} {who n : Nat} {k f : State → State} {cond : State → Prop}
    (hc : ∀ e s, exec (c e) s = canEvent e s who n k)
    (h : ∀ u, cond u → n < 12 ∧ u.running 5 = true ∧ u.boundTo who (u.canc n).owner = true ∧ k u = f u) :
    Happens c cond f := by
  refine happens_of_event hc fun u hu => ?_
  obtain ⟨hn, hr, hb, hk⟩ := h u hu
  exact ⟨by simp only [hn, hr, decide_true, Bool.and_self], (canWin_bound hb).trans hk⟩

section
variable {n : Nat} {s : State}

/-- FLAGS_CLEAR that names no TXE_OVF leaves LOST (12 R379). -/
theorem flagsClear_keepsLost {v : Word} (h : bit v 4 = false) :
    flagsClear n v s = s.setCan n { s.canc n with flags := (s.canc n).flags &&& (2 ^ 32 - 1 - v.toNat) } := by
  simp only [flagsClear, h, Bool.false_eq_true, if_false]

/-- The three words of the oldest transmit event, as the window shows them (12 R378). -/
theorem canRead_txe {t : TxEvent} {ts : List TxEvent} (h : (s.canc n).txe = t :: ts) :
    [0xC040, 0xC044, 0xC048].map (s.canRead n) = [t.w0, t.w1, t.w2] := by
  simp [State.canRead, h]

/-- A read of the oldest transmit event removes it (12 R378). -/
theorem txeRead_oldest {t : TxEvent} {ts : List TxEvent} (h : (s.canc n).txe = t :: ts) :
    txeRead n s = { s.setCan n { s.canc n with txe := ts } with rdata := [t.w0, t.w1, t.w2] } := by
  simp only [txeRead, canRead_txe h, h, List.tail_cons]

/-- A read of an unread buffer's header locks it, where no lock stands (12 R385). -/
theorem word0Read_locks {b : Nat} (hl : (s.canc n).lock = none) (hu : (s.canc n).unread b = true) :
    word0Read n b s =
      { s.setCan n { s.canc n with lock := some (b, s.clk) } with
        rdata := [(s.setCan n { s.canc n with lock := some (b, s.clk) }).canRead n (24 * b)] } := by
  simp only [word0Read, lockExpire_unlocked hl, hu, if_true]

/-- A read of a locked buffer's last word consumes it (12 R385). -/
theorem lastRead_consumes {b at_ : Nat} (hl : (s.canc n).lock = some (b, at_)) (ht : s.clk < at_ + 100000) :
    lastRead n b s = { consume n b s with rdata := [s.canRead n (s.lastWord n b)] } := by
  simp only [lastRead, lockExpire_stands hl ht, hl, Option.any_some, beq_self_eq_true, if_true]

end

/-- Settles O33: each row by its condition and its effect. -/
theorem canWindowRowsHappen : Obligations.CanWindowRowsHappen := by
  refine ⟨fun who can value => ?put, fun who can value => ?req, fun who can value => ?cancel,
    fun who can value => ?done, fun who can value => ?flags, fun who can off value => ?ram,
    fun who can t ts => ?txe, fun who can buf => ?word0, fun who can buf at_ => ?last, fun can b at_ => ?expiry⟩
  case put =>
    refine happens_of_window (fun e s => (rfl : _ = execTxfPut e who can value s)) ?_
    rintro u ⟨hn, hr, hb, hv⟩
    exact ⟨hn, hr, hb, by simp only [hv, if_true]⟩
  case req =>
    refine happens_of_window (fun e s => (rfl : _ = execTxbReq e who can value s)) ?_
    rintro u ⟨hn, hr, hb⟩
    exact ⟨hn, hr, hb, rfl⟩
  case cancel =>
    refine happens_of_window (fun e s => (rfl : _ = execTxbCancel e who can value s)) ?_
    rintro u ⟨hn, hr, hb⟩
    exact ⟨hn, hr, hb, rfl⟩
  case done =>
    refine happens_of_window (fun e s => (rfl : _ = execTxbDoneClear e who can value s)) ?_
    rintro u ⟨hn, hr, hb⟩
    exact ⟨hn, hr, hb, rfl⟩
  case flags =>
    refine happens_of_window (fun e s => (rfl : _ = execFlagsClear e who can value s)) ?_
    rintro u ⟨hn, hr, hb, hv⟩
    exact ⟨hn, hr, hb, flagsClear_keepsLost hv⟩
  case ram =>
    refine happens_of_event (exec_messageRamWrite · who can off value ·) ?_
    rintro u ⟨hn, hr, hb, hu, hl, ha, hg⟩
    exact ⟨by simp [hn, hr, hu], by simp only [ha, ne_eq, not_true_eq_false, if_false, canWin_bound hb, ramWrite_stores hl hg]⟩
  case txe =>
    refine happens_of_window (fun e s => (rfl : _ = execTxeHeadRead e who can s)) ?_
    rintro u ⟨hn, hr, hb, ht⟩
    exact ⟨hn, hr, hb, txeRead_oldest ht⟩
  case word0 =>
    refine happens_of_event (fun e s => (rfl : _ = execHeaderWord0Read e who can buf s)) ?_
    rintro u ⟨hn, hr, hb, hbuf, hl, hu⟩
    exact ⟨by simp [hn, hr, hbuf], (canWin_bound hb).trans (word0Read_locks hl hu)⟩
  case last =>
    refine happens_of_event (fun e s => (rfl : _ = execLastWordRead e who can buf s)) ?_
    rintro u ⟨hn, hr, hb, hg, hl, ht⟩
    exact ⟨by simp [hn, hr, hg], (canWin_bound hb).trans (lastRead_consumes hl ht)⟩
  case expiry =>
    refine happens_of_event (fun e s => (rfl : _ = execLockExpiry e can s)) ?_
    rintro u ⟨hn, hl, ht⟩
    exact ⟨by simp only [hn, decide_true], lockExpire_elapsed hl ht⟩

end Sys2Proof.Machine
end

section
/-!
SUPPORT. The events on a CAN bus (12 R381 to R390): the end of an attempt without a fast data phase, and an error that
leaves a controller on the bus.
-/

namespace Sys2Proof.Machine

section
variable {n : Nat} {s : State}

/-- The success of a frame without a fast data phase transmits it (12 R373, R381). -/
theorem txOutcome_success {t : CanTx} {tdcv : Nat} (hs : (s.canc n).sending = some t) (hf : fastPhase t.frame = false) :
    txOutcome n .success tdcv s = txSuccess n t s := by
  have htdcv : takeTdcv n tdcv t.frame s = (s, false) := by
    simp only [takeTdcv, hf, Bool.false_and, Bool.false_eq_true, if_false]
  simp [txOutcome, hs, htdcv]

/-- An error other than of the acknowledge, with a TEC of at most 255, sets LEC and steps the counters (12 R387). -/
theorem canError_steps {lec : Nat} {tx alt : Bool} (hm : (s.canc n).mode ≠ 1) (hl : lec ≠ 3)
    (ht : ((s.canc n).errStep lec tx alt).1 ≤ 255) :
    canError n lec tx alt s =
      setErr n ((s.canc n).errStep lec tx alt).1 ((s.canc n).errStep lec tx alt).2
        (stateFor ((s.canc n).errStep lec tx alt).1 ((s.canc n).errStep lec tx alt).2)
        (s.setCan n { s.canc n with lec := lec }) := by
  have hstep : ({ s.canc n with lec := lec } : CanCtl).errStep lec tx alt = (s.canc n).errStep lec tx alt := rfl
  simp only [canError, State.canc_setCan, hm, hl, hstep, Nat.not_lt.2 ht, if_false]

end

/-- Settles O34: each row by its condition and its effect. -/
theorem canBusEventsHappen : Obligations.CanBusEventsHappen := by
  refine ⟨fun can f ago => ?received, fun can => ?arbitration, fun can tdcv t => ?outcome,
    fun can lec tx alt => ?error, fun can => ?recovery, fun can t => ?pause⟩
  case received =>
    refine happens_of_event (fun e s => (rfl : _ = execCanFrameReceived e can f ago s)) ?_
    rintro u ⟨hf, ht⟩
    exact ⟨by simp [hf, ht], by simp only [ht, if_true]⟩
  case arbitration =>
    refine happens_of_event (fun e s => (rfl : _ = execCanArbitration e can s)) ?_
    rintro u ⟨hn, hi⟩
    exact ⟨by simp [hn, hi], rfl⟩
  case outcome =>
    refine happens_of_event (fun e s => (rfl : _ = execCanTransmitOutcome e can .success tdcv s)) ?_
    rintro u ⟨hn, hu, hs, hf⟩
    exact ⟨by simp [hn, hu, hs], txOutcome_success hs hf⟩
  case error =>
    refine happens_of_event (fun e s => (rfl : _ = execCanError e can lec tx alt s)) ?_
    rintro u ⟨hn, hu, h1, h7, h3, he, hm, ht⟩
    have hup : can < 12 ∧ u.canUp can = true ∧ (u.canc can).estate ≠ 2 := ⟨hn, hu, he⟩
    exact ⟨by simp [h1, h7, h3, hn, hu, he], by rw [if_pos hup, canError_steps hm h3 ht]⟩
  case recovery =>
    refine happens_of_event (fun e s => (rfl : _ = execBusOffRecovery e can s)) ?_
    rintro u ⟨hn, hu, he, ho⟩
    exact ⟨by simp [hn, hu, he, ho], rfl⟩
  case pause =>
    refine happens_of_event (fun e s => (rfl : _ = execLonePauseEnd e can s)) ?_
    rintro u ⟨hn, hp, ht⟩
    have hany := any_le (f := fun t => t + 100000000) hp ht
    exact ⟨by simp only [hn, hany, decide_true, Bool.and_self], rfl⟩

end Sys2Proof.Machine
end

section
/-!
SUPPORT. The BUS commands of the LIN kind (12 R392 to R397): a channel between slots, and within one.
-/

namespace Sys2Proof.Machine

section
variable {n : Nat} {s : State}

/-- Between slots nothing falls due (12 R393). -/
theorem linSettle_between (h : (s.lin n).slotEnd = none) : linSettle n s = s := by
  simp only [linSettle, h]

/-- Within a slot nothing falls due (12 R393). -/
theorem linSettle_within {z : Nat} (h : (s.lin n).slotEnd = some z) (ht : s.clk < z) : linSettle n s = s := by
  simp only [linSettle, h, ht, if_true]

end

/-- Settles O35: each row by what its opcode's execution answers. -/
theorem linCommandsComplete : Obligations.LinCommandsComplete := by
  refine ⟨?config, ?frames, ?schedule, ?runsNow, fun z => ?runsLater, ?data, ?read, ?status, ?sleeps, ?asks, ?wake⟩
  case config =>
    refine completes (row_submits_noAim (fun _ => rfl) fun _ _ _ => rfl) fun k r b hp _ _ h => ?_
    simp only [busLinConfigSpec, hp, h, bne_self_eq_false, Bool.false_eq_true, if_false, Ans.okay]
  case frames =>
    refine completes (row_submits_noAim (fun _ => rfl) fun _ _ _ => rfl) fun k r b hp _ _ h => ?_
    simp only [busLinFramesSpec, hp, h, bne_self_eq_false, Bool.false_eq_true, if_false, Ans.okay]
  case schedule =>
    refine completes (row_submits_noAim (fun _ => rfl) fun _ _ _ => rfl) fun k r b hp _ _ h => ?_
    obtain ⟨ht, hr⟩ := h
    have hrun : (((linSettle (busIx r.params) b).lin (busIx r.params)).table == fld (par r.params 0) 11 8 &&
        fld (par r.params 0) 11 8 != 15) = false := by
      rcases ht with ht | ht <;> simp [ht]
    simp only [busLinScheduleSpec, hp, hrun, hr, Bool.or_self, Bool.false_eq_true, if_false, Ans.okay]
  case runsNow =>
    refine completes (row_submits_noAim (fun _ => rfl) fun _ _ _ => rfl) fun k r b hp _ _ h => ?_
    simp only [busLinRunSpec, hp, linSettle_between h, h, Option.isSome_none, Bool.false_eq_true, if_false, Ans.okay]
  case runsLater =>
    refine completes (row_submits_noAim (fun _ => rfl) fun _ _ _ => rfl) fun k r b hp _ _ h => ?_
    simp only [busLinRunSpec, hp, linSettle_within h.1 h.2, h.1, Option.isSome_some, if_true, Ans.okay]
  case data =>
    refine completes (row_submits_noAim (fun _ => rfl) fun _ _ _ => rfl) fun k r b hp _ _ _ => ?_
    simp only [busLinDataSpec, hp, Ans.okay]
  case read =>
    refine completes (row_submits_noAim (fun _ => rfl) fun _ _ _ => rfl) fun k r b hp _ _ _ => ?_
    simp only [busLinReadSpec, hp]
  case status =>
    refine completes (row_submits_noAim (fun _ => rfl) fun _ _ _ => rfl) fun k r b hp _ _ h => ?_
    simp only [busLinStatusSpec, hp, linSettle_between h]
  case sleeps =>
    refine completes (row_submits_noAim (fun _ => rfl) fun _ _ _ => rfl) fun k r b hp _ _ h => ?_
    obtain ⟨hz, ht, hh, hs⟩ := h
    simp only [busLinSleepSpec, hp, linSettle_between hz, hz, ht, hh, hs, and_self, if_true, Ans.okay]
  case asks =>
    refine completes (row_submits_noAim (fun _ => rfl) fun _ _ _ => rfl) fun k r b hp _ _ h => ?_
    obtain ⟨hz, ht⟩ := h
    simp only [busLinSleepSpec, hp, linSettle_between hz, ht, false_and, if_false, Ans.okay]
  case wake =>
    refine completes (row_submits_noAim (fun _ => rfl) fun _ _ _ => rfl) fun k r b hp _ _ h => ?_
    simp only [busLinWakeSpec, hp, h, Bool.not_true, Bool.false_eq_true, if_false, Ans.okay]

end Sys2Proof.Machine
end

section
/-!
SUPPORT. The events on a LIN bus (12 R393, R395, R396): a subscribed response that ends with a checksum error, and the
timeout that every such end lies before.
-/

namespace Sys2Proof.Machine

/-- A subscribed response with a bad checksum fills its receive slot and counts as an error (12 R395). -/
theorem responseDone_bad {n id stamp : Nat} {data : List Byte} {s : State}
    (hh : (s.lin n).header = some (id, stamp, false)) (hp : (s.lin n).publishes id = false)
    (hd : frDir ((s.lin n).frame id) = 2) :
    responseDone n 2 data s = linErr n id 2 (s.setLin n { s.lin n with
      header := none, lastAct := s.clk
      rx := put (s.lin n).rx id { status := 2, len := data.length, new := true, data := data, stamp := stamp } }) := by
  simp [responseDone, hh, hp, hd, setLin_setLin]

/-- Settles O36: each row by its condition and its effect. -/
theorem linEventsHappen : Obligations.LinEventsHappen := by
  refine ⟨fun lin => ?slot, fun lin id ok ago => ?header, fun lin id ok ago => ?faulty,
    fun lin status data id stamp => ?response, fun lin => ?sleeps, fun lin => ?wakes⟩
  case slot =>
    refine happens_of_event (fun e s => (rfl : _ = execLinSlotStart e lin s)) ?_
    rintro u ⟨hn, hu, hc, ht, hz, hs⟩
    exact ⟨by simp only [hn, decide_true], by simp [linSettle_between hz, hu, hc, ht, hz, hs]⟩
  case header =>
    refine happens_of_event (fun e s => (rfl : _ = execLinHeaderReceived e lin id ok ago s)) ?_
    rintro u ⟨hn, hi, rfl, hu, hc, hs⟩
    exact ⟨by simp [hn, hi, hu, hc, hs], by simp only [headerIn, if_true]⟩
  case faulty =>
    refine happens_of_event (fun e s => (rfl : _ = execLinHeaderReceived e lin id ok ago s)) ?_
    rintro u ⟨hn, hi, rfl, hu, hc, hs⟩
    exact ⟨by simp [hn, hi, hu, hc, hs], by simp only [headerIn, Bool.false_eq_true, if_false]⟩
  case response =>
    refine happens_of_event (fun e s => (rfl : _ = execLinResponseEnd e lin status data s)) ?_
    rintro u ⟨hn, hu, rfl, hl, hh, hp, hd, ht⟩
    exact ⟨by simp [hn, hu, hl, hh, ht], by rw [responseEnd, responseDone_bad hh hp hd]⟩
  case sleeps =>
    refine happens_of_event (fun e s => (rfl : _ = execLinResponderSleep e lin s)) ?_
    rintro u ⟨hn, hu, hc, hs, ht⟩
    exact ⟨by simp only [hn, hu, hc, hs, ht, decide_true, Bool.not_false, Bool.and_self], rfl⟩
  case wakes =>
    refine happens_of_event (fun e s => (rfl : _ = execLinWakeDetect e lin s)) ?_
    rintro u ⟨hn, hs⟩
    exact ⟨by simp [hn, hs], rfl⟩

end Sys2Proof.Machine
end

section
/-!
SUPPORT. The rows of the gateway service (13 R403, R404, R407 to R409, R412, R414, R415): what a stored route, a context
with no PDU packed and a PDU of a listener change.
-/

namespace Sys2Proof.Machine

/-- A context that packs no PDU sends none (13 R407). -/
theorem acfSend_empty {n : Nat} {s : State} (h : (s.acf n).msgs = []) : acfSend n s = s := by
  simp only [acfSend, h, true_or, if_true]

/-- GWY_ACF writes a context that packs no PDU and whose stream no other listener has (13 R409). -/
theorem gwyAcf_writes {c : Cmd} {s : State} (hm : (s.acf (fld (par c.params 0) 5 0)).msgs = [])
    (hl : acfListener c.params = true → ∀ p ∈ s.gwy.acf, p.1 ≠ fld (par c.params 0) 5 0 →
      acfListener p.2.words = true → acfStream p.2.words ≠ acfStream c.params) :
    gwyAcfSpec.exec c s = .okay (s.setAcf (fld (par c.params 0) 5 0) { s.acf (fld (par c.params 0) 5 0) with
      words := c.params, msgs := []
      seen := (s.acf (fld (par c.params 0) 5 0)).seen &&
        acfStream (s.acf (fld (par c.params 0) 5 0)).words == acfStream c.params &&
        bit (par (s.acf (fld (par c.params 0) 5 0)).words 0) 8 == bit (par c.params 0) 8 }) := by
  have hfree : (acfListener c.params && s.gwy.acf.any (fun p => p.1 != fld (par c.params 0) 5 0 &&
      acfListener p.2.words && acfStream p.2.words == acfStream c.params)) = false := by
    refine Bool.eq_false_iff.2 fun h => ?_
    obtain ⟨hc, hany⟩ := Bool.and_eq_true_iff.1 h
    obtain ⟨p, hp, hx⟩ := List.any_eq_true.1 hany
    simp only [Bool.and_eq_true, bne_iff_ne, beq_iff_eq] at hx
    exact hl hc p hp hx.1.1 hx.1.2 hx.2
  simp only [gwyAcfSpec, hfree, acfSend_empty hm, Bool.false_eq_true, if_false]

/-- GWY_ROUTE writes its entries with HITS kept, when the engine holds no frame (13 R403, R412). -/
theorem gwyRoute_writes {c : Cmd} {s : State} (h : s.gwy.items = []) :
    gwyRouteSpec.exec c s = .okay { s with gwy := { s.gwy with
      route := ((elems 6 (fld (par c.params 0) 21 16) c.params.tail).zipIdx (fld (par c.params 0) 11 0)).foldl
        (fun t p => put t p.2 { look {} t p.2 with words := p.1 }) s.gwy.route } } := by
  have hnone : (if s.engineOn then (List.range s.gwy.items.length).foldl (fun s _ => lookupOne s) s else s) = s := by
    simp only [h, List.length_nil, List.range_zero, List.foldl_nil, ite_self]
  simp only [gwyRouteSpec, hnone]

/-- Settles O37: the events by their conditions and effects, the commands by what their opcodes' executions answer. -/
theorem gatewayRowsComplete : Obligations.GatewayRowsComplete := by
  refine ⟨fun i rest => ?lookup, fun ctx => ?send, fun pdu c => ?receive, ?route, ?routeRead, ?acf, ?acfStatus,
    ?queue, ?can, ?lin⟩
  case lookup =>
    refine happens_of_event (fun e s => (rfl : _ = execGatewayLookup e s)) ?_
    rintro u ⟨h5, h3, hi⟩
    exact ⟨by simp only [h5, h3, Bool.and_self], by simp only [lookupOne, hi]⟩
  case send =>
    refine happens_of_event (fun e s => (rfl : _ = execAcfPduSend e ctx s)) ?_
    rintro u ⟨hn, hr, hm, ht⟩
    exact ⟨by simp [hn, hr, hm, ht], rfl⟩
  case receive =>
    refine happens_of_event (fun e s => (rfl : _ = execAcfPduReceived e pdu s)) ?_
    rintro u ⟨hr, hl, ht⟩
    refine ⟨by simp [hr, hl, ht], ?_⟩
    simp only [hl, acfReceive, Bool.and_eq_true, bne_iff_ne]
  case route =>
    refine completes (row_submits_noAim (fun _ => rfl) fun _ _ _ => rfl) fun k r b hp _ _ h => ?_
    rw [← hp]
    exact gwyRoute_writes h
  case routeRead =>
    refine completes (row_submits_noAim (fun _ => rfl) fun _ _ _ => rfl) fun k r b hp _ _ _ => ?_
    simp only [gwyRouteReadSpec, hp]
  case acf =>
    refine completes (row_submits_noAim (fun _ => rfl) fun _ _ _ => rfl) fun k r b hp _ _ h => ?_
    rw [← hp] at h ⊢
    exact gwyAcf_writes h.1 h.2
  case acfStatus =>
    refine completes (row_submits_noAim (fun _ => rfl) fun _ _ _ => rfl) fun k r b hp _ _ _ => ?_
    simp only [gwyAcfStatusSpec, hp]
  case queue =>
    refine completes (row_submits_noAim (fun _ => rfl) fun _ _ _ => rfl) fun k r b hp _ _ _ => ?_
    simp only [gwyQueueSpec, hp, Ans.okay]
  case can =>
    refine completes (row_submits_noAim (fun _ => rfl) fun _ _ _ => rfl) fun k r b hp _ _ h => ?_
    simp only [gwyStatusSpec, hp, h, if_true]
  case lin =>
    refine completes (row_submits_noAim (fun _ => rfl) fun _ _ _ => rfl) fun k r b hp _ _ h => ?_
    simp only [gwyStatusSpec, hp, h, Bool.false_eq_true, if_false]

end Sys2Proof.Machine
end

section
/-!
SUPPORT. The NMG commands (14 R437 to R439): what NMG_RING_CONFIG answers on a disabled ring.
-/

namespace Sys2Proof.Machine

section
variable {c : Cmd} {s : State} {n : Nat} (hn : fld (par c.params 0) 3 0 = n) (hd : (s.ring n).st = .disabled)
include hn hd

/-- NMG_RING_CONFIG with EN = 1 starts a disabled ring, whose controller runs, with its defaults (14 R425, R438). -/
theorem nmgRingConfig_starts (he : bit (par c.params 0) 8 = true) (hl : (s.canc n).legacy = false)
    (hf : s.ringFail n = false) (hg : s.canState n = .run) :
    nmgRingConfigSpec.exec c s =
      .okay (nmgSettle true (startRing n (s.setRing n { ringReset n with words := c.params }))) := by
  simp only [nmgRingConfigSpec, hn, hd, he, hl, hf, hg, bne_self_eq_false, Bool.false_and, Bool.and_false, Bool.or_self,
    ne_eq, not_true_eq_false, and_false, Bool.false_eq_true, if_false, if_true]

/-- NMG_RING_CONFIG with EN = 0 stores the words of a ring that stays disabled (14 R438). -/
theorem nmgRingConfig_stores (he : bit (par c.params 0) 8 = false) :
    nmgRingConfigSpec.exec c s = .okay (nmgSettle true (s.setRing n { s.ring n with words := c.params })) := by
  simp only [nmgRingConfigSpec, hn, hd, he, bne_self_eq_false, Bool.false_and, Bool.false_eq_true, if_false, if_true]

end

/-- Settles O38: each row by what its opcode's execution answers. -/
theorem nmgCommandsComplete : Obligations.NmgCommandsComplete := by
  refine ⟨?starts, ?stores, ?cluster, ?request, ?status, ?wakeConfig, ?wakeCause⟩
  case starts =>
    refine completes (row_submits_noAim (fun _ => rfl) fun _ _ _ => rfl) fun k r b hp _ _ h => ?_
    rw [← hp] at h ⊢
    obtain ⟨hd, he, -, hl, hf, hg⟩ := h
    exact nmgRingConfig_starts rfl hd he hl hf hg
  case stores =>
    refine completes (row_submits_noAim (fun _ => rfl) fun _ _ _ => rfl) fun k r b hp _ _ h => ?_
    rw [← hp] at h ⊢
    exact nmgRingConfig_stores rfl h.1 h.2
  case cluster =>
    refine completes (row_submits_noAim (fun _ => rfl) fun _ _ _ => rfl) fun k r b hp _ _ h => ?_
    simp only [nmgClusterSpec, hp, h, Bool.not_true, Bool.false_and, Bool.false_eq_true, if_false, Ans.okay]
  case request =>
    refine completes (row_submits_noAim (fun _ => rfl) fun _ _ _ => rfl) fun k r b hp ht _ _ => ?_
    simp only [nmgRequestSpec, hp, ht, Ans.okay]
  case status =>
    refine completes (row_submits_noAim (fun _ => rfl) fun _ _ _ => rfl) fun k r b hp _ _ _ => ?_
    simp only [nmgStatusSpec, hp]
  case wakeConfig =>
    refine completes (row_submits_noAim (fun _ => rfl) fun _ _ _ => rfl) fun k r b hp _ _ _ => ?_
    simp only [nmgWakeConfigSpec, hp, Ans.okay]
  case wakeCause => exact completes (row_submits_noAim (fun _ => rfl) fun _ _ _ => rfl) fun k r b _ _ _ _ => rfl

end Sys2Proof.Machine
end

section
/-!
SUPPORT. The events of a Poppy ring (14 R421 to R430): the PREPARE window before and after its end, and what a ring
message, a silence, a decision of the leader and a release do.
-/

namespace Sys2Proof.Machine

/-- A property of what an option holds. -/
theorem any_decide {α : Type} {o : Option α} {a : α} {p : α → Prop} [DecidablePred p] (h : o = some a) (hp : p a) :
    o.any (fun a => decide (p a)) = true := by
  rw [h, Option.any_some, decide_eq_true hp]

section
variable {r : Nat} {s : State}

/-- Outside PREPARE no window ends (14 R425). -/
theorem prepareOver_outside (h : (s.ring r).st ≠ .prepare) : prepareOver r s = s := by
  simp only [prepareOver, h, false_and, if_false]

/-- Within TPREP the PREPARE window stands (14 R425). -/
theorem prepareOver_within (ht : s.clk < (s.ring r).enteredAt + (s.ring r).tprep) : prepareOver r s = s := by
  simp only [prepareOver, Nat.not_le.2 ht, and_false, if_false]

/-- After TPREP the release begins at the window's end (14 R425, R428). -/
theorem prepareOver_elapsed (h : (s.ring r).st = .prepare) (ht : (s.ring r).enteredAt + (s.ring r).tprep ≤ s.clk) :
    prepareOver r s = gateStop (ringFn r) ((ringTo r .disengage s).setRing r
      { (ringTo r .disengage s).ring r with enteredAt := (s.ring r).enteredAt + (s.ring r).tprep }) := by
  simp only [prepareOver, h, ht, and_self, if_true]

/-- Removing a silent node leaves the ring's state (14 R421). -/
theorem Ring.pruned_st (x : Ring) (now : Nat) : (x.pruned now).st = x.st := by
  unfold Ring.pruned
  split
  · split <;> rfl
  · rfl

/-- No node is removed for its silence in PREPARE (14 R421). -/
theorem Ring.pruned_prepare {x : Ring} (h : x.st = .prepare) (now : Nat) : x.pruned now = x := by
  unfold Ring.pruned
  split
  · exact if_neg (by simp [h])
  · rfl

/-- A starting ring takes membership, ROUND, CONSENT and its turn from a message (14 R421, R422). -/
theorem ringHeard_starting {m : RingMsg} {x : Ring} (h : (s.ring r).st = .starting)
    (hx : (s.ring r).pruned s.clk = x) :
    ringHeard r m s = s.setRing r { x with
      members := memberStep x m, round := m.round, consent := m.consent
      heard := x.heard || m.kind == 0, last := lastStep s.clk x m
      turn := if m.dst = x.node ∧ (m.kind = 0 ∨ m.kind = 3) then some ⟨s.clk, m.round, m.consent⟩ else x.turn } := by
  have hst : x.st = .starting := by rw [← hx, Ring.pruned_st, h]
  have hout : (s.ring r).st ≠ .prepare := by simp [h]
  simp only [ringHeard, prepareOver_outside hout, hx, hst, Bool.and_eq_true, Bool.or_eq_true, beq_iff_eq]

/-- A RING or an ALIVE in PREPARE vetoes the release (14 R426). -/
theorem ringHeard_vetoed {m : RingMsg} (h : (s.ring r).st = .prepare)
    (ht : s.clk < (s.ring r).enteredAt + (s.ring r).tprep) (hk : m.kind < 2) :
    ringHeard r m s = pnNote (ringTo r .ring (s.setRing r { s.ring r with
      members := memberStep (s.ring r) m, round := m.round, consent := m.consent
      heard := (s.ring r).heard || m.kind == 0, last := lastStep s.clk (s.ring r) m
      turn := if m.dst = (s.ring r).node ∧ (m.kind = 0 ∨ m.kind = 3) then some ⟨s.clk, m.round, m.consent⟩
        else (s.ring r).turn
      vetoes := satInc 0xFFFF (s.ring r).vetoes })) r := by
  have hkind : m.kind = 0 ∨ m.kind = 1 := by omega
  simp only [ringHeard, prepareOver_within ht, Ring.pruned_prepare h, h, if_pos hkind, setRing_setRing,
    Bool.and_eq_true, Bool.or_eq_true, beq_iff_eq]

/-- What the module answers to the message that addressed it (14 R425). -/
theorem turnMsg_answers {t : Turn} (h : (s.ring r).turn = some t) :
    s.turnMsg r = if (s.ring r).leader = (s.ring r).node ∧ t.consent &&& (s.ring r).members = (s.ring r).members ∧
      s.consent r then { s.ownRing r with kind := 2, round := t.round } else s.ownRing r := by
  simp only [State.turnMsg, h]

/-- Without an own ALIVE a starting ring sends it (14 R425). -/
theorem aliveStep_first (h : (s.ring r).aliveAt = none) :
    aliveStep r s = ringSend r { s.ownRing r with kind := 1, dst := (s.ring r).node, round := (s.ring r).round } s := by
  simp only [aliveStep, h]

/-- On a ring outside PREPARE that the module consents to, no consent has gone (14 R425). -/
theorem consentGone_held {record : Bool} (h : (s.ring r).st ≠ .prepare) (hc : s.consent r = true) :
    consentGone record s r = s := by
  simp only [consentGone, prepareOver_outside h, hc, if_true]

/-- A release without a latched wake puts the ring to sleep (14 R428). -/
theorem released_sleeps (h : (s.ring r).wake = none) :
    released r s = nmgSettle true (ringTo r (if (s.ring r).toPn then .pnSleep else .busSleep) s) := by
  simp only [released, h]

/-- Conditions of R430 that hold and have been noted need no note. -/
theorem pnNote_noted {t : Nat} (h : s.pnReady r = true) (ht : (s.ring r).pnSince = some t) : pnNote s r = s := by
  simp only [pnNote, h, ht, Option.isNone_some, Bool.false_eq_true, if_false, if_true]

end

/-- Settles O39: each row by its condition and its effect. -/
theorem ringEventsHappen : Obligations.RingEventsHappen := by
  refine ⟨fun ring m => ?onCan, fun ring m => ?starting, fun ring m => ?vetoed, fun ring t => ?send,
    fun ring a d t => ?silence, fun ring => ?alive, fun ring => ?veto, fun ring => ?prepare, fun ring => ?release,
    fun ring t => ?leave, fun ring node m => ?clusterCan, fun ring node m => ?clusterPort, fun ring => ?sendCan,
    fun ring => ?sendPort, fun ring => ?expiry, fun can => ?decoder⟩
  case onCan =>
    refine happens_of_event (fun e s => (rfl : _ = execRingMessageReceived e ring m s)) ?_
    rintro u ⟨hr, hh, hm, ha, ht⟩
    exact ⟨by simp [hh, hm, ha, ht]; omega, by simp only [hr, if_true]⟩
  case starting =>
    refine happens_of_event (fun e s => (rfl : _ = execRingMessageReceived e ring m s)) ?_
    rintro u ⟨hl, hr, hh, hm, hs⟩
    have hawake : u.ringAwake ring = true := by simp only [State.ringAwake, hs]; rfl
    exact ⟨by simp [hl, hr, hh, hm, hawake], by rw [if_neg (Nat.not_lt.2 hl), ringHeard_starting hs rfl]⟩
  case vetoed =>
    refine happens_of_event (fun e s => (rfl : _ = execRingMessageReceived e ring m s)) ?_
    rintro u ⟨hl, hr, hh, hm, hk, hs, ht⟩
    have hawake : u.ringAwake ring = true := by simp only [State.ringAwake, hs]; rfl
    exact ⟨by simp [hl, hr, hh, hm, hawake], by rw [if_neg (Nat.not_lt.2 hl), ringHeard_vetoed hs ht hk]⟩
  case send =>
    refine happens_of_event (fun e s => (rfl : _ = execRingSend e ring s)) ?_
    rintro u ⟨hr, hu, hs, ho, ht, hd⟩
    have hany := any_decide (p := fun t => t.at_ + (u.ring ring).ttyp ≤ u.clk) ht hd
    exact ⟨by simp only [hr, hu, hs, ho, hany, Option.isNone_none, decide_true, beq_self_eq_true, Bool.and_self],
      by rw [turnMsg_answers ht]⟩
  case silence =>
    refine happens_of_event (fun e s => (rfl : _ = execRingSilence e ring s)) ?_
    rintro u ⟨hr, hu, hs, hl, ha, hd, ht⟩
    exact ⟨by simp [hr, hu, hs, hl, ha, hd, ht], by simp only [hl]⟩
  case alive =>
    refine happens_of_event (fun e s => (rfl : _ = execAliveSend e ring s)) ?_
    rintro u ⟨hr, hu, hs, ho, hw, ha⟩
    exact ⟨by simp [hr, hu, hs, ho, hw], aliveStep_first ha⟩
  case veto =>
    rintro e s u rfl ⟨hr, hc, hu, hs, hv, ho⟩
    have hgone := consentGone_held (record := true) (s := s.advance e) (r := ring) (by simp [hs]) hc
    refine (rfl : _ = execVeto e ring s).trans ?_
    rw [execVeto, if_pos hr, hgone, if_pos ⟨hr, hu, hs, Option.isSome_iff_ne_none.2 hv, by rw [ho]; rfl⟩]
    rfl
  case prepare =>
    refine happens_of_event (fun e s => (rfl : _ = execPrepareEnd e ring s)) ?_
    rintro u ⟨hr, hs, ht⟩
    exact ⟨by simp [hr, hs, ht], by rw [prepareOver_elapsed hs ht]⟩
  case release =>
    refine happens_of_event (fun e s => (rfl : _ = execReleaseComplete e ring s)) ?_
    rintro u ⟨hr, hs, hg, hw⟩
    exact ⟨by simp [hr, hs, hg], released_sleeps hw⟩
  case leave =>
    refine happens_of_event (fun e s => (rfl : _ = execPnSleepEntry e ring s)) ?_
    rintro u ⟨hr, hu, ho, hp, ht, hd⟩
    have hgo : u.ringUp ring = true ∧ (u.ring ring).out.isNone = true ∧
        (u.ring ring).pnSince.any (fun t => decide (t + (u.ring ring).ttyp ≤ u.clk)) = true :=
      ⟨hu, by rw [ho]; rfl, any_le (f := fun t => t + (u.ring ring).ttyp) ht hd⟩
    exact ⟨by simp only [hr, decide_true], by simp only [pnNote_noted hp ht, if_pos hgo]⟩
  case clusterCan =>
    refine happens_of_event (fun e s => (rfl : _ = execClusterFrameReceived e ring node m s)) ?_
    rintro u ⟨hr, hh, hn, hs, hp, ht⟩
    have hclus : (u.ring ring).clustered ring = true := by simp only [Ring.clustered, hp, Bool.true_or]
    exact ⟨by simp [hh, hn, hs, hclus, ht]; omega, by simp only [hr, if_true]⟩
  case clusterPort =>
    refine happens_of_event (fun e s => (rfl : _ = execClusterFrameReceived e ring node m s)) ?_
    rintro u ⟨hl, hr, hh, hn, hs, hp⟩
    have hclus : (u.ring ring).clustered ring = true := by simp only [Ring.clustered, hl, decide_true, Bool.or_true]
    exact ⟨by simp [hl, hr, hh, hn, hs, hclus],
      by simp only [Nat.not_lt.2 hl, if_false, clusterHeard, prepareOver_outside hp]⟩
  case sendCan =>
    refine happens_of_event (fun e s => (rfl : _ = execClusterFrameSend e ring s)) ?_
    rintro u ⟨hr, hu, hp, ho, hs, hc⟩
    have hclus : (u.ring ring).clustered ring = true := by simp only [Ring.clustered, hp, Bool.true_or]
    exact ⟨by simp [hu, hclus, ho, hs, hc]; omega, by simp only [hr, if_true]⟩
  case sendPort =>
    refine happens_of_event (fun e s => (rfl : _ = execClusterFrameSend e ring s)) ?_
    rintro u ⟨hl, hr, hu, ho, hs, ha, hc⟩
    have hclus : (u.ring ring).clustered ring = true := by simp only [Ring.clustered, hl, decide_true, Bool.or_true]
    have hsent : (u.ring ring).aliveAt.isSome = true := Option.isSome_iff_ne_none.2 ha
    exact ⟨by simp [hr, hu, hclus, ho, hs, hsent, hc], by simp only [Nat.not_lt.2 hl, if_false]⟩
  case expiry =>
    refine happens_of_event (fun e s => (rfl : _ = execPntoExpiry e ring s)) ?_
    rintro u ⟨hr, hf⟩
    exact ⟨by simp [hr, hf], rfl⟩
  case decoder =>
    refine happens_of_event (fun e s => (rfl : _ = execDecoderSilence e can s)) ?_
    rintro u ⟨hr, hd, ht⟩
    exact ⟨by simp only [hr, hd, ht, decide_true, Bool.and_self], rfl⟩

end Sys2Proof.Machine
end

section
/-!
SUPPORT. The CPU commands (15 R448, R450, R464, R467, R476 to R479): a disable that finds no resync to abandon, and what
the commands on partitions answer.
-/

namespace Sys2Proof.Machine

/-- A pair that is in no resync abandons none (15 R465). -/
theorem resyncAbandon_other {q : Nat} {role : Role} {s : State} (h : (s.pair q).role ≠ .resync) :
    resyncAbandon q role s = s := by
  simp only [resyncAbandon, h, if_false]

section
variable {c : Cmd} {s : State}

/-- CPU_PART_CONFIG stores a block that passes its checks for a partition that is off (15 R448). -/
theorem cpuPartConfig_stores (ho : s.partOff (fld (par c.params 0) 2 0) = true) (hr : partRangeOk c.params = true)
    (he : entryOk c.params = true) (hg : (blockRegions c.params).all regionOk = true)
    (hv : (blockRegions c.params).all (fun g => s.clearOfVault g.1 g.2.1) = true)
    (ht : s.seatTaken c.params = false) :
    cpuPartConfigSpec.exec c s = .okay ((leaveSeat (fld (par c.params 0) 2 0) c.params s).setPart
      (fld (par c.params 0) 2 0)
      { (leaveSeat (fld (par c.params 0) 2 0) c.params s).part (fld (par c.params 0) 2 0) with
        block := some c.params }) := by
  simp only [cpuPartConfigSpec, State.partBlockOk, ho, hr, he, hg, hv, ht, Bool.and_self, Bool.not_true,
    Bool.false_eq_true, if_false]

/-- CPU_PART_CTL that enables a power-gated partition starts it cold (15 R450). -/
theorem cpuPartCtl_enables (ha : fld (par c.params 0) 9 8 = 0) (ho : s.seatOk (s.blk (partIx c.params)) = true)
    (hg : s.partState (partIx c.params) = .powerGated) :
    cpuPartCtlSpec.exec c s = .accept ((s.setPart (partIx c.params) { s.part (partIx c.params) with
        keep := false }).setGate (.part (partIx c.params))
      { s.gate (.part (partIx c.params)) with st := .starting, cold := true, enCmds := [c.id], since := s.clk }) := by
  have hkeep : (s.partState (partIx c.params) == .stopped) = false := by rw [hg]; rfl
  have hst : s.partState (partIx c.params) ≠ .starting := by rw [hg]; decide
  have hgate : ((s.setPart (partIx c.params) { s.part (partIx c.params) with keep := false }).gate
      (.part (partIx c.params))).st = .powerGated := by rw [gate_setPart]; exact hg
  simp only [cpuPartCtlSpec, ha, ho, hst, hkeep, Bool.not_true, Bool.false_eq_true, if_false, if_true,
    gateEnable_powerGated hgate, gate_setPart, State.setPart_clk]

/-- CPU_PART_CTL that disables a running partition holds its harts, no resync being under way (15 R450, R465). -/
theorem partDisable_run {p id : Nat} {deep : Bool} (hg : s.partState p = .run)
    (hr : ∀ q ∈ seatPairs (s.blk p), (s.pair q).role ≠ .resync) :
    partDisable p deep id s = .accept ((holdHarts p s).setGate (.part p)
      { s.gate (.part p) with st := .quiescing, deep := deep, disCmds := [id], since := (holdHarts p s).clk }) := by
  have hnone : (seatPairs (s.blk p)).foldl (fun s q => resyncAbandon q .idle s) s = s :=
    foldl_same fun q hq => resyncAbandon_other (hr q hq)
  have hgate : ((holdHarts p s).gate (.part p)).st = .run := by rw [gate_holdHarts]; exact hg
  simp only [partDisable, hg, hnone, if_true, gateDisable_run hgate, gate_holdHarts]

/-- CPU_PART_CTL leaves a partition at the clock gate that is disabled to it (15 R450). -/
theorem partDisable_gated {p id : Nat} (hg : s.partState p = .clockGated) : partDisable p false id s = .okay s := by
  have hst : (s.gate (.part p)).st = .clockGated := hg
  have hrun : GateState.clockGated ≠ .run := by decide
  simp only [partDisable, hg, hrun, if_false, gateDisable, hst, Bool.false_eq_true]

end

/-- Settles O40: each row by what its opcode's execution answers. -/
theorem cpuCommandsComplete : Obligations.CpuCommandsComplete := by
  refine ⟨?config, ?enables, ?disables, ?disabled, ?splits, ?joins, ?resync, ?inject, ?part, ?pair, ?mem⟩
  case config =>
    refine completes (fun _ _ _ => rfl) fun k r b hp _ _ h => ?_
    rw [← hp] at h ⊢
    obtain ⟨ho, hr, he, hg, hv, ht⟩ := h
    exact cpuPartConfig_stores ho hr he hg hv ht
  case enables =>
    refine accepts (fun _ _ _ => rfl) fun k r b hp _ _ h => ?_
    rw [← hp] at h ⊢
    exact cpuPartCtl_enables h.1 h.2.1 h.2.2
  case disables =>
    refine accepts (fun _ _ _ => rfl) fun k r b hp _ _ h => ?_
    obtain ⟨ha, hg, hr⟩ := h
    have hne : fld (par r.params 0) 9 8 ≠ 0 := by omega
    simp only [cpuPartCtlSpec, hp, hne, if_false, partDisable_run hg hr]
  case disabled =>
    refine completes (fun _ _ _ => rfl) fun k r b hp _ _ h => ?_
    obtain ⟨ha, hg⟩ := h
    have hdeep : ((1 : Nat) == 2) = false := rfl
    simp only [cpuPartCtlSpec, hp, ha, one_ne_zero, hdeep, if_false, partDisable_gated hg, Ans.okay]
  case splits =>
    refine completes (row_submits_noAim (fun _ => rfl) fun _ _ _ => rfl) fun k r b hp _ _ h => ?_
    simp only [cpuDebugSpec, hp, h.1, h.2, Bool.false_eq_true, if_false, if_true, Ans.okay]
  case joins =>
    refine completes (row_submits_noAim (fun _ => rfl) fun _ _ _ => rfl) fun k r b hp _ _ h => ?_
    simp only [cpuDebugSpec, hp, h.1, h.2.1, h.2.2, and_self, if_true, Ans.okay]
  case resync =>
    refine accepts (row_submits_noAim (fun _ => rfl) fun _ _ _ => rfl) fun k r b hp _ _ h => ?_
    simp only [cpuResyncSpec, hp, h.1, h.2.1, h.2.2, and_self, if_true]
  case inject =>
    refine completes (row_submits_noAim (fun _ => rfl) fun _ _ _ => rfl) fun k r b hp _ _ h => ?_
    simp only [cpuInjectSpec, hp, h.1, h.2.1, h.2.2, or_self, if_false, Ans.okay]
  case part =>
    refine completes (fun _ _ _ => rfl) fun k r b hp _ _ _ => ?_
    simp only [cpuPartStatusSpec, hp]
  case pair => exact completes (row_submits_noAim (fun _ => rfl) fun _ _ _ => rfl) fun k r b _ _ _ _ => rfl
  case mem =>
    refine completes (row_submits_noAim (fun _ => rfl) fun _ _ _ => rfl) fun k r b hp _ _ _ => ?_
    simp only [cpuMemStatusSpec, hp]

end Sys2Proof.Machine
end

section
/-!
SUPPORT. The events of partitions and lockstep pairs (15 R449, R451, R457 to R467): what a trip does by the pair's role,
how a resync ends, and a debug halt outside a gate call.
-/

namespace Sys2Proof.Machine

section
variable {q cause : Nat} {s : State}

/-- A pair that trips without a spare stops its partition (15 R460). -/
theorem pairTrip_single (h : (s.pair q).role = .single) :
    pairTrip q cause s = partStop (s.pair q).part cause (tripNote q cause 1 (s.setPair q
      { s.pair q with diverges := satInc 255 (s.pair q).diverges, cause := cause })) := by
  simp only [pairTrip, h]

/-- A primary pair that trips hands over to the spare of its quad (15 R462). -/
theorem pairTrip_primary (h : (s.pair q).role = .primary) (hs : (s.pair (partner q)).role = .spare)
    (hp : (s.pair (partner q)).part = (s.pair q).part) :
    pairTrip q cause s =
      let out := pairOut q (tripNote q cause 2 (s.setPair q
        { s.pair q with diverges := satInc 255 (s.pair q).diverges, cause := cause }))
      out.setPart (s.pair q).part
        { out.part (s.pair q).part with switchovers := satInc 0xFFFF (out.part (s.pair q).part).switchovers } := by
  simp only [pairTrip, h, hs, hp, beq_self_eq_true, Bool.and_self, if_true]

/-- A pair whose partition runs is under comparison (15 R457). -/
theorem pairLive_run (h : s.partState (s.pair q).part = .run) : s.pairLive q = true := by
  simp only [State.pairLive, h]
  rfl

/-- A resync in which the pair trips is abandoned (15 R464). -/
theorem handover_trips (h : cause ≠ 0) :
    handover q cause s = resyncAbandon q .stopped (s.setPair q
      { s.pair q with diverges := satInc 255 (s.pair q).diverges, cause := cause }) := by
  simp only [handover, h, if_false]

end

section
variable {h : Nat} {s : State}

/-- A performance core has its own hart (15 R442). -/
theorem debugHart_core (hh : 4 ≤ h) : s.debugHart h = h := by
  simp only [State.debugHart, Nat.not_lt.2 hh, false_and, if_false]

/-- A debug halt of a performance core holds it (15 R467). -/
theorem debugHalt_core (hh : 4 ≤ h) : debugHalt h s = s.setHart h { s.hart h with run := false } := by
  simp only [debugHalt, hh, if_true]

/-- A debug halt of a pair in lockstep splits it (15 R467). -/
theorem debugHalt_pair (hh : h < 4) (hs : s.splits h = true) : debugHalt h s = pairSplit h s := by
  simp only [debugHalt, Nat.not_le.2 hh, hs, if_false, if_true]

end

/-- Settles O41: each row by its condition and its effect. -/
theorem pairEventsHappen : Obligations.PairEventsHappen := by
  refine ⟨fun p => ?start, fun trip cause => ?single, fun trip cause => ?primary, fun trip cause => ?both,
    fun pair pass => ?injected, fun pair equal => ?sweep, fun pair cause => ?joins, fun pair cause => ?trips,
    fun pc p => ?storage, fun req sc => ?core, fun req sc => ?lockstep⟩
  case start =>
    refine happens_of_event (fun e s => (rfl : _ = execPartitionStart e p s)) ?_
    rintro u ⟨hp, hc, hr, hs, ho, ht⟩
    exact ⟨by simp [hp, hc, hr, hs, ho, ht], rfl⟩
  case single =>
    refine happens_of_event (fun e s => (rfl : _ = execComparatorTrip e trip cause s)) ?_
    rintro u ⟨hq, hr, hc, hb, hs, hp⟩
    exact ⟨by simp [hq, hr, pairLive_run hp, hb]; omega,
      by simp only [hb, Bool.false_eq_true, if_false, pairTrip_single hs]⟩
  case primary =>
    refine happens_of_event (fun e s => (rfl : _ = execComparatorTrip e trip cause s)) ?_
    rintro u ⟨hq, hr, hc, hb, hs, hp, ho, hop⟩
    exact ⟨by simp [hq, hr, pairLive_run hp, hb]; omega,
      by simp only [hb, Bool.false_eq_true, if_false, pairTrip_primary hs ho hop]⟩
  case both =>
    refine happens_of_event (fun e s => (rfl : _ = execComparatorTrip e trip cause s)) ?_
    rintro u ⟨hq, hr, hc, hb, hs, hp, ho⟩
    have hboth : u.pairBoth trip.pair = true := by simp only [State.pairBoth, hs, ho]; rfl
    exact ⟨by simp [hq, hr, pairLive_run hp, hb, hboth]; omega, by simp only [hb, if_true]⟩
  case injected =>
    exact happens_of_event (fun e s => (rfl : _ = execInjectedMismatchTest e pair pass s)) fun u ht => ⟨ht, rfl⟩
  case sweep =>
    exact happens_of_event (fun e s => (rfl : _ = execStateSignatureSweep e pair equal s)) fun u ht => ⟨ht, rfl⟩
  case joins =>
    refine happens_of_event (fun e s => (rfl : _ = execResyncHandover e pair cause s)) ?_
    rintro u ⟨hq, hr, hs, rfl⟩
    exact ⟨by simp [hq, hr, hs], by simp only [if_true]⟩
  case trips =>
    refine happens_of_event (fun e s => (rfl : _ = execResyncHandover e pair cause s)) ?_
    rintro u ⟨hq, hr, hs, h1, h4⟩
    have hne : cause ≠ 0 := by omega
    exact ⟨by simp [hq, hr, hs, h4], by simp only [hne, if_false, handover_trips hne]⟩
  case storage =>
    refine happens_of_event (fun e s => (rfl : _ = execCoreStorageError e pc s)) ?_
    rintro u ⟨hc, hp, hr⟩
    exact ⟨by simp [hc, hp, hr], by simp only [hp]⟩
  case core =>
    refine happens_of_event (fun e s => (rfl : _ = execDebugHaltRequest e req s)) ?_
    rintro u ⟨hl, hu, hg, hr, hs, hb, hn⟩
    exact ⟨by simp only [hu, hr, hs, Option.any_some, hb, decide_true, Bool.and_self],
      by simp only [hg, debugHart_core hl, hn, Option.isSome_none, Bool.false_eq_true, false_and, if_false,
        debugHalt_core hl]⟩
  case lockstep =>
    refine happens_of_event (fun e s => (rfl : _ = execDebugHaltRequest e req s)) ?_
    rintro u ⟨hl, hg, hr, hs, hb, hn, hp⟩
    have h8 : req.hart < 8 := by omega
    exact ⟨by simp only [h8, hr, hs, Option.any_some, hb, decide_true, Bool.and_self],
      by simp only [hg, hn, Option.isSome_none, Bool.false_eq_true, false_and, if_false, debugHalt_pair hl hp]⟩

end Sys2Proof.Machine
end

section
/-!
SUPPORT. The events at harts and memories (15 R445, R452, R469 to R472): what an access that is refused does,
by its kind.
-/

namespace Sys2Proof.Machine

/-- What a read does that finds an uncorrectable error: it is counted, and the load or fetch of a hart raises its access
fault at the address that the hart names (15 R471, R472). -/
theorem exec_uncorrectableRead {e : Stim} {who addr m : Nat} {s : State} (hw : who ≤ 16)
    (hm : memIndex (if who < 16 then aliasAddr (who % 8) addr else addr) = some m)
    (hr : who = 16 ∨ (s.advance e).hartRuns (who % 8) = true) :
    exec (.uncorrectableRead e who addr) s = .next
      (let u := uncorrectable m (if who < 16 then aliasAddr (who % 8) addr else addr) (s.advance e)
      if who < 8 then takeExc who 5 addr u else if who < 16 then takeExc (who - 8) 1 addr u else u) := by
  refine (rfl : _ = execUncorrectableRead e who addr s).trans ?_
  rw [execUncorrectableRead, event_true]
  · simp only [hm]
  · rw [hm]
    rcases hr with rfl | hr
    · rfl
    · simp only [hw, hr, Option.isSome_some, decide_true, Bool.or_true, Bool.and_self]

section
variable {h a : Nat} {acc : Access} {s : State}

/-- A load, store or fetch that no window ignores raises its access fault (15 R452). -/
theorem refuseAccess_faults (hk : acc.kind < 3) (hq : s.quiet h a acc = none) :
    refuseAccess h a acc s = takeExc h (if acc.kind = 0 then 5 else if acc.kind = 1 then 7 else 1) a
      (logFirst 3 0x40 (((s.partOfHart h).bind s.boundTen).getD 0xFF) a s) := by
  have h3 : acc.kind ≠ 3 := by omega
  have h4 : acc.kind ≠ 4 := by omega
  simp only [refuseAccess, h3, h4, hq, if_false]

/-- A load, store or fetch that a window ignores is recorded; a load reads 0, and a fetch is an illegal instruction
(15 R452, log 42). -/
theorem refuseAccess_ignored {mark group t : Nat} (hk : acc.kind < 3) (hq : s.quiet h a acc = some (mark, group, t)) :
    refuseAccess h a acc s =
      let v := logFirst mark group t a s
      if acc.kind = 0 then { v with rdata := [0] } else if acc.kind = 1 then v else takeExc h 2 0 v := by
  have h3 : acc.kind ≠ 3 := by omega
  have h4 : acc.kind ≠ 4 := by omega
  simp only [refuseAccess, h3, h4, hq, if_false]

/-- A misaligned LR, SC or AMO raises its address-misaligned exception (15 R443). -/
theorem refuseAccess_misaligned (hk : acc.kind = 3 ∨ acc.kind = 4) :
    refuseAccess h a acc s = takeExc h (if acc.kind = 3 then 4 else 6) a s := by
  rcases hk with hk | hk <;> simp [refuseAccess, hk]

end

/-- CSR TALLY reads the tick count of the tile (15 R444). -/
theorem csrRead_tally {h csr : Nat} {s : State} (hc : csr = 0xCC0) :
    s.csrRead h csr = some (s.now + s.tfr * 2 ^ 48) := if_pos hc

/-- Settles O42: each row by its condition and its effect. -/
theorem hartAndMemoryEventsHappen : Obligations.HartAndMemoryEventsHappen := by
  refine ⟨fun addr kind m => ?corrected, fun addr kind m => ?counted, fun who addr m => ?load, fun who addr m => ?fetch,
    fun who addr m => ?other, fun rd => ?tally, fun rd v => ?csr, fun hart csr => ?trap, fun who addr acc => ?refused,
    fun who addr acc mark group t => ?ignored, fun who addr acc => ?misaligned, fun hart => ?ecall⟩
  case corrected =>
    refine happens_of_event (fun e s => (rfl : _ = execPatrolRead e addr kind s)) ?_
    rintro u ⟨hr, hm, hl, rfl⟩
    exact ⟨by simp [hr, hm, hl], by simp only [hm, if_true]⟩
  case counted =>
    refine happens_of_event (fun e s => (rfl : _ = execPatrolRead e addr kind s)) ?_
    rintro u ⟨hr, hm, hl, rfl⟩
    exact ⟨by simp [hr, hm, hl], by simp [hm]⟩
  case load =>
    rintro e s u rfl ⟨hw, hm, hr⟩
    have hmod : who % 8 = who := Nat.mod_eq_of_lt hw
    have h16 : who < 16 := by omega
    rw [exec_uncorrectableRead (m := m) h16.le (by rw [if_pos h16, hmod, hm]) (.inr (by rw [hmod, hr])), if_pos h16,
      if_pos hw, hmod]
  case fetch =>
    rintro e s u rfl ⟨hl, hw, hm, hr⟩
    have hmod : who % 8 = who - 8 := by omega
    rw [exec_uncorrectableRead (m := m) hw.le (by rw [if_pos hw, hmod, hm]) (.inr (by rw [hmod, hr])), if_pos hw,
      if_neg (Nat.not_lt.2 hl), if_pos hw, hmod]
  case other =>
    rintro e s u rfl ⟨rfl, hm⟩
    exact exec_uncorrectableRead le_rfl hm (.inl rfl)
  case tally =>
    refine happens_of_event (fun e s => (rfl : _ = execTallyRead e rd s)) ?_
    rintro u ⟨hh, hc, hr, hrun⟩
    refine ⟨by simp only [hh, hr, hrun, csrRead_tally hc, Option.isSome_some, decide_true, Bool.and_self], ?_⟩
    rw [csrRead_tally hc, Option.getD_some]
    simp only [-Nat.reducePow, if_pos hc]
  case csr =>
    refine happens_of_event (fun e s => (rfl : _ = execTallyRead e rd s)) ?_
    rintro u ⟨hh, hc, hv, hr, hrun⟩
    exact ⟨by simp [hh, hr, hrun, hv], by simp only [hc, hv, if_false, Option.getD_some]⟩
  case trap =>
    refine happens_of_event (fun e s => (rfl : _ = execCsrWriteTrap e hart csr s)) ?_
    rintro u ⟨hh, hr, hrun, hl, hu⟩
    exact ⟨by simp [hh, hr, hrun, hl, hu], rfl⟩
  case refused =>
    refine happens_of_event (fun e s => (rfl : _ = execAccessRefused e who addr acc s)) ?_
    rintro u ⟨hw, hr, hrun, hk, hq, hm⟩
    exact ⟨by simp [hw, hr, hrun, hk, hq, hm]; omega, refuseAccess_faults hk hq⟩
  case ignored =>
    refine happens_of_event (fun e s => (rfl : _ = execAccessRefused e who addr acc s)) ?_
    rintro u ⟨hw, hr, hrun, hk, hq⟩
    exact ⟨by simp [hw, hr, hrun, hk, hq]; omega, refuseAccess_ignored hk hq⟩
  case misaligned =>
    refine happens_of_event (fun e s => (rfl : _ = execAccessRefused e who addr acc s)) ?_
    rintro u ⟨hw, hr, hrun, hk, hwidth, ha⟩
    have h3 : ¬ acc.kind < 3 := by omega
    have h5 : acc.kind < 5 := by omega
    exact ⟨by simp [hw, hr, hrun, h3, h5, ha]; omega, refuseAccess_misaligned hk⟩
  case ecall =>
    refine happens_of_event (fun e s => (rfl : _ = execEcall e hart s)) ?_
    rintro u ⟨hh, hr, hrun, hg⟩
    exact ⟨by simp [hh, hr, hrun, hg], rfl⟩

end Sys2Proof.Machine
end

section
/-!
SUPPORT. The VLT commands (16 R493 to R496, R501, R514, R515) and the watermark registers (16 R485 to R488): a call of
the Hiast takes its place among those that wait, and a write to a watermark register that stands alone.
-/

namespace Sys2Proof.Machine

/-- A call command joins those that wait for Teller's slots while the Vault runs, boots or restarts (16 R496). -/
theorem callExec_waits {c : Cmd} {b : State}
    (h : b.vlt.mode = .running ∨ b.vlt.mode = .booting ∨ b.vlt.mode = .restarting) :
    callExec c b = .ongoing (vltFill { b with vlt := { b.vlt with waiting := b.vlt.waiting ++ [c.id] } }) := by
  rcases h with h | h | h <;> simp only [callExec, h]

/-- A row of a call function opens: the call stands last among those that wait. -/
theorem opens_call {c : Stim → Req → Instr} {n : Nat} {data : Bool}
    (hc : ∀ e r s, exec (c e r) s = .next (submit (callSpec n data) r (arrived (callSpec n data) r e s))) :
    Opens c (callSpec n data)
      (fun _ b => b.vlt.mode = .running ∨ b.vlt.mode = .booting ∨ b.vlt.mode = .restarting)
      (fun id _ b => vltFill { b with vlt := { b.vlt with waiting := b.vlt.waiting ++ [id] } }) :=
  opens hc fun _ _ _ _ _ _ h => callExec_waits h

/-- Settles O43: the sixteen calls by `opens_call`, the other rows by what they execute. -/
theorem vaultCommandsComplete : Obligations.VaultCommandsComplete := by
  refine ⟨opens_call ?_, opens_call ?_, opens_call ?_, opens_call ?_, opens_call ?_, opens_call ?_, opens_call ?_,
    opens_call ?_, opens_call ?_, opens_call ?_, opens_call ?_, opens_call ?_, opens_call ?_, opens_call ?_,
    opens_call ?_, opens_call ?_, ?status, ?config, ?assign, ?waits, ?restarts, ?suspended, ?failed, ?retired, ?measure⟩
  case status => exact completes (row_submits_noAim (fun _ => rfl) fun _ _ _ => rfl) fun k r b _ _ _ _ => rfl
  case config =>
    refine completes (row_submits_noAim (fun _ => rfl) fun _ _ _ => rfl) fun k r b hp _ _ _ => ?_
    simp only [vltConfigSpec, hp, Ans.okay]
  case assign =>
    refine completes (row_submits_noAim (fun _ => rfl) fun _ _ _ => rfl) fun k r b hp _ _ h => ?_
    simp only [vltMboxAssignSpec, hp, h, ne_eq, not_true_eq_false, if_false, Ans.okay]
  case waits =>
    refine accepts (row_submits_noAim (fun _ => rfl) fun _ _ _ => rfl) fun k r b _ _ _ h => ?_
    rcases h with h | h <;> simp only [vltRestartSpec, h]
  case restarts =>
    refine accepts (row_submits_noAim (fun _ => rfl) fun _ _ _ => rfl) fun k r b _ _ _ ⟨h, h3⟩ => ?_
    have hm : (vaultRestart 3 b).vlt.mode = .restarting := vaultRestartBegin_mode 3 b h h3
    simp only [vltRestartSpec, h, hm, reduceCtorEq, if_false]
  case suspended =>
    refine fails (row_submits_noAim (fun _ => rfl) fun _ _ _ => rfl) fun k r b _ _ _ h => ?_
    simp only [vltRestartSpec, h, Ans.fail]
  case failed =>
    refine fails (row_submits_noAim (fun _ => rfl) fun _ _ _ => rfl) fun k r b _ _ _ h => ?_
    simp only [vltRestartSpec, h, Ans.fail]
  case retired =>
    refine fails (row_submits_noAim (fun _ => rfl) fun _ _ _ => rfl) fun k r b _ _ _ h => ?_
    simp only [vltRestartSpec, h, Ans.fail]
  case measure => exact completes (row_submits_noAim (fun _ => rfl) fun _ _ _ => rfl) fun k r b _ _ _ _ => rfl
  all_goals exact row_submits_noAim (fun _ => rfl) fun _ _ _ => rfl

section
variable {i : Nat} {v : Word} {s : State} (hb : (s.wm i).busy = false)
include hb

/-- A higher LEVEL is taken at once, of a memory other than the system SRAM (16 R486, R488). -/
theorem wmWrite_raises (h30 : bit v 30 = false) (hl : (s.wm i).level < wmLevel i v) (h0 : i ≠ 0) :
    wmWrite v s i = s.setWm i { s.wm i with level := wmLevel i v, target := wmLevel i v } := by
  simp only [wmWrite, hb, h30, hl, h0, Bool.false_eq_true, if_false, if_true, false_and]

/-- A lower LEVEL becomes the TARGET of a zeroisation (16 R487). -/
theorem wmWrite_lowers (h30 : bit v 30 = false) (hl : wmLevel i v < (s.wm i).level) :
    wmWrite v s i = s.setWm i { s.wm i with busy := true, target := wmLevel i v } := by
  simp only [wmWrite, hb, h30, hl, Nat.lt_asymm hl, Bool.false_eq_true, if_false, if_true]

/-- A write of the present LEVEL with bit 30 clears REFUSED alone (16 R485). -/
theorem wmWrite_clears (h30 : bit v 30 = true) (hl : wmLevel i v = (s.wm i).level) :
    wmWrite v s i = s.setWm i { s.wm i with refused := false } := by
  simp only [wmWrite, hb, h30, hl, lt_irrefl, Bool.false_eq_true, if_false, if_true]

end

/-- Settles O44: a write by what `wmWrite` does to the one register it applies to. -/
theorem watermarkEventsHappen : Obligations.WatermarkEventsHappen := by
  refine ⟨fun idx value => ?raise, fun idx value => ?lower, fun idx value => ?clear, fun idx => ?zeroise⟩
  case raise =>
    refine happens_of_event (fun e s => (rfl : _ = execWmRaise e idx value s)) ?_
    rintro u ⟨hu, hi, hl, ht, hb, h30, h0⟩
    exact ⟨by simp only [hu, hi, hl, decide_true, Bool.and_self],
      by rw [ht, List.foldl_cons, List.foldl_nil, wmWrite_raises hb h30 hl h0]⟩
  case lower =>
    refine happens_of_event (fun e s => (rfl : _ = execWmLower e idx value s)) ?_
    rintro u ⟨hu, hi, hl, ht, hb, h30⟩
    exact ⟨by simp only [hu, hi, hl, decide_true, Bool.and_self],
      by rw [ht, List.foldl_cons, List.foldl_nil, wmWrite_lowers hb h30 hl]⟩
  case clear =>
    refine happens_of_event (fun e s => (rfl : _ = execWmRefusedClear e idx value s)) ?_
    rintro u ⟨hu, hi, h30, ht, hl, hb⟩
    exact ⟨by simp only [hu, hi, h30, decide_true, Bool.and_self],
      by rw [ht, List.foldl_cons, List.foldl_nil, wmWrite_clears hb h30 hl]⟩
  case zeroise =>
    refine happens_of_event (fun e s => (rfl : _ = execZeroiseComplete e idx s)) ?_
    rintro u ⟨hi, hb⟩
    exact ⟨by simp only [hi, hb, decide_true, Bool.and_self], rfl⟩

end Sys2Proof.Machine
end

section
/-!
SUPPORT. The events of the Vault (16 R489 to R513): the gate, the mailbox, restarts and debug sessions.
-/

namespace Sys2Proof.Machine

/-- The later of two updates of a hart stands. -/
theorem setHart_setHart (s : State) (h : Nat) (x y : Hart) : (s.setHart h x).setHart h y = s.setHart h y := by
  simp [State.setHart, put_put]

/-- HASH with room for its digest (16 R514). -/
theorem callHash_fits {c : CallIn} {s : State} (h0 : cAlg c.w ≠ 0) (h6 : cAlg c.w ≤ 6)
    (hc : hashLen (cAlg c.w) ≤ c.cap) :
    callHash c s = ({ out := fit (hashLen (cAlg c.w)) (Config.hash (cAlg c.w) c.inp) }, s) := by
  have hbad : ¬(cAlg c.w = 0 ∨ 6 < cAlg c.w) := by omega
  rw [callHash, if_neg hbad, callOut, if_neg (by rw [length_fit]; omega)]

/-- A partition's HASH whose rights and block pass. -/
theorem partRun_hash {p : Nat} {t : Option Nat} {w : List Word} {who : Caller} {s : State}
    (hr : callRight 0x11 t s = none) (hb : blockOk 0x11 w = true) (ho : s.buffersOk p 0x11 w = true) (h0 : cAlg w ≠ 0)
    (h6 : cAlg w ≤ 6) (hc : hashLen (cAlg w) ≤ (cBuf w 2).2) :
    partRun p 0x11 t w who s =
      (some { out := fit (hashLen (cAlg w)) (Config.hash (cAlg w) (s.readMem (cBuf w 0).1 (cBuf w 0).2)) }, s) := by
  simp only [partRun, hr, hb, ho, Bool.not_true, Bool.or_self, Bool.false_eq_true, if_false, callRun]
  rw [callHash_fits h0 h6 hc]
  rfl

/-- A partition's call without the right ends with the status of that. -/
theorem partRun_denied {p f : Nat} {t : Option Nat} {w : List Word} {who : Caller} {st : Status} {s : State}
    (hr : callRight f t s = some st) : partRun p f t w who s = (some { st := st }, s) := by
  simp only [partRun, hr]

/-- A store to VGATE enters a call while the Vault runs (16 R489). -/
theorem vgateStore_enters {h v : Nat} {x : List Nat} {s : State} (hh : h < 4) (hv : v < 256)
    (hm : s.vlt.mode = .running) :
    vgateStore h 64 v x s =
      let regs := (List.range 31).foldl (fun r i => put r (i + 1) (BitVec.ofNat 64 (x.getD (i + 1) 0))) (s.hart h).x
      let y : Hart := { s.hart h with x := regs, pc := BitVec.ofNat 64 (x.getD 0 0) }
      let g : Shadow := { x := y.x, f := y.f, fcsr := y.fcsr, pc := y.pc, func := v
                          tenant := (s.partOfHart h).bind s.boundTen, since := s.clk }
      s.setHart h { y with gate := some g } := by
  have hc : ¬(4 ≤ h ∨ 64 ≠ 64 ∨ 256 ≤ v) := by omega
  simp only [vgateStore, if_neg hc, hm, State.hart_setHart, setHart_setHart, Nat.mod_eq_of_lt hv]

/-- A requester's access to a slot of its partition goes through (16 R493). -/
theorem slotOp_assigned {who n p : Nat} {f : State → State} {s : State} (hn : n < 64) (hp : (s.slot n).part = some p)
    (hw : who = 0x100 + p) : slotOp who n f s = f s := by
  simp only [slotOp, if_neg (Nat.not_le.2 hn), hp, hw, Option.any_some, beq_self_eq_true, if_true]

/-- The serving slot's call may end. -/
theorem any_serving {n t : Nat} {s : State} (hs : s.vlt.serving = some (n, t)) (hm : s.mayEnd (.slot n) = true) :
    s.vlt.serving.any (fun x => s.mayEnd (.slot x.1)) = true := by
  rw [hs, Option.any_some, hm]

/-- The call of a Hiast command in a slot that is a HASH with room for its digest. -/
theorem slotRun_hash {n : Nat} {c : Cmd} {s : State} (hc : (s.slot n).cmd.bind s.cmd? = some c)
    (hb : blockOk (s.slot n).func (s.slot n).call = true) (ho : hiastOk c.params = true) (hf : (s.slot n).func = 0x11)
    (h0 : cAlg (c.params.take 16) ≠ 0) (h6 : cAlg (c.params.take 16) ≤ 6)
    (hl : hashLen (cAlg (c.params.take 16)) ≤ (cBuf c.params 2).2) :
    slotRun n s =
      let d := Config.hash (cAlg (c.params.take 16)) (hiastCall c.tenant c.params).inp
      (some { out := fit (hashLen (cAlg (c.params.take 16))) d }, s) := by
  rw [hf] at hb
  simp only [slotRun, hc, hf, hb, ho, Bool.not_true, Bool.or_self, Bool.false_eq_true, if_false, callRun]
  rw [callHash_fits (c := hiastCall c.tenant c.params) h0 h6 hl]
  rfl

/-- The call of a partition's slot without the right. -/
theorem slotRun_denied {n p : Nat} {st : Status} {s : State} (hc : (s.slot n).cmd = none)
    (hp : (s.slot n).part = some p) (hr : callRight (s.slot n).func (s.boundTen p) s = some st) :
    slotRun n s = (some { st := st }, s) := by
  simp only [slotRun, hc, hp, Option.bind_none, partRun_denied hr]

/-- A token that passes opens a session or widens the one open, and consumes its nonce (16 R513). -/
theorem debugAuthorise_passes {tok : List Byte} {a : Auth} {s : State} (ha : debugAuth s.ident.lc = some a)
    (ht : tokenOk tok s.ident.lc.code s = true) (hn : nonceOk s.vlt.debugNonce tok s = true)
    (hu : nonceUsed s.vlt.debugNonce tok = true) (hs : sigsOk a tok s = true) :
    debugAuthorise tok s =
      let scope := le tok 2 2 &&& debugScopes s.ident.lc
      logNotice [0] 0xFF 0x4803 [wd (scope + 2 ^ 16)] { s with vlt := { s.vlt with
        debugNonce := none, session := some ((s.vlt.session.getD 0) ||| scope) } } := by
  simp only [debugAuthorise, ha, ht, hn, hu, hs, Bool.and_self, if_true]

/-- A token in a state that grants no session consumes its nonce alone (16 R513). -/
theorem debugAuthorise_closed {tok : List Byte} {s : State} (ha : debugAuth s.ident.lc = none)
    (hu : nonceUsed s.vlt.debugNonce tok = true) :
    debugAuthorise tok s = { s with vlt := { s.vlt with debugNonce := none } } := by
  simp only [debugAuthorise, ha, hu, Bool.false_eq_true, if_false, if_true]

/-- Settles O45: each row by its condition and its effect. -/
theorem vaultEventsHappen : Obligations.VaultEventsHappen := by
  refine ⟨fun hart width value x => ?enters, fun hart width value x => ?faults, fun hart g st => ?gateDenied,
    fun hart g => ?gateHash, fun who slot p => ?post, fun who slot p => ?release, fun n => ?serve,
    fun n at_ p st => ?slotDenied, fun n at_ c => ?slotHash, fun cause => ?crash, ?hang, fun digest => ?runs,
    fun failed => ?reseed, fun failed => ?unhealthy, fun f => ?fuse, ?claim, ?nonce, fun token => ?closed,
    fun token a => ?session, fun sc => ?ends⟩
  case enters =>
    refine happens_of_event (fun e s => (rfl : _ = execVgateStore e hart width value x s)) ?_
    rintro u ⟨hh, rfl, hv, hr, hrun, hg, hp, hm⟩
    have h8 : hart < 8 := by omega
    exact ⟨by simp only [h8, hr, hrun, hg, hp, Option.isNone_none, decide_true, Bool.and_self],
      vgateStore_enters hh hv hm⟩
  case faults =>
    refine happens_of_event (fun e s => (rfl : _ = execVgateStore e hart width value x s)) ?_
    rintro u ⟨hh, hbad, hr, hrun, hg, hp⟩
    exact ⟨by simp only [hh, hr, hrun, hg, hp, Option.isNone_none, decide_true, Bool.and_self], if_pos hbad⟩
  case gateDenied =>
    refine happens_of_event (fun e s => (rfl : _ = execGateReturn e hart s)) ?_
    rintro u ⟨hr, hm, he, hg, hc⟩
    exact ⟨by simp only [hr, hm, he, beq_self_eq_true, Bool.and_self], by simp only [hg, partRun_denied hc]⟩
  case gateHash =>
    refine happens_of_event (fun e s => (rfl : _ = execGateReturn e hart s)) ?_
    rintro u ⟨hr, hm, he, hg, hc, hf, hb, ho, h0, h6, hl⟩
    rw [hf] at hc
    exact ⟨by simp only [hr, hm, he, beq_self_eq_true, Bool.and_self],
      by simp only [hg, hf, partRun_hash hc hb ho h0 h6 hl]⟩
  case post =>
    refine happens_of_event (fun e s => (rfl : _ = execMbPost e who slot s)) ?_
    rintro u ⟨hn, hp, hw, hf, hm⟩
    exact ⟨rfl, by simp only [slotOp_assigned hn hp hw, slotPost, hf, hm, if_true, reduceCtorEq, if_false]; rfl⟩
  case release =>
    refine happens_of_event (fun e s => (rfl : _ = execMbRelease e who slot s)) ?_
    rintro u ⟨hn, hp, hw, hst⟩
    exact ⟨rfl, (slotOp_assigned hn hp hw).trans (if_pos hst)⟩
  case serve =>
    refine happens_of_event (fun e s => (rfl : _ = execMailboxServe e s)) ?_
    rintro u ⟨hh, hs, hf, hn, hl⟩
    exact ⟨by simp only [hh, hs, hf, hn, hl, Option.isNone_none, Option.isSome_some, decide_true, Bool.and_self],
      by simp only [hn]⟩
  case slotDenied =>
    refine happens_of_event (fun e s => (rfl : _ = execMailboxDone e s)) ?_
    rintro u ⟨hh, hs, he, hc, hp, hr⟩
    exact ⟨by rw [hh, any_serving hs he]; rfl, by simp only [hs, slotRun_denied hc hp hr]⟩
  case slotHash =>
    refine happens_of_event (fun e s => (rfl : _ = execMailboxDone e s)) ?_
    rintro u ⟨hh, hs, he, hc, hb, ho, hf, h0, h6, hl⟩
    exact ⟨by rw [hh, any_serving hs he]; rfl, by simp only [hs, slotRun_hash hc hb ho hf h0 h6 hl]⟩
  case crash =>
    refine happens_of_event (fun e s => (rfl : _ = execVaultRestart e cause s)) ?_
    rintro u ⟨hm, rfl⟩
    exact ⟨by simp only [hm, beq_self_eq_true, Bool.and_self], rfl⟩
  case hang =>
    refine happens_of_event (fun e s => (rfl : _ = execVaultHang e s)) ?_
    rintro u ⟨hm, hc | ht⟩
    · exact ⟨by simp only [hm, hc, beq_self_eq_true, Bool.true_or, Bool.and_self], rfl⟩
    · exact ⟨by simp only [hm, ht, beq_self_eq_true, decide_true, Bool.or_true, Bool.and_self], rfl⟩
  case runs =>
    refine happens_of_event (fun e s => (rfl : _ = execVaultRunning e digest s)) ?_
    rintro u ⟨hr, hm, hl⟩
    exact ⟨by simp [hr, hm, hl], by simp only [vaultRunning, hm, if_true]⟩
  case reseed =>
    refine happens_of_event (fun e s => (rfl : _ = execDrbgReseed e failed s)) ?_
    rintro u ⟨hm, rfl⟩
    exact ⟨by simp only [hm, beq_self_eq_true], rfl⟩
  case unhealthy =>
    refine happens_of_event (fun e s => (rfl : _ = execDrbgReseed e failed s)) ?_
    rintro u ⟨hm, rfl⟩
    exact ⟨by simp only [hm, beq_self_eq_true], rfl⟩
  case fuse =>
    refine happens_of_event (fun e s => (rfl : _ = execFuseWriteComplete e s)) ?_
    rintro u hf
    exact ⟨by rw [hf, Option.isSome_some], by simp only [hf]⟩
  case claim =>
    refine happens_of_event (fun e s => (rfl : _ = execVaultClaimRelease e s)) ?_
    rintro u hm
    exact ⟨bne_iff_ne.2 hm, rfl⟩
  case nonce =>
    rintro e s u rfl -
    rfl
  case closed =>
    rintro e s u rfl ⟨ha, hu⟩
    exact (rfl : _ = execDbgauth e token s).trans (by rw [execDbgauth, debugAuthorise_closed ha hu])
  case session =>
    rintro e s u rfl ⟨ha, ht, hn, hu, hs⟩
    exact (rfl : _ = execDbgauth e token s).trans (by rw [execDbgauth, debugAuthorise_passes ha ht hn hu hs])
  case ends =>
    refine happens_of_event (fun e s => (rfl : _ = execDbgend e s)) ?_
    rintro u hs
    exact ⟨by rw [hs, Option.isSome_some], by simp only [sessionEnd, hs]⟩

end Sys2Proof.Machine
end

section
/-!
SUPPORT. The STO commands (17 R526 to R535, R540 to R543): the gate of all of them once the device stands, the escrow's
answer to a commit, and the pages of an inline write.
-/

namespace Sys2Proof.Machine

/-- An STO command executes once the device is there, its map is built and no format runs (17 R518, R540, R542). -/
theorem stoGate_passes {run : Cmd → State → Ans} {c : Cmd} {s : State} (hs : s.sto.started = true)
    (ha : s.sto.absent = false) (hr : s.sto.rebuild = false) (hf : s.sto.format = none) : stoGate run c s = run c s :=
      by
  simp only [stoGate, hs, ha, hr, hf, Bool.not_true, Option.isSome_none, Bool.false_eq_true, if_false]

section
variable {c : Cmd} {j : StoJob} {t : Nat} {s : State} (hro : s.sto.readonly = false)
include hro

/-- A commit that the escrow grants at once (17 R535). -/
theorem commitAns_granted (hw : s.sto.waiting = []) (hf : s.escrowFits j.reserve = true) :
    commitAns c j t s = .ongoing (s.setSto { s.sto with jobs := s.sto.jobs ++ [j] }) := by
  simp only [commitAns, hro, hw, hf, Bool.false_eq_true, if_false, and_self, if_true]

/-- A commit that the escrow does not grant, with a TIMEOUT of 0 (17 R535). -/
theorem commitAns_noEnergy (hf : s.escrowFits j.reserve = false) (ht : t = 0) :
    commitAns c j t s = .fail .noEnergy (s.setSto { s.sto with noEnergy := satInc 0xFFFF s.sto.noEnergy }) := by
  simp only [commitAns, hro, hf, ht, Bool.false_eq_true, if_false, and_false, true_or, if_true]

end

/-- An inline write programs the one page it names (17 R529). -/
theorem writePages_inline {ps : List Word} {old : Nat → List Byte} {s : State} (hd : stoDma ps = false) :
    (writePages ps old s).map (·.1) = [stoPage ps] := by
  simp [writePages, hd]

/-- A staged inline write by its group's opener (17 R530). -/
theorem stageAns_staged {c : Cmd} {x : StoGroup} {s : State} (hd : stoDma c.params = false)
    (hg : s.grp (stoGroup c.params) = some x) (ho : x.opener = c.tenant) (hv : x.vol = stoVol c.params)
    (hro : s.sto.readonly = false) (hc : s.grpCommits (stoGroup c.params) = false)
    (hn : ((s.grpPages (stoGroup c.params)) ++ [stoPage c.params]).eraseDups.length ≤ 64) :
    stageAns c s =
      let ws := writePages c.params (fun p => (find? x.pages p).getD (s.volPage (stoVol c.params) p)) s
      let j : StoJob := { cmd := some c.id, vol := stoVol c.params, kind := .stage (stoGroup c.params) ws 1 }
      .ongoing (s.setSto { s.sto with jobs := s.sto.jobs ++ [j] }) := by
  have hl : ∀ old, (writePages c.params old s).length = 1 := fun old => by
    rw [← List.length_map, writePages_inline hd, List.length_singleton]
  simp only [stageAns, hg, ho, hv, hro, hc, writePages_inline hd, hl, Nat.not_lt.2 hn, ne_eq, not_true_eq_false,
    Bool.false_eq_true, if_false]

/-- Settles O46: each command by what it executes behind the gate. -/
theorem stoCommandsComplete : Obligations.StoCommandsComplete := by
  refine ⟨?format, ?same, ?resize, fun g => ?groupOpen, ?groupAbort, ?escrow, ?patrol, ?measure, ?energy, ?status⟩
  case format =>
    refine accepts (row_submits_noAim (fun _ => rfl) fun _ _ _ => rfl) fun k r b _ _ _ ⟨hs, ha, hr, hf, hj, hw⟩ => ?_
    simp only [stoFormatSpec, stoGate_passes hs ha hr hf, hj, hw, bne_self_eq_false, Bool.or_self, Bool.false_eq_true,
      if_false]
  case same =>
    refine completes_last (row_submits_noAim (fun _ => rfl) fun _ _ _ => rfl)
      fun k r b hp _ hid ⟨hs, ha, hr, hf, hcap, hb, hz, he⟩ => ?_
    simp only [stoVolConfigSpec, stoGate_passes hs ha hr hf, hp, hid, Nat.not_lt.2 hcap, hb, hz, he,
      Bool.false_eq_true, if_false, and_self, if_true, Ans.okay]
  case resize =>
    refine completes_last (row_submits_noAim (fun _ => rfl) fun _ _ _ => rfl)
      fun k r b hp _ hid ⟨hs, ha, hr, hf, hcap, hb, hz, h15, he, hst⟩ => ?_
    simp only [stoVolConfigSpec, stoGate_passes hs ha hr hf, hp, hid, Nat.not_lt.2 hcap, hb, hz, h15, he, hst,
      Bool.false_eq_true, if_false, false_and, Ans.okay]
  case groupOpen =>
    refine completes (row_submits_noAim (fun _ => rfl) fun _ _ _ => rfl)
      fun k r b hp ht _ ⟨hs, ha, hr, hf, hz, hg⟩ => ?_
    simp only [stoGroupOpenSpec, stoGate_passes hs ha hr hf, hp, ht, hz, hg, if_false, reduceCtorEq,
      List.length_singleton, Nat.mod_one, List.getD_cons_zero]
  case groupAbort =>
    refine completes (row_submits_noAim (fun _ => rfl) fun _ _ _ => rfl)
      fun k r b hp ht _ ⟨hs, ha, hr, hf, ho, hg, hc⟩ => ?_
    simp only [stoGroupAbortSpec, stoGate_passes hs ha hr hf, hp, ht, ho, hg, hc, Bool.not_true, Bool.false_eq_true,
      or_self, if_false, Ans.okay]
  case escrow =>
    refine completes (row_submits_noAim (fun _ => rfl) fun _ _ _ => rfl) fun k r b hp _ _ ⟨hs, ha, hr, hf⟩ => ?_
    simp only [stoEscrowConfigSpec, stoGate_passes hs ha hr hf, hp, Ans.okay]
  case patrol =>
    refine completes (row_submits_noAim (fun _ => rfl) fun _ _ _ => rfl) fun k r b hp _ _ ⟨hs, ha, hr, hf⟩ => ?_
    simp only [stoPatrolSpec, stoGate_passes hs ha hr hf, hp, Ans.okay]
  case measure =>
    refine accepts (row_submits_noAim (fun _ => rfl) fun _ _ _ => rfl) fun k r b _ _ _ ⟨hs, ha, hr, hf⟩ => ?_
    simp only [stoEscrowMeasureSpec, stoGate_passes hs ha hr hf]
  case energy =>
    refine completes (row_submits_noAim (fun _ => rfl) fun _ _ _ => rfl) fun k r b _ _ _ ⟨hs, ha, hr, hf⟩ => ?_
    simp only [stoEscrowStatusSpec, stoGate_passes hs ha hr hf]
  case status => exact completes (row_submits_noAim (fun _ => rfl) fun _ _ _ => rfl) fun k r b _ _ _ _ => rfl

/-- Settles O47: each command behind the gate; the commits by what the escrow answers. -/
theorem stoCommitsBegin : Obligations.StoCommitsBegin := by
  refine ⟨?read, ?readDma, ?write, fun x => ?stage, ?starved, ?trim, fun x => ?group⟩
  case read =>
    refine opens (row_submits_noAim (fun _ => rfl) fun _ _ _ => rfl) fun k r b hp _ _ ⟨hs, ha, hr, hf, hd, hz⟩ => ?_
    simp only [stoReadSpec, stoGate_passes hs ha hr hf, hp, hd, Nat.not_lt.2 hz, Bool.false_and, Bool.false_eq_true,
      if_false, List.range_one, List.flatMap_singleton, Nat.add_zero]
  case readDma =>
    refine opens (row_submits_noAim (fun _ => rfl) fun _ _ _ => rfl)
      fun k r b hp ht _ ⟨hs, ha, hr, hf, hd, hz, hm⟩ => ?_
    simp only [stoReadSpec, stoGate_passes hs ha hr hf, hp, ht, hd, hm, Nat.not_lt.2 hz, Bool.not_true,
      Bool.and_false, Bool.false_eq_true, if_false, if_true]
  case write =>
    refine opens (row_submits_noAim (fun _ => rfl) fun _ _ _ => rfl)
      fun k r b hp _ _ ⟨hs, ha, hr, hf, hd, hg, hz, hro, hw, he⟩ => ?_
    simp only [stoWriteSpec, stoGate_passes hs ha hr hf, hp, hd, hg, Nat.not_lt.2 hz, Bool.false_and,
      Bool.false_eq_true, if_false]
    exact commitAns_granted hro hw he
  case stage =>
    refine opens (row_submits_noAim (fun _ => rfl) fun _ _ _ => rfl)
      fun k r b hp ht _ ⟨hs, ha, hr, hf, hd, hg, hz, hx, ho, hv, hro, hc, hn⟩ => ?_
    rw [← hp] at hd hg hz hx hv hc hn ⊢
    simp only [stoWriteSpec, stoGate_passes hs ha hr hf, hd, hg, Nat.not_lt.2 hz, Bool.false_and, Bool.false_eq_true,
      if_false, if_true]
    exact stageAns_staged hd hx (ho.trans ht.symm) hv hro hc hn
  case starved =>
    refine fails (row_submits_noAim (fun _ => rfl) fun _ _ _ => rfl)
      fun k r b hp _ _ ⟨hs, ha, hr, hf, hd, hg, hz, hro, he, ht⟩ => ?_
    simp only [stoWriteSpec, stoGate_passes hs ha hr hf, hp, hd, hg, Nat.not_lt.2 hz, Bool.false_and,
      Bool.false_eq_true, if_false]
    exact commitAns_noEnergy hro he ht
  case trim =>
    refine opens (row_submits_noAim (fun _ => rfl) fun _ _ _ => rfl)
      fun k r b hp _ _ ⟨hs, ha, hr, hf, hz, hro, hw, he⟩ => ?_
    simp only [stoTrimSpec, stoGate_passes hs ha hr hf, hp, Nat.not_lt.2 hz, if_false]
    exact commitAns_granted hro hw he
  case group =>
    refine opens (row_submits_noAim (fun _ => rfl) fun _ _ _ => rfl)
      fun k r b hp ht _ ⟨hs, ha, hr, hf, hx, ho, hv, hg, hc, hro, hw, he⟩ => ?_
    have hright : openerRight r.tenant r.params b = true := by simp [openerRight, openerOk, hx, ho, hv]
    simp only [stoGroupCommitSpec, stoGate_passes hs ha hr hf, hp, ht, hx, hright, hg, hc, Bool.not_true,
      Bool.false_eq_true, or_self, if_false]
    exact commitAns_granted hro hw he

end Sys2Proof.Machine
end

section
/-!
SUPPORT. The events of Strongbox (17 R518 to R542) and the rows of the Ledger (17 R537 to R544): what each media
operation does at its end, by its kind.
-/

namespace Sys2Proof.Machine

/-- A measurement within bounds sets C; without a fault before it nothing is posted (17 R532). -/
theorem escrowMeasured_sound {drop : Nat} {s : State} (hf : s.sto.fault = false) (hlo : 400 ≤ (drop + 10) / 20)
    (hhi : (drop + 10) / 20 ≤ 5500) :
    escrowMeasured drop s =
      s.sto.measCmds.foldl (fun s id => finishCmd id .ok [wd ((drop + 10) / 20)] s) (s.setSto { s.sto with
        c := (drop + 10) / 20, charged := true, measuring := false, fault := false, measCmds := [] }) := by
  simp only [escrowMeasured, hf, Nat.not_lt.2 hlo, Nat.not_lt.2 hhi, decide_false, Bool.or_self, if_true]

/-- A page of a commit is programmed (17 R528, R533). -/
theorem pageProgrammed_commit {i left res : Nat} {g : Option Nat} {ws : Tbl (Option (List Byte))} {j : StoJob}
    {s : State} (hj : (takePage s).2.sto.jobs[i]? = some j) (hk : j.kind = .commit ws left res g) :
    pageProgrammed i s = escrowEval ((takePage s).2.setJob i (some { j with
      kind := .commit ws (left - 1) (res - s.sto.epage) g, phys := j.phys ++ [(takePage s).1] })) := by
  simp only [pageProgrammed, hj, hk]

/-- The journal record of a command's commit switches the map and completes the command (17 R528). -/
theorem journalled_commit {i id left res : Nat} {ws : Tbl (Option (List Byte))} {j : StoJob} {s : State}
    (hj : s.sto.jobs[i]? = some j) (hid : j.cmd = some id) (hk : j.kind = .commit ws left res none)
    (hb : s.inBrownout = false) :
    journalled i s = escrowEval (finishAll [id] .ok (mapPages j.vol ws j.phys (s.setJob i none))) := by
  simp only [journalled, hj, hk, hb, hid, Bool.not_false, if_true, Option.toList_some]

section
variable {i id page : Nat} {bits : List (List Nat)} {d : List Byte} {j : StoJob} {s : State}
  (hj : s.sto.jobs[i]? = some j) (hid : j.cmd = some id)
include hj hid

/-- An inline read whose page reads correctly answers its data (17 R541). -/
theorem readEnd_inline (hk : j.kind = .read page d none) (hb : (bits.take 1).findIdx? (fun l => !readable l) = none) :
    readEnd i bits s = finishCmd id .ok (wordsPad d) (readCount j.vol page (s.setJob i none)) := by
  simp only [readEnd, hj, hk, hid, hb, Option.isSome_none, Bool.false_eq_true, if_false, List.range_one,
    List.foldl_cons,
    List.foldl_nil, Nat.add_zero, Option.toList_some]

/-- A read into memory whose pages read correctly writes its data (17 R541). -/
theorem readEnd_dma {a : Nat} (hk : j.kind = .read page d (some a))
    (hb : (bits.take (d.length / 4096)).findIdx? (fun l => !readable l) = none)
    (hm : s.mayAccess (((s.cmd? id).map (·.tenant)).getD 0) a d.length 1 = true) :
    readEnd i bits s = finishAll [id] .ok (((List.range (d.length / 4096)).foldl
      (fun s k => readCount j.vol (page + k) s) (s.setJob i none)).writeMem a d) := by
  simp only [readEnd, hj, hk, hid, Option.isSome_some, if_true, hb, Option.bind_some, hm, Option.toList_some]

/-- A read with an uncorrectable page ends with MEDIA_ERROR (17 R525). -/
theorem readEnd_lost {k : Nat} {dma : Option Nat} (hk : j.kind = .read page d dma)
    (hb : (bits.take (if dma.isSome then d.length / 4096 else 1)).findIdx? (fun l => !readable l) = some k) :
    readEnd i bits s = finishAll [id] .mediaError (mediaLost j.vol (page + k)
      ((List.range (if dma.isSome then d.length / 4096 else 1)).foldl (fun s k => readCount j.vol (page + k) s)
        (s.setJob i none))) := by
  simp only [readEnd, hj, hk, hid, hb, Option.toList_some]

end

/-- Settles O48: each row by its condition and its effect. -/
theorem stoEventsHappen : Obligations.StoEventsHappen := by
  refine ⟨fun id => ?format, ?evaluation, fun cmd w id => ?timeout, fun mv => ?sample, fun mv => ?firstSample,
    fun drop => ?measured, fun cmd i j ws left res g => ?programmed, fun cmd j id res ws => ?journal,
    fun cmd bits j id page d => ?inlineRead, fun cmd bits j id page a d => ?dmaRead,
    fun cmd bits j id page k d dma => ?lostRead, fun vol page => ?failure, fun vol page result => ?patrol,
    fun vol page result => ?refresh, fun vol page result => ?lostPage, ?wear, fun ce0 ce1 marks => ?rebuilds,
    fun ce0 ce1 marks => ?resumes, ?rebuilt⟩
  case format =>
    refine happens_of_event (fun e s => (rfl : _ = execFormatComplete e s)) ?_
    rintro u ⟨ha, hf⟩
    exact ⟨by simp only [ha, hf, Option.isSome_some, Bool.and_self], by simp only [hf, Option.toList_some]⟩
  case evaluation =>
    exact happens_of_event (fun e s => (rfl : _ = execEscrowEvaluation e s)) fun u h => ⟨h, rfl⟩
  case timeout =>
    refine happens_of_event (fun e s => (rfl : _ = execCommitTimeout e cmd s)) ?_
    rintro u ⟨hw, hid, ht⟩
    exact ⟨by simp only [hw, Option.any_some, hid, Option.isSome_some, ht, decide_true, Bool.and_self],
      by simp only [hw, noEnergy, hid, Option.toList_some]; rfl⟩
  case sample =>
    refine happens_of_event (fun e s => (rfl : _ = execBankSample e mv s)) ?_
    rintro u ⟨ha, hc⟩
    exact ⟨ha, by simp only [hc, Bool.not_true, Bool.false_and, Bool.or_false]⟩
  case firstSample =>
    refine happens_of_event (fun e s => (rfl : _ = execBankSample e mv s)) ?_
    rintro u ⟨ha, hc, hv⟩
    exact ⟨ha, by simp only [hc, hv, Bool.not_false, decide_true, Bool.and_self, Bool.or_true]⟩
  case measured =>
    refine happens_of_event (fun e s => (rfl : _ = execEscrowMeasureEnd e drop s)) ?_
    rintro u ⟨ha, hm, hf, hlo, hhi⟩
    exact ⟨by simp only [ha, hm, Bool.and_self], escrowMeasured_sound hf hlo hhi⟩
  case programmed =>
    refine happens_of_event (fun e s => (rfl : _ = execPageProgramEnd e cmd s)) ?_
    rintro u ⟨ha, hn, hi, hl, hj, hk⟩
    exact ⟨by simp only [ha, hn, hi, Option.any_some, bne_iff_ne.2 hl, decide_true, Bool.and_self],
      pageProgrammed_commit hj hk⟩
  case journal =>
    refine happens_of_event (fun e s => (rfl : _ = execJournalRecordEnd e cmd s)) ?_
    rintro u ⟨ha, hn, hj, hid, hk, hb⟩
    exact ⟨by simp only [ha, hn, hj, Option.any_some, StoJob.left, StoJob.commits, hk, beq_self_eq_true, decide_true,
      Bool.and_self], journalled_commit hj hid hk hb⟩
  case inlineRead =>
    refine happens_of_event (fun e s => (rfl : _ = execMediaReadEnd e cmd bits s)) ?_
    rintro u ⟨ha, hn, hj, hid, hk, hb⟩
    exact ⟨by simp only [ha, hn, decide_true, Bool.and_self], readEnd_inline hj hid hk hb⟩
  case dmaRead =>
    refine happens_of_event (fun e s => (rfl : _ = execMediaReadEnd e cmd bits s)) ?_
    rintro u ⟨ha, hn, hj, hid, hk, hb, hm⟩
    exact ⟨by simp only [ha, hn, decide_true, Bool.and_self], readEnd_dma hj hid hk hb hm⟩
  case lostRead =>
    refine happens_of_event (fun e s => (rfl : _ = execMediaReadEnd e cmd bits s)) ?_
    rintro u ⟨ha, hn, hj, hid, hk, hb⟩
    exact ⟨by simp only [ha, hn, decide_true, Bool.and_self], readEnd_lost hj hid hk hb⟩
  case failure =>
    refine happens_of_event (fun e s => (rfl : _ = execProgramFailure e vol page s)) ?_
    rintro u ⟨ha, hab, hf, hv⟩
    exact ⟨by simp only [ha, hab, hf, hv, Bool.not_false, decide_true, Bool.and_self], rfl⟩
  case patrol =>
    refine happens_of_event (fun e s => (rfl : _ = execNandPatrol e vol page result s)) ?_
    rintro u ⟨hr, hab, hf, hv, hp, hm, h40, href⟩
    exact ⟨by simp only [hr, hab, hf, hv, hp, hm, Bool.not_false, decide_true, beq_self_eq_true, Bool.and_self],
      by simp only [patrolled, Nat.not_lt.2 h40, Nat.not_le.2 href, if_false]⟩
  case refresh =>
    refine happens_of_event (fun e s => (rfl : _ = execNandPatrol e vol page result s)) ?_
    rintro u ⟨hr, hab, hf, hv, hp, hm, h40, href⟩
    exact ⟨by simp only [hr, hab, hf, hv, hp, hm, Bool.not_false, decide_true, beq_self_eq_true, Bool.and_self],
      by simp only [patrolled, Nat.not_lt.2 h40, href, if_false, if_true]⟩
  case lostPage =>
    refine happens_of_event (fun e s => (rfl : _ = execNandPatrol e vol page result s)) ?_
    rintro u ⟨hr, hab, hf, hv, hp, hm, h40⟩
    exact ⟨by simp only [hr, hab, hf, hv, hp, hm, Bool.not_false, decide_true, beq_self_eq_true, Bool.and_self],
      by simp only [patrolled, h40, if_true]⟩
  case wear =>
    refine happens_of_event (fun e s => (rfl : _ = execWearLevelMove e s)) ?_
    rintro u ⟨hr, hf, hw⟩
    exact ⟨by simp only [hr, hf, hw, decide_true, Bool.and_self], rfl⟩
  case rebuilds =>
    refine happens_of_event (fun e s => (rfl : _ = execStxStart e ce0 ce1 marks s)) ?_
    rintro u ⟨hr, hs, hb⟩
    exact ⟨by simp only [hr, hs, Bool.not_false, Bool.and_self], by simp only [hb, if_true]⟩
  case resumes =>
    refine happens_of_event (fun e s => (rfl : _ = execStxStart e ce0 ce1 marks s)) ?_
    rintro u ⟨hr, hs, hb⟩
    exact ⟨by simp only [hr, hs, Bool.not_false, Bool.and_self], by simp only [hb, Bool.false_eq_true, if_false]⟩
  case rebuilt =>
    refine happens_of_event (fun e s => (rfl : _ = execTranslationRebuildEnd e s)) ?_
    rintro u ⟨hr, hb⟩
    exact ⟨by simp only [hr, hb, Bool.and_self], rfl⟩

/-- Settles O49: each row by what it executes. -/
theorem ledgerRowsComplete : Obligations.LedgerRowsComplete := by
  refine ⟨?status, ?read, fun d => ?checkpoint, ?missing, ?write, ?busy, ?persist, fun x rest => ?sign⟩
  case status => exact completes (row_submits_noAim (fun _ => rfl) fun _ _ _ => rfl) fun k r b _ _ _ _ => rfl
  case read =>
    refine completes (row_submits_noAim (fun _ => rfl) fun _ _ _ => rfl) fun k r b hp _ _ _ => ?_
    simp only [logReadSpec, hp]
  case checkpoint =>
    refine completes (row_submits_noAim (fun _ => rfl) fun _ _ _ => rfl) fun k r b hp _ _ h => ?_
    simp only [logCheckpointSpec, hp, h]
  case missing =>
    refine fails (row_submits_noAim (fun _ => rfl) fun _ _ _ => rfl) fun k r b hp _ _ h => ?_
    simp only [logCheckpointSpec, hp, h, Ans.fail]
  case write =>
    refine completes (row_submits_noAim (fun _ => rfl) fun _ _ _ => rfl) fun k r b hp ht _ h => ?_
    simp only [logWriteSpec, hp, ht, Nat.not_le.2 h, if_false]
  case busy =>
    refine fails (row_submits_noAim (fun _ => rfl) fun _ _ _ => rfl) fun k r b hp ht _ h => ?_
    simp only [logWriteSpec, ht, h, if_true, Ans.fail]
  case persist =>
    refine happens_of_event (fun e s => (rfl : _ = execLedgerPersist e s)) ?_
    rintro u ⟨hr, hp, hb, hn, hj⟩
    exact ⟨by simp only [hr, hp, hb, hn, hj, Bool.not_false, decide_true, Bool.and_self], rfl⟩
  case sign =>
    refine happens_of_event (fun e s => (rfl : _ = execCheckpointSign e s)) ?_
    rintro u ⟨hm, hd⟩
    exact ⟨by simp only [hm, hd, beq_self_eq_true, List.isEmpty_cons, Bool.not_false, Bool.and_self], by simp only [hd]⟩

end Sys2Proof.Machine
end

section
/-!
SUPPORT. The IMG commands and the events of image relay and update (18 R548 to R569): a command on a transfer, IMG_DATA
over bytes received and appended, and the outcomes of a relay's attempt.
-/

namespace Sys2Proof.Machine

section
variable {c : Cmd} {x : ImgXfer} {s : State}

/-- A command on a transfer that still stands, by the tenant that offered it or one that need not have (18 R557). -/
theorem onXfr_passes {free : Nat → Bool} {run : Nat → ImgXfer → Cmd → State → Ans}
    (hx : (settleXfers s).xfr (imgXfr c.params) = some x) (ht : x.tenant = c.tenant ∨ free c.tenant = true) :
    onXfr free run c s = run (imgXfr c.params) x c (settleXfers s) := by
  simp only [onXfr, hx, if_pos ht]

/-- IMG_DATA over bytes received before has no effect but on the transfer's time (18 R557). -/
theorem dataAns_again {n v : Nat} (hv : s.img.staging = some v) (hc : x.close = none)
    (hl : (par c.params 1).toNat + imgCount c.params ≤ x.data.length) :
    dataAns n x c s = .okay (s.setXfr n (some { x with at_ := s.clk })) := by
  simp only [dataAns, hv, hc, hl, Option.isSome_none, Bool.false_eq_true, if_false, if_true]

/-- IMG_DATA that goes on where the bytes received end is appended once the escrow grants its pages (18 R548, R557). -/
theorem dataAns_appends {n v pages : Nat} (hv : s.img.staging = some v) (hc : x.close = none)
    (ho : (par c.params 1).toNat = x.data.length) (h0 : 0 < imgCount c.params)
    (hl : x.data.length + imgCount c.params ≤ x.pklen)
    (hp : pages = (x.data.length + ((wordBytes (c.params.drop 2)).take (imgCount c.params)).length - 1) / 4096 -
      x.data.length / 4096 + 1)
    (hro : s.sto.readonly = false) (hw : s.sto.waiting = []) (hf : s.escrowFits (s.commitW pages) = true) :
    dataAns n x c s =
      let d := (wordBytes (c.params.drop 2)).take (imgCount c.params)
      let j : StoJob := { cmd := some c.id, vol := v, kind := .commit [] pages (s.commitW pages) none }
      .ongoing ((s.setSto { s.sto with jobs := s.sto.jobs ++ [j] }).setXfr n
        (some { x with data := x.data ++ d, at_ := s.clk })) := by
  have hnew : ¬(x.data.length + imgCount c.params ≤ x.data.length) := by omega
  have hbad : ¬(x.data.length ≠ x.data.length ∨ x.pklen < x.data.length + imgCount c.params) := by omega
  have hgrant := commitAns_granted (c := c) (t := 0) hro
    (j := { cmd := some c.id, vol := v, kind := .commit [] pages (s.commitW pages) none }) hw hf
  simp only [dataAns, hv, hc, ho, if_neg hnew, if_neg hbad, Option.isSome_none, Bool.false_eq_true, if_false, ← hp,
    hgrant]

end

/-- Settles O50: each command by what it executes on the transfers that still stand. -/
theorem imgCommandsComplete : Obligations.ImgCommandsComplete := by
  refine ⟨fun n => ?offer, fun x => ?again, fun x v pages => ?appends, fun x => ?close, fun x => ?abort, ?confirm,
    ?activates, ?reverts, ?status, ?peer, ?config⟩
  case offer =>
    refine completes (row_submits_noAim (fun _ => rfl) fun _ _ _ => rfl)
      fun k r b hp ht _ ⟨_, _, hst, hab, hroom, hi, hfree⟩ => ?_
    have hs : (settleXfers b).img.staging.isNone = false :=
      Option.isNone_eq_false_iff.2 (Option.isSome_iff_ne_none.2 hst)
    have hbusy : ¬([n] = [] ∨ ((settleXfers b).icomp (imgComp r.params)).st ≠ .idle ∧
        ((settleXfers b).icomp (imgComp r.params)).st ≠ .ready) := by
      rcases hi with hi | hi <;> simp [hi]
    simp only [imgOfferSpec, hp, ht, hs, hab, hroom, hfree, if_neg hbusy, Bool.or_self, Bool.not_true,
      Bool.false_eq_true, if_false, List.length_singleton, Nat.mod_one, List.getD_cons_zero]
  case again =>
    refine completes (row_submits_noAim (fun _ => rfl) fun _ _ _ => rfl)
      fun k r b hp ht _ ⟨hs, ha, hr, hf, hx, hten, hst, hc, hl⟩ => ?_
    obtain ⟨v, hv⟩ := Option.ne_none_iff_exists'.1 hst
    rw [← hp] at hx hl ⊢
    simp only [imgDataSpec, stoGate_passes hs ha hr hf, onXfr_passes hx (.inl (hten.trans ht.symm)),
      dataAns_again hv hc hl, Ans.okay]
  case appends =>
    refine opens (row_submits_noAim (fun _ => rfl) fun _ _ _ => rfl)
      fun k r b hp ht _ ⟨hs, ha, hr, hf, hx, hten, hv, hc, ho, h0, hl, hpg, hro, hw, he⟩ => ?_
    rw [← hp] at hx ho h0 hl hpg ⊢
    simp only [imgDataSpec, stoGate_passes hs ha hr hf, onXfr_passes hx (.inl (hten.trans ht.symm)),
      dataAns_appends hv hc ho h0 hl hpg hro hw he]
  case close =>
    refine opens (row_submits_noAim (fun _ => rfl) fun _ _ _ => rfl) fun k r b hp ht _ ⟨hx, hten, hc⟩ => ?_
    rw [← hp] at hx ⊢
    simp only [imgCloseSpec, onXfr_passes hx (.inl (hten.trans ht.symm)), hc, Option.isSome_none, Bool.false_eq_true,
      if_false]
  case abort =>
    refine completes (row_submits_noAim (fun _ => rfl) fun _ _ _ => rfl) fun k r b hp ht _ ⟨hx, hten⟩ => ?_
    rw [← hp] at hx ⊢
    have hmay : x.tenant = k.tenant ∨ (k.tenant == 0) = true := by rwa [beq_iff_eq, ht]
    simp only [imgAbortSpec, onXfr_passes (free := (· == 0)) hx hmay, Ans.okay]
  case confirm =>
    refine completes (row_submits_noAim (fun _ => rfl) fun _ _ _ => rfl) fun k r b hp _ _ ⟨hst, hw⟩ => ?_
    simp only [imgConfirmSpec, hp, hst, Nat.not_le.2 hw, ne_eq, not_true_eq_false, or_self, if_false, Ans.okay]
  case activates =>
    refine opens (row_submits_noAim (fun _ => rfl) fun _ _ _ => rfl) fun k r b hp _ _ ⟨hst, hn⟩ => ?_
    simp only [imgActivateSpec, hp, hst, hn, ne_eq, not_true_eq_false, false_and, or_self, if_false]
  case reverts =>
    refine opens (row_submits_noAim (fun _ => rfl) fun _ _ _ => rfl) fun k r b hp _ _ h => ?_
    have hbusy : ¬((b.icomp (imgComp r.params)).st ≠ .trial ∧ (b.icomp (imgComp r.params)).st ≠ .activating) := by tauto
    simp only [imgRevertSpec, hp, if_neg hbusy]
  case status =>
    refine completes (row_submits_noAim (fun _ => rfl) fun _ _ _ => rfl) fun k r b hp _ _ _ => ?_
    simp only [imgStatusSpec, hp]
  case peer =>
    refine completes (row_submits_noAim (fun _ => rfl) fun _ _ _ => rfl) fun k r b hp _ _ _ => ?_
    simp only [imgPeerSpec, hp, Ans.okay]
  case config =>
    refine completes (row_submits_noAim (fun _ => rfl) fun _ _ _ => rfl) fun k r b hp _ _ ⟨hx, hb⟩ => ?_
    have hnone : (List.range 4).any (fun n => ((settleXfers b).xfr n).isSome) = false :=
      List.any_eq_false.2 fun n hn => by simp [hx n (List.mem_range.1 hn)]
    simp only [imgConfigSpec, hp, hnone, hb, Bool.or_self, Bool.false_eq_true, if_false, Ans.okay]

section
variable {c : Nat} {r : ImgRelay} {s : State}

/-- Nothing goes on for a component without a relay. -/
theorem relayGo_none (h : s.relay? c = none) : relayGo c s = s := by simp only [relayGo, h]

/-- A relay that has been let go stands no longer. -/
theorem relay?_filter (l : List ImgRelay) : (l.filter (fun y => y.comp != c)).find? (fun y => y.comp == c) = none := by
  simp

/-- An attempt that succeeds ends the relay (18 R560). -/
theorem relayEnd_ok (hr : s.relay? c = some r) :
    relayEnd c 0 s =
      let s1 := notice 0 0x5802 [wd (c + r.entry * 2 ^ 8 + r.attempt * 2 ^ 16), wd 0] s
      { s1 with img := { s1.img with relay := s1.img.relay.filter (fun y => y.comp != c) } } := by
  rw [relayEnd, relayGo_none] <;> simp only [relayOutcome, hr, if_true, Nat.zero_mod]
  exact relay?_filter _

/-- A failed attempt before the sixth leaves the relay waiting for the next one (18 R560). -/
theorem relayEnd_fails {st : Nat} (hr : s.relay? c = some r) (hf : attemptFails st = true) (ha : r.attempt < 6) :
    relayEnd c st s = relayGo c (setRelay { r with active := false, failedAt := s.clk, step := .idle }
      (notice 0 0x5802 [wd (c + r.entry * 2 ^ 8 + r.attempt * 2 ^ 16), wd (st % 2 ^ 16)] s)) := by
  have h0 : st ≠ 0 := by rintro rfl; exact absurd hf (by decide)
  simp only [relayEnd, relayOutcome, hr, h0, hf, ha, if_false, decide_true, Bool.and_self, if_true]

end

/-- Settles O51: each row by its condition and its effect. -/
theorem imgEventsHappen : Obligations.ImgEventsHappen := by
  refine ⟨fun comp x => ?start, fun comp status x => ?succeeds, fun comp status x => ?fails, fun comp x => ?retry,
    fun xfr => ?install, fun xfr x => ?abandon, fun comp => ?activation, fun comp => ?health, fun comp => ?revert,
    fun port => ?watchdog⟩
  case start =>
    refine happens_of_event (fun e s => (rfl : _ = execRelayStart e comp s)) ?_
    rintro u ⟨hx, he⟩
    exact ⟨by rw [hx, Option.any_some, he]; rfl, by simp only [hx]⟩
  case succeeds =>
    refine happens_of_event (fun e s => (rfl : _ = execRelayOutcome e comp status s)) ?_
    rintro u ⟨hx, ha, rfl⟩
    exact ⟨by rw [hx, Option.any_some, ha], relayEnd_ok hx⟩
  case fails =>
    refine happens_of_event (fun e s => (rfl : _ = execRelayOutcome e comp status s)) ?_
    rintro u ⟨hx, ha, hf, hn⟩
    exact ⟨by rw [hx, Option.any_some, ha], relayEnd_fails hx hf hn⟩
  case retry =>
    refine happens_of_event (fun e s => (rfl : _ = execRelayRetry e comp s)) ?_
    rintro u ⟨hx, ha, he, ht⟩
    exact ⟨by simp only [hx, Option.any_some, ha, bne_iff_ne.2 he, ht, Bool.not_false, decide_true, Bool.and_self],
      by simp only [hx]⟩
  case install =>
    exact happens_of_event (fun e s => (rfl : _ = execInstallComplete e xfr s)) fun u h => ⟨h, rfl⟩
  case abandon =>
    refine happens_of_event (fun e s => (rfl : _ = execTransferAbandon e xfr s)) ?_
    rintro u ⟨hx, hc, ht⟩
    exact ⟨by simp only [hx, Option.any_some, ImgXfer.stale, hc, ht, Option.isNone_none, decide_true, Bool.and_self],
      rfl⟩
  case activation =>
    refine happens_of_event (fun e s => (rfl : _ = execActivationComplete e comp s)) ?_
    rintro u ⟨hst, ha, rfl⟩
    exact ⟨by simp only [hst, ha, beq_self_eq_true, Bool.not_false, Bool.true_or, Bool.and_self], rfl⟩
  case health =>
    refine happens_of_event (fun e s => (rfl : _ = execHealthWindowEnd e comp s)) ?_
    rintro u ⟨hst, hw⟩
    exact ⟨by simp only [hst, hw, beq_self_eq_true, decide_true, Bool.and_self], rfl⟩
  case revert =>
    refine happens_of_event (fun e s => (rfl : _ = execRevertComplete e comp s)) ?_
    rintro u ⟨hst, rfl⟩
    exact ⟨by simp only [hst, beq_self_eq_true, Bool.true_or, Bool.and_self], rfl⟩
  case watchdog =>
    refine happens_of_event (fun e s => (rfl : _ = execPhyFirmwareWatchdog e port s)) ?_
    rintro u ⟨hlo, hhi⟩
    exact ⟨by simp only [hlo, hhi, decide_true, Bool.and_self], rfl⟩

end Sys2Proof.Machine
end

section
/-!
SUPPORT. The rows of audits, Teller pairs and FAULT_N (19 R571 to R591).
-/

namespace Sys2Proof.Machine

/-- Settles O52: each row by its condition and its effect. -/
theorem auditRowsComplete : Obligations.AuditRowsComplete := by
  refine ⟨?run, ?summary, ?detail, ?status, ?clear, ?mask, fun fails rom x k ks => ?block,
    fun supplyMv refKhz x => ?breach, fun supplyMv refKhz => ?check, fun tp cmds => ?trip, fun tp => ?rejoin⟩
  case run =>
    refine accepts (row_submits_noAim (fun _ => rfl) fun _ _ _ => rfl) fun k r b hp _ _ ⟨hr, hi, hn, hl, hc⟩ => ?_
    simp only [tstAuditRunSpec, hp, hr, hi, Nat.not_lt.2 hn, hl, hc, Option.isSome_none, not_true_eq_false,
      Bool.not_true, Bool.false_eq_true, or_self, if_false]
  case summary =>
    refine completes (row_submits_noAim (fun _ => rfl) fun _ _ _ => rfl) fun k r b hp _ _ _ => ?_
    simp only [tstSummarySpec, hp]
  case detail =>
    refine completes (row_submits_noAim (fun _ => rfl) fun _ _ _ => rfl) fun k r b hp _ _ _ => ?_
    simp only [tstDetailSpec, hp]
  case status => exact completes (row_submits_noAim (fun _ => rfl) fun _ _ _ => rfl) fun k r b _ _ _ _ => rfl
  case clear =>
    refine completes (row_submits_noAim (fun _ => rfl) fun _ _ _ => rfl) fun k r b hp _ _ _ => ?_
    simp only [tstFaultClearSpec, hp, Ans.okay]
  case mask =>
    refine completes (row_submits_noAim (fun _ => rfl) fun _ _ _ => rfl) fun k r b hp _ _ _ => ?_
    simp only [tstFaultMaskSpec, hp, Ans.okay]
  case block =>
    refine happens_of_event (fun e s => (rfl : _ = execAuditBlockTest e fails rom s)) ?_
    rintro u ⟨hx, hk, hi, hc⟩
    exact ⟨by simp only [hx, Option.any_some, hk, List.head?_cons, hi, hc, Bool.and_self],
      by simp only [hx, hk, List.headD_cons]⟩
  case breach =>
    refine happens_of_event (fun e s => (rfl : _ = execAuditConditionCheck e supplyMv refKhz s)) ?_
    rintro u ⟨ha, hx, hk, hc⟩
    exact ⟨ha, by simp only [hx, Option.any_some, bne_iff_ne.2 hk, hc, Bool.not_false, Bool.and_self, if_true]⟩
  case check =>
    refine happens_of_event (fun e s => (rfl : _ = execAuditConditionCheck e supplyMv refKhz s)) ?_
    rintro u ⟨ha, hx⟩
    exact ⟨ha, by simp only [hx, Option.any_none, Bool.false_and, Bool.false_eq_true, if_false]⟩
  case trip =>
    refine happens_of_event (fun e s => (rfl : _ = execTellerPairTrip e tp cmds s)) ?_
    rintro u ⟨ht, hs⟩
    exact ⟨by simp only [ht, hs, decide_true, Bool.and_self], rfl⟩
  case rejoin =>
    refine happens_of_event (fun e s => (rfl : _ = execTellerPairRejoin e tp s)) ?_
    rintro u ⟨ht, hs, hb, hf⟩
    exact ⟨by simp only [ht, hs, hb, hf, Bool.not_false, decide_true, Bool.and_self], rfl⟩

end Sys2Proof.Machine
end
